-- ==== Sys2Proof/Word.lean ====
section
/-!
DEFINITION. The machine's word types: 64-bit registers and instruction words, and memory bytes (R2).
-/
namespace Sys2Proof

/-- A 64-bit register, field container or instruction word. -/
abbrev Word := BitVec 64

/-- One byte of memory. -/
abbrev Byte := BitVec 8

end Sys2Proof
end

