-- ==== Sys2Proof/Syntax.lean ====
section
/-!
DEFINITION. The commands of the block: one constructor per row of the opcode table.
-/
namespace Sys2Proof

/-- Outcome of an ECC check of what a command reads: nothing wrong, one error corrected, or an error that
cannot be corrected (R85, R281, R293). -/
inductive Ecc where
  | ok | corrected | uncorrectable
  deriving DecidableEq, Repr

/-- Who makes a register access, by the port it comes through (Table 21-7, R616). -/
inductive Ident where
  /-- The panel management controller. -/
  | mgmt
  /-- Its service session. -/
  | service
  /-- The PF under protocol 0x1100, or while no protocol is active. -/
  | hostPf
  /-- The PF under protocol 0x0300, as partition 0. -/
  | p7Pf
  /-- Virtual function p. -/
  | hostVf (p : Nat)
  /-- A server core of partition p. -/
  | server (p : Nat)
  /-- A compute-core task of partition p. -/
  | coreTask (p : Nat)
  deriving DecidableEq, Repr

/-- A transport packet: the fields of its header (Table 15-6) and its payload (R460). -/
structure Packet where
  type : Nat
  flags : Nat := 0
  dst : Nat := 0
  src : Nat := 0
  vc : Nat := 0
  hops : Nat := 0
  part : Nat := 0
  chseq : Nat := 0
  ackseq : Nat := 0
  pasid : Nat := 0
  jobTag : Nat := 0
  status : Nat := 0
  op : Nat := 0
  addr : Nat := 0
  collSeq : Nat := 0
  aux : Nat := 0
  step : Nat := 0
  sig : Nat := 0
  payload : List Byte := []
  deriving DecidableEq, Repr

/-- A trellis packet as its source presents it (R366, R369, R370): the nodes of its source and destination, its class code
of Table 12-1, its partition, its priority, its payload or data bytes, whether it is a prefetch, and, for a SEND.H
unit, the sending core and its token. -/
structure TrellisPkt where
  src : Nat
  dst : Nat
  cls : Nat
  part : Nat
  prio : Nat
  bytes : Nat
  pref : Bool
  sendH : Option (Nat × Nat)
  deriving DecidableEq, Repr

/-- Kinds of requests at an arbitration point (Table 12-3, R382): packets of the trellis, line fills, prefetch fills and
eviction write-backs of a GDDR controller, and transmits of a fabric port. -/
inductive ReqKind where
  | packet | fill | prefetch | writeBack | transmit
  deriving DecidableEq, Repr

/-- A request presented to the arbiter of a GDDR controller or a fabric port: its requester index, partition, kind and
size in bytes. -/
structure ArbReq where
  requester : Nat
  part : Nat
  kind : ReqKind
  size : Nat
  deriving DecidableEq, Repr

/-- What a server core does to memory (R524, R526): its number, the operation (0 load, 1 store, 2 fetch, 3 AMO, 4 LR, 5 SC),
virtual and physical address, bytes, store data, the AMO of Table 6-11 with its operands, whether its walk met a leaf that
raises a page fault, and whether a store-conditional fails for a reason of its own. -/
structure SrvAccess where
  core : Nat
  op : Nat
  va : Nat
  pa : Nat
  n : Nat
  data : List Byte
  aop : Nat
  b : Nat
  c : Nat
  pageFault : Bool
  scFail : Bool
  deriving DecidableEq, Repr

/-- The commands of the block: one constructor per row of the table, each with the rule of its row. -/
inductive Instr where
  /-- Scalar ADD, SUB, AND, OR, XOR, shifts, SLT, MIN and MAX of two registers (OPC 0x01) write XD. (R189) -/
  | aluReg (c : Nat)
  /-- Scalar ADDI to MAXUI (OPC 0x02) compute with the sign-extended IMM32 in place of XB. (R189) -/
  | aluImm (c : Nat)
  /-- MUL, MULH and MULHU (OPC 0x03) write the low or high product bits to XD. (R189) -/
  | mul (c : Nat)
  /-- LI writes the sign-extended IMM32 to XD. (R189) -/
  | li (c : Nat)
  /-- LIH writes IMM32 into XD[63:32] and keeps XD[31:0]. (R189) -/
  | lih (c : Nat)
  /-- A conditional branch (OPC 0x08) compares XA and XB and, when taken, checks the target and moves PC.
  (R190) -/
  | branch (c : Nat)
  /-- JAL writes PC + 8 to XD and jumps PC-relative. (R191) -/
  | jal (c : Nat)
  /-- JALR writes PC + 8 to XD and jumps to XA + IMM32. (R191) -/
  | jalr (c : Nat)
  /-- VSETVL sets VTYPE.EW and VL to min(request, VLMAX) and writes that length to xd. (R141) -/
  | vsetvl (c : Nat)
  /-- Vector integer add, subtract, multiply, high multiply, min and max with WRAP, SSAT or USAT modes. (R148)
  -/
  | vaddVsubVmul (c : Nat)
  /-- Vector bitwise AND, OR, XOR and ANDN over active elements. (R192) -/
  | vandVorVxor (c : Nat)
  /-- VSLL, VSRL, VSRA and the rounding shifts VSRR.L and VSRR.A per element. (R149) -/
  | vshift (c : Nat)
  /-- Integer compare writes one mask bit per element. (R151) -/
  | vcmp (c : Nat)
  /-- Floating-point compare writes one mask bit per element with NaN rules. (R151) -/
  | vfcmp (c : Nat)
  /-- KAND, KOR, KXOR, KANDN and KNOT operate on all 256 mask bits. (R192) -/
  | klogic (c : Nat)
  /-- Vector floating-point add, subtract, multiply and fused multiply-add with one rounding. (R152) -/
  | vfaddVfsubVfmulVfma (c : Nat)
  /-- Vector floating-point minimum and maximum with NaN and signed-zero rules. (R153) -/
  | vfminVfmax (c : Nat)
  /-- VEXP2, VLOG2, VRCP and VRSQRT return the bits that the defining pseudocode gives. (R157) -/
  | vapprox (c : Nat)
  /-- Format conversion with part index between element widths under Table 2-6. (R158) -/
  | vcvt (c : Nat)
  /-- Quantises one register into plain MX blocks and their scale side entries. (R40) -/
  | vqMx (c : Nat)
  /-- Quantises one register into TS4 blocks with scale and refinement codes. (R45) -/
  | vqTs4 (c : Nat)
  /-- Quantises one register into G8 blocks without a residual. (R46) -/
  | vqG8 (c : Nat)
  /-- Quantises an FP32 gradient into G8 with lees and writes back the new BF16 residuals. (R162) -/
  | vqG8l (c : Nat)
  /-- Dequantises one segment of a block-scaled register into FP32, BF16 or FP16. (R163) -/
  | vdq (c : Nat)
  /-- VREDSUM, VREDMAX and VREDMIN reduce active elements by the fixed tree into element 0. (R164) -/
  | vred (c : Nat)
  /-- VPERM writes each destination element from an indexed source element. (R166) -/
  | vperm (c : Nat)
  /-- VSLIDE.UP and VSLIDE.DN shift elements by s. (R166) -/
  | vslide (c : Nat)
  /-- VBCAST writes a scalar or one source element to every active element. (R166) -/
  | vbcast (c : Nat)
  /-- VEXT writes one source element, zero-extended, to a scalar register. (R166) -/
  | vext (c : Nat)
  /-- COMPRESS packs the selected elements to the low end of vd. (R167) -/
  | compress (c : Nat)
  /-- EXPAND scatters consecutive source elements to the selected positions. (R168) -/
  | expand (c : Nat)
  /-- COUNT, ANY, ALL and FIRST summarise a mask into a scalar register. (R169) -/
  | maskSummary (c : Nat)
  /-- MAXIDX and MINIDX return the index of the largest or smallest active element. (R170) -/
  | maxidxMinidx (c : Nat)
  /-- Issues a two-array product with the same K-slice to both arrays into A0 and A1. (R116) -/
  | mmaK16n128 (c : Nat)
  /-- Issues MMA.K16N128 against banks loaded transposed. (R128) -/
  | mmaK16n128T (c : Nat)
  /-- Issues a two-array product chained in K into one accumulator. (R119) -/
  | mmaK32n64 (c : Nat)
  /-- Issues a single-array product over all cells of array SEL. (R129) -/
  | mmaK16n64 (c : Nat)
  /-- Issues a single-array product over cell rows 0 to 7. (R129) -/
  | mmaK8n64 (c : Nat)
  /-- Issues a single-array product over cell columns 0 to 31. (R129) -/
  | mmaK16n32 (c : Nat)
  /-- MLW or MLW.T issues a weight-bank load into bank Wa.b of the named arrays and sets its format tag.
  (R124) -/
  | mlw (c : Nat)
  /-- MSW moves ACTIVE to the other bank of each named array. (R127) -/
  | msw (c : Nat)
  /-- MRD converts one accumulator row into vd and optionally clears the row. (R196) -/
  | mrd (c : Nat)
  /-- Scalar load from local store into x[DR]. (R197) -/
  | ldL (c : Nat) (e : Ecc)
  /-- Scalar store of x[DR] into local store. (R197) -/
  | stL (c : Nat)
  /-- Vector load of VL elements from local store. (R173) -/
  | vld (c : Nat) (e : Ecc)
  /-- Vector store of active elements to local store. (R173) -/
  | vst (c : Nat)
  /-- Synchronous scalar global load through the hub proxy. (R197) -/
  | ldG (c : Nat)
  /-- Synchronous scalar global store through the hub proxy. (R197) -/
  | stG (c : Nat)
  /-- Synchronous atomic performed at the home directory slice, returning the old value. (R201) -/
  | amoG (c : Nat)
  /-- Element-wise global gather from VSTART upward in element order. (R177) -/
  | gatherG (c : Nat)
  /-- Element-wise global scatter from VSTART upward in element order. (R177) -/
  | scatterG (c : Nat)
  /-- Starts an asynchronous transfer from global memory to local store on token TK. (R199) -/
  | xferL (c : Nat)
  /-- Starts an asynchronous transfer from local store to global memory on token TK. (R199) -/
  | xferS (c : Nat)
  /-- Starts sending a local-store range as 32 B units on an N, E, S or W port. (R202) -/
  | send (c : Nat)
  /-- Starts taking units from a port's receive FIFO into a local-store range. (R202) -/
  | recv (c : Nat)
  /-- Starts a remote write of a local-store range to a destination core's armed token. (R89) -/
  | sendH (c : Nat)
  /-- Arms a token with KIND 3 for arrivals into a range. (R205) -/
  | arm (c : Nat)
  /-- Does nothing. (R207) -/
  | nop (c : Nat)
  /-- Waits for earlier stores and tokens, then arrives at barrier IDX at the hub scheduler. (R209) -/
  | bar (c : Nat)
  /-- Holds issue until every token named in TMASK is idle. (R207) -/
  | twait (c : Nat)
  /-- Waits for earlier local-store writes, then discards the instruction buffer. (R86) -/
  | syncI (c : Nat)
  /-- Posts an event with CODE 0x8000 + CODE and PAYLOAD x[XA]. (R212) -/
  | evt (c : Nat)
  /-- Reads a core control register into XD. (R208) -/
  | crd (c : Nat)
  /-- Writes a core control register; a write of SRKEY also zeroes SRSEQ. (R208) -/
  | cwr (c : Nat)
  /-- Ends the core's program once all earlier work is done and reports completion to the scheduler. (R211) -/
  | endProg (c : Nat)
  /-- The scheduler releases a barrier when every member has arrived and, with ROUND, the round is staged.
  (R209) -/
  | barRelease (c : Nat)
  /-- A 64 B instruction line is fetched from local store into the instruction buffer. (R86) -/
  | instrFetch (c : Nat) (line : Nat) (ecc : Ecc)
  /-- The stream path starts a queued MMA once its predecessor's rows, latency and ramp allow. (R118) -/
  | mmaStart (c : Nat) (ecc : Ecc)
  /-- A weight-bank load finishes its 16 load cycles and frees the load path. (R125) -/
  | mlwLoadDone (c : Nat) (ecc : Ecc)
  /-- A due port row arrives in the FIFO and the waiting MMA resumes streaming. (R118) -/
  | portRowWaitEnd (c : Nat)
  /-- A sent 32 B unit enters the neighbour's receive FIFO. (R88) -/
  | streamUnitArrive (c : Nat) (port : Nat) (ecc : Ecc)
  /-- A credit returns to the sender after the receiver frees a FIFO entry. (R88) -/
  | creditReturn (c : Nat) (port : Nat)
  /-- A SEND.H unit arrives at the destination core and is written and counted, or refused. (R205) -/
  | sendHArrival (c : Nat) (ecc : Ecc)
  /-- An asynchronous transfer completes a 128 B block and its token becomes idle when DONE = LENGTH. (R199)
  -/
  | transferBlockDone (c : Nat) (t : Nat) (ecc : Ecc) (sound : Nat)
  /-- A synchronous global access completes or faults and releases issue. (R80) -/
  | globalAccessDone (c : Nat) (unit : Nat) (epoch : Nat)
  /-- After the retry hint, the hub proxy presents a UNIT_UNAVAILABLE core access again. (R99) -/
  | hubProxyRetry (c : Nat)
  /-- A stream instruction that moves no data for PORT_STALL_LIMIT posts one PORT_STALL event. (R91) -/
  | portStall (c : Nat) (op : Nat)
  /-- After a stop, the matrix queue and pending transfers finish draining. (R94) -/
  | coreDrainDone (c : Nat)
  /-- After EFFECTIVE_GAP gap cycles, an array's current level falls one quarter every 32 cycles. (R133) -/
  | keepLevelFall (c : Nat) (a : Nat)
  /-- An array with a due MMA raises its level by one quarter every 16 cycles until 100 %. (R134) -/
  | keepRampStep (c : Nat) (a : Nat)
  /-- A write of KEEP_GAP takes effect the next cycle and may start the ramp down. (R136) -/
  | keepCtlWrite (i : Ident) (st : Nat) (d : Nat) (v : Word)
  /-- A KERNEL command is checked and readied for its core set. (R402) -/
  | kernel (q : Nat) (seq : Nat)
  /-- The scheduler starts a ready KERNEL once its cores are free, loading code and launch state. (R219) -/
  | kernelLaunch (q : Nat) (seq : Nat)
  /-- The scheduler stops the cores of a task, at cheap points when preferred. (R416) -/
  | taskPreempt (q : Nat) (seq : Nat)
  /-- A core not at a cheap point after CHEAP_WINDOW stops at once. (R416) -/
  | cheapWindowExpiry (q : Nat) (seq : Nat)
  /-- A task of equal QPRIO that has run SLICE_US is pre-empted for a ready KERNEL. (R412) -/
  | sliceExpiry (q : Nat) (seq : Nat)
  /-- The scheduler writes a drained core's full or cheap save record. (R416) -/
  | coreSave (c : Nat)
  /-- A switched-out task is restored onto its cores and released to issue. (R417) -/
  | taskRestore (q : Nat) (seq : Nat)
  /-- A core fault fails the task: all cores are stopped and saved and the KERNEL completes. (R418) -/
  | taskFail (c : Nat) (hw : Bool)
  /-- A write of PREEMPT_REQ.GO requests pre-emption of the named job tag. (R415) -/
  | preemptReqGo (i : Ident) (stack : Nat) (v : Word)
  /-- A write of RT_RESERVE reserves rows, the mover or the collective engine for a partition. (R413) -/
  | rtReserveWrite (i : Ident) (stack : Nat) (v : Word)
  /-- The mover copies LENGTH bytes in ascending order and reports BYTES_DONE. (R405) -/
  | move (q : Nat) (seq : Nat) (n : Nat) (refuse : Nat) (park : Nat)
  /-- The mover writes the command's inline payload to the destination. (R406) -/
  | inlineWrite (q : Nat) (seq : Nat) (refuse : Nat) (park : Nat)
  /-- The EVENT command posts one software event from the queue block. (R406) -/
  | event (q : Nat) (seq : Nat)
  /-- Reads two registers of a page as one snapshot with the page's epoch and state. (R406) -/
  | query (q : Nat) (seq : Nat)
  /-- Starts after all earlier commands of its queue complete and holds later ones until it completes. (R409)
  -/
  | fence (q : Nat) (seq : Nat)
  /-- Completes when each named queue's DONE_UPTO reaches its sequence number. (R410) -/
  | barrier (q : Nat) (seq : Nat)
  /-- Arms a collective operation from its descriptor on a collective engine. (R474) -/
  | collective (q : Nat) (seq : Nat)
  /-- A BLEND command with OP UPDATE reads and checks its descriptor and map and arms. (R242) -/
  | blendUpdate (q : Nat) (seq : Nat)
  /-- A BLEND command with OP COMMIT is checked and armed, ready at once. (R260) -/
  | blendCommit (q : Nat) (seq : Nat)
  /-- Migrates every page of a range to the target stack's GDDR or to bays. (R320) -/
  | rack (q : Nat) (seq : Nat)
  /-- The queue block fetches the slot at SQ_HEAD when the ring has room and assigns its sequence number.
  (R396) -/
  | commandFetch (q : Nat)
  /-- A command waiting for an engine becomes active when an active command completes. (R411) -/
  | engineCmdActivate (q : Nat) (seq : Nat)
  /-- A refused request of a FAIL_FAST = 0 command is presented again after 256 HCLK cycles. (R407) -/
  | refusedRetry (q : Nat) (seq : Nat)
  /-- A submission doorbell write from the bound port advances TAIL. (R394) -/
  | sqTail (i : Ident) (q : Nat) (v : Word)
  /-- A completion doorbell write from the bound port advances HEAD. (R396) -/
  | cqHead (i : Ident) (q : Nat) (v : Word)
  /-- Setting QCFG.ENABLE zeroes ring indices and restarts sequence numbering. (R397) -/
  | qcfgEnableSet (i : Ident) (q : Nat) (v : Word)
  /-- Clearing QCFG.ENABLE stops fetching and completes unstarted commands with UNIT_UNAVAILABLE. (R398) -/
  | qcfgEnableClear (i : Ident) (q : Nat) (v : Word)
  /-- A management write of QBIND while IDLE binds the queue to a port identity. (R394) -/
  | qbindWrite (i : Ident) (q : Nat) (v : Word)
  /-- A management write of PART_CTLp defines or removes a partition under the epoch check. (R393) -/
  | partCtlWrite (i : Ident) (p : Nat) (v : Word)
  /-- A write of PART_STACKSp assigns logical stacks to a partition. (R393) -/
  | partStacksWrite (i : Ident) (p : Nat) (v : Word)
  /-- A write of PART_SRVp.i assigns server cores to a partition. (R393) -/
  | partSrvWrite (i : Ident) (p : Nat) (j : Nat) (v : Word)
  /-- A COPY, TOUCH, RACK or AWAIT manifest entry completes. (R223) -/
  | manifestEntryDone (q : Nat) (seq : Nat) (stack : Nat) (i : Nat) (n : Nat)
  /-- An entry ending with a failing status stops staging, saves the task and completes the KERNEL. (R233) -/
  | roundFailed (q : Nat) (seq : Nat) (stack : Nat) (entry : Nat) (status : Nat)
  /-- In each stall cycle the scheduler increases one stall counter. (R231) -/
  | roundStallCycle (q : Nat) (seq : Nat) (stack : Nat) (cause : Nat)
  /-- A barrier's stall time reaches STALL_REPORT_NS and one ROUND_STALL event is posted. (R234) -/
  | roundStall (q : Nat) (seq : Nat) (stack : Nat) (cause : Nat)
  /-- A collective engine's completion notice reaches blend engines and readies armed UPDATEs. (R244) -/
  | collCompletionNotify (stack : Nat) (jobTag : Nat) (seq : Nat)
  /-- The blend engine runs the next ready UPDATE or COMMIT tile by tile. (R253) -/
  | blendOpRun (stack : Nat) (park : Nat)
  /-- A PROG routine returns and its tile results are taken. (R256) -/
  | progReturn (stack : Nat) (core : Nat) (a0 : Nat) (buf : List Byte)
  /-- A PROG routine not returned after PROG_TIMEOUT ends the UPDATE with INTERNAL. (R256) -/
  | progTimeout (stack : Nat) (core : Nat)
  /-- A request reaches a hub-cache slice and is served with its hint on hit or miss. (R271) -/
  | cacheAccess (stack : Nat) (a : Nat) (n : Nat) (data : List Byte) (hint : Nat) (tag : Nat) (part : Nat) (ecc : Ecc) (req : Nat) (pasid : Nat) (va : Nat) (cycle : Nat)
  /-- A write of KEEP_RELEASE.GO starts a sweep lowering KEEP lines of a partition and tag. (R274) -/
  | keepReleaseGo (i : Ident) (stack : Nat) (v : Word)
  /-- The KEEP sweep passes every set and clears BUSY. (R274) -/
  | keepSweepDone (stack : Nat)
  /-- A write of CACHE_CTL.NEAR_WAYS takes effect only while QUIESCED. (R280) -/
  | nearWaysWrite (i : Ident) (stack : Nat) (v : Word)
  /-- A trained stream entry issues a prefetch up to EFF_DEPTH ahead. (R283) -/
  | prefetchIssue (stack : Nat) (entry : Nat)
  /-- A stream entry idle for 65,536 HCLK cycles becomes free. (R282) -/
  | streamEntryExpire (stack : Nat) (entry : Nat) (cycle : Nat)
  /-- The depth governor moves EFF_DEPTH by the useful and unused counts. (R284) -/
  | prefetchDepthAdjust (stack : Nat)
  /-- A GDDR controller serves a line read or write with controller ECC. (R293) -/
  | gddrAccess (st : Nat) (off : Nat) (n : Nat) (data : List Byte) (edc : Bool) (wait : Nat) (ecc : Ecc)
  /-- A transfer with a detection-code mismatch is issued again, up to four times. (R291) -/
  | gddrRetryAttempt (st : Nat) (g : Nat) (edc : Bool) (ecc : Ecc)
  /-- After the fifth failure the controller retrains the interface and retries the held request. (R292) -/
  | gddrRetrain (st : Nat) (g : Nat)
  /-- Every 250 µs the controller reads the device temperature and updates TSTATE. (R287) -/
  | gddrTempReading (st : Nat) (g : Nat) (t : Nat)
  /-- The controller issues refresh at the rate in force. (R288) -/
  | gddrRefresh (st : Nat) (g : Nat)
  /-- The background scrub reads the next line and treats errors as R293 states. (R295) -/
  | gddrScrub (st : Nat) (off : Nat) (ecc : Ecc)
  /-- A corrected line is rewritten in an idle device slot. (R295) -/
  | lineRewrite (st : Nat) (g : Nat)
  /-- Each HCLK cycle every enabled bucket rises by RATE ÷ 1,600 up to its bound. (R298) -/
  | regRefill (page : Nat) (cycles : Nat)
  /-- A write of REG_INDEX selects a regulator. (R302) -/
  | regIndexWrite (i : Ident) (page : Nat) (v : Word)
  /-- A write of REG_DATA changes the selected regulator from the next cycle. (R301) -/
  | regDataWrite (i : Ident) (page : Nat) (v : Word)
  /-- A bay root port serves a CXL.mem access and completes it with a status. (R306) -/
  | cellarAccess (b : Nat) (off : Nat) (n : Nat) (data : List Byte) (part : Nat) (hub : Option Nat) (pasid : Nat) (va : Nat) (wb : Bool) (media : Nat)
  /-- An unanswered request after REQ_TIMEOUT retrains the link, then faults the bay. (R307) -/
  | bayReqTimeout (b : Nat)
  /-- Mailbox command returning version, serial, capacity and endurance. (R309) -/
  | mbxOlmIdentify (i : Ident) (b : Nat) (len : Nat)
  /-- Mailbox command returning cartridge health. (R309) -/
  | mbxHealth (i : Ident) (b : Nat) (len : Nat)
  /-- Mailbox command returning endurance used. (R309) -/
  | mbxWear (i : Ident) (b : Nat) (len : Nat)
  /-- Mailbox command returning media and controller temperatures. (R309) -/
  | mbxTemperature (i : Ident) (b : Nat) (len : Nat)
  /-- Mailbox command keeping the cartridge at full power until EVAC_END. (R309) -/
  | mbxEvacBegin (i : Ident) (b : Nat) (len : Nat)
  /-- Mailbox command returning after acknowledged writes are in media. (R309) -/
  | mbxEvacEnd (i : Ident) (b : Nat) (len : Nat)
  /-- Mailbox command reporting whether the cartridge may lose power. (R309) -/
  | mbxRemovalReady (i : Ident) (b : Nat) (len : Nat)
  /-- A reserved mailbox opcode completes with VERSION_MISMATCH. (R309) -/
  | mbxReservedOpcode (i : Ident) (b : Nat) (op : Nat) (len : Nat)
  /-- The cartridge answers a mailbox command, clearing BUSY and setting RESULT. (R309) -/
  | mbxResponse (b : Nat) (result : Nat) (data : List Word)
  /-- Every 1 s the root port reads health, wear and temperature into BAY_STAT. (R310) -/
  | bayHealthPoll (b : Nat)
  /-- BAY_CTL.ADMIT sanitises the cartridge, identifies it and enters READY. (R312) -/
  | bayAdmit (i : Ident) (b : Nat) (epoch : Nat)
  /-- BAY_CTL.EVAC runs the counting pass and, with capacity, the copying pass. (R328) -/
  | bayEvac (i : Ident) (b : Nat) (epoch : Nat)
  /-- BAY_CTL.EVAC_CANCEL stops the copying pass at a page boundary. (R330) -/
  | bayEvacCancel (i : Ident) (b : Nat) (epoch : Nat)
  /-- Every counted page has moved; the bay sends EVAC_END and quiesces. (R330) -/
  | evacCopyDone (b : Nat)
  /-- A write of POOL_GIVE adds a free frame to a partition's pool. (R318) -/
  | poolGive (i : Ident) (page : Nat) (v : Word)
  /-- The racking engine moves one 4 KiB page and rewrites its PTE. (R315) -/
  | pageMigrate (stack : Nat) (idx : Nat) (race : Bool) (busy : Bool)
  /-- A deferred page is tried again after RETRY_US. (R315) -/
  | migrateDeferRetry (stack : Nat) (idx : Nat)
  /-- Hotness counts restart every HOT_WINDOW. (R321) -/
  | hotWindowRestart (stack : Nat)
  /-- A write of RESYNC copies the surviving copy over the other. (R325) -/
  | mirrorResync (i : Ident) (b : Nat) (j : Nat) (v : Word)
  /-- A resync ends, the range returns to SYNC and MIRROR_RESYNCED is posted. (R325) -/
  | mirrorResyncDone (b : Nat) (j : Nat)
  /-- Latch opening or link drop without evacuation fails outstanding requests and faults the bay. (R332) -/
  | baySurpriseRemoval (b : Nat) (absent : Bool)
  /-- A home acts on a read for a copy. (R342) -/
  | rdShared (agent : Nat) (line : Nat)
  /-- A home answers a prefetch read with DAT_S or PF_DROP. (R360) -/
  | rdPf (agent : Nat) (line : Nat)
  /-- A home acts on a read for ownership. (R342) -/
  | rdUnique (agent : Nat) (line : Nat)
  /-- A home grants ownership of a line held in S, or treats it as RD_UNIQUE. (R345) -/
  | upgrade (agent : Nat) (line : Nat)
  /-- A home returns the current value to a non-caching agent. (R342) -/
  | rdOnce (agent : Nat) (line : Nat) (off : Nat) (n : Nat)
  /-- A home performs a whole-line write after invalidating copies. (R342) -/
  | wrFull (agent : Nat) (line : Nat) (data : List Byte)
  /-- A home performs a partial write after invalidating copies. (R342) -/
  | wrPtl (agent : Nat) (line : Nat) (mask : Nat) (data : List Byte)
  /-- A home performs an atomic operation and returns the old value. (R201) -/
  | atomic (agent : Nat) (line : Nat) (off : Nat) (aop : Nat) (size : Nat) (b : Nat) (c : Nat)
  /-- An owner forwards the line to the requester and keeps S. (R343) -/
  | snpFwdS (agent : Nat) (line : Nat) (req : Nat)
  /-- An owner forwards the line and invalidates. (R343) -/
  | snpFwdU (agent : Nat) (line : Nat) (req : Nat)
  /-- A sharer invalidates its copy. (R343) -/
  | snpInv (agent : Nat) (line : Nat)
  /-- An agent returns dirty data to the home and invalidates. (R343) -/
  | snpRecall (agent : Nat) (line : Nat)
  /-- A home records an invalidation acknowledgement. (R344) -/
  | invAck (agent : Nat) (line : Nat)
  /-- A home records that an owner forwarded the line. (R342) -/
  | fwdAck (agent : Nat) (line : Nat)
  /-- A home receives a no-copy response and waits for the agent's eviction. (R344) -/
  | rspMiss (agent : Nat) (line : Nat)
  /-- A home removes an agent that dropped a clean line. (R342) -/
  | evictClean (agent : Nat) (line : Nat)
  /-- A home writes dirty data to memory and updates the entry. (R342) -/
  | datWb (agent : Nat) (line : Nat) (evict : Bool)
  /-- A requester receives ownership for its UPGRADE. (R345) -/
  | grant (agent : Nat) (line : Nat)
  /-- A non-caching requester receives write completion. (R341) -/
  | comp (agent : Nat) (line : Nat) (status : Nat)
  /-- A near-cache or L2 learns its prefetch was not served. (R360) -/
  | pfDrop (agent : Nat) (line : Nat)
  /-- The home receives COMP_ACK and closes the BUSY transaction. (R339) -/
  | compAck (agent : Nat) (line : Nat)
  /-- A requester receives the line in S. (R342) -/
  | datS (agent : Nat) (line : Nat) (status : Nat)
  /-- A requester receives the line in E. (R342) -/
  | datE (agent : Nat) (line : Nat) (status : Nat)
  /-- A requester receives the line in M. (R343) -/
  | datM (agent : Nat) (line : Nat) (status : Nat)
  /-- A non-caching requester receives read data or an atomic's old value. (R341) -/
  | datIo (agent : Nat) (line : Nat) (status : Nat)
  /-- A hub copy miss sends a translation request that the IOMMU answers. (R351) -/
  | translationRequest (stack : Nat) (dev : Nat) (pasid : Nat) (va : Nat) (write : Bool)
  /-- The IOMMU's reply fills the hub copy and releases the waiting access. (R351) -/
  | translationReply (stack : Nat) (dev : Nat) (pasid : Nat) (vpage : Nat)
  /-- Software's page-group response restores the task or fails it with TRANSLATION_FAULT. (R353) -/
  | atsPrgr (dev : Nat) (pasid : Nat) (vpage : Nat) (good : Bool)
  /-- The IOMMU forwards an invalidation to every READY hub copy, which acknowledges after draining. (R354) -/
  | iotinval (index : Nat) (gvma : Bool) (dev : Option Nat) (pasid : Option Nat) (va : Option Nat) (late : List Nat)
  /-- IOFENCE.C completes after all earlier invalidations are acknowledged. (R355) -/
  | iofenceC (addr : Option Nat) (data : Nat) (wsi : Bool)
  /-- An invalidation unacknowledged after 100 µs posts INV_SLOW. (R355) -/
  | invSlow (index : Nat)
  /-- The translation prefetcher walks ahead of a stream and fills hub copy entries. (R361) -/
  | translationPrefetch (stack : Nat) (dev : Nat) (pasid : Nat) (va : Nat) (ahead : Nat) (write : Bool)
  /-- A host-aperture miss sends a PCIe Translation Request and holds the access. (R356) -/
  | atsTranslationRequest (part : Nat) (off : Nat) (write : Bool)
  /-- A Translation Completion fills the ATC or triggers a PRI Page Request. (R357) -/
  | translationCompletion (fn : Nat) (off : Nat) (size : Nat) (supported : Bool) (read : Bool) (write : Bool)
  /-- A Page Request Group Response retries the translation or fails the access. (R357) -/
  | prgResponse (fn : Nat) (off : Nat) (success : Bool)
  /-- A host invalidation removes ATC entries and completes after their accesses. (R358) -/
  | atsInvalidateRequest (fn : Nat) (base : Nat) (size : Nat)
  /-- A racking shootdown removes every TLB entry of a page in every server core. (R529) -/
  | shootdown (part : Nat) (vpage : Nat)
  /-- A trellis flit is received; a CRC failure causes replay from the sender. (R367) -/
  | flitReceive (stack : Nat) (d : Nat) (crcOk : Bool)
  /-- A link goes down; held packets wait for the rebuild. (R374) -/
  | trellisLinkDown (stack : Nat) (d : Nat)
  /-- A router routes a packet by its table and lane turn rules. (R371) -/
  | packetRoute (node : Nat) (src : Nat) (requester : Nat) (inj : Option TrellisPkt)
  /-- An arbiter grants the next data phase in the cycle before it begins. (R379) -/
  | arbitration (page : Nat) (o : Nat) (cycles : Nat) (reqs : List ArbReq)
  /-- A priority write governs arbitrations whose sample edge lies at least one cycle after it lands. (R381)
  -/
  | prioWrite (i : Ident) (page : Nat) (v : Word) (late : Bool)
  /-- A write of ARB_SHARE selects a partition and optionally sets its SHARE. (R387) -/
  | arbShareWrite (i : Ident) (page : Nat) (o : Nat) (v : Word)
  /-- An entry older than STARVE_LIMIT sets STARVED and posts one event. (R388) -/
  | arbStarved (page : Nat) (o : Nat) (cycles : Nat)
  /-- The panel management controller holds injection, drains, rewrites every table and releases. (R373) -/
  | routeRebuild (tables : List (Nat × Nat × Nat))
  /-- Setting INJECT_HOLD stops a router injecting new packets. (R373) -/
  | injectHoldSet (i : Ident) (stack : Nat)
  /-- Clearing INJECT_HOLD resumes injection and re-injects held packets. (R374) -/
  | injectHoldClear (i : Ident) (stack : Nat)
  /-- A router leaving READY for OFF or FAULTED loses its packets. (R375) -/
  | routerLoss (p : Nat) (off : Bool)
  /-- A host access to BAR0 is performed, filtered or rejected. (R422) -/
  | bar0Access (fn : Nat) (off : Nat) (n : Nat) (write : Option Word)
  /-- A doorbell write through BAR4 acts as SQ_TAIL or CQ_HEAD of the queue. (R423) -/
  | bar4Doorbell (fn : Nat) (off : Nat) (size : Nat) (write : Bool) (v : Word)
  /-- A host write to a BAR2 slot is forwarded to a member or discarded. (R431) -/
  | windowWrite (p : Nat) (off : Nat) (bytes : List Byte)
  /-- A read of a slot's flush register completes after earlier writes are visible and returns discard status.
  (R434) -/
  | windowFlush (p : Nat) (slot : Nat)
  /-- The host port sends an MSI-X message or sets its pending bit. (R425) -/
  | msixSend (fn : Nat) (entry : Nat)
  /-- Clearing a mask sends a pending MSI-X message. (R425) -/
  | msixUnmask (fn : Nat) (entry : Nat)
  /-- A host read completion arrives and completes the access with its status. (R429) -/
  | hostReadCompletion (core : Bool) (x : Nat) (y : Nat) (result : Nat) (bytes : List Byte)
  /-- No completion within the host's timeout completes the access with TIMEOUT. (R429) -/
  | hostCompletionTimeout (core : Bool) (x : Nat) (y : Nat)
  /-- A mover stalled for HOST_STALL_LIMIT abandons its page and completes with HOST_PARTIAL. (R435) -/
  | hostStall (q : Nat) (seq : Nat)
  /-- Link down, reset, PF FLR or VF Enable clear faults the host port and drains host work. (R439) -/
  | hostLoss (cause : Nat)
  /-- Host loss under protocol 0x0300 resets the module. (R445) -/
  | p7HostLoss (cause : Nat) (strap : Bool)
  /-- The link reaches L0 with the PF configured and the page returns to READY with a new epoch. (R440) -/
  | hostLinkUp (width : Nat) (rate : Nat) (vfs : Nat) (masters : Nat) (msix : Nat)
  /-- A VF Function Level Reset drains that VF's partition only. (R441) -/
  | vfFlr (p : Nat)
  /-- The link passes through Recovery back to L0 losing nothing. (R437) -/
  | linkRecovery
  /-- HOST_ATTACH.GO negotiates the command protocol version. (R443) -/
  | hostAttach (i : Ident) (v : Word)
  /-- HOST_ATTACH.DETACH disables HOST_VF queues and clears VER_ACTIVE. (R443) -/
  | hostDetach (i : Ident) (v : Word)
  /-- WIN_CTL.RELOAD drops a partition's cached window entries. (R432) -/
  | winReload (i : Ident) (v : Word)
  /-- Setting NumVFs above 0 under protocol 0x0300 is treated as host loss. (R444) -/
  | numvfsSetP7 (n : Nat) (strap : Bool)
  /-- A fabric flit is accepted in order or discarded with NAK. (R450) -/
  | fabricFlitReceive (f : Nat) (b : List Byte) (fixed : Nat) (lost : Nat)
  /-- The receiver acknowledges at least every 256 flits or 1 µs. (R450) -/
  | fabricAckTimer (f : Nat)
  /-- No flit for 100 µs takes the port down. (R452) -/
  | fabricSilence (f : Nat)
  /-- A lane loses signal and the port goes down. (R452) -/
  | laneSignalLoss (f : Nat)
  /-- 1 s after going down, the port starts bring-up again. (R452) -/
  | bringupRestart (f : Nat)
  /-- Training or alignment completes and the port moves to the next bring-up state. (R455) -/
  | bringupStageDone (f : Nat)
  /-- A bring-up state exceeding its bound returns the port to DOWN. (R455) -/
  | bringupTimeout (f : Nat)
  /-- A partner's vintage message is received and the version negotiated. (R456) -/
  | vintageMessage (f : Nat) (b : List Byte)
  /-- Every 100 µs in VINTAGE the port resends its message. (R456) -/
  | vintageResend (f : Nat)
  /-- A transport WRITE executes in channel order at the destination. (R462) -/
  | write (f : Nat) (p : Packet)
  /-- A transport read request executes and returns READ_RSP. (R462) -/
  | readReq (f : Nat) (p : Packet)
  /-- A read response completes the requester's read. (R462) -/
  | readRsp (f : Nat) (p : Packet)
  /-- A transport ATOMIC is performed at the destination's home. (R465) -/
  | fabricAtomic (f : Nat) (p : Packet)
  /-- An atomic response completes the requester's atomic. (R465) -/
  | atomicRsp (f : Nat) (p : Packet)
  /-- An EVENT_POST packet posts one event at the destination. (R465) -/
  | eventPost (f : Nat) (p : Packet)
  /-- A collective step is received, combined and passed on, or NAKed when not armed. (R475) -/
  | collStep (f : Nat) (p : Packet)
  /-- A transport ACK retires a channel's packets up to ACKSEQ. (R462) -/
  | ack (f : Nat) (p : Packet)
  /-- A transport NAK completes the operation at its source with the carried status. (R464) -/
  | nak (f : Nat) (p : Packet)
  /-- A received STRAGGLE extends that collective's timeout. (R482) -/
  | straggle (f : Nat) (p : Packet)
  /-- A received ABORT completes the active collective with the carried status. (R479) -/
  | abort (f : Nat) (p : Packet)
  /-- A member receives a forwarded command and writes it to its queue. (R469) -/
  | groupCmd (f : Nat) (p : Packet)
  /-- The master receives a member completion and writes it to the forwarding queue. (R469) -/
  | groupCpl (f : Nat) (p : Packet)
  /-- After a REFUSED_FULL NAK the master resends the command after 100 µs. (R469) -/
  | groupCmdResend (q : Nat) (seq : Nat)
  /-- The master issues a member's forwarded host-aperture access. (R470) -/
  | hostFwdReq (f : Nat) (p : Packet)
  /-- A member receives the reply to its forwarded host access. (R470) -/
  | hostFwdRsp (f : Nat) (p : Packet)
  /-- A member receives a window write forwarded by the master. (R470) -/
  | winWrite (f : Nat) (p : Packet)
  /-- A member answers a forwarded flush once the writes are visible. (R470) -/
  | winFlush (f : Nat) (p : Packet)
  /-- A member receives a GROUP_HELLO carrying strap and host-link state. (R467) -/
  | groupHello (f : Nat) (p : Packet)
  /-- Every 10 ms during formation a member sends GROUP_HELLO. (R467) -/
  | groupHelloTimer
  /-- After 30 s the master forms the group, marking silent members ABSENT. (R467) -/
  | groupFormTimeout
  /-- GROUP_CTL.FORM or a first host link-up starts formation. (R466) -/
  | groupForm (i : Ident) (v : Word)
  /-- With no ACK for RETX_US a sender retransmits, failing the channel after eight tries. (R463) -/
  | retxTimer (dst : Nat) (vc : Nat) (port : Nat)
  /-- A NAKed COLL_STEP is resent after RETRY_US. (R478) -/
  | collStepResend (q : Nat) (seq : Nat)
  /-- A collective exceeding its timeout fails and sends ABORT. (R479) -/
  | collTimeout (q : Nat) (seq : Nat)
  /-- A management write of MODULE_CFG sets the module ID while all ports are DOWN. (R457) -/
  | moduleCfgWrite (i : Ident) (v : Word)
  /-- STREAM_CTL.START reads and checks the descriptor and starts the stream. (R490) -/
  | streamStart (i : Ident) (n : Nat) (k : Nat)
  /-- STREAM_CTL.STOP stops a running stream at the next record boundary. (R515) -/
  | streamStop (i : Ident) (n : Nat) (k : Nat)
  /-- STREAM_CTL.RESTART resumes a stopped stream from STREAM_POS. (R514) -/
  | streamRestart (i : Ident) (n : Nat) (k : Nat) (epoch : Nat) (discard : Bool)
  /-- A REQ_TAIL write hands requests to the stream. (R492) -/
  | reqTail (i : Ident) (n : Nat) (k : Nat) (v : Word)
  /-- A stream reads, checks, decodes and places the record at its next position. (R498) -/
  | recordProcess (n : Nat) (k : Nat)
  /-- A server-core load ending with an error status raises an exception or retries. (R526) -/
  | srvLoadError (c : Nat) (op : Nat) (va : Nat) (status : Nat)
  /-- An ownership failure for a retired store discards it and posts SRV_STORE_LOST. (R527) -/
  | srvStoreLost (c : Nat) (pa : Nat) (status : Nat)
  /-- A server-core cache-block operation acts on the whole 128 B line, or zeroes 64 B. (R522) -/
  | cbo (c : Nat) (op : Nat) (va : Nat) (pa : Nat)
  /-- A server-core FENCE with O or W waits for earlier writes to be accepted or visible. (R533) -/
  | srvFenceIo (c : Nat) (predO : Bool) (predW : Bool)
  /-- An aligned write to seteipnum_le of an interrupt file raises an identity. (R530) -/
  | imsicWrite (who : Nat) (off : Nat) (n : Nat) (data : Nat)
  /-- Clearing MASKED on a pending MSI table entry sends it once. (R531) -/
  | msiUnmask (part : Nat) (vec : Nat)
  /-- A compute die steps its CCLK divisor at the next 25 ns boundary. (R536) -/
  | divStep (st : Nat) (d : Nat)
  /-- A die's voltage ramp reaches the target and the next move proceeds. (R538) -/
  | voltageRampDone (st : Nat) (d : Nat)
  /-- A core idle for GATE_US is power-gated. (R540) -/
  | powerGate (c : Nat)
  /-- Every 100 µs the cellar master reads sensors and acts at WARN or TRIP. (R541) -/
  | sensorReading (c : Nat) (i : Nat) (v : Nat) (peak : Nat)
  /-- After 10 ms of readings below WARN − 5 K the WARN ends. (R541) -/
  | warnEnd (c : Nat) (i : Nat)
  /-- A cause's demanded ceiling moves one point slower every 1 ms or faster every 10 ms. (R542) -/
  | ceilStep (c : Nat) (i : Nat)
  /-- A feed below 700 V for 100 µs adds the single-feed cause and caps the keeper. (R546) -/
  | feedLoss (f : Nat) (volt : Nat)
  /-- A feed back in range for 1 s ends the single-feed cause. (R546) -/
  | feedRestore (f : Nat) (volt : Nat)
  /-- A feed above 860 V for 1 ms is disconnected and treated as lost. (R630) -/
  | feedOverVoltage (f : Nat) (volt : Nat)
  /-- Every SCLK cycle PANEL_TIME increases by 5, or 4 or 6 when correcting. (R547) -/
  | panelTimeTick (n : Nat) (adj : Nat)
  /-- A NULL-flit time exchange with the partner measures the offset and may lock. (R548) -/
  | timeExchange (f : Nat) (source : Nat) (hops : Nat) (t1 : Nat) (t2 : Nat) (t3 : Nat) (t4 : Nat)
  /-- LOCKED clears after 1 s without an exchange. (R549) -/
  | timeLockLoss
  /-- A write of DIE_PWR_BOUND changes the die's permitted range. (R550) -/
  | diePwrBoundWrite (i : Ident) (st : Nat) (d : Nat) (v : Word)
  /-- A generated event is routed and written into an event queue or dropped. (R559) -/
  | eventPosting
  /-- A write of EVQ_HEAD consumes records and re-arms the interrupt. (R562) -/
  | evqHead (i : Ident) (e : Nat) (v : Word)
  /-- A write of EVQ_CFG configures or enables a queue, zeroing TAIL and HEAD. (R561) -/
  | evqCfgWrite (i : Ident) (e : Nat) (v : Word)
  /-- A read of EVQ_STAT returns and clears DROPPED. (R8) -/
  | evqStatRead (i : Ident) (e : Nat) (at_ : Nat) (n : Nat)
  /-- A write of EV_FORCE posts one TEST event of each named class. (R559) -/
  | evForce (i : Ident) (page : Nat) (v : Word)
  /-- Setting QUIESCE_REQ moves the page to QUIESCING and refuses new requests. (R567) -/
  | quiesceReq (i : Ident) (page : Nat) (epoch : Nat)
  /-- In-flight work finishes and the page enters QUIESCED. (R567) -/
  | quiesceDone (page : Nat)
  /-- QUIESCE_TIMEOUT completes remaining work with UNIT_UNAVAILABLE. (R567) -/
  | quiesceExpired (page : Nat)
  /-- Clearing QUIESCE_REQ returns a QUIESCED page to READY with a new epoch. (R566) -/
  | quiesceClear (i : Ident) (page : Nat) (epoch : Nat)
  /-- RESET_REQ takes a QUIESCED or FAULTED page through RESET and INIT to READY. (R566) -/
  | resetReq (i : Ident) (page : Nat) (epoch : Nat)
  /-- UPDATE_REQ loads firmware from FW_IMAGE into hub control cores. (R566) -/
  | updateReq (i : Ident) (page : Nat) (epoch : Nat)
  /-- The firmware update ends and the page returns to QUIESCED. (R566) -/
  | updateDone (stack : Nat) (status : Nat) (version : Nat)
  /-- Clearing ENABLE takes a QUIESCED page OFF. (R566) -/
  | enableClear (i : Ident) (page : Nat) (epoch : Nat)
  /-- Setting ENABLE takes an OFF page through RESET and INIT to READY. (R566) -/
  | enableSet (i : Ident) (page : Nat) (epoch : Nat)
  /-- CNT_CLEAR sets CNT0 to CNT15 of the page to zero. (R611) -/
  | cntClear (i : Ident) (page : Nat) (epoch : Nat)
  /-- ACQUIRE gives a free page lock to the writer's identity. (R614) -/
  | pageLockAcquire (i : Ident) (page : Nat)
  /-- RELEASE from the holder or MGMT frees the page lock. (R614) -/
  | pageLockRelease (i : Ident) (page : Nat)
  /-- A lock whose holder has not accessed the page for 1 ms is released. (R614) -/
  | pageLockIdleExpiry (page : Nat)
  /-- A write of ROW_SKIPr remaps a row and zeroes the state of moved cores. (R104) -/
  | rowSkipWrite (i : Ident) (st : Nat) (d : Nat) (r : Nat) (v : Word)
  /-- SPARE_CTL BIND recalls, zeroes, rebuilds routes and binds a logical stack to a spare. (R577) -/
  | spareBind (i : Ident) (l : Nat) (p : Nat) (epoch : Nat) (auto : Bool)
  /-- SPARE_CTL RELEASE writes back a MEMORY_ONLY stack and powers it off. (R578) -/
  | spareRelease (i : Ident) (p : Nat) (epoch : Nat) (auto : Bool)
  /-- A compute-die failure faults the die, fails its tasks and, with AUTO, rebinds the stack. (R578) -/
  | dieFailed (st : Nat) (d : Nat)
  /-- A hub failure loses the stack's memory, drops copies and, with AUTO, rebinds. (R579) -/
  | stackFailed (p : Nat)
  /-- A transaction still waiting LOST_TIMEOUT after STACK_FAILED completes with DATA_LOST. (R579) -/
  | lostTimeout (p : Nat)
  /-- CAP_DECLARED is updated within 1 ms of a change of its inputs. (R580) -/
  | capChanged
  /-- Each microsecond of unavailability increases UNAVAIL_US. (R581) -/
  | unavailTick
  /-- A CW_DATA access reaches the selected core's state and advances CW_OFFSET. (R620) -/
  | cwDataAccess (i : Ident) (st : Nat) (write : Option Word) (at_ : Nat) (n : Nat)
  /-- CW_CTL.CLEAR_FAULT self-tests a FAULTED core. (R621) -/
  | clearFault (i : Ident) (st : Nat) (pass : Bool)
  /-- A feed holding 760 V for 10 ms starts power-on phase 1. (R582) -/
  | feedPresent (f : Nat) (volt : Nat)
  /-- A power-on phase ends and the next phase starts. (R582) -/
  | phaseComplete (ok : Bool) (strap : Bool) (offline : List Nat) (srv : Nat)
  /-- A phase reaching its bound applies its failure outcome. (R582) -/
  | phaseTimeout (offline : List Nat) (srv : Nat)
  /-- Every 0.5 s in phase 4 the next column of stacks powers up. (R582) -/
  | stackGroupPower (badHubs : List Nat) (badDies : List Nat) (badCores : List Nat)
  /-- A change of sparing map or boot configuration is written to flash within 1 s. (R587) -/
  | flashPersist
  /-- BOOT_CTL.MODULE_RESET restarts the module at phase 3 and clears memory. (R588) -/
  | moduleReset (i : Ident) (epoch : Nat) (strap : Bool)
  /-- An attention press released between 50 ms and 2 s posts ATTENTION. (R591) -/
  | attentionPress (ms : Nat)
  /-- An attention press held 5 s inverts IDENTIFY. (R591) -/
  | attentionHold
  /-- A write of SP_STAT.IDENTIFY sets the identify light. (R591) -/
  | identifyWrite (i : Ident) (v : Word)
  /-- The display's acknowledge control marks an event and posts DISPLAY_ACK. (R592) -/
  | displayAck (code : Nat) (source : Nat)
  /-- A bay button press starts, cancels or powers off per the bay's state. (R594) -/
  | bayButtonPress (b : Nat) (ms : Nat)
  /-- A partition consents to or refuses a bay removal. (R595) -/
  | removeAnswer (i : Ident) (v : Word)
  /-- After 30 s without refusal a removal request is queued. (R594) -/
  | consentTimeout (b : Nat)
  /-- A queued removal starts evacuating when no other bay evacuates. (R596) -/
  | evacQueueStart (b : Nat)
  /-- Opening a bay latch powers off a SAFE bay or is a surprise removal. (R598) -/
  | latchOpen (b : Nat) (absent : Bool)
  /-- A present cartridge is powered, trained, identified and put in INIT. (R601) -/
  | cartridgeInsert (b : Nat) (width : Nat) (rate : Nat) (advert : Word) (capacity : Nat) (sane : Bool) (fit : Bool)
  /-- A fabric cable presence change starts bring-up or takes the port down. (R602) -/
  | cablePresence (f : Nat) (present : Bool)
  /-- After VINTAGE_FAIL the port retries bring-up every 10 s. (R602) -/
  | vintageFailRetry (f : Nat)
  /-- The panel management controller answers an MCTP or PLDM request. (R637) -/
  | pldmRequest (path : Nat) (type : Nat) (known : Bool)
  /-- A PLDM firmware update writes the inactive flash slot, one at a time. (R638) -/
  | pldmFirmwareUpdate (path : Nat) (step : Nat) (sound : Bool)
  /-- A write to a register with no row of its own acts by its access type. (R3) -/
  | registerWrite (i : Ident) (page : Nat) (off : Nat) (v : Word)
  /-- A unit's INIT work (training, zeroing, self-test) ends, and the page leaves INIT for READY with its
  epoch incremented, or stays in INIT while its sensor still reads too high. (R566) -/
  | pageInitDone (page : Nat) (width : Nat) (rate : Nat)
  /-- An interface retraining ends, RETRAINING clears, and the held request receives its four new retries.
  (R292) -/
  | gddrRetrainDone (st : Nat) (g : Nat)
  /-- A server-core load, store or fetch to GDDR, cellar, a local store, register space or the host aperture
  is performed under the region rules of Table 17-3. (R524) -/
  | srvMemoryAccess (a : SrvAccess)
  /-- A server core presents again an access that received UNIT_UNAVAILABLE, once its RETRY_HINT interval has
  passed. (R526) -/
  | srvAccessRetry (c : Nat)
  deriving DecidableEq, Repr

end Sys2Proof
end

