-- ==== Sys2Proof/Decode.lean ====
section
/-!
DEFINITION. The command that a word spells by the table's bits. No row of the opcode table has bits: its rows
are events of the module, so no word spells one (assumption log, row 10).
-/
namespace Sys2Proof

/-- The command that the low `nbits` bits of a word spell: none, since the table gives no row bits. -/
def decodeTableWord (_nbits _w : Nat) : Option Instr := none

end Sys2Proof
end

