-- ==== Sys2Proof/Config.lean ====
section
/-!
DEFINITION. What the spec leaves open: the free values, and numbers that an implementation fixes and the
spec does not name. Nothing in Lean can evaluate them.
-/
namespace Sys2Proof

/-- The k-th value that the spec leaves undefined (assumption log, row 1). -/
opaque Config.freeValue : Nat → Word

/-- The number of the COMPUTE_DIE counter that counts corrected ECC errors (R85; assumption log, row 7). -/
opaque Config.eccCounter : Nat

/-- The hash of destination and virtual channel by which a channel chooses among its ports (R461; log row 23). -/
opaque Config.channelHash : Nat → Nat → Nat

/-- The slot of Table 13-3 that a generation-0 command slot stands for; its layout is defined elsewhere (R444; log
row 25). -/
opaque Config.gen0Slot : List Byte → List Byte

end Sys2Proof
end

