-- ==== Sys2Proof/Machine/Bits.lean ====
section
/-!
DEFINITION. Bit fields, sign extension, byte order and the keyed lists the state is made of (R2).
-/
namespace Sys2Proof.Machine

/-- Field [hi:lo] of a natural number, as an unsigned number (R2). -/
def natBits (n hi lo : Nat) : Nat := (n >>> lo) % 2 ^ (hi + 1 - lo)

/-- Field [hi:lo] of a word, as an unsigned number (R2). -/
def bits (v : Word) (hi lo : Nat) : Nat := natBits v.toNat hi lo

/-- Bit i of a word. -/
def bit (v : Word) (i : Nat) : Bool := v.toNat.testBit i

/-- A word with ones exactly in bits [hi:lo]. -/
def fieldMask (hi lo : Nat) : Word := BitVec.ofNat 64 ((2 ^ (hi + 1 - lo) - 1) <<< lo)

/-- A number placed in field [hi:lo] of an otherwise zero word. -/
def place (hi lo n : Nat) : Word := BitVec.ofNat 64 ((n % 2 ^ (hi + 1 - lo)) <<< lo)

/-- The word with its field [hi:lo] replaced. -/
def setBits (v : Word) (hi lo n : Nat) : Word := (v &&& ~~~ fieldMask hi lo) ||| place hi lo n

/-- The word with bit i replaced. -/
def setBit (v : Word) (i : Nat) (b : Bool) : Word := setBits v i i b.toNat

/-- Sign extension of the low w bits of n to an integer. -/
def signed (w n : Nat) : Int :=
  if n % 2 ^ w < 2 ^ (w - 1) then (n % 2 ^ w : Nat) else ((n % 2 ^ w : Nat) : Int) - (2 ^ w : Nat)

/-- The low w bits of an integer, two's complement. -/
def unsigned (w : Nat) (i : Int) : Nat := (i % ((2 ^ w : Nat) : Int)).toNat

/-- The low w bits of n sign-extended to 64 bits. -/
def sext (w n : Nat) : Word := BitVec.ofInt 64 (signed w n)

/-- Little-endian bytes of a number (R2). -/
def leBytes : Nat → Nat → List Byte
  | 0, _ => []
  | k + 1, n => BitVec.ofNat 8 n :: leBytes k (n >>> 8)

/-- The number whose little-endian bytes these are (R2). -/
def ofLeBytes : List Byte → Nat
  | [] => 0
  | b :: bs => b.toNat + (ofLeBytes bs <<< 8)

/-- Concatenates w-bit elements, element 0 lowest (R139). -/
def packElems (w : Nat) : List Nat → Nat
  | [] => 0
  | e :: es => e % 2 ^ w + (packElems w es <<< w)

/-- Element i of width w of a packed number (R139). -/
def elem (n w i : Nat) : Nat := (n >>> (w * i)) % 2 ^ w

/-- Replaces element i of width w of a packed number that is totalBits wide. -/
def setElem (totalBits n w i x : Nat) : Nat :=
  packElems w ((List.range (totalBits / w)).map fun j => if j = i then x else elem n w j)

/-- Number of ones among the low w bits. -/
def popcount (w n : Nat) : Nat := ((List.range w).filter fun i => n.testBit i).length

/-- The lowest index below w whose bit is set. -/
def lowestSet (w n : Nat) : Option Nat := (List.range w).find? fun i => n.testBit i

/-- A finite map with natural-number keys: a list in rising key order. -/
abbrev Map (α : Type) := List (Nat × α)

/-- The value at a key, or the default where the list has no entry. -/
def Map.get {α : Type} (d : α) : Map α → Nat → α
  | [], _ => d
  | (k, v) :: t, i => if k = i then v else Map.get d t i

/-- The value at a key, if the list has an entry. -/
def Map.find {α : Type} : Map α → Nat → Option α
  | [], _ => none
  | (k, v) :: t, i => if k = i then some v else Map.find t i

/-- Sets the value at a key. -/
def Map.set {α : Type} : Map α → Nat → α → Map α
  | [], i, x => [(i, x)]
  | (k, v) :: t, i, x =>
    if i < k then (i, x) :: (k, v) :: t
    else if i = k then (i, x) :: t
    else (k, v) :: Map.set t i x

/-- Removes the entries of the keys that satisfy p. -/
def Map.drop {α : Type} (m : Map α) (p : Nat → Bool) : Map α := m.filter fun e => !p e.1

/-- Updates the value at a key, starting from the default where there is none. -/
def Map.mod {α : Type} (d : α) (m : Map α) (i : Nat) (f : α → α) : Map α := Map.set m i (f (Map.get d m i))

/-- The keys whose entry satisfies p, in rising order. -/
def Map.keysWhere {α : Type} (m : Map α) (p : Nat → α → Bool) : List Nat :=
  (m.filter fun e => p e.1 e.2).map Prod.fst

/-- Replaces entry i of a list. -/
def listSet {α : Type} : List α → Nat → α → List α
  | [], _, _ => []
  | _ :: t, 0, x => x :: t
  | h :: t, i + 1, x => h :: listSet t i x

/-- Inserts a number into a rising list without repeats. -/
def setInsert : List Nat → Nat → List Nat
  | [], i => [i]
  | k :: t, i => if i < k then i :: k :: t else if i = k then k :: t else k :: setInsert t i

end Sys2Proof.Machine
end

