-- ==== Sys2Proof/Machine/RegTable.lean ====
section
/-!
DEFINITION. The register field tables of every page, written from the field tables of the chapters
(R3 to R6, R605, R609, R619): which pages hold a register, where it lies, its fields, each field's
access type and reset value, and the encodings the field's table reserves.
Reset values marked FUSE or X in the tables are given by the assumption log, rows 2 and 3.
-/
namespace Sys2Proof.Machine

/-- The kinds of register page of Tables 21-1 and 21-2 (R605). -/
inductive PageKind where
  | device
  | pmc
  | thermal
  | clock
  | servicePanel
  | eventQueue
  | serverDie
  | iommu
  | iommuFile
  | interrupt
  | portDie
  | fabricPort
  | cellarBay
  | hostPort
  | queueBlock
  | decanter
  | hubRouter
  | hubCache
  | directory
  | gddrCtl
  | regulator
  | scheduler
  | mover
  | collective
  | blend
  | racking
  | hubTlb
  | hubCtrlCores
  | computeDie
  | coreWindow
  deriving DecidableEq, Repr

/-- Access types of Table 0-4 (R3). -/
inductive Access where
  | ro | rw | w1c | w1s | rc | wo
  deriving DecidableEq, Repr

/-- One field row of a register table: its bits, access type and reset value, whether the table gives
reset X (R4), and the encodings the table reserves (R6). -/
structure FieldSpec where
  hi : Nat
  lo : Nat
  acc : Access
  reset : Nat
  isX : Bool
  reserved : List (Nat × Nat)
  deriving DecidableEq, Repr

/-- One register or array of registers of a page kind: entry i lies at base + stride × i. -/
structure RegSpec where
  base : Nat
  count : Nat
  stride : Nat
  fields : List FieldSpec
  deriving DecidableEq, Repr

/-- A field with a numeric reset value and no reserved encoding. -/
abbrev fld (hi lo : Nat) (acc : Access) (reset : Nat) : FieldSpec := ⟨hi, lo, acc, reset, false, []⟩
/-- A field whose table gives reset X. -/
abbrev fldX (hi lo : Nat) (acc : Access) : FieldSpec := ⟨hi, lo, acc, 0, true, []⟩
/-- A field with reserved encodings. -/
abbrev fldR (hi lo : Nat) (acc : Access) (reset : Nat) (res : List (Nat × Nat)) : FieldSpec :=
  ⟨hi, lo, acc, reset, false, res⟩

namespace Reg
/-- PAGE_ID, Table 21-3 (R609). -/
abbrev PAGE_ID : Nat := 0x000
/-- PAGE_CAP, Table 21-3 (R609). -/
abbrev PAGE_CAP : Nat := 0x008
/-- PAGE_CTL, Table 21-3 (R609). -/
abbrev PAGE_CTL : Nat := 0x010
/-- PAGE_STATE, Table 21-3 (R609). -/
abbrev PAGE_STATE : Nat := 0x018
/-- EV_STATUS, Table 21-4 (R609). -/
abbrev EV_STATUS : Nat := 0x020
/-- EV_ENABLE, Table 21-4 (R609). -/
abbrev EV_ENABLE : Nat := 0x028
/-- EV_FORCE, Table 21-4 (R609). -/
abbrev EV_FORCE : Nat := 0x030
/-- EV_ROUTE, Table 21-4 (R609). -/
abbrev EV_ROUTE : Nat := 0x038
/-- VER_SUPPORT, Table 21-5 (R609). -/
abbrev VER_SUPPORT : Nat := 0x040
/-- VER_ACTIVE, Table 21-5 (R609). -/
abbrev VER_ACTIVE : Nat := 0x048
/-- PAGE_OWNER, Table 21-5 (R609). -/
abbrev PAGE_OWNER : Nat := 0x050
/-- PAGE_LOCK, Table 21-5 (R609). -/
abbrev PAGE_LOCK : Nat := 0x058
/-- CNT, Table 21-5 (R609). -/
abbrev CNT : Nat := 0x060
/-- PART_CTL, Table 13-1 (R392). -/
abbrev PART_CTL : Nat := 0x400
/-- PART_STACKS, Table 13-1 (R392). -/
abbrev PART_STACKS : Nat := 0x408
/-- PART_SRV0, Table 13-1 (R392). -/
abbrev PART_SRV0 : Nat := 0x410
/-- PART_SRV1, Table 13-1 (R392). -/
abbrev PART_SRV1 : Nat := 0x418
/-- PART_SRV2, Table 13-1 (R392). -/
abbrev PART_SRV2 : Nat := 0x420
/-- PART_SRV3, Table 13-1 (R392). -/
abbrev PART_SRV3 : Nat := 0x428
/-- QUIESCE_CFG, Table 19-9 (R569). -/
abbrev QUIESCE_CFG : Nat := 0x100
/-- SPARE_CTL, Table 19-10 (R576). -/
abbrev SPARE_CTL : Nat := 0x110
/-- STACK_STATE, Table 19-10 (R576). -/
abbrev STACK_STATE : Nat := 0x140
/-- SPARE_MAP, Table 19-10 (R576). -/
abbrev SPARE_MAP : Nat := 0x200
/-- CAP_DECLARED, Table 19-11 (R580). -/
abbrev CAP_DECLARED : Nat := 0x108
/-- DEVICE_ID, Table 21-11 (R619). -/
abbrev DEVICE_ID : Nat := 0x118
/-- SERIAL, Table 21-11 (R619). -/
abbrev SERIAL : Nat := 0x120
/-- PMC_FEED_CFG, Table 18-9 (R551). -/
abbrev PMC_FEED_CFG : Nat := 0x100
/-- PMC_FEED_STAT, Table 18-9 (R551). -/
abbrev PMC_FEED_STAT : Nat := 0x108
/-- BOOT_CFG, Table 20-7 (R603). -/
abbrev BOOT_CFG : Nat := 0x200
/-- BOOT_STAT, Table 20-7 (R603). -/
abbrev BOOT_STAT : Nat := 0x208
/-- BOOT_CTL, Table 20-7 (R603). -/
abbrev BOOT_CTL : Nat := 0x210
/-- THR, Table 18-8 (R551). -/
abbrev THR : Nat := 0x100
/-- PANEL_TIME, R551 (R551). -/
abbrev PANEL_TIME : Nat := 0x100
/-- TIME_STAT, Table 18-7 (R551). -/
abbrev TIME_STAT : Nat := 0x108
/-- SP_STAT, Table 20-8 (R603). -/
abbrev SP_STAT : Nat := 0x100
/-- REMOVE_ANSWER, Table 20-8 (R603). -/
abbrev REMOVE_ANSWER : Nat := 0x108
/-- REMOVE_ASKED, Table 20-8 (R603). -/
abbrev REMOVE_ASKED : Nat := 0x200
/-- REMOVE_STATE, Table 20-8 (R603). -/
abbrev REMOVE_STATE : Nat := 0x208
/-- EVQ_BASE, Table 19-3 (R562). -/
abbrev EVQ_BASE : Nat := 0x400
/-- EVQ_CFG, Table 19-3 (R562). -/
abbrev EVQ_CFG : Nat := 0x408
/-- EVQ_TAIL, Table 19-3 (R562). -/
abbrev EVQ_TAIL : Nat := 0x410
/-- EVQ_HEAD, Table 19-3 (R562). -/
abbrev EVQ_HEAD : Nat := 0x418
/-- EVQ_STAT, Table 19-3 (R562). -/
abbrev EVQ_STAT : Nat := 0x420
/-- ERT_MATCH, Table 19-4 (R562). -/
abbrev ERT_MATCH : Nat := 0x800
/-- ERT_ACT, Table 19-4 (R562). -/
abbrev ERT_ACT : Nat := 0x808
/-- SRV_CORE_STAT, Table 21-11 (R619). -/
abbrev SRV_CORE_STAT : Nat := 0x100
/-- MSI_TABLE, Table 17-5 (R532). -/
abbrev MSI_TABLE : Nat := 0x100
/-- MODULE_CFG, Table 15-16 (R485). -/
abbrev MODULE_CFG : Nat := 0x100
/-- GROUP_CTL, Table 15-16 (R485). -/
abbrev GROUP_CTL : Nat := 0x108
/-- GROUP_CFG, Table 15-16 (R485). -/
abbrev GROUP_CFG : Nat := 0x110
/-- GROUP_STAT, Table 15-16 (R485). -/
abbrev GROUP_STAT : Nat := 0x118
/-- GROUP_ABSENT, Table 15-16 (R485). -/
abbrev GROUP_ABSENT : Nat := 0x120
/-- GROUP_FWD_TABLE, Table 15-16 (R485). -/
abbrev GROUP_FWD_TABLE : Nat := 0x128
/-- GROUP_MEMBERS, Table 15-16 (R485). -/
abbrev GROUP_MEMBERS : Nat := 0x200
/-- FR_MATCH, Table 15-17 (R485). -/
abbrev FR_MATCH : Nat := 0x400
/-- FR_PORTS, Table 15-17 (R485). -/
abbrev FR_PORTS : Nat := 0x408
/-- REG_INDEX, Table 9-20 (R302). -/
abbrev REG_INDEX : Nat := 0x180
/-- REG_DATA, Table 9-21 (R302). -/
abbrev REG_DATA : Nat := 0x188
/-- REG_LEVEL, Table 9-22 (R302). -/
abbrev REG_LEVEL : Nat := 0x190
/-- ARB_CFG, Table 12-10 (R389). -/
abbrev ARB_CFG : Nat := 0x600
/-- ARB_SHARE, Table 12-11 (R389). -/
abbrev ARB_SHARE : Nat := 0x608
/-- ARB_STAT, Table 12-12 (R389). -/
abbrev ARB_STAT : Nat := 0x610
/-- ARB_STARVE_SRC, Table 12-13 (R389). -/
abbrev ARB_STARVE_SRC : Nat := 0x618
/-- ARB_CNT_PARKED, Table 12-14 (R389). -/
abbrev ARB_CNT_PARKED : Nat := 0x620
/-- ARB_CNT_REFUSED, Table 12-14 (R389). -/
abbrev ARB_CNT_REFUSED : Nat := 0x628
/-- PORT_CFG, Table 15-13 (R484). -/
abbrev PORT_CFG : Nat := 0x100
/-- PORT_STAT, Table 15-14 (R484). -/
abbrev PORT_STAT : Nat := 0x108
/-- VC_OWNER, Table 15-14 (R484). -/
abbrev VC_OWNER : Nat := 0x110
/-- BAY_CTL, Table 10-8 (R333). -/
abbrev BAY_CTL : Nat := 0x100
/-- BAY_STAT, Table 10-8 (R333). -/
abbrev BAY_STAT : Nat := 0x108
/-- BAY_CFG, Table 10-8 (R333). -/
abbrev BAY_CFG : Nat := 0x110
/-- BAY_POOL_TABLE, Table 10-8 (R333). -/
abbrev BAY_POOL_TABLE : Nat := 0x118
/-- BAY_POOL_GIVE, Table 10-8 (R333). -/
abbrev BAY_POOL_GIVE : Nat := 0x120
/-- MBX_CMD, Table 10-8 (R333). -/
abbrev MBX_CMD : Nat := 0x300
/-- MBX_DATA, Table 10-8 (R333). -/
abbrev MBX_DATA : Nat := 0x308
/-- MIRROR_BASE, Table 10-8 (R333). -/
abbrev MIRROR_BASE : Nat := 0x400
/-- MIRROR_LIMIT, Table 10-8 (R333). -/
abbrev MIRROR_LIMIT : Nat := 0x408
/-- HOST_CFG, Table 14-5 (R446). -/
abbrev HOST_CFG : Nat := 0x100
/-- HOST_STAT, Table 14-6 (R446). -/
abbrev HOST_STAT : Nat := 0x108
/-- HOST_PROTO_REQ, Table 14-7 (R446). -/
abbrev HOST_PROTO_REQ : Nat := 0x110
/-- HOST_ATTACH, Table 14-9 (R446). -/
abbrev HOST_ATTACH : Nat := 0x118
/-- WIN_CTL, Table 14-9 (R446). -/
abbrev WIN_CTL : Nat := 0x120
/-- WIN_TABLE, Table 14-9 (R446). -/
abbrev WIN_TABLE : Nat := 0x400
/-- SQ_BASE, Table 13-2 (R395). -/
abbrev SQ_BASE : Nat := 0x800
/-- CQ_BASE, Table 13-2 (R395). -/
abbrev CQ_BASE : Nat := 0x808
/-- QCFG, Table 13-2 (R395). -/
abbrev QCFG : Nat := 0x810
/-- QBIND, Table 13-2 (R395). -/
abbrev QBIND : Nat := 0x818
/-- SQ_TAIL, Table 13-2 (R395). -/
abbrev SQ_TAIL : Nat := 0x820
/-- CQ_HEAD, Table 13-2 (R395). -/
abbrev CQ_HEAD : Nat := 0x828
/-- QSTAT, Table 13-2 (R395). -/
abbrev QSTAT : Nat := 0x830
/-- STREAM_DESC, Table 16-10 (R517). -/
abbrev STREAM_DESC : Nat := 0x400
/-- STREAM_CFG, Table 16-10 (R517). -/
abbrev STREAM_CFG : Nat := 0x408
/-- REQ_BASE, Table 16-10 (R517). -/
abbrev REQ_BASE : Nat := 0x410
/-- STREAM_CTL, Table 16-10 (R517). -/
abbrev STREAM_CTL : Nat := 0x418
/-- STREAM_POS, Table 16-10 (R517). -/
abbrev STREAM_POS : Nat := 0x420
/-- STREAM_STAT, Table 16-10 (R517). -/
abbrev STREAM_STAT : Nat := 0x428
/-- REQ_TAIL, Table 16-10 (R517). -/
abbrev REQ_TAIL : Nat := 0x430
/-- STOP_OFFSET, Table 16-10 (R517). -/
abbrev STOP_OFFSET : Nat := 0x438
/-- ROUTE, Table 12-2 (R372). -/
abbrev ROUTE : Nat := 0x200
/-- ROUTER_CTL, Table 12-7 (R389). -/
abbrev ROUTER_CTL : Nat := 0x100
/-- ROUTER_STAT, Table 12-8 (R389). -/
abbrev ROUTER_STAT : Nat := 0x108
/-- CACHE_CTL, Table 9-4 (R285). -/
abbrev CACHE_CTL : Nat := 0x100
/-- PREFETCH_CTL, Table 9-5 (R285). -/
abbrev PREFETCH_CTL : Nat := 0x108
/-- KEEP_RELEASE, Table 9-6 (R285). -/
abbrev KEEP_RELEASE : Nat := 0x110
/-- KEEP_LIMIT, Table 9-7 (R285). -/
abbrev KEEP_LIMIT : Nat := 0x200
/-- ATTR_BASE, Table 9-8 (R285). -/
abbrev ATTR_BASE : Nat := 0x400
/-- ATTR_LIMIT, Table 9-8 (R285). -/
abbrev ATTR_LIMIT : Nat := 0x408
/-- DIR_STAT, Table 11-11 (R363). -/
abbrev DIR_STAT : Nat := 0x100
/-- GDDR_CFG, Table 9-14 (R296). -/
abbrev GDDR_CFG : Nat := 0x100
/-- GDDR_STAT, Table 9-15 (R296). -/
abbrev GDDR_STAT : Nat := 0x108
/-- REG_CTL, Table 9-19 (R302). -/
abbrev REG_CTL : Nat := 0x100
/-- REG_INDEX, Table 9-20 (R302). -/
abbrev Regulator_REG_INDEX : Nat := 0x108
/-- REG_DATA, Table 9-21 (R302). -/
abbrev Regulator_REG_DATA : Nat := 0x110
/-- REG_LEVEL, Table 9-22 (R302). -/
abbrev Regulator_REG_LEVEL : Nat := 0x118
/-- ROUND_STALL_CTL, Table 7-5 (R235). -/
abbrev ROUND_STALL_CTL : Nat := 0x300
/-- ROUND_STAT, Table 7-7 (R235). -/
abbrev ROUND_STAT : Nat := 0x308
/-- SCHED_CTL, Table 13-10 (R419). -/
abbrev SCHED_CTL : Nat := 0x100
/-- RT_RESERVE, Table 13-10 (R419). -/
abbrev RT_RESERVE : Nat := 0x108
/-- PREEMPT_REQ, Table 13-10 (R419). -/
abbrev PREEMPT_REQ : Nat := 0x110
/-- TASK_STAT, Table 13-10 (R419). -/
abbrev TASK_STAT : Nat := 0x118
/-- SLOT_TABLE, Table 13-10 (R419). -/
abbrev SLOT_TABLE : Nat := 0x400
/-- MOVER_STAT, Table 21-11 (R619). -/
abbrev MOVER_STAT : Nat := 0x100
/-- COLL_CFG, Table 15-18 (R486). -/
abbrev COLL_CFG : Nat := 0x100
/-- COLL_STAT, Table 15-18 (R486). -/
abbrev COLL_STAT : Nat := 0x108
/-- BLEND_CTL, Table 8-9 (R266). -/
abbrev BLEND_CTL : Nat := 0x100
/-- STEP_STAT, Table 8-10 (R266). -/
abbrev STEP_STAT : Nat := 0x108
/-- STEP_NF, Table 8-11 (R266). -/
abbrev STEP_NF : Nat := 0x110
/-- STEP_GMAX, Table 8-12 (R266). -/
abbrev STEP_GMAX : Nat := 0x118
/-- STEP_GSQ, Table 8-13 (R266). -/
abbrev STEP_GSQ : Nat := 0x120
/-- ARM_STAT, Table 8-14 (R266). -/
abbrev ARM_STAT : Nat := 0x128
/-- RACK_CTL, Table 10-9 (R333). -/
abbrev RACK_CTL : Nat := 0x100
/-- RACK_STAT, Table 10-9 (R333). -/
abbrev RACK_STAT : Nat := 0x108
/-- RACK_POOL_TABLE, Table 10-9 (R333). -/
abbrev RACK_POOL_TABLE : Nat := 0x110
/-- RACK_POOL_GIVE, Table 10-8 (R333). -/
abbrev RACK_POOL_GIVE : Nat := 0x118
/-- PROMO_BASE, Table 10-9 (R333). -/
abbrev PROMO_BASE : Nat := 0x120
/-- PROMO_CAP, Table 10-9 (R333). -/
abbrev PROMO_CAP : Nat := 0x128
/-- PLACE_BASE, Table 10-9 (R333). -/
abbrev PLACE_BASE : Nat := 0x200
/-- PLACE_COUNT, Table 10-9 (R333). -/
abbrev PLACE_COUNT : Nat := 0x208
/-- TLB_CTL, Table 11-13 (R364). -/
abbrev TLB_CTL : Nat := 0x100
/-- TLB_STAT, Table 11-14 (R364). -/
abbrev TLB_STAT : Nat := 0x108
/-- FW_IMAGE, Table 21-11 (R619). -/
abbrev FW_IMAGE : Nat := 0x100
/-- FW_VERSION, Table 21-11 (R619). -/
abbrev FW_VERSION : Nat := 0x108
/-- ROW_SKIP, Table 3-11 (R103). -/
abbrev ROW_SKIP : Nat := 0x100
/-- PORT_STALL_LIMIT, Table 3-12 (R103). -/
abbrev PORT_STALL_LIMIT : Nat := 0x1F0
/-- KEEP_CTL, Table 4-15 (R136). -/
abbrev KEEP_CTL : Nat := 0x1F8
/-- KEEP_STAT, Table 4-16 (R136). -/
abbrev KEEP_STAT : Nat := 0x200
/-- DIE_PWR_BOUND, Table 18-5 (R550). -/
abbrev DIE_PWR_BOUND : Nat := 0x208
/-- DIE_PWR_STAT, Table 18-6 (R550). -/
abbrev DIE_PWR_STAT : Nat := 0x210
/-- CW_SELECT, Table 21-11 (R619). -/
abbrev CW_SELECT : Nat := 0x100
/-- CW_OFFSET, Table 21-11 (R619). -/
abbrev CW_OFFSET : Nat := 0x108
/-- CW_DATA, Table 21-11 (R619). -/
abbrev CW_DATA : Nat := 0x110
/-- CW_STAT, Table 21-11 (R619). -/
abbrev CW_STAT : Nat := 0x118
/-- CW_CTL, Table 21-11 (R619). -/
abbrev CW_CTL : Nat := 0x120
end Reg

/-- The common header of every page, Tables 21-3 to 21-5 (R606, R609). -/
def headerRegs : List RegSpec := [
  -- PAGE_ID (Table 21-3, R609)
  ⟨0x0, 1, 0x0, [
    fld 47 40 .ro 0x0, fld 39 32 .ro 0x11, fld 31 16 .ro 0x0, fld 15 0 .ro 0x0]⟩,
  -- PAGE_CAP (Table 21-3, R609)
  ⟨0x8, 1, 0x0, [
    fld 12 8 .ro 0x0, fld 3 3 .ro 0x0, fld 2 2 .ro 0x0, fld 1 1 .ro 0x0, fld 0 0 .ro 0x0]⟩,
  -- PAGE_CTL (Table 21-3, R609)
  ⟨0x10, 1, 0x0, [
    fld 63 48 .wo 0x0, fld 4 4 .w1s 0x0, fld 3 3 .w1s 0x0, fld 2 2 .w1s 0x0, fld 1 1 .rw 0x0, fld 0 0 .rw 0x1]⟩,
  -- PAGE_STATE (Table 21-3, R609)
  ⟨0x18, 1, 0x0, [
    fld 47 32 .ro 0x0, fld 31 24 .ro 0x0, fld 8 8 .w1c 0x0, fld 3 0 .ro 0x3]⟩,
  -- EV_STATUS (Table 21-4, R609)
  ⟨0x20, 1, 0x0, [
    fld 15 0 .w1c 0x0]⟩,
  -- EV_ENABLE (Table 21-4, R609)
  ⟨0x28, 1, 0x0, [
    fld 15 0 .rw 0x3FF]⟩,
  -- EV_FORCE (Table 21-4, R609)
  ⟨0x30, 1, 0x0, [
    fld 15 0 .wo 0x0]⟩,
  -- EV_ROUTE (Table 21-4, R609)
  ⟨0x38, 1, 0x0, [
    fld 7 0 .rw 0x0]⟩,
  -- VER_SUPPORT (Table 21-5, R609)
  ⟨0x40, 1, 0x0, [
    fld 63 48 .ro 0x0, fld 47 32 .ro 0x0, fld 31 16 .ro 0x0, fld 15 0 .ro 0x0]⟩,
  -- VER_ACTIVE (Table 21-5, R609)
  ⟨0x48, 1, 0x0, [
    fld 15 0 .ro 0x0]⟩,
  -- PAGE_OWNER (Table 21-5, R609)
  ⟨0x50, 1, 0x0, [
    fld 8 8 .rw 0x0, fld 7 7 .ro 0x0, fld 5 0 .ro 0x0]⟩,
  -- PAGE_LOCK (Table 21-5, R609)
  ⟨0x58, 1, 0x0, [
    fld 63 63 .ro 0x0, fld 62 62 .ro 0x0, fld 55 48 .ro 0x0, fld 47 32 .ro 0x0, fld 10 8 .ro 0x0,
    fld 1 1 .w1s 0x0, fld 0 0 .w1s 0x0]⟩,
  -- CNT (Table 21-5, R609)
  ⟨0x60, 16, 0x8, [
    fld 63 0 .ro 0x0]⟩
]

/-- Block-specific registers of the device pages (R619). -/
def deviceRegs : List RegSpec := [
  -- PART_CTL (Table 13-1, R392)
  ⟨0x400, 64, 0x30, [
    fld 63 63 .rw 0x0, fld 55 48 .ro 0x0, fld 47 32 .ro 0x0, fld 15 0 .rw 0x0]⟩,
  -- PART_STACKS (Table 13-1, R392)
  ⟨0x408, 64, 0x30, [
    fld 63 0 .rw 0x0]⟩,
  -- PART_SRV0 (Table 13-1, R392)
  ⟨0x410, 64, 0x30, [
    fld 63 0 .rw 0x0]⟩,
  -- PART_SRV1 (Table 13-1, R392)
  ⟨0x418, 64, 0x30, [
    fld 63 0 .rw 0x0]⟩,
  -- PART_SRV2 (Table 13-1, R392)
  ⟨0x420, 64, 0x30, [
    fld 63 0 .rw 0x0]⟩,
  -- PART_SRV3 (Table 13-1, R392)
  ⟨0x428, 64, 0x30, [
    fld 63 0 .rw 0x0]⟩,
  -- QUIESCE_CFG (Table 19-9, R569)
  ⟨0x100, 1, 0x0, [
    fld 35 32 .rw 0xA, fldR 31 16 .rw 0x64 [(0, 0)], fldR 15 0 .rw 0x64 [(0, 0)]]⟩,
  -- SPARE_CTL (Table 19-10, R576)
  ⟨0x110, 1, 0x0, [
    fld 63 63 .w1s 0x0, fld 62 62 .rw 0x1, fldR 57 56 .rw 0x0 [(2, 3)], fld 55 48 .ro 0x0, fld 47 32 .rw 0x0,
    fld 13 8 .rw 0x0, fldR 6 0 .rw 0x0 [(72, 127)]]⟩,
  -- STACK_STATE (Table 19-10, R576)
  ⟨0x140, 9, 0x8, [
    fld 3 0 .ro 0x0, fld 11 8 .ro 0x0, fld 19 16 .ro 0x0, fld 27 24 .ro 0x0, fld 35 32 .ro 0x0,
    fld 43 40 .ro 0x0, fld 51 48 .ro 0x0, fld 59 56 .ro 0x0]⟩,
  -- SPARE_MAP (Table 19-10, R576)
  ⟨0x200, 64, 0x8, [
    fld 63 48 .ro 0x0, fld 7 7 .ro 0x0, fld 6 0 .ro 0x0]⟩,
  -- CAP_DECLARED (Table 19-11, R580)
  ⟨0x108, 1, 0x0, [
    fld 63 48 .ro 0x0, fld 42 32 .ro 0x0, fld 29 24 .ro 0x0, fld 20 16 .ro 0x0, fld 14 8 .ro 0x0]⟩,
  -- DEVICE_ID (Table 21-11, R619)
  ⟨0x118, 1, 0x0, [
    fld 63 48 .ro 0xA4F, fld 47 32 .ro 0x9A72, fld 15 0 .ro 0xA01]⟩,
  -- SERIAL (Table 21-11, R619)
  ⟨0x120, 1, 0x0, [
    fld 63 0 .ro 0x0]⟩
]

/-- Block-specific registers of the pmc pages (R619). -/
def pmcRegs : List RegSpec := [
  -- PMC_FEED_CFG (Table 18-9, R551)
  ⟨0x100, 1, 0x0, [
    fldR 1 0 .rw 0x2 [(0, 1)]]⟩,
  -- PMC_FEED_STAT (Table 18-9, R551)
  ⟨0x108, 1, 0x0, [
    fldX 63 48 .ro, fldX 47 40 .ro, fldX 39 30 .ro, fldX 29 20 .ro, fld 1 1 .ro 0x0, fld 0 0 .ro 0x0]⟩,
  -- BOOT_CFG (Table 20-7, R603)
  ⟨0x200, 1, 0x0, [
    fld 0 0 .rw 0x1]⟩,
  -- BOOT_STAT (Table 20-7, R603)
  ⟨0x208, 1, 0x0, [
    fld 63 40 .ro 0x0, fld 39 32 .ro 0x0, fld 31 28 .ro 0x0, fld 17 9 .ro 0x0, fld 8 8 .ro 0x0,
    fld 3 0 .ro 0x2]⟩,
  -- BOOT_CTL (Table 20-7, R603)
  ⟨0x210, 1, 0x0, [
    fld 63 63 .w1s 0x0, fld 15 0 .wo 0x0]⟩
]

/-- Block-specific registers of the thermal pages (R619). -/
def thermalRegs : List RegSpec := [
  -- THR (Table 18-8, R551)
  ⟨0x100, 8, 0x8, [
    fldX 55 48 .ro, fld 39 32 .ro 0x0, fld 31 24 .ro 0x0, fld 23 16 .ro 0x0, fld 7 0 .rw 0x0]⟩
]

/-- Block-specific registers of the clock pages (R619). -/
def clockRegs : List RegSpec := [
  -- PANEL_TIME (R551, R551)
  ⟨0x100, 1, 0x0, [
    fld 63 0 .ro 0x0]⟩,
  -- TIME_STAT (Table 18-7, R551)
  ⟨0x108, 1, 0x0, [
    fld 47 44 .ro 0x0, fld 43 32 .ro 0x0, fld 31 16 .ro 0x0, fld 0 0 .ro 0x0]⟩
]

/-- Block-specific registers of the servicePanel pages (R619). -/
def servicePanelRegs : List RegSpec := [
  -- SP_STAT (Table 20-8, R603)
  ⟨0x100, 1, 0x0, [
    fld 63 32 .ro 0x0, fld 0 0 .rw 0x0]⟩,
  -- REMOVE_ANSWER (Table 20-8, R603)
  ⟨0x108, 1, 0x0, [
    fld 63 48 .wo 0x0, fld 11 8 .wo 0x0, fld 1 0 .wo 0x0]⟩,
  -- REMOVE_ASKED (Table 20-8, R603)
  ⟨0x200, 16, 0x10, [
    fld 63 0 .ro 0x0]⟩,
  -- REMOVE_STATE (Table 20-8, R603)
  ⟨0x208, 16, 0x10, [
    fld 63 56 .ro 0x0, fld 45 40 .ro 0x0, fld 30 16 .ro 0x0, fld 2 0 .ro 0x0]⟩
]

/-- Block-specific registers of the eventQueue pages (R619). -/
def eventQueueRegs : List RegSpec := [
  -- EVQ_BASE (Table 19-3, R562)
  ⟨0x400, 16, 0x40, [
    fldX 63 0 .rw]⟩,
  -- EVQ_CFG (Table 19-3, R562)
  ⟨0x408, 16, 0x40, [
    fld 63 63 .rw 0x0, fld 62 62 .rw 0x0, fld 61 56 .rw 0x0, fldR 55 52 .rw 0x0 [(4, 15)], fld 50 40 .rw 0x0,
    fld 39 20 .rw 0x0, fldR 3 0 .rw 0x0 [(15, 15)]]⟩,
  -- EVQ_TAIL (Table 19-3, R562)
  ⟨0x410, 16, 0x40, [
    fld 19 0 .ro 0x0]⟩,
  -- EVQ_HEAD (Table 19-3, R562)
  ⟨0x418, 16, 0x40, [
    fld 19 0 .rw 0x0]⟩,
  -- EVQ_STAT (Table 19-3, R562)
  ⟨0x420, 16, 0x40, [
    fld 63 32 .rc 0x0, fld 31 0 .ro 0x0]⟩,
  -- ERT_MATCH (Table 19-4, R562)
  ⟨0x800, 32, 0x10, [
    fld 63 48 .rw 0x0, fld 47 32 .rw 0x0, fld 31 16 .rw 0x0, fld 15 0 .rw 0x0]⟩,
  -- ERT_ACT (Table 19-4, R562)
  ⟨0x808, 32, 0x10, [
    fld 63 63 .rw 0x0, fld 62 60 .rw 0x0, fld 45 40 .rw 0x0, fld 39 39 .rw 0x0, fld 11 8 .rw 0x0,
    fld 7 0 .rw 0x0]⟩
]

/-- Block-specific registers of the serverDie pages (R619). -/
def serverDieRegs : List RegSpec := [
  -- SRV_CORE_STAT (Table 21-11, R619)
  ⟨0x100, 2, 0x8, [
    fld 1 0 .ro 0x0, fld 3 2 .ro 0x0, fld 5 4 .ro 0x0, fld 7 6 .ro 0x0, fld 9 8 .ro 0x0, fld 11 10 .ro 0x0,
    fld 13 12 .ro 0x0, fld 15 14 .ro 0x0, fld 17 16 .ro 0x0, fld 19 18 .ro 0x0, fld 21 20 .ro 0x0,
    fld 23 22 .ro 0x0, fld 25 24 .ro 0x0, fld 27 26 .ro 0x0, fld 29 28 .ro 0x0, fld 31 30 .ro 0x0,
    fld 33 32 .ro 0x0, fld 35 34 .ro 0x0, fld 37 36 .ro 0x0, fld 39 38 .ro 0x0, fld 41 40 .ro 0x0,
    fld 43 42 .ro 0x0, fld 45 44 .ro 0x0, fld 47 46 .ro 0x0, fld 49 48 .ro 0x0, fld 51 50 .ro 0x0,
    fld 53 52 .ro 0x0, fld 55 54 .ro 0x0, fld 57 56 .ro 0x0, fld 59 58 .ro 0x0, fld 61 60 .ro 0x0,
    fld 63 62 .ro 0x0]⟩
]

/-- Block-specific registers of the interrupt pages (R619). -/
def interruptRegs : List RegSpec := [
  -- MSI_TABLE (Table 17-5, R532)
  ⟨0x100, 64, 0x8, [
    fldX 63 12 .rw, fld 0 0 .rw 0x0]⟩
]

/-- Block-specific registers of the portDie pages (R619). -/
def portDieRegs : List RegSpec := [
  -- MODULE_CFG (Table 15-16, R485)
  ⟨0x100, 1, 0x0, [
    fld 17 17 .ro 0x0, fld 16 16 .rw 0x0, fld 11 0 .rw 0x0]⟩,
  -- GROUP_CTL (Table 15-16, R485)
  ⟨0x108, 1, 0x0, [
    fld 0 0 .w1s 0x0]⟩,
  -- GROUP_CFG (Table 15-16, R485)
  ⟨0x110, 1, 0x0, [
    fld 4 0 .rw 0x0]⟩,
  -- GROUP_STAT (Table 15-16, R485)
  ⟨0x118, 1, 0x0, [
    fld 31 31 .ro 0x0, fld 30 19 .ro 0x0, fld 5 0 .ro 0x0]⟩,
  -- GROUP_ABSENT (Table 15-16, R485)
  ⟨0x120, 1, 0x0, [
    fld 63 0 .ro 0x0]⟩,
  -- GROUP_FWD_TABLE (Table 15-16, R485)
  ⟨0x128, 1, 0x0, [
    fldX 63 0 .rw]⟩,
  -- GROUP_MEMBERS (Table 15-16, R485)
  ⟨0x200, 16, 0x8, [
    fld 15 15 .rw 0x0, fld 31 31 .rw 0x0, fld 47 47 .rw 0x0, fld 63 63 .rw 0x0, fld 11 0 .rw 0x0,
    fld 27 16 .rw 0x0, fld 43 32 .rw 0x0, fld 59 48 .rw 0x0]⟩,
  -- FR_MATCH (Table 15-17, R485)
  ⟨0x400, 64, 0x10, [
    fld 63 63 .rw 0x0, fld 62 60 .rw 0x0, fld 43 32 .rw 0x0, fld 11 0 .rw 0x0]⟩,
  -- FR_PORTS (Table 15-17, R485)
  ⟨0x408, 64, 0x10, [
    fld 31 0 .rw 0x0]⟩
]

/-- Block-specific registers of the fabricPort pages (R619). -/
def fabricPortRegs : List RegSpec := [
  -- REG_INDEX (Table 9-20, R302)
  ⟨0x180, 1, 0x0, [
    fld 11 8 .rw 0x0, fld 5 0 .rw 0x0]⟩,
  -- REG_DATA (Table 9-21, R302)
  ⟨0x188, 1, 0x0, [
    fld 63 63 .rw 0x0, fld 62 62 .rw 0x1, fld 61 59 .rw 0x3, fldR 47 32 .rw 0x40 [(0, 0)], fld 23 0 .rw 0x0]⟩,
  -- REG_LEVEL (Table 9-22, R302)
  ⟨0x190, 1, 0x0, [
    fld 31 0 .ro 0x10000]⟩,
  -- ARB_CFG (Table 12-10, R389)
  ⟨0x600, 1, 0x0, [
    fld 15 0 .rw 0x400]⟩,
  -- ARB_SHARE (Table 12-11, R389)
  ⟨0x608, 1, 0x0, [
    fld 31 31 .wo 0x0, fld 21 16 .rw 0x0, fld 13 8 .ro 0x0, fldR 5 0 .rw 0x30 [(49, 63)]]⟩,
  -- ARB_STAT (Table 12-12, R389)
  ⟨0x610, 1, 0x0, [
    fld 63 63 .w1c 0x0, fld 38 32 .ro 0x0, fld 31 0 .ro 0x0]⟩,
  -- ARB_STARVE_SRC (Table 12-13, R389)
  ⟨0x618, 1, 0x0, [
    fld 21 16 .ro 0x0, fld 2 0 .ro 0x0]⟩,
  -- ARB_CNT_PARKED (Table 12-14, R389)
  ⟨0x620, 1, 0x0, [
    fld 63 0 .ro 0x0]⟩,
  -- ARB_CNT_REFUSED (Table 12-14, R389)
  ⟨0x628, 1, 0x0, [
    fld 63 0 .ro 0x0]⟩,
  -- PORT_CFG (Table 15-13, R484)
  ⟨0x100, 1, 0x0, [
    fld 0 0 .rw 0x0]⟩,
  -- PORT_STAT (Table 15-14, R484)
  ⟨0x108, 1, 0x0, [
    fld 63 56 .ro 0x0, fld 55 40 .ro 0x0, fld 28 28 .ro 0x0, fld 27 16 .ro 0x0, fld 15 8 .ro 0x0,
    fld 2 0 .ro 0x0]⟩,
  -- VC_OWNER (Table 15-14, R484)
  ⟨0x110, 1, 0x0, [
    fld 7 7 .rw 0x0, fld 15 15 .rw 0x0, fld 23 23 .rw 0x0, fld 31 31 .rw 0x0, fld 39 39 .rw 0x0,
    fld 47 47 .rw 0x0, fld 5 0 .rw 0x0, fld 13 8 .rw 0x0, fld 21 16 .rw 0x0, fld 29 24 .rw 0x0,
    fld 37 32 .rw 0x0, fld 45 40 .rw 0x0]⟩
]

/-- Block-specific registers of the cellarBay pages (R619). -/
def cellarBayRegs : List RegSpec := [
  -- REG_INDEX (Table 9-20, R302)
  ⟨0x180, 1, 0x0, [
    fld 11 8 .rw 0x0, fld 5 0 .rw 0x0]⟩,
  -- REG_DATA (Table 9-21, R302)
  ⟨0x188, 1, 0x0, [
    fld 63 63 .rw 0x0, fld 62 62 .rw 0x1, fld 61 59 .rw 0x3, fldR 47 32 .rw 0x40 [(0, 0)], fld 23 0 .rw 0x0]⟩,
  -- REG_LEVEL (Table 9-22, R302)
  ⟨0x190, 1, 0x0, [
    fld 31 0 .ro 0x10000]⟩,
  -- BAY_CTL (Table 10-8, R333)
  ⟨0x100, 1, 0x0, [
    fld 63 48 .rw 0x0, fld 2 2 .w1s 0x0, fld 1 1 .w1s 0x0, fld 0 0 .w1s 0x0]⟩,
  -- BAY_STAT (Table 10-8, R333)
  ⟨0x108, 1, 0x0, [
    fld 63 56 .ro 0x0, fld 55 48 .ro 0x0, fldX 47 40 .ro, fld 33 32 .ro 0x0, fld 20 16 .ro 0x0,
    fld 11 8 .ro 0x0, fld 5 5 .ro 0x0, fld 4 4 .ro 0x0, fld 3 3 .ro 0x0, fld 2 2 .ro 0x0, fld 1 1 .ro 0x0,
    fld 0 0 .ro 0x0]⟩,
  -- BAY_CFG (Table 10-8, R333)
  ⟨0x110, 1, 0x0, [
    fldR 7 0 .rw 0xA [(0, 0)]]⟩,
  -- BAY_POOL_TABLE (Table 10-8, R333)
  ⟨0x118, 1, 0x0, [
    fldX 63 0 .rw]⟩,
  -- BAY_POOL_GIVE (Table 10-8, R333)
  ⟨0x120, 1, 0x0, [
    fld 63 58 .wo 0x0, fld 51 12 .wo 0x0]⟩,
  -- MBX_CMD (Table 10-8, R333)
  ⟨0x300, 1, 0x0, [
    fld 31 24 .ro 0x0, fld 17 17 .ro 0x0, fld 16 16 .w1s 0x0, fld 11 8 .rw 0x0, fld 7 0 .rw 0x0]⟩,
  -- MBX_DATA (Table 10-8, R333)
  ⟨0x308, 8, 0x8, [
    fldX 63 0 .rw]⟩,
  -- MIRROR_BASE (Table 10-8, R333)
  ⟨0x400, 8, 0x10, [
    fldX 40 12 .rw, fld 0 0 .rw 0x0]⟩,
  -- MIRROR_LIMIT (Table 10-8, R333)
  ⟨0x408, 8, 0x10, [
    fldX 40 12 .rw, fldX 11 8 .rw, fld 5 4 .ro 0x0, fld 0 0 .w1s 0x0]⟩
]

/-- Block-specific registers of the hostPort pages (R619). -/
def hostPortRegs : List RegSpec := [
  -- HOST_CFG (Table 14-5, R446)
  ⟨0x100, 1, 0x0, [
    fldR 15 0 .rw 0x32 [(0, 0)]]⟩,
  -- HOST_STAT (Table 14-6, R446)
  ⟨0x108, 1, 0x0, [
    fld 47 32 .ro 0x0, fld 31 24 .ro 0x0, fld 23 19 .ro 0x0, fld 18 16 .ro 0x0, fld 15 9 .ro 0x1,
    fld 8 3 .ro 0x0, fld 2 2 .ro 0x0, fld 1 1 .ro 0x0, fld 0 0 .ro 0x0]⟩,
  -- HOST_PROTO_REQ (Table 14-7, R446)
  ⟨0x110, 1, 0x0, [
    fld 63 48 .rw 0x0, fld 47 32 .rw 0x0, fld 31 16 .rw 0x0, fld 15 0 .rw 0x0]⟩,
  -- HOST_ATTACH (Table 14-9, R446)
  ⟨0x118, 1, 0x0, [
    fld 17 17 .w1s 0x0, fld 16 16 .w1s 0x0, fld 15 0 .rw 0x0]⟩,
  -- WIN_CTL (Table 14-9, R446)
  ⟨0x120, 1, 0x0, [
    fld 13 8 .rw 0x0, fld 0 0 .w1s 0x0]⟩,
  -- WIN_TABLE (Table 14-9, R446)
  ⟨0x400, 64, 0x8, [
    fldX 63 0 .rw]⟩
]

/-- Block-specific registers of the queueBlock pages (R619). -/
def queueBlockRegs : List RegSpec := [
  -- SQ_BASE (Table 13-2, R395)
  ⟨0x800, 32, 0x40, [
    fldX 63 0 .rw]⟩,
  -- CQ_BASE (Table 13-2, R395)
  ⟨0x808, 32, 0x40, [
    fldX 63 0 .rw]⟩,
  -- QCFG (Table 13-2, R395)
  ⟨0x810, 32, 0x40, [
    fld 63 63 .rw 0x0, fld 62 62 .rw 0x0, fld 58 56 .rw 0x3, fld 51 32 .rw 0x0, fld 27 16 .rw 0x0,
    fldR 3 0 .rw 0x6 [(0, 0), (13, 15)]]⟩,
  -- QBIND (Table 13-2, R395)
  ⟨0x818, 32, 0x40, [
    fld 63 63 .rw 0x0, fldR 59 56 .rw 0x0 [(6, 15)], fld 53 48 .rw 0x0, fld 44 44 .rw 0x0, fld 43 32 .rw 0x0,
    fld 27 16 .rw 0x0, fld 10 1 .rw 0x0]⟩,
  -- SQ_TAIL (Table 13-2, R395)
  ⟨0x820, 32, 0x40, [
    fld 11 0 .rw 0x0]⟩,
  -- CQ_HEAD (Table 13-2, R395)
  ⟨0x828, 32, 0x40, [
    fld 11 0 .rw 0x0]⟩,
  -- QSTAT (Table 13-2, R395)
  ⟨0x830, 32, 0x40, [
    fld 63 63 .ro 0x1, fld 59 48 .ro 0x0, fld 31 0 .ro 0x0]⟩
]

/-- Block-specific registers of the decanter pages (R619). -/
def decanterRegs : List RegSpec := [
  -- STREAM_DESC (Table 16-10, R517)
  ⟨0x400, 16, 0x40, [
    fldX 63 0 .rw]⟩,
  -- STREAM_CFG (Table 16-10, R517)
  ⟨0x408, 16, 0x40, [
    fld 63 63 .rw 0x0, fld 5 0 .rw 0x0]⟩,
  -- REQ_BASE (Table 16-10, R517)
  ⟨0x410, 16, 0x40, [
    fldX 63 0 .rw]⟩,
  -- STREAM_CTL (Table 16-10, R517)
  ⟨0x418, 16, 0x40, [
    fld 63 48 .wo 0x0, fld 4 4 .w1s 0x0, fld 2 2 .w1s 0x0, fld 1 1 .w1s 0x0, fld 0 0 .w1s 0x0]⟩,
  -- STREAM_POS (Table 16-10, R517)
  ⟨0x420, 16, 0x40, [
    fld 47 0 .rw 0x0]⟩,
  -- STREAM_STAT (Table 16-10, R517)
  ⟨0x428, 16, 0x40, [
    fld 63 48 .ro 0x0, fld 47 40 .ro 0x0, fld 39 32 .ro 0x0, fld 31 28 .ro 0x0, fld 7 4 .ro 0x0,
    fld 2 0 .ro 0x0]⟩,
  -- REQ_TAIL (Table 16-10, R517)
  ⟨0x430, 16, 0x40, [
    fld 3 0 .rw 0x0]⟩,
  -- STOP_OFFSET (Table 16-10, R517)
  ⟨0x438, 16, 0x40, [
    fld 47 40 .ro 0x0, fld 39 0 .ro 0x0]⟩
]

/-- Block-specific registers of the hubRouter pages (R619). -/
def hubRouterRegs : List RegSpec := [
  -- ROUTE (Table 12-2, R372)
  ⟨0x200, 80, 0x8, [
    fld 7 7 .rw 0x0, fldR 2 0 .rw 0x5 [(6, 7)]]⟩,
  -- ROUTER_CTL (Table 12-7, R389)
  ⟨0x100, 1, 0x0, [
    fld 0 0 .rw 0x0]⟩,
  -- ROUTER_STAT (Table 12-8, R389)
  ⟨0x108, 1, 0x0, [
    fld 19 16 .ro 0x0, fld 15 0 .ro 0x0]⟩,
  -- ARB_CFG (Table 12-10, R389)
  ⟨0x600, 5, 0x40, [
    fld 15 0 .rw 0x400]⟩,
  -- ARB_SHARE (Table 12-11, R389)
  ⟨0x608, 5, 0x40, [
    fld 31 31 .wo 0x0, fld 21 16 .rw 0x0, fld 13 8 .ro 0x0, fldR 5 0 .rw 0x30 [(49, 63)]]⟩,
  -- ARB_STAT (Table 12-12, R389)
  ⟨0x610, 5, 0x40, [
    fld 63 63 .w1c 0x0, fld 38 32 .ro 0x0, fld 31 0 .ro 0x0]⟩,
  -- ARB_STARVE_SRC (Table 12-13, R389)
  ⟨0x618, 5, 0x40, [
    fld 21 16 .ro 0x0, fld 2 0 .ro 0x0]⟩,
  -- ARB_CNT_PARKED (Table 12-14, R389)
  ⟨0x620, 5, 0x40, [
    fld 63 0 .ro 0x0]⟩,
  -- ARB_CNT_REFUSED (Table 12-14, R389)
  ⟨0x628, 5, 0x40, [
    fld 63 0 .ro 0x0]⟩
]

/-- Block-specific registers of the hubCache pages (R619). -/
def hubCacheRegs : List RegSpec := [
  -- CACHE_CTL (Table 9-4, R285)
  ⟨0x100, 1, 0x0, [
    fld 8 8 .rw 0x1, fldR 2 0 .rw 0x0 [(5, 7)]]⟩,
  -- PREFETCH_CTL (Table 9-5, R285)
  ⟨0x108, 1, 0x0, [
    fld 14 8 .ro 0x10, fldR 6 0 .rw 0x10 [(65, 127)]]⟩,
  -- KEEP_RELEASE (Table 9-6, R285)
  ⟨0x110, 1, 0x0, [
    fld 21 16 .rw 0x0, fld 11 8 .rw 0x0, fld 1 1 .ro 0x0, fld 0 0 .w1s 0x0]⟩,
  -- KEEP_LIMIT (Table 9-7, R285)
  ⟨0x200, 64, 0x8, [
    fld 41 32 .ro 0x0, fldR 9 0 .rw 0x0 [(513, 1023)]]⟩,
  -- ATTR_BASE (Table 9-8, R285)
  ⟨0x400, 16, 0x10, [
    fldX 51 12 .rw, fld 0 0 .rw 0x0]⟩,
  -- ATTR_LIMIT (Table 9-8, R285)
  ⟨0x408, 16, 0x10, [
    fldX 51 12 .rw, fld 0 0 .rw 0x0]⟩
]

/-- Block-specific registers of the directory pages (R619). -/
def directoryRegs : List RegSpec := [
  -- DIR_STAT (Table 11-11, R363)
  ⟨0x100, 1, 0x0, [
    fld 18 0 .ro 0x0]⟩
]

/-- Block-specific registers of the gddrCtl pages (R619). -/
def gddrCtlRegs : List RegSpec := [
  -- GDDR_CFG (Table 9-14, R296)
  ⟨0x100, 1, 0x0, [
    fld 31 24 .rw 0x18, fldR 23 16 .rw 0x8 [(0, 0)], fldR 10 8 .rw 0x0 [(3, 3), (5, 7)],
    fldR 3 0 .rw 0x8 [(0, 0), (13, 15)]]⟩,
  -- GDDR_STAT (Table 9-15, R296)
  ⟨0x108, 1, 0x0, [
    fld 16 16 .ro 0x0, fld 15 15 .ro 0x0, fld 14 14 .ro 0x0, fld 13 13 .w1c 0x0, fld 12 10 .ro 0x1,
    fld 9 8 .ro 0x0, fldX 7 0 .ro]⟩,
  -- ARB_CFG (Table 12-10, R389)
  ⟨0x600, 1, 0x0, [
    fld 15 0 .rw 0x400]⟩,
  -- ARB_SHARE (Table 12-11, R389)
  ⟨0x608, 1, 0x0, [
    fld 31 31 .wo 0x0, fld 21 16 .rw 0x0, fld 13 8 .ro 0x0, fldR 5 0 .rw 0x30 [(49, 63)]]⟩,
  -- ARB_STAT (Table 12-12, R389)
  ⟨0x610, 1, 0x0, [
    fld 63 63 .w1c 0x0, fld 38 32 .ro 0x0, fld 31 0 .ro 0x0]⟩,
  -- ARB_STARVE_SRC (Table 12-13, R389)
  ⟨0x618, 1, 0x0, [
    fld 21 16 .ro 0x0, fld 2 0 .ro 0x0]⟩,
  -- ARB_CNT_PARKED (Table 12-14, R389)
  ⟨0x620, 1, 0x0, [
    fld 63 0 .ro 0x0]⟩,
  -- ARB_CNT_REFUSED (Table 12-14, R389)
  ⟨0x628, 1, 0x0, [
    fld 63 0 .ro 0x0]⟩
]

/-- Block-specific registers of the regulator pages (R619). -/
def regulatorRegs : List RegSpec := [
  -- REG_CTL (Table 9-19, R302)
  ⟨0x100, 1, 0x0, [
    fld 3 0 .rw 0x0]⟩,
  -- REG_INDEX (Table 9-20, R302)
  ⟨0x108, 1, 0x0, [
    fld 11 8 .rw 0x0, fld 5 0 .rw 0x0]⟩,
  -- REG_DATA (Table 9-21, R302)
  ⟨0x110, 1, 0x0, [
    fld 63 63 .rw 0x0, fld 62 62 .rw 0x1, fld 61 59 .rw 0x3, fldR 47 32 .rw 0x40 [(0, 0)], fld 23 0 .rw 0x0]⟩,
  -- REG_LEVEL (Table 9-22, R302)
  ⟨0x118, 1, 0x0, [
    fld 31 0 .ro 0x10000]⟩
]

/-- Block-specific registers of the scheduler pages (R619). -/
def schedulerRegs : List RegSpec := [
  -- ROUND_STALL_CTL (Table 7-5, R235)
  ⟨0x300, 1, 0x0, [
    fld 31 0 .rw 0x186A0]⟩,
  -- ROUND_STAT (Table 7-7, R235)
  ⟨0x308, 1, 0x0, [
    fld 51 36 .ro 0x0, fld 35 32 .ro 0x0, fld 31 0 .ro 0x0]⟩,
  -- SCHED_CTL (Table 13-10, R419)
  ⟨0x100, 1, 0x0, [
    fld 47 32 .rw 0x0, fld 15 0 .rw 0x32]⟩,
  -- RT_RESERVE (Table 13-10, R419)
  ⟨0x108, 1, 0x0, [
    fld 63 63 .rw 0x0, fld 53 48 .rw 0x0, fld 41 41 .rw 0x0, fld 40 40 .rw 0x0, fld 35 32 .rw 0x0,
    fld 12 8 .rw 0x0, fld 4 0 .rw 0x0]⟩,
  -- PREEMPT_REQ (Table 13-10, R419)
  ⟨0x110, 1, 0x0, [
    fld 31 20 .rw 0x0, fld 16 16 .rw 0x0, fld 1 1 .ro 0x0, fld 0 0 .w1s 0x0]⟩,
  -- TASK_STAT (Table 13-10, R419)
  ⟨0x118, 1, 0x0, [
    fld 47 32 .ro 0x0, fld 15 0 .ro 0x0]⟩,
  -- SLOT_TABLE (Table 13-10, R419)
  ⟨0x400, 64, 0x8, [
    fldX 63 0 .rw]⟩
]

/-- Block-specific registers of the mover pages (R619). -/
def moverRegs : List RegSpec := [
  -- MOVER_STAT (Table 21-11, R619)
  ⟨0x100, 1, 0x0, [
    fld 4 0 .ro 0x0]⟩
]

/-- Block-specific registers of the collective pages (R619). -/
def collectiveRegs : List RegSpec := [
  -- COLL_CFG (Table 15-18, R486)
  ⟨0x100, 1, 0x0, [
    fld 63 48 .rw 0xC8, fld 31 16 .rw 0x10, fldR 15 0 .rw 0x7D0 [(0, 0)]]⟩,
  -- COLL_STAT (Table 15-18, R486)
  ⟨0x108, 1, 0x0, [
    fld 4 0 .ro 0x0]⟩
]

/-- Block-specific registers of the blend pages (R619). -/
def blendRegs : List RegSpec := [
  -- BLEND_CTL (Table 8-9, R266)
  ⟨0x100, 1, 0x0, [
    fld 15 0 .rw 0x64]⟩,
  -- STEP_STAT (Table 8-10, R266)
  ⟨0x108, 1, 0x0, [
    fld 63 48 .ro 0x0, fld 43 0 .ro 0x0]⟩,
  -- STEP_NF (Table 8-11, R266)
  ⟨0x110, 1, 0x0, [
    fld 63 32 .ro 0x0, fld 31 0 .ro 0x0]⟩,
  -- STEP_GMAX (Table 8-12, R266)
  ⟨0x118, 1, 0x0, [
    fld 31 0 .ro 0x0]⟩,
  -- STEP_GSQ (Table 8-13, R266)
  ⟨0x120, 1, 0x0, [
    fld 31 0 .ro 0x0]⟩,
  -- ARM_STAT (Table 8-14, R266)
  ⟨0x128, 1, 0x0, [
    fld 4 0 .ro 0x0]⟩
]

/-- Block-specific registers of the racking pages (R619). -/
def rackingRegs : List RegSpec := [
  -- RACK_CTL (Table 10-9, R333)
  ⟨0x100, 1, 0x0, [
    fld 47 32 .rw 0x64, fld 31 16 .rw 0x40, fldR 15 8 .rw 0xA [(0, 0)], fld 0 0 .rw 0x0]⟩,
  -- RACK_STAT (Table 10-9, R333)
  ⟨0x108, 1, 0x0, [
    fld 5 0 .ro 0x0]⟩,
  -- RACK_POOL_TABLE (Table 10-9, R333)
  ⟨0x110, 1, 0x0, [
    fldX 63 0 .rw]⟩,
  -- RACK_POOL_GIVE (Table 10-8, R333)
  ⟨0x118, 1, 0x0, [
    fld 63 58 .wo 0x0, fld 51 12 .wo 0x0]⟩,
  -- PROMO_BASE (Table 10-9, R333)
  ⟨0x120, 1, 0x0, [
    fldX 63 0 .rw]⟩,
  -- PROMO_CAP (Table 10-9, R333)
  ⟨0x128, 1, 0x0, [
    fld 31 0 .rw 0x0]⟩,
  -- PLACE_BASE (Table 10-9, R333)
  ⟨0x200, 64, 0x10, [
    fldX 63 0 .rw]⟩,
  -- PLACE_COUNT (Table 10-9, R333)
  ⟨0x208, 64, 0x10, [
    fld 31 0 .rw 0x0]⟩
]

/-- Block-specific registers of the hubTlb pages (R619). -/
def hubTlbRegs : List RegSpec := [
  -- TLB_CTL (Table 11-13, R364)
  ⟨0x100, 1, 0x0, [
    fld 8 8 .rw 0x1, fldR 4 0 .rw 0x4 [(17, 31)]]⟩,
  -- TLB_STAT (Table 11-14, R364)
  ⟨0x108, 1, 0x0, [
    fld 18 0 .ro 0x0]⟩
]

/-- Block-specific registers of the hubCtrlCores pages (R619). -/
def hubCtrlCoresRegs : List RegSpec := [
  -- FW_IMAGE (Table 21-11, R619)
  ⟨0x100, 1, 0x0, [
    fldX 51 12 .rw]⟩,
  -- FW_VERSION (Table 21-11, R619)
  ⟨0x108, 1, 0x0, [
    fldX 15 0 .ro]⟩
]

/-- Block-specific registers of the computeDie pages (R619). -/
def computeDieRegs : List RegSpec := [
  -- ROW_SKIP (Table 3-11, R103)
  ⟨0x100, 30, 0x8, [
    fld 16 16 .ro 0x0, fld 13 8 .rw 0x0, fld 5 0 .rw 0x0]⟩,
  -- PORT_STALL_LIMIT (Table 3-12, R103)
  ⟨0x1F0, 1, 0x0, [
    fld 15 0 .rw 0x400]⟩,
  -- KEEP_CTL (Table 4-15, R136)
  ⟨0x1F8, 1, 0x0, [
    fld 7 0 .rw 0x30]⟩,
  -- KEEP_STAT (Table 4-16, R136)
  ⟨0x200, 1, 0x0, [
    fld 8 8 .ro 0x0, fld 7 0 .ro 0x30]⟩,
  -- DIE_PWR_BOUND (Table 18-5, R550)
  ⟨0x208, 1, 0x0, [
    fld 25 16 .rw 0x352, fld 15 8 .rw 0x64, fld 3 2 .rw 0x3, fld 1 0 .rw 0x0]⟩,
  -- DIE_PWR_STAT (Table 18-6, R550)
  ⟨0x210, 1, 0x0, [
    fldX 63 56 .ro, fld 41 32 .ro 0x258, fld 9 9 .ro 0x0, fld 8 8 .w1c 0x0, fld 5 4 .ro 0x0, fld 1 0 .ro 0x3]⟩
]

/-- Block-specific registers of the coreWindow pages (R619). -/
def coreWindowRegs : List RegSpec := [
  -- CW_SELECT (Table 21-11, R619)
  ⟨0x100, 1, 0x0, [
    fld 15 14 .rw 0x0, fldR 12 8 .rw 0x0 [(30, 31)], fldR 5 0 .rw 0x0 [(42, 63)]]⟩,
  -- CW_OFFSET (Table 21-11, R619)
  ⟨0x108, 1, 0x0, [
    fld 18 0 .rw 0x0]⟩,
  -- CW_DATA (Table 21-11, R619)
  ⟨0x110, 1, 0x0, [
    fldX 63 0 .rw]⟩,
  -- CW_STAT (Table 21-11, R619)
  ⟨0x118, 1, 0x0, [
    fld 47 40 .ro 0x0, fld 39 32 .ro 0x0, fld 2 0 .ro 0x0]⟩,
  -- CW_CTL (Table 21-11, R619)
  ⟨0x120, 1, 0x0, [
    fld 0 0 .w1s 0x0]⟩
]

/-- The block-specific registers of each page kind, Table 21-9 (R619). -/
def blockRegs : PageKind → List RegSpec
  | .device => deviceRegs
  | .pmc => pmcRegs
  | .thermal => thermalRegs
  | .clock => clockRegs
  | .servicePanel => servicePanelRegs
  | .eventQueue => eventQueueRegs
  | .serverDie => serverDieRegs
  | .iommu => []
  | .iommuFile => []
  | .interrupt => interruptRegs
  | .portDie => portDieRegs
  | .fabricPort => fabricPortRegs
  | .cellarBay => cellarBayRegs
  | .hostPort => hostPortRegs
  | .queueBlock => queueBlockRegs
  | .decanter => decanterRegs
  | .hubRouter => hubRouterRegs
  | .hubCache => hubCacheRegs
  | .directory => directoryRegs
  | .gddrCtl => gddrCtlRegs
  | .regulator => regulatorRegs
  | .scheduler => schedulerRegs
  | .mover => moverRegs
  | .collective => collectiveRegs
  | .blend => blendRegs
  | .racking => rackingRegs
  | .hubTlb => hubTlbRegs
  | .hubCtrlCores => hubCtrlCoresRegs
  | .computeDie => computeDieRegs
  | .coreWindow => coreWindowRegs

end Sys2Proof.Machine
end

