-- ==== Sys2Proof/Machine/State.lean ====
section
/-!
DEFINITION. The state of the module: plain data, one structure per unit of the spec (R69, R17, R16).
Units of which the module has many are kept in keyed lists; a unit without an entry is at its reset value.
-/
namespace Sys2Proof.Machine

/-- Condition of a physical core, with the encodings of CW_STAT.STATE (R619, R620). -/
inductive CoreStatus where
  | idle | running | stopped | gated | faulted | skipped
  deriving DecidableEq, Repr

/-- A token record of Table 3-5 (R96, R199, R202, R205). `seq` is the program order of the operation. -/
structure Token where
  kind : Nat := 0
  gaddr : Nat := 0
  lsaddr : Nat := 0
  length : Nat := 0
  done : Nat := 0
  faulted : Bool := false
  status : Nat := 0
  port : Nat := 0
  dest : Word := 0
  seq : Nat := 0
  deriving DecidableEq, Repr

/-- A matrix queue entry of Table 3-4 (R95): instruction, operand values, first row not entered, program
order, whether the stream path has started it (R116), and the address of the instruction. -/
structure MqEntry where
  instr : Word
  opa : Word
  opb : Word
  nextRow : Nat := 0
  seq : Nat := 0
  started : Bool := false
  pc : Nat := 0
  deriving DecidableEq, Repr

/-- A weight bank (R71, R123): element area, side area and format tag of Table 4-10. -/
structure WBank where
  elems : BitVec 8192 := 0
  side : BitVec 2048 := 0
  wfmt : Nat := 0
  scaled : Bool := false
  transposed : Bool := false
  active : Bool := false
  deriving DecidableEq, Repr

/-- A weight-bank load that has issued and not finished (R125). -/
structure MlwLoad where
  instr : Word
  opa : Word
  opb : Word
  pc : Nat := 0
  deriving DecidableEq, Repr

/-- The fault record of Table 3-7 (R100); all zero for a core that has not faulted. -/
structure FaultRec where
  cause : Nat := 0
  status : Nat := 0
  index : Nat := 0
  fpc : Nat := 0
  faddr : Nat := 0
  finstr : Word := 0
  deriving DecidableEq, Repr

/-- What holds the issue of a core: nothing, a synchronous global access (R80) at element `elem` that may be
waiting to be presented again (R99), or a BAR that has arrived (R209). -/
inductive CoreWait where
  | none
  | access (instr : Word) (va : Nat) (elem : Nat) (retry : Bool)
  | barrier (idx : Nat) (round : Bool)
  deriving DecidableEq, Repr

/-- The current keeper of one array (R132 to R134): level in quarters, and whether a due MMA is raising it. -/
structure KeepState where
  level : Nat := 0
  ramping : Bool := false
  deriving DecidableEq, Repr

/-- The architectural state of a core (Table 3-1, R69) beside its local store, which lies in memory, with
the state that holds its issue. -/
structure Core where
  status : CoreStatus := .idle
  task : Option Nat := none
  x : Map Word := []
  v : Map (BitVec 2048) := []
  k : Map (BitVec 256) := []
  vl : Nat := 0
  vtype : Nat := 2
  vstart : Nat := 0
  acc : Map (BitVec 2048) := []
  /-- Accumulator rows without an entry are zero, or undefined with free values from this number on (R122, R219). -/
  accFree : Option Nat := none
  wbank : Map WBank := [(0, { active := true }), (2, { active := true })]
  srkey : Word := 0
  srseq : Nat := 0
  fflags : Word := 0
  pc : Nat := 0
  ibuf : List (Nat × BitVec 512) := []
  mq : List MqEntry := []
  loads : List MlwLoad := []
  tokens : Map Token := []
  fifo : Map (List (BitVec 256)) := []
  credits : Map Nat := []
  owed : Map Nat := []
  wait : CoreWait := .none
  fault : FaultRec := {}
  seq : Nat := 0
  keep : Map KeepState := []
  /-- Program order of the stream instructions that have posted PORT_STALL (R91). -/
  stalls : List Nat := []
  ended : Bool := false
  /-- A stopped core has drained (R94, R96). -/
  drained : Bool := false
  /-- The core stopped for a page request (R353). -/
  pageStop : Bool := false
  /-- The scheduler has written the save record of the stopped core (R416). -/
  saved : Bool := false
  /-- Cheap points before whose instruction the core stops (R416). -/
  cheapStop : List Nat := []
  /-- Partition of the last task of the core (R218). -/
  lastPart : Option Nat := none
  /-- Cause of the last fault of the core (CW_STAT.CAUSE, R619). -/
  lastCause : Nat := 0
  deriving DecidableEq, Repr

/-- Kinds of messages: those of Table 11-4, and what leaves the module or crosses between its units. -/
inductive MsgKind where
  | rdShared | rdPf | rdUnique | upgrade | rdOnce | wrFull | wrPtl | atomic
  | snpFwdS | snpFwdU | snpInv | snpRecall
  | invAck | fwdAck | rspMiss | evictClean | grant | comp | pfDrop | compAck
  | datS | datE | datM | datWb | datIo | xlat
  | msix | pmcIrq | hostWrite | mailbox | fabric | vintage | power | atsRequest | pageRequest | prgResponse
  | invCompletion | shootdown | iotlbInv | flit | panel | pldm | display | hostCpl
  deriving DecidableEq, Repr

/-- A message in flight or sent: its kind, source, destination, two numbers and data. -/
structure Msg where
  kind : MsgKind
  src : Nat := 0
  dst : Nat := 0
  a : Nat := 0
  b : Nat := 0
  data : List Byte := []
  deriving DecidableEq, Repr

/-- A cause of a ceiling (R541, R542): whether it is in WARN, whether its last reading exceeds WARN, since when its
readings have been low enough to end the WARN, when its demand last moved, and the divisor code it demands. -/
structure Cause where
  warn : Bool := false
  above : Bool := false
  coolSince : Option Nat := none
  moved : Nat := 0
  demand : Nat := 0
  deriving DecidableEq, Repr

/-- An entry of a hub's translation copy (R351, R352). `write` says that writes may proceed through it. -/
structure TlbEntry where
  stack : Nat
  dev : Nat
  pasid : Nat
  vpage : Nat
  ppage : Nat
  write : Bool
  aPending : Bool
  deriving DecidableEq, Repr

/-- Who waits for the response to a page request (R353): an engine, which keeps the page itself; a core with the key of its
task and the cause of its stop; the save of a core; the restore of a task; a collective; the ring of a queue that a group
master forwards to; or an access that a TRANSLATION_REQUEST named. -/
inductive Waiter where
  | engine
  | core (c task cause : Nat)
  | save (c task : Nat)
  | restore (task : Nat)
  | coll (key : Nat)
  | ring (q : Nat)
  | access
  deriving DecidableEq, Repr

/-- A page request that waits for its response (R353). -/
structure PageReq where
  dev : Nat
  pasid : Nat
  vpage : Nat
  waiter : Waiter
  deriving DecidableEq, Repr

/-- A record of the IOMMU fault queue (R350, R353). -/
structure IommuFault where
  dev : Nat
  pasid : Nat
  va : Nat
  status : Nat
  deriving DecidableEq, Repr

/-- An MSI-X table entry (R424, R425). -/
structure MsixEntry where
  addr : Nat := 0
  data : Nat := 0
  masked : Bool := true
  pend : Bool := false
  deriving DecidableEq, Repr

/-- A host function's PCIe state (R420, R425, R426). Function 0 is the PF and 1 + p is VF p. -/
structure HostFn where
  busMaster : Bool := false
  msixEnable : Bool := false
  table : Map MsixEntry := []
  deriving DecidableEq, Repr

/-- A page that an evacuation has to move (R328, R329): its partition, virtual address, HOME stack and the BAYMASK and
GDDR_OK of its entry, and whether the frame in the bay is a WARM page's. -/
structure EvacPage where
  part : Nat
  va : Nat
  home : Nat
  mask : Nat
  gddrOk : Bool
  warm : Bool
  deriving DecidableEq, Repr

/-- What a bay and its cartridge hold beside the registers of the CELLAR_BAY page (chapter 10). -/
structure Bay where
  /-- Capacity in bytes that OLM_IDENTIFY has reported, at most 2 TiB (R304). -/
  capacity : Nat := 0
  /-- Of the cartridge in the bay (log row 37): the capacity that it will report, in bytes, whether it can be sanitised,
  and whether it needs no part that Table 10-1 excludes (R305). -/
  reported : Nat := 0
  sane : Bool := true
  fit : Bool := true
  /-- Rate code at which the link has trained (Table 10-8). -/
  rate : Nat := 0
  /-- A request timed out once and the link has been retrained for it (R307). -/
  retrained : Bool := false
  /-- Mailbox commands in order of arrival, as opcode and whether software issued them; the first runs (R309). -/
  mbxQueue : List (Nat × Bool) := []
  /-- REMOVAL_READY has returned 1 (R330). -/
  removable : Bool := false
  /-- Copy that is stale or gone, by mirror entry: 1 the primary's, 2 the partner's, 3 both (R325). -/
  lostCopy : Map Nat := []
  /-- Pages that the copying pass has still to start on (R328, R329). -/
  evacLeft : List EvacPage := []
  evacCounted : Nat := 0
  /-- Frames of the bay that the evacuation has moved (R331). -/
  evacFrames : List Nat := []
  /-- Partition and virtual address of pages left in place (R319, R330). -/
  evacStuck : List (Nat × Nat) := []
  /-- EVAC_DONE has been posted and the cartridge has been asked (R330). -/
  evacDone : Bool := false
  /-- PANEL_TIME at which the partitions were asked, and the order in which the removal was queued (R594, R596). -/
  askedAt : Nat := 0
  queued : Nat := 0
  /-- Partitions that were asked (R595). -/
  asked : Nat := 0
  /-- PANEL_TIME at which a removal request last ended without removal (R593). -/
  endedAt : Option Nat := none
  deriving DecidableEq, Repr

/-- For whom the racking engine moves a page (R315, R319): a RACK command or a manifest entry by its key, a promotion, a
demotion, or the evacuation of a bay. -/
inductive MigWhy where
  | command (key : Nat)
  | stage (task : Nat)
  | promote
  | demote
  | evac (bay : Nat)
  deriving DecidableEq, Repr

/-- A page in migration (R315): its engine's stack, its page, the new frame once a pool has given it, and, while the leaf is
the transient one, the leaf's address and its old value. `state` is 0 to start, 1 transient, 2 deferred. -/
structure Mig where
  stack : Nat
  part : Nat
  pasid : Nat
  va : Nat
  why : MigWhy
  frame : Option Nat := none
  leaf : Nat := 0
  old : Word := 0
  state : Nat := 0
  /-- The page is WARM; and BAYMASK and GDDR_OK of its entry. -/
  warm : Bool := false
  mask : Nat := 0
  gddrOk : Bool := false
  deriving DecidableEq, Repr

/-- A record of a promotion ring (R321): the page, its GDDR frame, its backing frame, and its place in the ring. -/
structure Promo where
  stack : Nat
  part : Nat
  pasid : Nat
  va : Nat
  gddr : Nat
  backing : Nat
  place : Nat
  deriving DecidableEq, Repr

/-- A regulator's settings and its level in 2^-16 B (R298, Table 9-21). -/
structure Bucket where
  enable : Bool := false
  borrow : Bool := true
  prio : Nat := 3
  burst : Nat := 0x40
  rate : Nat := 0
  level : Int := 4294967296
  deriving DecidableEq, Repr

/-- States of a line at a caching agent (Table 11-2). -/
inductive LineState where
  | m | e | s | i
  deriving DecidableEq, Repr

/-- Class of a hub-cache line (Table 9-1). -/
inductive CacheClass where
  | normal | stream | keep
  deriving DecidableEq, Repr

/-- A valid line of a hub cache (Table 9-1, R272 to R276, R284). `line` is the address ÷ 128; `near` marks a
line of the near-cache (R278). `below` holds the bytes that GDDR holds under a dirty line (R275). -/
structure CacheLine where
  stack : Nat
  slice : Nat
  set : Nat
  way : Nat
  line : Nat
  dirty : Bool := false
  cls : CacheClass := .normal
  tag : Nat := 0
  part : Nat := 0
  prefetched : Bool := false
  born : Nat := 0
  used : Nat := 0
  near : Bool := false
  below : List Byte := []
  deriving DecidableEq, Repr

/-- An access that waits at a near-cache for its line or for ownership of it (R278, R279); `data` is empty for a
read, and `pref` says that it is a prefetch. -/
structure NearReq where
  stack : Nat
  line : Nat
  off : Nat
  len : Nat
  data : List Byte
  pref : Bool
  deriving DecidableEq, Repr

/-- An entry of a directory slice (R338): its slice and set, sharers in rising order, owner and recency. -/
structure DirEntry where
  home : Nat
  set : Nat
  sharers : List Nat := []
  owner : Option Nat := none
  used : Nat := 0
  deriving DecidableEq, Repr

/-- The transaction that keeps a line BUSY (R339): its request, the agents whose answers it awaits, those that
answered without a copy and whose eviction message is still to come (R344), and whether COMP_ACK ends it. An
eviction of the entry has the kind `snpRecall`. -/
structure DirTxn where
  req : Msg
  waits : List Nat := []
  missed : List Nat := []
  needAck : Bool := false
  /-- COMP_ACK has arrived before the owner's answer. -/
  acked : Bool := false
  deriving DecidableEq, Repr

/-- An invalidation that hubs have still to acknowledge (R354, R355): command-queue index, hubs, PANEL_TIME of its
issue, and whether INV_SLOW has been posted. -/
structure Inval where
  index : Nat
  hubs : List Nat
  issued : Nat
  slow : Bool := false
  deriving DecidableEq, Repr

/-- An entry of the host port's address translation cache (R356). -/
structure AtcEntry where
  fn : Nat
  base : Nat
  size : Nat
  write : Bool
  deriving DecidableEq, Repr

/-- A host translation in progress (R356, R357): function, aperture offset, whether it is for a write, and whether
a PRI Page Request is outstanding. -/
structure AtsReq where
  fn : Nat
  off : Nat
  write : Bool
  pri : Bool := false
  deriving DecidableEq, Repr

/-- An entry of a server core's TLB. -/
structure SrvTlb where
  core : Nat
  vpage : Nat
  ppage : Nat
  deriving DecidableEq, Repr

/-- A trained stream entry of a hub's prefetchers (R282, R283). Addresses are virtual. -/
structure Stream where
  requester : Nat
  part : Nat
  pasid : Nat
  stride : Int
  lastVa : Nat
  nextVa : Nat
  stream : Bool
  used : Nat
  deriving DecidableEq, Repr

/-- A missing access that the stream prefetchers remember for training (R282). -/
structure Miss where
  requester : Nat
  va : Nat
  cycle : Nat
  deriving DecidableEq, Repr

/-- The prefetchers of a hub (R282 to R284). -/
structure Prefetch where
  streams : Map Stream := []
  misses : List Miss := []
  lastUnused : Nat := 0
  lastUseful : Nat := 0
  deriving DecidableEq, Repr

/-- A fetched command (Table 13-3), by queue and sequence number. -/
structure Cmd where
  queue : Nat
  seq : Nat
  kind : Nat
  flags : Nat := 0
  target : Nat := 0
  jobTag : Nat := 0
  cmdId : Nat := 0
  pasid : Nat := 0
  jobSeed : Nat := 0
  step : Nat := 0
  cs : List Nat := []
  payload : List Byte := []
  part : Nat := 0
  prio : Nat := 0
  rt : Bool := false
  started : Bool := false
  /-- Holds one of the sixteen active places of its engine (R411). -/
  active : Bool := false
  /-- Order of arrival at the engine (R411). -/
  arrival : Nat := 0
  /-- Bytes or pages done so far, for a command that a refusal or page request interrupts (R405, R407). -/
  progress : Nat := 0
  delayed : Bool := false
  /-- Largest PARK bucket of the command's requests (R386). -/
  park : Nat := 0
  /-- What holds the command: 0 nothing, 1 a refused request, 2 a page request, 3 a full ring of its member, 4 the loss of
  its engine (R232, R407, R469, R579). -/
  held : Nat := 0
  /-- The page that a page request of the command waits for (R232). -/
  heldPage : Nat := 0
  /-- Arrival port, and the master's module, queue and sequence number in [53:42], [41:32] and [31:0], for a command
  that a group master forwarded (R395, R469). -/
  fwd : Option (Nat × Nat) := none
  /-- The master has forwarded the command to a member (R469). -/
  sent : Bool := false
  /-- The packet that carries the forwarded command, which waits to be sent again (R469). -/
  fwdPkt : Option (Nat × Packet) := none
  /-- First refusal of a RACK command in address order, as page and status, and its pages moved (R320). -/
  rackFail : Option (Nat × Nat) := none
  moved : Nat := 0
  deriving DecidableEq, Repr

/-- What a queue block keeps for a queue beside its registers (R396, R397, R408, R409). -/
structure QState where
  nextSeq : Nat := 1
  cqTail : Nat := 0
  /-- Completion entries written and not consumed under CQ_HEAD (R396). -/
  unread : Nat := 0
  phase : Bool := true
  /-- Sequence numbers above DONE_UPTO that have completed. -/
  done : List Nat := []
  /-- Completion entries that wait for a page request, oldest first, as sequence number, bytes and interrupt (R408). -/
  stalled : List (Nat × List Byte × Bool) := []
  /-- The page that the fetch of the next slot waits for (R396). -/
  fetchWait : Option Nat := none
  /-- Arrival port and identity of the forwarded commands in the ring that have not been fetched (R395, R469). -/
  fwdIds : List (Nat × Nat) := []
  /-- Entries of the queue are discarded since a host loss or VF reset, until it is enabled again (R439). -/
  lost : Bool := false
  /-- A page request of the ring has failed; the next forwarded command is answered with TRANSLATION_FAULT (R353, R469). -/
  ringFault : Bool := false
  deriving DecidableEq, Repr

/-- A cheap-point entry (Table 6-19). -/
structure CheapPoint where
  pc : Nat
  vmask : Nat
  lsmask : Nat
  amask : Nat
  wmask : Nat
  zero : Bool
  deriving DecidableEq, Repr

/-- Where a task stands (R412 to R418). -/
inductive TaskStatus where
  | checked | ready | running | stopping | switchedOut | failing
  deriving DecidableEq, Repr

/-- A KERNEL's task (R402 to R404, R412 to R418). -/
structure Task where
  queue : Nat
  seq : Nat
  part : Nat
  jobTag : Nat := 0
  prio : Nat := 0
  rt : Bool := false
  pasid : Nat := 0
  jobSeed : Nat := 0
  step : Nat := 0
  image : Nat := 0
  stackBits : Nat := 0
  dieMask : Nat := 0
  rowFirst : Nat := 0
  rowLast : Nat := 0
  colFirst : Nat := 0
  colLast : Nat := 0
  saveTable : Nat := 0
  manifestTable : Nat := 0
  barScope : Nat := 0
  slot : Option Nat := none
  cheap : Bool := false
  resume : Bool := false
  status : TaskStatus := .checked
  /-- The pre-emption in progress prefers cheap points (R416). -/
  wantCheap : Bool := false
  /-- A pre-emption has been requested: 1 at once, 2 at cheap points; 3 is added for one at once with a full save (R415, R578). -/
  request : Nat := 0
  /-- PANEL_TIME at which the task last started or resumed, and at which its pre-emption began (R412, R416). -/
  since : Nat := 0
  stopAt : Nat := 0
  /-- Round barriers released so far (R225). -/
  rounds : Nat := 0
  switches : Nat := 0
  outOrder : Nat := 0
  /-- Status, first failing core and cause of a failed task (R404, R418). -/
  failStatus : Nat := 0
  failLcid : Nat := 0xFFFFFFFF
  failCause : Nat := 0
  /-- Logical core numbers of the cores whose program has ended (R211). -/
  ended : List Nat := []
  /-- The restored or switched-out task waits for a page request (R353). -/
  waitsPage : Bool := false
  /-- The cheap points of the image, as the scheduler read them at dispatch (R215). -/
  cheapPoints : List CheapPoint := []
  deriving DecidableEq, Repr

/-- An entry of a round manifest being staged (Table 7-2). -/
structure StageEntry where
  src : Nat
  dst : Nat
  len : Nat
  kind : Nat
  done : Bool := false
  /-- Bytes or pages done so far, and, for a RACK entry, that its pages have been started. -/
  pos : Nat := 0
  racked : Bool := false
  deriving DecidableEq, Repr

/-- A hub's staging of one round of a task (R222 to R234). -/
structure Stage where
  task : Nat
  stack : Nat
  round : Nat
  addr : Nat
  last : Bool := false
  next : Nat := 0
  entries : List StageEntry := []
  /-- The manifest could not be read yet: a page request waits (R232). -/
  hdrWait : Bool := false
  /-- The page that an entry of the manifest waits for (R232). -/
  pageWait : Option Nat := none
  /-- Lines installed without KEEP, which the read-back of R226 covers. -/
  normal : List Nat := []
  stallCycles : Nat := 0
  stallPosted : Bool := false
  deriving DecidableEq, Repr

/-- An active collective on an engine (R473 to R483): its command, the fields of its descriptor, and its progress.
`ranks` holds (module, logical stack) of every rank; blocks are of 32 elements. -/
structure Coll where
  queue : Nat
  seq : Nat
  stack : Nat
  part : Nat
  pasid : Nat
  jobTag : Nat
  collSeq : Nat
  op : Nat
  algo : Nat
  inFmt : Nat
  wireFmt : Nat
  outFmt : Nat
  redop : Nat
  nranks : Nat
  myrank : Nat
  root : Nat
  inner : Nat
  timeoutUs : Nat
  count : Nat
  ranks : List (Nat × Nat)
  src : Nat
  srcSide : Nat
  dst : Nat
  dstSide : Nat
  peer : Nat × Nat
  rpasid : Nat
  operand : Nat
  compare : Nat
  sig : Nat
  armedAt : Nat := 0
  /-- Extension of the timeout granted, in µs (R482). -/
  ext : Nat := 0
  /-- Non-finite elements of the chunks heard of, and of those this engine owns (R477). -/
  nf : Nat := 0
  ownNf : Nat := 0
  /-- Blocks or bytes of the result that DST holds, and blocks of the input that have been read. -/
  written : Nat := 0
  reads : Nat := 0
  /-- Counts of other ranks' chunks received by a REDUCE_SCATTER (R477). -/
  counts : Nat := 0
  /-- FP32 partials that wait for the others of their block, by kind × 2^40 + block (R475). -/
  parts : Map (List Nat) := []
  /-- Packets of a direct operation that have not been acknowledged or answered. -/
  open_ : Nat := 0
  /-- Steps that the destination answered as not armed, to be sent again (R478). -/
  resend : List Packet := []
  deriving DecidableEq, Repr

/-- A STRAGGLE or ABORT kept for a collective not yet armed (R479, R482). -/
structure KeptNote where
  stack : Nat
  jobTag : Nat
  collSeq : Nat
  abort : Bool
  status : Nat
  value : Nat
  deriving DecidableEq, Repr

/-- The byte memory: (address, byte) pairs at strictly rising addresses, no entry zero; an unlisted address
reads zero (R588, R589; assumption log, row 4). -/
abbrev Memory := List Host.Cell

/-- The operation that a sent packet belongs to: a command that the master forwarded, a completion that a member
returns, a collective, a host access that a member forwards, or a window write or flush (R463, R469, R470). -/
inductive Owner where
  | none
  | command (q seq : Nat)
  | completion (q seq tries : Nat)
  | coll (key : Nat)
  | hostFwd (id : Nat)
  | window (part slot : Nat)
  deriving DecidableEq, Repr

/-- A packet that its channel has sent and that has not been acknowledged. -/
structure TxPkt where
  pkt : Packet
  owner : Owner
  deriving DecidableEq, Repr

/-- The sending side of a channel (R461, R463): its port, the CHSEQ of its next packet, whether that packet carries
RESYNC, the unacknowledged packets in CHSEQ order, and the retransmissions made of them. -/
structure TxChan where
  port : Nat := 0
  bound : Bool := false
  next : Nat := 1
  resync : Bool := false
  unacked : List TxPkt := []
  tries : Nat := 0
  deriving DecidableEq, Repr

/-- The link layer of a fabric port (R449 to R452, R455): flit sequence numbers, replay buffer, bytes that wait for
credits, credits, times and numbers of the replays of the last millisecond, cable, and the times of its timers. A flit of the replay
buffer is its FSEQ, virtual channel and payload. -/
structure FabPort where
  txSeq : Nat := 0
  rxNext : Nat := 0
  replay : List (Nat × Nat × List Byte) := []
  waiting : Map (List Byte) := []
  credits : Map Nat := []
  replays : List (Nat × Nat) := []
  unackedRx : Nat := 0
  downAt : Option Nat := none
  cable : Bool := true
  /-- Flits received on each virtual channel whose credits have not been returned (R451). -/
  owed : Map Nat := []
  deriving DecidableEq, Repr

/-- Formation of the host group (R466, R467): whether it runs or ended in a conflict, what each member's GROUP_HELLO said
(bit 0 the strap, bit 1 the host link), and when the limit of 30 s began. -/
structure GroupForm where
  forming : Bool := false
  conflict : Bool := false
  heard : Map Nat := []
  limitFrom : Option Nat := none
  /-- This module's host link has been up (R466). -/
  linked : Bool := false
  deriving DecidableEq, Repr

/-- A cached entry of a window table (Table 14-4): whether it is valid and sound, TARGET and PASID. -/
structure WinEntry where
  sound : Bool
  target : Nat
  pasid : Nat
  deriving DecidableEq, Repr

/-- A GDDR controller beside its registers (R287, R291, R292, R295): the request in its retries, as stack offset, length and
data, which are empty for a read; attempts repeated, and whether a retraining has given it four new ones; the times of
the retrainings; lines to be rewritten; and whether refresh stays at 4×. -/
structure GddrDev where
  held : Option (Nat × Nat × List Byte) := none
  attempts : Nat := 0
  again : Bool := false
  retrains : List Nat := []
  rewrites : List Nat := []
  hot : Bool := false
  deriving DecidableEq, Repr

/-- Time keeping (R548, R549): the pair of source module and hops that each port's partner last reported, exchanges within
20 ns in a row, whether PANEL_TIME has been stepped and LOCKED has been set, and the times of the last exchange and of the
last correction. -/
structure TimeSync where
  pairs : Map (Nat × Nat) := []
  good : Nat := 0
  stepped : Bool := false
  everLocked : Bool := false
  last : Nat := 0
  corrected : Nat := 0
  deriving DecidableEq, Repr

/-- A write that the blend engine has formed and not made (R252): to a local store where it has a destination word (R250). -/
structure BlendWrite where
  dest : Option Word
  addr : Nat
  data : List Byte
  deriving DecidableEq, Repr

/-- A tile in the PROG routine of a hub control core (R256): its input buffer, and the buffer that came back. -/
structure ProgCall where
  core : Nat
  tile : Nat
  input : List Byte
  back : Option (List Byte) := none
  deriving DecidableEq, Repr

/-- An armed BLEND command (R242, R244): what it read at arming, and its progress. `descs` and `maps` hold the bytes of
one descriptor and resident map for an UPDATE, and of every listed group for a COMMIT. -/
structure BlendOp where
  queue : Nat
  seq : Nat
  stack : Nat
  part : Nat
  pasid : Nat
  jobTag : Nat
  jobSeed : Nat
  step : Nat
  commit : Bool
  descs : List (List Byte)
  maps : List (List Byte)
  verdict : Nat := 0
  arrival : Nat := 0
  /-- The physical stack of the watched collective engine. -/
  watch : Nat := 0
  ready : Option Nat := none
  collStatus : Nat := 0
  nfTotal : Nat := 0
  started : Bool := false
  group : Nat := 0
  tile : Nat := 0
  /-- CUR of each group's generation word as the operation read it. -/
  curs : List Nat := []
  writes : List BlendWrite := []
  /-- The writes are those of a tile, or of the end of a group with this status. -/
  closing : Option Nat := none
  /-- Non-finite values among the writes of the tile, and among those written. -/
  nfTile : Nat := 0
  nfOut : Nat := 0
  gmax : Nat := 0
  gsq : Nat := 0
  pageWait : Option Nat := none
  progs : List ProgCall := []
  /-- Next tile to be passed to the PROG routine. -/
  progNext : Nat := 0
  deriving DecidableEq, Repr

/-- A packet in the trellis (R371): the packet, its lane, the direction of its last hop, whether the router that holds it
injected it, and the HCLK cycles for which it has been held under R373 or R374, if it has. -/
structure Transit where
  pkt : TrellisPkt
  lane : Nat := 0
  last : Option Nat := none
  injected : Bool := false
  waited : Option Nat := none
  deriving DecidableEq, Repr

/-- A request at an arbiter (R379 to R388): what it is, its age in HCLK cycles, whether it has met an arbitration, whether
it is parked in an entry of the pending queue, and whether its starvation has been posted. -/
structure ArbEntry where
  req : ArbReq
  transit : Option Transit := none
  age : Nat := 0
  tried : Bool := false
  parked : Bool := false
  posted : Bool := false
  deriving DecidableEq, Repr

/-- A packet on its way from one node to the next. -/
structure Hop where
  src : Nat
  dst : Nat
  transit : Transit
  deriving DecidableEq, Repr

/-- The trellis and the arbiters beside their registers (chapter 12). Arbiters are keyed by page × 8 + group. -/
structure Trellis where
  /-- Routing tables of the server and port dies, by node × 128 + destination (R372). -/
  dieRoutes : Map Word := []
  /-- SHARE of each partition, by arbiter × 64 + partition (Table 12-11). -/
  shares : Map Nat := []
  /-- Requests at each arbiter, in order of presentation. -/
  entries : Map (List ArbEntry) := []
  /-- Rotation pointers (R379). -/
  rotate : Map Nat := []
  /-- Priorities that still govern the next arbitration after a write that landed late, by regulator (R381). -/
  oldPrio : Map Nat := []
  /-- Packets between nodes, oldest first. -/
  flight : List Hop := []
  /-- Packets that a router holds under R374, with the PANEL_TIME since when, oldest first. -/
  held : List (Nat × Nat × Transit) := []
  /-- Packets that wait at their injection points, with the requester and PANEL_TIME (R373). -/
  waits : List (Nat × Nat × Nat × TrellisPkt) := []
  /-- Outcomes of the last command: requester, status and PARK bucket (R385, R386). -/
  results : List (Nat × Nat × Nat) := []
  /-- PANEL_TIME of the replays of the last millisecond, by node × 4 + link (R367). -/
  replays : Map (List Nat) := []
  deriving DecidableEq, Repr

/-- A sensor frame buffered for alignment (R504): its time, its elements as FP32 codes, and the sample index, file, record
offset and position of its record. -/
structure DecFrame where
  time : Nat
  vals : List Nat
  idx : Nat
  file : Nat
  off : Nat
  pos : Nat
  deriving DecidableEq, Repr

/-- A request that a stream has taken (R492, R493): its entry, buffer, slots, whether it posts its completion, slots
written, and the status, END and position of a completion that has still to be written. -/
structure DecReq where
  index : Nat
  dst : Nat
  nslots : Nat
  irq : Bool
  done : Nat := 0
  closing : Option (Nat × Bool × Nat) := none
  deriving DecidableEq, Repr

/-- What a decanter keeps for a stream beside its registers (chapter 16): the descriptor that START read, whether START waits
for it, the open rows as lists of segments (sample index and tokens), rows closed since START, the files checked since
START or RESTART with their FILE_BYTES, the buffered frames and the element counts of the first frames by sensor, the
current request, and the page that an access waits for. -/
structure DecStream where
  desc : List Byte := []
  starting : Bool := false
  rows : List (List (Nat × List Nat)) := []
  rowSeq : Nat := 0
  files : Map Nat := []
  frames : Map (List DecFrame) := []
  lens : Map Nat := []
  req : Option DecReq := none
  pageWait : Option Nat := none
  deriving DecidableEq, Repr

/-- A server core as far as the spec describes it: the last exception that an access raised, as code and xtval (R526), the
line of its reservation (R523), an access that waits to be presented again, with the PANEL_TIME from which it may be
(R526), and the counters of Table 17-2, mhpmcounter3 to 31 by number (R520), which no row advances (log row 46). -/
structure SrvCore where
  trap : Option (Nat × Nat) := none
  resv : Option Nat := none
  retry : Option (SrvAccess × Nat) := none
  mcycle : Word := 0
  minstret : Word := 0
  mhpmcounter : Map Word := []
  deriving DecidableEq, Repr

/-- What an event queue keeps beside its registers (R561, R562): the PHASE of its pass, whether it has dropped an event since
its last record, and whether it has raised its interrupt since EVQ_HEAD was written. -/
structure EvQueue where
  phase : Bool := true
  lost : Bool := false
  raised : Bool := false
  deriving DecidableEq, Repr

/-- A generated event that its source has numbered and no queue has taken yet (R553, R556, R559). -/
structure GenEvent where
  page : Nat
  seq : Nat
  code : Nat
  cls : Nat
  sev : Nat
  part : Nat
  payload : Word
  /-- EPOCH of the source and PANEL_TIME at posting. -/
  epoch : Nat
  time : Nat
  deriving DecidableEq, Repr

/-- Start-up and what outlives it (chapter 20, R638): whether a start-up or standby is in progress, PANEL_TIME at the start of
the start-up and of its phase, the stack groups that phase 4 has powered, the feeds that are lost (0 FEED_A, 1 FEED_B), the
active flash slot, the slots whose image fails its check, whether a PLDM firmware update is in progress, the sampled MASTER_SEL
strap, MODULE_CFG of the boot record, and the values that the flash holds, by register key. -/
structure Boot where
  running : Bool := false
  since : Nat := 0
  phaseAt : Nat := 0
  groups : Nat := 9
  lost : List Nat := []
  active : Nat := 0
  badSlots : List Nat := []
  update : Bool := false
  strap : Bool := false
  record : Word := 0
  flash : Map Word := []
  deriving DecidableEq, Repr

/-- Why a step stops with a fault. -/
inductive Fault where
  /-- Raised by no command of this model: every fault of the spec is an effect on the state. Safe. -/
  | none
  deriving DecidableEq, Repr

/-- Why a command has no meaning in the model. -/
inductive Refusal where
  /-- Raised by an arm of `exec` whose command has no meaning yet. Safe. -/
  | notModelled (mnemonic : String)
  deriving DecidableEq, Repr

/-- The state of the module. -/
structure State where
  /-- Commands that wait, first in, first out. -/
  pending : List Instr := []
  /-- The model's own counter of free values met so far (assumption log, row 1). -/
  freeCtr : Nat := 0
  /-- Values of page registers that differ from their reset value, by page × 512 + offset ÷ 8 (R605). -/
  regs : Map Word := []
  /-- Registers with reset-X fields that have been written or loaded (R4). -/
  written : List Nat := []
  /-- The bytes of GDDR, local stores, cellar and host memory, by physical address; a byte that a cache or an agent holds newer
  stands here with its newer value (R269, R335, R622 to R624, Table 21-12). -/
  mem : Memory := []
  /-- Pages whose block has no power (R613). -/
  unpowered : List Nat := []
  /-- PANEL_TIME at which an event of limited rate was last posted, by key (R318, R433, R560, R565). -/
  lastPost : Map Nat := []
  /-- Next SEQ of each event source, by page (R556). -/
  evSeq : Map Nat := []
  /-- Events posted by their sources and not yet routed, oldest first (R557, R559). -/
  events : List GenEvent := []
  /-- Cores by (stack × 4 + die) × 1,260 + physical core index (R12). -/
  cores : Map Core := []
  /-- Counts below the unit of a counter that counts in units, by register key (the counter tables of the pages). -/
  partial_ : Map Nat := []
  /-- Damaged lines and the status a read of one completes with, by address ÷ 128 (R293, R294, R306). -/
  bad : Map Nat := []
  /-- Hub translation copies (R351). -/
  tlb : List TlbEntry := []
  /-- Page requests that wait for a response (R353). -/
  pageReqs : List PageReq := []
  /-- IOMMU fault records, oldest first (R350, R353). -/
  iommuFaults : List IommuFault := []
  /-- Messages in flight between units of the module (R335, R336, R366). -/
  net : List Msg := []
  /-- Messages sent out of the module, newest first: what the host, the fabric and the bays see (log row 56). -/
  out : List Msg := []
  /-- Pending interrupt identities of the IMSIC files, by (address - window base) ÷ 0x1000 (R530). -/
  imsic : Map (List Nat) := []
  /-- Host functions (R420). -/
  hostFns : Map HostFn := []
  /-- NumVFs while VF Enable is set, else zero (R420). -/
  numVfs : Nat := 0
  /-- Regulators, by page × 1024 + point × 64 + partition (R297). -/
  buckets : Map Bucket := []
  /-- Valid hub-cache lines of all hubs (R270, R278). -/
  cache : List CacheLine := []
  /-- Stamp of the last cache use, for recency (R272). -/
  useCtr : Nat := 0
  /-- Stream prefetchers, by hub (R282). -/
  prefetch : Map Prefetch := []
  /-- Accesses that wait at the near-caches, oldest first (R278). -/
  nearReqs : List NearReq := []
  /-- States of the lines that caching agents hold, by agent × 2^45 + line (Table 11-2). -/
  agents : Map LineState := []
  /-- Directory entries, by line (R338). -/
  dir : Map DirEntry := []
  /-- Running transactions, by line (R339). -/
  txns : Map DirTxn := []
  /-- Requests that wait in the directory slices, in order of arrival (R338, R339). -/
  dirQueue : List Msg := []
  /-- Outstanding invalidations, oldest first (R354). -/
  invals : List Inval := []
  /-- The host port's address translation cache, oldest first (R356). -/
  atc : List AtcEntry := []
  /-- Host translations in progress (R357). -/
  atsReqs : List AtsReq := []
  /-- TLB entries of the server cores (R529). -/
  srvTlb : List SrvTlb := []
  /-- Sending channels, by destination module × 8 + virtual channel, and × 32 + port for group traffic (R461). -/
  txChans : Map TxChan := []
  /-- CHSEQ expected on each receiving channel, by source module × 8 + virtual channel (R462). -/
  rxChans : Map Nat := []
  /-- Active collectives, by the key of their command (R411). -/
  colls : Map Coll := []
  /-- Highest COLL_SEQ armed, by physical stack × 4,096 + job tag (R478). -/
  collHigh : Map Nat := []
  /-- Completed collectives within the window of R245, newest first, as COLL_SEQ, status and NF_TOTAL, by physical
  stack × 4,096 + job tag (R244). -/
  collDone : Map (List (Nat × Nat × Nat)) := []
  /-- Notes for collectives not yet armed, oldest first, at most 64 an engine (R479, R482). -/
  collNotes : List KeptNote := []
  /-- Packets between the collective engines of this module, oldest first (R475). -/
  collLocal : List Packet := []
  /-- Link layers of the fabric ports (R449). -/
  fabPorts : Map FabPort := []
  /-- Time keeping (R548). -/
  time : TimeSync := {}
  /-- PANEL_TIME of the last divisor step of a compute die, by stack × 4 + die (R536). -/
  divAt : Map Nat := []
  /-- GDDR controllers, by stack × 8 + device (R287). -/
  gddr : Map GddrDev := []
  /-- Formation of the host group (R467). -/
  group : GroupForm := {}
  /-- Window-table entries that the host port caches, by partition × 64 + slot (R432). -/
  winCache : Map WinEntry := []
  /-- Window writes discarded since the last flush, as first status and count, by partition × 64 + slot (R434). -/
  winDrops : Map (Nat × Nat) := []
  /-- Flushes that wait for their member, by partition × 64 + slot (R434). -/
  winFlush : List Nat := []
  /-- Causes of ceilings, by class × 65,536 + sensor; class 10 is the lost feed (Table 18-3, R546). -/
  causes : Map Cause := []
  /-- Last reading of each sensor, by class × 65,536 + sensor (R541). -/
  sensors : Map Nat := []
  /-- Clamps that hold, by page × 4 + loop (R544). -/
  clamps : List Nat := []
  /-- Latest epoch that a requester's page has had from a unit's page, by requester × 65,536 + unit (R568). -/
  kept : Map Nat := []
  /-- Status and data of the answer that the last request got. -/
  reply : Nat × List Byte := (0, [])
  /-- Bays (chapter 10). -/
  bays : Map Bay := []
  /-- Pages in migration, oldest first (R315). -/
  migs : List Mig := []
  /-- Promotion records, oldest first, and the next place of each engine's ring (R321). -/
  promos : List Promo := []
  promoNext : Map Nat := []
  /-- Hotness counts, by hub × 2^45 + frame (R321). -/
  hot : Map Nat := []
  /-- Fetched commands that have not completed, by queue × 2^32 + sequence number (R399, R400). -/
  cmds : Map Cmd := []
  /-- Queues (R396). -/
  queues : Map QState := []
  /-- Tasks, by the key of their KERNEL command (R402, R412). -/
  tasks : Map Task := []
  /-- Armed BLEND commands, in order of arrival (R242). -/
  blends : List BlendOp := []
  /-- Rounds being staged or staged (R225, R226). -/
  stages : List Stage := []
  /-- The trellis and the arbiters (chapter 12). -/
  trellis : Trellis := {}
  /-- Event queues (R561, R562). -/
  evq : Map EvQueue := []
  /-- PANEL_TIME of the last access of a page by the holder of its lock, by page (R614). -/
  lockAt : Map Nat := []
  /-- PANEL_TIME at which a page entered QUIESCING (R567). -/
  quiesceAt : Map Nat := []
  /-- Server cores (R521 to R533). -/
  srv : Map SrvCore := []
  /-- Streams of the decanters, by decanter × 16 + stream (R489, R490). -/
  decs : Map DecStream := []
  /-- Start-up (R582 to R589). -/
  boot : Boot := {}
  /-- Bindings that wait for their routing rebuild, oldest first, as logical and physical stack (R577). -/
  binds : List (Nat × Nat) := []
  /-- PANEL_TIME of STACK_FAILED, by physical stack (R579). -/
  lostAt : Map Nat := []
  /-- Requests that waited at the home of a stack that has failed, with the stack (R579). -/
  lostReqs : List (Nat × Msg) := []
  /-- A DIE_FAILED or STACK_FAILED has been posted since CAP_DECLARED was last updated (R581). -/
  capStale : Bool := false
  deriving DecidableEq, Repr

/-- The module right after reset. -/
def State.reset : State := {}

end Sys2Proof.Machine
end

