-- ==== Sys2Proof/Machine/Ops.lean ====
section
/-!
DEFINITION. The operations every family shares: the page map and the register file (chapter 21), the byte
memory and the physical address map (R622), free values, event generation (R553 to R560), counters, page
states, and access to the cores.
-/
namespace Sys2Proof.Machine

/-- The outcome type of every meaning. -/
abbrev Out := Host.Outcome State Fault Refusal

/-! ### Page map -/

namespace Page
/-- DEVICE (Table 21-1). -/
abbrev device : Nat := 0
/-- PMC (Table 21-1). -/
abbrev pmc : Nat := 1
/-- THERMAL (Table 21-1). -/
abbrev thermal : Nat := 2
/-- CLOCK (Table 21-1). -/
abbrev clock : Nat := 3
/-- SERVICE_PANEL (Table 21-1). -/
abbrev servicePanel : Nat := 4
/-- EVENT_QUEUE page 0x0020 + k (Table 21-1). -/
abbrev eventQueue (k : Nat) : Nat := 0x20 + k
/-- SERVER_DIE of Vn (Table 21-1). -/
abbrev serverDie (n : Nat) : Nat := 0x100 + 0x40 * n
/-- IOMMU (Table 21-1). -/
abbrev iommu : Nat := 0x101
/-- INTERRUPT (Table 21-1). -/
abbrev interrupt : Nat := 0x103
/-- PORT_DIE Pn (Table 21-1). -/
abbrev portDie (n : Nat) : Nat := 0x200 + 0x40 * n
/-- FABRIC_PORT Ff (Table 21-1). -/
abbrev fabricPort (f : Nat) : Nat := 0x201 + 0x40 * (f / 8) + f % 8
/-- CELLAR_BAY Bb (Table 21-1). -/
abbrev bay (b : Nat) : Nat := 0x300 + 0x10 * b
/-- HOST_PORT (Table 21-1). -/
abbrev hostPort : Nat := 0x400
/-- QUEUE_BLOCK of queue q (Table 21-1). -/
abbrev queueBlock (q : Nat) : Nat := 0x410 + q / 32
/-- DECANTER Dn (Table 21-1). -/
abbrev decanter (n : Nat) : Nat := 0x500 + 0x40 * n
/-- Hub page p of physical stack s (Table 21-2). -/
abbrev hub (s p : Nat) : Nat := 0x1000 + 0x40 * s + p
/-- HUB_ROUTER. -/
abbrev router (s : Nat) : Nat := hub s 0
/-- HUB_CACHE. -/
abbrev cache (s : Nat) : Nat := hub s 1
/-- DIRECTORY. -/
abbrev directory (s : Nat) : Nat := hub s 2
/-- GDDR_CTL of Gg. -/
abbrev gddr (s g : Nat) : Nat := hub s (3 + g)
/-- REGULATOR. -/
abbrev regulator (s : Nat) : Nat := hub s 9
/-- SCHEDULER. -/
abbrev scheduler (s : Nat) : Nat := hub s 10
/-- MOVER. -/
abbrev mover (s : Nat) : Nat := hub s 11
/-- COLLECTIVE. -/
abbrev collective (s : Nat) : Nat := hub s 12
/-- BLEND. -/
abbrev blend (s : Nat) : Nat := hub s 13
/-- RACKING. -/
abbrev racking (s : Nat) : Nat := hub s 14
/-- HUB_TLB. -/
abbrev hubTlb (s : Nat) : Nat := hub s 15
/-- HUB_CTRL_CORES. -/
abbrev hubCtrl (s : Nat) : Nat := hub s 16
/-- COMPUTE_DIE of Cd. -/
abbrev computeDie (s d : Nat) : Nat := hub s (17 + d)
/-- CORE_WINDOW. -/
abbrev coreWindow (s : Nat) : Nat := hub s 21
end Page

/-- The kind of hub page p (Table 21-2). -/
def hubPageKind (p : Nat) : Option PageKind :=
  if p = 0 then some .hubRouter
  else if p = 1 then some .hubCache
  else if p = 2 then some .directory
  else if p < 9 then some .gddrCtl
  else if p = 9 then some .regulator
  else if p = 10 then some .scheduler
  else if p = 11 then some .mover
  else if p = 12 then some .collective
  else if p = 13 then some .blend
  else if p = 14 then some .racking
  else if p = 15 then some .hubTlb
  else if p = 16 then some .hubCtrlCores
  else if p < 21 then some .computeDie
  else if p = 21 then some .coreWindow
  else none

/-- The kind of a page; none for a reserved index (Table 21-1, R605). -/
def pageKind (i : Nat) : Option PageKind :=
  if i < 5 then [PageKind.device, .pmc, .thermal, .clock, .servicePanel][i]?
  else if 0x20 ≤ i ∧ i < 0x30 then some .eventQueue
  else if 0x100 ≤ i ∧ i < 0x200 then
    if (i - 0x100) % 0x40 = 0 then some .serverDie
    else if i = 0x101 then some .iommu
    else if i = 0x102 then some .iommuFile
    else if i = 0x103 then some .interrupt
    else none
  else if 0x200 ≤ i ∧ i < 0x300 then
    if (i - 0x200) % 0x40 = 0 then some .portDie
    else if (i - 0x200) % 0x40 < 9 then some .fabricPort
    else none
  else if 0x300 ≤ i ∧ i < 0x400 then if i % 0x10 = 0 then some .cellarBay else none
  else if i = 0x400 then some .hostPort
  else if 0x410 ≤ i ∧ i < 0x430 then some .queueBlock
  else if 0x500 ≤ i ∧ i < 0x600 then if (i - 0x500) % 0x40 = 0 then some .decanter else none
  else if 0x1000 ≤ i ∧ i < 0x1000 + 0x40 * 72 then hubPageKind ((i - 0x1000) % 0x40)
  else none

/-- The physical stack of a hub page, if the page is one (Table 21-1). -/
def pageStack (i : Nat) : Option Nat :=
  if 0x1000 ≤ i ∧ i < 0x1000 + 0x40 * 72 then some ((i - 0x1000) / 0x40) else none

/-- Block type code of a page kind (Tables 21-1 and 21-2). -/
def blockType : PageKind → Nat
  | .device => 0x0001
  | .pmc => 0x0080
  | .thermal => 0x0081
  | .clock => 0x0082
  | .servicePanel => 0x0090
  | .eventQueue => 0x00A0
  | .serverDie => 0x0030
  | .iommu => 0x0031
  | .iommuFile => 0x0031
  | .interrupt => 0x0032
  | .portDie => 0x0051
  | .fabricPort => 0x0050
  | .cellarBay => 0x0060
  | .hostPort => 0x0040
  | .queueBlock => 0x0041
  | .decanter => 0x0070
  | .hubRouter => 0x0010
  | .hubCache => 0x0011
  | .directory => 0x0012
  | .gddrCtl => 0x0013
  | .regulator => 0x0014
  | .scheduler => 0x0015
  | .mover => 0x0016
  | .collective => 0x0017
  | .blend => 0x0018
  | .racking => 0x0019
  | .hubTlb => 0x001A
  | .hubCtrlCores => 0x001B
  | .computeDie => 0x0020
  | .coreWindow => 0x0021

/-- The instance that PAGE_ID.INSTANCE of a page returns (Tables 21-1 and 21-2, R605). -/
def pageInstance (i : Nat) : Nat :=
  match pageKind i with
  | some .eventQueue => i - 0x20
  | some .serverDie => (i - 0x100) / 0x40
  | some .portDie => (i - 0x200) / 0x40
  | some .fabricPort => 8 * ((i - 0x200) / 0x40) + ((i - 0x200) % 0x40 - 1)
  | some .cellarBay => (i - 0x300) / 0x10
  | some .queueBlock => i - 0x410
  | some .decanter => (i - 0x500) / 0x40
  | some .gddrCtl => (i - 0x1000) / 0x40 * 256 + ((i - 0x1000) % 0x40 - 3)
  | some .computeDie => (i - 0x1000) / 0x40 * 256 + ((i - 0x1000) % 0x40 - 17)
  | some _ => if 0x1000 ≤ i then (i - 0x1000) / 0x40 * 256 else 0
  | none => 0

/-! ### Register reset values -/

/-- The number of the register of a specification that lies at an offset, if one does. -/
def RegSpec.indexAt (r : RegSpec) (off : Nat) : Option Nat :=
  (List.range r.count).find? fun i => r.base + r.stride * i = off

/-- The register specification at an 8 B offset of a page kind (R606, R619). -/
def findReg (k : PageKind) (off : Nat) : Option RegSpec :=
  let hdr := if k = .iommuFile then none else headerRegs.find? fun r => (r.indexAt off).isSome
  match hdr with
  | some r => some r
  | none => (blockRegs k).find? fun r => (r.indexAt off).isSome

/-- Places the reset values of all fields. -/
def resetOfFields (fs : List FieldSpec) : Word :=
  fs.foldl (fun v f => v ||| place f.hi f.lo f.reset) 0

/-- VER_SUPPORT of a page kind (Table 21-10, R625). -/
def verSupport (k : PageKind) : Word :=
  if k = .hostPort then 0x0002000811000300 else 0x0002000011001100

/-- VER_ACTIVE of a page kind at reset (Table 21-10, R625). -/
def verActiveReset (k : PageKind) : Word :=
  match k with
  | .hostPort => 0
  | .fabricPort => 0
  | .cellarBay => 0
  | _ => 0x1100

/-- THR_c at reset: WARN, TRIP, WARN_MIN and WARN_MAX of Table 18-3 (R541, R551). -/
def thrReset (c : Nat) : Word :=
  let wt := [(95, 110), (95, 110), (95, 105), (90, 105), (75, 85), (70, 85), (35, 45), (55, 65)].getD c (0, 0)
  place 39 32 wt.1 ||| place 31 24 wt.2 ||| place 23 16 (wt.1 - 30) ||| place 7 0 wt.1

/-- STACK_STATEi at reset: stacks 0 to 63 READY, the eight spares SPARED (R19, R102; log row 2). -/
def stackStateReset (i : Nat) : Word :=
  BitVec.ofNat 64 (packElems 8 ((List.range 8).map fun j => if 8 * i + j < 64 then 3 else 7))

/-- The value a register holds when its unit leaves RESET (R3). FUSE values are those of log row 2. -/
def resetValue (page off : Nat) : Word :=
  match pageKind page with
  | none => 0
  | some k =>
    match findReg k off with
    | none => 0
    | some r =>
      let i := (r.indexAt off).getD 0
      if r.base = Reg.PAGE_ID ∧ k ≠ .iommuFile then
        place 39 32 0x11 ||| place 31 16 (pageInstance page) ||| place 15 0 (blockType k)
      else if r.base = Reg.PAGE_CAP then
        place 12 8 16 ||| place 3 3 (if k = .hubCtrlCores then 1 else 0) ||| place 2 0 7
      else if r.base = Reg.VER_SUPPORT then verSupport k
      else if r.base = Reg.VER_ACTIVE then verActiveReset k
      else match k with
        | .computeDie =>
          if off < 0x1F0 ∧ 0x100 ≤ off then place 13 8 41 ||| place 5 0 40 else resetOfFields r.fields
        | .cellarBay => if off = Reg.PAGE_STATE then 0 else resetOfFields r.fields
        | .thermal => if 0x100 ≤ off then thrReset i else resetOfFields r.fields
        | .device =>
          if 0x140 ≤ off ∧ off < 0x188 then stackStateReset i
          else if 0x200 ≤ off ∧ off < 0x400 then place 7 7 1 ||| place 6 0 i
          else resetOfFields r.fields
        | _ => resetOfFields r.fields

/-! ### The register file -/

/-- Key of a register in the register file. -/
def regKey (page off : Nat) : Nat := page * 512 + off / 8

/-- The value a register holds. -/
def State.reg (s : State) (page off : Nat) : Word :=
  match s.regs.find (regKey page off) with
  | some v => v
  | none => resetValue page off

/-- Loads a register, as hardware does. -/
def State.setReg (s : State) (page off : Nat) (v : Word) : State :=
  { s with regs := s.regs.set (regKey page off) v }

/-- Field [hi:lo] of a register. -/
def State.fld (s : State) (page off hi lo : Nat) : Nat := bits (s.reg page off) hi lo

/-- Loads field [hi:lo] of a register. -/
def State.setFld (s : State) (page off hi lo n : Nat) : State :=
  s.setReg page off (setBits (s.reg page off) hi lo n)

/-- Marks a register's X fields as written or loaded (R4). -/
def State.markWritten (s : State) (page off : Nat) : State :=
  { s with written := setInsert s.written (regKey page off) }

/-- Whether a register's X fields have been written or loaded (R4). -/
def State.isWritten (s : State) (page off : Nat) : Bool := s.written.contains (regKey page off)

/-- An address register: none while its X field is unwritten (R4). -/
def State.addrReg (s : State) (page off : Nat) : Option Nat :=
  if s.isWritten page off then some (s.reg page off).toNat else none

/-- Increases counter i of a page, modulo 2^64 (Table 21-5). -/
def State.bump (s : State) (page i : Nat) (by_ : Nat := 1) : State :=
  s.setReg page (Reg.CNT + 8 * i) (s.reg page (Reg.CNT + 8 * i) + BitVec.ofNat 64 by_)

/-! ### Page states -/

namespace PS
/-- OFF (Table 21-6). -/
abbrev off : Nat := 0
/-- RESET. -/
abbrev reset : Nat := 1
/-- INIT. -/
abbrev init : Nat := 2
/-- READY. -/
abbrev ready : Nat := 3
/-- QUIESCING. -/
abbrev quiescing : Nat := 4
/-- QUIESCED. -/
abbrev quiesced : Nat := 5
/-- FAULTED. -/
abbrev faulted : Nat := 6
/-- SPARED. -/
abbrev spared : Nat := 7
/-- MEMORY_ONLY. -/
abbrev memoryOnly : Nat := 8
/-- UPDATING. -/
abbrev updating : Nat := 9
end PS

/-- PAGE_STATE.STATE (Table 21-6). -/
def State.pageState (s : State) (page : Nat) : Nat := s.fld page Reg.PAGE_STATE 3 0

/-- PAGE_STATE.EPOCH. -/
def State.epoch (s : State) (page : Nat) : Nat := s.fld page Reg.PAGE_STATE 47 32

/-- Loads PAGE_STATE.STATE; every entry into READY increments EPOCH modulo 2^16 (R566), which HOST_STAT mirrors for the
host port (R440). -/
def State.enterState (s : State) (page st : Nat) : State :=
  let s := if st = PS.ready ∧ s.pageState page ≠ PS.ready
    then
      let e := (s.epoch page + 1) % 65536
      let s := s.setFld page Reg.PAGE_STATE 47 32 e
      if page = Page.hostPort then s.setFld page Reg.HOST_STAT 47 32 e else s
    else s
  s.setFld page Reg.PAGE_STATE 3 0 st

/-- Sets PAGE_STATE.LAST_STATUS. -/
def State.lastStatus (s : State) (page st : Nat) : State := s.setFld page Reg.PAGE_STATE 31 24 st

/-- Whether a page is READY. -/
def State.ready (s : State) (page : Nat) : Bool := s.pageState page = PS.ready

/-! ### Status codes of Table 19-6 (R563) -/

namespace St
/-- OK. -/
abbrev ok : Nat := 0x00
/-- OK_DELAYED. -/
abbrev okDelayed : Nat := 0x01
/-- REFUSED_FULL. -/
abbrev refusedFull : Nat := 0x10
/-- REFUSED_BUDGET. -/
abbrev refusedBudget : Nat := 0x11
/-- REFUSED_PORT. -/
abbrev refusedPort : Nat := 0x12
/-- UNIT_UNAVAILABLE. -/
abbrev unitUnavailable : Nat := 0x20
/-- EPOCH_STALE. -/
abbrev epochStale : Nat := 0x21
/-- TRANSLATION_FAULT. -/
abbrev translationFault : Nat := 0x30
/-- PERMISSION_FAULT. -/
abbrev permissionFault : Nat := 0x31
/-- UNSUPPORTED_LEAF. -/
abbrev unsupportedLeaf : Nat := 0x32
/-- DATA_UNCORRECTABLE. -/
abbrev dataUncorrectable : Nat := 0x40
/-- DATA_LOST. -/
abbrev dataLost : Nat := 0x41
/-- POISONED. -/
abbrev poisoned : Nat := 0x42
/-- HOST_LOST. -/
abbrev hostLost : Nat := 0x50
/-- HOST_PARTIAL. -/
abbrev hostPartial : Nat := 0x51
/-- TIMEOUT. -/
abbrev timeout : Nat := 0x60
/-- LOCAL_MEMORY_LOST. -/
abbrev localMemoryLost : Nat := 0x61
/-- NONFINITE_SKIPPED. -/
abbrev nonfiniteSkipped : Nat := 0x70
/-- VERSION_MISMATCH. -/
abbrev versionMismatch : Nat := 0x80
/-- INPUT_CORRUPT. -/
abbrev inputCorrupt : Nat := 0x90
/-- INTERNAL. -/
abbrev internal : Nat := 0xF0
end St

/-! ### Free values -/

/-- The next free value, and the state in which it has been met (assumption log, row 1). -/
def State.free (s : State) : Word × State :=
  (Config.freeValue s.freeCtr, { s with freeCtr := s.freeCtr + 1 })

/-! ### Events -/

/-- Codes of each class and severity of Table 19-2, INFO (0, 0) excepted (R555). -/
def eventClassTable : List (Nat × Nat × List Nat) := [
  (1, 1, [0x0230, 0x0280, 0x0290, 0x02B6]),
  (2, 2, [0x0251, 0x0291, 0x02B0, 0x02B3]),
  (3, 3, [0x0250, 0x0260, 0x02D0, 0x02D3, 0x02D4]),
  (4, 4, [0x0110, 0x0111, 0x0113, 0x0264, 0x0265, 0x0266]),
  (5, 5, [0x0253, 0x02E0]),
  (6, 6, [0x0112, 0x0252, 0x0261, 0x0262, 0x02A0, 0x02B4]),
  (6, 7, [0x0114, 0x02D2]),
  (7, 2, [0x0220, 0x0240, 0x0242, 0x02F3, 0x02F4]),
  (7, 4, [0x0101, 0x0231, 0x0241, 0x02A2, 0x02A3, 0x02B2, 0x02B5, 0x02C0]),
  (8, 3, [0x0103, 0x0104, 0x0270, 0x0271, 0x0272, 0x0292, 0x02B8, 0x02B9])]

/-- Class and severity of an event code (Table 19-2, R555); the software range is class 9. -/
def eventClass (code : Nat) : Nat × Nat :=
  if 0x8000 ≤ code then (9, 0)
  else match eventClassTable.find? fun r => r.2.2.contains code with
    | some r => (r.1, r.2.1)
    | none => (0, 0)

/-- Generates an event of a given class and severity: sets EV_STATUS, and posts it with the source's next
SEQ unless `forced` is false and EV_ENABLE disables its class (R555, R556, R559). -/
def State.genEventAs (s : State) (page code cls sev part : Nat) (payload : Word) (forced : Bool) : State :=
  let s := s.setReg page Reg.EV_STATUS (setBit (s.reg page Reg.EV_STATUS) cls true)
  if forced || bit (s.reg page Reg.EV_ENABLE) cls then
    let q := s.evSeq.get 0 page
    { s with
      evSeq := s.evSeq.set page ((q + 1) % 2 ^ 32)
      events := s.events ++ [⟨page, q, code, cls, sev, part, payload, s.epoch page,
        (s.reg Page.clock Reg.PANEL_TIME).toNat⟩] }
  else s

/-- Generates an event of a code with its class and severity of Table 19-2. -/
def State.genEvent (s : State) (page code part : Nat) (payload : Word) : State :=
  let c := eventClass code
  s.genEventAs page code c.1 c.2 part payload false

/-! ### Memory -/

/-- The byte at a physical address; an unlisted address reads zero (log row 4). -/
def Memory.read : Memory → Nat → Byte
  | [], _ => 0
  | (k, v) :: t, a => if k = a then v else Memory.read t a

/-- Writes one byte, keeping the canonical form: rising addresses and no zero entry. -/
def Memory.write : Memory → Nat → Byte → Memory
  | [], a, b => if b = 0 then [] else [(a, b)]
  | (k, v) :: t, a, b =>
    if a < k then (if b = 0 then (k, v) :: t else (a, b) :: (k, v) :: t)
    else if a = k then (if b = 0 then t else (a, b) :: t)
    else (k, v) :: Memory.write t a b

/-- The canonical form: strictly rising addresses and no zero entry. -/
def Memory.wf : Memory → Bool
  | [] => true
  | [(_, v)] => v != 0
  | (k, v) :: (k', v') :: t => v != 0 && decide (k < k') && Memory.wf ((k', v') :: t)

/-- Bytes from an address upward. -/
def Memory.readBytes (m : Memory) : Nat → Nat → List Byte
  | _, 0 => []
  | a, n + 1 => m.read a :: Memory.readBytes m (a + 1) n

/-- Writes bytes from an address upward. -/
def Memory.writeBytes : Memory → Nat → List Byte → Memory
  | m, _, [] => m
  | m, a, b :: bs => Memory.writeBytes (m.write a b) (a + 1) bs

/-- The little-endian number of n bytes at an address (R2). -/
def Memory.readNat (m : Memory) (a n : Nat) : Nat := ofLeBytes (m.readBytes a n)

/-- Writes the low n bytes of a number, little-endian (R2). -/
def Memory.writeNat (m : Memory) (a n x : Nat) : Memory := m.writeBytes a (leBytes n x)

/-- Removes every entry of an address range: the range then reads zero. -/
def Memory.clear (m : Memory) (lo hi : Nat) : Memory := m.filter fun c => !(decide (lo ≤ c.1) && decide (c.1 < hi))

/-- Memory of the state with a byte range written. -/
def State.writeBytes (s : State) (a : Nat) (bs : List Byte) : State := { s with mem := s.mem.writeBytes a bs }

/-! ### Stacks, dies and cores -/

/-- Key of a core: stack, die, physical core index (R12). -/
def coreKey (stack die idx : Nat) : Nat := (stack * 4 + die) * 1260 + idx

/-- Number of physical cores of the module. -/
abbrev coreCount : Nat := 72 * 4 * 1260

/-- The physical stack of a core. -/
def coreStack (c : Nat) : Nat := c / 5040

/-- The compute die of a core. -/
def coreDie (c : Nat) : Nat := c / 1260 % 4

/-- The physical core index of a core on its die. -/
def coreIdx (c : Nat) : Nat := c % 1260

/-- The row of a core. -/
def coreRow (c : Nat) : Nat := coreIdx c / 42

/-- The physical column of a core. -/
def corePcol (c : Nat) : Nat := coreIdx c % 42

/-- First physical address of a core's local store (R12, R623). -/
def lsBase (c : Nat) : Nat :=
  0x40000000000 + coreStack c * 0x80000000 + coreDie c * 0x20000000 + coreIdx c * 0x40000

/-- The COMPUTE_DIE page of a core. -/
def corePage (c : Nat) : Nat := Page.computeDie (coreStack c) (coreDie c)

/-- The state of a core. -/
def State.core (s : State) (c : Nat) : Core := s.cores.get {} c

/-- Replaces the state of a core. -/
def State.setCore (s : State) (c : Nat) (k : Core) : State := { s with cores := s.cores.set c k }

/-- Updates the state of a core. -/
def State.modCore (s : State) (c : Nat) (f : Core → Core) : State := s.setCore c (f (s.core c))

/-- The physical column of logical column c of a row whose skips are s0 < s1 (R102). -/
def physCol (c s0 s1 : Nat) : Nat :=
  let p := if s0 ≤ c then c + 1 else c
  if s1 ≤ p then p + 1 else p

/-- SKIP0 and SKIP1 of a row (R103). -/
def State.rowSkips (s : State) (stack die row : Nat) : Nat × Nat :=
  let page := Page.computeDie stack die
  (s.fld page (Reg.ROW_SKIP + 8 * row) 5 0, s.fld page (Reg.ROW_SKIP + 8 * row) 13 8)

/-- The physical core of logical core (r, c) of a die (R102). -/
def State.physCore (s : State) (stack die r c : Nat) : Nat :=
  let k := s.rowSkips stack die r
  coreKey stack die (r * 42 + physCol c k.1 k.2)

/-- The logical column of a core, none on a skip position (R102). -/
def State.logicalCol (s : State) (c : Nat) : Option Nat :=
  let k := s.rowSkips (coreStack c) (coreDie c) (coreRow c)
  (List.range 40).find? fun l => physCol l k.1 k.2 = corePcol c

/-- The neighbour of a core on port 1 N, 2 E, 3 S or 4 W of the same die (R105). -/
def State.neighbour (s : State) (c port : Nat) : Option Nat :=
  match s.logicalCol c with
  | none => none
  | some l =>
    let at_ := fun r l => some (s.physCore (coreStack c) (coreDie c) r l)
    match port with
    | 1 => if coreRow c = 0 then none else at_ (coreRow c - 1) l
    | 2 => if l = 39 then none else at_ (coreRow c) (l + 1)
    | 3 => if coreRow c = 29 then none else at_ (coreRow c + 1) l
    | 4 => if l = 0 then none else at_ (coreRow c) (l - 1)
    | _ => none

/-- The port of the neighbour that faces a port: N with S, E with W (R87). -/
def oppositePort (p : Nat) : Nat :=
  match p with
  | 1 => 3
  | 2 => 4
  | 3 => 1
  | 4 => 2
  | p => p

/-- The physical stack bound to a logical stack, none where it is unbound (R577, Table 19-10). -/
def State.boundStack (s : State) (l : Nat) : Option Nat :=
  if s.fld Page.device (Reg.SPARE_MAP + 8 * l) 7 7 = 1 then some (s.fld Page.device (Reg.SPARE_MAP + 8 * l) 6 0)
  else none

/-- The logical stack bound to a physical stack, if any. -/
def State.logicalStack (s : State) (p : Nat) : Option Nat :=
  (List.range 64).find? fun l => s.boundStack l = some p

/-- STACK_STATE of a physical stack (Table 19-10). -/
def State.stackState (s : State) (p : Nat) : Nat :=
  s.fld Page.device (Reg.STACK_STATE + 8 * (p / 8)) (8 * (p % 8) + 3) (8 * (p % 8))

/-- Loads STACK_STATE of a physical stack. -/
def State.setStackState (s : State) (p st : Nat) : State :=
  s.setFld Page.device (Reg.STACK_STATE + 8 * (p / 8)) (8 * (p % 8) + 3) (8 * (p % 8)) st

/-- PANEL_TIME (R547). -/
def State.panelTime (s : State) : Word := s.reg Page.clock Reg.PANEL_TIME

/-- Whether an event of limited rate may be posted now: once per millisecond for a key. -/
def State.mayPost (s : State) (key : Nat) : Bool :=
  match s.lastPost.find key with
  | none => true
  | some t => decide (t + 1000000 ≤ s.panelTime.toNat)

/-- Posts an event at most once per millisecond for a key. -/
def State.genLimited (s : State) (key page code part : Nat) (payload : Word) : State :=
  if s.mayPost key then
    { s with lastPost := s.lastPost.set key s.panelTime.toNat }.genEvent page code part payload
  else s

/-- MULTI_MATCH: the page's bit, and the event at most once per millisecond for a table (R565). -/
def State.multiMatch (s : State) (page table index n : Nat) : State :=
  let s := s.setFld page Reg.PAGE_STATE 8 8 1
  s.genLimited (page * 64 + table) page 0x0103 0 (place 15 0 index ||| place 31 16 n ||| place 39 32 table)

end Sys2Proof.Machine
end

