-- ==== Sys2Proof/Machine/Translate.lean ====
section
/-!
DEFINITION. Device translation (R349 to R353, R316, R361): device and process contexts, page-table walks at
both stages, accessed and dirty updates, and the translation copies of the hubs. The formats of contexts,
registers and leaves are those of the RISC-V IOMMU and privileged specifications that R349 names (log row 8).
-/
namespace Sys2Proof.Machine

/-- The result of a translation: an address, a failing status, a leaf that is not present (R353), or the
transient leaf of a migration (R316). -/
inductive Trans where
  | ok (pa : Nat)
  | fault (st : Nat)
  | absent
  | wait
  deriving DecidableEq, Repr

/-- What a table walk finds. -/
inductive Walk (α : Type) where
  | found (x : α)
  | fault (st : Nat)
  | absent
  | wait
  deriving DecidableEq, Repr

/-- Continues a walk with what it found. -/
def Walk.bind {α β : Type} (w : Walk α) (f : α → Walk β) : Walk β :=
  match w with
  | .found x => f x
  | .fault st => .fault st
  | .absent => .absent
  | .wait => .wait

/-- A leaf: its entry's physical address and value. -/
structure Leaf where
  addr : Nat
  pte : Word
  deriving DecidableEq, Repr

/-- Frame address of a page-table entry: PPN in [53:10]. -/
def ptePage (pte : Word) : Nat := bits pte 53 10 * 4096

/-- Walks `levels` + 1 levels of tables from `base`; `tr` turns a table address into a physical one. Only a
leaf at the lowest level is accepted (R350). An entry with V = 0 and RSW = 0b11 is the transient leaf (R316). -/
def walkTables (m : Memory) (tr : Nat → Walk Nat) : Nat → Nat → Nat → Walk Leaf
  | levels, base, vpage =>
    (tr (base + 8 * (vpage / 512 ^ levels % 512))).bind fun pa =>
      let pte := BitVec.ofNat 64 (m.readNat pa 8)
      if !bit pte 0 then (if bits pte 9 8 = 3 then .wait else .absent)
      else if bits pte 3 1 ≠ 0 then
        (if levels = 0 then .found ⟨pa, pte⟩ else .fault St.unsupportedLeaf)
      else match levels with
        | 0 => .absent
        | l + 1 => walkTables m tr l (ptePage pte) vpage

/-- Levels of a first-stage or G-stage mode: 8, 9 and 10 name Sv39, Sv48 and Sv57. -/
def modeLevels (mode : Nat) : Option Nat :=
  match mode with
  | 8 => some 2
  | 9 => some 3
  | 10 => some 4
  | _ => none

/-- A device context with its process context: modes and roots of both stages. -/
structure Ctx where
  gMode : Nat
  gRoot : Nat
  fsMode : Nat
  fsRoot : Nat
  deriving DecidableEq, Repr

/-- A G-stage walk; the top level of an x4 mode has 2,048 entries. -/
def gWalk (m : Memory) (gMode gRoot : Nat) (gpa : Nat) : Walk (Option Leaf × Nat) :=
  if gMode = 0 then .found (none, gpa)
  else match modeLevels gMode with
    | none => .fault St.translationFault
    | some l =>
      let vpage := gpa / 4096
      let top := vpage / 512 ^ l % 2048
      let pa := gRoot + 8 * top
      let pte := BitVec.ofNat 64 (m.readNat pa 8)
      if !bit pte 0 then (if bits pte 9 8 = 3 then .wait else .absent)
      else if bits pte 3 1 ≠ 0 then .fault St.unsupportedLeaf
      else (walkTables m (fun a => .found a) (l - 1) (ptePage pte) vpage).bind fun lf =>
        .found (some lf, ptePage lf.pte + gpa % 4096)

/-- The device context of a partition and the process context of a PASID (R349, Table 11-8). -/
def State.context (s : State) (dev pasid : Nat) : Walk Ctx :=
  let ddtp := s.reg 0x102 0x10
  let word := fun a => BitVec.ofNat 64 (s.mem.readNat a 8)
  let next := fun (e : Word) => if bit e 0 then Walk.found (ptePage e) else .fault St.translationFault
  if bits ddtp 3 0 = 1 then .found ⟨0, 0, 0, 0⟩
  else if bits ddtp 3 0 ≠ 4 then .fault St.translationFault
  else
    (next (word (ptePage ddtp))).bind fun l1 =>
    (next (word l1)).bind fun l0 =>
    let dc := l0 + 64 * dev
    let tc := word dc
    let iohgatp := word (dc + 8)
    let fsc := word (dc + 24)
    if !bit tc 0 then .fault St.translationFault
    else
      let gMode := bits iohgatp 63 60
      let gRoot := bits iohgatp 43 0 * 4096
      let host := fun a => (gWalk s.mem gMode gRoot a).bind fun r => .found r.2
      if !bit tc 5 then .found ⟨gMode, gRoot, bits fsc 63 60, bits fsc 43 0 * 4096⟩
      else
        let pdMode := bits fsc 63 60
        let pdRoot := bits fsc 43 0 * 4096
        let step := fun (base idx : Nat) => (host (base + 8 * idx)).bind fun pa => next (word pa)
        let leafTable := if pdMode = 3 then
            (step pdRoot (pasid / 2 ^ 17)).bind fun b => step b (pasid / 256 % 512)
          else if pdMode = 2 then step pdRoot (pasid / 256)
          else if pdMode = 1 then .found pdRoot
          else .fault St.translationFault
        leafTable.bind fun b => (host (b + 16 * (pasid % 256))).bind fun pa =>
          if !bit (word pa) 0 then .fault St.translationFault
          else
            let pfsc := word (pa + 8)
            .found ⟨gMode, gRoot, bits pfsc 63 60, bits pfsc 43 0 * 4096⟩

/-- Both stages of a walk: the leaves met and the physical address (R349, R350). -/
def State.walk (s : State) (dev pasid va : Nat) : Walk (List Leaf × Nat) :=
  (s.context dev pasid).bind fun c =>
    let host := fun a => (gWalk s.mem c.gMode c.gRoot a).bind fun r => .found r.2
    let gpa : Walk (List Leaf × Nat) :=
      if c.fsMode = 0 then .found ([], va)
      else match modeLevels c.fsMode with
        | none => .fault St.translationFault
        | some l =>
          let top := va / 2 ^ (12 + 9 * (l + 1) - 1)
          let all := 2 ^ (64 - (12 + 9 * (l + 1) - 1)) - 1
          if top ≠ 0 ∧ top ≠ all then .absent
          else (walkTables s.mem host l c.fsRoot (va / 4096)).bind fun lf =>
            .found ([lf], ptePage lf.pte + va % 4096)
    gpa.bind fun p => (gWalk s.mem c.gMode c.gRoot p.2).bind fun r =>
      .found (p.1 ++ r.1.toList, r.2 % 2 ^ 56)

/-- Whether a set of leaves permits a read or a write: R in bit 1, W in bit 2. -/
def leavesPermit (ls : List Leaf) (write : Bool) : Bool := ls.all fun l => bit l.pte (if write then 2 else 1)

/-- The accessed bit, and for a write the dirty bit, set in the leaves (R352). -/
def setAccessed (m : Memory) (ls : List Leaf) (write : Bool) : Memory :=
  ls.foldl (fun m l =>
    let v := BitVec.ofNat 64 (m.readNat l.addr 8)
    m.writeNat l.addr 8 (setBit (setBit v 6 true) 7 (write || bit v 7)).toNat) m

/-- Counter i of a page that counts in units of 1,024, increased by n. -/
def State.bumpUnits (s : State) (page i n unit : Nat) : State :=
  let key := regKey page (Reg.CNT + 8 * i)
  let t := s.partial_.get 0 key + n
  { s with partial_ := s.partial_.set key (t % unit) }.bump page i (t / unit)

/-- Records a fault in the IOMMU fault queue (R350, R353). -/
def State.recordFault (s : State) (dev pasid va st : Nat) : State :=
  { s with iommuFaults := s.iommuFaults ++ [⟨dev, pasid, va, st⟩] }

/-- The panel IOMMU answers a demand translation: it walks, records faults, and sets accessed and dirty bits
(R350 to R353). The flag says that writes may proceed through the answer. -/
def State.iommu (s : State) (dev pasid va : Nat) (write : Bool) : Trans × Bool × State :=
  match s.walk dev pasid va with
  | .fault st => (.fault st, false, s.recordFault dev pasid va st)
  | .absent => (.absent, false, s)
  | .wait => (.wait, false, s)
  | .found (ls, pa) =>
    if leavesPermit ls write then
      let w := leavesPermit ls true && (write || ls.all fun l => bit l.pte 7)
      (.ok pa, w, { s with mem := setAccessed s.mem ls write })
    else (.fault St.permissionFault, false, s.recordFault dev pasid va St.permissionFault)

/-- The entry of a hub's copy for a page (R351). -/
def State.tlbFind (s : State) (stack dev pasid vpage : Nat) : Option TlbEntry :=
  s.tlb.find? fun e => decide (e.stack = stack ∧ e.dev = dev ∧ e.pasid = pasid ∧ e.vpage = vpage)

/-- TLB_STAT.VALID of a hub, from its copy (Table 11-14). -/
def State.tlbCount (s : State) (stack : Nat) : State :=
  s.setFld (Page.hubTlb stack) 0x108 18 0 (s.tlb.filter fun e => decide (e.stack = stack)).length

/-- Removes the entries of a hub's copy that satisfy p (R354). -/
def State.tlbDrop (s : State) (stack : Nat) (p : TlbEntry → Bool) : State :=
  { s with tlb := s.tlb.filter fun e => !(decide (e.stack = stack) && p e) }.tlbCount stack

/-- Installs what the IOMMU returned in a hub's copy; a full copy gives up its oldest entry (R351). A page
that is not READY holds no entries. -/
def State.tlbFill (s : State) (e : TlbEntry) : State :=
  if s.ready (Page.hubTlb e.stack) then
    let rest := s.tlb.filter fun x => !decide (x.stack = e.stack ∧ x.dev = e.dev ∧ x.pasid = e.pasid ∧ x.vpage = e.vpage)
    let mine := (rest.filter fun x => decide (x.stack = e.stack)).length
    let rest := if 262144 ≤ mine then
        (match rest.findIdx? fun x => decide (x.stack = e.stack) with
          | some i => rest.eraseIdx i
          | none => rest)
      else rest
    { s with tlb := rest ++ [e] }.tlbCount e.stack
  else s

/-- A demand translation through the device copy of a hub, or at the IOMMU itself where the requester has
no hub (R351, R352). -/
def State.translate (s : State) (stack : Option Nat) (dev pasid va : Nat) (write : Bool) : Trans × State :=
  match stack with
  | none =>
    let r := s.iommu dev pasid va write
    (r.1, r.2.2)
  | some h =>
    let page := Page.hubTlb h
    let ask := fun (s : State) =>
      let r := s.iommu dev pasid va write
      match r.1 with
      | .ok pa => (Trans.ok pa, r.2.2.tlbFill ⟨h, dev, pasid, va / 4096, pa / 4096, r.2.1, false⟩)
      | .fault st => (.fault st, if st = St.unsupportedLeaf then r.2.2.bump page 7 else r.2.2)
      | t => (t, r.2.2)
    match s.tlbFind h dev pasid (va / 4096) with
    | some e =>
      let s := s.bumpUnits page 0 1 1024
      if e.aPending then
        let s := (s.bump page 3).bump page 6
        ask s
      else if write ∧ !e.write then ask (s.bump page 6)
      else (.ok (e.ppage * 4096 + va % 4096), s)
    | none => ask (s.bump page 1)

/-- A translation that only reads tables: no page request and no accessed or dirty bit (R403, R361). -/
def State.peekTranslate (s : State) (dev pasid va : Nat) (write : Bool) : Option Nat :=
  match s.walk dev pasid va with
  | .found (ls, pa) => if leavesPermit ls write then some pa else none
  | _ => none

end Sys2Proof.Machine
end

