-- ==== Sys2Proof/Machine/Buckets.lean ====
section
/-!
DEFINITION. Bandwidth regulators (R297 to R301): levels, verdicts and charges.
-/
namespace Sys2Proof.Machine

/-- Key of a regulator. -/
def bucketKey (page point part : Nat) : Nat := page * 1024 + point * 64 + part

/-- A regulator. -/
def State.bucket (s : State) (page point part : Nat) : Bucket := s.buckets.get {} (bucketKey page point part)

/-- Replaces a regulator. -/
def State.setBucket (s : State) (page point part : Nat) (b : Bucket) : State :=
  { s with buckets := s.buckets.set (bucketKey page point part) b }

/-- The upper bound of a level, BURST × 1,024 B, in 2^-16 B (R298). -/
def Bucket.top (b : Bucket) : Int := ((b.burst * 1024 * 65536 : Nat) : Int)

/-- A level kept within its bounds (R298, R301). -/
def Bucket.clamp (b : Bucket) (l : Int) : Int :=
  if b.top < l then b.top else if l < -b.top then -b.top else l

/-- Whether a request of n bytes is in budget (R298, R301). -/
def Bucket.inBudget (b : Bucket) (n : Nat) : Bool := !b.enable || decide (((n * 65536 : Nat) : Int) ≤ b.level)

/-- A service in budget lowers the level; a disabled regulator charges nothing (R298, R301). -/
def Bucket.charge (b : Bucket) (n : Nat) : Bucket :=
  if b.enable then { b with level := b.clamp (b.level - ((n * 65536 : Nat) : Int)) } else b

/-- The level after n HCLK cycles of refill: RATE ÷ 1,600 B a cycle with 16 fractional bits (R298; log row 15). -/
def Bucket.refill (b : Bucket) (n : Nat) : Bucket :=
  if b.enable then { b with level := b.clamp (b.level + ((n * (b.rate * 65536 / 1600) : Nat) : Int)) } else b

/-- A regulator's verdict on a request (R298, R299). -/
inductive Verdict where
  | inBudget | borrowed | refused
  deriving DecidableEq, Repr

/-- A request of n bytes meets its regulator, with no in-budget request waiting beside it (R298, R299): in budget it
lowers the level; over budget it borrows, counted in KiB, or is refused and counted. The counters are those of
the REGULATOR page. -/
def State.regulate (s : State) (page point part n : Nat) : Verdict × State :=
  let b := s.bucket page point part
  let own := decide (pageKind page = some .regulator)
  if b.inBudget n then (.inBudget, s.setBucket page point part (b.charge n))
  else if b.borrow then (.borrowed, if own then s.bumpUnits page 0 n 1024 else s)
  else (.refused, if own then s.bump page 1 else s)

/-- Charges an eviction write-back, which is never refused (R300). -/
def State.chargeForced (s : State) (page point part n : Nat) : State :=
  let b := s.bucket page point part
  let b' := b.charge n
  let s := s.setBucket page point part b'
  if pageKind page = some .regulator ∧ b.enable ∧ 0 ≤ b.level ∧ b'.level < 0 then s.bump page 2 else s

end Sys2Proof.Machine
end

