-- ==== Sys2Proof/Machine/Access.lean ====
section
/-!
DEFINITION. The physical address map (Table 21-12, R622 to R624), the status with which an access completes
(R269, R290, R293, R294, R304, R306, R324, R426, R439, R442, R530, R616), and reads and writes of memory by
agents other than server cores. Memory holds the coherent value of every line (R335, R346).
-/
namespace Sys2Proof.Machine

/-- Regions of Table 21-12. -/
inductive Region where
  | gddr (stack off : Nat)
  | ls (core off : Nat)
  | lsHole (stack : Nat)
  | cellar (bay off : Nat)
  | host (off : Nat)
  | imsic (off : Nat)
  | register (page off : Nat)
  | none
  deriving DecidableEq, Repr

/-- The region of a physical address (Table 21-12, R623). -/
def regionOf (a : Nat) : Region :=
  if a < 0x24000000000 then .gddr (a / 0x800000000) (a % 0x800000000)
  else if 0x40000000000 ≤ a ∧ a < 0x42400000000 then
    let o := a - 0x40000000000
    let idx := o % 0x20000000 / 0x40000
    if idx < 1260 then .ls (coreKey (o / 0x80000000) (o % 0x80000000 / 0x20000000) idx) (o % 0x40000)
    else .lsHole (o / 0x80000000)
  else if 0x100000000000 ≤ a ∧ a < 0x300000000000 then
    .cellar ((a - 0x100000000000) / 0x20000000000) ((a - 0x100000000000) % 0x20000000000)
  else if 0x8000000000000 ≤ a ∧ a < 0xC000000000000 then .host (a - 0x8000000000000)
  else if 0xD000000000000 ≤ a ∧ a < 0xD000020000000 then .imsic (a - 0xD000000000000)
  else if 0xE000000000000 ≤ a ∧ a < 0xE000004000000 then
    .register ((a - 0xE000000000000) / 0x1000) ((a - 0xE000000000000) % 0x1000)
  else .none

/-- The GDDR device of a stack offset (R268). -/
def gddrDev (off : Nat) : Nat := off / 256 % 6

/-- The device address of a stack offset (R268). -/
def gddrDaddr (off : Nat) : Nat := off / 1536 * 256 + off % 256

/-- The hub-cache slice of a stack offset (R268). -/
def cacheSlice (off : Nat) : Nat :=
  natBits off 10 7 ^^^ natBits off 14 11 ^^^ natBits off 18 15 ^^^ natBits off 22 19

/-- The hub-cache set of a stack offset (R268). -/
def cacheSet (off : Nat) : Nat := natBits off 24 11 ^^^ natBits off 34 25

/-- Base address of a stack's GDDR window. -/
def gddrBase (s : Nat) : Nat := s * 0x800000000

/-- Base address of a bay's window (R303). -/
def bayBase (b : Nat) : Nat := 0x100000000000 + b * 0x20000000000

/-- Who makes an access, as far as its status depends on it. -/
inductive Who where
  | core
  | mover
  | engine
  | window
  deriving DecidableEq, Repr

/-- The bay of an index. -/
def State.bay (s : State) (b : Nat) : Bay := s.bays.get {} b

/-- Updates a bay. -/
def State.modBay (s : State) (b : Nat) (f : Bay → Bay) : State := { s with bays := s.bays.mod {} b f }

/-- A host function. -/
def State.hostFn (s : State) (f : Nat) : HostFn := s.hostFns.get {} f

/-- The status of the line at an address in the damaged-line record; OK where it is sound. -/
def State.badStatus (s : State) (a : Nat) : Nat := s.bad.get St.ok (a / 128)

/-- Table 21-13 for a GDDR window: the stack, its device and its pages (R269, R280, R290, R295, R624). -/
def State.gddrStatus (s : State) (st off : Nat) : Nat :=
  let dev := gddrDev off
  let cachePage := s.pageState (Page.cache st)
  let ctl := s.pageState (Page.gddr st dev)
  if 0x600000000 ≤ off then St.permissionFault
  else if s.stackState st = PS.spared then St.permissionFault
  else if s.stackState st ≠ PS.ready ∧ s.stackState st ≠ PS.memoryOnly then St.dataLost
  else if s.fld (Page.gddr st dev) 0x108 15 15 = 1 then St.dataLost
  else if cachePage ≠ PS.ready ∨ ctl ≠ PS.ready then St.unitUnavailable
  else St.ok

/-- Table 21-13 for a local-store window (R624). -/
def State.lsStatus (s : State) (c : Nat) : Nat :=
  let st := coreStack c
  if s.stackState st = PS.ready then
    (if s.pageState (corePage c) = PS.faulted then St.dataLost else St.ok)
  else if s.stackState st = PS.memoryOnly ∨ s.stackState st = PS.spared then St.permissionFault
  else St.dataLost

/-- Table 10-2 for the copy in one bay: its capacity and page state (R304, R306, R327). -/
def State.bayCopyStatus (s : State) (b off : Nat) : Nat :=
  let st := s.pageState (Page.bay b)
  if st = PS.ready then (if (s.bay b).capacity ≤ off then St.permissionFault else St.ok)
  else if st = PS.quiescing ∨ st = PS.quiesced then St.unitUnavailable
  else St.dataLost

/-- The valid mirror entry of a bay that covers an offset: entry, partner bay and state (R323, R565). -/
def State.mirrorOf (s : State) (b off : Nat) : Option (Nat × Nat × Nat) :=
  let page := Page.bay b
  ((List.range 8).find? fun j =>
    s.fld page (0x400 + 16 * j) 0 0 = 1 ∧ s.fld page (0x400 + 16 * j) 40 12 ≤ off / 4096
      ∧ off / 4096 ≤ s.fld page (0x408 + 16 * j) 40 12).map fun j =>
    (j, s.fld page (0x408 + 16 * j) 11 8, s.fld page (0x408 + 16 * j) 5 4)

/-- The status of one copy of a cellar line: of its bay, and of the line. -/
def State.copyStatus (s : State) (b off : Nat) : Nat :=
  let st := s.bayCopyStatus b off
  if st = St.ok then s.badStatus (bayBase b + off) else st

/-- Which copy of mirror entry j of bay b is stale or gone (R325): 0 none, 1 the primary's, 2 the partner's, 3 both. -/
def State.lostCopy (s : State) (b j : Nat) : Nat := (s.bay b).lostCopy.get 0 j

/-- Where a read of a cellar offset is served from, its status, and whether the partner serves it in the primary's place
(R306, R324, R325). -/
def State.cellarRead (s : State) (b off : Nat) : Nat × Nat × Bool :=
  let primary := bayBase b + off
  let own := s.copyStatus b off
  match s.mirrorOf b off with
  | none => (primary, own, false)
  | some (j, p, st) =>
    let copy := bayBase p + off
    if st = 0 then
      if [St.dataLost, St.dataUncorrectable, St.poisoned, St.unitUnavailable].contains own ∧ s.copyStatus p off = St.ok then
        (copy, St.ok, true)
      else (primary, own, false)
    else match s.lostCopy b j with
      | 1 => (copy, s.copyStatus p off, false)
      | 3 => (primary, St.dataLost, false)
      | _ => (primary, own, false)

/-- The copies that a write of a cellar offset goes to, and its status (R306, R323, R325, R327). -/
def State.cellarWrite (s : State) (b off : Nat) : List Nat × Nat :=
  let one := fun (x : Nat) => (if s.bayCopyStatus x off = St.ok then [bayBase x + off] else [], s.bayCopyStatus x off)
  match s.mirrorOf b off with
  | none => one b
  | some (j, p, st) =>
    if st = 1 then
      match s.lostCopy b j with
      | 1 => one p
      | 3 => ([], St.dataLost)
      | _ => one b
    else
      let own := s.bayCopyStatus b off
      let pst := s.bayCopyStatus p off
      if own = St.ok ∧ pst = St.ok then ([bayBase b + off, bayBase p + off], St.ok)
      else ([], if own = St.ok then pst else own)

/-- The status of a host-aperture access of a module that reaches the host through its group's master (R430, R463, R467,
R470): none where this module's own host port issues it. -/
def State.memberHostStatus (s : State) : Option Nat :=
  let g := s.reg (Page.portDie 0) 0x118
  if s.group.forming && s.group.heard.all (fun e => decide (e.2 = 0)) then some St.hostLost
  else if bit g 31 ∧ bits g 30 19 ≠ s.fld (Page.portDie 0) 0x100 11 0 then
    if s.fld Page.hostPort 0x108 1 1 = 1 then some St.permissionFault
    else
      let f := s.fld (Page.portDie 0) 0x110 4 0
      if s.fld (Page.fabricPort f) 0x108 2 0 = 4 ∧ s.fld (Page.fabricPort f) 0x100 0 0 = 1 then some St.ok
      else some St.timeout
  else none

/-- The status of a host-aperture access by the partition's virtual function (R426, R428, R430, R439, R442). -/
def State.ownHostStatus (s : State) (part : Nat) (who : Who) : Nat :=
  let ps := s.pageState Page.hostPort
  let p7 := s.fld Page.hostPort Reg.VER_ACTIVE 15 0 = 0x0300
  let fn := if p7 then 0 else part + 1
  if ps = PS.quiescing ∨ ps = PS.quiesced then St.unitUnavailable
  else if ps ≠ PS.ready then (if who = .core then St.permissionFault else St.hostLost)
  else if !(s.hostFn fn).busMaster ∨ (!p7 ∧ s.numVfs ≤ part) then St.permissionFault
  else if s.fld Page.hostPort 0x108 1 1 = 1 ∧ !(s.fld Page.hostPort 0x108 2 2 = 1 ∧ who = .mover) then
    St.permissionFault
  else St.ok

/-- The status of a host-aperture access (R426, R470). -/
def State.hostStatus (s : State) (part : Nat) (who : Who) : Nat :=
  (s.memberHostStatus).getD (s.ownHostStatus part who)

/-- The physical place and status of a read within one line (R622). -/
def State.readStatus (s : State) (part : Nat) (who : Who) (a : Nat) : Nat × Nat :=
  match regionOf a with
  | .gddr st off =>
    let x := s.gddrStatus st off
    (a, if x = St.ok then s.badStatus a else x)
  | .ls c _ => (a, s.lsStatus c)
  | .lsHole st => (a, if s.stackState st = PS.faulted ∨ s.stackState st = PS.off then St.dataLost else St.permissionFault)
  | .cellar b off => ((s.cellarRead b off).1, (s.cellarRead b off).2.1)
  | .host _ => (a, s.hostStatus part who)
  | .imsic _ => (a, St.ok)
  | .register _ _ => (a, St.permissionFault)
  | .none => (a, St.permissionFault)

/-- The places a write goes to and its status; `whole` says that it covers all 128 B of the line (R294). -/
def State.writeStatus (s : State) (part : Nat) (who : Who) (a : Nat) (whole : Bool) : List Nat × Nat :=
  match regionOf a with
  | .gddr st off =>
    let x := s.gddrStatus st off
    let y := if x ≠ St.ok then x else if whole then St.ok else s.badStatus a
    (if y = St.ok then [a] else [], y)
  | .ls c _ => (if s.lsStatus c = St.ok then [a] else [], s.lsStatus c)
  | .lsHole st => ([], if s.stackState st = PS.faulted ∨ s.stackState st = PS.off then St.dataLost else St.permissionFault)
  | .cellar b off =>
    let w := s.cellarWrite b off
    if w.2 = St.ok ∧ !whole ∧ w.1.any (fun p => s.badStatus p ≠ St.ok) then ([], s.badStatus (w.1.headD a)) else w
  | .host _ => (if s.hostStatus part who = St.ok then [a] else [], s.hostStatus part who)
  | .imsic _ => ([], St.ok)
  | .register _ _ => ([], St.permissionFault)
  | .none => ([], St.permissionFault)

/-- Reads n bytes that lie in one line: status and bytes. -/
def State.physRead (s : State) (part : Nat) (who : Who) (a n : Nat) : Nat × List Byte :=
  let r := s.readStatus part who a
  match regionOf a with
  | .imsic _ => (St.ok, List.replicate n 0)
  | _ => if r.2 = St.ok then (St.ok, s.mem.readBytes r.1 n) else (r.2, [])

/-- A write of a line ends every server core's reservation on it (R523). -/
def State.endResv (s : State) (line : Nat) : State :=
  if s.srv.any fun e => decide (e.2.resv = some line) then
    { s with srv := s.srv.map fun e => if e.2.resv = some line then (e.1, { e.2 with resv := none }) else e }
  else s

/-- Writes bytes that lie in one line; a whole line replaces what was damaged (R294). -/
def State.physWrite (s : State) (part : Nat) (who : Who) (a : Nat) (bs : List Byte) : Nat × State :=
  let whole := decide (a % 128 = 0 ∧ bs.length = 128)
  let w := s.writeStatus part who a whole
  if w.2 = St.ok then
    (St.ok, w.1.foldl (fun s p =>
      let s := (s.writeBytes p bs).endResv (p / 128)
      if whole then { s with bad := s.bad.drop fun l => l == p / 128 } else s) s)
  else (w.2, s)

/-- How many of n bytes from an address lie in its line. -/
def inLine (a n : Nat) : Nat := min n (128 - a % 128)

/-- The end of a virtual read or write: done with a status, or held by an absent leaf or the transient one. -/
inductive Ended where
  | status (st : Nat)
  | absent (va : Nat)
  | wait
  deriving DecidableEq, Repr

/-- Who presents virtual addresses: the hub of its device copy if it has one, its partition and process
context (R349). -/
structure Ctxt where
  stack : Option Nat
  part : Nat
  pasid : Nat
  who : Who
  deriving DecidableEq, Repr

/-- Reads bytes at a virtual address, line by line. -/
def State.virtRead (x : Ctxt) : Nat → State → Nat → Nat → Ended × List Byte × State
  | 0, s, _, _ => (.status St.ok, [], s)
  | fuel + 1, s, va, n =>
    if n = 0 then (.status St.ok, [], s)
    else
      let m := inLine va n
      let t := s.translate x.stack x.part x.pasid va false
      match t.1 with
      | .ok pa =>
        let r := t.2.physRead x.part x.who pa m
        if r.1 = St.ok then
          let more := State.virtRead x fuel t.2 (va + m) (n - m)
          (more.1, r.2 ++ more.2.1, more.2.2)
        else (.status r.1, [], t.2)
      | .fault st => (.status st, [], t.2)
      | .absent => (.absent va, [], t.2)
      | .wait => (.wait, [], t.2)

/-- Writes bytes at a virtual address, line by line; answers how many were written. -/
def State.virtWrite (x : Ctxt) : Nat → State → Nat → List Byte → Ended × Nat × State
  | 0, s, _, _ => (.status St.ok, 0, s)
  | fuel + 1, s, va, bs =>
    if bs = [] then (.status St.ok, 0, s)
    else
      let m := inLine va bs.length
      let t := s.translate x.stack x.part x.pasid va true
      match t.1 with
      | .ok pa =>
        let r := t.2.physWrite x.part x.who pa (bs.take m)
        if r.1 = St.ok then
          let more := State.virtWrite x fuel r.2 (va + m) (bs.drop m)
          (more.1, m + more.2.1, more.2.2)
        else (.status r.1, 0, t.2)
      | .fault st => (.status st, 0, t.2)
      | .absent => (.absent va, 0, t.2)
      | .wait => (.wait, 0, t.2)

/-- Reads bytes at a virtual address. -/
def State.vread (s : State) (x : Ctxt) (va n : Nat) : Ended × List Byte × State := State.virtRead x (n / 128 + 2) s va n

/-- Writes bytes at a virtual address. -/
def State.vwrite (s : State) (x : Ctxt) (va : Nat) (bs : List Byte) : Ended × Nat × State :=
  State.virtWrite x (bs.length / 128 + 2) s va bs

/-- Sends a page request for a page and keeps it until its response (R353). -/
def State.pageRequest (s : State) (x : Ctxt) (va : Nat) (w : Waiter) : State :=
  let r : PageReq := ⟨x.part, x.pasid, va / 4096, w⟩
  if s.pageReqs.contains r then s
  else { s with pageReqs := s.pageReqs ++ [r], out := ⟨.pageRequest, x.part, 0, x.pasid, va, []⟩ :: s.out }

end Sys2Proof.Machine
end

