-- ==== Sys2Proof/Machine/Transport.lean ====
section
/-!
DEFINITION. The sending side of the fabric: packet headers (Table 15-6), flits, replay and credits (R449 to R451),
routing (R458), channels and their ports (R461), and the packets of host groups (R468, R469).
-/
namespace Sys2Proof.Machine

/-- The header of a packet (Table 15-6). -/
def packetHeader (p : Packet) : List Byte :=
  leBytes 1 p.type ++ leBytes 1 p.flags ++ leBytes 2 (p.dst % 4096) ++ leBytes 2 (p.src % 4096)
    ++ leBytes 1 (p.vc % 8 + 8 * (p.hops % 16)) ++ leBytes 1 (p.part % 64) ++ leBytes 4 p.chseq ++ leBytes 4 p.ackseq
    ++ leBytes 4 (p.pasid % 2 ^ 20 + 2 ^ 20 * (p.jobTag % 4096)) ++ leBytes 2 p.payload.length ++ leBytes 1 p.status
    ++ leBytes 1 p.op ++ leBytes 8 p.addr ++ leBytes 4 p.collSeq ++ leBytes 4 p.aux ++ leBytes 2 p.step
    ++ leBytes 4 p.sig ++ [0, 0]

/-- One bit of the CRC-64 of ECMA-182. -/
def crc64Bit (c : Nat) : Nat := if c.testBit 63 then (c <<< 1) % 2 ^ 64 ^^^ 0x42F0E1EBA9EA3693 else c <<< 1

/-- n bit steps of the CRC-64. -/
def crc64Bits : Nat → Nat → Nat
  | 0, c => c
  | n + 1, c => crc64Bits n (crc64Bit c)

/-- CRC-64 of ECMA-182 over a byte string (log row 21). -/
def crc64 (bs : List Byte) : Nat := bs.foldl (fun c b => crc64Bits 8 (c ^^^ (b.toNat <<< 56))) 0

/-- The module ID of this module (R457). -/
def State.moduleId (s : State) : Nat := s.fld (Page.portDie 0) 0x100 11 0

/-- The link layer of a port. -/
def State.fabPort (s : State) (f : Nat) : FabPort := s.fabPorts.get {} f

/-- Updates the link layer of a port. -/
def State.modFabPort (s : State) (f : Nat) (g : FabPort → FabPort) : State :=
  { s with fabPorts := s.fabPorts.mod {} f g }

/-- PORT_STAT.LSTATE (Table 15-4). -/
def State.lstate (s : State) (f : Nat) : Nat := s.fld (Page.fabricPort f) 0x108 2 0

/-- Whether a port carries traffic. -/
def State.portUp (s : State) (f : Nat) : Bool := decide (s.lstate f = 4)

/-- Credits of a virtual channel of a port: the 64 flits reserved to it until the partner returns some (R451; log
row 24). -/
def FabPort.credit (x : FabPort) (vc : Nat) : Nat := x.credits.get 64 vc

/-- Sends a flit: header, payload of 240 B and CRC (Table 15-2). -/
def State.emitFlit (s : State) (f : Nat) (hdr : Word) (payload : List Byte) : State :=
  let body := leBytes 8 hdr.toNat ++ (payload ++ List.replicate 240 0).take 240
  { s with out := ⟨.flit, f, 0, 0, 0, body ++ leBytes 8 (crc64 body)⟩ :: s.out }

/-- The last flit that a port received in sequence, with ACKV, and the credits it returns for one virtual channel
(Table 15-2). -/
def FabPort.ackBits (x : FabPort) : Word :=
  let ack := if x.rxNext = 0 ∧ x.unackedRx = 0 then 0 else place 27 14 ((x.rxNext + 16383) % 16384) ||| place 28 28 1
  match x.owed with
  | [] => ack
  | (vc, n) :: _ => ack ||| place 33 31 vc ||| place 45 34 (min n 4095)

/-- The port after it has sent its acknowledgement and the credits with it. -/
def FabPort.acked (x : FabPort) : FabPort := { x with unackedRx := 0, owed := x.owed.drop fun vc => some vc == x.owed.head?.map Prod.fst }

/-- Sends the flits of a port's waiting bytes while credits and the replay buffer allow (R449 to R451). -/
def State.pumpFlits (f vc : Nat) : Nat → State → State
  | 0, s => s
  | n + 1, s =>
    let x := s.fabPort f
    let bs := x.waiting.get [] vc
    if bs = [] ∨ x.credit vc = 0 ∨ 8192 ≤ x.replay.length then s
    else
      let pl := (bs.take 240 ++ List.replicate 240 0).take 240
      let s := s.modFabPort f fun y => { y with
        waiting := y.waiting.set vc (bs.drop 240)
        credits := y.credits.set vc (y.credit vc - 1)
        replay := y.replay ++ [(x.txSeq, vc, pl)]
        txSeq := (x.txSeq + 1) % 16384 }
      let s := s.modFabPort f FabPort.acked
      State.pumpFlits f vc n (s.emitFlit f (place 13 0 x.txSeq ||| x.ackBits ||| place 48 46 vc) pl)

/-- Puts a packet on a port: its bytes follow those that wait on its virtual channel, and the port counts them. -/
def State.transmit (s : State) (f : Nat) (p : Packet) : State :=
  let bs := packetHeader p ++ p.payload
  let s := s.bumpUnits (Page.fabricPort f) 0 bs.length 1024
  let s := s.modFabPort f fun x => { x with waiting := x.waiting.set p.vc (x.waiting.get [] p.vc ++ bs) }
  s.pumpFlits f p.vc (bs.length / 240 + 64)

/-- The partition that owns a data channel of a port (R454). -/
def State.vcOwner (s : State) (f vc : Nat) : Option Nat :=
  let page := Page.fabricPort f
  let k := vc - 2
  if s.fld page 0x110 (8 * k + 7) (8 * k + 7) = 1 then some (s.fld page 0x110 (8 * k + 5) (8 * k)) else none

/-- The routing entry that decides for a destination, and how many matched at its priority (R458, R565). -/
def State.fabricRoute (s : State) (dst : Nat) : Option (Nat × Nat) :=
  let page := Page.portDie 0
  let pr := fun j => s.fld page (0x400 + 16 * j) 62 60
  let ms := (List.range 64).filter fun j =>
    s.fld page (0x400 + 16 * j) 63 63 = 1 ∧ dst &&& s.fld page (0x400 + 16 * j) 43 32 = s.fld page (0x400 + 16 * j) 11 0
  let top := ms.foldl (fun a j => max a (pr j)) 0
  match ms.filter fun j => decide (pr j = top) with
  | [] => none
  | j :: t => some (j, t.length + 1)

/-- The ports of a routing entry that are UP and, for a data channel, owned by a partition (R461). -/
def State.eligiblePorts (s : State) (entry vc part : Nat) : List Nat :=
  let mask := s.fld (Page.portDie 0) (0x408 + 16 * entry) 31 0
  (List.range 32).filter fun f => mask.testBit f && s.portUp f && decide (vc < 2 ∨ s.vcOwner f vc = some part)

/-- Key of a sending channel; `port` distinguishes the channels of group traffic. -/
def chanKey (dst vc : Nat) (port : Option Nat) : Nat :=
  match port with
  | none => (dst * 8 + vc) * 64
  | some f => (dst * 8 + vc) * 64 + 1 + f

/-- A sending channel. -/
def State.txChan (s : State) (key : Nat) : TxChan := s.txChans.get {} key

/-- Numbers a packet on a channel, sends it on the channel's port, charged to its partition, and keeps it until its
acknowledgement (R461, R484). -/
def State.sendOn (s : State) (key f : Nat) (p : Packet) (owner : Owner) : State :=
  let ch := s.txChan key
  let p := { p with
    chseq := if ch.resync then 1 else ch.next, src := s.moduleId, flags := p.flags ||| ch.resync.toNat }
  let ch' : TxChan := { ch with
    port := f, bound := true, next := (p.chseq + 1) % 2 ^ 32, resync := false, unacked := ch.unacked ++ [⟨p, owner⟩] }
  let s := { s with txChans := s.txChans.set key ch' }
  (s.regulate (Page.fabricPort f) 0 p.part (48 + p.payload.length)).2.transmit f p

/-- A channel fails: CHANNEL_FAILED from its port's page, or from the P0 PORT_DIE page where it has none; its next packet
starts a new sequence (R463, R487). -/
def State.channelDead (s : State) (key part : Nat) : State :=
  let ch := s.txChan key
  let page := if ch.bound then Page.fabricPort ch.port else Page.portDie 0
  let ch' : TxChan := { ch with bound := false, next := 1, resync := true, unacked := [], tries := 0 }
  { s with txChans := s.txChans.set key ch' }.genEvent page 0x02B4 part
    (place 11 0 (key / 512) ||| place 14 12 (key / 64 % 8))

/-- Sends a packet to another module: OK, UNIT_UNAVAILABLE where no entry matches, or TIMEOUT where no port is
eligible, which fails the channel (R458, R461, R463). -/
def State.sendPacket (s : State) (p : Packet) (owner : Owner) : Nat × State :=
  match s.fabricRoute p.dst with
  | none => (St.unitUnavailable, s)
  | some (j, n) =>
    let s := if 1 < n then s.multiMatch (Page.portDie 0) 3 j n else s
    let key := chanKey p.dst p.vc none
    let ch := s.txChan key
    if ch.bound && s.portUp ch.port then (St.ok, s.sendOn key ch.port p owner)
    else
      let ports := s.eligiblePorts j p.vc p.part
      match ports[Config.channelHash p.dst p.vc % (max ports.length 1)]? with
      | none => (St.timeout, s.channelDead key p.part)
      | some f => (St.ok, s.sendOn key f p owner)

/-- Sends a packet that carries no CHSEQ and is not retransmitted, if a port is eligible (R461). -/
def State.sendLoose (s : State) (p : Packet) : State :=
  match s.fabricRoute p.dst with
  | none => s
  | some (j, _) =>
    let ports := s.eligiblePorts j p.vc p.part
    match ports[Config.channelHash p.dst p.vc % (max ports.length 1)]? with
    | none => s
    | some f => (s.regulate (Page.fabricPort f) 0 p.part (48 + p.payload.length)).2.transmit f { p with src := s.moduleId }

/-- The module of member m of the group table, if the entry is valid (R466). -/
def State.groupMember (s : State) (m : Nat) : Option Nat :=
  let page := Page.portDie 0
  if s.fld page (0x200 + 8 * (m / 4)) (16 * (m % 4) + 15) (16 * (m % 4) + 15) = 1 then
    some (s.fld page (0x200 + 8 * (m / 4)) (16 * (m % 4) + 11) (16 * (m % 4)))
  else none

/-- The member index of a module in the group table. -/
def State.memberOf (s : State) (module : Nat) : Option Nat :=
  (List.range 64).find? fun m => decide (s.groupMember m = some module)

/-- Whether a port is bound as group-forward (R468). -/
def State.groupPort (s : State) (f : Nat) : Bool := decide (s.fld (Page.fabricPort f) 0x100 0 0 = 1)

/-- Sends a group packet to a module on a group-forward port; TIMEOUT where the port is down (R463, R468). -/
def State.sendGroup (s : State) (f : Nat) (p : Packet) (owner : Owner) : Nat × State :=
  if s.portUp f && s.groupPort f then (St.ok, s.sendOn (chanKey p.dst 1 (some f)) f { p with vc := 1 } owner)
  else (St.timeout, s)

end Sys2Proof.Machine
end

