-- ==== Sys2Proof/Machine/Complete.lean ====
section
/-!
DEFINITION. Interrupts (R424, R425, R530, R531) and the completion of commands (R408, Table 13-7).
-/
namespace Sys2Proof.Machine

/-! ### Interrupt files -/

/-- The interrupt file that an IMSIC offset lies in; none outside every file (R530). -/
def imsicFile (off : Nat) : Option Nat :=
  if off < 0x100000 then some (off / 0x1000)
  else if 0x10000000 ≤ off ∧ off < 0x10000000 + 0x10000 * 256 then some (off / 0x1000)
  else none

/-- An aligned 4 B write to a file's seteipnum_le, at offset 0 of its page, makes an identity pending. Any
other write is discarded (R530). -/
def State.imsicWrite (s : State) (off data : Nat) : State :=
  match imsicFile off with
  | some f => if off % 0x1000 = 0 ∧ 1 ≤ data ∧ data ≤ 2047 then
      { s with imsic := s.imsic.mod [] f fun l => setInsert l data } else s
  | none => s

/-- A device write of an MSI by physical address: an interrupt file takes it, and memory otherwise. -/
def State.msiTo (s : State) (pa data : Nat) : State :=
  match regionOf pa with
  | .imsic off => s.imsicWrite off data
  | _ => (s.physWrite 0 .engine pa (leBytes 4 data)).2

/-- The numbers of the bits of a mask, gathered from a value: the interrupt file number of an MSI address. -/
def gatherBits (v mask : Nat) : Nat :=
  ((List.range 52).filter fun i => mask.testBit i).foldr (fun i acc => acc * 2 + (v.testBit i).toNat) 0

/-- Sets an identity pending in a memory-resident interrupt file; the flag says whether it is enabled. -/
def State.mrifSet (s : State) (base id : Nat) : Bool × State :=
  let a := base + 16 * (id / 64)
  let p := BitVec.ofNat 64 (s.mem.readNat a 8)
  (bit (BitVec.ofNat 64 (s.mem.readNat (a + 8) 8)) (id % 64),
    { s with mem := s.mem.writeNat a 8 (setBit p (id % 64) true).toNat })

/-- The panel IOMMU carries an MSI of a partition: by its MSI translation, flat or MRIF, where the address
matches the device context's pattern, and as a device write otherwise; none where it rejects it (R531,
Table 11-8; log row 8). -/
def State.iommuMsi (s : State) (part iova data : Nat) : Option State :=
  let word := fun a => BitVec.ofNat 64 (s.mem.readNat a 8)
  let plain := (s.peekTranslate part 0 iova true).map fun pa => s.msiTo pa data
  let ddtp := s.reg 0x102 0x10
  if bits ddtp 3 0 ≠ 4 then plain
  else
    let l1 := word (ptePage ddtp)
    let l0 := word (ptePage l1)
    let dc := ptePage l0 + 64 * part
    let msiptp := word (dc + 32)
    let mask := bits (word (dc + 40)) 51 0
    let pat := bits (word (dc + 48)) 51 0
    if !bit l1 0 || !bit l0 0 || !bit (word dc) 0 then none
    else if bits msiptp 63 60 = 0 then plain
    else if (List.range 52).any fun i => !mask.testBit i && ((iova / 4096).testBit i != pat.testBit i) then plain
    else
      let e := bits msiptp 43 0 * 4096 + 16 * gatherBits (iova / 4096) mask
      let lo := word e
      let hi := word (e + 8)
      if !bit lo 0 then none
      else if bits lo 2 1 = 3 then some (s.msiTo (ptePage lo + iova % 4096) data)
      else if bits lo 2 1 = 1 then
        let r := s.mrifSet (bits lo 53 7 * 512) data
        some (if r.1 then r.2.msiTo (bits hi 53 10 * 4096) (bits hi 9 0 + 1024 * bits hi 60 60) else r.2)
      else none

/-- Entry `vec` of a partition's MSI table, if it can be read (R531, R532). -/
def State.msiEntryAddr (s : State) (part vec : Nat) : Option Nat :=
  let r := s.reg Page.interrupt (0x100 + 8 * part)
  if bit r 0 then
    let a := bits r 63 12 * 4096 + 16 * (vec % 2048)
    if (s.physRead part .engine a 16).1 = St.ok then some a else none
  else none

/-- Counts an MSI that was not sent. -/
def State.msiDropped (s : State) : State := s.bump Page.interrupt 0

/-- Sends the MSI of an unmasked entry at an address (R531). -/
def State.msiFire (s : State) (part a : Nat) : State :=
  let data := s.mem.readNat (a + 8) 4
  if data = 0 ∨ 2047 < data then s.msiDropped
  else match s.iommuMsi part (s.mem.readNat a 8) data with
    | some s' => s'
    | none => s.msiDropped

/-- MSI_SEND: signals entry `vec` of a partition's MSI table; a masked entry sets its PENDING bit (R531). -/
def State.msiSend (s : State) (part vec : Nat) : State :=
  match s.msiEntryAddr part vec with
  | none => s.msiDropped
  | some a =>
    let ctl := s.mem.readNat (a + 12) 4
    if ctl % 2 = 1 then { s with mem := s.mem.writeNat (a + 12) 4 (ctl ||| 2) }
    else s.msiFire part a

/-- An MSI-X message of a function: sent while the link is up, Bus Master Enable and MSI-X Enable are set and
the entry is not masked; a masked entry becomes pending (R425). -/
def State.msixSend (s : State) (fn entry : Nat) : State :=
  let f := s.hostFn fn
  let e := f.table.get {} entry
  if s.fld Page.hostPort 0x108 0 0 = 0 then s
  else if !f.busMaster || !f.msixEnable then s
  else if e.masked then
    { s with hostFns := s.hostFns.set fn { f with table := f.table.set entry { e with pend := true } } }
  else { s with out := ⟨.msix, fn, entry, e.addr, e.data, []⟩ :: s.out }

/-! ### Queues -/

/-- QUEUE_BLOCK offset of a register of queue q (Table 13-2). -/
def qOff (q r : Nat) : Nat := 0x800 + 0x40 * (q % 32) + r

/-- Register of queue q (Table 13-2). -/
def State.qreg (s : State) (q r : Nat) : Word := s.reg (Page.queueBlock q) (qOff q r)

/-- Loads field [hi:lo] of a register of queue q. -/
def State.setQfld (s : State) (q r hi lo n : Nat) : State := s.setFld (Page.queueBlock q) (qOff q r) hi lo n

/-- Queue-block state of queue q. -/
def State.queue (s : State) (q : Nat) : QState := s.queues.get {} q

/-- Updates the queue-block state of queue q. -/
def State.modQueue (s : State) (q : Nat) (f : QState → QState) : State := { s with queues := s.queues.mod {} q f }

namespace Q
/-- QCFG. -/
abbrev cfg : Nat := 0x10
/-- QBIND. -/
abbrev bind : Nat := 0x18
/-- SQ_TAIL. -/
abbrev tail : Nat := 0x20
/-- CQ_HEAD. -/
abbrev head : Nat := 0x28
/-- QSTAT. -/
abbrev stat : Nat := 0x30
/-- PORT_TYPE codes of QBIND. -/
abbrev hostVf : Nat := 0
/-- MGMT. -/
abbrev mgmt : Nat := 1
/-- FABRIC. -/
abbrev fabric : Nat := 2
/-- GROUP_FWD. -/
abbrev groupFwd : Nat := 3
/-- SERVER. -/
abbrev server : Nat := 4
/-- SERVICE. -/
abbrev service : Nat := 5
end Q

/-- Ring size of queue q (R396). -/
def State.ringSize (s : State) (q : Nat) : Nat := 2 ^ bits (s.qreg q Q.cfg) 3 0

/-- Partition of queue q (R394). -/
def State.queuePart (s : State) (q : Nat) : Nat := bits (s.qreg q Q.bind) 53 48

/-- PORT_TYPE of queue q. -/
def State.queuePort (s : State) (q : Nat) : Nat := bits (s.qreg q Q.bind) 59 56

/-- How queue q presents the addresses of its rings (Table 13-2). -/
def State.queueCtxt (s : State) (q : Nat) : Ctxt := ⟨none, s.queuePart q, bits (s.qreg q Q.cfg) 51 32, .engine⟩

/-- Key of a command. -/
def cmdKey (q seq : Nat) : Nat := q * 2 ^ 32 + seq

/-- The interrupt of a queue's completion entry, by its port type (R408, R424, R531). -/
def State.queueIrq (s : State) (q : Nat) : State :=
  let vec := bits (s.qreg q Q.cfg) 27 16
  let port := s.queuePort q
  if port = Q.hostVf then
    let p := bits (s.qreg q Q.bind) 43 32
    let fn := if s.fld Page.hostPort Reg.VER_ACTIVE 15 0 = 0x0300 then 0 else p + 1
    if 32 * p ≤ vec ∧ vec < 32 * p + 32 then s.msixSend fn (vec - 32 * p) else s.bump Page.hostPort 6
  else if port = Q.server then s.msiSend (s.queuePart q) vec
  else if port = Q.mgmt ∨ port = Q.service then { s with out := ⟨.pmcIrq, q, 0, vec, 0, []⟩ :: s.out }
  else s

/-- Sequence number s1 is at or below s2, modulo 2^32 in a window of 2^31 (R397). -/
def seqLe (a b : Nat) : Bool := decide ((b + 2 ^ 32 - a) % 2 ^ 32 < 2 ^ 31)

/-- Advances DONE_UPTO over the completed sequence numbers that follow it (Table 13-2). -/
def advanceDone : Nat → Nat → List Nat → Nat × List Nat
  | 0, upto, done => (upto, done)
  | n + 1, upto, done =>
    let nx := (upto + 1) % 2 ^ 32
    if done.contains nx then advanceDone n nx (done.filter (· ≠ nx)) else (upto, done)

/-- The commands of a queue that have been fetched and not completed. -/
def State.inFlight (s : State) (q : Nat) : Nat := (s.cmds.filter fun e => decide (e.2.queue = q)).length

/-- Counts a command as completed: it leaves the table, DONE_UPTO advances, and IDLE is set when none
remains (Table 13-2, R398). -/
def State.cmdDone (s : State) (q seq : Nat) : State :=
  let qs := s.queue q
  let upto := bits (s.qreg q Q.stat) 31 0
  let r := advanceDone (qs.done.length + 1) upto (qs.done ++ [seq])
  let s := { s with cmds := s.cmds.drop fun k => k == cmdKey q seq }
  let s := (s.modQueue q fun x => { x with done := r.2 }).setQfld q Q.stat 31 0 r.1
  s.setQfld q Q.stat 63 63 (if s.inFlight q = 0 then 1 else 0)

/-- Writes one completion entry into the ring of queue q (R408): written, with its interrupt; lost, without;
or held by a page request. -/
def State.writeEntry (s : State) (q seq : Nat) (entry : List Byte) (irq : Bool) : State :=
  let qs := s.queue q
  let lost := (s.bump (Page.queueBlock q) 5).cmdDone q seq
  if s.queuePort q = Q.hostVf ∧ (qs.lost = true ∨ s.pageState Page.hostPort = PS.faulted) then s.cmdDone q seq
  else match s.addrReg (Page.queueBlock q) (qOff q 0x08) with
    | none => lost
    | some base =>
      let e5 := (entry.getD 5 0).toNat % 128 + (if qs.phase then 128 else 0)
      let entry := listSet entry 5 (BitVec.ofNat 8 e5)
      let r := s.vwrite (s.queueCtxt q) (base + 32 * qs.cqTail) entry
      match r.1 with
      | .status st =>
        if st = St.ok then
          let last := decide (s.ringSize q ≤ qs.cqTail + 1)
          let s := r.2.2.modQueue q fun x =>
            { x with
              cqTail := if last then 0 else x.cqTail + 1
              phase := if last then !x.phase else x.phase
              unread := x.unread + 1 }
          let s := s.cmdDone q seq
          if irq then s.queueIrq q else s
        else (r.2.2.bump (Page.queueBlock q) 5).cmdDone q seq
      | .absent va =>
        (r.2.2.pageRequest (s.queueCtxt q) va .engine).modQueue q fun x => { x with stalled := x.stalled ++ [(seq, entry, irq)] }
      | .wait => r.2.2.modQueue q fun x => { x with stalled := x.stalled ++ [(seq, entry, irq)] }

/-- The completion entry of a command (Table 13-7), its PHASE still clear. -/
def entryBytes (cmdId status park kind q : Nat) (result : List Byte) : List Byte :=
  leBytes 4 cmdId ++ [BitVec.ofNat 8 status, BitVec.ofNat 8 (park % 8 * 16 + kind % 16)] ++ leBytes 2 q
    ++ (result ++ List.replicate 24 0).take 24

/-- COMPLETION_WRITE: a command completes with a status, a PARK bucket and its result bytes (R408). Later
entries of a queue wait behind one that waits. A command forwarded by a group master is answered to it
(R469). -/
def State.complete (s : State) (q seq status park : Nat) (result : List Byte) : State :=
  match s.cmds.find (cmdKey q seq) with
  | none => s
  | some c =>
    let entry := entryBytes c.cmdId status park c.kind q result
    let s := match c.fwd with
      | some (port, id) =>
        let p : Packet := {
          type := 0x11, dst := id / 2 ^ 42, part := c.part, addr := id / 2 ^ 32 % 1024
          collSeq := id % 2 ^ 32, status := status, payload := entry }
        (s.sendGroup port p (.completion q seq 1)).2
      | none => s
    if (s.queue q).stalled ≠ [] then
      s.modQueue q fun x => { x with stalled := x.stalled ++ [(seq, entry, c.flags.testBit 1)] }
    else s.writeEntry q seq entry (c.flags.testBit 1)

/-- Writes the stalled completion entries of a queue again, oldest first (R408). -/
def State.retryEntries (s : State) (q : Nat) : State :=
  let es := (s.queue q).stalled
  let s := s.modQueue q fun x => { x with stalled := [] }
  es.foldl (fun s e =>
    if (s.queue q).stalled ≠ [] then s.modQueue q fun x => { x with stalled := x.stalled ++ [e] }
    else s.writeEntry q e.1 e.2.1 e.2.2) s

/-- Loses the oldest stalled completion entry of a queue after a failure response, and writes the others
again (R408). -/
def State.loseEntry (s : State) (q : Nat) : State :=
  match (s.queue q).stalled with
  | [] => s
  | e :: rest =>
    let s := (s.modQueue q fun x => { x with stalled := rest }).bump (Page.queueBlock q) 5
    (s.cmdDone q e.1).retryEntries q

/-- The counter of a queue's page increases when a command completes with REFUSED_PORT (R419). -/
def State.completeChecked (s : State) (q seq status : Nat) : State :=
  let s := if status = St.refusedPort then s.bump (Page.queueBlock q) 1 else s
  s.complete q seq status 0 []

end Sys2Proof.Machine
end

