-- ==== Sys2Proof/Machine/Rights.lean ====
section
/-!
DEFINITION. Who may read and write which register (R613, R614, R616 to R618, Tables 21-7 and 21-8), and what
a write does to plain fields (R3 to R6).
-/
namespace Sys2Proof.Machine

/-- HOLDER_TYPE of an identity (Table 21-7). -/
def identType : Ident → Nat
  | .mgmt => 1
  | .service => 5
  | .hostPf => 6
  | _ => 0

/-- The partition of a partition identity (Table 21-7). -/
def identPart : Ident → Option Nat
  | .p7Pf => some 0
  | .hostVf p => some p
  | .server p => some p
  | .coreTask p => some p
  | _ => none

/-- HOLDER_INDEX of an identity. -/
def identIndex (i : Ident) : Nat := (identPart i).getD 0

/-- HOLDER_VIA of an identity's path (Table 21-5). -/
def identVia : Ident → Nat
  | .mgmt => 0
  | .service => 0
  | .hostPf => 1
  | .p7Pf => 1
  | .hostVf _ => 1
  | .server _ => 2
  | .coreTask _ => 3

/-- Whether two identities are the same one: type and index (R614). -/
def sameIdent (a b : Ident) : Bool := decide (identType a = identType b ∧ identIndex a = identIndex b)

/-- Whether an identity belongs to a host function (R618). -/
def identHost (i : Ident) : Bool := decide (identVia i = 1)

/-- Counts a denied access (R618). -/
def State.denied (s : State) (i : Ident) : State :=
  if identHost i then s.bump Page.hostPort 5 else s.bump Page.device 1

/-- Whether queue q is bound to the port an identity comes from (R394). -/
def State.boundTo (s : State) (q : Nat) (i : Ident) : Bool :=
  let b := s.qreg q Q.bind
  let is := fun (t ix : Nat) => decide (bits b 63 63 = 1 ∧ bits b 59 56 = t ∧ bits b 43 32 = ix)
  match i with
  | .mgmt => is Q.mgmt 0
  | .service => is Q.service 0
  | .hostPf => false
  | .p7Pf => is Q.hostVf 0
  | .hostVf p => is Q.hostVf p
  | .server p => is Q.server p
  | .coreTask _ => false

/-- The queue of a QUEUE_BLOCK page and offset. -/
def queueOf (page off : Nat) : Nat := 32 * (page - 0x410) + (off - 0x800) / 0x40

/-- The partition that a register or group belongs to, where it is a per-partition one (R617). -/
def State.groupOwner (s : State) (page off : Nat) : Option Nat :=
  match pageKind page with
  | some .device => if 0x400 ≤ off ∧ off < 0x400 + 0x30 * 64 then some ((off - 0x400) / 0x30) else none
  | some .interrupt => if 0x100 ≤ off ∧ off < 0x300 then some ((off - 0x100) / 8) else none
  | some .scheduler => if 0x400 ≤ off ∧ off < 0x600 then some ((off - 0x400) / 8) else none
  | some .racking => if 0x200 ≤ off ∧ off < 0x600 then some ((off - 0x200) / 16) else none
  | some .hostPort => if 0x400 ≤ off ∧ off < 0x600 then some ((off - 0x400) / 8) else none
  | some .hubCache => if 0x200 ≤ off ∧ off < 0x400 then some ((off - 0x200) / 8) else none
  | some .queueBlock =>
    if 0x800 ≤ off then
      let b := s.qreg (queueOf page off) Q.bind
      if bits b 63 63 = 1 then some (bits b 53 48) else none
    else none
  | some .eventQueue =>
    if 0x400 ≤ off ∧ off < 0x800 then
      let cfg := s.reg page (0x408 + 0x40 * ((off - 0x400) / 0x40))
      if bits cfg 62 62 = 0 then some (bits cfg 61 56) else none
    else none
  | some .decanter =>
    if 0x400 ≤ off ∧ off < 0x800 then
      let cfg := s.reg page (0x408 + 0x40 * ((off - 0x400) / 0x40))
      if bits cfg 63 63 = 1 then some (bits cfg 5 0) else none
    else none
  | _ => none

/-- The partition that owns a page (R615). -/
def State.pageOwner (s : State) (page : Nat) : Option Nat :=
  if s.fld page Reg.PAGE_OWNER 7 7 = 1 then some (s.fld page Reg.PAGE_OWNER 5 0) else none

/-- Whether an offset holds REG_DATA or REG_LEVEL of its page (R617). -/
def isRegData (page off : Nat) : Bool :=
  match pageKind page with
  | some .regulator => decide (off = 0x110 ∨ off = 0x118)
  | some .cellarBay => decide (off = 0x188 ∨ off = 0x190)
  | some .fabricPort => decide (off = 0x188 ∨ off = 0x190)
  | _ => false

/-- Whether an identity may read a register (R617). -/
def State.mayRead (s : State) (i : Ident) (page off : Nat) : Bool :=
  match identPart i with
  | none => true
  | some p =>
    if page = 0x102 then false
    else if off < 0x100 then true
    else if s.fld page Reg.PAGE_OWNER 8 8 = 1 then false
    else if isRegData page off then false
    else if pageKind page = some .coreWindow then decide (s.pageOwner page = some p)
    else match s.groupOwner page off with
      | some g => decide (g = p)
      | none => true

/-- Whether a partition may write a register (Table 21-8). -/
def State.partMayWrite (s : State) (i : Ident) (p page off : Nat) (v : Word) : Bool :=
  let owner := decide (s.pageOwner page = some p)
  if off = Reg.PAGE_LOCK ∧ page ≠ 0x102 then owner
  else if off < 0x100 then false
  else match pageKind page with
    | some .queueBlock =>
      let r := (off - 0x800) % 0x40
      decide (0x800 ≤ off) && (decide (r = Q.tail ∨ r = Q.head) && s.boundTo (queueOf page off) i
        || decide (r = 0 ∨ r = 8 ∨ r = Q.cfg) && decide (s.groupOwner page off = some p))
    | some .eventQueue =>
      let r := (off - 0x400) % 0x40
      decide (0x400 ≤ off ∧ off < 0x800) && decide (s.groupOwner page off = some p)
        && decide (r = 0 ∨ r = 0x18 ∨ (r = 8 ∧ bits v 62 62 = 0 ∧ bits v 61 56 = p))
    | some .interrupt => decide (s.groupOwner page off = some p)
    | some .hostPort =>
      let vf := match i with
        | .hostVf _ => true
        | .p7Pf => true
        | _ => false
      (vf && (decide (s.groupOwner page off = some p) || decide (off = Reg.WIN_CTL ∧ bits v 13 8 = p)))
        || decide (i = .p7Pf ∧ (off = Reg.HOST_ATTACH ∨ off = Reg.HOST_PROTO_REQ))
    | some .decanter =>
      decide (s.groupOwner page off = some p) && decide ((off - 0x400) % 0x40 ≠ 8)
    | some .hubCache => decide (off = Reg.KEEP_RELEASE ∧ bits v 21 16 = p)
    | some .racking => decide (s.groupOwner page off = some p) || decide (off = 0x118 ∧ bits v 63 58 = p)
    | some .cellarBay => decide (off = Reg.BAY_POOL_GIVE ∧ bits v 63 58 = p)
    | some .scheduler =>
      decide (s.groupOwner page off = some p) || decide (off = Reg.RT_RESERVE ∧ bits v 53 48 = p)
        || (decide (off = Reg.PREEMPT_REQ) && s.tasks.any fun t => decide (t.2.part = p ∧ t.2.jobTag = bits v 31 20))
    | some .computeDie => owner && decide ((0x100 ≤ off ∧ off ≤ 0x1F0))
    | some .coreWindow => owner && decide (off = 0x100 ∨ off = 0x108 ∨ off = 0x110)
    | some .servicePanel => decide (off = Reg.REMOVE_ANSWER)
    | _ => false

/-- Whether an identity may write a register, doorbells and QBIND apart (R617). -/
def State.mayWrite (s : State) (i : Ident) (page off : Nat) (v : Word) : Bool :=
  let pfOnly := decide (page = Page.hostPort ∧ (off = Reg.HOST_ATTACH ∨ off = Reg.HOST_PROTO_REQ))
  match i with
  | .mgmt => !pfOnly
  | .service => false
  | .hostPf => pfOnly
  | _ => s.partMayWrite i (identIndex i) page off v

/-- Whether an offset is a doorbell or QBIND, whose ignored writes the QUEUE_BLOCK page counts itself (R394). -/
def isDoorbell (page off : Nat) : Bool :=
  decide (pageKind page = some .queueBlock ∧ 0x800 ≤ off)
    && decide ((off - 0x800) % 0x40 = Q.tail ∨ (off - 0x800) % 0x40 = Q.head ∨ (off - 0x800) % 0x40 = Q.bind)

/-- The indirect-access registers that PAGE_LOCK protects (R614). -/
def isIndirect (page off : Nat) : Bool :=
  match pageKind page with
  | some .regulator => decide (off = 0x108 ∨ off = 0x110)
  | some .cellarBay => decide (off = 0x180 ∨ off = 0x188 ∨ (0x300 ≤ off ∧ off < 0x348))
  | some .fabricPort => decide (off = 0x180 ∨ off = 0x188 ∨ off = 0x608)
  | some .gddrCtl => decide (off = 0x608)
  | some .hubRouter => decide (0x600 ≤ off ∧ off < 0x740 ∧ (off - 0x600) % 0x40 = 8)
  | some .coreWindow => decide (off = 0x100 ∨ off = 0x108 ∨ off = 0x110)
  | _ => false

/-- Whether an identity holds a page's lock (R614). -/
def State.holdsLock (s : State) (i : Ident) (page : Nat) : Bool :=
  let l := s.reg page Reg.PAGE_LOCK
  decide (bits l 63 63 = 1 ∧ bits l 55 48 = identType i ∧ bits l 47 32 = identIndex i)

/-- Notes an access of the holder of a page's lock (R614). -/
def State.lockTouch (s : State) (i : Ident) (page : Nat) : State :=
  if s.holdsLock i page then { s with lockAt := s.lockAt.set page (s.reg Page.clock Reg.PANEL_TIME).toNat } else s

/-- Whether a page's lock keeps an identity from an indirect-access register (R614). -/
def State.lockedOut (s : State) (i : Ident) (page off : Nat) : Bool :=
  isIndirect page off && decide (s.fld page Reg.PAGE_LOCK 63 63 = 1) && decide (i ≠ .mgmt) && !s.holdsLock i page

/-- Whether a register has a field whose reset value is X. -/
def hasX (page off : Nat) : Bool :=
  match pageKind page with
  | none => false
  | some k => match findReg k off with
    | some r => r.fields.any FieldSpec.isX
    | none => false

/-- Whether an encoding is one that the field's table reserves (R6). -/
def FieldSpec.isReserved (f : FieldSpec) (n : Nat) : Bool := f.reserved.any fun r => decide (r.1 ≤ n ∧ n ≤ r.2)

/-- What a write does to one field (R3, R6); WO fields store nothing. -/
def writeField (v old : Word) (f : FieldSpec) : Word :=
  let n := bits v f.hi f.lo
  match f.acc with
  | .rw => if f.isReserved n then old else setBits old f.hi f.lo n
  | .w1c => setBits old f.hi f.lo (bits (old &&& ~~~ v) f.hi f.lo)
  | .w1s => setBits old f.hi f.lo (bits (old ||| v) f.hi f.lo)
  | _ => old

/-- A write to the plain fields of a register (R3, R5, R6). -/
def State.plainWrite (s : State) (page off : Nat) (v : Word) : State :=
  if page = 0x102 then s.setReg page off v
  else match pageKind page with
    | none => s
    | some k => match findReg k off with
      | none => s
      | some r =>
        let s := s.setReg page off (r.fields.foldl (writeField v) (s.reg page off))
        if r.fields.any FieldSpec.isX then s.markWritten page off else s

/-- A write to the RW and W1C fields of a register: the actions of its W1S fields are the writer's own. -/
def State.storeWrite (s : State) (page off : Nat) (v : Word) : State :=
  match pageKind page with
  | none => s
  | some k => match findReg k off with
    | none => s
    | some r =>
      let fs := r.fields.filter fun f => decide (f.acc ≠ .w1s)
      let s := s.setReg page off (fs.foldl (writeField v) (s.reg page off))
      if r.fields.any FieldSpec.isX then s.markWritten page off else s

/-- Whether the panel management controller serves a page in standby (R586). -/
def mgmtPage (page : Nat) : Bool := decide (page < 5 ∨ (0x20 ≤ page ∧ page < 0x30))

/-- Whether start-up has not yet reached a page's block (R582, R586): nothing before the end of phase 2, hub pages before
their group of stacks has power in phase 4, and the other blocks before phase 3 and in standby. -/
def State.unreached (s : State) (page : Nat) : Bool :=
  let st := s.reg Page.pmc Reg.BOOT_STAT
  let ph := bits st 3 0
  s.boot.running && (decide (ph < 3 ∨ (ph = 15 ∧ bits st 31 28 = 2))
    || (!mgmtPage page && (decide (ph = 15) || match pageStack page with
      | some p => decide (ph = 3 ∨ (ph = 4 ∧ s.boot.groups ≤ p / 8))
      | none => false)))

/-- A register write by an identity (R606, R613, R614, R617, R618): discarded at a reserved offset, denied
without the right, refused while the block has no power or the page is locked, and otherwise `eff`. Before start-up reaches
the page's block the access completes with UNIT_UNAVAILABLE and RETRY_HINT 15 (R586). -/
def State.writeVia (s : State) (i : Ident) (page off : Nat) (v : Word) (eff : State → State) : State :=
  let known := match pageKind page with
    | none => false
    | some k => decide (page = 0x102) || (findReg k off).isSome
  if s.unreached page then { s with reply := (St.unitUnavailable, [15]) }
  else
  let s := s.lockTouch i page
  if !known then s
  else if !isDoorbell page off && !s.mayWrite i page off v then s.denied i
  else if s.unpowered.contains page && decide (0x60 ≤ off) then s.lastStatus page St.unitUnavailable
  else if s.lockedOut i page off then s.lastStatus page St.unitUnavailable
  else
    let s := if hasX page off then s.markWritten page off else s
    eff s

end Sys2Proof.Machine
end

