-- ==== Sys2Proof/Machine/Regulator.lean ====
section
/-!
DEFINITION. The registers of the regulators (R301, R302) and their refill (R298).
-/
namespace Sys2Proof.Machine

/-- REG_REFILL: HCLK cycles pass for the regulators of a page (R298). -/
def execRegRefill (page cycles : Nat) (s : State) : Out :=
  .next { s with buckets := s.buckets.map fun e => if e.1 / 1024 = page then (e.1, e.2.refill cycles) else e }

/-- Offset of REG_INDEX on a page (Table 9-20, R308, R484). -/
def regIndexOff (page : Nat) : Nat := if pageKind page = some .regulator then 0x108 else 0x180

/-- The number of points of a page: 0 to 9 on a REGULATOR page and 0 elsewhere (R297, Table 9-18). -/
def pagePoints (page : Nat) : Nat := if pageKind page = some .regulator then 10 else 1

/-- A write of REG_INDEX: a reserved POINT leaves the register unchanged (R302). -/
def regIndexEff (page : Nat) (v : Word) (s : State) : State :=
  if bits v 11 8 < pagePoints page then s.storeWrite page (regIndexOff page) v else s

/-- REG_INDEX_WRITE (R302). -/
def execRegIndexWrite (i : Ident) (page : Nat) (v : Word) (s : State) : Out :=
  .next (if [some PageKind.regulator, some .cellarBay, some .fabricPort].contains (pageKind page) then
    s.writeVia i page (regIndexOff page) v (regIndexEff page v) else s)

/-- The point and partition that REG_INDEX of a page selects. -/
def State.regSelected (s : State) (page : Nat) : Nat × Nat :=
  (s.fld page (regIndexOff page) 11 8, s.fld page (regIndexOff page) 5 0)

/-- A write of REG_DATA: a reserved BURST of zero keeps the old one; ENABLE from 0 to 1 fills the bucket; a
lowered BURST clamps the level (R301, Table 9-21). -/
def regDataEff (page : Nat) (v : Word) (s : State) : State :=
  let sel := s.regSelected page
  let b := s.bucket page sel.1 sel.2
  let burst := if bits v 47 32 = 0 then b.burst else bits v 47 32
  let b' : Bucket := ⟨bit v 63, bit v 62, bits v 61 59, burst, bits v 23 0, b.level⟩
  let level := if !b.enable && bit v 63 then b'.top else b'.clamp b.level
  s.setBucket page sel.1 sel.2 { b' with level := level }

/-- REG_DATA_WRITE (R301). -/
def execRegDataWrite (i : Ident) (page : Nat) (v : Word) (s : State) : Out :=
  .next (if [some PageKind.regulator, some .cellarBay, some .fabricPort].contains (pageKind page) then
    s.writeVia i page (regIndexOff page + 8) v (regDataEff page v) else s)

/-- REG_DATA of the selected regulator (Table 9-21). -/
def State.regData (s : State) (page : Nat) : Word :=
  let sel := s.regSelected page
  let b := s.bucket page sel.1 sel.2
  place 63 63 b.enable.toNat ||| place 62 62 b.borrow.toNat ||| place 61 59 b.prio ||| place 47 32 b.burst
    ||| place 23 0 b.rate

/-- REG_LEVEL of the selected regulator in whole bytes, two's complement (Table 9-22). -/
def State.regLevel (s : State) (page : Nat) : Word :=
  let sel := s.regSelected page
  place 31 0 (unsigned 32 ((s.bucket page sel.1 sel.2).level / 65536))

end Sys2Proof.Machine
end

