-- ==== Sys2Proof/Machine/Cache.lean ====
section
/-!
DEFINITION. The hub cache (R268 to R281) and the stream prefetchers (R282 to R284). The byte memory holds the
coherent value of a line; a dirty line keeps the bytes that GDDR holds under it, which come back when a dirty
SCRATCH line is dropped (R275; log row 16).
-/
namespace Sys2Proof.Machine

/-- Which cache line of a hub holds an address. -/
def State.cacheFind (s : State) (stack line : Nat) : Option CacheLine :=
  s.cache.find? fun l => decide (l.stack = stack ∧ l.line = line)

/-- Replaces the entry of a cached line. -/
def State.cachePut (s : State) (c : CacheLine) : State :=
  { s with cache := c :: s.cache.filter fun l => !decide (l.stack = c.stack ∧ l.line = c.line) }

/-- Removes a cached line. -/
def State.cacheDrop (s : State) (stack line : Nat) : State :=
  { s with cache := s.cache.filter fun l => !decide (l.stack = stack ∧ l.line = line) }

/-- KEEP lines of a partition in a hub. -/
def State.keepLines (s : State) (stack part : Nat) : Nat :=
  (s.cache.filter fun l => decide (l.stack = stack ∧ l.cls = .keep ∧ l.part = part)).length

/-- KEEP_LIMITp.USED follows the KEEP lines, in MiB rounded down (Table 9-7). -/
def State.keepUsed (s : State) (stack part : Nat) : State :=
  s.setFld (Page.cache stack) (Reg.KEEP_LIMIT + 8 * part) 41 32 (s.keepLines stack part / 8192)

/-- Whether a line of a set may take class KEEP: fewer than 12 in the set, and the partition below its limit
(R273). -/
def State.keepAllowed (s : State) (stack slice set part : Nat) : Bool :=
  let inSet := (s.cache.filter fun l => decide (l.stack = stack ∧ l.slice = slice ∧ l.set = set ∧ l.cls = .keep)).length
  decide (inSet < 12)
    && decide (s.keepLines stack part < s.fld (Page.cache stack) (Reg.KEEP_LIMIT + 8 * part) 9 0 * 8192)

/-- The winning attribute entry of a line and how many match (R276, R565). -/
def State.attrMatch (s : State) (stack line : Nat) : Option (Nat × Nat) :=
  let page := Page.cache stack
  let ms := (List.range 16).filter fun j =>
    s.fld page (Reg.ATTR_BASE + 16 * j) 0 0 = 1 ∧ s.fld page (Reg.ATTR_BASE + 16 * j) 51 12 ≤ line / 32
      ∧ line / 32 ≤ s.fld page (Reg.ATTR_LIMIT + 16 * j) 51 12
  match ms with
  | [] => none
  | j :: _ => some (j, ms.length)

/-- Whether a line lies in a SCRATCH range; several matches set MULTI_MATCH (R276, R565). -/
def State.scratch (s : State) (stack line : Nat) : Bool × State :=
  match s.attrMatch stack line with
  | none => (false, s)
  | some (j, n) =>
    let s := if 1 < n then s.multiMatch (Page.cache stack) 1 j n else s
    (s.fld (Page.cache stack) (Reg.ATTR_LIMIT + 16 * j) 0 0 = 1, s)

/-- POISON_WRITE: a line known bad is stored with the poison code word (R294). -/
def State.poisonWrite (s : State) (stack line : Nat) : State :=
  let page := Page.gddr stack (gddrDev (line * 128 % 0x800000000))
  { s with bad := s.bad.set line St.poisoned }.bump page 5

/-- VICTIM_WRITEBACK: a dirty line is written back, counted, and charged to the partition that the line
records (R272, R300). Its value is the coherent one already. -/
def State.writeBack (s : State) (l : CacheLine) : State :=
  if l.dirty then
    let s := s.bump (Page.cache l.stack) 2
    s.chargeForced (Page.regulator l.stack) (gddrDev (l.line * 128 % 0x800000000)) l.part 128
  else s

/-- A line leaves the cache: an unused prefetched one is counted (R284), a dirty one is written back (R272). -/
def State.cacheEvict (s : State) (l : CacheLine) : State :=
  let s := if l.prefetched then s.bump (Page.cache l.stack) 8 else s
  ((s.writeBack l).cacheDrop l.stack l.line).keepUsed l.stack l.part

/-- The line of a list with the least key. -/
def leastBy (key : CacheLine → Nat) : List CacheLine → Option CacheLine
  | [] => none
  | l :: t => match leastBy key t with
    | none => some l
    | some m => if key l ≤ key m then some l else some m

/-- The ways of a slice that hold its own GDDR: way 15 of slices below NEAR_WAYS belongs to the near-cache
(R278). -/
def State.ownWays (s : State) (stack slice : Nat) : Nat :=
  if slice < s.fld (Page.cache stack) Reg.CACHE_CTL 2 0 then 15 else 16

/-- The way a new line takes, and the line it replaces: an invalid way, the oldest STREAM line, the least
recently used NORMAL line; never a KEEP line (R272). -/
def State.victim (s : State) (stack slice set : Nat) : Option (Nat × Option CacheLine) :=
  let ls := s.cache.filter fun l => decide (l.stack = stack ∧ l.slice = slice ∧ l.set = set) && !l.near
  match (List.range (s.ownWays stack slice)).find? fun w => ls.all fun l => decide (l.way ≠ w) with
  | some w => some (w, none)
  | none => match leastBy CacheLine.born (ls.filter fun l => decide (l.cls = .stream)) with
    | some l => some (l.way, some l)
    | none => match leastBy CacheLine.used (ls.filter fun l => decide (l.cls = .normal)) with
      | some l => some (l.way, some l)
      | none => none

/-- Installs a line of the hub's own GDDR with a class; KEEP falls back to NORMAL with KEEP_OVERFLOW (R271 to
R273). -/
def State.cacheInstall (s : State) (stack line : Nat) (cls : CacheClass) (tag part : Nat) (pref : Bool) : State :=
  let off := line * 128 % 0x800000000
  let slice := cacheSlice off
  let set := cacheSet off
  match s.victim stack slice set with
  | none => s
  | some (w, old) =>
    let s := match old with
      | some l => s.cacheEvict l
      | none => s
    let ok := s.keepAllowed stack slice set part
    let s := if cls = .keep ∧ !ok then s.bump (Page.cache stack) 3 else s
    let cls := if cls = .keep ∧ !ok then .normal else cls
    let n := s.useCtr + 1
    ({ s with useCtr := n }.cachePut
      ⟨stack, slice, set, w, line, false, cls, tag, part, pref, n, n, false, []⟩).keepUsed stack part

/-- What a hit does to a line's class (Table 9-2, R273). A line that is KEEP already carries the tag of the access that made
it so (R274). -/
def State.cacheTouch (s : State) (l : CacheLine) (hint tag part : Nat) : State :=
  let n := s.useCtr + 1
  let s := { s with useCtr := n }
  let s := if l.prefetched then s.bump (Page.cache l.stack) 7 else s
  let l := { l with used := n, prefetched := false }
  if hint = 2 then
    if l.cls = .keep then s.cachePut l
    else if s.keepAllowed l.stack l.slice l.set part then
      (s.cachePut { l with cls := .keep, tag := tag, part := part }).keepUsed l.stack part
    else (s.bump (Page.cache l.stack) 3).cachePut l
  else s.cachePut l

/-- Writes bytes to a cached line: the first write makes it dirty and keeps what GDDR holds (R275). -/
def State.cacheWrite (s : State) (stack line off : Nat) (bs : List Byte) : State :=
  let s := match s.cacheFind stack line with
    | some l => if l.dirty then s
        else s.cachePut { l with dirty := true, below := s.mem.readBytes (line * 128) 128 }
    | none => s
  let s := s.writeBytes (line * 128 + off) bs
  if off = 0 ∧ bs.length = 128 then { s with bad := s.bad.drop fun x => x == line } else s

/-- LAST_USE_DROP: a read hit drops the line; a dirty SCRATCH line is discarded, so that GDDR's own bytes
return (R275). -/
def State.lastUseDrop (s : State) (stack line : Nat) : State :=
  match s.cacheFind stack line with
  | none => s
  | some l =>
    let s := s.bump (Page.cache stack) 4
    if l.dirty then
      let r := s.scratch stack line
      if r.1 then
        ((r.2.bump (Page.cache stack) 5).writeBytes (line * 128) l.below).cacheDrop stack line |>.keepUsed stack l.part
      else r.2.cacheEvict { l with prefetched := false }
    else (s.cacheDrop stack line).keepUsed stack l.part

/-- CACHE_ECC_ERROR: a clean line is invalidated, to be fetched again; a dirty one is written back poisoned
(R281). The flag says that the request fails with DATA_UNCORRECTABLE. -/
def State.cacheEcc (s : State) (l : CacheLine) (e : Ecc) : Bool × State :=
  match e with
  | .ok => (false, s)
  | .corrected => (false, s.bump (Page.cache l.stack) 12)
  | .uncorrectable =>
    let s := s.bump (Page.cache l.stack) 13
    if l.dirty then (true, ((s.writeBack l).poisonWrite l.stack l.line).cacheDrop l.stack l.line |>.keepUsed l.stack l.part)
    else (false, (s.cacheDrop l.stack l.line).keepUsed l.stack l.part)

/-! ### Stream prefetchers -/

/-- Prefetchers of a hub. -/
def State.pf (s : State) (stack : Nat) : Prefetch := s.prefetch.get {} stack

/-- Updates the prefetchers of a hub. -/
def State.modPf (s : State) (stack : Nat) (f : Prefetch → Prefetch) : State :=
  { s with prefetch := s.prefetch.mod {} stack f }

/-- The virtual line address v + 128 × d. -/
def strideFrom (va : Nat) (d : Int) (k : Int) : Int := (va : Int) + 128 * d * k

/-- The stride with which an access completes a training triple: earlier misses of the requester at distances
one and two, within 1,024 HCLK cycles, −512 ≤ d ≤ 512 and d ≠ 0 (R282). -/
def trainStride (ms : List Miss) (req va cycle : Nat) : Option Int :=
  let mine := ms.filter fun m => decide (m.requester = req ∧ cycle ≤ m.cycle + 1024)
  let strides := mine.filterMap fun m =>
    let diff := (va : Int) - (m.va : Int)
    if diff % 128 = 0 ∧ diff ≠ 0 ∧ -65536 ≤ diff ∧ diff ≤ 65536 then some (diff / 128) else none
  strides.find? fun d => mine.any fun m => decide ((m.va : Int) = strideFrom va d (-2))

/-- PREFETCH_TRAIN: a miss is remembered, and may train a stream entry; with all 32 in use the least recently
used one is replaced (R282). An access of a stream that an entry already follows trains no second entry. -/
def State.pfTrain (s : State) (stack req part pasid va cycle : Nat) (stream : Bool) : State :=
  let p := s.pf stack
  let s := match trainStride p.misses req va cycle with
    | none => s
    | some d =>
      if p.streams.any fun e => decide (e.2.requester = req ∧ e.2.lastVa = va ∧ e.2.stride = d) then s
      else
      let free := (List.range 32).find? fun i => (p.streams.find i).isNone
      let lru := p.streams.foldl (fun (b : Option (Nat × Nat)) (e : Nat × Stream) => match b with
        | none => some (e.1, e.2.used)
        | some m => if e.2.used < m.2 then some (e.1, e.2.used) else some m) none
      let slot := match free with
        | some i => i
        | none => (lru.map Prod.fst).getD 0
      s.modPf stack fun p => { p with
        streams := p.streams.set slot ⟨req, part, pasid, d, va, (strideFrom va d 1).toNat, stream, cycle⟩ }
  s.modPf stack fun p => { p with misses := ⟨req, va, cycle⟩ :: p.misses.filter fun m => decide (cycle ≤ m.cycle + 1024) }

/-- An access of a trained stream moves its entry along (R282, R283). -/
def State.pfFollow (s : State) (stack req va cycle : Nat) : State :=
  s.modPf stack fun p => { p with streams := p.streams.map fun e =>
    if e.2.requester = req ∧ (va : Int) = strideFrom e.2.lastVa e.2.stride 1 then
      (e.1, { e.2 with
        lastVa := va
        used := cycle
        nextVa := if e.2.nextVa = va then (strideFrom va e.2.stride 1).toNat else e.2.nextVa })
    else e }

/-- STREAM_ENTRY_EXPIRE: an entry that has seen no access for 65,536 HCLK cycles becomes free (R282). -/
def execStreamEntryExpire (stack entry cycle : Nat) (s : State) : Out :=
  .next (match (s.pf stack).streams.find entry with
    | some e => if e.used + 65536 ≤ cycle then
        s.modPf stack fun p => { p with streams := p.streams.drop fun k => k == entry } else s
    | none => s)

/-- Whether the hub die of a stack is in WARN, which caps its prefetch depth at zero (Table 18-3, Table 18-4). -/
def State.hubWarn (s : State) (stack : Nat) : Bool := (s.causes.get {} (65536 + stack)).warn

/-- PREFETCH_DEPTH_ADJUST: the governor lowers EFF_DEPTH by one while PREFETCH_UNUSED has grown more than
PREFETCH_USEFUL since it last acted, and raises it by one up to DEPTH in the reverse case (R284; log row 17). -/
def execPrefetchDepthAdjust (stack : Nat) (s : State) : Out :=
  let page := Page.cache stack
  let cnt := fun i => (s.reg page (Reg.CNT + 8 * i)).toNat
  let p := s.pf stack
  let un := cnt 8 - p.lastUnused
  let us := cnt 7 - p.lastUseful
  let eff := s.fld page Reg.PREFETCH_CTL 14 8
  let depth := if s.hubWarn stack then 0 else s.fld page Reg.PREFETCH_CTL 6 0
  let eff' := if us < un then eff - 1 else if un < us then min (eff + 1) depth else min eff depth
  .next ((s.setFld page Reg.PREFETCH_CTL 14 8 eff').modPf stack fun p =>
    { p with lastUnused := cnt 8, lastUseful := cnt 7 })

/-! ### Requests -/

/-- Answers a request. -/
def State.answer (s : State) (st : Nat) (data : List Byte) : State := { s with reply := (st, data) }

/-- Sends a message between units of the module. -/
def State.post (s : State) (m : Msg) : State := { s with net := s.net ++ [m] }

/-- The class that a hint installs with (Table 9-2). -/
def hintClass (hint : Nat) : CacheClass := if hint = 1 ∨ hint = 3 then .stream else if hint = 2 then .keep else .normal

/-- A fetch that finds two or more wrong symbols: the controller counts and posts it, and the line stays as it is (Table
9-13, R294). -/
def State.fetchBad (s : State) (stack line bad : Nat) : State :=
  if bad = St.dataUncorrectable then
    let page := Page.gddr stack (gddrDev (line * 128 % 0x800000000))
    (s.bump page 4).genEvent page 0x0253 0 (BitVec.ofNat 64 (line * 128))
  else s

/-- A request that misses, or whose clean line failed its check: the line is fetched, under the regulator of its
device, and installed but for a LAST_USE read (R271, R272, R297 to R299). -/
def State.cacheMiss (s : State) (stack line off n : Nat) (data : List Byte) (hint tag part : Nat) : State :=
  let whole := decide (off = 0 ∧ data.length = 128)
  let bad := s.bad.get St.ok line
  let s := s.bumpUnits (Page.cache stack) 1 1 1024
  if bad ≠ St.ok ∧ !whole then (s.fetchBad stack line bad).answer bad []
  else
    let v := if whole then (Verdict.inBudget, s)
      else s.regulate (Page.regulator stack) (gddrDev (line * 128 % 0x800000000)) part 128
    if v.1 = .refused then v.2.answer St.refusedBudget []
    else
      let s := v.2
      if data = [] ∧ hint = 3 then s.answer St.ok (s.mem.readBytes (line * 128 + off) n)
      else
        let s := s.cacheInstall stack line (hintClass hint) tag part false
        if data = [] then s.answer St.ok (s.mem.readBytes (line * 128 + off) n)
        else (s.cacheWrite stack line off data).answer St.ok []

/-- A request to a line of the hub's own GDDR (R271 to R277, R281). The flag says that it missed. -/
def State.cacheServe (s : State) (stack a n : Nat) (data : List Byte) (hint tag part : Nat) (ecc : Ecc) : Bool × State :=
  let line := a / 128
  let off := a % 128
  match s.cacheFind stack line with
  | some l =>
    let r := s.cacheEcc l ecc
    if r.1 then (false, r.2.answer St.dataUncorrectable [])
    else if ecc = .uncorrectable then (true, r.2.cacheMiss stack line off n data hint tag part)
    else
      let s := (r.2.bumpUnits (Page.cache stack) 0 1 1024).cacheTouch l hint tag part
      (false, if data = [] then
          let s := s.answer St.ok (s.mem.readBytes a n)
          if hint = 3 then s.lastUseDrop stack line else s
        else (s.cacheWrite stack line off data).answer St.ok [])
  | none => (true, s.cacheMiss stack line off n data hint tag part)

/-! ### Near-cache -/

/-- The logical stack whose slice homes a cellar line, before unbound stacks are passed over (R336). -/
def cellarHash (a : Nat) : Nat := natBits a 17 12 ^^^ natBits a 23 18

/-- The physical stack whose directory slice homes a line (R336); none for a line that no directory homes. -/
def State.homeOf (s : State) (a : Nat) : Option Nat :=
  match regionOf a with
  | .gddr st _ => some st
  | .cellar _ _ => (List.range 64).findSome? fun i => s.boundStack ((cellarHash a + i) % 64)
  | _ => none

/-- Agent 256 + s, the near-cache of stack s (Table 11-1). -/
def nearAgent (stack : Nat) : Nat := 256 + stack

/-- The hub proxy of a hub: agent 338, with its node (Table 11-1). -/
def hubProxy (stack : Nat) : Nat := 338 + 512 * stack

/-- Key of an agent's line. -/
def agentKey (agent line : Nat) : Nat := agent * 2 ^ 45 + line

/-- The state of a line at an agent (Table 11-2). -/
def State.agentState (s : State) (agent line : Nat) : LineState := s.agents.get .i (agentKey agent line)

/-- Sets the state of a line at an agent. -/
def State.setAgent (s : State) (agent line : Nat) (x : LineState) : State :=
  { s with agents := if x = .i then s.agents.drop fun k => k == agentKey agent line else s.agents.set (agentKey agent line) x }

/-- An agent gives a line up: DAT_WB for a line in M, EVICT_CLEAN for one in S or E, never silently (R344).
Field b of the DAT_WB is 1 for an eviction. -/
def State.agentEvict (s : State) (agent line : Nat) : State :=
  match s.agentState agent line with
  | .i => s
  | .m => (s.setAgent agent line .i).post ⟨.datWb, agent, 0, line, 1, s.mem.readBytes (line * 128) 128⟩
  | _ => (s.setAgent agent line .i).post ⟨.evictClean, agent, 0, line, 0, []⟩

/-- The near-cache's entry of a line. -/
def State.nearFind (s : State) (stack line : Nat) : Option CacheLine :=
  s.cache.find? fun l => decide (l.stack = stack ∧ l.line = line) && l.near

/-- A near-cache line leaves (R284, R344). -/
def State.nearDrop (s : State) (l : CacheLine) : State :=
  let s := if l.prefetched then s.bump (Page.cache l.stack) 8 else s
  (s.cacheDrop l.stack l.line).agentEvict (nearAgent l.stack) l.line

/-- Installs a line in the near-cache: one way in each slice below NEAR_WAYS, the least recently used line
replaced (R278, R279; log row 18). -/
def State.nearInstall (s : State) (stack line : Nat) (pref : Bool) : State :=
  let ways := s.fld (Page.cache stack) Reg.CACHE_CTL 2 0
  let set := cacheSet (line * 128 % 0x800000000)
  let mine := s.cache.filter fun l => decide (l.stack = stack ∧ l.set = set) && l.near
  let slot : Option (Nat × Option CacheLine) :=
    match (List.range ways).find? fun w => mine.all fun l => decide (l.slice ≠ w) with
    | some w => some (w, none)
    | none => (leastBy CacheLine.used mine).map fun l => (l.slice, some l)
  match slot with
  | none => s.agentEvict (nearAgent stack) line
  | some (w, old) =>
    let s := match old with
      | some l => s.nearDrop l
      | none => s
    let n := s.useCtr + 1
    let s := { s with useCtr := n }
    s.cachePut ⟨stack, w, set, 15, line, false, .normal, 0, 0, pref, n, n, true, []⟩

/-- An access to a line homed elsewhere reaches the near-cache (R278, R279): a hit is served; a NORMAL or KEEP
read that misses asks the home for a copy; any other access goes to the home from the hub proxy. A write to a
line held in E or M is made in the near-cache, and one to a line in S asks for ownership first. -/
def State.nearServe (s : State) (stack a n : Nat) (data : List Byte) (hint : Nat) : State :=
  let line := a / 128
  let off := a % 128
  let page := Page.cache stack
  let ag := nearAgent stack
  let ask := fun (s : State) (k : MsgKind) =>
    let s := { s with nearReqs := s.nearReqs ++ [(⟨stack, line, off, n, data, false⟩ : NearReq)] }
    s.post ⟨k, ag, 0, line, 0, []⟩
  match s.nearFind stack line with
  | some l =>
    let s := s.bump page 10
    let s := if l.prefetched then s.bump page 7 else s
    let l := { l with used := s.useCtr + 1, prefetched := false }
    let s := { s with useCtr := s.useCtr + 1 }.cachePut l
    if data = [] then
      let s := s.answer St.ok (s.mem.readBytes a n)
      if hint = 3 then s.nearDrop l else s
    else if s.agentState ag line = .s then ask s .upgrade
    else ((s.setAgent ag line .m).writeBytes a data).answer St.ok []
  | none =>
    let s := s.bump page 11
    if data = [] then
      (if hint = 0 ∨ hint = 2 then ask s .rdShared
      else s.post ⟨.rdOnce, hubProxy stack, 0, line, off, leBytes 2 n⟩)
    else if off = 0 ∧ data.length = 128 then s.post ⟨.wrFull, hubProxy stack, 0, line, 0, data⟩
    else
      let mask := (2 ^ data.length - 1) * 2 ^ off
      s.post ⟨.wrPtl, hubProxy stack, 0, line, mask, (List.replicate off 0 ++ data ++ List.replicate 128 0).take 128⟩

/-- On entry to QUIESCED the hub cache writes every dirty line back and gives every near-cache line up to its
home; it returns empty (R280). -/
def State.cacheFlush (s : State) (stack : Nat) : State :=
  let mine := s.cache.filter fun l => decide (l.stack = stack)
  mine.foldl (fun s l => if l.near then s.nearDrop l else s.cacheEvict l) s

/-- The lines of a device leave the cache without a write-back (R290). -/
def State.cacheDropDevice (s : State) (stack dev : Nat) : State :=
  let gone := s.cache.filter fun l => decide (l.stack = stack ∧ gddrDev (l.line * 128 % 0x800000000) = dev) && !l.near
  gone.foldl (fun s l => (s.cacheDrop stack l.line).keepUsed stack l.part) s

/-- CACHE_ACCESS: a request for `n` bytes, or a write of `data`, at physical address `a` reaches a slice of a
hub's cache and is served with its hint (R269 to R281). `req`, `pasid`, `va` and `cycle` say who presented it,
where and when, for the prefetchers (R282). -/
def execCacheAccess (stack a n : Nat) (data : List Byte) (hint tag part : Nat) (ecc : Ecc)
    (req pasid va cycle : Nat) (s : State) : Out :=
  let train := fun (r : Bool × State) =>
    if r.1 ∧ r.2.fld (Page.cache stack) Reg.CACHE_CTL 8 8 = 1 then
      r.2.pfTrain stack req part pasid (va / 128 * 128) cycle (decide (hint = 1)) else r.2
  .next (match regionOf a with
  | .gddr st goff =>
    if st = stack then
      if s.gddrStatus st goff ≠ St.ok then s.answer (s.gddrStatus st goff) []
      else train ((s.pfFollow stack req (va / 128 * 128) cycle).cacheServe stack a n data hint tag part ecc)
    else if s.fld (Page.cache stack) Reg.CACHE_CTL 2 0 = 0 then s
    else train ((s.nearFind stack (a / 128)).isNone,
      (s.pfFollow stack req (va / 128 * 128) cycle).nearServe stack a n data hint)
  | .cellar _ _ =>
    if s.homeOf a = some stack ∨ s.fld (Page.cache stack) Reg.CACHE_CTL 2 0 = 0 then s
    else train ((s.nearFind stack (a / 128)).isNone,
      (s.pfFollow stack req (va / 128 * 128) cycle).nearServe stack a n data hint)
  | _ => s)

/-- PREFETCH_ISSUE: a trained entry prefetches its next line, at most EFF_DEPTH lines ahead of the requester's
last access (R283). One that would fault, or that a regulator finds over budget, is dropped (R284); a remote
line is asked for with RD_PF, and only while the hub has a near-cache (R360). -/
def execPrefetchIssue (stack entry : Nat) (s : State) : Out :=
  let page := Page.cache stack
  .next (match (s.pf stack).streams.find entry with
  | none => s
  | some e =>
    let ahead := ((e.nextVa : Int) - (e.lastVa : Int)) / (128 * e.stride)
    if s.fld page Reg.CACHE_CTL 8 8 = 0 ∨ ahead < 1 ∨ ((s.fld page Reg.PREFETCH_CTL 14 8 : Nat) : Int) < ahead then s
    else
      let s := s.modPf stack fun p => { p with
        streams := p.streams.set entry { e with nextVa := (strideFrom e.nextVa e.stride 1).toNat } }
      match s.peekTranslate e.part e.pasid e.nextVa false with
      | none => s
      | some pa =>
        let line := pa / 128
        let near := fun (s : State) =>
          if s.fld page Reg.CACHE_CTL 2 0 = 0 ∨ (s.nearFind stack line).isSome then s
          else
            let s := { s with nearReqs := s.nearReqs ++ [(⟨stack, line, 0, 0, [], true⟩ : NearReq)] }
            (s.post ⟨.rdPf, nearAgent stack, 0, line, 0, []⟩).bump page 6
        match regionOf pa with
        | .gddr st off =>
          if st ≠ stack then near s
          else if (s.readStatus e.part .core pa).2 ≠ St.ok ∨ (s.cacheFind stack line).isSome then s
          else
            let b := s.bucket (Page.regulator stack) (gddrDev off) e.part
            if b.inBudget 128 then
              ((s.setBucket (Page.regulator stack) (gddrDev off) e.part (b.charge 128)).bump page 6).cacheInstall
                stack line (if e.stream then .stream else .normal) 0 e.part true
            else s.bump page 9
        | .cellar _ _ => if s.homeOf pa = some stack then s else near s
        | _ => s)

/-- Lowers the KEEP lines of a partition and tag to NORMAL (R274). -/
def State.keepSweep (s : State) (stack part tag : Nat) : State :=
  let s := { s with
    cache := s.cache.map fun (l : CacheLine) =>
      if l.stack = stack ∧ l.part = part ∧ l.tag = tag ∧ l.cls = CacheClass.keep then { l with cls := .normal } else l }
  s.keepUsed stack part

/-- A write of KEEP_RELEASE: with GO it starts a sweep, and it is ignored while BUSY (R274, Table 9-6). The
sweep passes every set in the step that starts it; BUSY stays until it ends. -/
def keepReleaseEff (page : Nat) (v : Word) (s : State) : State :=
  if s.fld page Reg.KEEP_RELEASE 1 1 = 1 then s
  else
    let s := s.storeWrite page Reg.KEEP_RELEASE v
    if bit v 0 then
      let s := (s.setFld page Reg.KEEP_RELEASE 1 1 1).setFld page Reg.KEEP_RELEASE 0 0 1
      s.keepSweep ((pageStack page).getD 0) (bits v 21 16) (bits v 11 8)
    else s

/-- KEEP_RELEASE_GO (R274). -/
def execKeepReleaseGo (i : Ident) (stack : Nat) (v : Word) (s : State) : Out :=
  .next (s.writeVia i (Page.cache stack) Reg.KEEP_RELEASE v (keepReleaseEff (Page.cache stack) v))

/-- KEEP_SWEEP_DONE: a sweep that runs ends, and BUSY and GO clear (R274, Table 9-6). -/
def execKeepSweepDone (stack : Nat) (s : State) : Out :=
  .next ((s.setFld (Page.cache stack) Reg.KEEP_RELEASE 1 1 0).setFld (Page.cache stack) Reg.KEEP_RELEASE 0 0 0)

/-- A write of CACHE_CTL: NEAR_WAYS changes only while the page is QUIESCED (R280). -/
def cacheCtlEff (page : Nat) (v : Word) (s : State) : State :=
  let old := s.fld page Reg.CACHE_CTL 2 0
  let s' := s.storeWrite page Reg.CACHE_CTL v
  if s.pageState page = PS.quiesced then s' else s'.setFld page Reg.CACHE_CTL 2 0 old

/-- NEAR_WAYS_WRITE (R280). -/
def execNearWaysWrite (i : Ident) (stack : Nat) (v : Word) (s : State) : Out :=
  .next (s.writeVia i (Page.cache stack) Reg.CACHE_CTL v (cacheCtlEff (Page.cache stack) v))

/-- A write of PREFETCH_CTL: EFF_DEPTH never exceeds DEPTH (R284). -/
def prefetchCtlEff (page : Nat) (v : Word) (s : State) : State :=
  let s := s.storeWrite page Reg.PREFETCH_CTL v
  s.setFld page Reg.PREFETCH_CTL 14 8 (min (s.fld page Reg.PREFETCH_CTL 14 8) (s.fld page Reg.PREFETCH_CTL 6 0))

end Sys2Proof.Machine
end

