-- ==== Sys2Proof/Machine/Coherence.lean ====
section
/-!
DEFINITION. The directory protocol (R334 to R346, R360): what a home does with each request, snoop answer and
eviction, and what a caching agent does with each snoop and grant. A message arrives with the command that names
it; where the module itself sent it, it leaves the messages in flight. The byte memory holds the coherent value.
-/
namespace Sys2Proof.Machine

/-- Whether an agent holds copies (Table 11-1, R337). -/
def isCaching (agent : Nat) : Bool := decide (agent < 328)

/-- The state of a server core's or near-cache's line after a message has arrived: the message leaves the
messages in flight. -/
def State.arrived (s : State) (k : MsgKind) (src line : Nat) : State :=
  match s.net.findIdx? fun m => decide (m.kind = k ∧ m.src = src ∧ m.a = line) with
  | some i => { s with net := s.net.eraseIdx i }
  | none => s

/-- A message to an agent has arrived: it leaves the messages in flight. -/
def State.delivered (s : State) (k : MsgKind) (dst line : Nat) : State :=
  match s.net.findIdx? fun m => decide (m.kind = k ∧ m.dst = dst ∧ m.a = line) with
  | some i => { s with net := s.net.eraseIdx i }
  | none => s

/-- Set of a directory slice (R338): the low 14 bits of the line number (log row 19). -/
def dirSet (line : Nat) : Nat := line % 16384

/-- Number of entries in a set of a slice. -/
def State.dirUsed (s : State) (home set : Nat) : Nat :=
  (s.dir.filter fun e => decide (e.2.home = home ∧ e.2.set = set)).length

/-- DIR_STAT.IN_USE of a slice (Table 11-11). -/
def State.dirStat (s : State) (home : Nat) : State :=
  s.setFld (Page.directory home) 0x100 18 0 (s.dir.filter fun e => decide (e.2.home = home)).length

/-- The directory entry of a line. -/
def State.dirEntry (s : State) (line : Nat) : DirEntry := s.dir.get { home := 0, set := 0 } line

/-- Sets the entry of a line; an entry that names no agent is freed (R338). -/
def State.dirSetEntry (s : State) (line : Nat) (e : DirEntry) : State :=
  let s := if e.sharers = [] ∧ e.owner = none then { s with dir := s.dir.drop fun k => k == line }
    else
      let n := s.useCtr + 1
      { s with useCtr := n, dir := s.dir.set line { e with used := n } }
  s.dirStat e.home

/-- Whether a line is BUSY (R339). -/
def State.busy (s : State) (line : Nat) : Bool := (s.txns.find line).isSome

/-- Sends a snoop from the home, and counts it (Table 11-12). Field a of a message is its line. -/
def State.snoop (s : State) (home line : Nat) (k : MsgKind) (req agent : Nat) : State :=
  let page := Page.directory home
  let c := if k = .snpInv then 2 else if k = .snpRecall then 4 else 1
  (s.bump page c).post ⟨k, home, agent, line, req, []⟩

/-- Bytes of a line. -/
def State.lineBytes (s : State) (line : Nat) : List Byte := s.mem.readBytes (line * 128) 128

/-- The bytes of 128 whose bit of a mask is set, written over a line. -/
def maskBytes : Nat → List Byte → List Byte → List Byte
  | mask, n :: ns, o :: os => (if mask % 2 = 1 then n else o) :: maskBytes (mask / 2) ns os
  | _, _, os => os

/-- The operation of AMO.G on an old value (Table 6-11): the value that memory receives. -/
def amoValue (aop w old b c : Nat) : Nat :=
  let o := BitVec.ofNat w old
  let x := BitVec.ofNat w b
  (match aop with
  | 0 => x
  | 1 => o + x
  | 2 => o &&& x
  | 3 => o ||| x
  | 4 => o ^^^ x
  | 5 => if o.toInt < x.toInt then x else o
  | 6 => if x.toInt < o.toInt then x else o
  | 7 => if o.toNat < x.toNat then x else o
  | 8 => if x.toNat < o.toNat then x else o
  | 9 => if o = BitVec.ofNat w c then x else o
  | _ => o).toNat

/-- Writes bytes at a home: the hub cache's line becomes dirty, and a mirrored cellar line is written in both
copies (R323, R342). -/
def State.homeWrite (s : State) (a : Nat) (bs : List Byte) : Nat × State :=
  match regionOf a with
  | .gddr st _ =>
    let w := s.writeStatus 0 .engine a (decide (a % 128 = 0 ∧ bs.length = 128))
    if w.2 = St.ok then
      (St.ok, if (s.cacheFind st (a / 128)).isSome then (s.cacheWrite st (a / 128) (a % 128) bs).endResv (a / 128)
        else (s.physWrite 0 .engine a bs).2)
    else (w.2, s)
  | _ => s.physWrite 0 .engine a bs

/-- Performs a request of a non-caching agent in memory and answers it with COMP or DAT_IO, whose field b is the
status (R342). -/
def State.perform (s : State) (m : Msg) : State :=
  let line := m.a
  let rd := s.readStatus 0 .engine (line * 128)
  match m.kind with
  | .wrFull =>
    let r := s.homeWrite (line * 128) m.data
    r.2.post ⟨.comp, 0, m.src, line, r.1, []⟩
  | .wrPtl =>
    if rd.2 ≠ St.ok then s.post ⟨.comp, 0, m.src, line, rd.2, []⟩
    else
      let r := s.homeWrite (line * 128) (maskBytes m.b m.data (s.lineBytes line))
      r.2.post ⟨.comp, 0, m.src, line, r.1, []⟩
  | .atomic =>
    let aop := (m.data.getD 0 0).toNat
    let n := 2 ^ (m.data.getD 1 0).toNat
    let b := ofLeBytes ((m.data.drop 2).take 8)
    let c := ofLeBytes ((m.data.drop 10).take 8)
    let a := line * 128 + m.b
    if rd.2 ≠ St.ok then s.post ⟨.datIo, 0, m.src, line, rd.2, []⟩
    else
      let old := s.mem.readNat a n
      let r := s.homeWrite a (leBytes n (amoValue aop (8 * n) old b c))
      r.2.post ⟨.datIo, 0, m.src, line, r.1, leBytes n old⟩
  | _ =>
    let a := line * 128 + m.b
    s.post ⟨.datIo, 0, m.src, line, rd.2,
      if rd.2 = St.ok then s.mem.readBytes a (ofLeBytes m.data) else []⟩

/-- Sends a grant of a line to a requester: field b is the status of the home's copy. -/
def State.grantLine (s : State) (k : MsgKind) (m : Msg) : State :=
  let st := (s.readStatus 0 .engine (m.a * 128)).2
  s.post ⟨k, 0, m.src, m.a, st, if st = St.ok then s.lineBytes m.a else []⟩

/-- Opens a transaction. -/
def State.openTxn (s : State) (m : Msg) (waits : List Nat) (ack : Bool) : State :=
  { s with txns := s.txns.set m.a { req := m, waits := waits, needAck := ack } }

/-- Finishes a request once every answer has arrived (Table 11-5): the entry and the grant, or the operation in
memory. What remains, COMP_ACK for a caching requester, keeps the line BUSY. -/
def State.finish (s : State) (home : Nat) (m : Msg) : State :=
  let line := m.a
  let e : DirEntry := { s.dirEntry line with home := home, set := dirSet line }
  match m.kind with
  | .rdShared =>
    let s := if e.sharers = [] then
        (s.dirSetEntry line { e with owner := some m.src }).grantLine .datE m
      else (s.dirSetEntry line { e with sharers := setInsert e.sharers m.src }).grantLine .datS m
    s.openTxn m [] true
  | .rdUnique =>
    ((s.dirSetEntry line { e with sharers := [], owner := some m.src }).grantLine .datE m).openTxn m [] true
  | .upgrade =>
    let s := s.dirSetEntry line { e with sharers := [], owner := some m.src }
    (if e.sharers.contains m.src then s.post ⟨.grant, home, m.src, line, 0, []⟩ else s.grantLine .datE m).openTxn m [] true
  | .rdOnce => s.perform m
  | _ => (s.dirSetEntry line { e with sharers := [], owner := none }).perform m

/-- Whether a request takes a new directory entry. -/
def allocates (k : MsgKind) : Bool := [MsgKind.rdShared, .rdUnique, .upgrade].contains k

/-- Starts the eviction of the least recently used entry of a full set that is not BUSY (R338). -/
def State.dirEvict (s : State) (home set : Nat) : State :=
  let mine := s.dir.filter fun e => decide (e.2.home = home ∧ e.2.set = set) && !s.busy e.1
  match mine.foldl (fun (b : Option (Nat × DirEntry)) e => match b with
      | none => some e
      | some x => if e.2.used < x.2.used then some e else some x) none with
  | none => s
  | some (line, e) =>
    let s := s.bump (Page.directory home) 3
    let m : Msg := ⟨.snpRecall, home, home, line, 0, []⟩
    match e.owner with
    | some o => (s.snoop home line .snpRecall 0 o).openTxn m [o] false
    | none => (e.sharers.foldl (fun s g => s.snoop home line .snpInv 0 g) s).openTxn m e.sharers false

/-- A home accepts a request for a line that is not BUSY (R342, Table 11-5); none while the request must wait
for a way of its set. -/
def State.accept (s : State) (home : Nat) (m : Msg) : Option State :=
  let line := m.a
  let known := (s.dir.find line).isSome
  if !known ∧ allocates m.kind ∧ 20 ≤ s.dirUsed home (dirSet line) then none
  else
    let s := s.bumpUnits (Page.directory home) 0 1 1024
    let e := s.dirEntry line
    let others := e.sharers.filter (· ≠ m.src)
    some (match m.kind, e.owner with
      | .rdShared, some o => (s.snoop home line .snpFwdS m.src o).openTxn m [o] true
      | .rdUnique, some o => (s.snoop home line .snpFwdU m.src o).openTxn m [o] true
      | .upgrade, some o => (s.snoop home line .snpFwdU m.src o).openTxn m [o] true
      | .rdOnce, some o => (s.snoop home line .snpFwdS m.src o).openTxn m [o] false
      | .rdShared, none => s.finish home m
      | .rdOnce, none => s.finish home m
      | .rdUnique, none =>
        if others = [] then s.finish home m
        else (others.foldl (fun s g => s.snoop home line .snpInv m.src g) s).openTxn m others true
      | .upgrade, none =>
        if others = [] then s.finish home m
        else (others.foldl (fun s g => s.snoop home line .snpInv m.src g) s).openTxn m others true
      | _, some o => (s.snoop home line .snpRecall m.src o).openTxn m [o] false
      | _, none =>
        if e.sharers = [] then s.finish home m
        else (e.sharers.foldl (fun s g => s.snoop home line .snpInv m.src g) s).openTxn m e.sharers false)

/-- Serves the waiting requests whose line is no longer BUSY, in the order in which they arrived (R338, R339). -/
def serveList (home : Nat) : List Msg → List Msg → State → State
  | [], kept, s => { s with dirQueue := kept }
  | m :: ms, kept, s =>
    let hold := s.busy m.a || kept.any fun k => decide (k.a = m.a
      ∨ (dirSet k.a = dirSet m.a ∧ s.homeOf (k.a * 128) = some home ∧ !s.busy k.a))
    if hold ∨ s.homeOf (m.a * 128) ≠ some home then serveList home ms (kept ++ [m]) s
    else match s.accept home m with
      | some s' => serveList home ms kept s'
      | none =>
        let evicting := s.txns.any fun t => decide (t.2.req.kind = .snpRecall ∧ dirSet t.1 = dirSet m.a
          ∧ s.homeOf (t.1 * 128) = some home)
        serveList home ms (kept ++ [m]) (if evicting then s else s.dirEvict home (dirSet m.a))

/-- Serves the requests that wait at a home. -/
def State.serve (s : State) (home : Nat) : State := serveList home s.dirQueue [] s

/-- Answers a request at a home with a status: a grant that brings no line, or a completion (R341). -/
def State.refuseRequest (s : State) (m : Msg) (status : Nat) : State :=
  match m.kind with
  | .wrFull => s.post ⟨.comp, 0, m.src, m.a, status, []⟩
  | .wrPtl => s.post ⟨.comp, 0, m.src, m.a, status, []⟩
  | .rdOnce => s.post ⟨.datIo, 0, m.src, m.a, status, []⟩
  | .atomic => s.post ⟨.datIo, 0, m.src, m.a, status, []⟩
  | .snpRecall => s
  | _ => s.post ⟨.datS, 0, m.src, m.a, status, []⟩

/-- A request reaches its home: it joins the waiting ones in order of arrival, and is served as soon as its line
is not BUSY and a way is free (R338, R339). A request for a line that no directory homes has no effect, and one whose home
has failed completes with DATA_LOST (R579). -/
def State.request (s : State) (m : Msg) : State :=
  let s := s.arrived m.kind m.src m.a
  match s.homeOf (m.a * 128) with
  | some home =>
    if s.stackState home = PS.faulted then s.refuseRequest m St.dataLost else { s with dirQueue := s.dirQueue ++ [m] }.serve home
  | none => s

/-- RD_SHARED (R342). -/
def execRdShared (agent line : Nat) (s : State) : Out :=
  .next (if isCaching agent then s.request ⟨.rdShared, agent, 0, line, 0, []⟩ else s)

/-- RD_UNIQUE (R342). -/
def execRdUnique (agent line : Nat) (s : State) : Out :=
  .next (if isCaching agent then s.request ⟨.rdUnique, agent, 0, line, 0, []⟩ else s)

/-- UPGRADE (R342, R345). -/
def execUpgrade (agent line : Nat) (s : State) : Out :=
  .next (if isCaching agent then s.request ⟨.upgrade, agent, 0, line, 0, []⟩ else s)

/-- RD_PF: the home answers DAT_S and records the sharer only when the line is not OWNED and not BUSY and has an
entry or a free way; otherwise PF_DROP (R360). -/
def execRdPf (agent line : Nat) (s : State) : Out :=
  let s := s.arrived .rdPf agent line
  .next (match s.homeOf (line * 128) with
  | none => s
  | some home =>
    let e : DirEntry := { s.dirEntry line with home := home, set := dirSet line }
    let room := (s.dir.find line).isSome || decide (s.dirUsed home (dirSet line) < 20)
    if isCaching agent ∧ !s.busy line ∧ e.owner = none ∧ room ∧ (s.readStatus 0 .engine (line * 128)).2 = St.ok then
      ((s.bumpUnits (Page.directory home) 0 1 1024).dirSetEntry line
        { e with sharers := setInsert e.sharers agent }).post ⟨.datS, home, agent, line, 0, s.lineBytes line⟩
    else (s.bump (Page.directory home) 5).post ⟨.pfDrop, home, agent, line, 0, []⟩)

/-- RD_ONCE of n bytes at an offset of the line (R342). -/
def execRdOnce (agent line off n : Nat) (s : State) : Out :=
  .next (s.request ⟨.rdOnce, agent, 0, line, off, leBytes 2 n⟩)

/-- WR_FULL (R342). -/
def execWrFull (agent line : Nat) (data : List Byte) (s : State) : Out :=
  .next (if data.length = 128 then s.request ⟨.wrFull, agent, 0, line, 0, data⟩ else s)

/-- WR_PTL with a byte mask (R342). -/
def execWrPtl (agent line mask : Nat) (data : List Byte) (s : State) : Out :=
  .next (if data.length = 128 then s.request ⟨.wrPtl, agent, 0, line, mask, data⟩ else s)

/-- ATOMIC (R201, R342): operation, log2 of its size, offset in the line and operands. -/
def execAtomic (agent line off aop size b c : Nat) (s : State) : Out :=
  .next (s.request ⟨.atomic, agent, 0, line, off,
    [BitVec.ofNat 8 aop, BitVec.ofNat 8 size] ++ leBytes 8 b ++ leBytes 8 c⟩)

/-! ### Answers at the home -/

/-- A transaction that awaits no answer finishes its request; one without COMP_ACK closes, and waiting requests
are served (R339). -/
def State.settle (s : State) (home line : Nat) : State :=
  match s.txns.find line with
  | none => s
  | some t =>
    if t.waits = [] ∧ t.missed = [] then
      let s := { s with txns := s.txns.drop fun k => k == line }
      if t.req.kind = .snpRecall then
        (s.dirSetEntry line { s.dirEntry line with home := home, set := dirSet line, sharers := [], owner := none }).serve home
      else (s.finish home t.req).serve home
    else s

/-- An agent's answer leaves the answers awaited. -/
def DirTxn.answered (t : DirTxn) (agent : Nat) : DirTxn := { t with waits := t.waits.filter (· ≠ agent) }

/-- The entry no longer names an agent. -/
def State.dirRemove (s : State) (line agent : Nat) : State :=
  match s.dir.find line with
  | none => s
  | some e => s.dirSetEntry line
      { e with sharers := e.sharers.filter (· ≠ agent), owner := if e.owner = some agent then none else e.owner }

/-- Whether an entry names an agent. -/
def State.dirNames (s : State) (line agent : Nat) : Bool :=
  decide (agent ∈ (s.dirEntry line).sharers ∨ (s.dirEntry line).owner = some agent)

/-- Whether an eviction message of an agent for a line is in flight. -/
def State.evicting (s : State) (agent line : Nat) : Bool :=
  s.net.any fun m => decide (m.src = agent ∧ m.a = line ∧ (m.kind = .evictClean ∨ (m.kind = .datWb ∧ m.b = 1)))

/-- An answer that says that an agent has no copy any more: where its eviction message is still in flight the
home waits for that first (R344). -/
def State.noCopy (s : State) (home line agent : Nat) (mustWait : Bool) : State :=
  match s.txns.find line with
  | none => s
  | some t =>
    if t.waits.contains agent then
      let t := t.answered agent
      let s := if mustWait then { s with txns := s.txns.set line { t with missed := setInsert t.missed agent } }
        else { s with txns := s.txns.set line t }.dirRemove line agent
      s.settle home line
    else s

/-- INV_ACK (R344). -/
def execInvAck (agent line : Nat) (s : State) : Out :=
  let s := s.arrived .invAck agent line
  .next (match s.homeOf (line * 128) with
  | some home => s.noCopy home line agent (s.evicting agent line && s.dirNames line agent)
  | none => s)

/-- RSP_MISS from an agent that the entry names: the home waits for its eviction message (R344). -/
def execRspMiss (agent line : Nat) (s : State) : Out :=
  let s := s.arrived .rspMiss agent line
  .next (match s.homeOf (line * 128) with
  | some home => (s.bump (Page.directory home) 6).noCopy home line agent (s.dirNames line agent)
  | none => s)

/-- What a forwarding owner's answer makes of the entry (Table 11-5): the requester of RD_SHARED joins the owner
as sharer, that of RD_UNIQUE replaces it, and RD_ONCE leaves the owner a sharer. -/
def State.forwarded (s : State) (home line agent : Nat) : State :=
  match s.txns.find line with
  | none => s
  | some t =>
    if t.waits.contains agent then
      let e := s.dirEntry line
      let e' := match t.req.kind with
        | .rdShared => { e with owner := none, sharers := setInsert (setInsert e.sharers agent) t.req.src }
        | .rdOnce => { e with owner := none, sharers := setInsert e.sharers agent }
        | _ => { e with sharers := [], owner := some t.req.src }
      let s := s.dirSetEntry line e'
      if t.needAck ∧ !t.acked then { s with txns := s.txns.set line (t.answered agent) }
      else { s with txns := s.txns.drop fun k => k == line }.serve home
    else s

/-- FWD_ACK (R342). -/
def execFwdAck (agent line : Nat) (s : State) : Out :=
  let s := s.arrived .fwdAck agent line
  .next (match s.homeOf (line * 128) with
  | some home => s.forwarded home line agent
  | none => s)

/-- An eviction message: the home records it at once, and a transaction that waited for it goes on (R344). -/
def State.evicted (s : State) (home line agent : Nat) : State :=
  let s := s.dirRemove line agent
  match s.txns.find line with
  | none => s
  | some t =>
    { s with txns := s.txns.set line { t with missed := t.missed.filter (· ≠ agent) } }.settle home line

/-- EVICT_CLEAN (R342, R344): the agent holds the line no longer. -/
def execEvictClean (agent line : Nat) (s : State) : Out :=
  let s := (s.arrived .evictClean agent line).setAgent agent line .i
  .next (match s.homeOf (line * 128) with
  | some home => s.evicted home line agent
  | none => s)

/-- DAT_WB: an eviction, or the answer to a forwarding snoop or a recall (R342, R344). The value is the coherent
one already; a write-back to a bay that has lost its cartridge is discarded and counted (R327). -/
def execDatWb (agent line : Nat) (evict : Bool) (s : State) : Out :=
  let s := s.arrived .datWb agent line
  .next (match s.homeOf (line * 128) with
  | none => s
  | some home =>
    let s := match regionOf (line * 128) with
      | .cellar b off =>
        if (s.cellarWrite b off).2 = St.dataLost then
          s.bump (Page.bay b) 5 else s
      | _ => s
    if evict then (s.setAgent agent line .i).evicted home line agent
    else match s.txns.find line with
      | some t => if t.req.kind = .rdShared ∨ t.req.kind = .rdOnce then s.forwarded home line agent
          else s.noCopy home line agent false
      | none => s)

/-- COMP_ACK closes the transaction, and the next waiting request is served (R339). -/
def execCompAck (agent line : Nat) (s : State) : Out :=
  let s := s.arrived .compAck agent line
  .next (match s.homeOf (line * 128), s.txns.find line with
  | some home, some t =>
    if t.needAck ∧ t.req.src = agent then
      if t.waits = [] ∧ t.missed = [] then { s with txns := s.txns.drop fun k => k == line }.serve home
      else { s with txns := s.txns.set line { t with acked := true } }
    else s
  | _, _ => s)

/-! ### Snoops at an agent (Table 11-6) -/

/-- SNP_FWD_S: an owner in M or E sends the line to the requester and keeps S; it writes a dirty line back and
acknowledges a clean one (R343, R521). -/
def execSnpFwdS (agent line req : Nat) (s : State) : Out :=
  let s := s.delivered .snpFwdS agent line
  let k : MsgKind := if isCaching (req % 512) then .datS else .datIo
  let send := fun (s : State) => (s.setAgent agent line .s).post ⟨k, agent, req, line, 0, s.lineBytes line⟩
  .next (match s.agentState agent line with
  | .m => (send s).post ⟨.datWb, agent, 0, line, 0, s.lineBytes line⟩
  | .e => (send s).post ⟨.fwdAck, agent, 0, line, 0, []⟩
  | .s => s
  | .i => s.post ⟨.rspMiss, agent, 0, line, 0, []⟩)

/-- The near-cache's own copy goes with an invalidation, and so does a server core's reservation (R523). -/
def State.dropCopy (s : State) (agent line : Nat) : State :=
  let s := s.setAgent agent line .i
  let s : State := if agent < 256 ∧ (s.srv.get {} agent).resv = some line then
    { s with srv := s.srv.mod {} agent fun c => { c with resv := none } } else s
  if 256 ≤ agent ∧ agent < 328 then s.cacheDrop (agent - 256) line else s

/-- SNP_FWD_U: an owner sends the line with its ownership and invalidates its copy (R343). -/
def execSnpFwdU (agent line req : Nat) (s : State) : Out :=
  let s := s.delivered .snpFwdU agent line
  .next (match s.agentState agent line with
  | .m => ((s.dropCopy agent line).post ⟨.datM, agent, req, line, 0, s.lineBytes line⟩).post ⟨.fwdAck, agent, 0, line, 0, []⟩
  | .e => ((s.dropCopy agent line).post ⟨.datE, agent, req, line, 0, s.lineBytes line⟩).post ⟨.fwdAck, agent, 0, line, 0, []⟩
  | .s => s
  | .i => s.post ⟨.rspMiss, agent, 0, line, 0, []⟩)

/-- SNP_INV (R343, R521). -/
def execSnpInv (agent line : Nat) (s : State) : Out :=
  let s := s.delivered .snpInv agent line
  .next (match s.agentState agent line with
  | .m => s
  | _ => (s.dropCopy agent line).post ⟨.invAck, agent, 0, line, 0, []⟩)

/-- SNP_RECALL (R343). -/
def execSnpRecall (agent line : Nat) (s : State) : Out :=
  let s := s.delivered .snpRecall agent line
  .next (match s.agentState agent line with
  | .m => (s.dropCopy agent line).post ⟨.datWb, agent, 0, line, 0, s.lineBytes line⟩
  | .i => s.post ⟨.rspMiss, agent, 0, line, 0, []⟩
  | _ => (s.dropCopy agent line).post ⟨.invAck, agent, 0, line, 0, []⟩)

/-! ### Grants at the requester -/

/-- Serves a waiting access of a near-cache from a line it now holds: a read at once, a write once the line may
be written (Table 11-2). -/
def State.nearDone (s : State) (r : NearReq) : State :=
  let a := r.line * 128 + r.off
  if r.pref then s
  else if r.data = [] then s.answer St.ok (s.mem.readBytes a r.len)
  else
    let ag := nearAgent r.stack
    if s.agentState ag r.line = .s then { s with nearReqs := s.nearReqs ++ [r] }.post ⟨.upgrade, ag, 0, r.line, 0, []⟩
    else ((s.setAgent ag r.line .m).writeBytes a r.data).answer St.ok []

/-- An agent receives a line: it holds it in the state granted and acknowledges to the home; a near-cache installs
it and serves what waited for it (R342, R278). A DAT_S that answers RD_PF is not acknowledged, and is dropped
where the home names the agent no longer (log row 20). A line whose home answered an error is not installed, and
the waiting accesses end with that status. -/
def State.granted (s : State) (agent line : Nat) (k : MsgKind) (x : LineState) (st : Nat) : State :=
  let s := s.delivered k agent line
  let tracked := match s.txns.find line with
    | some t => t.needAck && decide (t.req.src = agent)
    | none => false
  let s := if tracked then s.post ⟨.compAck, agent, 0, line, 0, []⟩ else s
  if !isCaching agent then s
  else if st ≠ St.ok then
    let mine := s.nearReqs.filter fun r => decide (nearAgent r.stack = agent ∧ r.line = line)
    let s := { s with nearReqs := s.nearReqs.filter fun r => !decide (nearAgent r.stack = agent ∧ r.line = line) }
    let s := s.post ⟨.evictClean, agent, 0, line, 0, []⟩
    if mine = [] then s else s.answer st []
  else if !tracked ∧ !s.dirNames line agent then s
  else
    let s := s.setAgent agent line x
    if 256 ≤ agent then
      let stack := agent - 256
      let mine := s.nearReqs.filter fun r => decide (r.stack = stack ∧ r.line = line)
      let s := { s with nearReqs := s.nearReqs.filter fun r => !decide (r.stack = stack ∧ r.line = line) }
      let s := if (s.nearFind stack line).isSome then s else s.nearInstall stack line (mine.all NearReq.pref)
      mine.foldl State.nearDone s
    else s

/-- DAT_S (R342). -/
def execDatS (agent line status : Nat) (s : State) : Out := .next (s.granted agent line .datS .s status)

/-- DAT_E (R342, R345). -/
def execDatE (agent line status : Nat) (s : State) : Out := .next (s.granted agent line .datE .e status)

/-- DAT_M (R343). -/
def execDatM (agent line status : Nat) (s : State) : Out := .next (s.granted agent line .datM .m status)

/-- GRANT: the requester of UPGRADE owns the line (R345). -/
def execGrant (agent line : Nat) (s : State) : Out := .next (s.granted agent line .grant .e St.ok)

/-- COMP: a non-caching requester's write is done, with its status (R341). -/
def execComp (agent line status : Nat) (s : State) : Out :=
  .next ((s.delivered .comp agent line).answer status [])

/-- DAT_IO: a non-caching requester receives read data, or the old value of an ATOMIC (R341). -/
def execDatIo (agent line status : Nat) (s : State) : Out :=
  let data := match s.net.find? fun m => decide (m.kind = .datIo ∧ m.dst = agent ∧ m.a = line) with
    | some m => m.data
    | none => []
  .next ((s.delivered .datIo agent line).answer status data)

/-- PF_DROP: the prefetch was not served, and nothing waits for it (R360). -/
def execPfDrop (agent line : Nat) (s : State) : Out :=
  let s := s.delivered .pfDrop agent line
  .next { s with nearReqs := s.nearReqs.filter fun r => !(decide (nearAgent r.stack = agent ∧ r.line = line) && r.pref) }

end Sys2Proof.Machine
end

