-- ==== Sys2Proof/Machine/Num.lean ====
section
/-!
DEFINITION. The number formats of chapter 2: decoding, exact arithmetic on decoded values, rounding,
conversion (Table 2-6), block quantisation (R40, R45, R46), the row pass of the arrays (R64 to R67),
stochastic-rounding bits (R52) and the approximations (R157).
-/
namespace Sys2Proof.Machine

/-- A floating-point format of Table 2-1 or 2-2. `maxCode` is the code of the largest finite magnitude,
`infCode` the code of +∞ and `nanCode` the canonical NaN (R34, R35). -/
structure Fmt where
  width : Nat
  mbits : Nat
  bias : Nat
  maxCode : Nat
  infCode : Option Nat
  nanCode : Option Nat
  deriving DecidableEq, Repr

namespace Fmt
/-- binary32 (R31). -/
def fp32 : Fmt := ⟨32, 23, 127, 0x7F7FFFFF, some 0x7F800000, some 0x7FC00000⟩
/-- binary16 (R31). -/
def fp16 : Fmt := ⟨16, 10, 15, 0x7BFF, some 0x7C00, some 0x7E00⟩
/-- Upper half of binary32 (R31). -/
def bf16 : Fmt := ⟨16, 7, 127, 0x7F7F, some 0x7F80, some 0x7FC0⟩
/-- E4M3, Table 2-2 (R35). -/
def e4m3 : Fmt := ⟨8, 3, 7, 0x7E, none, some 0x7F⟩
/-- E5M2, Table 2-2 (R35). -/
def e5m2 : Fmt := ⟨8, 2, 15, 0x7B, some 0x7C, some 0x7E⟩
/-- E2M3, Table 2-2 (R35). -/
def e2m3 : Fmt := ⟨6, 3, 1, 0x1F, none, none⟩
/-- E3M2, Table 2-2 (R35). -/
def e3m2 : Fmt := ⟨6, 2, 3, 0x1F, none, none⟩
/-- E2M1, Table 2-2 (R35). -/
def e2m1 : Fmt := ⟨4, 1, 1, 0x7, none, none⟩
end Fmt

/-- A decoded value: NaN (every NaN is one quiet NaN, R33), a signed infinity, or a sign with the exact
magnitude num / den. -/
inductive FVal where
  | nan
  | inf (neg : Bool)
  | fin (neg : Bool) (num den : Nat)
  deriving DecidableEq, Repr

/-- The magnitude m × 2^e as a fraction. -/
def dyadic (m : Nat) (e : Int) : Nat × Nat :=
  if 0 ≤ e then (m <<< e.toNat, 1) else (m, 1 <<< (-e).toNat)

/-- The value of a code of a format (R32, R33, R35). -/
def Fmt.decode (f : Fmt) (code : Nat) : FVal :=
  let neg := code.testBit (f.width - 1)
  let mag := code % 2 ^ (f.width - 1)
  if some mag = f.infCode then .inf neg
  else if f.maxCode < mag then .nan
  else
    let e := mag >>> f.mbits
    let m := mag % 2 ^ f.mbits
    let p := if e = 0 then dyadic m (1 - f.bias - f.mbits)
             else dyadic (2 ^ f.mbits + m) ((e : Int) - f.bias - f.mbits)
    .fin neg p.1 p.2

/-- floor(log2(n / d)) for n, d > 0. -/
def flog2 (n d : Nat) : Int :=
  let k : Int := (Nat.log2 n : Int) - Nat.log2 d
  let p := dyadic 1 k
  if n * p.2 < d * p.1 then k - 1 else k

/-- Rounding modes of Table 2-5 (R50). -/
inductive Rnd where
  | rne | rtz | rdn | rup | sr
  deriving DecidableEq, Repr

/-- The mode of a 3-bit rounding field; 0b101 to 0b111 are reserved (R50). -/
def Rnd.ofField : Nat → Option Rnd
  | 0 => some .rne
  | 1 => some .rtz
  | 2 => some .rdn
  | 3 => some .rup
  | 4 => some .sr
  | _ => none

/-- Whether a magnitude whose integer part is a and whose rest is rem / den of one step rounds up.
`srBits` are the 24 stochastic bits (R50, R55). -/
def roundsUp (mode : Rnd) (neg : Bool) (srBits a rem den : Nat) : Bool :=
  match mode with
  | .rne => decide (den < 2 * rem) || (decide (den = 2 * rem) && a % 2 == 1)
  | .rtz => false
  | .rdn => neg && decide (0 < rem)
  | .rup => !neg && decide (0 < rem)
  | .sr => decide (2 ^ 24 ≤ rem * 2 ^ 24 / den + srBits)

/-- A flag set of FFLAGS and a count of non-finite values (R60 to R62). -/
structure Flags where
  sat : Bool := false
  nv : Bool := false
  dz : Bool := false
  of : Bool := false
  uf : Bool := false
  nx : Bool := false
  nf : Nat := 0
  deriving DecidableEq, Repr

/-- The union of two flag sets; counts add (R171). -/
def Flags.or (a b : Flags) : Flags :=
  ⟨a.sat || b.sat, a.nv || b.nv, a.dz || b.dz, a.of || b.of, a.uf || b.uf, a.nx || b.nx, a.nf + b.nf⟩

/-- The magnitude code of n / d in a format with the exponent range unbounded above, and whether the
result is inexact. The codes of one format are consecutive across binades. -/
def Fmt.roundMag (f : Fmt) (mode : Rnd) (neg : Bool) (srBits n d : Nat) : Nat × Bool :=
  if n = 0 then (0, false)
  else
    let emin : Int := 1 - f.bias
    let e := flog2 n d
    let e := if e < emin then emin else e
    let q : Int := e - f.mbits
    let p := dyadic 1 q
    let num := n * p.2
    let den := d * p.1
    let a := num / den
    let rem := num % den
    let a := if roundsUp mode neg srBits a rem den then a + 1 else a
    (a + ((e - emin).toNat <<< f.mbits), rem != 0)

/-- The code of a magnitude code with a sign. -/
def Fmt.signed (f : Fmt) (neg : Bool) (mag : Nat) : Nat := if neg then mag + 2 ^ (f.width - 1) else mag

/-- The result of converting a value: its code and the flags it sets. -/
structure Conv where
  code : Nat
  flags : Flags
  deriving DecidableEq, Repr

/-- Whether a finite overflow without saturation goes to infinity under a mode (Table 2-6, R59). -/
def overflowsToInf (mode : Rnd) (neg : Bool) : Bool :=
  match mode with
  | .rne => true
  | .sr => true
  | .rup => !neg
  | .rdn => neg
  | .rtz => false

/-- A finite magnitude n / d rounded into a format under Table 2-6, with its flags (R59, R60). -/
def Fmt.encodeFin (f : Fmt) (mode : Rnd) (sat : Bool) (srBits : Nat) (neg : Bool) (n d : Nat) : Conv :=
  let r := f.roundMag mode neg srBits n d
  if r.1 ≤ f.maxCode then
    ⟨f.signed neg r.1, { uf := r.2 && decide (r.1 < 2 ^ f.mbits), nx := r.2 }⟩
  else
    match f.infCode, f.nanCode with
    | some i, _ =>
      if sat || !overflowsToInf mode neg then ⟨f.signed neg f.maxCode, { sat := true, of := true, nx := true }⟩
      else ⟨f.signed neg i, { of := true, nx := true }⟩
    | none, some c =>
      if sat then ⟨f.signed neg f.maxCode, { sat := true, of := true, nx := true }⟩
      else ⟨c, { of := true, nx := true }⟩
    | none, none => ⟨f.signed neg f.maxCode, { sat := true, of := true, nx := true }⟩

/-- A value converted into a floating-point format under Table 2-6 (R59, R60). -/
def Fmt.encode (f : Fmt) (mode : Rnd) (sat : Bool) (srBits : Nat) : FVal → Conv
  | .fin neg n d => f.encodeFin mode sat srBits neg n d
  | .inf neg =>
    match f.infCode, f.nanCode with
    | some i, _ => if sat then ⟨f.signed neg f.maxCode, { sat := true, nx := true }⟩ else ⟨f.signed neg i, {}⟩
    | none, some c =>
      if sat then ⟨f.signed neg f.maxCode, { sat := true, nv := true, nx := true }⟩ else ⟨c, { nv := true, nx := true }⟩
    | none, none => ⟨f.signed neg f.maxCode, { sat := true, nv := true, nx := true }⟩
  | .nan =>
    match f.nanCode with
    | some c => ⟨c, {}⟩
    | none => ⟨0, { nv := true, nx := true }⟩

/-- A value converted into a two's complement integer of w bits under Table 2-6 (R59, R60). -/
def encodeInt (w : Nat) (mode : Rnd) (srBits : Nat) : FVal → Conv
  | .nan => ⟨0, { nv := true, nx := true }⟩
  | .inf neg =>
    ⟨if neg then 2 ^ (w - 1) else 2 ^ (w - 1) - 1, { nv := true, sat := true, nx := true }⟩
  | .fin neg n d =>
    let a := n / d
    let rem := n % d
    let a := if roundsUp mode neg srBits a rem d then a + 1 else a
    if neg then
      if 2 ^ (w - 1) < a then ⟨2 ^ (w - 1), { nv := true, sat := true, nx := true }⟩
      else ⟨(2 ^ w - a) % 2 ^ w, { nx := rem != 0 }⟩
    else if 2 ^ (w - 1) - 1 < a then ⟨2 ^ (w - 1) - 1, { nv := true, sat := true, nx := true }⟩
    else ⟨a, { nx := rem != 0 }⟩

/-- The value of a two's complement integer of w bits. -/
def intVal (w code : Nat) : FVal :=
  let i := signed w code
  .fin (decide (i < 0)) i.natAbs 1

/-- Whether a value is a NaN or an infinity (R62). -/
def FVal.nonFinite : FVal → Bool
  | .fin _ _ _ => false
  | _ => true

/-- Whether a value is a zero. -/
def FVal.isZero : FVal → Bool
  | .fin _ 0 _ => true
  | _ => false

/-- The signed numerator of a finite value. -/
def signedNum (neg : Bool) (n : Nat) : Int := if neg then -(n : Int) else n

/-- The exact product of two values; none where the product is invalid (R63). -/
def FVal.mul : FVal → FVal → Option FVal
  | .nan, _ => some .nan
  | _, .nan => some .nan
  | .inf a, .inf b => some (.inf (a != b))
  | .inf a, .fin b n _ => if n = 0 then none else some (.inf (a != b))
  | .fin a n _, .inf b => if n = 0 then none else some (.inf (a != b))
  | .fin a n d, .fin b m e => some (.fin (a != b) (n * m) (d * e))

/-- The exact sum of two values; none where the sum is invalid (R63). An exact zero of operands that are
not zeros of one sign is −0 under RDN and +0 otherwise, as IEEE 754 gives (R31). -/
def FVal.add (mode : Rnd) : FVal → FVal → Option FVal
  | .nan, _ => some .nan
  | _, .nan => some .nan
  | .inf a, .inf b => if a = b then some (.inf a) else none
  | .inf a, .fin _ _ _ => some (.inf a)
  | .fin _ _ _, .inf b => some (.inf b)
  | .fin a n d, .fin b m e =>
    let s := signedNum a n * e + signedNum b m * d
    if s = 0 then
      some (.fin (if n = 0 ∧ m = 0 ∧ a = b then a else decide (mode = .rdn)) 0 1)
    else some (.fin (decide (s < 0)) s.natAbs (d * e))

/-- The value with its sign changed. -/
def FVal.negate : FVal → FVal
  | .nan => .nan
  | .inf a => .inf (!a)
  | .fin a n d => .fin (!a) n d

/-- Rounds an exact result into a format; an invalid operation writes the canonical NaN and sets NV (R63,
R152). -/
def Fmt.finish (f : Fmt) (mode : Rnd) (srBits : Nat) (r : Option FVal) : Conv :=
  let c := match r with
    | none => (⟨f.nanCode.getD 0, { nv := true }⟩ : Conv)
    | some v => f.encode mode false srBits v
  ⟨c.code, { c.flags with nf := if (f.decode c.code).nonFinite then 1 else 0 }⟩

/-- a × b + c rounded once (R152). A NaN operand gives NaN without NV (R33, R63). -/
def fmaVal (mode : Rnd) (a b c : FVal) : Option FVal :=
  if a = .nan ∨ b = .nan ∨ c = .nan then some .nan
  else match a.mul b with
    | none => none
    | some p => p.add mode c

/-- a < b for values that are not NaN, zeros equal (R151). -/
def FVal.lt : FVal → FVal → Bool
  | .nan, _ => false
  | _, .nan => false
  | .inf a, .inf b => a && !b
  | .inf a, .fin _ _ _ => a
  | .fin _ _ _, .inf b => !b
  | .fin a n d, .fin b m e => decide (signedNum a n * e < signedNum b m * d)

/-- a = b for values that are not NaN, zeros equal (R151). -/
def FVal.eqv : FVal → FVal → Bool
  | .nan, _ => false
  | _, .nan => false
  | .inf a, .inf b => a == b
  | .inf _, .fin _ _ _ => false
  | .fin _ _ _, .inf _ => false
  | .fin a n d, .fin b m e => decide (signedNum a n * e = signedNum b m * d)

/-- a < b for values that are not NaN, −0 below +0 (R153). -/
def FVal.ltTotal (a b : FVal) : Bool :=
  a.lt b || (a.isZero && b.isZero && (match a, b with
    | .fin true _ _, .fin false _ _ => true
    | _, _ => false))

/-- The minimum or maximum of two values under R153. -/
def FVal.minmax (isMax : Bool) (a b : FVal) : FVal :=
  if a = .nan then b
  else if b = .nan then a
  else if isMax then (if a.ltTotal b then b else a) else (if b.ltTotal a then b else a)

/-! ### Stochastic-rounding bits -/

/-- One round of mix64 (R52). -/
def mixRound (p : Word × Word) : Word × Word :=
  let x := p.2 ^^^ p.1
  let x := x * 0x9E6C63D0676A9A99#64
  let x := x ^^^ (x >>> 31)
  (p.1 + 0x7A315C9EB4D20F87#64, x)

/-- The counter-based generator of R52. -/
def mix64 (k x : Word) : Word := (mixRound (mixRound (mixRound (mixRound (k, x))))).2

/-- The 24 stochastic bits of element e under a key and a sequence count (R52). -/
def srBitsOf (key seq : Word) (e : Nat) : Nat :=
  bits (mix64 key ((seq <<< 8) ||| BitVec.ofNat 64 e)) 63 40

/-! ### Block quantisation -/

/-- The larger of two fractions. -/
def maxFrac (a b : Nat × Nat) : Nat × Nat := if a.1 * b.2 < b.1 * a.2 then b else a

/-- The magnitude of a finite value, zero otherwise. -/
def FVal.mag : FVal → Nat × Nat
  | .fin _ n d => (n, d)
  | _ => (0, 1)

/-- The largest magnitude of a list of values. -/
def blockMax (xs : List FVal) : Nat × Nat := xs.foldl (fun m x => maxFrac m x.mag) (0, 1)

/-- Clamps an integer to a range. -/
def clampInt (lo hi x : Int) : Int := if x < lo then lo else if hi < x then hi else x

/-- One element divided by 2^e × c / 16 and rounded into an element format; a rounded magnitude above the
largest finite writes that value and sets SAT and OF (R40, R45, R46). -/
def quantElem (f : Fmt) (mode : Rnd) (srBits : Nat) (e : Int) (c16 : Nat) (x : FVal) : Conv :=
  match x with
  | .fin neg n d =>
    let p := dyadic 1 (-e)
    let r := f.roundMag mode neg srBits (n * p.1 * 16) (d * p.2 * c16)
    if r.1 ≤ f.maxCode then
      ⟨f.signed neg r.1, { uf := r.2 && decide (r.1 < 2 ^ f.mbits), nx := r.2 }⟩
    else ⟨f.signed neg f.maxCode, { sat := true, of := true, nx := true }⟩
  | _ => ⟨0, {}⟩

/-- A quantised block: scale code, TS4 refinement codes, element codes and flags. -/
structure QBlock where
  scale : Nat
  refine : List Nat
  codes : List Nat
  flags : Flags
  deriving DecidableEq, Repr

/-- Which block format a quantisation writes: plain MX with the exponent of the largest normal, TS4 or G8. -/
inductive BlockKind where
  | mx (emax : Nat)
  | ts4
  | g8
  deriving DecidableEq, Repr

/-- floor(log2(n / d)) raised by one unless n / d is a power of two. -/
def clog2 (n d : Nat) : Int :=
  let k := flog2 n d
  let p := dyadic 1 k
  if n * p.2 = d * p.1 then k else k + 1

/-- The block exponent before its clamp: R40 for plain MX, R45 for TS4, R46 for G8. -/
def blockExp (k : BlockKind) (m : Nat × Nat) : Int :=
  match k with
  | .mx emax => flog2 m.1 m.2 - emax
  | .ts4 => flog2 m.1 (6 * m.2)
  | .g8 => clog2 m.1 (448 * m.2)

/-- The refinement code of a sub-block of largest magnitude m (R45). -/
def refineCode (e : Int) (m : Nat × Nat) : Nat :=
  let p := dyadic 6 e
  let num := 16 * m.1 * p.2
  let den := m.2 * p.1
  let c := (num + den - 1) / den
  if c < 16 then 0 else if 31 < c then 15 else c - 16

/-- Quantises one block under R40 to R46: `sr i` gives the stochastic bits of element i. -/
def quantBlock (f : Fmt) (k : BlockKind) (mode : Rnd) (sr : Nat → Nat) (xs : List FVal) : QBlock :=
  let nf := (xs.filter FVal.nonFinite).length
  let zeros := xs.map fun _ => 0
  let noRef := if k = .ts4 then [0, 0, 0, 0] else []
  if 0 < nf then ⟨0xFF, noRef, zeros, { nv := true, nf := nf }⟩
  else
    let m := blockMax xs
    if m.1 = 0 then ⟨0, noRef, zeros, {}⟩
    else
      let e := clampInt (-127) 127 (blockExp k m)
      let refs := match k with
        | .ts4 => (List.range 4).map fun j => refineCode e (blockMax ((xs.drop (16 * j)).take 16))
        | _ => []
      let cs := xs.zipIdx.map fun p =>
        quantElem f mode (sr p.2) e (if k = .ts4 then 16 + refs.getD (p.2 / 16) 0 else 16) p.1
      ⟨(e + 127).toNat, refs, cs.map Conv.code, cs.foldl (fun a c => a.or c.flags) {}⟩

/-- The value of a block-scaled element: element × 2^(s − 127) × (16 + c) / 16, NaN for scale code 0xFF
(R39, R43). -/
def scaledVal (f : Fmt) (scale refine code : Nat) : FVal :=
  if scale = 0xFF then .nan
  else match f.decode code with
    | .fin neg n d =>
      let p := dyadic 1 ((scale : Int) - 127)
      .fin neg (n * p.1 * (16 + refine)) (d * p.2 * 16)
    | v => v

/-! ### The row pass -/

/-- Truncates a finite product toward zero at 2^q (R65). -/
def truncAt (q : Int) (n d : Nat) : Nat × Nat :=
  let p := dyadic 1 q
  let k := n * p.2 / (d * p.1)
  (k * p.1, p.2)

/-- One row pass in one column (R64 to R67): the accumulator input, the operand pairs, the sum σ of the
block-scale exponents, whether an operand block carries scale code 0xFF, and whether the operands are
BF16. The result is an FP32 code. -/
def rowPass (acc : FVal) (ops : List (FVal × FVal)) (sigma : Int) (badScale bf16Window : Bool) : Nat :=
  let nan := 0x7FC00000
  let prods := ops.map fun p => p.1.mul p.2
  if acc = .nan ∨ badScale = true ∨ ops.any (fun p => p.1 = .nan || p.2 = .nan) = true then nan
  else if prods.any (fun p => p = none) = true then nan
  else
    let vs := prods.filterMap id
    let infs := (acc :: vs).filterMap fun v => match v with | .inf b => some b | _ => none
    match infs with
    | b :: rest => if rest.all (fun c => c == b) then Fmt.fp32.signed b 0x7F800000 else nan
    | [] =>
      let mx := blockMax vs
      let cut := fun (v : FVal) => match v with
        | .fin neg n d =>
          if bf16Window && decide (0 < mx.1) then
            let t := truncAt (flog2 mx.1 mx.2 - 83) n d
            FVal.fin neg t.1 t.2
          else .fin neg n d
        | v => v
      let sum := (vs.map cut).foldl (fun (s : Int × Nat) v => match v with
        | .fin neg n d => (s.1 * d + signedNum neg n * s.2, s.2 * d)
        | _ => s) (0, 1)
      let sc := dyadic 1 sigma
      match acc with
      | .fin aneg an ad =>
        let tot : Int := signedNum aneg an * (sum.2 * sc.2) + sum.1 * sc.1 * ad
        let den := ad * sum.2 * sc.2
        if tot = 0 then
          if aneg && decide (an = 0) && vs.all (fun v => match v with | .fin true 0 _ => true | _ => false)
          then 0x80000000 else 0
        else (Fmt.fp32.encodeFin .rne false 0 (decide (tot < 0)) tot.natAbs den).code
      | _ => nan

/-! ### The approximations of R157 -/

/-- Rounds an exact value to FP32 under RNE and decodes it (R157). -/
def rne32 (v : FVal) : FVal := Fmt.fp32.decode (Fmt.fp32.encode .rne false 0 v).code

/-- a × b + c rounded once to FP32 under RNE (R157). -/
def fma32 (a b c : FVal) : FVal :=
  match fmaVal .rne a b c with
  | some v => rne32 v
  | none => .nan

/-- a × b rounded once to FP32 under RNE. -/
def mul32 (a b : FVal) : FVal :=
  match a.mul b with
  | some v => rne32 v
  | none => .nan

/-- a + b rounded once to FP32 under RNE. -/
def add32 (a b : FVal) : FVal :=
  match a.add .rne b with
  | some v => rne32 v
  | none => .nan

/-- The exact quotient of two finite values, the divisor not zero. -/
def exactDiv : FVal → FVal → FVal
  | .fin a n d, .fin b m e => if m = 0 then .nan else .fin (a != b) (n * e) (d * m)
  | _, _ => .nan

/-- a / b rounded once to FP32 under RNE, with the IEEE 754 results for zero divisors and infinities. -/
def div32 (a b : FVal) : FVal :=
  match a, b with
  | .nan, _ => .nan
  | _, .nan => .nan
  | .inf _, .inf _ => .nan
  | .inf x, .fin y _ _ => .inf (x != y)
  | .fin x _ _, .inf y => .fin (x != y) 0 1
  | .fin x n _, .fin y m _ =>
    if m = 0 then (if n = 0 then .nan else .inf (x != y)) else rne32 (exactDiv a b)

/-- A finite value times 2^k, rounded once to FP32 under RNE where the result is not exact (R157). -/
def scale32 (v : FVal) (k : Int) : FVal :=
  match v with
  | .fin neg n d => let p := dyadic 1 k; rne32 (.fin neg (n * p.1) (d * p.2))
  | v => v

/-- floor(√n), built bit by bit from bit b − 1 down. -/
def isqrtFrom : Nat → Nat → Nat → Nat
  | 0, _, r => r
  | b + 1, n, r => isqrtFrom b n (if (r + 2 ^ b) * (r + 2 ^ b) ≤ n then r + 2 ^ b else r)

/-- floor(√n). -/
def isqrt (n : Nat) : Nat := isqrtFrom (Nat.log2 n / 2 + 1) n 0

/-- √(n / d) as a fraction on which every rounding to a grid of at most 200 bits is exact: an inexact root
is moved to the middle of the step it lies in. -/
def sqrtFrac (n d : Nat) : Nat × Nat :=
  let k := 400
  let q := n * 4 ^ k / d
  let a := isqrt q
  if a * a * d = n * 4 ^ k then (a, 2 ^ k) else (2 * a + 1, 2 ^ (k + 1))

/-- decompose of R157 for a finite non-zero value: exponent and mantissa in [1, 2). -/
def decompose (n d : Nat) : Int × (Nat × Nat) :=
  let e := flog2 n d
  let p := dyadic 1 (-e)
  (e, (n * p.1, d * p.2))

/-- Two Newton steps of vrcp (R157). -/
def rcpStep (m r : FVal) : FVal := fma32 r (fma32 m.negate r (.fin false 1 1)) r

/-- vrcp of R157 for an ordinary FP32 input. -/
def vrcp32 (neg : Bool) (n d : Nat) : FVal :=
  let em := decompose n d
  let m := em.2
  let i := (m.1 - m.2) * 128 / m.2
  let r := rne32 (.fin false 256 (257 + 2 * i))
  let mv := FVal.fin false m.1 m.2
  match scale32 (rcpStep mv (rcpStep mv r)) (-em.1) with
  | .fin _ a b => .fin neg a b
  | .inf _ => .inf neg
  | .nan => .nan

/-- One Newton step of vrsqrt (R157). -/
def rsqrtStep (m r : FVal) : FVal :=
  let d := fma32 m.negate (mul32 r r) (.fin false 1 1)
  fma32 (mul32 (.fin false 1 2) r) d r

/-- vrsqrt of R157 for a positive ordinary FP32 input. -/
def vrsqrt32 (n d : Nat) : FVal :=
  let em := decompose n d
  let odd := em.1 % 2 != 0
  let e := if odd then em.1 - 1 else em.1
  let m := if odd then (2 * em.2.1, em.2.2) else em.2
  let i := (m.1 - m.2) * 64 / m.2
  let t := sqrtFrac 128 (129 + 2 * i)
  let r := rne32 (.fin false t.1 t.2)
  let mv := FVal.fin false m.1 m.2
  scale32 (rsqrtStep mv (rsqrtStep mv r)) (-(e / 2))

/-- floor(ln(2) × 2^256). -/
def ln2Num : Nat := 80260960185991308862233904206310070533990667611589946606122867505419956976171

/-- k!. -/
def factorial : Nat → Nat
  | 0 => 1
  | k + 1 => (k + 1) * factorial k

/-- C[k] of R157. -/
def exp2Coeff (k : Nat) : FVal := rne32 (.fin false (ln2Num ^ k) (2 ^ (256 * k) * factorial k))

/-- A finite value rounded to an integer, ties to even. -/
def roundInt (neg : Bool) (n d : Nat) : Int :=
  let a := n / d
  let a := if roundsUp .rne neg 0 a (n % d) d then a + 1 else a
  signedNum neg a

/-- vexp2 of R157 for an ordinary FP32 input. -/
def vexp232 (neg : Bool) (n d : Nat) : FVal :=
  if !neg && decide (128 * d ≤ n) then .inf false
  else if neg && decide (150 * d < n) then .fin false 0 1
  else
    let k := roundInt neg n d
    let fi : Int := signedNum neg n - k * d
    let f := FVal.fin (decide (fi < 0)) fi.natAbs d
    let p := [6, 5, 4, 3, 2, 1, 0].foldl (fun p k => fma32 p f (exp2Coeff k)) (exp2Coeff 7)
    scale32 p k

/-- D[k] of R157. -/
def log2Coeff (k : Nat) : FVal := rne32 (.fin false (2 * 2 ^ 256) (k * ln2Num))

/-- vlog2 of R157 for a positive ordinary FP32 input. -/
def vlog232 (n d : Nat) : FVal :=
  let em := decompose n d
  let half := !((FVal.fin false em.2.1 em.2.2).lt (Fmt.fp32.decode 0x3FB504F3))
  let e := if half then em.1 + 1 else em.1
  let m := if half then FVal.fin false em.2.1 (2 * em.2.2) else FVal.fin false em.2.1 em.2.2
  let one := FVal.fin false 1 1
  let t := div32 (add32 m one.negate) (add32 m one)
  let z := mul32 t t
  let q := [7, 5, 3, 1].foldl (fun q k => fma32 q z (log2Coeff k)) (log2Coeff 9)
  add32 (.fin (decide (e < 0)) e.natAbs 1) (mul32 t q)

/-- 2^f for f = num / den in [0, 1), as a fraction over 2^256, by 70 terms of the exponential series. -/
def exp2Frac (num den : Nat) : Nat :=
  let y := ln2Num * num / den
  (List.range 70).foldl (fun (s : Nat × Nat) k => (s.1 + s.2, s.2 * y / 2 ^ 256 / (k + 1))) (0, 2 ^ 256) |>.1

/-- 2^x for 16-bit formats, precise enough that its one rounding is the correct one (R154, Table 5-5). -/
def exp2Val (neg : Bool) (n d : Nat) : FVal :=
  if decide (1024 * d ≤ n) then
    (if neg then .fin false 1 (2 ^ 1024) else .fin false (2 ^ 1024) 1)
  else
    let x : Int := signedNum neg n
    let k := x / d
    let f := (x - k * d).toNat
    let p := dyadic 1 k
    if f = 0 then .fin false p.1 p.2 else .fin false (exp2Frac f d * p.1) (2 ^ 256 * p.2)

/-- Bits of log2(m) for m = x / 2^512 in [1, 2), most significant first, by repeated squaring. -/
def log2Bits : Nat → Nat → Nat → Nat
  | 0, _, r => r
  | b + 1, x, r =>
    let y := x * x / 2 ^ 512
    if 2 ^ 513 ≤ y then log2Bits b (y / 2) (2 * r + 1) else log2Bits b y (2 * r)

/-- log2(x) for 16-bit formats, precise enough that its one rounding is the correct one (Table 5-5). -/
def log2Val (n d : Nat) : FVal :=
  let em := decompose n d
  let k := 96
  if em.2.1 = em.2.2 then .fin (decide (em.1 < 0)) em.1.natAbs 1
  else
    let f := log2Bits k (em.2.1 * 2 ^ 512 / em.2.2) 0
    let t : Int := (em.1 * 2 ^ k + f) * 2 + 1
    .fin (decide (t < 0)) t.natAbs (2 ^ (k + 1))

/-- The four approximations. -/
inductive Approx where
  | exp2 | log2 | rcp | rsqrt
  deriving DecidableEq, Repr

/-- The special inputs of an approximation: value and flags of Table 5-6 (R155). -/
def approxSpecial (op : Approx) (x : FVal) : Option (FVal × Flags) :=
  match op, x with
  | _, .nan => some (.nan, {})
  | .exp2, .inf neg => some (if neg then .fin false 0 1 else .inf false, {})
  | .log2, .inf neg => some (if neg then (.nan, { nv := true }) else (.inf false, {}))
  | .rcp, .inf neg => some (.fin neg 0 1, {})
  | .rsqrt, .inf neg => some (if neg then (.nan, { nv := true }) else (.fin false 0 1, {}))
  | .exp2, .fin _ 0 _ => some (.fin false 1 1, {})
  | .log2, .fin _ 0 _ => some (.inf true, { dz := true })
  | .rcp, .fin neg 0 _ => some (.inf neg, { dz := true })
  | .rsqrt, .fin neg 0 _ => some (.inf neg, { dz := true })
  | .log2, .fin true _ _ => some (.nan, { nv := true })
  | .rsqrt, .fin true _ _ => some (.nan, { nv := true })
  | _, _ => none

/-- An approximation of an ordinary FP32 input (R157). -/
def approx32 (op : Approx) (neg : Bool) (n d : Nat) : FVal :=
  match op with
  | .exp2 => vexp232 neg n d
  | .log2 => vlog232 n d
  | .rcp => vrcp32 neg n d
  | .rsqrt => vrsqrt32 n d

/-- An approximation of an ordinary 16-bit input before its one rounding (R154). -/
def approx16 (op : Approx) (neg : Bool) (n d : Nat) : FVal :=
  match op with
  | .exp2 => exp2Val neg n d
  | .log2 => log2Val n d
  | .rcp => .fin neg d n
  | .rsqrt => let p := sqrtFrac d n; .fin false p.1 p.2

/-- One element of an approximation: code and flags (R154 to R157). -/
def approxElem (f : Fmt) (op : Approx) (x : FVal) : Conv :=
  match approxSpecial op x with
  | some (v, fl) =>
    let c := (f.encode .rne false 0 v).code
    ⟨c, { fl with nf := if (f.decode c).nonFinite then 1 else 0 }⟩
  | none =>
    match x with
    | .fin neg n d =>
      let v := if f = Fmt.fp32 then approx32 op neg n d else approx16 op neg n d
      let c := (f.encode .rne false 0 v).code
      let mag := c % 2 ^ (f.width - 1)
      let tooBig := some mag = f.infCode
      ⟨c, { nx := true, uf := decide (mag < 2 ^ f.mbits), of := tooBig, nf := if tooBig then 1 else 0 }⟩
    | _ => ⟨f.nanCode.getD 0, {}⟩

end Sys2Proof.Machine
end

