-- ==== Sys2Proof/Machine/Flags.lean ====
section
/-!
DEFINITION. FFLAGS (Table 2-7, R61, R62, R171): merging the flags of an instruction, the stochastic-rounding
sequence count (R53), and the integer flag of saturation (R148).
-/
namespace Sys2Proof.Machine

/-- FFLAGS with an instruction's flags ORed in and its non-finite count added, saturating (R61, R62, R171). -/
def mergeFlags (fflags : Word) (f : Flags) : Word :=
  let n := bits fflags 63 32 + f.nf
  let low := (fun (b : Bool) (i : Nat) => if b then 1 <<< i else 0)
  let m := low f.sat 5 + low f.nv 4 + low f.dz 3 + low f.of 2 + low f.uf 1 + low f.nx 0
  setBits (fflags ||| BitVec.ofNat 64 m) 63 32 (if 0xFFFFFFFF < n then 0xFFFFFFFF else n)

/-- Raises flags in a core (R171). -/
def Core.raise (k : Core) (f : Flags) : Core := { k with fflags := mergeFlags k.fflags f }

/-- SRSEQ after an instruction whose rounding field selects SR completes (R53). -/
def Core.advanceSr (k : Core) (m : Rnd) : Core :=
  if m = .sr then { k with srseq := (k.srseq + 1) % 2 ^ 48 } else k

/-- The stochastic bits of result element e of the core's current instruction (R52, R54). -/
def Core.srBits (k : Core) (e : Nat) : Nat := srBitsOf k.srkey (BitVec.ofNat 64 k.srseq) e

/-- The sum of a list of flag sets (R171). -/
def sumFlags (fs : List Flags) : Flags := fs.foldl Flags.or {}

end Sys2Proof.Machine
end

