-- ==== Sys2Proof/Machine/Operands.lean ====
section
/-!
DEFINITION. The core instruction word (chapter 6): its fields in the six layouts, the row of the opcode
table that a word belongs to (R182, R183), register and element operands, masks (R144, R185), and the
issue of one instruction with its checks and faults (R75, R86, R93, R184, R191).
-/
namespace Sys2Proof.Machine

/-- The rows of the opcode table that a core's instruction word can belong to (Tables 6-1 to 6-16). -/
inductive CoreRow where
  | aluReg | aluImm | mul | li | lih | branch | jal | jalr
  | vsetvl | vaddVsubVmul | vandVorVxor | vshift | vcmp | vfcmp | klogic | vfaddVfsubVfmulVfma | vfminVfmax
  | vapprox | vcvt | vqMx | vqTs4 | vqG8 | vqG8l | vdq | vred | vperm | vslide | vbcast | vext
  | compress | expand | maskSummary | maxidxMinidx
  | mmaK16n128 | mmaK16n128T | mmaK32n64 | mmaK16n64 | mmaK8n64 | mmaK16n32 | mlw | msw | mrd
  | ldL | stL | vld | vst | ldG | stG | amoG | gatherG | scatterG | xferL | xferS
  | send | recv | sendH | arm
  | nop | bar | twait | syncI | evt | crd | cwr | endProg
  deriving DecidableEq, Repr

namespace Ins
/-- OPC, bits [63:56] of every layout (R181). -/
def opc (w : Word) : Nat := bits w 63 56
/-- Bits [55:51]: XD, D, DR. -/
def d (w : Word) : Nat := bits w 55 51
/-- Bits [50:46]: XA, A. -/
def a (w : Word) : Nat := bits w 50 46
/-- Bits [45:41]: XB, B. -/
def b (w : Word) : Nat := bits w 45 41
/-- Bits [40:36]: C, XC. -/
def c (w : Word) : Nat := bits w 40 36
/-- FN of layout S, bits [39:32] (Table 6-3). -/
def fnS (w : Word) : Nat := bits w 39 32
/-- IMM32 sign-extended (Table 6-3). -/
def imm32 (w : Word) : Word := sext 32 w.toNat
/-- MSEL, bits [35:32] (R185). -/
def msel (w : Word) : Nat := bits w 35 32
/-- POL, bit 31. -/
def pol (w : Word) : Bool := bit w 31
/-- RND of layout V, bits [30:28]. -/
def rnd (w : Word) : Nat := bits w 30 28
/-- SAT of layout V, bit 27. -/
def sat (w : Word) : Bool := bit w 27
/-- VS, bit 26. -/
def vs (w : Word) : Bool := bit w 26
/-- FS, bits [25:21]. -/
def fs (w : Word) : Nat := bits w 25 21
/-- FD, bits [20:16]. -/
def fd (w : Word) : Nat := bits w 20 16
/-- FN of layout V, bits [15:8]. -/
def fnV (w : Word) : Nat := bits w 15 8
/-- IMM8, bits [7:0]. -/
def imm8 (w : Word) : Nat := bits w 7 0
/-- HINT of layout L, bits [30:29]. -/
def hint (w : Word) : Nat := bits w 30 29
/-- SH, bits [28:27]. -/
def sh (w : Word) : Nat := bits w 28 27
/-- SIZE, bits [26:25]. -/
def size (w : Word) : Nat := bits w 26 25
/-- SGN, bit 24. -/
def sgn (w : Word) : Bool := bit w 24
/-- TK of layout L, bits [23:20]. -/
def tk (w : Word) : Nat := bits w 23 20
/-- AOP, bits [19:16]. -/
def aop (w : Word) : Nat := bits w 19 16
/-- IMM16 sign-extended. -/
def imm16 (w : Word) : Word := sext 16 w.toNat
/-- TK of layout T, bits [40:37]. -/
def tkT (w : Word) : Nat := bits w 40 37
/-- PORT, bits [36:34]. -/
def port (w : Word) : Nat := bits w 36 34
end Ins

/-- Opcodes that version 0x1100 assigns (Table 6-1, R182). -/
def opcAssigned (o : Nat) : Bool :=
  [0x01, 0x02, 0x03, 0x04, 0x05, 0x08, 0x09, 0x0A,
   0x20, 0x21, 0x22, 0x23, 0x24, 0x25, 0x26, 0x28, 0x29, 0x2A, 0x2C, 0x2D, 0x30, 0x31, 0x32, 0x33,
   0x60, 0x61, 0x62, 0x63, 0x64, 0x65, 0x68, 0x69, 0x6A,
   0x80, 0x81, 0x82, 0x83, 0x88, 0x89, 0x8A, 0x8C, 0x8D, 0x90, 0x91,
   0xA0, 0xA1, 0xA2, 0xA3, 0xC0, 0xC1, 0xC2, 0xC3, 0xC4, 0xC5, 0xC6, 0xC7].contains o

/-- The largest assigned FN of an opcode whose layout has FN; none where the layout has no FN (Tables 6-4
and 6-6). -/
def maxFn (o : Nat) : Option Nat :=
  match o with
  | 0x01 => some 0x0D | 0x02 => some 0x0D | 0x03 => some 2 | 0x04 => some 0 | 0x05 => some 0
  | 0x08 => some 5 | 0x09 => some 0 | 0x0A => some 0
  | 0x20 => some 0 | 0x21 => some 8 | 0x22 => some 3 | 0x23 => some 4 | 0x24 => some 5 | 0x25 => some 6
  | 0x26 => some 4 | 0x28 => some 5 | 0x29 => some 3 | 0x2A => some 0 | 0x2C => some 3 | 0x2D => some 0
  | 0x30 => some 2 | 0x31 => some 4 | 0x32 => some 1 | 0x33 => some 5
  | _ => none

/-- FN of a word, by its layout. -/
def Ins.fn (w : Word) : Nat := if Ins.opc w < 0x20 then Ins.fnS w else Ins.fnV w

/-- Check 1 of Table 6-2: OPC assigned, FN assigned for that OPC (R183). -/
def fnAssigned (w : Word) : Bool :=
  opcAssigned (Ins.opc w) && match maxFn (Ins.opc w) with
    | some m => decide (Ins.fn w ≤ m)
    | none => true

/-- The row a word belongs to. A word with an unassigned OPC belongs to ALU_REG, and one with an unassigned
FN to the first row of its OPC; both fault at check 1 (R183). -/
def rowOf (w : Word) : CoreRow :=
  let f := Ins.fnV w
  match Ins.opc w with
  | 0x02 => .aluImm | 0x03 => .mul | 0x04 => .li | 0x05 => .lih | 0x08 => .branch | 0x09 => .jal | 0x0A => .jalr
  | 0x20 => .vsetvl | 0x21 => .vaddVsubVmul | 0x22 => .vandVorVxor | 0x23 => .vshift | 0x24 => .vcmp
  | 0x25 => .vfcmp | 0x26 => .klogic
  | 0x28 => if f = 4 ∨ f = 5 then .vfminVfmax else .vfaddVfsubVfmulVfma
  | 0x29 => .vapprox | 0x2A => .vcvt
  | 0x2C => if f = 1 then .vqTs4 else if f = 2 then .vqG8 else if f = 3 then .vqG8l else .vqMx
  | 0x2D => .vdq | 0x30 => .vred
  | 0x31 => if f = 1 ∨ f = 2 then .vslide else if f = 3 then .vbcast else if f = 4 then .vext else .vperm
  | 0x32 => if f = 1 then .expand else .compress
  | 0x33 => if f = 4 ∨ f = 5 then .maxidxMinidx else .maskSummary
  | 0x60 => .mmaK16n128 | 0x61 => .mmaK16n128T | 0x62 => .mmaK32n64 | 0x63 => .mmaK16n64 | 0x64 => .mmaK8n64
  | 0x65 => .mmaK16n32 | 0x68 => .mlw | 0x69 => .msw | 0x6A => .mrd
  | 0x80 => .ldL | 0x81 => .stL | 0x82 => .vld | 0x83 => .vst | 0x88 => .ldG | 0x89 => .stG | 0x8A => .amoG
  | 0x8C => .gatherG | 0x8D => .scatterG | 0x90 => .xferL | 0x91 => .xferS
  | 0xA0 => .send | 0xA1 => .recv | 0xA2 => .sendH | 0xA3 => .arm
  | 0xC0 => .nop | 0xC1 => .bar | 0xC2 => .twait | 0xC3 => .syncI | 0xC4 => .evt | 0xC5 => .crd | 0xC6 => .cwr
  | 0xC7 => .endProg
  | _ => .aluReg

/-! ### Registers -/

/-- A scalar register; x0 reads zero (R70). -/
def Core.rx (k : Core) (i : Nat) : Word := if i = 0 then 0 else k.x.get 0 i

/-- Writes a scalar register; writes to x0 are discarded (R70). -/
def Core.wx (k : Core) (i : Nat) (v : Word) : Core := if i = 0 then k else { k with x := k.x.set i v }

/-- A vector register. -/
def Core.rv (k : Core) (i : Nat) : BitVec 2048 := k.v.get 0 i

/-- Writes a vector register. -/
def Core.wv (k : Core) (i : Nat) (v : BitVec 2048) : Core := { k with v := k.v.set i v }

/-- A mask register. -/
def Core.rk (k : Core) (i : Nat) : BitVec 256 := k.k.get 0 i

/-- Writes a mask register. -/
def Core.wk (k : Core) (i : Nat) (v : BitVec 256) : Core := { k with k := k.k.set i v }

/-- Element width in bits of VTYPE.EW (Table 5-2). -/
def ewBits (ew : Nat) : Nat := if ew = 0 then 8 else if ew = 1 then 16 else 32

/-- Current element width (R139). -/
def Core.ew (k : Core) : Nat := ewBits k.vtype

/-- VLMAX at the current element width (R140). -/
def Core.vlmax (k : Core) : Nat := 2048 / k.ew

/-- Whether a mask selector encoding is reserved (R185). -/
def mselReserved (m : Nat) : Bool := decide (m ≠ 0 ∧ m < 8)

/-- Whether element i is active under a mask selector (R144). -/
def Core.active (k : Core) (msel i : Nat) : Bool :=
  if msel = 0 then true else (k.rk (msel % 8)).getLsbD i

/-- Element i of a vector register at a width. -/
def Core.elem (k : Core) (r w i : Nat) : Nat := Machine.elem (k.rv r).toNat w i

/-- Packs elements of width w into a vector register (R139). -/
def packV (w : Nat) (es : List Nat) : BitVec 2048 := BitVec.ofNat 2048 (packElems w es)

/-- The element-wise scheme of layout V: new elements, tail and inactive elements (R142, R145). -/
def Core.mapV (k : Core) (dst w vl msel : Nat) (zero : Bool) (f : Nat → Nat) : BitVec 2048 :=
  packV w ((List.range (2048 / w)).map fun i =>
    if vl ≤ i then k.elem dst w i
    else if k.active msel i then f i
    else if zero then 0 else k.elem dst w i)

/-- The element-wise scheme for a destination mask register (R142, R145, R151). -/
def Core.mapK (k : Core) (dst vl msel : Nat) (zero : Bool) (f : Nat → Bool) : BitVec 256 :=
  BitVec.ofNat 256 (packElems 1 ((List.range 256).map fun i =>
    let old := ((k.rk dst).getLsbD i).toNat
    if vl ≤ i then old
    else if k.active msel i then (f i).toNat
    else if zero then 0 else old))

/-- The active element indices below vl, rising (R144). -/
def Core.activeIdx (k : Core) (vl msel : Nat) : List Nat := (List.range vl).filter fun i => k.active msel i

/-! ### Issue -/

/-- What happens when an instruction's checks and its effect have been worked out: it is held (R75), it
faults with a cause, status, index and address (R98), or it is done, with the next state and next PC. -/
inductive Issue where
  | held
  | fault (cause status index faddr : Nat)
  | done (s : State) (pc : Nat)
  deriving DecidableEq, Repr

/-- ILLEGAL_INSTRUCTION (Table 3-10). -/
def Issue.il : Issue := .fault 0x01 St.internal 0xFFFF 0
/-- LS_RANGE at an address. -/
def Issue.lr (a : Nat) : Issue := .fault 0x02 St.permissionFault 0xFFFF a
/-- LS_MISALIGNED at an address. -/
def Issue.lm (a : Nat) : Issue := .fault 0x03 St.permissionFault 0xFFFF a
/-- PORT_UNCONNECTED. -/
def Issue.pu : Issue := .fault 0x04 St.permissionFault 0xFFFF 0
/-- GLOBAL_ACCESS alignment fault at an address (check 7). -/
def Issue.ga (a : Nat) : Issue := .fault 0x05 St.permissionFault 0xFFFF a
/-- CORE_DATA at an address (R85). -/
def Issue.cd (a : Nat) : Issue := .fault 0x07 St.dataUncorrectable 0xFFFF a

/-- The word at PC, if its 64 B line is in the instruction buffer (R86, R181). -/
def Core.fetched (k : Core) : Option Word :=
  match k.ibuf.find? fun l => l.1 = k.pc / 64 with
  | some l => some (BitVec.ofNat 64 (Machine.elem l.2.toNat 64 (k.pc % 64 / 8)))
  | none => none

/-- The buffer with the line of PC used most recently (R86). -/
def touchLine (ibuf : List (Nat × BitVec 512)) (line : Nat) : List (Nat × BitVec 512) :=
  ibuf.filter (fun l => l.1 = line) ++ ibuf.filter (fun l => l.1 ≠ line)

/-- Whether a core stands at a cheap point at which a pre-emption stops it (R416). -/
def Core.atCheapStop (k : Core) : Bool := k.cheapStop.contains k.pc

/-- Whether a core may issue: it runs a task, its program has not ended, and nothing holds its issue. -/
def Core.canIssue (k : Core) : Bool :=
  decide (k.status = .running) && !k.ended && decide (k.wait = .none) && !k.atCheapStop

/-- Stops a core with a fault: it issues nothing further, and its fault record is written (R93, R98, R100).
A precise fault leaves PC at the faulting instruction. -/
def Core.stopWith (k : Core) (f : FaultRec) : Core := 
  { k with status := .stopped, fault := f, wait := .none, lastCause := if f.cause = 0 then k.lastCause else f.cause }

/-- The rule of the last address: an instruction at 0x3_FFF8 must be a taken branch, JAL, JALR or END. Any
other one is LS_RANGE, checked after the ILLEGAL_INSTRUCTION checks (R184, R191). -/
def lastAddress (pc : Nat) (row : CoreRow) (r : Issue) : Issue :=
  if pc = 0x3FFF8 then
    match r with
    | .held => .held
    | .fault cause st ix fa =>
      if cause = 1 ∨ row = .branch ∨ row = .jal ∨ row = .jalr ∨ row = .endProg then .fault cause st ix fa else .lr pc
    | .done s' pc' =>
      if row = .endProg ∨ row = .jal ∨ row = .jalr ∨ (row = .branch ∧ pc' ≠ 0x40000) then .done s' pc' else .lr pc
  else r

/-- The outcome of an issue applied: a held instruction changes nothing, a precise fault stops the core
with its fault record (R93, R98), and a done instruction moves PC and the line's use (R86). -/
def State.applyIssue (s : State) (c : Nat) (w : Word) (r : Issue) : State :=
  let k := s.core c
  match r with
  | .held => s
  | .fault cause st ix fa => s.setCore c (k.stopWith ⟨cause, st, ix, k.pc, fa, w⟩)
  | .done s' pc => s'.modCore c fun k' =>
      { k' with pc := pc, ibuf := touchLine k'.ibuf (k.pc / 64), seq := k.seq + 1 }

/-- The core issues the instruction at its PC, provided that it may issue, that the instruction has been
fetched and that it belongs to the given row; otherwise nothing happens (log row 5). `sem` works out the
checks 2 to 7 of Table 6-2 and the effect (R75, R184). -/
def State.issue (s : State) (c : Nat) (row : CoreRow) (sem : Core → Word → Issue) : State :=
  let k := s.core c
  match k.fetched with
  | none => s
  | some w =>
    if k.canIssue && decide (rowOf w = row) then
      s.applyIssue c w (if fnAssigned w then lastAddress k.pc row (sem k w) else .il)
    else s

/-- A row whose effect is on the core's own registers: the next PC is PC + 8. -/
def coreDone (s : State) (c : Nat) (k : Core) : Issue := .done (s.setCore c k) (k.pc + 8)

end Sys2Proof.Machine
end

