-- ==== Sys2Proof/Machine/VectorOps.lean ====
section
/-!
DEFINITION. What the vector instructions share: mask permission (R145, R147, R185), reserved fields, the
formats of FS and FD (R187, R193), operand B (R192), and writing elements with their flags (R142, R171).
-/
namespace Sys2Proof.Machine

/-- Whether field [hi:lo] is zero, as a reserved field must be (R184 check 2). -/
def zf (w : Word) (hi lo : Nat) : Bool := bits w hi lo = 0

/-- A maskable instruction with policy: no reserved selector, and POL zero without a mask (R145, R185). -/
def maskPolicy (w : Word) : Bool := !mselReserved (Ins.msel w) && (decide (Ins.msel w ≠ 0) || !Ins.pol w)

/-- An instruction that takes no mask (R147, R185). -/
def maskNone (w : Word) : Bool := decide (Ins.msel w = 0) && !Ins.pol w

/-- An instruction whose mask only selects: POL must be zero (Table 5-4). -/
def maskSelects (w : Word) : Bool := !mselReserved (Ins.msel w) && !Ins.pol w

/-- An instruction whose mask must be named, with policy (Table 5-4). -/
def maskNamed (w : Word) : Bool := decide (8 ≤ Ins.msel w)

/-- The floating-point format of a format code, FP32 being 0x12 (Table 4-2, R187). -/
def fmtOfCode : Nat → Option Fmt
  | 0x01 => some .e4m3
  | 0x02 => some .e5m2
  | 0x03 => some .e2m3
  | 0x04 => some .e3m2
  | 0x08 => some .e2m1
  | 0x10 => some .bf16
  | 0x11 => some .fp16
  | 0x12 => some .fp32
  | _ => none

/-- The integer width of an integer format code (Table 4-2). -/
def intOfCode : Nat → Option Nat
  | 0x05 => some 8
  | 0x0A => some 4
  | _ => none

/-- Element width in bits of a format code; FP6 counts as 8 (R158). -/
def codeWidth (code : Nat) : Nat :=
  if code = 0x12 then 32 else if code = 0x10 ∨ code = 0x11 then 16 else if 0x08 ≤ code then 4 else 8

/-- The format of FS of a floating-point vector instruction under the current element width (R193). -/
def vecFmt (k : Core) (w : Word) : Option Fmt :=
  if Ins.fs w = 0x12 ∧ k.vtype = 2 then some .fp32
  else if Ins.fs w = 0x10 ∧ k.vtype = 1 then some .bf16
  else if Ins.fs w = 0x11 ∧ k.vtype = 1 then some .fp16
  else none

/-- Operand B of element i: vb, or the low EW bits of xb when VS = 1 (R192). -/
def operandB (k : Core) (w : Word) (i : Nat) : Nat :=
  if Ins.vs w then (k.rx (Ins.b w)).toNat % 2 ^ k.ew else k.elem (Ins.b w) k.ew i

/-- An element-wise vector instruction: active elements below VL are computed with their flags, the flags
of the active elements are merged into FFLAGS, and the others follow R142 and R145 (R171). -/
def elementwise (s : State) (c : Nat) (k : Core) (w : Word) (f : Nat → Conv) : Issue :=
  let fl := sumFlags ((k.activeIdx k.vl (Ins.msel w)).map fun i => (f i).flags)
  let v := k.mapV (Ins.d w) k.ew k.vl (Ins.msel w) (Ins.pol w) fun i => (f i).code
  coreDone s c ((k.wv (Ins.d w) v).raise fl)

/-- A compare: one mask bit per element (R151). -/
def compareInto (s : State) (c : Nat) (k : Core) (w : Word) (f : Nat → Bool) : Issue :=
  coreDone s c (k.wk (Ins.d w) (k.mapK (Ins.d w) k.vl (Ins.msel w) (Ins.pol w) f))

end Sys2Proof.Machine
end

