-- ==== Sys2Proof/Machine/VectorFloat.lean ====
section
/-!
DEFINITION. Floating-point vector arithmetic, minimum and maximum, the approximations and conversions
(R152 to R159, R192, R193).
-/
namespace Sys2Proof.Machine

/-- One element of VFADD, VFSUB, VFMUL or VFMA, rounded once (R152, R63). -/
def fpElem (f : Fmt) (fn : Nat) (m : Rnd) (sr : Nat) (a b c : FVal) : Conv :=
  let r := match fn with
    | 0 => a.add m b
    | 1 => a.add m b.negate
    | 2 => a.mul b
    | _ => fmaVal m a b c
  f.finish m sr r

/-- OPC 0x28, FN 0 to 3: C is reserved except in VFMA (R192). -/
def semVfaddVfsubVfmulVfma (s : State) (c : Nat) (k : Core) (w : Word) : Issue :=
  match vecFmt k w, Rnd.ofField (Ins.rnd w) with
  | some f, some m =>
    if k.vstart ≠ 0 ∨ !maskPolicy w ∨ (Ins.fnV w ≠ 3 ∧ Ins.c w ≠ 0) ∨ !zf w 27 27 ∨ !zf w 20 16 ∨ !zf w 7 0 then .il
    else
      elementwise s c (k.advanceSr m) w fun i =>
        fpElem f (Ins.fnV w) m (k.srBits i) (f.decode (k.elem (Ins.a w) k.ew i)) (f.decode (operandB k w i))
          (f.decode (k.elem (Ins.c w) k.ew i))
  | _, _ => .il

/-- VFADD_VFSUB_VFMUL_VFMA (R152). -/
def execVfaddVfsubVfmulVfma (c : Nat) (s : State) : Out :=
  .next (s.issue c .vfaddVfsubVfmulVfma (semVfaddVfsubVfmulVfma s c))

/-- A value rewritten in its own format, NaN canonical, counted when it is not finite (R34, R62, R153). -/
def fpCopy (f : Fmt) (v : FVal) : Conv :=
  let c := (f.encode .rne false 0 v).code
  ⟨c, { nf := if v.nonFinite then 1 else 0 }⟩

/-- VFMIN and VFMAX, FN 4 and 5 (R153). -/
def semVfminVfmax (s : State) (c : Nat) (k : Core) (w : Word) : Issue :=
  match vecFmt k w with
  | none => .il
  | some f =>
    if k.vstart ≠ 0 ∨ !maskPolicy w ∨ !zf w 40 36 ∨ !zf w 30 27 ∨ !zf w 20 16 ∨ !zf w 7 0 then .il
    else elementwise s c k w fun i =>
      fpCopy f (FVal.minmax (Ins.fnV w = 5) (f.decode (k.elem (Ins.a w) k.ew i)) (f.decode (operandB k w i)))

/-- VFMIN_VFMAX (R153). -/
def execVfminVfmax (c : Nat) (s : State) : Out := .next (s.issue c .vfminVfmax (semVfminVfmax s c))

/-- The approximation of an FN of OPC 0x29 (Table 6-6). -/
def approxOf : Nat → Approx
  | 0 => .exp2
  | 1 => .log2
  | 2 => .rcp
  | _ => .rsqrt

/-- OPC 0x29: the rounding field is reserved (R154). -/
def semVapprox (s : State) (c : Nat) (k : Core) (w : Word) : Issue :=
  match vecFmt k w with
  | none => .il
  | some f =>
    if k.vstart ≠ 0 ∨ !maskPolicy w ∨ !zf w 45 36 ∨ !zf w 30 26 ∨ !zf w 20 16 ∨ !zf w 7 0 then .il
    else elementwise s c k w fun i => approxElem f (approxOf (Ins.fnV w)) (f.decode (k.elem (Ins.a w) k.ew i))

/-- VAPPROX (R157). -/
def execVapprox (c : Nat) (s : State) : Out := .next (s.issue c .vapprox (semVapprox s c))

/-- The value of a code of a VCVT format. -/
def decodeCode (fmtCode code : Nat) : FVal :=
  match fmtOfCode fmtCode, intOfCode fmtCode with
  | some f, _ => f.decode (code % 2 ^ f.width)
  | none, some w => intVal w code
  | none, none => .nan

/-- A value converted into a VCVT or MRD format under Table 2-6; non-finite results count (R59, R60, R62). -/
def encodeCode (fmtCode : Nat) (m : Rnd) (sat : Bool) (sr : Nat) (v : FVal) : Conv :=
  match fmtOfCode fmtCode, intOfCode fmtCode with
  | some f, _ =>
    let r := f.encode m sat sr v
    ⟨r.code, { r.flags with nf := if (f.decode r.code).nonFinite then 1 else 0 }⟩
  | none, some w => encodeInt w m sr v
  | none, none => ⟨0, {}⟩

/-- The format codes VCVT accepts (R193). -/
def cvtCode (c : Nat) : Bool := [0x01, 0x02, 0x03, 0x04, 0x05, 0x08, 0x0A, 0x10, 0x11, 0x12].contains c

/-- VCVT with part index P in IMM8[2:0] (R158, R159, R193). -/
def semVcvt (s : State) (c : Nat) (k : Core) (w : Word) : Issue :=
  let ws := codeWidth (Ins.fs w)
  let wd := codeWidth (Ins.fd w)
  let wide := max ws wd
  let p := bits w 2 0
  match Rnd.ofField (Ins.rnd w) with
  | none => .il
  | some m =>
    if k.vstart ≠ 0 ∨ !maskPolicy w ∨ !zf w 45 36 ∨ !zf w 26 26 ∨ !zf w 7 3 ∨ !cvtCode (Ins.fs w) ∨ !cvtCode (Ins.fd w)
        ∨ Ins.fs w = Ins.fd w ∨ ((intOfCode (Ins.fs w)).isSome ∧ (intOfCode (Ins.fd w)).isSome)
        ∨ (wd = 4 ∧ m = .sr) ∨ wide / (min ws wd) ≤ p then .il
    else
      let n := min k.vl (2048 / wide)
      let soff := if ws < wd then p * (2048 / wd) else 0
      let doff := if wd < ws then p * (2048 / ws) else 0
      let f := fun i => encodeCode (Ins.fd w) m (Ins.sat w) (k.srBits (doff + i))
        (decodeCode (Ins.fs w) (k.elem (Ins.a w) ws (soff + i)))
      let v := packV wd ((List.range (2048 / wd)).map fun j =>
        let old := k.elem (Ins.d w) wd j
        if j < doff ∨ doff + n ≤ j then old
        else if k.active (Ins.msel w) (j - doff) then (f (j - doff)).code
        else if Ins.pol w then 0 else old)
      let fl := sumFlags ((k.activeIdx n (Ins.msel w)).map fun i => (f i).flags)
      coreDone s c (((k.advanceSr m).wv (Ins.d w) v).raise fl)

/-- VCVT (R158). -/
def execVcvt (c : Nat) (s : State) : Out := .next (s.issue c .vcvt (semVcvt s c))

end Sys2Proof.Machine
end

