-- ==== Sys2Proof/Machine/Matrix.lean ====
section
/-!
DEFINITION. The matrix instructions MMA, MLW, MSW and MRD, the matrix queue and the row passes (R64 to R67,
R106 to R131, R194 to R196), and what guards local store and accumulators (R77 to R79).
-/
namespace Sys2Proof.Machine

/-! ### The MMA word and its operands (Tables 4-5 and 6-7) -/

/-- The MMA shapes of Table 4-12. -/
inductive Shape where
  | k16n128 | k16n128t | k32n64 | k16n64 | k8n64 | k16n32
  deriving DecidableEq, Repr

/-- The shape of an MMA word; none for a word that is no MMA (Table 6-8). -/
def shapeOf (w : Word) : Option Shape :=
  match Ins.opc w with
  | 0x60 => some .k16n128
  | 0x61 => some .k16n128t
  | 0x62 => some .k32n64
  | 0x63 => some .k16n64
  | 0x64 => some .k8n64
  | 0x65 => some .k16n32
  | _ => none

namespace Mma
/-- AFMT. -/
def afmt (w : Word) : Nat := bits w 45 41
/-- WFMT. -/
def wfmt (w : Word) : Nat := bits w 40 36
/-- ASC: the activation is SCALED. -/
def asc (w : Word) : Bool := bit w 35
/-- WSC: the weights are SCALED. -/
def wsc (w : Word) : Bool := bit w 34
/-- ACC. -/
def acc (w : Word) : Bool := bit w 33
/-- SRC: 0 local store, 1 to 4 a receive FIFO. -/
def src (w : Word) : Nat := bits w 32 30
/-- SEL: the array or accumulator. -/
def sel (w : Word) : Nat := bits w 29 29
/-- M of OPB. -/
def m (opb : Word) : Nat := bits opb 16 8
/-- ROW0 of OPB. -/
def row0 (opb : Word) : Nat := bits opb 7 0
/-- SIDE of OPB. -/
def side (opb : Word) : Nat := bits opb 49 32
/-- HALF of OPB. -/
def half (opb : Word) : Bool := bit opb 17
end Mma

/-- Whether an operand format takes this SCALED setting (Table 4-3, R108). -/
def scaledOk (fmt : Nat) (sc : Bool) : Bool :=
  if fmt = 0x09 then sc
  else if (1 ≤ fmt ∧ fmt ≤ 4) ∨ fmt = 0x08 then true
  else !sc

/-- Whether weight and activation formats form a permitted pair (Table 4-3, R108). -/
def pairOk (wf af : Nat) : Bool :=
  if 1 ≤ wf ∧ wf ≤ 4 then decide (1 ≤ af ∧ af ≤ 4)
  else if wf = 0x08 ∨ wf = 0x09 then decide (af = 0x08 ∨ af = 0x09)
  else if wf = 0x05 ∨ wf = 0x0A ∨ wf = 0x10 ∨ wf = 0x11 then decide (af = wf)
  else false

/-- Bits per element of a matrix format (Table 4-1). -/
def matWidth (f : Nat) : Nat := if f = 0x10 ∨ f = 0x11 then 16 else if 0x08 ≤ f ∧ f ≤ 0x0A then 4 else 8

/-- Bytes of one activation row (R113). -/
def rowBytes : Shape → Nat
  | .k8n64 => 8
  | .k32n64 => 32
  | _ => 16

/-- Side bytes of one activation row (Table 4-4). -/
def sideBytes (sh : Shape) (w : Word) : Nat :=
  if !Mma.asc w then 0
  else if Mma.afmt w = 0x09 then 3
  else if Mma.afmt w = 0x08 then (if sh = .k32n64 then 2 else 1)
  else 1

/-- The arrays a shape uses (Table 4-12). -/
def arraysOf (sh : Shape) (w : Word) : List Nat :=
  match sh with
  | .k16n128 => [0, 1]
  | .k16n128t => [0, 1]
  | .k32n64 => [0, 1]
  | _ => [Mma.sel w]

/-- The accumulators a shape writes (Table 4-12). -/
def accsOf (sh : Shape) (w : Word) : List Nat :=
  match sh with
  | .k16n128 => [0, 1]
  | .k16n128t => [0, 1]
  | _ => [Mma.sel w]

/-! ### Banks -/

/-- Key of bank Wa.b. -/
def bankKey (a b : Nat) : Nat := 2 * a + b

/-- The bank of an array that ACTIVE names (R123). -/
def Core.activeBank (k : Core) (a : Nat) : Nat := if (k.wbank.get {} (bankKey a 1)).active then 1 else 0

/-- The array mask of an MSW or MLW word (Table 6-7). -/
def amask (w : Word) : Nat := bits w 33 32

/-- How many queued MSWs, among a list of entries, switch an array (R127). -/
def switches (es : List MqEntry) (a : Nat) : Nat :=
  (es.filter fun e => decide (Ins.opc e.instr = 0x69) && (amask e.instr).testBit a).length

/-- The bank of an array that is active after the MSWs of a list of queued entries (R127, R128). -/
def Core.bankAfter (k : Core) (es : List MqEntry) (a : Nat) : Nat := (k.activeBank a + switches es a) % 2

/-- The banks that entry i of the matrix queue uses. -/
def Core.entryBanks (k : Core) (i : Nat) : List Nat :=
  match k.mq[i]? with
  | some e => match shapeOf e.instr with
    | some sh => (arraysOf sh e.instr).map fun a => bankKey a (k.bankAfter (k.mq.take i) a)
    | none => []
  | none => []

/-- The banks that unfinished MMAs use (R125). -/
def Core.banksInUse (k : Core) : List Nat := (List.range k.mq.length).flatMap k.entryBanks

/-- The arrays a mask names. -/
def maskArrays (m : Nat) : List Nat := (if m.testBit 0 then [0] else []) ++ (if m.testBit 1 then [1] else [])

/-- The banks an MLW loads (R124). -/
def mlwBanks (w : Word) : List Nat := (maskArrays (amask w)).map fun a => bankKey a (bits w 31 31)

/-- The banks that unfinished MLWs load (R125). -/
def Core.banksLoading (k : Core) : List Nat := k.loads.flatMap fun l => mlwBanks l.instr

/-! ### What guards local store (R77, R79) -/

/-- k-rows of the transposed layout and bytes of one array's k-row (R124). -/
def mlwRows (f : Nat) : Nat × Nat :=
  match matWidth f with
  | 4 => (32, 32)
  | 16 => (8, 128)
  | _ => (16, 64)

/-- Bytes of one weight side entry (R38, R124). -/
def wSideLen (w : Word) : Nat := if !Mma.wsc w then 0 else if Mma.wfmt w = 0x09 then 3 else 1

/-- Element and side ranges that an MLW reads, as (start, length) (R124). -/
def mlwRanges (w : Word) (opa opb : Word) : List (Nat × Nat) :=
  let n := (maskArrays (amask w)).length
  let kr := mlwRows (Mma.wfmt w)
  let el := if bit w 30 then (kr.1 - 1) * bits opb 49 32 + kr.2 * n else 0x400 * n
  (opa.toNat, el) :: (if wSideLen w = 0 then [] else [(bits opb 17 0, 64 * n * wSideLen w)])

/-- Element and side ranges that an MMA reads from row `fr` on (R113). -/
def mmaRanges (w opa opb : Word) (fr : Nat) : List (Nat × Nat) :=
  match shapeOf w with
  | none => []
  | some sh =>
    if Mma.src w ≠ 0 then []
    else
      let n := Mma.m opb - fr
      let e := sideBytes sh w
      (opa.toNat + fr * rowBytes sh, n * rowBytes sh)
        :: (if e = 0 then [] else [(Mma.side opb + fr * e, n * e)])

/-- Whether two ranges meet in a 32 B unit (R77). -/
def meet (a b : Nat × Nat) : Bool :=
  decide (0 < a.2) && decide (0 < b.2) && decide (a.1 / 32 ≤ (b.1 + b.2 - 1) / 32)
    && decide (b.1 / 32 ≤ (a.1 + a.2 - 1) / 32)

/-- Local-store ranges that pending tokens write: loads, arrivals and RECVs (R79). -/
def Core.tokenWrites (k : Core) : List (Nat × Nat) :=
  (k.tokens.filter fun t => [1, 3, 5].contains t.2.kind && !t.2.faulted).map fun t => (t.2.lsaddr, t.2.length)

/-- Local-store ranges that pending tokens read: stores and SENDs (R79). -/
def Core.tokenReads (k : Core) : List (Nat × Nat) :=
  (k.tokens.filter fun t => [2, 4].contains t.2.kind && !t.2.faulted).map fun t => (t.2.lsaddr, t.2.length)

/-- Local-store ranges that the matrix queue and the weight loads still read (R77). -/
def Core.matrixReads (k : Core) : List (Nat × Nat) :=
  (k.mq.flatMap fun e => mmaRanges e.instr e.opa e.opb e.nextRow)
    ++ k.loads.flatMap fun l => mlwRanges l.instr l.opa l.opb

/-- Whether a read of a local-store range is held (R75, R77, R79). -/
def Core.readHeld (k : Core) (r : Nat × Nat) : Bool := k.tokenWrites.any (meet r)

/-- Whether a write of a local-store range is held (R75, R77, R79). -/
def Core.writeHeld (k : Core) (r : Nat × Nat) : Bool :=
  k.tokenWrites.any (meet r) || k.tokenReads.any (meet r) || k.matrixReads.any (meet r)

/-- Whether a token's previous operation is pending (R79). -/
def Core.tokenBusy (k : Core) (t : Nat) : Bool := decide ((k.tokens.get {} t).kind ≠ 0)

/-- Check 5 for a range: LS_RANGE, then LS_MISALIGNED against an alignment; a computed address of 2^18 or
more is LS_RANGE (R81). -/
def lsCheck (addr len align : Nat) : Option Issue :=
  if 0x40000 ≤ addr ∨ 0x40000 < addr + len then some (.lr addr)
  else if addr % align ≠ 0 then some (.lm addr)
  else none

/-- The first fault of a list of ranges, all 32 B aligned (R113). -/
def lsCheckAll : List (Nat × Nat) → Option Issue
  | [] => none
  | r :: rs => match lsCheck r.1 r.2 32 with
    | some f => some f
    | none => lsCheckAll rs

/-! ### Issue of MMA, MLW and MSW -/

/-- Checks 2 and 3 of an MMA but for the bank tags (R108, R187, Table 6-7). -/
def mmaEncOk (sh : Shape) (w : Word) : Bool :=
  zf w 28 0 && decide (Mma.src w ≤ 4) && pairOk (Mma.wfmt w) (Mma.afmt w)
    && scaledOk (Mma.afmt w) (Mma.asc w) && scaledOk (Mma.wfmt w) (Mma.wsc w)
    && (decide (Mma.sel w = 0) || (decide (sh ≠ .k16n128) && decide (sh ≠ .k16n128t)))

/-- The bank-tag check of R128 against the banks active for the MMA. -/
def Core.bankTagsOk (k : Core) (es : List MqEntry) (sh : Shape) (w : Word) : Bool :=
  (arraysOf sh w).all fun a =>
    let b := k.wbank.get {} (bankKey a (k.bankAfter es a))
    decide (b.wfmt = Mma.wfmt w) && (b.scaled == Mma.wsc w) && (b.transposed == decide (sh = .k16n128t))

/-- Check 4 of an MMA: OPB (Table 4-5, R112). -/
def mmaOpbOk (sh : Shape) (w opb : Word) : Bool :=
  zf opb 63 50 && zf opb 31 18
    && (!Mma.half opb || (decide (Mma.afmt w = 0x09) && decide (sh ≠ .k32n64)))
    && decide (0 < Mma.m opb) && decide (Mma.m opb ≤ 256) && decide (Mma.row0 opb + Mma.m opb ≤ 256)

/-- Checks 3 to 6 of an MMA in the state it would execute in (R108, R112, R113, R128, R90). -/
def mmaCheck (s : State) (c : Nat) (k : Core) (es : List MqEntry) (sh : Shape) (w opa opb : Word) : Option Issue :=
  if !mmaEncOk sh w || !k.bankTagsOk es sh w || !mmaOpbOk sh w opb then some .il
  else if Mma.src w = 0 then lsCheckAll (mmaRanges w opa opb 0)
  else if (s.neighbour c (Mma.src w)).isNone then some .pu
  else none

/-- The issue of an MMA of a shape: held while the queue is full, a bank it uses is loading, or its source
range is being written; then checked, then queued (R75, R95, R125, R184). -/
def semMma (s : State) (c : Nat) (sh : Shape) (k : Core) (w : Word) : Issue :=
  let opa := k.rx (Ins.d w)
  let opb := k.rx (Ins.a w)
  let banks := (arraysOf sh w).map fun a => bankKey a (k.bankAfter k.mq a)
  if 4 ≤ k.mq.length ∨ banks.any k.banksLoading.contains = true ∨ (mmaRanges w opa opb 0).any k.readHeld = true then
    .held
  else match mmaCheck s c k k.mq sh w opa opb with
    | some f => f
    | none => coreDone s c { k with mq := k.mq ++ [{ instr := w, opa := opa, opb := opb, seq := k.seq, pc := k.pc }] }

/-- MMA_K16N128 (R116). -/
def execMmaK16n128 (c : Nat) (s : State) : Out := .next (s.issue c .mmaK16n128 (semMma s c .k16n128))

/-- MMA_K16N128_T (R128). -/
def execMmaK16n128T (c : Nat) (s : State) : Out := .next (s.issue c .mmaK16n128T (semMma s c .k16n128t))

/-- MMA_K32N64 (R119). -/
def execMmaK32n64 (c : Nat) (s : State) : Out := .next (s.issue c .mmaK32n64 (semMma s c .k32n64))

/-- MMA_K16N64 (R129). -/
def execMmaK16n64 (c : Nat) (s : State) : Out := .next (s.issue c .mmaK16n64 (semMma s c .k16n64))

/-- MMA_K8N64 (R129). -/
def execMmaK8n64 (c : Nat) (s : State) : Out := .next (s.issue c .mmaK8n64 (semMma s c .k8n64))

/-- MMA_K16N32 (R129). -/
def execMmaK16n32 (c : Nat) (s : State) : Out := .next (s.issue c .mmaK16n32 (semMma s c .k16n32))

/-- Checks 2 to 4 of an MLW (R108, R124, R187, Tables 4-11 and 6-7). -/
def mlwOk (w opb : Word) : Bool :=
  let f := Mma.wfmt w
  zf w 45 41 && zf w 35 35 && zf w 29 0 && decide (amask w ≠ 0) && scaledOk f (Mma.wsc w)
    && ([1, 2, 3, 4, 5, 8, 9, 0x0A, 0x10, 0x11].contains f)
    && zf opb 63 50 && zf opb 31 25 && zf opb 23 18 && (bits opb 24 24 = 0 || f = 0x09)
    && (if bit w 30 then decide (bits opb 49 32 % 32 = 0) else zf opb 49 32)

/-- The issue of MLW: held while an unfinished MMA uses a bank it loads or an earlier MLW loads one, or its
source is being written (R124, R125). -/
def semMlw (s : State) (c : Nat) (k : Core) (w : Word) : Issue :=
  let opa := k.rx (Ins.d w)
  let opb := k.rx (Ins.a w)
  let banks := mlwBanks w
  if banks.any k.banksInUse.contains = true ∨ banks.any k.banksLoading.contains = true
      ∨ (mlwRanges w opa opb).any k.readHeld = true then .held
  else if !mlwOk w opb then .il
  else match lsCheckAll (mlwRanges w opa opb) with
    | some f => f
    | none => coreDone s c { k with loads := k.loads ++ [⟨w, opa, opb, k.pc⟩] }

/-- MLW (R124). -/
def execMlw (c : Nat) (s : State) : Out := .next (s.issue c .mlw (semMlw s c))

/-- Moves ACTIVE of each named array to its other bank (R127). -/
def Core.switchBanks (k : Core) (m : Nat) : Core :=
  (maskArrays m).foldl (fun k a =>
    let on := 1 - k.activeBank a
    let wb := k.wbank.mod {} (bankKey a on) fun b => { b with active := true }
    { k with wbank := wb.mod {} (bankKey a (1 - on)) fun b => { b with active := false } }) k

/-- The issue of MSW: it takes effect at once on an empty queue and is queued behind earlier MMAs otherwise,
so that it applies to every MMA later in program order and to none earlier (R127). -/
def semMsw (s : State) (c : Nat) (k : Core) (w : Word) : Issue :=
  if k.mq ≠ [] ∧ 4 ≤ k.mq.length then .held
  else if amask w = 0 ∨ !zf w 55 34 ∨ !zf w 31 0 then .il
  else if k.mq = [] then coreDone s c (k.switchBanks (amask w))
  else coreDone s c { k with mq := k.mq ++ [{ instr := w, opa := 0, opb := 0, seq := k.seq, pc := k.pc }] }

/-- MSW (R127). -/
def execMsw (c : Nat) (s : State) : Out := .next (s.issue c .msw (semMsw s c))

/-! ### MRD -/

/-- Key of an accumulator row. -/
def accKey (a row : Nat) : Nat := a * 256 + row

/-- n free 64-bit words from number b on, as one number (log row 1). -/
def freeBits (b n : Nat) : Nat := packElems 64 ((List.range n).map fun i => (Config.freeValue (b + i)).toNat)

/-- An accumulator row; after a launch, a row not yet written is undefined (R122, R219). -/
def Core.accRow (k : Core) (key : Nat) : BitVec 2048 :=
  match k.acc.find key with
  | some v => v
  | none => match k.accFree with
    | some b => BitVec.ofNat 2048 (freeBits (b + 32 * key) 32)
    | none => 0

/-- Whether an unfinished MMA still has to write an accumulator row (R78, R117). -/
def Core.rowPending (k : Core) (a row : Nat) : Bool :=
  k.mq.any fun e => match shapeOf e.instr with
    | some sh => (accsOf sh e.instr).contains a && decide (Mma.row0 e.opb + e.nextRow ≤ row)
        && decide (row < Mma.row0 e.opb + Mma.m e.opb)
    | none => false

/-- MRD converts one accumulator row into vd and counts the non-finite values it reads (R62, R121, R196). -/
def semMrd (s : State) (c : Nat) (k : Core) (w : Word) : Issue :=
  let df := bits w 40 36
  let wd := codeWidth df
  let p := bits w 29 27
  let a := bits w 35 35
  let row := k.rx (Ins.a w) + BitVec.ofNat 64 (bits w 7 0)
  match Rnd.ofField (bits w 32 30) with
  | none => .il
  | some m =>
    if !zf w 45 41 ∨ !zf w 26 8 ∨ ! [1, 2, 3, 4, 5, 0x10, 0x11, 0x12].contains df ∨ 32 / wd ≤ p ∨ 255 < row.toNat then .il
    else if k.rowPending a row.toNat then .held
    else
      let r := (k.accRow (accKey a row.toNat)).toNat
      let conv := fun n => encodeCode df m (bit w 33) (k.srBits (p * 64 + n)) (Fmt.fp32.decode (Machine.elem r 32 n))
      let v := packV wd ((List.range (2048 / wd)).map fun j =>
        if p * 64 ≤ j ∧ j < p * 64 + 64 then (conv (j - p * 64)).code else k.elem (Ins.d w) wd j)
      let nf := ((List.range 64).filter fun n => (Fmt.fp32.decode (Machine.elem r 32 n)).nonFinite).length
      let fl := sumFlags ((List.range 64).map fun n => { (conv n).flags with nf := 0 })
      let k' := ((k.advanceSr m).wv (Ins.d w) v).raise { fl with nf := nf }
      coreDone s c (if bit w 34 then { k' with acc := k'.acc.set (accKey a row.toNat) 0 } else k')

/-- MRD (R196). -/
def execMrd (c : Nat) (s : State) : Out := .next (s.issue c .mrd (semMrd s c))

/-! ### Row passes -/

/-- The value of element i of packed operand bytes, times its TS4 refinement factor (R43, R109). -/
def operandVal (f : Nat) (raw : Nat) (refine : Nat → Nat) (i : Nat) : FVal :=
  let w := matWidth f
  let code := elem raw w i
  let v := match intOfCode f with
    | some iw => intVal iw code
    | none => decodeCode (if f = 0x09 then 0x08 else f) code
  if f = 0x09 then
    match v with
    | .fin neg n d => .fin neg (n * (16 + refine i)) (d * 16)
    | v => v
  else v

/-- Refinement code cj of a TS4 side entry (R44). -/
def refineOf (side j : Nat) : Nat := natBits side (8 + 4 * j + 3) (8 + 4 * j)

/-- One array's contribution to one column of one row: accumulator input, activation slice and its side
entry with half, and the bank (R64, R109). -/
def arrayPass (w : Word) (acc : FVal) (slice side : Nat) (half : Bool) (nbytes : Nat) (b : WBank) (n : Nat) : Nat :=
  let af := Mma.afmt w
  let wf := Mma.wfmt w
  let t := nbytes * 8 / matWidth af
  let col := natBits b.elems.toNat (128 * n + 8 * nbytes - 1) (128 * n)
  let ws := natBits b.side.toNat (32 * n + 31) (32 * n)
  let wh := if ws.testBit 24 then 2 else 0
  let ah := if half then 2 else 0
  let ops := (List.range t).map fun i =>
    (operandVal af slice (fun i => refineOf side (ah + i / 16)) i,
     operandVal wf col (fun i => refineOf ws (wh + i / 16)) i)
  let sa := side % 256
  let sw := ws % 256
  let sigma : Int := (if Mma.asc w then (sa : Int) - 127 else 0) + (if Mma.wsc w then (sw : Int) - 127 else 0)
  let bad := (Mma.asc w && decide (sa = 0xFF)) || (Mma.wsc w && decide (sw = 0xFF))
  rowPass acc ops sigma bad (decide (af = 0x10))

/-- One row of an MMA: elements and side entry of the row, applied to every column of the shape (R119,
R129). -/
def rowInto (k : Core) (e : MqEntry) (sh : Shape) (m el side : Nat) : Core :=
  let w := e.instr
  let row := Mma.row0 e.opb + m
  let bank := fun a => k.wbank.get {} (bankKey a (k.activeBank a))
  let old := fun a => (k.accRow (accKey a row)).toNat
  let start := fun a n => if Mma.acc w then Fmt.fp32.decode (elem (old a) 32 n) else FVal.fin false 0 1
  let put := fun (k : Core) (a : Nat) (f : Nat → Nat) =>
    { k with acc := k.acc.set (accKey a row) (packV 32 ((List.range 64).map f)) }
  let half := Mma.half e.opb
  match sh with
  | .k32n64 =>
    let d := Mma.sel w
    let lo := el % 2 ^ 128
    let hi := el >>> 128
    let side1 := if Mma.afmt w = 0x08 then side >>> 8 else side
    put k d fun n =>
      let r0 := arrayPass w (start d n) lo side false 16 (bank 0) n
      arrayPass w (Fmt.fp32.decode r0) hi side1 true 16 (bank 1) n
  | .k16n64 => put k (Mma.sel w) fun n => arrayPass w (start (Mma.sel w) n) el side half 16 (bank (Mma.sel w)) n
  | .k8n64 => put k (Mma.sel w) fun n => arrayPass w (start (Mma.sel w) n) el side half 8 (bank (Mma.sel w)) n
  | .k16n32 =>
    let a := Mma.sel w
    put k a fun n => if n < 32 then arrayPass w (start a n) el side half 16 (bank a) n else elem (old a) 32 n
  | _ =>
    let k1 := put k 0 fun n => arrayPass w (start 0 n) el side half 16 (bank 0) n
    put k1 1 fun n => arrayPass w (start 1 n) el side half 16 (bank 1) n

/-- Rows that one stream unit carries (Table 4-6). -/
def rowsPerUnit (sh : Shape) (w : Word) : Nat :=
  if 0 < sideBytes sh w then 1
  else match sh with
    | .k8n64 => 4
    | .k32n64 => 1
    | _ => 2

/-- Whether an earlier consumer of a receive FIFO, a pending RECV, comes before program order `seq` (R203). -/
def Core.recvBefore (k : Core) (port seq : Nat) : Bool :=
  k.tokens.any fun t => decide (t.2.kind = 5) && decide (t.2.port = port) && decide (t.2.seq < seq) && !t.2.faulted

/-- Frees the head entry of a receive FIFO; a credit for it is owed to the sender (R88). -/
def Core.freeUnit (k : Core) (port : Nat) : Core :=
  { k with fifo := k.fifo.mod [] port List.tail, owed := k.owed.mod 0 port (· + 1) }

/-- Row m of the head MMA from its source: elements, side entry, and the core after the row has left the
source; none while its port row has not arrived (R113, R114). -/
def takeRow (s : State) (c : Nat) (k : Core) (e : MqEntry) (sh : Shape) (m : Nat) : Option (Nat × Nat × Core) :=
  let w := e.instr
  let nb := rowBytes sh
  let sb := sideBytes sh w
  if Mma.src w = 0 then
    let a := lsBase c + e.opa.toNat + m * nb
    let sa := lsBase c + Mma.side e.opb + m * sb
    some (s.mem.readNat a nb, s.mem.readNat sa sb, k)
  else
    let port := Mma.src w
    if k.recvBefore port e.seq then none
    else match k.fifo.get [] port with
      | [] => none
      | u :: rest =>
        let per := rowsPerUnit sh w
        let pos := m % per
        let last := decide (pos + 1 = per) || decide (m + 1 = Mma.m e.opb)
        let el := natBits u.toNat (8 * nb * pos + 8 * nb - 1) (8 * nb * pos)
        if sb = 0 then some (el, 0, if last then k.freeUnit port else k)
        else if sh = .k32n64 then
          match rest with
          | [] => none
          | v :: _ => some (el, natBits v.toNat (8 * sb - 1) 0, (k.freeUnit port).freeUnit port)
        else some (el, natBits u.toNat (8 * nb + 8 * sb - 1) (8 * nb), k.freeUnit port)

/-- Streams up to n rows of the head MMA, stopping at a port row that has not arrived (R94, R118). -/
def streamRows (s : State) (c : Nat) : Nat → Core → MqEntry → Shape → Core × MqEntry
  | 0, k, e, _ => (k, e)
  | n + 1, k, e, sh =>
    if Mma.m e.opb ≤ e.nextRow then (k, e)
    else match takeRow s c k e sh e.nextRow with
      | none => (k, e)
      | some (el, side, k') =>
        streamRows s c n (rowInto k' e sh e.nextRow el side) { e with nextRow := e.nextRow + 1 } sh

/-- Applies the MSWs at the head of the queue (R127). -/
def applyMsws : Nat → Core → Core
  | 0, k => k
  | n + 1, k => match k.mq with
    | e :: t => if Ins.opc e.instr = 0x69 then applyMsws n ({ k with mq := t }.switchBanks (amask e.instr)) else k
    | [] => k

/-- Runs the head MMA as far as its rows have arrived; a finished MMA leaves the queue, and the MSWs behind
it take effect (R94, R118, R127). -/
def runHead (s : State) (c : Nat) (k : Core) : Core :=
  match k.mq with
  | [] => k
  | e :: t => match shapeOf e.instr with
    | none => k
    | some sh =>
      let r := streamRows s c 256 k { e with started := true } sh
      if Mma.m e.opb ≤ r.2.nextRow then applyMsws 4 { r.1 with mq := t }
      else { r.1 with mq := r.2 :: t }

end Sys2Proof.Machine
end

