-- ==== Sys2Proof/Machine/CoreMem.lean ====
section
/-!
DEFINITION. The local-store and global-memory instructions (R81, R173 to R180, R197 to R201, Table 6-10): the
issue of each, and the element walk of a gather or scatter.
-/
namespace Sys2Proof.Machine

/-- Bytes of SIZE. -/
def sizeBytes (w : Word) : Nat := 2 ^ Ins.size w

/-- Extends a loaded value by SIZE and SGN (Table 6-10). -/
def extLoad (w : Word) (x : Nat) : Word :=
  if Ins.sgn w then sext (8 * sizeBytes w) x else BitVec.ofNat 64 x

/-- Counts a corrected error on the core's COMPUTE_DIE page; the spec does not number the counter (R85, log
row 7). -/
def State.countEcc (s : State) (c : Nat) (e : Ecc) : State :=
  if e = .corrected then s.bump (corePage c) (Config.eccCounter % 8) else s

/-- The scalar or vector address x[XA] + sext(IMM16) (R197). -/
def lsAddr (k : Core) (w : Word) : Nat := (k.rx (Ins.a w) + Ins.imm16 w).toNat

/-- LD_L: fields outside DR, XA, SIZE, SGN and IMM16 are reserved (R197, R85). -/
def semLdL (s : State) (c : Nat) (e : Ecc) (k : Core) (w : Word) : Issue :=
  let a := lsAddr k w
  let n := sizeBytes w
  if k.readHeld (a, n) then .held
  else if !zf w 45 27 ∨ !zf w 23 16 then .il
  else match lsCheck a n n with
    | some f => f
    | none =>
      if e = .uncorrectable then .cd a
      else coreDone (s.countEcc c e) c (k.wx (Ins.d w) (extLoad w (s.mem.readNat (lsBase c + a) n)))

/-- LD_L (R197). -/
def execLdL (c : Nat) (e : Ecc) (s : State) : Out := .next (s.issue c .ldL (semLdL s c e))

/-- ST_L: fields outside DR, XA, SIZE and IMM16 are reserved (R197). -/
def semStL (s : State) (c : Nat) (k : Core) (w : Word) : Issue :=
  let a := lsAddr k w
  let n := sizeBytes w
  if k.writeHeld (a, n) then .held
  else if !zf w 45 27 ∨ !zf w 24 16 then .il
  else match lsCheck a n n with
    | some f => f
    | none =>
      coreDone { s with mem := s.mem.writeNat (lsBase c + a) n (k.rx (Ins.d w)).toNat } c k

/-- ST_L (R197). -/
def execStL (c : Nat) (s : State) : Out := .next (s.issue c .stL (semStL s c))

/-- VLD moves VL elements into vd; inactive ones follow the policy bit and are not read (R173, R145). -/
def semVld (s : State) (c : Nat) (e : Ecc) (k : Core) (w : Word) : Issue :=
  let a := lsAddr k w
  let n := k.vl * k.ew / 8
  if k.readHeld (a, n) then .held
  else if !zf w 45 36 ∨ !zf w 30 16 ∨ !maskPolicy w ∨ k.vstart ≠ 0 then .il
  else match lsCheck a n 32 with
    | some f => f
    | none =>
      if e = .uncorrectable then .cd a
      else
        let raw := s.mem.readNat (lsBase c + a) n
        let v := k.mapV (Ins.d w) k.ew k.vl (Ins.msel w) (Ins.pol w) fun i => elem raw k.ew i
        coreDone (s.countEcc c e) c (k.wv (Ins.d w) v)

/-- VLD (R173). -/
def execVld (c : Nat) (e : Ecc) (s : State) : Out := .next (s.issue c .vld (semVld s c e))

/-- Writes the active elements of a vector register to local store. -/
def storeElems (m : Memory) (base : Nat) (k : Core) (w : Word) : Memory :=
  (k.activeIdx (min k.vl k.vlmax) (Ins.msel w)).foldl (fun m i =>
    m.writeNat (base + i * (k.ew / 8)) (k.ew / 8) (k.elem (Ins.d w) k.ew i)) m

/-- VST leaves the bytes of inactive elements unwritten; POL must be zero (R173, Table 5-4). -/
def semVst (s : State) (c : Nat) (k : Core) (w : Word) : Issue :=
  let a := lsAddr k w
  let n := k.vl * k.ew / 8
  if k.writeHeld (a, n) then .held
  else if !zf w 45 36 ∨ !zf w 30 16 ∨ !maskSelects w ∨ k.vstart ≠ 0 then .il
  else match lsCheck a n 32 with
    | some f => f
    | none =>
      coreDone { s with mem := storeElems s.mem (lsBase c + a) k w } c k

/-- VST (R173). -/
def execVst (c : Nat) (s : State) : Out := .next (s.issue c .vst (semVst s c))

/-! ### Synchronous global accesses -/

/-- Issues a synchronous access: it holds every later instruction until it completes (R80). PC stays. -/
def startAccess (s : State) (c : Nat) (k : Core) (w : Word) (va elem : Nat) : Issue :=
  .done (s.setCore c { k with wait := .access w va elem false }) k.pc

/-- LD_G (R197). -/
def semLdG (s : State) (c : Nat) (k : Core) (w : Word) : Issue :=
  let va := lsAddr k w
  if !zf w 45 31 ∨ !zf w 28 27 ∨ !zf w 23 16 then .il
  else if va % sizeBytes w ≠ 0 then .ga va
  else startAccess s c k w va 0

/-- LD_G (R197, R80). -/
def execLdG (c : Nat) (s : State) : Out := .next (s.issue c .ldG (semLdG s c))

/-- ST_G (R197): SGN is reserved. -/
def semStG (s : State) (c : Nat) (k : Core) (w : Word) : Issue :=
  let va := lsAddr k w
  if !zf w 45 31 ∨ !zf w 28 27 ∨ !zf w 24 16 then .il
  else if va % sizeBytes w ≠ 0 then .ga va
  else startAccess s c k w va 0

/-- ST_G (R197, R80). -/
def execStG (c : Nat) (s : State) : Out := .next (s.issue c .stG (semStG s c))

/-- AMO_G: SIZE 0b10 or 0b11, AOP up to 0x9; XC is reserved except for CAS (R197, R201, Table 6-11). -/
def semAmoG (s : State) (c : Nat) (k : Core) (w : Word) : Issue :=
  let va := (k.rx (Ins.a w)).toNat
  if (Ins.aop w ≠ 9 ∧ !zf w 40 36) ∨ !zf w 35 31 ∨ !zf w 28 27 ∨ !zf w 24 20 ∨ !zf w 15 0 then .il
  else if Ins.size w < 2 ∨ 9 < Ins.aop w then .il
  else if va % sizeBytes w ≠ 0 then .ga va
  else startAccess s c k w va 0

/-- AMO_G (R201, R80). -/
def execAmoG (c : Nat) (s : State) : Out := .next (s.issue c .amoG (semAmoG s c))

/-- Virtual address of element i of a gather or scatter (R175). -/
def elemAddr (k : Core) (w : Word) (i : Nat) : Nat :=
  (k.rx (Ins.a w) + (sext 32 (k.elem (Ins.b w) 32 i) <<< Ins.sh w)).toNat

/-- Whether a word is GATHER.G. -/
def isGather (w : Word) : Bool := decide (Ins.opc w = 0x8C)

/-- The core at the end of a gather or scatter: VSTART zero and the next PC (R143, R176). -/
def gatherEnd (k : Core) : Core := { k with vstart := 0, wait := .none, pc := k.pc + 8 }

/-- Walks a gather or scatter from element i: inactive elements follow the policy, a misaligned active one
faults (R175, R178), an aligned one is presented, and at VL the instruction completes (R176, R177). -/
def gatherFrom (w : Word) : Nat → Core → Nat → Core
  | 0, k, _ => gatherEnd k
  | n + 1, k, i =>
    if k.vl ≤ i then gatherEnd k
    else if k.active (Ins.msel w) i then
      let va := elemAddr k w i
      if va % (k.ew / 8) ≠ 0 then
        { k with vstart := i }.stopWith ⟨0x05, St.permissionFault, i, k.pc, va, w⟩
      else { k with wait := .access w va i false }
    else
      let k := if isGather w && Ins.pol w then
          k.wv (Ins.d w) (BitVec.ofNat 2048 (setElem 2048 (k.rv (Ins.d w)).toNat k.ew i 0)) else k
      gatherFrom w n k (i + 1)

/-- The issue of GATHER.G and SCATTER.G: VL above 32 is IL, and so is a GATHER.G whose vd is the index
register (R176). -/
def semGather (s : State) (c : Nat) (k : Core) (w : Word) : Issue :=
  let maskOk := if isGather w then maskPolicy w else maskSelects w
  if !zf w 40 36 ∨ !zf w 26 0 ∨ !maskOk ∨ 32 < k.vl ∨ (isGather w ∧ Ins.d w = Ins.b w) then .il
  else
    let k' := gatherFrom w 33 k k.vstart
    .done (s.setCore c k') k'.pc

/-- GATHER_G (R175 to R180). -/
def execGatherG (c : Nat) (s : State) : Out := .next (s.issue c .gatherG (semGather s c))

/-- SCATTER_G (R175 to R180). -/
def execScatterG (c : Nat) (s : State) : Out := .next (s.issue c .scatterG (semGather s c))

/-! ### Asynchronous transfers -/

/-- LSADDR of a range word (R198). -/
def rangeAddr (v : Word) : Nat := bits v 17 0

/-- LENGTH of a range word. -/
def rangeLen (v : Word) : Nat := bits v 50 32

/-- Check 4 of a range word (R198). -/
def rangeOk (v : Word) : Bool :=
  decide (bits v 31 18 = 0 ∧ bits v 63 51 = 0 ∧ rangeLen v % 32 = 0 ∧ 32 ≤ rangeLen v ∧ rangeLen v ≤ 262144)

/-- Check 5 of a range word (R198). -/
def rangeCheck (v : Word) : Option Issue := lsCheck (rangeAddr v) (rangeLen v) 32

/-- Sets a token. -/
def Core.setToken (k : Core) (t : Nat) (x : Token) : Core := { k with tokens := k.tokens.set t x }

/-- The issue of XFER.L and XFER.S (R79, R199): fields outside XA, B, HINT and TK are reserved. -/
def semXfer (s : State) (c : Nat) (k : Core) (w : Word) : Issue :=
  let load := decide (Ins.opc w = 0x90)
  let r := k.rx (Ins.b w)
  let ga := (k.rx (Ins.a w)).toNat
  let rng := (rangeAddr r, rangeLen r)
  if k.tokenBusy (Ins.tk w) ∨ (if load then k.writeHeld rng else k.readHeld rng) = true then .held
  else if !zf w 55 51 ∨ !zf w 40 31 ∨ !zf w 28 24 ∨ !zf w 19 0 ∨ !rangeOk r then .il
  else match rangeCheck r with
    | some f => f
    | none =>
      if ga % 32 ≠ 0 then .ga ga
      else coreDone s c (k.setToken (Ins.tk w)
        { kind := if load then 1 else 2, gaddr := ga, lsaddr := rng.1, length := rng.2, seq := k.seq })

/-- XFER_L (R199). -/
def execXferL (c : Nat) (s : State) : Out := .next (s.issue c .xferL (semXfer s c))

/-- XFER_S (R199). -/
def execXferS (c : Nat) (s : State) : Out := .next (s.issue c .xferS (semXfer s c))

end Sys2Proof.Machine
end

