-- ==== Sys2Proof/Machine/CoreStream.lean ====
section
/-!
DEFINITION. The stream instructions (R202 to R206), the receive FIFOs and their consumers (R87, R88, R203).
-/
namespace Sys2Proof.Machine

/-- Checks 4 and 5 of a stream instruction's range, and its port (R90, R198, R202). -/
def streamCheck (s : State) (c : Nat) (w r : Word) : Option Issue :=
  match rangeCheck r with
  | some f => some f
  | none => if (s.neighbour c (Ins.port w)).isNone then some .pu else none

/-- Reserved fields of SEND and RECV: XB, bits [55:51] and [33:0]; PORT 1 to 4 (Table 6-12). -/
def streamEncOk (w : Word) : Bool :=
  zf w 55 51 && zf w 45 41 && zf w 33 0 && decide (1 ≤ Ins.port w) && decide (Ins.port w ≤ 4)

/-- SEND sets token TK to KIND 4 with its range and port (R202). -/
def semSend (s : State) (c : Nat) (k : Core) (w : Word) : Issue :=
  let r := k.rx (Ins.a w)
  if k.tokenBusy (Ins.tkT w) ∨ k.readHeld (rangeAddr r, rangeLen r) = true then .held
  else if !streamEncOk w ∨ !rangeOk r then .il
  else match streamCheck s c w r with
    | some f => f
    | none =>
       coreDone s c (k.setToken (Ins.tkT w)
        { kind := 4, lsaddr := rangeAddr r, length := rangeLen r, port := Ins.port w, seq := k.seq })

/-- SEND (R202). -/
def execSend (c : Nat) (s : State) : Out := .next (s.issue c .send (semSend s c))

/-- The RECV token whose turn it is on a port: the earliest in program order, and no MMA that names the port
comes before it (R203). -/
def Core.recvTurn (k : Core) (port : Nat) : Option Nat :=
  let ts := k.tokens.filter fun t => decide (t.2.kind = 5) && decide (t.2.port = port) && !t.2.faulted
  match ts.foldl (fun (b : Option (Nat × Token)) t => match b with
      | none => some t
      | some u => if t.2.seq < u.2.seq then some t else some u) none with
  | none => none
  | some t =>
    if k.mq.any fun e => (shapeOf e.instr).isSome && decide (Mma.src e.instr = port) && decide (e.seq < t.2.seq)
    then none else some t.1

/-- Advances a token by n bytes; it becomes idle at DONE = LENGTH (R202). -/
def Core.advanceToken (k : Core) (t n : Nat) : Core :=
  let x := k.tokens.get {} t
  let d := x.done + n
  k.setToken t (if x.length ≤ d then {} else { x with done := d })

/-- RECV tokens take units from a port's FIFO into local store while it is their turn (R202, R203). -/
def pumpRecv (c port : Nat) : Nat → State → State
  | 0, s => s
  | n + 1, s =>
    let k := s.core c
    match k.recvTurn port, k.fifo.get [] port with
    | some t, u :: _ =>
      let x := k.tokens.get {} t
      let s := { s with mem := s.mem.writeNat (lsBase c + x.lsaddr + x.done) 32 u.toNat }
      pumpRecv c port n (s.setCore c ((k.freeUnit port).advanceToken t 32))
    | _, _ => s

/-- RECV sets token TK to KIND 5; units that have arrived are taken at once (R202). -/
def semRecv (s : State) (c : Nat) (k : Core) (w : Word) : Issue :=
  let r := k.rx (Ins.a w)
  if k.tokenBusy (Ins.tkT w) ∨ k.writeHeld (rangeAddr r, rangeLen r) = true then .held
  else if !streamEncOk w ∨ !rangeOk r then .il
  else match streamCheck s c w r with
    | some f => f
    | none =>
      
        let k := k.setToken (Ins.tkT w)
          { kind := 5, lsaddr := rangeAddr r, length := rangeLen r, port := Ins.port w, seq := k.seq }
        .done (pumpRecv c (Ins.port w) 17 (s.setCore c k)) (k.pc + 8)

/-- RECV (R202). -/
def execRecv (c : Nat) (s : State) : Out := .next (s.issue c .recv (semRecv s c))

namespace Dest
/-- DSTACK of a SEND.H destination word (Table 6-14). -/
def stack (v : Word) : Nat := bits v 50 45
/-- DDIE. -/
def die (v : Word) : Nat := bits v 44 43
/-- DROW. -/
def row (v : Word) : Nat := bits v 42 38
/-- DCOL. -/
def col (v : Word) : Nat := bits v 37 32
/-- DTOK. -/
def tok (v : Word) : Nat := bits v 23 20
/-- DLSADDR. -/
def lsaddr (v : Word) : Nat := bits v 17 0
end Dest

/-- Check 4 of a destination word (R204). -/
def destOk (v : Word) : Bool :=
  decide (Dest.row v ≤ 29 ∧ Dest.col v ≤ 39 ∧ bits v 63 51 = 0 ∧ bits v 31 24 = 0 ∧ bits v 19 18 = 0)

/-- SEND.H sets token TK to KIND 4 with PORT zero and its destination word (R202, R204, Table 3-5; log row 13). -/
def semSendH (s : State) (c : Nat) (k : Core) (w : Word) : Issue :=
  let r := k.rx (Ins.a w)
  let d := k.rx (Ins.b w)
  if k.tokenBusy (Ins.tkT w) ∨ k.readHeld (rangeAddr r, rangeLen r) = true then .held
  else if !zf w 55 51 ∨ !zf w 36 0 ∨ !rangeOk r ∨ !destOk d then .il
  else match rangeCheck r with
    | some f => f
    | none => match lsCheck (Dest.lsaddr d) (rangeLen r) 32 with
      | some f => f
      | none =>
         coreDone s c (k.setToken (Ins.tkT w)
          { kind := 4, lsaddr := rangeAddr r, length := rangeLen r, dest := d, seq := k.seq })

/-- SEND_H (R89, R202). -/
def execSendH (c : Nat) (s : State) : Out := .next (s.issue c .sendH (semSendH s c))

/-- ARM sets token TK to KIND 3 (R205). -/
def semArm (s : State) (c : Nat) (k : Core) (w : Word) : Issue :=
  let r := k.rx (Ins.a w)
  if k.tokenBusy (Ins.tkT w) ∨ k.writeHeld (rangeAddr r, rangeLen r) = true then .held
  else if !zf w 55 51 ∨ !zf w 45 41 ∨ !zf w 36 0 ∨ !rangeOk r then .il
  else match rangeCheck r with
    | some f => f
    | none =>
       coreDone s c (k.setToken (Ins.tkT w)
        { kind := 3, lsaddr := rangeAddr r, length := rangeLen r, seq := k.seq })

/-- ARM (R205). -/
def execArm (c : Nat) (s : State) : Out := .next (s.issue c .arm (semArm s c))

/-- TOKEN_ACCESS_FAULT: a token records a status and its core stops imprecisely (R98, R100, R199). -/
def State.tokenFault (s : State) (c t st : Nat) (faddr : Nat) : State :=
  let k := s.core c
  let x := k.tokens.get {} t
  let k := k.setToken t { x with faulted := true, status := st }
  s.setCore c (if k.status = .running then
      { k with status := .stopped, wait := .none, fault := ⟨0x06, st, t, 0, faddr, 0⟩ } else k)

end Sys2Proof.Machine
end

