-- ==== Sys2Proof/Machine/Tasks.lean ====
section
/-!
DEFINITION. Tasks and their cores (R56, R402, R404, R412): membership, logical core numbers, the stop of a
core (R93, R99, R210), and the completion of a KERNEL.
-/
namespace Sys2Proof.Machine

/-- The task of a key. -/
def State.task (s : State) (t : Nat) : Option Task := s.tasks.find t

/-- Replaces a task. -/
def State.setTask (s : State) (t : Nat) (x : Task) : State := { s with tasks := s.tasks.set t x }

/-- Updates a task, if it exists. -/
def State.modTask (s : State) (t : Nat) (f : Task → Task) : State :=
  match s.tasks.find t with
  | some x => s.setTask t (f x)
  | none => s

/-- The numbers from lo to hi. -/
def upto (lo hi : Nat) : List Nat := (List.range (hi + 1 - lo)).map fun i => lo + i

/-- The logical cores (stack, die, row, column) of a task, in ascending order (R402, R403). -/
def Task.logical (t : Task) : List (Nat × Nat × Nat × Nat) :=
  ((List.range 64).filter fun l => t.stackBits.testBit l).flatMap fun l =>
    ((List.range 4).filter fun d => t.dieMask.testBit d).flatMap fun d =>
      (upto t.rowFirst t.rowLast).flatMap fun r => (upto t.colFirst t.colLast).map fun c => (l, d, r, c)

/-- Logical core number (R56). -/
def lcidOf (q : Nat × Nat × Nat × Nat) : Nat := ((q.1 * 4 + q.2.1) * 30 + q.2.2.1) * 40 + q.2.2.2

/-- The physical core of a logical core, where its stack is bound (R18, R102). -/
def State.physOf (s : State) (q : Nat × Nat × Nat × Nat) : Option Nat :=
  (s.boundStack q.1).map fun p => s.physCore p q.2.1 q.2.2.1 q.2.2.2

/-- The physical cores of a task, in ascending logical order. -/
def State.taskCores (s : State) (t : Task) : List Nat := t.logical.filterMap s.physOf

/-- The logical place of a core: stack, die, row, column. -/
def State.logicalPlace (s : State) (c : Nat) : Option (Nat × Nat × Nat × Nat) :=
  match s.logicalStack (coreStack c), s.logicalCol c with
  | some l, some col => some (l, coreDie c, coreRow c, col)
  | _, _ => none

/-- Logical core number of a core (R56); all ones where it has none. -/
def State.lcid (s : State) (c : Nat) : Nat :=
  match s.logicalPlace c with
  | some q => lcidOf q
  | none => 0xFFFFFFFF

/-- The task of a core, with its key. -/
def State.coreTask (s : State) (c : Nat) : Option (Nat × Task) :=
  match (s.core c).task with
  | some t => (s.task t).map fun x => (t, x)
  | none => none

/-- The partition of a core's task. -/
def State.corePart (s : State) (c : Nat) : Nat :=
  match s.coreTask c with
  | some (_, x) => x.part
  | none => 0

/-- The physical stack whose scheduler leads a task: that of the lowest set bit of STACKS (chapter 13). -/
def State.leadStack (s : State) (t : Task) : Option Nat :=
  match lowestSet 64 t.stackBits with
  | some l => s.boundStack l
  | none => none

/-- TASK_STAT of a scheduler: running and switched-out tasks that its hub leads (Table 13-10). -/
def State.refreshTaskStat (s : State) (st : Nat) : State :=
  let mine := s.tasks.filter fun e => decide (s.leadStack e.2 = some st)
  let run := (mine.filter fun e => [TaskStatus.running, .stopping, .failing].contains e.2.status).length
  let out := (mine.filter fun e => decide (e.2.status = .switchedOut)).length
  (s.setFld (Page.scheduler st) 0x118 15 0 run).setFld (Page.scheduler st) 0x118 47 32 out

/-- TASK_STAT of the hub that leads a task. -/
def State.refreshLead (s : State) (t : Task) : State :=
  match s.leadStack t with
  | some st => s.refreshTaskStat st
  | none => s

/-- VSTART of a core whose access at an element is abandoned: that element for a gather or scatter (R99, R178). -/
def Core.abandonAt (k : Core) (w : Word) (elem : Nat) : Nat :=
  if Ins.opc w = 0x8C ∨ Ins.opc w = 0x8D then elem else k.vstart

/-- CORE_STOP: a running core issues nothing further (R93). An access that is being presented again is
abandoned (R99), and an unreleased BAR's arrival is withdrawn (R210); an access that is under way completes. -/
def Core.halt (k : Core) : Core :=
  if k.status = .running then
    { k with
      status := .stopped
      drained := false
      vstart := match k.wait with
        | .access w _ e true => k.abandonAt w e
        | _ => k.vstart
      wait := match k.wait with
        | .access w va e false => .access w va e false
        | _ => .none }
  else k

/-- Stops every core of a list. -/
def State.haltAll (s : State) (cs : List Nat) : State := cs.foldl (fun s c => s.modCore c Core.halt) s

/-- Frees a core: it holds no task (R412). Its local store, accumulators and registers stay (R217). -/
def State.freeCore (s : State) (c : Nat) : State :=
  s.modCore c fun k => { k with
    status := if k.status = .faulted ∨ k.status = .skipped ∨ k.status = .gated then k.status else .idle
    lastPart := match s.coreTask c with
      | some (_, x) => some x.part
      | none => k.lastPart
    task := none, wait := .none, ended := false, drained := false, pageStop := false,
    saved := false, cheapStop := [], fault := {}, mq := [],
    loads := [], tokens := [], stalls := [] }

/-- The result bytes of a KERNEL's completion (R404). -/
def Task.result (t : Task) : List Byte :=
  leBytes 4 t.failLcid ++ [BitVec.ofNat 8 t.failCause, 0, 0, 0] ++ leBytes 4 t.switches

/-- PREEMPT_REQ.BUSY of the hub that leads a task clears when the task has left its cores (Table 13-10). -/
def State.preemptDone (s : State) (t : Task) : State :=
  match s.leadStack t with
  | some st => if t.request % 3 = 0 then s else s.setFld (Page.scheduler st) Reg.PREEMPT_REQ 1 1 0
  | none => s

/-- The KERNEL of a task completes with a status: its cores are free, its staging ends, and its completion
entry is written (R404, R408, R412). -/
def State.kernelComplete (s : State) (t : Nat) (x : Task) (status : Nat) : State :=
  let cs := (s.taskCores x).filter fun c => decide ((s.core c).task = some t)
  let s := cs.foldl State.freeCore s
  let s := { s with tasks := s.tasks.drop fun k => k == t, stages := s.stages.filter fun g => decide (g.task ≠ t) }
  ((s.refreshLead x).preemptDone x).complete x.queue x.seq status 0 x.result

/-- KERNEL_COMPLETE: when every core of a task has ended, its KERNEL completes with OK (R404). -/
def State.kernelCheck (s : State) (t : Nat) : State :=
  match s.task t with
  | some x =>
    if x.status = .running ∧ x.logical.all (fun q => x.ended.contains (lcidOf q)) = true then
      s.kernelComplete t x St.ok
    else s
  | none => s

end Sys2Proof.Machine
end

