-- ==== Sys2Proof/Machine/CoreControl.lean ====
section
/-!
DEFINITION. The control instructions (R207 to R212, Tables 6-16 and 6-17).
-/
namespace Sys2Proof.Machine

/-- NOP (R207). -/
def semNop (s : State) (c : Nat) (k : Core) (w : Word) : Issue :=
  if zf w 55 0 then coreDone s c k else .il

/-- NOP (R207). -/
def execNop (c : Nat) (s : State) : Out := .next (s.issue c .nop (semNop s c))

/-- Whether a token is a pending SEND.H (Table 3-5). -/
def Token.isSendH (t : Token) : Bool := decide (t.kind = 4) && decide (t.port = 0)

/-- BAR waits for the tokens of earlier XFER.S and SEND.H, then arrives at its barrier; PC holds its address
until the release (R209, R210). -/
def semBar (s : State) (c : Nat) (k : Core) (w : Word) : Issue :=
  if k.tokens.any fun t => decide (t.2.kind = 2) || t.2.isSendH then .held
  else if zf w 55 5 then .done (s.setCore c { k with wait := .barrier (bits w 3 0) (bit w 4) }) k.pc
  else .il

/-- BAR (R209). -/
def execBar (c : Nat) (s : State) : Out := .next (s.issue c .bar (semBar s c))

/-- Whether every token of a mask is idle. -/
def Core.tokensIdle (k : Core) (mask : Nat) : Bool :=
  (List.range 16).all fun t => !mask.testBit t || !k.tokenBusy t

/-- TWAIT is held until every token of TMASK is idle; TMASK is non-zero (R207). -/
def semTwait (s : State) (c : Nat) (k : Core) (w : Word) : Issue :=
  if !k.tokensIdle (bits w 15 0) then .held
  else if !zf w 55 16 ∨ zf w 15 0 then .il
  else coreDone s c k

/-- TWAIT (R207). -/
def execTwait (c : Nat) (s : State) : Out := .next (s.issue c .twait (semTwait s c))

/-- SYNC.I is held until the core's earlier local-store writes have completed, its pending XFER.L and RECV
among them, and then discards the instruction buffer (R86, R207; log row 14). -/
def semSyncI (s : State) (c : Nat) (k : Core) (w : Word) : Issue :=
  if k.tokens.any fun t => decide (t.2.kind = 1) || decide (t.2.kind = 5) then .held
  else if zf w 55 0 then coreDone s c { k with ibuf := [] }
  else .il

/-- SYNC_I (R86). -/
def execSyncI (c : Nat) (s : State) : Out := .next (s.issue c .syncI (semSyncI s c))

/-- EVT posts an event with CODE 0x8000 + CODE and PAYLOAD x[XA] from the COMPUTE_DIE page, in the task's
partition (R212). -/
def semEvt (s : State) (c : Nat) (k : Core) (w : Word) : Issue :=
  if !zf w 55 51 ∨ !zf w 45 15 then .il
  else coreDone (s.genEvent (corePage c) (0x8000 + bits w 14 0) (s.corePart c) (k.rx (Ins.a w))) c k

/-- EVT (R212). -/
def execEvt (c : Nat) (s : State) : Out := .next (s.issue c .evt (semEvt s c))

/-- The control registers of Table 6-17; none for a reserved number (R208). -/
def State.controlReg (s : State) (c : Nat) (k : Core) (n : Nat) : Option Word :=
  match n with
  | 0x00 => some k.fflags
  | 0x01 => some k.srkey
  | 0x02 => some (BitVec.ofNat 64 k.srseq)
  | 0x03 => some (BitVec.ofNat 64 k.vl)
  | 0x04 => some (BitVec.ofNat 64 k.vtype)
  | 0x05 => some (BitVec.ofNat 64 k.vstart)
  | 0x08 => some (BitVec.ofNat 64 (s.lcid c))
  | 0x09 => some (match s.coreTask c with
      | some (_, x) => BitVec.ofNat 64 x.jobTag
      | none => 0)
  | 0x0A => some s.panelTime
  | _ => none

/-- CRD (R208). -/
def semCrd (s : State) (c : Nat) (k : Core) (w : Word) : Issue :=
  if !zf w 50 8 then .il
  else match s.controlReg c k (bits w 7 0) with
    | some v => coreDone s c (k.wx (Ins.d w) v)
    | none => .il

/-- CRD (R208). -/
def execCrd (c : Nat) (s : State) : Out := .next (s.issue c .crd (semCrd s c))

/-- FFLAGS with its reserved bits [31:6] ignored (R5, R61). -/
def fflagsOf (v : Word) : Word := place 63 32 (bits v 63 32) ||| place 5 0 (bits v 5 0)

/-- CWR writes FFLAGS, SRKEY (which zeroes SRSEQ, R53) or VSTART; every other number is IL (R208). -/
def semCwr (s : State) (c : Nat) (k : Core) (w : Word) : Issue :=
  let v := k.rx (Ins.a w)
  if !zf w 55 51 ∨ !zf w 45 8 then .il
  else match bits w 7 0 with
    | 0x00 => coreDone s c { k with fflags := fflagsOf v }
    | 0x01 => coreDone s c { k with srkey := v, srseq := 0 }
    | 0x05 => coreDone s c { k with vstart := bits v 4 0 }
    | _ => .il

/-- CWR (R208). -/
def execCwr (c : Nat) (s : State) : Out := .next (s.issue c .cwr (semCwr s c))

/-- END is held until the matrix queue and the weight loads are empty and every token is idle; the core then
reports completion to its scheduler and issues nothing further (R211). -/
def semEnd (s : State) (c : Nat) (k : Core) (w : Word) : Issue :=
  if k.mq ≠ [] ∨ k.loads ≠ [] ∨ !k.tokensIdle 0xFFFF then .held
  else if !zf w 55 0 then .il
  else .done (s.setCore c { k with ended := true }) ((k.pc + 8) % 2 ^ 18)

/-- The scheduler notes that a core's program has ended and completes the KERNEL when it was the last (R404,
R211). -/
def State.noteEnd (s : State) (c : Nat) : State :=
  match s.coreTask c with
  | some (t, x) =>
    if (s.core c).ended ∧ !x.ended.contains (s.lcid c) then
      (s.setTask t { x with ended := x.ended ++ [s.lcid c] }).kernelCheck t
    else s
  | none => s

/-- END (R211, R404). -/
def execEndProg (c : Nat) (s : State) : Out := .next ((s.issue c .endProg (semEnd s c)).noteEnd c)

end Sys2Proof.Machine
end

