-- ==== Sys2Proof/Machine/CoreEvents.lean ====
section
/-!
DEFINITION. Events of the cores: instruction fetch (R86), the stream path and the weight loads (R94, R114, R116,
R118, R125), stream ports (R87, R88, R91), SEND.H arrivals (R205, R206), the drain of a stopped core (R94, R96)
and the current keeper (R132 to R137).
-/
namespace Sys2Proof.Machine

/-- Whether a core holds a program that has not ended. -/
def Core.active_ (k : Core) : Bool := decide (k.status = .running) && !k.ended

/-- A core enters FAULTED: CORE_FAULTED, and ROW_EXHAUSTED where both skip positions of its row are FAULTED cores
(R575, R576). -/
def State.enterFaulted (s : State) (c cause : Nat) : State :=
  let s := s.modCore c fun k => { k with status := .faulted }
  let s := s.genEvent (corePage c) 0x0110 (s.corePart c)
    (place 4 0 (coreRow c) ||| place 13 8 (corePcol c) ||| place 23 16 cause)
  let k := s.rowSkips (coreStack c) (coreDie c) (coreRow c)
  let at_ := fun p => (s.core (coreKey (coreStack c) (coreDie c) (coreRow c * 42 + p))).status
  if at_ k.1 = .faulted ∧ at_ k.2 = .faulted then
    s.genEvent (corePage c) 0x0111 (s.corePart c) (place 4 0 (coreRow c))
  else s

/-- A CORE_DATA fault stops the core (R85, R98); in the arrays it also makes the core FAULTED (R101). -/
def State.coreData (s : State) (c fpc faddr : Nat) (finstr : Word) (arrays : Bool) : State :=
  let s := s.modCore c fun k => { (k.stopWith ⟨0x07, St.dataUncorrectable, 0xFFFF, fpc, faddr, finstr⟩) with drained := false }
  if arrays then s.enterFaulted c 0x07 else s

/-- INSTR_FETCH: a 64 B line of a running core is fetched into its instruction buffer, in place of the least
recently used of 64 lines (R86). An uncorrectable error in the line of PC is a CORE_DATA fault; ahead of issue
the line is not fetched (R85). -/
def execInstrFetch (c line : Nat) (ecc : Ecc) (s : State) : Out :=
  let k := s.core c
  .next (if !k.active_ ∨ 4096 ≤ line then s
    else if ecc = .uncorrectable then
      if line = k.pc / 64 then s.coreData c k.pc (64 * line) 0 false else s
    else
      let v := BitVec.ofNat 512 (s.mem.readNat (lsBase c + 64 * line) 64)
      (s.countEcc c ecc).setCore c { k with
        ibuf := ((line, v) :: k.ibuf.filter fun l => decide (l.1 ≠ line)).take 64 })

/-! ### The current keeper -/

/-- Keeper state of an array of a core. -/
def Core.keeper (k : Core) (a : Nat) : KeepState := k.keep.get {} a

/-- Sets the keeper state of an array. -/
def Core.setKeeper (k : Core) (a : Nat) (x : KeepState) : Core := { k with keep := k.keep.set a x }

/-- EFFECTIVE_GAP of a core's die (Table 4-16). -/
def State.effectiveGap (s : State) (c : Nat) : Nat := s.fld (corePage c) 0x200 7 0

/-- The arrays of the head MMA of the queue, if one is there. -/
def Core.headArrays (k : Core) : List Nat :=
  match k.mq with
  | e :: _ => match shapeOf e.instr with
    | some sh => arraysOf sh e.instr
    | none => []
  | [] => []

/-- Starts the head MMA: its rows stream as far as they have arrived (R94, R116, R118). -/
def State.startHead (s : State) (c : Nat) (ecc : Ecc) : State :=
  let k := s.core c
  match k.mq with
  | e :: _ =>
    if ecc = .uncorrectable then s.coreData c e.pc e.opa.toNat e.instr true
    else (s.countEcc c ecc).setCore c (runHead s c k)
  | [] => s

/-- MMA_START: the stream path starts the head MMA of the queue. An array below 100 % first rises by one quarter;
from 75 % the MMA starts at once, and from less it waits for the ramp, which is counted (R118, R134, R137). -/
def execMmaStart (c : Nat) (ecc : Ecc) (s : State) : Out :=
  let k := s.core c
  let arrays := k.headArrays
  let q := arrays.foldl (fun m a => min m (k.keeper a).level) 4
  let waiting := arrays.any fun a => (k.keeper a).ramping
  let fresh := match k.mq with
    | e :: _ => !e.started
    | [] => false
  .next (if arrays = [] ∨ !fresh ∨ waiting ∨ k.drained ∨ (k.status ≠ .running ∧ k.status ≠ .stopped) then s
    else if q = 4 then s.startHead c ecc
    else
      let up := arrays.foldl (fun k a =>
        let x := k.keeper a
        if x.level < 4 then k.setKeeper a ⟨x.level + 1, decide (x.level + 1 < 4)⟩ else k) k
      let s := s.setCore c up
      if q = 3 then s.startHead c ecc
      else (s.bump (corePage c) 9).bump (corePage c) 10 (16 * (3 - q)))

/-- KEEP_RAMP_STEP: 16 CCLK cycles later a rising array gains a quarter, running dummy rows meanwhile; at 100 % on
every array of the due MMA, it starts (R134, R137). -/
def execKeepRampStep (c a : Nat) (s : State) : Out :=
  let k := s.core c
  let x := k.keeper a
  .next (if !x.ramping then s
    else
      let k := k.setKeeper a ⟨x.level + 1, decide (x.level + 1 < 4)⟩
      let s := (s.bumpUnits (corePage c) 8 16 1024).setCore c k
      if !k.drained && decide (k.status = .running ∨ k.status = .stopped)
          && k.headArrays.all fun b => decide ((k.keeper b).level = 4) then s.startHead c .ok else s)

/-- KEEP_LEVEL_FALL: after EFFECTIVE_GAP gap cycles an array falls by one quarter, and by another every 32 cycles
(R132, R133, R137). -/
def execKeepLevelFall (c a : Nat) (s : State) : Out :=
  let k := s.core c
  let x := k.keeper a
  .next (if x.ramping ∨ x.level = 0 then s
    else (s.bumpUnits (corePage c) 8 (if x.level = 4 then s.effectiveGap c else 32) 1024).setCore c
      (k.setKeeper a ⟨x.level - 1, false⟩))

/-- PORT_ROW_WAIT_END: the row that the running MMA waits for is in its FIFO, and it streams on (R114, R118). -/
def execPortRowWaitEnd (c : Nat) (s : State) : Out :=
  let k := s.core c
  .next (match k.mq with
  | e :: _ => if e.started ∧ !k.drained ∧ k.status ≠ .faulted then s.setCore c (runHead s c k) else s
  | [] => s)

/-! ### Weight loads -/

/-- The element area that an MLW loads into one bank from the tile of the j-th named array: columns of 16 B in
bank layout, or k-rows transposed into it (R124, Table 4-11). -/
def mlwElems (m : Memory) (base : Nat) (l : MlwLoad) (j : Nat) : BitVec 8192 :=
  let a := base + l.opa.toNat
  let f := Mma.wfmt l.instr
  if bit l.instr 30 then
    let w := matWidth f
    let kr := mlwRows f
    let row := fun i => m.readNat (a + i * bits l.opb 49 32 + j * kr.2) kr.2
    let rows := (List.range kr.1).map row
    BitVec.ofNat 8192 (packElems 128 ((List.range 64).map fun n => packElems w (rows.map fun r => elem r w n)))
  else BitVec.ofNat 8192 (m.readNat (a + j * 0x400) 1024)

/-- The side area that an MLW loads: 64 entries, each with HALF in its byte 3 (R109, R124). -/
def mlwSide (m : Memory) (base : Nat) (l : MlwLoad) (j : Nat) (old : BitVec 2048) : BitVec 2048 :=
  let n := wSideLen l.instr
  if n = 0 then old
  else
    let half := if bit l.opb 24 then 2 ^ 24 else 0
    BitVec.ofNat 2048 (packElems 32 ((List.range 64).map fun i =>
      m.readNat (base + bits l.opb 17 0 + (j * 64 + i) * n) n + half))

/-- Finishes one weight-bank load: elements, side entries and format tag of each named bank; ACTIVE stays (R124). -/
def finishLoad (m : Memory) (c : Nat) (k : Core) (l : MlwLoad) : Core :=
  let arrays := maskArrays (amask l.instr)
  let b := bits l.instr 31 31
  (List.range arrays.length).foldl (fun k j =>
    let key := bankKey (arrays.getD j 0) b
    let old := k.wbank.get {} key
    let b' : WBank := { old with
      elems := mlwElems m (lsBase c) l j
      side := mlwSide m (lsBase c) l j old.side
      wfmt := Mma.wfmt l.instr
      scaled := Mma.wsc l.instr
      transposed := bit l.instr 30 }
    { k with wbank := k.wbank.set key b' }) k

/-- MLW_LOAD_DONE: the oldest weight-bank load of a core finishes (R125). -/
def execMlwLoadDone (c : Nat) (ecc : Ecc) (s : State) : Out :=
  let k := s.core c
  .next (match k.loads with
  | [] => s
  | l :: rest =>
    if ecc = .uncorrectable then s.coreData c l.pc l.opa.toNat l.instr true
    else (s.countEcc c ecc).setCore c { finishLoad s.mem c k l with loads := rest })

/-! ### Stream ports -/

/-- Credits a core holds for a port (R87). -/
def Core.credit (k : Core) (port : Nat) : Nat := k.credits.get 16 port

/-- The SEND whose turn it is on a port: the earliest in program order (R203). -/
def Core.sendTurn (k : Core) (port : Nat) : Option (Nat × Token) :=
  (k.tokens.filter fun t => decide (t.2.kind = 4 ∧ t.2.port = port) && !t.2.faulted).foldl
    (fun (b : Option (Nat × Token)) t => match b with
      | none => some t
      | some u => if t.2.seq < u.2.seq then some t else some u) none

/-- STREAM_UNIT_ARRIVE: the next unit of the SEND whose turn it is on a port enters the neighbour's receive FIFO,
and a RECV that waits there takes it (R87, R88, R202, R203). An uncorrectable error in the unit's read stops the
core with a TOKEN_ACCESS fault (R85). -/
def execStreamUnitArrive (c port : Nat) (ecc : Ecc) (s : State) : Out :=
  let k := s.core c
  .next (match s.neighbour c port, k.sendTurn port with
  | some n, some (t, x) =>
    if k.credit port = 0 ∨ k.drained then s
    else if ecc = .uncorrectable then s.tokenFault c t St.dataUncorrectable 0
    else
      let u := BitVec.ofNat 256 (s.mem.readNat (lsBase c + x.lsaddr + x.done) 32)
      let k := { k with credits := k.credits.set port (k.credit port - 1) }.advanceToken t 32
      let s := (s.countEcc c ecc).setCore c k
      let p := oppositePort port
      let s := s.modCore n fun r => { r with fifo := r.fifo.mod [] p fun l => l ++ [u] }
      if ((s.core n).status = .running ∨ (s.core n).status = .stopped) ∧ !(s.core n).drained then pumpRecv n p 17 s else s
  | _, _ => s)

/-- Returns one credit owed by a core on a port to its neighbour (R88). -/
def State.returnCredit (s : State) (c port : Nat) : State :=
  match s.neighbour c port with
  | none => s
  | some n =>
    let k := s.core c
    if k.owed.get 0 port = 0 then s
    else
      let s := s.setCore c { k with owed := k.owed.set port (k.owed.get 0 port - 1) }
      let p := oppositePort port
      s.modCore n fun r => { r with credits := r.credits.set p (min 16 (r.credit p + 1)) }

/-- CREDIT_RETURN: a credit that a core owes for a freed entry of a port returns to the sender (R87, R88). -/
def execCreditReturn (c port : Nat) (s : State) : Out := .next (s.returnCredit c port)

/-- The core that a SEND.H destination word names: a logical core (Table 6-14, R89). -/
def State.destCore (s : State) (d : Word) : Option Nat :=
  if Dest.row d ≤ 29 ∧ Dest.col d ≤ 39 then s.physOf (Dest.stack d, Dest.die d, Dest.row d, Dest.col d) else none

/-- The SEND.H whose turn it is: the earliest of a core (R89). -/
def Core.sendHTurn (k : Core) : Option (Nat × Token) :=
  (k.tokens.filter fun t => decide (t.2.kind = 4 ∧ t.2.port = 0) && !t.2.faulted).foldl
    (fun (b : Option (Nat × Token)) t => match b with
      | none => some t
      | some u => if t.2.seq < u.2.seq then some t else some u) none

/-- SEND_H_ARRIVAL: the next unit of a core's SEND.H arrives. The destination writes and counts it when it holds a
task of the sender's partition and its token is armed over the unit; otherwise it writes nothing, and the sender
stops with PERMISSION_FAULT in its token (R205, R206, R221). -/
def execSendHArrival (c : Nat) (ecc : Ecc) (s : State) : Out :=
  let k := s.core c
  .next (match k.sendHTurn with
  | none => s
  | some (t, x) =>
    if k.drained then s
    else if ecc = .uncorrectable then s.tokenFault c t St.dataUncorrectable 0
    else
      let at_ := Dest.lsaddr x.dest + x.done
      match s.destCore x.dest with
      | none => s.tokenFault c t St.permissionFault 0
      | some d =>
        let r := s.core d
        let y := r.tokens.get {} (Dest.tok x.dest)
        let ok := r.task.isSome && decide (s.corePart d = s.corePart c ∧ y.kind = 3 ∧ y.lsaddr ≤ at_
          ∧ at_ + 32 ≤ y.lsaddr + y.length) && decide (s.lsStatus d = St.ok)
        if ok then
          let s := (s.countEcc c ecc).writeBytes (lsBase d + at_) (s.mem.readBytes (lsBase c + x.lsaddr + x.done) 32)
          let s := s.modCore d fun r => r.advanceToken (Dest.tok x.dest) 32
          s.modCore c fun k => k.advanceToken t 32
        else s.tokenFault c t St.permissionFault 0)

/-- PORT_STALL: a stream instruction of a running core, the token's operation or (for 16) the MMA that waits for a
port row, has moved no data for PORT_STALL_LIMIT; it posts the event once (R91, Table 3-14). -/
def execPortStall (c op : Nat) (s : State) : Out :=
  let k := s.core c
  let found : Option (Nat × Nat) :=
    if op = 16 then
      match k.mq with
      | e :: _ => if e.started ∧ Mma.src e.instr ≠ 0 then some (Mma.src e.instr, e.seq) else none
      | [] => none
    else
      let t := k.tokens.get {} op
      if (t.kind = 4 ∨ t.kind = 5) ∧ !t.faulted then some (if t.port = 0 then 5 else t.port, t.seq) else none
  .next (match found, s.logicalCol c with
  | some (port, seq), some col =>
    if k.status ≠ .running ∨ s.fld (corePage c) Reg.PORT_STALL_LIMIT 15 0 = 0 ∨ k.stalls.contains seq then s
    else
      let job := match s.coreTask c with
        | some (_, x) => x.jobTag
        | none => 0
      (s.setCore c { k with stalls := seq :: k.stalls }).genEvent (corePage c) 0x0220 (s.corePart c)
        (place 4 0 (coreRow c) ||| place 13 8 (corePcol c) ||| place 21 16 col ||| place 26 24 port ||| place 59 48 job)
  | _, _ => s)

/-! ### Drain -/

/-- Runs the matrix queue to its end, or to a port row that has not arrived (R94). -/
def drainQueue (s : State) (c : Nat) : Nat → Core → Core
  | 0, k => k
  | n + 1, k =>
    let k' := runHead s c k
    if k'.mq.length < k.mq.length then drainQueue s c n k' else k'

/-- Whether every pending transfer and SEND.H stands at a 128 B boundary of its global address or source (R96,
R206). -/
def Core.atBoundary (k : Core) : Bool :=
  k.tokens.all fun e =>
    let t := e.2
    if t.faulted then true
    else if t.kind = 1 ∨ t.kind = 2 then decide (t.done = 0 ∨ (t.gaddr + t.done) % 128 = 0)
    else if t.isSendH then decide (t.done = 0 ∨ (t.lsaddr + t.done) % 128 = 0)
    else true

/-- CORE_DRAIN_DONE: a stopped core has drained: its weight loads have completed, its matrix queue is empty or waits
for a port row, its transfers stand at 128 B boundaries, and the credits it owes have returned (R93, R94, R96,
R97, R206). A core that stands at a cheap point of its pre-emption has stopped (R416). -/
def execCoreDrainDone (c : Nat) (s : State) : Out :=
  let k := s.core c
  let k := if k.atCheapStop ∧ k.wait = .none then k.halt else k
  .next (if (k.status ≠ .stopped ∧ k.status ≠ .faulted) ∨ k.wait ≠ .none ∨ !k.atBoundary ∨ k.drained then s
    else
      let k : Core := { k.loads.foldl (finishLoad s.mem c) k with loads := [] }
      let k := if k.status = .faulted then k else drainQueue s c 8 k
      let s := s.setCore c { k with drained := true }
      [1, 2, 3, 4].foldl (fun s p => (List.range 16).foldl (fun s _ => s.returnCredit c p) s) s)

end Sys2Proof.Machine
end

