-- ==== Sys2Proof/Machine/Image.lean ====
section
/-!
DEFINITION. CRC32C, the program image header with its cheap-point table (R213 to R216), and the check of R214.
-/
namespace Sys2Proof.Machine

/-- One bit of a CRC32C step: the reflected Castagnoli polynomial. -/
def crcBit (c : Nat) : Nat := if c % 2 = 1 then (c >>> 1) ^^^ 0x82F63B78 else c >>> 1

/-- n bit steps. -/
def crcBits : Nat → Nat → Nat
  | 0, c => c
  | n + 1, c => crcBits n (crcBit c)

/-- CRC32C over a byte string (log row 21). -/
def crc32c (bs : List Byte) : Nat := (bs.foldl (fun c b => crcBits 8 (c ^^^ b.toNat)) 0xFFFFFFFF) ^^^ 0xFFFFFFFF

/-- n bytes at an offset of a byte string, as a little-endian number. -/
def leAt (bs : List Byte) (off n : Nat) : Nat := ofLeBytes ((bs.drop off).take n)

/-- Whether n bytes at an offset are zero. -/
def zeroAt (bs : List Byte) (off n : Nat) : Bool := ((bs.drop off).take n).all fun b => decide (b = 0)

/-- The fields of a program image header that the scheduler uses (Table 6-18), and its cheap-point table. -/
structure Image where
  version : Nat
  codeOff : Nat
  codeSize : Nat
  loadAddr : Nat
  loadRaw : Nat
  entryRaw : Nat
  lsUsed : Nat
  cheapOff : Nat
  magicOk : Bool
  crcOk : Bool
  zero : Bool
  wbankUsed : Nat
  ncheap : Nat
  cheap : List CheapPoint
  deriving DecidableEq, Repr

/-- Reads a cheap-point entry from its 32 bytes. -/
def cheapOf (bs : List Byte) : CheapPoint :=
  ⟨leAt bs 0 4, leAt bs 4 4, leAt bs 8 8, leAt bs 16 4, leAt bs 20 1, zeroAt bs 21 11⟩

/-- Reads a header and its cheap-point table. -/
def imageOf (h t : List Byte) : Image :=
  { version := leAt h 4 2, codeOff := leAt h 8 4, codeSize := leAt h 12 4, loadAddr := leAt h 16 4 % 2 ^ 18,
    loadRaw := leAt h 16 4, entryRaw := leAt h 20 4, lsUsed := leAt h 24 8, cheapOff := leAt h 48 4,
    magicOk := decide (h.take 4 = [0x50, 0x5A, 0x4B, 0x49]),
    crcOk := decide (leAt h 60 4 = crc32c (h.take 60 ++ t)),
    zero := zeroAt h 46 2 && zeroAt h 52 8, wbankUsed := leAt h 44 1, ncheap := leAt h 6 2,
    cheap := (List.range (leAt h 6 2)).map fun i => cheapOf ((t.drop (32 * i)).take 32) }

/-- The 4 KiB units of local store that the code lies in, as a mask. -/
def Image.codeUnits (m : Image) : Nat :=
  ((List.range 64).filter fun j => decide (m.loadAddr < 4096 * (j + 1) ∧ 4096 * j < m.loadAddr + m.codeSize)).foldl
    (fun a j => a ||| 2 ^ j) 0

/-- Whether cheap points are in strictly ascending order (R215). -/
def ascending : List CheapPoint → Bool
  | a :: b :: t => decide (a.pc < b.pc) && ascending (b :: t)
  | _ => true

/-- Step 3 of R214 for one cheap point: its address, its reserved bits and bytes, and the units of the code in its
LSMASK. -/
def Image.cheapOk (m : Image) (p : CheapPoint) : Bool :=
  decide (p.pc % 8 = 0 ∧ m.loadAddr ≤ p.pc ∧ p.pc < m.loadAddr + m.codeSize ∧ p.wmask < 16)
    && p.zero && decide (m.codeUnits &&& p.lsmask = m.codeUnits)

/-- PROGRAM_HEADER_CHECK: the first failing step of R214; OK where none fails. LOAD_ADDR occupies [17:0] of its
word. -/
def Image.check (m : Image) : Nat :=
  if !m.magicOk ∨ !m.crcOk then St.inputCorrupt
  else if m.version / 256 ≠ 0x11 ∨ m.version % 256 ≠ 0 then St.versionMismatch
  else if 256 < m.ncheap ∨ m.codeOff % 64 ≠ 0 ∨ m.codeSize % 8 ≠ 0 ∨ m.codeSize < 8 ∨ 262144 < m.codeSize
      ∨ m.loadRaw ≠ m.loadAddr ∨ m.loadAddr % 64 ≠ 0 ∨ m.entryRaw % 8 ≠ 0 ∨ 2 ^ 18 ≤ m.entryRaw
      ∨ m.entryRaw < m.loadAddr ∨ m.loadAddr + m.codeSize ≤ m.entryRaw ∨ m.cheapOff % 32 ≠ 0 ∨ 16 ≤ m.wbankUsed
      ∨ !m.zero ∨ 2 ^ 18 < m.loadAddr + m.codeSize ∨ m.codeUnits &&& m.lsUsed ≠ m.codeUnits
      ∨ !ascending m.cheap ∨ !m.cheap.all m.cheapOk then St.inputCorrupt
  else St.ok

/-- Reads the header and cheap-point table of an image at a virtual address. More than 256 cheap points are not
read: the image fails in any case. -/
def State.readImage (s : State) (x : Ctxt) (va : Nat) : Ended × Image × State :=
  let h := s.vread x va 64
  match h.1 with
  | .status st =>
    if st ≠ St.ok then (h.1, imageOf [] [], h.2.2)
    else
      let n := leAt h.2.1 6 2
      let t := h.2.2.vread x (va + leAt h.2.1 48 4) (32 * min n 256)
      (t.1, imageOf h.2.1 t.2.1, t.2.2)
  | e => (e, imageOf [] [], h.2.2)

end Sys2Proof.Machine
end

