-- ==== Sys2Proof/Machine/Record.lean ====
section
/-!
DEFINITION. The save record of a core (R71 to R74, R95 to R97, R100, Tables 3-2 to 3-7 and 3-13): its words, the
core that a record describes, and the checks of a restore (R74, R131).
-/
namespace Sys2Proof.Machine

/-- Size of a record. -/
abbrev recordSize : Nat := 0x68000

/-- Word i of a wide value. -/
def wordAt (v i : Nat) : Word := BitVec.ofNat 64 (v >>> (64 * i))

/-- The position of a program-order number among the operations of one kind: ORDER of R97. -/
def orderOf (seqs : List Nat) (x : Nat) : Nat := (seqs.filter fun y => decide (y < x)).length

/-- Program order of the consumers of a receive FIFO: its RECV tokens and the MMAs that name it (R97, R203). -/
def Core.consumers (k : Core) (port : Nat) : List Nat :=
  ((k.tokens.filter fun t => decide (t.2.kind = 5 ∧ t.2.port = port)).map fun t => t.2.seq)
    ++ (k.mq.filter fun e => (shapeOf e.instr).isSome && decide (Mma.src e.instr = port)).map MqEntry.seq

/-- Program order of the SENDs of a port, and for port 0 of the SEND.H tokens (R97). -/
def Core.senders (k : Core) (port : Nat) : List Nat :=
  (k.tokens.filter fun t => decide (t.2.kind = 4 ∧ t.2.port = port)).map fun t => t.2.seq

/-- Word j of a matrix queue entry (Table 3-4). -/
def Core.mqWord (k : Core) (e : MqEntry) (j : Nat) : Word :=
  match j with
  | 0 => e.instr
  | 1 => e.opa
  | 2 => e.opb
  | _ =>
    let port := if (shapeOf e.instr).isSome then Mma.src e.instr else 0
    place 63 63 1 ||| place 8 0 e.nextRow
      ||| (if port = 0 then 0 else place 13 9 (orderOf (k.consumers port) e.seq))

/-- Word j of a token record (Table 3-5). -/
def Core.tokenWord (k : Core) (t : Token) (j : Nat) : Word :=
  match j with
  | 0 => BitVec.ofNat 64 t.gaddr
  | 1 => place 17 0 t.lsaddr ||| place 63 32 t.length
  | 2 =>
    let order := if t.kind = 4 then orderOf (k.senders t.port) t.seq
      else if t.kind = 5 then orderOf (k.consumers t.port) t.seq else 0
    place 31 0 t.done ||| place 39 32 t.kind ||| place 40 40 t.faulted.toNat ||| place 55 48 t.status
      ||| place 58 56 t.port ||| place 63 59 order
  | _ => t.dest

/-- Word j of the fault record (Table 3-7). -/
def FaultRec.word (f : FaultRec) (j : Nat) : Word :=
  match j with
  | 0 => place 7 0 f.cause ||| place 15 8 f.status ||| place 31 16 f.index
  | 1 => BitVec.ofNat 64 f.fpc
  | 2 => BitVec.ofNat 64 f.faddr
  | _ => f.finstr

/-- The word at offset o of the control area (Table 3-3). -/
def Core.controlWord (k : Core) (info : Word) (o : Nat) : Word :=
  if o < 0x100 then k.rx (o / 8)
  else if o < 0x200 then wordAt (k.rk ((o - 0x100) / 32)).toNat (o % 32 / 8)
  else if o < 0x240 then
    match (o - 0x200) / 8 with
    | 0 => BitVec.ofNat 64 k.pc
    | 1 => BitVec.ofNat 64 k.vl
    | 2 => BitVec.ofNat 64 k.vtype
    | 3 => BitVec.ofNat 64 k.vstart
    | 4 => k.fflags
    | 5 => k.srkey
    | 6 => BitVec.ofNat 64 k.srseq
    | _ => info
  else if o < 0x2C0 then
    match k.mq[(o - 0x240) / 32]? with
    | some e => k.mqWord e (o % 32 / 8)
    | none => 0
  else if o < 0x2E0 then k.fault.word (o % 32 / 8)
  else if o < 0x330 then
    let p := (o - 0x2E0) / 16 + 1
    if o % 16 = 0 then place 7 0 (k.fifo.get [] p).length ||| place 15 8 (k.credit p) else 0
  else if o < 0x400 then 0
  else if o < 0x600 then k.tokenWord (k.tokens.get {} ((o - 0x400) / 32)) (o % 32 / 8)
  else if o < 0x1000 then 0
  else if o < 0x1A00 then
    let p := (o - 0x1000) / 512 + 1
    match (k.fifo.get [] p)[o % 512 / 32]? with
    | some u => wordAt u.toNat (o % 32 / 8)
    | none => 0
  else 0

/-- FLAGS of a weight bank's tag (Table 4-10). -/
def WBank.tag (b : WBank) : Word :=
  place 7 0 b.wfmt ||| place 8 8 b.scaled.toNat ||| place 9 9 b.transposed.toNat ||| place 10 10 b.active.toNat

/-- The word at a record offset from the accumulators upward (Table 3-2); local store is not part of `Core`. -/
def Core.recWord (k : Core) (info : Word) (off : Nat) : Word :=
  if off < 0x40000 then 0
  else if off < 0x60000 then wordAt (k.accRow ((off - 0x40000) / 256)).toNat (off % 256 / 8)
  else if off < 0x62000 then wordAt (k.rv ((off - 0x60000) / 256)).toNat (off % 256 / 8)
  else if off < 0x64000 then
    let b := k.wbank.get {} ((off - 0x62000) / 0x800)
    let o := off % 0x800
    if o < 0x400 then wordAt b.elems.toNat (o / 8)
    else if o < 0x500 then wordAt b.side.toNat ((o - 0x400) / 8)
    else if o = 0x500 then b.tag
    else 0
  else k.controlWord info (off - 0x64000)

/-- n words from a record offset, as one number. -/
def recNat (w : Nat → Word) (off n : Nat) : Nat := packElems 64 ((List.range n).map fun i => (w (off + 8 * i)).toNat)

/-- The token that a record describes; a faulted one continues from DONE (R96, R353). -/
def tokenOf (w : Nat → Word) (t : Nat) : Token :=
  let a := 0x64400 + 32 * t
  let w2 := w (a + 16)
  { kind := bits w2 39 32, gaddr := (w a).toNat, lsaddr := bits (w (a + 8)) 17 0, length := bits (w (a + 8)) 63 32,
    done := bits w2 31 0, faulted := bit w2 40, status := bits w2 55 48, port := bits w2 58 56, dest := w (a + 24),
    seq := bits w2 63 59 }

/-- The weight bank that a record describes. -/
def wbankOf (w : Nat → Word) (b : Nat) : WBank :=
  let a := 0x62000 + 0x800 * b
  let t := w (a + 0x500)
  { elems := BitVec.ofNat 8192 (recNat w a 128), side := BitVec.ofNat 2048 (recNat w (a + 0x400) 32),
    wfmt := bits t 7 0, scaled := bit t 8, transposed := bit t 9, active := bit t 10 }

/-- The valid matrix queue entries of a record, up to the first invalid one (Table 3-4). -/
def mqOf (w : Nat → Word) : Nat → Nat → List MqEntry
  | 0, _ => []
  | n + 1, i =>
    let a := 0x64240 + 32 * i
    let st := w (a + 24)
    if bit st 63 then
      let port := if (shapeOf (w a)).isSome then Mma.src (w a) else 0
      { instr := w a, opa := w (a + 8), opb := w (a + 16), nextRow := bits st 8 0,
        seq := if port = 0 then i else bits st 13 9 } :: mqOf w n (i + 1)
    else []

/-- The fault record that a record holds. -/
def faultOf (w : Nat → Word) : FaultRec :=
  let a := w 0x642C0
  ⟨bits a 7 0, bits a 15 8, bits a 31 16, (w 0x642C8).toNat, (w 0x642D0).toNat, w 0x642D8⟩

/-- The architectural state of a record put into a core: everything of Table 3-1 but its local store (R74). -/
def coreOfRecord (k : Core) (w : Nat → Word) : Core :=
  let port := fun p => w (0x642E0 + 16 * (p - 1))
  { k with
    x := (List.range 31).map fun i => (i + 1, w (0x64008 + 8 * i))
    v := (List.range 32).map fun i => (i, BitVec.ofNat 2048 (recNat w (0x60000 + 256 * i) 32))
    k := (List.range 8).map fun i => (i, BitVec.ofNat 256 (recNat w (0x64100 + 32 * i) 4))
    vl := bits (w 0x64208) 8 0
    vtype := bits (w 0x64210) 1 0
    vstart := bits (w 0x64218) 4 0
    wbank := (List.range 4).map fun b => (b, wbankOf w b)
    srkey := w 0x64228
    srseq := bits (w 0x64230) 47 0
    fflags := w 0x64220
    pc := bits (w 0x64200) 17 0
    mq := mqOf w 4 0
    tokens := (List.range 16).map fun t => (t, tokenOf w t)
    fifo := (List.range 5).map fun i => (i + 1, (List.range (min 16 (bits (port (i + 1)) 7 0))).map fun j =>
      BitVec.ofNat 256 (recNat w (0x65000 + 512 * i + 32 * j) 4))
    credits := (List.range 5).map fun i => (i + 1, min 16 (bits (port (i + 1)) 15 8))
    fault := faultOf w
    seq := 64 }

/-- The accumulators of a record. -/
def accOfRecord (w : Nat → Word) : Map (BitVec 2048) :=
  (List.range 512).map fun r => (r, BitVec.ofNat 2048 (recNat w (0x40000 + 256 * r) 32))

/-- Offsets of the reserved bytes of the control area, as (offset, length) (Tables 2-7, 3-3, 3-7, 3-13, 5-1 to 5-3). -/
def reservedBytes : List (Nat × Nat) :=
  [(0x203, 5), (0x20A, 6), (0x211, 7), (0x219, 7), (0x221, 3), (0x236, 2), (0x2C4, 4), (0x2E2, 14), (0x2F2, 14), (0x302, 14), (0x312, 14), (0x322, 14),
   (0x330, 208), (0x600, 2560), (0x1A00, 9728)]

/-- Byte at a control-area offset. -/
def controlByte (w : Nat → Word) (o : Nat) : Nat := elem (w (0x64000 + o / 8 * 8)).toNat 8 (o % 8)

/-- RESTORE_CHECK of SAVE_INFO and the reserved bytes (R74). -/
def recordOk (w : Nat → Word) : Bool :=
  let info := w 0x64238
  decide (bits info 63 48 = 0x1100 ∧ bits info 1 0 < 2 ∧ bits info 31 2 = 0 ∧ bits info 47 40 = 0)
    && reservedBytes.all fun r => (List.range r.2).all fun i => decide (controlByte w (r.1 + i) = 0)

/-- Whether entry i of a restored matrix queue passes the checks of R108, R112, R113, R128 and its MQSTATE is
sound (R131). -/
def entryOk (s : State) (c : Nat) (k : Core) (w : Nat → Word) (i : Nat) : Bool :=
  match k.mq[i]? with
  | none => true
  | some e =>
    zf (w (0x64240 + 32 * i + 24)) 62 14 && match shapeOf e.instr with
      | some sh => (mmaCheck s c k (k.mq.take i) sh e.instr e.opa e.opb).isNone && decide (e.nextRow < Mma.m e.opb)
      | none => decide (Ins.opc e.instr = 0x69 ∧ amask e.instr ≠ 0) && zf e.instr 55 34 && zf e.instr 31 0
          && decide (e.nextRow = 0)

/-- The first entry of a restored matrix queue that fails, with its instruction word; one that is valid behind an
invalid one fails too (R131). -/
def badEntry (s : State) (c : Nat) (k : Core) (w : Nat → Word) : Option Word :=
  (List.range 4).findSome? fun i =>
    let valid := bit (w (0x64240 + 32 * i + 24)) 63
    if valid && (decide (k.mq.length ≤ i) || !entryOk s c k w i) then some (w (0x64240 + 32 * i)) else none

/-- Chunks of a record that a save writes, as (offset, length): all of it, or what a cheap point's masks select with
the whole control area (R73). -/
def saveChunks (p : Option CheapPoint) : List (Nat × Nat) :=
  match p with
  | none => (List.range 104).map fun i => (4096 * i, 4096)
  | some p =>
    (((List.range 64).filter fun j => p.lsmask.testBit j).map fun j => (4096 * j, 4096))
      ++ (((List.range 32).filter fun g => p.amask.testBit g).map fun g => (0x40000 + 4096 * g, 4096))
      ++ (((List.range 32).filter fun i => p.vmask.testBit i).map fun i => (0x60000 + 256 * i, 256))
      ++ (((List.range 4).filter fun b => p.wmask.testBit b).map fun b => (0x62000 + 0x800 * b, 0x800))
      ++ ((List.range 4).map fun i => (0x64000 + 4096 * i, 4096))

/-- Bytes of a chunk of a core's record. -/
def State.chunkBytes (s : State) (c : Nat) (info : Word) (ch : Nat × Nat) : List Byte :=
  if ch.1 < 0x40000 then s.mem.readBytes (lsBase c + ch.1) ch.2
  else (List.range (ch.2 / 8)).flatMap fun i => leBytes 8 ((s.core c).recWord info (ch.1 + 8 * i)).toNat

end Sys2Proof.Machine
end

