-- ==== Sys2Proof/Machine/Rounds.lean ====
section
/-!
DEFINITION. Rounds (R222 to R235): the staging of a round's manifests, its failure, round barriers and the stall
counters; and the release of barriers (R209, R210).
-/
namespace Sys2Proof.Machine

/-- How a task's staging and launches present addresses. -/
def Task.ctxt (t : Task) (stack : Nat) : Ctxt := ⟨some stack, t.part, t.pasid, .engine⟩

/-- The physical stacks of a task's hubs. -/
def State.taskHubs (s : State) (t : Task) : List Nat :=
  ((List.range 64).filter fun l => t.stackBits.testBit l).filterMap s.boundStack

/-- Whether a task is on its cores. -/
def Task.onCores (t : Task) : Bool := [TaskStatus.running, .stopping, .failing].contains t.status

/-- Marks a task as failing with a status and stops its cores; a task that is not on its cores completes at once
(R233, R418). -/
def State.failTask (s : State) (key : Nat) (x : Task) (status lcid cause : Nat) : State :=
  if x.status = .failing then s
  else
    let x' := { x with status := .failing, failStatus := status, failLcid := lcid, failCause := cause }
    let s := { s with stages := s.stages.filter fun g => decide (g.task ≠ key) }
    if x.onCores then
      (s.setTask key x').haltAll ((s.taskCores x).filter fun c => decide ((s.core c).task = some key))
    else s.kernelComplete key x' status

/-- ROUND_FAILED: staging stops, the event is posted, the barrier stays unreleased, and the task is saved and its
KERNEL completed with the status (R224, R233). -/
def State.roundFail (s : State) (g : Stage) (entry status : Nat) : State :=
  match s.task g.task with
  | none => s
  | some x =>
    let s := { s with stages := s.stages.filter fun h => decide (h.task ≠ g.task) }
    let s := s.genEvent (Page.scheduler g.stack) 0x0231 x.part
      (place 31 0 g.round ||| place 47 32 entry ||| place 55 48 status)
    s.failTask g.task x status 0xFFFFFFFF 0

/-- Whether a stage is complete. -/
def Stage.complete (g : Stage) : Bool := !g.hdrWait && g.entries.all StageEntry.done

/-- The index of the lowest incomplete entry of a stage. -/
def Stage.entryAt (g : Stage) : Nat := (g.entries.findIdx? fun e => !e.done).getD 0

/-- ROUND_STAT of a hub: its oldest incomplete manifest (Table 7-7). -/
def State.refreshRoundStat (s : State) (stack cause : Nat) : State :=
  let page := Page.scheduler stack
  match s.stages.find? fun g => decide (g.stack = stack) && !g.complete with
  | some g => s.setReg page 0x308 (place 51 36 g.entryAt ||| place 35 32 cause ||| place 31 0 g.round)
  | none => s.setReg page 0x308 0

/-- Replaces a stage. -/
def State.putStage (s : State) (g : Stage) : State :=
  { s with stages := s.stages.map fun (h : Stage) =>
      if h.task = g.task ∧ h.stack = g.stack ∧ h.round = g.round then g else h }

/-- A manifest entry from its 32 bytes (Table 7-2). -/
def entryOf (bs : List Byte) : StageEntry := ⟨leAt bs 0 8, leAt bs 8 8, leAt bs 16 4, leAt bs 20 1, false, 0, false⟩

/-- Whether an entry is within Tables 7-2 and 7-3 (R224). -/
def entrySound (bs : List Byte) : Bool :=
  let e := entryOf bs
  zeroAt bs 21 11 && decide (e.len % 128 = 0 ∧ 128 ≤ e.len ∧ e.len ≤ 2 ^ 30)
    && (match e.kind with
      | 1 => true
      | 2 => decide (e.dst = 0)
      | 3 => decide (e.dst = 0 ∧ e.src % 4096 = 0 ∧ e.len % 4096 = 0)
      | 4 => decide (e.src < 2 ^ 32)
      | _ => false)

/-- MANIFEST_CHECK of a header and its entries (R224, Table 7-1). -/
def manifestOk (round : Nat) (h es : List Byte) : Bool :=
  let n := leAt h 6 2
  decide (h.take 4 = [0x50, 0x5A, 0x52, 0x4D] ∧ leAt h 4 2 = 0x1100 ∧ 1 ≤ n ∧ n ≤ 4096 ∧ leAt h 8 4 = round
      ∧ leAt h 12 1 < 2 ∧ leAt h 16 8 % 64 = 0 ∧ (leAt h 12 1 = 1 → leAt h 16 8 = 0)
      ∧ leAt h 60 4 = crc32c (h.take 60 ++ es))
    && zeroAt h 13 3 && zeroAt h 24 36
    && (List.range n).all fun i => entrySound ((es.drop (32 * i)).take 32)

/-- Reads and checks the manifest of a stage; an absent translation waits for its page request (R224, R232). -/
def State.readManifest (s : State) (g : Stage) : State :=
  match s.task g.task with
  | none => s
  | some x =>
    let cx := x.ctxt g.stack
    let wait := fun (s : State) (va : Nat) => (s.putStage { g with hdrWait := true }).pageRequest cx va .engine
    let h := s.vread cx g.addr 64
    match h.1 with
    | .absent va => wait h.2.2 va
    | .wait => h.2.2.putStage { g with hdrWait := true }
    | .status st =>
      if st ≠ St.ok then h.2.2.roundFail g 0 st
      else
        let n := min (leAt h.2.1 6 2) 4096
        let es := h.2.2.vread cx (g.addr + 64) (32 * n)
        match es.1 with
        | .absent va => wait es.2.2 va
        | .wait => es.2.2.putStage { g with hdrWait := true }
        | .status st =>
          if st ≠ St.ok then es.2.2.roundFail g 0 st
          else if manifestOk g.round h.2.1 es.2.1 then
            (es.2.2.putStage { g with
              hdrWait := false
              last := decide (leAt h.2.1 12 1 = 1)
              next := leAt h.2.1 16 8
              entries := (List.range n).map fun i => entryOf ((es.2.1.drop (32 * i)).take 32) }).refreshRoundStat g.stack 0
          else es.2.2.roundFail g 0 St.inputCorrupt

/-- ROUND_STAGING_START: begins staging the manifest at an address on a hub (R225). -/
def State.stageAt (s : State) (key stack round addr : Nat) : State :=
  let g : Stage := { task := key, stack := stack, round := round, addr := addr, hdrWait := true }
  { s with stages := s.stages ++ [g] }.readManifest g

/-- Begins staging round 0 on every hub of a task whose manifest table names a manifest (R225). -/
def State.stageFirst (s : State) (key : Nat) (x : Task) (table : Nat → Nat) : State :=
  ((List.range 64).filter fun l => x.stackBits.testBit l).foldl (fun s l =>
    match s.boundStack l with
    | some p => if table l = 0 then s else s.stageAt key p 0 (table l)
    | none => s) s

/-- Begins staging the round after j on every hub whose round j is not its last, and forgets round j (R225). -/
def State.stageNext (s : State) (key j : Nat) : State :=
  let mine := s.stages.filter fun g => decide (g.task = key ∧ g.round = j)
  let s := { s with stages := s.stages.filter fun g => !decide (g.task = key ∧ g.round = j) }
  mine.foldl (fun s g => if g.last then s else s.stageAt key g.stack (j + 1) g.next) s

/-- The KEEP_TAG of a round's staged lines: one of the scheduler's tags 8 to 15 (R274; log row 22). -/
def roundTag (j : Nat) : Nat := 8 + j % 8

/-- Whether a core waits at barrier idx. -/
def Core.atBarrier (k : Core) (idx : Nat) (round : Bool) : Bool := decide (k.wait = .barrier idx round)

/-- The members of barrier idx for a core: the task's cores on the whole task, on its stack or on its die (R402). -/
def State.barMembers (s : State) (x : Task) (c idx : Nat) (round : Bool) : List Nat :=
  let scope := if round then 0 else x.barScope / 4 ^ idx % 4
  (s.taskCores x).filter fun m =>
    if scope = 1 then decide (coreStack m = coreStack c)
    else if scope = 2 then decide (coreStack m = coreStack c ∧ coreDie m = coreDie c)
    else true

/-- Releases the BAR of a core. -/
def Core.releaseBar (k : Core) : Core := { k with wait := .none, pc := k.pc + 8, seq := k.seq + 1 }

/-- BAR_RELEASE: every member of the barrier at which a core waits has arrived, and for a round barrier the round is
staged on every hub; the members go on. At the release of round barrier j the lines of round j − 1 lose KEEP, and
staging of round j + 1 begins (R209, R223 to R227). -/
def execBarRelease (c : Nat) (s : State) : Out :=
  .next (match (s.core c).wait, s.coreTask c with
  | .barrier idx round, some (key, x) =>
    let ms := s.barMembers x c idx round
    let staged := s.stages.all fun g => !decide (g.task = key ∧ g.round = x.rounds) || g.complete
    if ms.all (fun m => (s.core m).atBarrier idx round) ∧ (!round ∨ staged) then
      let s := ms.foldl (fun s m => s.modCore m Core.releaseBar) s
      if round then
        let s := s.modTask key fun t => { t with rounds := t.rounds + 1 }
        let s := if x.rounds = 0 then s
          else (s.taskHubs x).foldl (fun s h => s.keepSweep h x.part (roundTag (x.rounds - 1))) s
        s.stageNext key x.rounds
      else s
    else s
  | _, _ => s)

/-- Whether every member of a task's round barrier has arrived. -/
def State.roundArrived (s : State) (key : Nat) (x : Task) : Bool :=
  (s.taskCores x).all fun m => decide ((s.core m).task = some key) && (List.range 16).any fun i => (s.core m).atBarrier i true

/-- ROUND_STALL_CYCLE: in an HCLK cycle in which a hub holds back a round barrier that every member has reached, its
scheduler counts the cause that its lowest incomplete entry waits for: codes 1 to 6 of Table 7-4, in counters 0 to
5 (R231, R235). -/
def execRoundStallCycle (q seq stack cause : Nat) (s : State) : Out :=
  let key := cmdKey q seq
  .next (match s.task key with
  | none => s
  | some x =>
    match s.stages.find? fun g => decide (g.task = key ∧ g.stack = stack ∧ g.round = x.rounds) && !g.complete with
    | none => s
    | some g =>
      if s.roundArrived key x ∧ 1 ≤ cause ∧ cause ≤ 6 then
        ((s.bump (Page.scheduler stack) (cause - 1)).putStage { g with stallCycles := g.stallCycles + 1 }).refreshRoundStat
          stack cause
      else s)

/-- ROUND_STALL: the stall time of a barrier on a hub reaches STALL_REPORT_NS, in HCLK cycles of 0.625 ns, and the
event is posted once (R234). -/
def execRoundStall (q seq stack cause : Nat) (s : State) : Out :=
  let key := cmdKey q seq
  .next (match s.task key with
  | none => s
  | some x =>
    let limit := s.fld (Page.scheduler stack) Reg.ROUND_STALL_CTL 31 0
    match s.stages.find? fun g => decide (g.task = key ∧ g.stack = stack ∧ g.round = x.rounds) && !g.complete with
    | none => s
    | some g =>
      if limit ≠ 0 ∧ !g.stallPosted ∧ limit * 8 ≤ g.stallCycles * 5 then
        (s.putStage { g with stallPosted := true }).genEvent (Page.scheduler stack) 0x0230 x.part
          (place 31 0 g.round ||| place 47 32 g.entryAt ||| place 51 48 cause)
      else s)

end Sys2Proof.Machine
end

