-- ==== Sys2Proof/Machine/Queues.lean ====
section
/-!
DEFINITION. Partitions (R392, R393), queue registers and doorbells (R394 to R398), the fetch of commands with
their dispatch checks (R396, R399 to R401), the order of a queue's commands (R409, R410), and the engines' active
commands (R411, R413).
-/
namespace Sys2Proof.Machine

/-! ### Partitions -/

/-- DEVICE offset of a partition's group (R392). -/
def partOff (p r : Nat) : Nat := 0x400 + 0x30 * p + r

/-- STACKS of a valid partition, zero otherwise. -/
def State.partStacks (s : State) (p : Nat) : Nat :=
  if s.fld Page.device (partOff p 0) 63 63 = 1 then (s.reg Page.device (partOff p 8)).toNat else 0

/-- Server cores of a valid partition, as bits of four registers; zero otherwise. -/
def State.partServers (s : State) (p i : Nat) : Nat :=
  if s.fld Page.device (partOff p 0) 63 63 = 1 then (s.reg Page.device (partOff p (0x10 + 8 * i))).toNat else 0

/-- Whether a partition owns a logical stack. -/
def State.ownsStack (s : State) (p l : Nat) : Bool := (s.partStacks p).testBit l

/-- Whether partition p has no task and its queues are disabled (R393). -/
def State.partIdle (s : State) (p : Nat) : Bool :=
  (s.tasks.all fun t => decide (t.2.part ≠ p ∨ t.2.status = .checked ∨ t.2.status = .ready))
    && (List.range 1024).all fun q => decide (bits (s.qreg q Q.bind) 63 63 = 0 ∨ s.queuePart q ≠ p
      ∨ bits (s.qreg q Q.cfg) 63 63 = 0)

/-- Whether a stack set or a server-core set of p would meet another valid partition's (R393). -/
def State.partClash (s : State) (p stackBits : Nat) (srv : List Nat) : Bool :=
  (List.range 64).any fun o => decide (o ≠ p) && (decide (s.partStacks o &&& stackBits ≠ 0)
    || (List.range 4).any fun i => decide (s.partServers o i &&& srv.getD i 0 ≠ 0))

/-- The partition whose PART_STACKS holds the logical stack bound to a physical stack (R615). -/
def State.stackOwner (s : State) (st : Nat) : Option Nat :=
  (s.logicalStack st).bind fun l => (List.range 64).find? fun p => s.ownsStack p l

/-- PAGE_OWNER of a stack's hub pages follows PART_STACKS and the binding (R615). -/
def State.refreshOwner (s : State) (st : Nat) : State :=
  let want := match s.stackOwner st with
    | some p => 128 + p
    | none => 0
  (List.range 22).foldl (fun s j =>
    let page := Page.hub st j
    if s.fld page Reg.PAGE_OWNER 7 0 = want then s else s.setFld page Reg.PAGE_OWNER 7 0 want) s

/-- PAGE_OWNER of every hub page (R615). -/
def State.refreshOwners (s : State) : State := (List.range 72).foldl State.refreshOwner s

/-- LAST_STATUS of a partition's group. -/
def State.partStatus (s : State) (p st : Nat) : State := s.setFld Page.device (partOff p 0) 55 48 st

/-- The checks of a write to a partition's group, and its effect where they hold (R393). -/
def State.partWrite (s : State) (p expected : Nat) (clash : Bool) (eff : State → State) : State :=
  if s.fld Page.device (partOff p 0) 47 32 ≠ expected then s.partStatus p St.epochStale
  else if !s.partIdle p then s.partStatus p St.unitUnavailable
  else if clash then s.partStatus p St.permissionFault
  else eff (s.partStatus p St.ok)

/-- The server-core registers of a partition's group, whether or not it is valid. -/
def State.partSrvRegs (s : State) (p : Nat) : List Nat :=
  (List.range 4).map fun i => (s.reg Page.device (partOff p (0x10 + 8 * i))).toNat

/-- A write of PART_CTLp (R393). -/
def partCtlEff (p : Nat) (v : Word) (s : State) : State :=
  let off := partOff p 0
  let s := s.setFld Page.device off 15 0 (bits v 15 0)
  let clash := bit v 63 && s.partClash p (s.reg Page.device (partOff p 8)).toNat (s.partSrvRegs p)
  s.partWrite p (bits v 15 0) clash fun s =>
    let s := if bit v 63 ∧ s.fld Page.device off 63 63 = 0 then
        s.setFld Page.device off 47 32 ((s.fld Page.device off 47 32 + 1) % 65536) else s
    (s.setFld Page.device off 63 63 (bits v 63 63)).refreshOwners

/-- PART_CTL_WRITE (R393). -/
def execPartCtlWrite (i : Ident) (p : Nat) (v : Word) (s : State) : Out :=
  .next (s.writeVia i Page.device (partOff (p % 64) 0) v (partCtlEff (p % 64) v))

/-- A write of PART_STACKSp; PAGE_OWNER of the stacks' pages follows (R393, R615). -/
def partStacksEff (p : Nat) (v : Word) (s : State) : State :=
  let clash := decide (s.fld Page.device (partOff p 0) 63 63 = 1) && s.partClash p v.toNat []
  s.partWrite p (s.fld Page.device (partOff p 0) 15 0) clash fun s =>
    (s.setReg Page.device (partOff p 8) v).refreshOwners

/-- PART_STACKS_WRITE (R393). -/
def execPartStacksWrite (i : Ident) (p : Nat) (v : Word) (s : State) : Out :=
  .next (s.writeVia i Page.device (partOff (p % 64) 8) v (partStacksEff (p % 64) v))

/-- A write of PART_SRVp.i (R393). -/
def partSrvEff (p j : Nat) (v : Word) (s : State) : State :=
  let clash := decide (s.fld Page.device (partOff p 0) 63 63 = 1) && s.partClash p 0 (listSet [0, 0, 0, 0] j v.toNat)
  s.partWrite p (s.fld Page.device (partOff p 0) 15 0) clash fun s => s.setReg Page.device (partOff p (0x10 + 8 * j)) v

/-- PART_SRV_WRITE (R393). -/
def execPartSrvWrite (i : Ident) (p j : Nat) (v : Word) (s : State) : Out :=
  .next (s.writeVia i Page.device (partOff (p % 64) (0x10 + 8 * (j % 4))) v (partSrvEff (p % 64) (j % 4) v))

/-! ### Doorbells and queue registers -/

/-- A doorbell is ignored and counted (R394, R396). -/
def State.doorbellIgnored (s : State) (q : Nat) : State := s.bump (Page.queueBlock q) 2

/-- A write of SQ_TAILq (R394, R396). -/
def sqTailEff (i : Ident) (q : Nat) (v : Word) (s : State) : State :=
  if s.boundTo q i && decide (bits v 11 0 < s.ringSize q) then s.setQfld q Q.tail 11 0 (bits v 11 0)
  else s.doorbellIgnored q

/-- SQ_TAIL (R394). -/
def execSqTail (i : Ident) (q : Nat) (v : Word) (s : State) : Out :=
  .next (s.writeVia i (Page.queueBlock (q % 1024)) (qOff (q % 1024) Q.tail) v (sqTailEff i (q % 1024) v))

/-- A write of CQ_HEADq: the entries up to the new head are consumed (R394, R396). -/
def cqHeadEff (i : Ident) (q : Nat) (v : Word) (s : State) : State :=
  let n := s.ringSize q
  if s.boundTo q i && decide (bits v 11 0 < n) then
    let used := (bits v 11 0 + n - bits (s.qreg q Q.head) 11 0 % n) % n
    (s.setQfld q Q.head 11 0 (bits v 11 0)).modQueue q fun x => { x with unread := x.unread - used }
  else s.doorbellIgnored q

/-- CQ_HEAD (R396). -/
def execCqHead (i : Ident) (q : Nat) (v : Word) (s : State) : Out :=
  .next (s.writeVia i (Page.queueBlock (q % 1024)) (qOff (q % 1024) Q.head) v (cqHeadEff i (q % 1024) v))

/-- Whether a fetched command has not started. -/
def State.unstarted (s : State) (c : Cmd) : Bool :=
  !c.started && !c.active && (match s.task (cmdKey c.queue c.seq) with
    | some x => decide (x.status = .checked ∨ x.status = .ready)
    | none => true)

/-- Fetched commands of a queue that have not started complete with UNIT_UNAVAILABLE (R398). -/
def State.dropUnstarted (s : State) (q : Nat) : State :=
  let cs := (s.cmds.filter fun e => decide (e.2.queue = q) && s.unstarted e.2).map Prod.snd
  cs.foldl (fun s c =>
    let s := { s with tasks := s.tasks.drop fun k => k == cmdKey c.queue c.seq }
    s.complete c.queue c.seq St.unitUnavailable 0 []) s

/-- Clears QCFG.ENABLE (R398). -/
def State.disableQueue (s : State) (q : Nat) : State :=
  if bits (s.qreg q Q.cfg) 63 63 = 1 then
    ((s.setQfld q Q.cfg 63 63 0).modQueue q fun x => { x with fetchWait := none }).dropUnstarted q
  else s

/-- Sets QCFG.ENABLE: ring indices, DONE_UPTO, numbering and phase start again (R397, R408). -/
def State.enableQueue (s : State) (q : Nat) : State :=
  if bits (s.qreg q Q.cfg) 63 63 = 1 then s
  else
    let s := ((s.setQfld q Q.cfg 63 63 1).setQfld q Q.tail 11 0 0).setQfld q Q.head 11 0 0
    let s := (s.setQfld q Q.stat 59 48 0).setQfld q Q.stat 31 0 0
    s.modQueue q fun x => { x with nextSeq := 1, cqTail := 0, unread := 0, phase := true, done := [], fwdIds := [], lost := false }

/-- A write of QCFGq: fields other than ENABLE only while IDLE is set (R397, R398); no HOST_VF queue is enabled while
no protocol is active (R440). -/
def qcfgEff (q : Nat) (v : Word) (s : State) : State :=
  let page := Page.queueBlock q
  let off := qOff q Q.cfg
  let en := bits (s.qreg q Q.cfg) 63 63
  let s := if bits (s.qreg q Q.stat) 63 63 = 1 then (s.plainWrite page off v).setFld page off 63 63 en else s
  if !bit v 63 then s.disableQueue q
  else if s.queuePort q = Q.hostVf ∧ s.fld Page.hostPort Reg.VER_ACTIVE 15 0 = 0 then s
  else s.enableQueue q

/-- QCFG_ENABLE_SET (R397). -/
def execQcfgEnableSet (i : Ident) (q : Nat) (v : Word) (s : State) : Out :=
  let v := setBit v 63 true
  .next (s.writeVia i (Page.queueBlock (q % 1024)) (qOff (q % 1024) Q.cfg) v (qcfgEff (q % 1024) v))

/-- QCFG_ENABLE_CLEAR (R398). -/
def execQcfgEnableClear (i : Ident) (q : Nat) (v : Word) (s : State) : Out :=
  let v := setBit v 63 false
  .next (s.writeVia i (Page.queueBlock (q % 1024)) (qOff (q % 1024) Q.cfg) v (qcfgEff (q % 1024) v))

/-- A write of QBINDq: only from the management port and while IDLE is set (R394). -/
def qbindEff (i : Ident) (q : Nat) (v : Word) (s : State) : State :=
  if i = .mgmt ∧ bits (s.qreg q Q.stat) 63 63 = 1 then s.plainWrite (Page.queueBlock q) (qOff q Q.bind) v
  else s.bump (Page.queueBlock q) 4

/-- QBIND_WRITE (R394). -/
def execQbindWrite (i : Ident) (q : Nat) (v : Word) (s : State) : Out :=
  .next (s.writeVia i (Page.queueBlock (q % 1024)) (qOff (q % 1024) Q.bind) v (qbindEff i (q % 1024) v))

/-! ### Dispatch checks -/

/-- Bits of a value outside a list of fields (hi, lo). -/
def outside (n : Nat) (fields : List (Nat × Nat)) : Bool :=
  decide (fields.foldl (fun m f => m - (natBits n f.1 f.2 <<< f.2)) n = 0)

/-- Whether the words and the payload of a kind are within Tables 13-5 and 13-6: check 1 (R401, R407). -/
def kindSound (c : Cmd) : Bool :=
  let w := fun i => c.cs.getD i 0
  let n := c.payload.length
  let target0 := decide (c.target = 0)
  match c.kind with
  | 1 => target0 && outside (w 2) [(3, 0), (12, 8), (20, 16), (29, 24), (37, 32)] && decide (w 3 = 0 ∧ n = 24)
      && (List.range 16).all (fun i => decide (leAt c.payload 16 4 / 4 ^ i % 4 ≠ 3))
      && decide (leAt c.payload 20 2 < 512) && zeroAt c.payload 22 2 && !c.flags.testBit 2
  | 2 => decide (1 ≤ w 2 ∧ w 2 ≤ 2 ^ 40 ∧ n = 0) && outside (w 3) [(1, 0), (3, 2), (11, 8)]
  | 3 => decide (w 1 < 2 ^ 32 ∧ w 2 = 0 ∧ w 3 = 0 ∧ n = 0) && !c.flags.testBit 2
  | 4 => decide (w 0 = 1 ∧ w 2 = 0 ∧ w 3 = 0 ∨ w 0 = 2 ∧ w 2 < 2 ^ 13) && decide (n = 0) && !c.flags.testBit 2
  | 5 => decide (w 0 % 4096 = 0 ∧ 1 ≤ w 1 ∧ w 1 < 2 ^ 32 ∧ w 3 = 0 ∧ n = 0)
      && (if natBits (w 2) 7 7 = 1 then outside (w 2) [(7, 7), (31, 16)] else outside (w 2) [(5, 0)])
  | 6 => target0 && decide (1 ≤ w 0 ∧ w 0 ≤ 56 ∧ w 1 = 0 ∧ w 2 = 0 ∧ w 3 = 0 ∧ n = 8 * w 0)
      && (List.range (w 0)).all fun i => decide (leAt c.payload (8 * i) 4 < 1024)
  | 7 => target0 && decide (w 0 < 2 ^ 15 ∧ w 2 = 0 ∧ w 3 = 0 ∧ n = 0)
  | 8 => decide (w 1 = 0 ∧ w 2 = 0 ∧ w 3 = 0 ∧ 1 ≤ n ∧ n ≤ 448)
  | 9 => target0 && decide (w 0 = 0 ∧ w 1 = 0 ∧ w 2 = 0 ∧ w 3 = 0 ∧ n = 0)
  | 10 => target0 && decide (w 0 < 2 ^ 14 ∧ w 2 = 0 ∧ w 3 = 0 ∧ n = 0) && outside (w 1) [(11, 0), (27, 16)]
  | _ => false

/-- The engine page of a kind at a stack: mover, collective, blend or racking. -/
def enginePage (kind st : Nat) : Option Nat :=
  match kind with
  | 2 => some (Page.mover st)
  | 3 => some (Page.collective st)
  | 4 => some (Page.blend st)
  | 5 => some (Page.racking st)
  | 8 => some (Page.mover st)
  | _ => none

/-- Whether RT_RESERVE keeps a command from the engine of its kind at a stack (R413). -/
def State.engineReserved (s : State) (c : Cmd) (st : Nat) : Bool :=
  let r := s.reg (Page.scheduler st) Reg.RT_RESERVE
  bit r 63 && ((decide (c.kind = 2 ∨ c.kind = 8) && bit r 40) || (decide (c.kind = 3) && bit r 41))
    && (!c.rt || decide (bits r 53 48 ≠ c.part))

/-- The entries of a BARRIER: queue and sequence number (Table 13-5). -/
def barrierEntries (c : Cmd) : List (Nat × Nat) :=
  (List.range (c.cs.getD 0 0)).map fun i => (leAt c.payload (8 * i) 4, leAt c.payload (8 * i + 4) 4)

/-- Whether two ranges of n bytes overlap (R405). -/
def rangesMeet (a b n : Nat) : Bool := decide (a < b + n ∧ b < a + n)

/-- The dispatch checks of a fetched slot, those of a KERNEL's and an engine's own apart; OK where they pass
(Table 13-4, R405, R406, R410, R413, R444, R572, R586). -/
def State.dispatchStatus (s : State) (c : Cmd) (headOk : Bool) : Nat :=
  let p7 := decide (s.queuePort c.queue = Q.hostVf ∧ s.fld Page.hostPort Reg.VER_ACTIVE 15 0 = 0x0300)
  if !headOk || !kindSound c || (p7 && [3, 4, 5].contains c.kind) then St.inputCorrupt
  else if !bit (s.qreg c.queue Q.bind) c.kind then St.refusedPort
  else if [2, 3, 4, 5, 8].contains c.kind then
    match s.boundStack c.target with
    | none => St.unitUnavailable
    | some p =>
      let up := match enginePage c.kind p with
        | some e => s.ready e
        | none => false
      if s.stackState p ≠ PS.ready ∨ !up ∨ s.engineReserved c p then St.unitUnavailable
      else if c.kind = 2 ∧ rangesMeet (c.cs.getD 0 0) (c.cs.getD 1 0) (c.cs.getD 2 0) then St.inputCorrupt
      else St.ok
  else if c.kind = 6 ∧ (barrierEntries c).any (fun e =>
      decide (bits (s.qreg e.1 Q.bind) 63 63 = 0 ∨ s.queuePart e.1 ≠ c.part)) = true then St.permissionFault
  else if c.kind = 10 ∧ natBits (c.cs.getD 1 0) 2 0 + natBits (c.cs.getD 1 0) 18 16 ≠ 0 then St.inputCorrupt
  else St.ok

/-! ### The fetch -/

/-- A command from the bytes of its slot (Table 13-3). -/
def cmdOf (q seq part prio : Nat) (rt : Bool) (arrival : Nat) (b : List Byte) : Cmd :=
  { queue := q, seq := seq, kind := leAt b 0 1, flags := leAt b 1 1, target := leAt b 2 1
    jobTag := leAt b 6 2 % 4096, cmdId := leAt b 8 4, pasid := leAt b 12 4 % 2 ^ 20, jobSeed := leAt b 16 8
    step := leAt b 24 8 % 2 ^ 44, cs := (List.range 4).map fun i => leAt b (32 + 8 * i) 8
    payload := (b.drop 64).take (min (leAt b 4 2) 448), part := part, prio := prio, rt := rt, arrival := arrival }

/-- The reserved bits and bytes of a header, with INLINE_LEN in its range (Table 13-3). -/
def headSound (b : List Byte) : Bool :=
  decide (leAt b 1 1 < 32 ∧ leAt b 2 1 < 64 ∧ leAt b 3 1 = 0 ∧ leAt b 4 2 ≤ 448 ∧ leAt b 6 2 < 4096
    ∧ leAt b 12 4 < 2 ^ 20 ∧ leAt b 24 8 < 2 ^ 44)

/-- The forwarding entry of a queue of the master: member and port (R469). -/
def State.forwardEntry (s : State) (q : Nat) : Option (Nat × Nat) :=
  match s.addrReg (Page.portDie 0) 0x128 with
  | none => none
  | some a =>
    let e := s.mem.readNat (a + 4 * q) 4
    if s.fld Page.hostPort 0x108 2 2 = 1 ∧ e.testBit 31 then some (natBits e 13 8, natBits e 4 0) else none

/-- Forwards a fetched command whole to its member (R469). A port that is down, or a member without a valid entry,
fails it at once with TIMEOUT (R463). -/
def State.forward (s : State) (c : Cmd) (b : List Byte) (member port : Nat) : State :=
  match s.groupMember member with
  | none => s.complete c.queue c.seq St.timeout 0 []
  | some m =>
    let p : Packet := {
      type := 0x10, dst := m, part := c.part, op := member, addr := c.queue, collSeq := c.seq
      payload := b.take (64 + c.payload.length) }
    let s := { s with cmds := s.cmds.set (cmdKey c.queue c.seq) { c with sent := true, started := true, fwdPkt := some (port, p) } }
    let r := s.sendGroup port p (.command c.queue c.seq)
    if r.1 = St.ok then r.2 else r.2.complete c.queue c.seq r.1 0 []

/-- The hub scheduler that a command's dispatch is counted at: that of its target, or for a KERNEL the leading one
(Table 13-11; log row 26). -/
def State.dispatchHub (s : State) (c : Cmd) : Option Nat :=
  if c.kind = 1 then (lowestSet 64 (c.cs.getD 1 0)).bind s.boundStack
  else if [2, 3, 4, 5, 8].contains c.kind then s.boundStack c.target
  else none

/-- A slot has been read: it takes its sequence number and is forwarded, refused or dispatched (R396, R400, R469). -/
def State.takeSlot (s : State) (q : Nat) (b : List Byte) (fault : Option Nat) : State :=
  let qs := s.queue q
  let p7 := decide (s.queuePort q = Q.hostVf ∧ s.fld Page.hostPort Reg.VER_ACTIVE 15 0 = 0x0300)
  let b := if p7 then Config.gen0Slot b else b
  let b := if fault.isSome then [] else b
  let cfg := s.qreg q Q.cfg
  let c := cmdOf q qs.nextSeq (s.queuePart q) (bits cfg 58 56) (bit cfg 62) s.useCtr b
  let c : Cmd := { c with fwd := qs.fwdIds.head? }
  let s := { s with cmds := s.cmds.set (cmdKey q qs.nextSeq) c, useCtr := s.useCtr + 1 }
  let s := s.modQueue q fun x => { x with
    nextSeq := (x.nextSeq + 1) % 2 ^ 32, fetchWait := none, fwdIds := x.fwdIds.drop 1 }
  let s := s.setQfld q Q.stat 59 48 ((bits (s.qreg q Q.stat) 59 48 + 1) % s.ringSize q)
  let s := (s.setQfld q Q.stat 63 63 0).bump (Page.queueBlock q) 0
  match fault with
  | some st => s.complete q c.seq st 0 []
  | none =>
    match s.forwardEntry q with
    | some (member, port) => s.forward c b member port
    | none =>
      let st := s.dispatchStatus c (headSound b)
      if st ≠ St.ok then s.completeChecked q c.seq st
      else match s.dispatchHub c with
        | some h => if c.rt then s.bump (Page.scheduler h) 12 else s
        | none => s

/-- COMMAND_FETCH: the queue block fetches the slot at SQ_HEAD (R396, R399). A forwarding queue waits until its group
is formed (R467). -/
def execCommandFetch (q : Nat) (s : State) : Out :=
  .next (let qs := s.queue q
  let head := bits (s.qreg q Q.stat) 59 48
  let formed := (s.forwardEntry q).isNone || decide (s.fld (Page.portDie 0) 0x118 31 31 = 1)
  if bits (s.qreg q Q.cfg) 63 63 = 1 ∧ bits (s.qreg q Q.bind) 63 63 = 1 ∧ head ≠ bits (s.qreg q Q.tail) 11 0
      ∧ s.inFlight q + qs.unread < s.ringSize q ∧ qs.fetchWait = none ∧ formed = true then
    match s.addrReg (Page.queueBlock q) (qOff q 0) with
    | none => s.takeSlot q [] (some St.translationFault)
    | some base =>
      let r := s.vread (s.queueCtxt q) (base + 512 * head) 512
      match r.1 with
      | .status st => r.2.2.takeSlot q r.2.1 (if st = St.ok then none else some st)
      | .absent va =>
        (r.2.2.pageRequest (s.queueCtxt q) va .engine).modQueue q fun x => { x with fetchWait := some (va / 4096) }
      | .wait => r.2.2
  else s)

/-! ### Order and engines -/

/-- The commands of a queue that precede a sequence number. -/
def State.earlier (s : State) (q seq : Nat) : List Cmd :=
  (s.cmds.filter fun e => decide (e.2.queue = q ∧ e.2.seq ≠ seq) && seqLe e.2.seq seq).map Prod.snd

/-- Whether a command may start: no FENCE or BARRIER precedes it, and with WAIT, or for a FENCE, nothing does (R409,
R410). -/
def State.mayStart (s : State) (c : Cmd) : Bool :=
  let es := s.earlier c.queue c.seq
  !c.sent && es.all (fun e => decide (e.kind ≠ 9 ∧ e.kind ≠ 6))
    && ((!c.flags.testBit 0 && decide (c.kind ≠ 9)) || decide (es = []))

/-- The command of a queue and sequence number. -/
def State.cmd (s : State) (q seq : Nat) : Option Cmd := s.cmds.find (cmdKey q seq)

/-- Replaces a command. -/
def State.setCmd (s : State) (c : Cmd) : State := { s with cmds := s.cmds.set (cmdKey c.queue c.seq) c }

/-- The engine that a kind runs on: 2 the mover, 3 the collective engine, 5 the racking engine; zero for none of
them (R411). -/
def engineOf (kind : Nat) : Nat := if kind = 8 then 2 else if kind = 2 ∨ kind = 3 ∨ kind = 5 then kind else 0

/-- The commands of the engine of a command, at the same stack. -/
def State.engineMates (s : State) (c : Cmd) : List Cmd :=
  (s.cmds.filter fun e => decide (engineOf e.2.kind = engineOf c.kind ∧ e.2.target = c.target)
    && !e.2.sent).map Prod.snd

/-- How many commands the engine of a command holds active at most: 16, or one while it is reserved (R411, R413). -/
def State.enginePlaces (s : State) (c : Cmd) : Nat :=
  match s.boundStack c.target with
  | none => 16
  | some p =>
    let r := s.reg (Page.scheduler p) Reg.RT_RESERVE
    if bit r 63 ∧ ((engineOf c.kind = 2 ∧ bit r 40) ∨ (engineOf c.kind = 3 ∧ bit r 41)) then 1 else 16

/-- Whether a command is the next of its engine to become active: those of RT queues first, and then in order of
arrival (R411, R413). -/
def State.nextActive (s : State) (c : Cmd) : Bool :=
  let ms := s.engineMates c
  decide (engineOf c.kind ≠ 0) && !c.active && s.mayStart c
    && decide ((ms.filter Cmd.active).length < s.enginePlaces c)
    && ms.all fun m => m.active || !s.mayStart m || decide (m.seq = c.seq ∧ m.queue = c.queue)
      || (c.rt && !m.rt) || (decide (c.rt = m.rt) && decide (c.arrival ≤ m.arrival))

/-- MOVER_STAT.ACTIVE or COLL_STAT.ACTIVE of the engine of a command (Tables 21-11 and 15-18). -/
def State.refreshEngine (s : State) (c : Cmd) : State :=
  match s.boundStack c.target with
  | none => s
  | some p =>
    let n := ((s.engineMates c).filter Cmd.active).length
    if engineOf c.kind = 2 then s.setFld (Page.mover p) 0x100 4 0 n
    else if engineOf c.kind = 3 then s.setFld (Page.collective p) 0x108 4 0 n
    else s

/-- Makes a command active at its engine if its turn has come. -/
def State.activate (s : State) (q seq : Nat) : State :=
  match s.cmd q seq with
  | none => s
  | some c => if s.nextActive c then (s.setCmd { c with active := true, started := true }).refreshEngine c else s

/-- An engine's command completes. -/
def State.finishCmd (s : State) (c : Cmd) (status : Nat) (result : List Byte) : State :=
  let st := if status = St.ok ∧ c.delayed then St.okDelayed else status
  (s.complete c.queue c.seq st c.park result).refreshEngine c

/-- Whether an active command of its engine is the one whose request the engine issues next: no active command of
higher QPRIO can issue (R411). -/
def State.mayIssue (s : State) (c : Cmd) : Bool :=
  c.active && decide (c.held = 0) && (s.engineMates c).all fun m => !m.active || decide (m.held ≠ 0 ∨ m.prio ≤ c.prio)

/-- A request of a command is refused (R407): with FAIL_FAST the command ends with the refusal, and otherwise the
engine presents the request again, and the command counts as delayed. -/
def State.refuseCmd (s : State) (c : Cmd) (status park : Nat) (result : List Byte) : State :=
  if c.flags.testBit 2 then s.finishCmd c status result
  else s.setCmd { c with held := 1, delayed := true, park := max c.park park }

/-- ENGINE_CMD_ACTIVATE: a command that waits in the hub scheduler becomes active (R411). -/
def execEngineCmdActivate (q seq : Nat) (s : State) : Out := .next (s.activate q seq)

/-- REFUSED_RETRY: 256 HCLK cycles later, the engine presents a refused request of a command again (R407). -/
def execRefusedRetry (q seq : Nat) (s : State) : Out :=
  .next (match s.cmd q seq with
  | none => s
  | some c => if c.held = 1 then s.setCmd { c with held := 0, delayed := true } else s)

/-! ### The commands that no engine runs -/

/-- EVENT posts one event of the software range from the QUEUE_BLOCK page of its queue (R406). -/
def execEvent (q seq : Nat) (s : State) : Out :=
  .next (match s.cmd q seq with
  | none => s
  | some c =>
    if c.kind = 7 ∧ s.mayStart c = true then
      (s.genEvent (Page.queueBlock q) (0x8000 + c.cs.getD 0 0 % 2 ^ 15) c.part
        (BitVec.ofNat 64 (c.cs.getD 1 0))).complete q seq St.ok 0 []
    else s)

/-- FENCE starts when every earlier command of its queue has completed, and completes at once (R409). -/
def execFence (q seq : Nat) (s : State) : Out :=
  .next (match s.cmd q seq with
  | none => s
  | some c => if c.kind = 9 ∧ s.mayStart c = true then s.complete q seq St.ok 0 [] else s)

/-- BARRIER completes when each named queue's DONE_UPTO has reached its entry (R410). -/
def execBarrier (q seq : Nat) (s : State) : Out :=
  .next (match s.cmd q seq with
  | none => s
  | some c =>
    if c.kind ≠ 6 ∨ !s.mayStart c then s
    else if (barrierEntries c).all fun e => seqLe e.2 (bits (s.qreg e.1 Q.stat) 31 0) then s.complete q seq St.ok 0 []
    else s.setCmd { c with started := true })

end Sys2Proof.Machine
end

