-- ==== Sys2Proof/Machine/Scheduler.lean ====
section
/-!
DEFINITION. Tasks on cores (R402 to R404, R412 to R418): the checks of a KERNEL, its launch, slots, pre-emption,
saves and restores, failures, and the registers of the scheduler (R413, R415).
-/
namespace Sys2Proof.Machine

/-! ### Checks of a KERNEL -/

/-- A KERNEL's task as its command describes it (Table 13-6). -/
def taskOf (c : Cmd) : Task :=
  let w := c.cs.getD 2 0
  let slot := leAt c.payload 20 2
  { queue := c.queue, seq := c.seq, part := c.part, jobTag := c.jobTag, prio := c.prio, rt := c.rt, pasid := c.pasid
    jobSeed := c.jobSeed, step := c.step, image := c.cs.getD 0 0, stackBits := c.cs.getD 1 0
    dieMask := natBits w 3 0, rowFirst := natBits w 12 8, rowLast := natBits w 20 16, colFirst := natBits w 29 24
    colLast := natBits w 37 32, saveTable := leAt c.payload 0 8, manifestTable := leAt c.payload 8 8
    barScope := leAt c.payload 16 4, slot := if slot.testBit 8 then some (slot % 256) else none
    cheap := c.flags.testBit 3, resume := c.flags.testBit 4, status := .ready }

/-- The logical stacks of a task. -/
def Task.stackList (t : Task) : List Nat := (List.range 64).filter fun l => t.stackBits.testBit l

/-- Whether the core range of a task is within Table 13-6 and holds a core (R402). -/
def Task.rangeOk (t : Task) : Bool :=
  decide (t.rowFirst ≤ t.rowLast ∧ t.rowLast ≤ 29 ∧ t.colFirst ≤ t.colLast ∧ t.colLast ≤ 39 ∧ t.stackBits ≠ 0 ∧ t.dieMask ≠ 0)

/-- Cores of a task on one stack. -/
def Task.coresPerStack (t : Task) : Nat :=
  popcount 4 t.dieMask * ((t.rowLast + 1 - t.rowFirst) * (t.colLast + 1 - t.colFirst))

/-- Entry l of a table of addresses of a task (Tables 13-6 and 13-8). -/
def State.tableEntry (s : State) (t : Task) (table l : Nat) : Ended × Nat × State :=
  let stack := (s.leadStack t).getD 0
  let r := s.vread (t.ctxt stack) (table + 8 * l) 8
  (r.1, leAt r.2.1 0 8, r.2.2)

/-- The save area's address on a logical stack, by table reads only. -/
def State.saveArea (s : State) (t : Task) (l : Nat) : Option Nat :=
  (s.peekTranslate t.part t.pasid (t.saveTable + 8 * l) false).map fun pa => s.mem.readNat pa 8

/-- The check of R403: every page of the save area translates, with write permission, into the GDDR of the stack. -/
def State.saveHomed (s : State) (t : Task) : Bool :=
  t.stackList.all fun l =>
    match s.saveArea t l, s.boundStack l with
    | some a, some p =>
      let first := a / 4096
      let last := (a + t.coresPerStack * recordSize - 1) / 4096
      (List.range (last + 1 - first)).all fun i =>
        match s.peekTranslate t.part t.pasid ((first + i) * 4096) true with
        | some pa => match regionOf pa with
          | .gddr st off => decide (st = p ∧ off < 0x600000000)
          | _ => false
        | none => false
    | _, _ => false

/-- Whether RT_RESERVE of a stack reserves a core of a task (R413). -/
def State.coresReserved (s : State) (t : Task) (p : Nat) : Bool :=
  let r := s.reg (Page.scheduler p) Reg.RT_RESERVE
  bit r 63 && (!t.rt || decide (bits r 53 48 ≠ t.part)) && decide (bits r 35 32 &&& t.dieMask ≠ 0)
    && decide (t.rowFirst ≤ bits r 4 0 ∧ bits r 12 8 ≤ t.rowLast ∧ bits r 12 8 ≤ bits r 4 0)

/-- Whether the compute dies of a mask are READY at a stack. -/
def State.diesReady (s : State) (p mask : Nat) : Bool :=
  (List.range 4).all fun d => !mask.testBit d || s.ready (Page.computeDie p d)

/-- The checks of a KERNEL before its image, in order; OK where they pass (R402, R403, R413, R572, R586; log row 27). -/
def State.kernelStatus (s : State) (t : Task) : Nat :=
  let ps := t.stackList.filterMap s.boundStack
  if !t.rangeOk then St.inputCorrupt
  else if !t.stackList.all (s.ownsStack t.part) then St.permissionFault
  else if decide (ps.length ≠ t.stackList.length) || !ps.all fun p =>
      decide (s.stackState p = PS.ready) && s.ready (Page.scheduler p) && s.diesReady p t.dieMask then St.unitUnavailable
  else if ps.any (s.coresReserved t) then St.permissionFault
  else if !s.saveHomed t then St.permissionFault
  else St.ok

/-- A KERNEL completes at dispatch with a status: it has no core and its result names none. -/
def State.kernelRefuse (s : State) (t : Task) (status : Nat) : State := s.complete t.queue t.seq status 0 t.result

/-- Holds a command until the answer to a page request (R232, R407). -/
def State.holdPage (s : State) (c : Cmd) (x : Ctxt) (va : Nat) : State :=
  (s.setCmd { c with held := 2, heldPage := va / 4096 }).pageRequest x va .engine

/-- The slot table entry of a task: records table and image (Table 13-8). -/
def State.slotEntry (s : State) (t : Task) (slot : Nat) : Ended × (Nat × Nat) × State :=
  let lead := (s.leadStack t).getD 0
  match s.addrReg (Page.scheduler lead) (Reg.SLOT_TABLE + 8 * t.part) with
  | none => (.status St.translationFault, (0, 0), s)
  | some a =>
    let r := s.vread (t.ctxt lead) (a + 32 * slot) 32
    (r.1, (leAt r.2.1 0 8, leAt r.2.1 8 8), r.2.2)

/-- KERNEL: the command is checked and, once it may start (R409, R410), its image header read and checked and its task made
ready (R214, R402, R403, R414, R444, R627). A slot's IMAGE must be that of the command. -/
def execKernel (q seq : Nat) (s : State) : Out :=
  .next (match s.cmd q seq, s.task (cmdKey q seq) with
  | some c, none =>
    if c.kind ≠ 1 ∨ c.held ≠ 0 ∨ c.sent then s
    else
      let t := taskOf c
      let st := s.kernelStatus t
      if st ≠ St.ok then s.kernelRefuse t st
      else if !s.mayStart c then s
      else
        let cx := t.ctxt ((s.leadStack t).getD 0)
        let r := s.readImage cx t.image
        match r.1 with
        | .absent va => r.2.2.holdPage c cx va
        | .wait => r.2.2
        | .status st =>
          let s := r.2.2
          let p7 := decide (s.queuePort q = Q.hostVf ∧ s.fld Page.hostPort Reg.VER_ACTIVE 15 0 = 0x0300)
          if st ≠ St.ok then s.kernelRefuse t st
          else if r.2.1.check ≠ St.ok then
            s.kernelRefuse t (if p7 then St.versionMismatch else r.2.1.check)
          else
            let t := { t with cheapPoints := r.2.1.cheap }
            match t.slot with
            | none => s.setTask (cmdKey q seq) t
            | some n =>
              let e := s.slotEntry t n
              match e.1 with
              | .absent va => e.2.2.holdPage c cx va
              | .wait => e.2.2
              | .status st =>
                if st ≠ St.ok then e.2.2.kernelRefuse t st
                else if e.2.1.2 ≠ t.image then e.2.2.kernelRefuse t St.inputCorrupt
                else e.2.2.setTask (cmdKey q seq) t
  | _, _ => s)

/-! ### Launch -/

/-- Writes zero to a core's local store, accumulators, vector registers and weight banks (R104, R218). -/
def State.zeroCore (s : State) (c : Nat) : State :=
  let s := { s with mem := s.mem.clear (lsBase c) (lsBase c + 0x40000) }
  s.modCore c fun k => { k with acc := [], accFree := none, v := [], wbank := [] }

/-- Zeroes a core whose previous task belonged to another partition (R218). -/
def State.zeroForeign (s : State) (part c : Nat) : State :=
  match (s.core c).lastPart with
  | some p => if p = part then s else s.zeroCore c
  | none => s

/-- A free value of n bits, made of consecutive free values from number k on. -/
def freeWide (k n : Nat) : Nat := packElems 64 ((List.range (n / 64)).map fun i => (Config.freeValue (k + i)).toNat)

/-- The state of a core at launch (Table 7-12): accumulators, element areas and side areas are free values from number
`free` on. -/
def launchCore (t : Task) (key lcid entry free : Nat) (old : Core) : Core :=
  { status := .running, task := some key, pc := entry
    srkey := mix64 (BitVec.ofNat 64 t.jobSeed) (BitVec.ofNat 64 (t.step * 2 ^ 20 + lcid))
    accFree := some free
    wbank := (List.range 4).map fun b =>
      (b, { elems := BitVec.ofNat 8192 (freeWide (free + 16384 + 160 * b) 8192)
            side := BitVec.ofNat 2048 (freeWide (free + 16512 + 160 * b) 2048)
            active := decide (b % 2 = 0) })
    keep := old.keep, lastPart := old.lastPart, lastCause := old.lastCause }

/-- Places the code of an image in a core's local store and starts the core (R217, R219). -/
def State.startCore (s : State) (t : Task) (key : Nat) (m : Image) (code : List Byte) (c : Nat) : State :=
  let s := (s.zeroForeign t.part c).writeBytes (lsBase c + m.loadAddr) code
  let k := launchCore t key (s.lcid c) m.entryRaw s.freeCtr (s.core c)
  { s with freeCtr := s.freeCtr + 32768 }.setCore c k

/-- Reads chunks of a record. -/
def State.readChunks (x : Ctxt) (va : Nat) : List (Nat × Nat) → State → Ended × List (Nat × List Byte) × State
  | [], s => (.status St.ok, [], s)
  | ch :: rest, s =>
    let r := s.vread x (va + ch.1) ch.2
    match r.1 with
    | .status 0 =>
      let more := State.readChunks x va rest r.2.2
      (more.1, (ch.1, r.2.1) :: more.2.1, more.2.2)
    | e => (e, [], r.2.2)

/-- Word at a record offset from the chunks that were read; a region that a cheap record does not hold is undefined:
free values from number `free` on (R73). -/
def chunkWord (chunks : List (Nat × List Byte)) (free off : Nat) : Word :=
  match chunks.find? fun ch => decide (ch.1 ≤ off ∧ off < ch.1 + ch.2.length) with
  | some ch => BitVec.ofNat 64 (leAt ch.2 (off - ch.1) 8)
  | none => Config.freeValue (free + off / 8)

/-- Reads a record: its control area, and then what its kind holds. `slot` requires a cheap record that names a cheap
point of the image (R74, R414). -/
def State.readRecord (s : State) (t : Task) (x : Ctxt) (va : Nat) (slot : Bool) : Ended × (Nat → Word) × State :=
  let r := State.readChunks x va (saveChunks (some ⟨0, 0, 0, 0, 0, true⟩)) s
  let w := chunkWord r.2.1 0
  match r.1 with
  | .status 0 =>
    let info := w 0x64238
    let point := t.cheapPoints[bits info 39 32]?
    if !recordOk w then (.status (if slot then St.inputCorrupt else St.versionMismatch), w, r.2.2)
    else if slot ∧ (bits info 1 0 ≠ 1 ∨ point = none) then (.status St.inputCorrupt, w, r.2.2)
    else
      let chunks := saveChunks (if bits info 1 0 = 1 then some (point.getD ⟨0, 0, 0, 0, 0, true⟩) else none)
      let r := State.readChunks x va chunks r.2.2
      (r.1, chunkWord r.2.1 r.2.2.freeCtr, { r.2.2 with freeCtr := r.2.2.freeCtr + recordSize / 8 })
  | e => (e, w, r.2.2)

/-- Puts a record into a core: local store and architectural state (R74, R95, R96); a matrix queue entry that fails its
checks stops the core (R131). The core does not issue before its task's restore is complete. -/
def State.loadCore (s : State) (t : Task) (key : Nat) (w : Nat → Word) (c : Nat) : State :=
  let s := s.zeroForeign t.part c
  let s := (List.range 0x8000).foldl (fun s i => s.writeBytes (lsBase c + 8 * i) (leBytes 8 (w (8 * i)).toNat)) s
  let old := s.core c
  let k := coreOfRecord { keep := old.keep, lastPart := old.lastPart, lastCause := old.lastCause } w
  let k : Core := { k with
    status := .running, task := some key, acc := accOfRecord w, fault := {}
    tokens := k.tokens.map fun e => (e.1, { e.2 with faulted := false, status := 0 })
    ended := t.ended.contains (s.lcid c) }
  let k : Core := match badEntry s c k w with
    | none => k
    | some word => k.stopWith ⟨0x01, St.internal, 0xFFFF, 0, 0, word⟩
  let s := s.setCore c k
  s.bump (Page.scheduler (coreStack c)) 10

/-- The position of a core's record in the save area of its stack (R403). -/
def Task.recordIndex (t : Task) (q : Nat × Nat × Nat × Nat) : Nat :=
  (t.logical.filter fun r => decide (r.1 = q.1)).findIdx fun r => decide (r = q)

/-- The record address of a core of a task, in the areas that a table names. -/
def State.recordAddr (s : State) (t : Task) (table : Nat) (q : Nat × Nat × Nat × Nat) : Option Nat :=
  (s.peekTranslate t.part t.pasid (table + 8 * q.1) false).map fun pa => s.mem.readNat pa 8 + recordSize * t.recordIndex q

/-- Whether every page of a record lies outside local stores and the host aperture (R414). -/
def State.recordPlaceOk (s : State) (t : Task) (a : Nat) : Bool :=
  (List.range (recordSize / 4096 + 1)).all fun i =>
    match s.peekTranslate t.part t.pasid (a + 4096 * i) false with
    | some pa => match regionOf pa with
      | .gddr _ _ => true
      | .cellar _ _ => true
      | _ => false
    | none => true

/-- Restores the cores of a task one after the other, until one fails or waits. -/
def State.loadAll (t : Task) (key table : Nat) (slot : Bool) :
    List (Nat × Nat × Nat × Nat) → State → Ended × State
  | [], s => (.status St.ok, s)
  | q :: rest, s =>
    match s.physOf q, s.recordAddr t table q with
    | some c, some a =>
      if slot && !s.recordPlaceOk t a then (.status St.permissionFault, s)
      else
        let r := s.readRecord t (t.ctxt (coreStack c)) a slot
        match r.1 with
        | .status 0 => State.loadAll t key table slot rest (r.2.2.loadCore t key r.2.1 c)
        | e => (e, r.2.2)
    | _, _ => (.status St.permissionFault, s)

/-- Whether a task's cores meet another's. -/
def Task.overlaps (t u : Task) : Bool :=
  decide (t.stackBits &&& u.stackBits ≠ 0 ∧ t.dieMask &&& u.dieMask ≠ 0 ∧ t.rowFirst ≤ u.rowLast ∧ u.rowFirst ≤ t.rowLast
    ∧ t.colFirst ≤ u.colLast ∧ u.colFirst ≤ t.colLast)

/-- Whether every core of a task is free. -/
def State.coresFree (s : State) (t : Task) : Bool := (s.taskCores t).all fun c => decide ((s.core c).task = none)

/-- Whether a core of a task is FAULTED (R575). -/
def State.coresFaulted (s : State) (t : Task) : Bool := (s.taskCores t).any fun c => decide ((s.core c).status = .faulted)

/-- Whether every compute die of a task is READY. -/
def State.taskDiesReady (s : State) (t : Task) : Bool :=
  (t.stackList.filterMap s.boundStack).all fun p => s.diesReady p t.dieMask

/-- Whether every stack of a task is bound to a physical stack that serves tasks. -/
def State.taskBound (s : State) (t : Task) : Bool :=
  t.stackList.all fun l => match s.boundStack l with
    | some p => decide (s.stackState p = PS.ready)
    | none => false

/-- Whether a switched-out task of higher QPRIO holds a ready task off its cores (R412). -/
def State.heldOff (s : State) (t : Task) : Bool :=
  s.tasks.any fun e => decide (e.2.status = .switchedOut ∧ t.prio < e.2.prio) && e.2.overlaps t

/-- The round-manifest addresses of a task, by logical stack; zero where a hub has no rounds (Table 13-6). -/
def State.manifests (s : State) (t : Task) : Nat → Nat := fun l =>
  if t.manifestTable = 0 then 0
  else match s.peekTranslate t.part t.pasid (t.manifestTable + 8 * l) false with
    | some pa => s.mem.readNat pa 8
    | none => 0

/-- A task has started on its cores: staging of round 0 begins (R225, R412). -/
def State.taskStarted (s : State) (key : Nat) (t : Task) : State :=
  let t := { t with status := .running, since := s.panelTime.toNat, ended := [], rounds := 0, request := 0 }
  let s := (s.setTask key t).refreshLead t
  s.stageFirst key t (s.manifests t)

/-- KERNEL_LAUNCH: once its cores are free, the scheduler starts a ready KERNEL: it loads code and launch state
(R217 to R219), restores a slot's records (R414), or with RESUME the save area (R418). A FAULTED core completes it
with UNIT_UNAVAILABLE (R575). -/
def execKernelLaunch (q seq : Nat) (s : State) : Out :=
  let key := cmdKey q seq
  .next (match s.cmd q seq, s.task key with
  | some c, some t =>
    if t.status ≠ .ready ∨ !s.mayStart c ∨ c.held ≠ 0 ∨ !s.coresFree t ∨ s.heldOff t then s
    else if s.coresFaulted t ∨ !s.taskBound t ∨ !s.taskDiesReady t then s.kernelComplete key t St.unitUnavailable
    else
      let lead := (s.leadStack t).getD 0
      let cx := t.ctxt lead
      let begin := fun (s : State) => s.setCmd { c with started := true }
      let restored := fun (r : Ended × State) => match r.1 with
        | .status 0 => (begin r.2).taskStarted key t
        | .status st => r.2.kernelComplete key t st
        | .absent va => s.holdPage c cx va
        | .wait => s
      match t.slot with
      | some n =>
        let e := s.slotEntry t n
        match e.1 with
        | .status 0 => restored (State.loadAll t key e.2.1.1 true t.logical e.2.2)
        | r => restored (r, e.2.2)
      | none =>
        if t.resume then
          if s.saveHomed t then restored (State.loadAll t key t.saveTable false t.logical s)
          else s.kernelComplete key t St.permissionFault
        else
          let r := s.readImage cx t.image
          let code := r.2.2.vread cx (t.image + r.2.1.codeOff) r.2.1.codeSize
          match r.1, code.1 with
          | .status 0, .status 0 =>
            (begin ((s.taskCores t).foldl (fun s c => s.startCore t key r.2.1 code.2.1 c) code.2.2)).taskStarted key t
          | .status 0, e => restored (e, code.2.2)
          | e, _ => restored (e, r.2.2)
  | _, _ => s)

/-! ### Pre-emption -/

/-- SCHED_CTL.CHEAP_WINDOW of the hub that leads a task, in ns. -/
def State.cheapWindow (s : State) (t : Task) : Nat :=
  1000 * s.fld (Page.scheduler ((s.leadStack t).getD 0)) Reg.SCHED_CTL 15 0

/-- Begins the pre-emption of a task: with a preference for cheap points each core stops at the next one, and
otherwise at once (R415, R416). A core whose program has ended stops at once. -/
def State.beginPreempt (s : State) (key : Nat) (t : Task) (cheap : Bool) : State :=
  let cs := (s.taskCores t).filter fun c => decide ((s.core c).task = some key)
  let cheap := cheap && decide (s.cheapWindow t ≠ 0)
  let s := s.setTask key { t with status := .stopping, wantCheap := cheap, stopAt := s.panelTime.toNat }
  if cheap then
    cs.foldl (fun s c => s.modCore c fun k =>
      if k.ended then k.halt else { k with cheapStop := t.cheapPoints.map CheapPoint.pc }) s
  else s.haltAll cs

/-- Whether a core of a task has stopped for a page request (R353). -/
def State.pageStopped (s : State) (t : Task) : Bool := (s.taskCores t).any fun c => (s.core c).pageStop

/-- Whether a KERNEL of higher QPRIO is ready, or switched out and not waiting, for a core of a task (R412). -/
def State.outranked (s : State) (t : Task) : Bool :=
  s.tasks.any fun e => decide (t.prio < e.2.prio) && e.2.overlaps t && !e.2.waitsPage
    && decide (e.2.status = .ready ∨ e.2.status = .switchedOut)

/-- TASK_PREEMPT: the scheduler pre-empts a running task whose pre-emption is due: for a page request, for a write of
PREEMPT_REQ.GO, or for a ready task of higher QPRIO (R412, R415, R416). -/
def execTaskPreempt (q seq : Nat) (s : State) : Out :=
  let key := cmdKey q seq
  .next (match s.task key with
  | none => s
  | some t =>
    if t.status ≠ .running then s
    else if s.pageStopped t then s.beginPreempt key t false
    else if 3 ≤ t.request then s.beginPreempt key t false
    else if t.request ≠ 0 then s.beginPreempt key t (t.cheap || decide (t.request = 2))
    else if s.outranked t then s.beginPreempt key t t.cheap
    else s)

/-- CHEAP_WINDOW_EXPIRY: CHEAP_WINDOW after the request, the cores that stand at no cheap point stop at once, each
counted (R416). -/
def execCheapWindowExpiry (q seq : Nat) (s : State) : Out :=
  let key := cmdKey q seq
  .next (match s.task key with
  | none => s
  | some t =>
    if t.status = .stopping ∧ t.wantCheap ∧ t.stopAt + s.cheapWindow t ≤ s.panelTime.toNat then
      (s.taskCores t).foldl (fun s c =>
        let k := s.core c
        if k.status = .running ∧ !(k.atCheapStop ∧ k.wait = .none) then
          (s.setCore c k.halt).bump (Page.scheduler (coreStack c)) 9
        else s) (s.setTask key { t with wantCheap := false })
    else s)

/-- SLICE_EXPIRY: a task that has run SLICE_US since it last started or resumed is pre-empted for a ready or
switched-out KERNEL of equal QPRIO (R412, R415). -/
def execSliceExpiry (q seq : Nat) (s : State) : Out :=
  let key := cmdKey q seq
  .next (match s.task key with
  | none => s
  | some t =>
    let slice := 1000 * s.fld (Page.scheduler ((s.leadStack t).getD 0)) Reg.SCHED_CTL 47 32
    let rival := s.tasks.any fun e => decide (e.1 ≠ key ∧ e.2.prio = t.prio) && e.2.overlaps t && !e.2.waitsPage
      && decide (e.2.status = .ready ∨ e.2.status = .switchedOut)
    if t.status = .running ∧ slice ≠ 0 ∧ t.since + slice ≤ s.panelTime.toNat ∧ rival then s.beginPreempt key t t.cheap
    else s)

/-- The cheap point at which a core's save is cheap: PC equals its CP_PC, the matrix queue is empty and every token is
idle (R215); none for a stop for a page request, whose save is full (R353), and for a stack that is
to be spared (R578). -/
def State.cheapSave (s : State) (c : Nat) (t : Task) : Option (Nat × CheapPoint) :=
  let k := s.core c
  if s.pageStopped t ∨ 3 ≤ t.request ∨ k.mq ≠ [] ∨ !k.tokensIdle 0xFFFF then none
  else (List.range t.cheapPoints.length).findSome? fun i => match t.cheapPoints[i]? with
    | some p => if p.pc = k.pc then some (i, p) else none
    | none => none

/-- SAVE_INFO of a save (Table 3-3). -/
def saveInfo (p : Option (Nat × CheapPoint)) : Word :=
  match p with
  | none => place 63 48 0x1100
  | some (i, _) => place 63 48 0x1100 ||| place 39 32 i ||| 1

/-- Writes the chunks of a record. -/
def State.writeChunks (x : Ctxt) (va c : Nat) (info : Word) : List (Nat × Nat) → State → Ended × State
  | [], s => (.status St.ok, s)
  | ch :: rest, s =>
    let r := s.vwrite x (va + ch.1) (s.chunkBytes c info ch)
    match r.1 with
    | .status 0 => State.writeChunks x va c info rest r.2.2
    | e => (e, r.2.2)

/-- Every record of a task is written: the task is switched out, or a failing task's KERNEL completes (R417, R418). -/
def State.savesDone (s : State) (key : Nat) : State :=
  match s.task key with
  | none => s
  | some t =>
    let cs := (s.taskCores t).filter fun c => decide ((s.core c).task = some key)
    if !cs.all (fun c => (s.core c).saved) then s
    else if t.status = .failing then s.kernelComplete key t t.failStatus
    else
      let s := cs.foldl State.freeCore s
      let t' := { t with
        status := .switchedOut, outOrder := s.useCtr, switches := t.switches + 1, request := 0, wantCheap := false }
      let s := { s with useCtr := s.useCtr + 1 }.setTask key t'
      (s.refreshLead t').preemptDone t

/-- A write of a core's record fails: its task fails with the status (R418). -/
def State.saveFailed (s : State) (c key st : Nat) : State :=
  match s.task key with
  | some t => if t.status = .failing then s else s.setTask key { t with
      status := .failing, failStatus := st, failLcid := s.lcid c, failCause := 0 }
  | none => s

/-- CORE_SAVE: the scheduler writes the record of a core that has drained (R73, R215, R403, R416). -/
def execCoreSave (c : Nat) (s : State) : Out :=
  .next (match s.coreTask c with
  | none => s
  | some (key, t) =>
    let k := s.core c
    if !k.drained ∨ k.saved ∨ (t.status ≠ .stopping ∧ t.status ≠ .failing) then s
    else
      let place := s.logicalPlace c
      match place.bind (s.recordAddr t t.saveTable) with
      | none => s.failTask key t St.permissionFault (s.lcid c) 0
      | some a =>
        let p := s.cheapSave c t
        let chunks := saveChunks (p.map Prod.snd)
        let x := t.ctxt (coreStack c)
        let r := State.writeChunks x a c (saveInfo p) chunks s
        let page := Page.scheduler (coreStack c)
        match r.1 with
        | .status st =>
          let s := r.2.modCore c fun k => { k with saved := true }
          let s := if st = St.ok then
              (s.bump page (if p.isNone then 7 else 8)).bumpUnits page 11 (chunks.foldl (fun n ch => n + ch.2) 0) 1048576
            else s.saveFailed c key st
          s.savesDone key
        | .absent va => r.2.pageRequest x va (.save c key)
        | .wait => r.2)

/-! ### Restore -/

/-- Whether another task takes the cores of a switched-out one first: by QPRIO, and then by earliest switch-out
(R412). -/
def State.notFirst (s : State) (key : Nat) (t : Task) : Bool :=
  s.tasks.any fun e => decide (e.1 ≠ key) && e.2.overlaps t && !e.2.waitsPage
    && (decide (e.2.status = .switchedOut ∧ (t.prio < e.2.prio ∨ (t.prio = e.2.prio ∧ e.2.outOrder < t.outOrder)))
      || decide (e.2.status = .ready ∧ t.prio < e.2.prio))

/-- TASK_RESTORE: a switched-out task is restored onto its logical cores, and its cores issue when every one is
restored (R74, R131, R403, R417). A failed check fails the task (R418), and a FAULTED core completes its KERNEL with
UNIT_UNAVAILABLE (R575). -/
def execTaskRestore (q seq : Nat) (s : State) : Out :=
  let key := cmdKey q seq
  .next (match s.task key with
  | none => s
  | some t =>
    if t.status ≠ .switchedOut ∨ t.waitsPage ∨ !s.taskDiesReady t ∨ !s.coresFree t ∨ s.notFirst key t then s
    else if s.coresFaulted t then s.kernelComplete key t St.unitUnavailable
    else if !s.saveHomed t then s.kernelComplete key { t with failStatus := St.permissionFault } St.permissionFault
    else
      let r := State.loadAll t key t.saveTable false t.logical s
      match r.1 with
      | .status 0 =>
        let t := { t with status := .running, since := s.panelTime.toNat }
        (r.2.setTask key t).refreshLead t
      | .status st => r.2.kernelComplete key t st
      | .absent va =>
        ((s.setTask key { t with waitsPage := true }).pageRequest (t.ctxt ((s.leadStack t).getD 0)) va (.restore key))
      | .wait => s)

/-! ### Failure -/

/-- TASK_FAIL: a core fault other than a stop for a page request fails the task (R418). With `hw` the core has a
HARDWARE fault, which makes it FAULTED (R98, R101, R575). -/
def execTaskFail (c : Nat) (hw : Bool) (s : State) : Out :=
  let k := s.core c
  let s := if !hw ∨ k.status = .gated ∨ k.status = .faulted then s
    else (s.setCore c { (k.stopWith ⟨0x08, St.internal, 0xFFFF, 0, 0, 0⟩) with drained := false }).enterFaulted c 0x08
  let k := s.core c
  .next (match s.coreTask c with
  | none => s
  | some (key, t) =>
    if k.fault.cause ≠ 0 ∧ !k.pageStop then s.failTask key t k.fault.status (s.lcid c) k.fault.cause else s)

/-- ROUND_FAILED: an entry of a manifest being staged ends with a failing status (R233). -/
def execRoundFailed (q seq stack entry status : Nat) (s : State) : Out :=
  let key := cmdKey q seq
  .next (match s.stages.find? fun g => decide (g.task = key ∧ g.stack = stack) && !g.complete with
  | some g => if status ≠ St.ok ∧ status ≠ St.okDelayed ∧ entry < g.entries.length then s.roundFail g entry status else s
  | none => s)

/-! ### Registers -/

/-- A write of PREEMPT_REQ: GO requests the pre-emption of the task of the job tag that the hub leads; it is ignored
while BUSY (R415). A partition names only a task of its own. -/
def preemptReqEff (i : Ident) (stack : Nat) (v : Word) (s : State) : State :=
  let page := Page.scheduler stack
  let busy := s.fld page Reg.PREEMPT_REQ 1 1 = 1
  let s := s.storeWrite page Reg.PREEMPT_REQ v
  if !bit v 0 ∨ busy then s
  else
    match s.tasks.find? fun e => decide (e.2.jobTag = bits v 31 20 ∧ e.2.status = .running ∧ s.leadStack e.2 = some stack)
        && (match identPart i with
          | some p => decide (e.2.part = p)
          | none => true) with
    | none => s
    | some (key, t) =>
      (s.setTask key { t with request := if bit v 16 then 2 else 1 }).setFld page Reg.PREEMPT_REQ 1 1 1

/-- PREEMPT_REQ_GO (R415). -/
def execPreemptReqGo (i : Ident) (stack : Nat) (v : Word) (s : State) : Out :=
  .next (s.writeVia i (Page.scheduler (stack % 72)) Reg.PREEMPT_REQ v (preemptReqEff i (stack % 72) v))

/-- Whether a task runs on the cores that a write of RT_RESERVE names, or a named engine has an active command. -/
def State.reserveBusy (s : State) (stack : Nat) (v : Word) : Bool :=
  let onCores := (List.range 4).any fun d => (bits v 35 32).testBit d && (upto (bits v 12 8) (bits v 4 0)).any fun r =>
    (List.range 42).any fun p => decide ((s.core (coreKey stack d (r * 42 + p))).task ≠ none)
  let active := fun (e : Nat) => s.cmds.any fun x =>
    x.2.active && decide (engineOf x.2.kind = e ∧ s.boundStack x.2.target = some stack)
  onCores || (bit v 40 && active 2) || (bit v 41 && active 3)

/-- A write of RT_RESERVE: ignored where the partition does not own the hub's stack, or while what it names is in use
(R413). -/
def rtReserveEff (stack : Nat) (v : Word) (s : State) : State :=
  let owns := match s.logicalStack stack with
    | some l => s.ownsStack (bits v 53 48) l
    | none => false
  if owns && !s.reserveBusy stack v then s.plainWrite (Page.scheduler stack) Reg.RT_RESERVE v else s

/-- RT_RESERVE_WRITE (R413). -/
def execRtReserveWrite (i : Ident) (stack : Nat) (v : Word) (s : State) : Out :=
  .next (s.writeVia i (Page.scheduler (stack % 72)) Reg.RT_RESERVE v (rtReserveEff (stack % 72) v))

end Sys2Proof.Machine
end

