-- ==== Sys2Proof/Machine/Mover.lean ====
section
/-!
DEFINITION. The mover's commands (R405 to R407, R411): MOVE and INLINE_WRITE.
-/
namespace Sys2Proof.Machine

/-- How an engine of a command presents its addresses. -/
def State.cmdCtxt (s : State) (c : Cmd) (who : Who) : Ctxt := ⟨s.boundStack c.target, c.part, c.pasid, who⟩

/-- Counts bytes that cross the host link: CNT0 EGRESS_KIB and CNT1 INGRESS_KIB, and CNT3 for an access that a host
loss ends (Table 14-10). -/
def State.countHost (s : State) (pa counter n st : Nat) : State :=
  match regionOf pa with
  | .host _ =>
    if st = St.ok then s.bumpUnits Page.hostPort counter n 1024
    else if st = St.hostLost then s.bump Page.hostPort 3 else s
  | _ => s

/-- Whether a mover may write a physical address for a partition: a local store only of the partition's stacks
(R405). -/
def State.moverMayWrite (s : State) (part pa : Nat) : Bool :=
  match regionOf pa with
  | .ls c _ => match s.logicalStack (coreStack c) with
    | some l => s.ownsStack part l
    | none => false
  | _ => true

/-- Writes bytes that lie in one line at a virtual address, as a mover. -/
def State.moverWrite (s : State) (x : Ctxt) (va : Nat) (bs : List Byte) : Ended × State :=
  let t := s.translate x.stack x.part x.pasid va true
  match t.1 with
  | .ok pa =>
    if !s.moverMayWrite x.part pa then (.status St.permissionFault, t.2)
    else
      let r := t.2.physWrite x.part .mover pa bs
      (.status r.1, r.2.countHost pa 0 bs.length r.1)
  | .fault st => (.status st, t.2)
  | .absent => (.absent va, t.2)
  | .wait => (.wait, t.2)

/-- Reads bytes that lie in one line at a virtual address, as a mover. -/
def State.moverRead (s : State) (x : Ctxt) (va n : Nat) : Ended × List Byte × State :=
  let t := s.translate x.stack x.part x.pasid va false
  match t.1 with
  | .ok pa =>
    let r := t.2.physRead x.part .mover pa n
    (.status r.1, r.2, t.2.countHost pa 1 n r.1)
  | .fault st => (.status st, [], t.2)
  | .absent => (.absent va, [], t.2)
  | .wait => (.wait, [], t.2)

/-- Copies up to n bytes in ascending order, a line at a time; answers how many were written (R29, R405). -/
def State.moveLines (x : Ctxt) : Nat → State → Nat → Nat → Nat → Ended × Nat × State
  | 0, s, _, _, _ => (.status St.ok, 0, s)
  | fuel + 1, s, src, dst, n =>
    if n = 0 then (.status St.ok, 0, s)
    else
      let m := min (inLine src n) (inLine dst n)
      let r := s.moverRead x src m
      match r.1 with
      | .status 0 =>
        let w := r.2.2.moverWrite x dst r.2.1
        match w.1 with
        | .status 0 =>
          let more := State.moveLines x fuel w.2 (src + m) (dst + m) (n - m)
          (more.1, m + more.2.1, more.2.2)
        | e => (e, 0, w.2)
      | e => (e, 0, r.2.2)

/-- Writes bytes in ascending order, a line at a time; answers how many were written. -/
def State.inlineLines (x : Ctxt) : Nat → State → Nat → List Byte → Ended × Nat × State
  | 0, s, _, _ => (.status St.ok, 0, s)
  | fuel + 1, s, va, bs =>
    if bs = [] then (.status St.ok, 0, s)
    else
      let m := inLine va bs.length
      let w := s.moverWrite x va (bs.take m)
      match w.1 with
      | .status 0 =>
        let more := State.inlineLines x fuel w.2 (va + m) (bs.drop m)
        (more.1, m + more.2.1, more.2.2)
      | e => (e, 0, w.2)

/-- What a mover command does after a part of its transfer: it goes on, waits for a page request, presents again what
UNIT_UNAVAILABLE answered (R564), or ends with its status (R405). -/
def State.moveOn (s : State) (c : Cmd) (e : Ended) (total : Nat) (result : List Byte) : State :=
  match e with
  | .absent va => s.holdPage c (s.cmdCtxt c .mover) va
  | .wait => s.setCmd c
  | .status st =>
    if st = St.unitUnavailable then s.setCmd c
    else if st ≠ St.ok ∨ c.progress = total then s.finishCmd c st result
    else s.setCmd c

/-- MOVE: the mover copies the next n bytes of an active MOVE, up to its end (R405). `refuse` is the status of a refusal
under R385, or zero, and `park` the PARK bucket of the requests (R386, R407). -/
def execMove (q seq n refuse park : Nat) (s : State) : Out :=
  .next (match s.cmd q seq with
  | none => s
  | some c =>
    let s := s.activate q seq
    let c := (s.cmd q seq).getD c
    if c.kind ≠ 2 ∨ !s.mayIssue c then s
    else if refuse = St.refusedFull ∨ refuse = St.refusedBudget then
      s.refuseCmd c refuse (park % 8) (leBytes 8 c.progress)
    else
      let total := c.cs.getD 2 0
      let m := min n (total - c.progress)
      let r := State.moveLines (s.cmdCtxt c .mover) (2 * (m / 128) + 4) s (c.cs.getD 0 0 + c.progress)
        (c.cs.getD 1 0 + c.progress) m
      let c := { c with
        progress := c.progress + r.2.1, delayed := c.delayed || decide (park % 8 ≠ 0), park := max c.park (park % 8) }
      r.2.2.moveOn c r.1 total (leBytes 8 c.progress))

/-- INLINE_WRITE: the mover writes the payload of an active command to its destination (R406, R407). -/
def execInlineWrite (q seq refuse park : Nat) (s : State) : Out :=
  .next (match s.cmd q seq with
  | none => s
  | some c =>
    let s := s.activate q seq
    let c := (s.cmd q seq).getD c
    if c.kind ≠ 8 ∨ !s.mayIssue c then s
    else if refuse = St.refusedFull ∨ refuse = St.refusedBudget then
      s.refuseCmd c refuse (park % 8) (leBytes 8 c.progress)
    else
      let r := State.inlineLines (s.cmdCtxt c .mover) 8 s (c.cs.getD 0 0 + c.progress) (c.payload.drop c.progress)
      let c := { c with
        progress := c.progress + r.2.1, delayed := c.delayed || decide (park % 8 ≠ 0), park := max c.park (park % 8) }
      r.2.2.moveOn c r.1 c.payload.length [])

end Sys2Proof.Machine
end

