-- ==== Sys2Proof/Machine/Collective.lean ====
section
/-!
DEFINITION. The collective engines (R473 to R483): arming, the steps of the reductions and gathers, the direct
operations, results, failures, and STRAGGLE.
-/
namespace Sys2Proof.Machine

/-! ### Blocks -/

/-- Bytes of a block of 32 elements in a format as a step carries it: FP32, BF16, G8 with its scale code last, RAW
(Table 15-9; log row 28). -/
def blockSize (fmt : Nat) : Nat :=
  match fmt with
  | 0 => 128
  | 1 => 64
  | 2 => 33
  | _ => 32

/-- The values of a block. -/
def blockVals (fmt : Nat) (b : List Byte) : List FVal :=
  (List.range 32).map fun i =>
    match fmt with
    | 0 => Fmt.fp32.decode (leAt b (4 * i) 4)
    | 1 => Fmt.bf16.decode (leAt b (2 * i) 2)
    | _ => rne32 (scaledVal .e4m3 (leAt b 32 1) 0 (leAt b i 1))

/-- A block of FP32 values in a format: RNE, and G8 under R46 without residual (R49, R475). -/
def valsBlock (fmt : Nat) (vs : List FVal) : List Byte :=
  match fmt with
  | 0 => vs.flatMap fun v => leBytes 4 (Fmt.fp32.encode .rne false 0 v).code
  | 1 => vs.flatMap fun v => leBytes 2 (Fmt.bf16.encode .rne false 0 v).code
  | _ =>
    let q := quantBlock .e4m3 .g8 .rne (fun _ => 0) vs
    (q.codes.flatMap fun c => leBytes 1 c) ++ leBytes 1 q.scale

/-- Non-finite elements of a block; a G8 block of scale code 0xFF counts 32 (R477). -/
def blockNf (fmt : Nat) (b : List Byte) : Nat :=
  if fmt = 2 then (if leAt b 32 1 = 0xFF then 32 else 0)
  else ((blockVals fmt b).filter FVal.nonFinite).length

/-- Combines two partials: one RNE rounding, or MAX or MIN (R153, R475). -/
def combine (redop : Nat) (a b : List FVal) : List FVal :=
  (List.zip a b).map fun p =>
    match redop with
    | 0 => add32 p.1 p.2
    | 1 => FVal.minmax true p.1 p.2
    | _ => FVal.minmax false p.1 p.2

/-- FP32 codes of a partial. -/
def partCodes (vs : List FVal) : List Nat := vs.map fun v => (Fmt.fp32.encode .rne false 0 v).code

/-- A partial from its FP32 codes. -/
def partVals (cs : List Nat) : List FVal := cs.map Fmt.fp32.decode

/-! ### Shape of a collective -/

/-- Key of a collective. -/
def Coll.key (c : Coll) : Nat := cmdKey c.queue c.seq

/-- How the engine presents addresses. -/
def Coll.ctxt (c : Coll) : Ctxt := ⟨some c.stack, c.part, c.pasid, .engine⟩

/-- Ranks in a group: RING is HIER with one group. -/
def Coll.width (c : Coll) : Nat := if c.algo = 3 then c.inner else c.nranks

/-- Groups. -/
def Coll.groups (c : Coll) : Nat := c.nranks / c.width

/-- First block and number of blocks of chunk k: lower ranks take the extra block (R475). -/
def Coll.chunk (c : Coll) (k : Nat) : Nat × Nat :=
  let b := c.count / 32
  (k * (b / c.nranks) + min k (b % c.nranks), b / c.nranks + (if k < b % c.nranks then 1 else 0))

/-- The chunk that a block lies in. -/
def Coll.chunkOf (c : Coll) (blk : Nat) : Nat :=
  ((List.range c.nranks).find? fun k => decide (blk < (c.chunk k).1 + (c.chunk k).2)).getD 0

/-- The rank that owns the result of a block: its chunk's, or ROOT of a BROADCAST (R475). -/
def Coll.owner (c : Coll) (blk : Nat) : Nat := if c.op = 4 then c.root else c.chunkOf blk

/-- First step numbers of the stages after the first reduction: the reduction among groups, the passing of results
among groups, and that within a group (log row 28). -/
def Coll.stages (c : Coll) : Nat × Nat × Nat :=
  (c.width - 1, c.width - 1 + (c.groups - 1), c.width - 1 + 2 * (c.groups - 1))

/-- The rank after this one within its group, and the rank of its position in the next group. -/
def Coll.nextIn (c : Coll) : Nat := c.myrank / c.width * c.width + (c.myrank % c.width + 1) % c.width

/-- The rank of this position in the next group. -/
def Coll.nextGroup (c : Coll) : Nat := (c.myrank / c.width + 1) % c.groups * c.width + c.myrank % c.width

/-- A rank's number in the tree, counted from the tree's root (R475). -/
def Coll.rel (c : Coll) : Nat := (c.myrank + c.nranks - (if c.op = 4 then c.root else 0)) % c.nranks

/-- The rank of a number of the tree. -/
def Coll.ofRel (c : Coll) (r : Nat) : Nat := (r + (if c.op = 4 then c.root else 0)) % c.nranks

/-- The children of this rank in the tree, as numbers of the tree. -/
def Coll.children (c : Coll) : List Nat := [2 * c.rel + 1, 2 * c.rel + 2].filter fun r => decide (r < c.nranks)

/-- Blocks that DST receives; for ALL_TO_ALL, bytes. -/
def Coll.target (c : Coll) : Nat :=
  if c.op = 2 then (c.chunk c.myrank).2
  else if c.op = 5 then c.nranks * (c.count / c.nranks + (if c.myrank < c.count % c.nranks then 1 else 0))
  else c.count / 32

/-- First block that SRC holds: ALL_GATHER reads the rank's own chunk; and first block that DST holds: REDUCE_SCATTER
writes it (log row 28). -/
def Coll.srcBase (c : Coll) : Nat := if c.op = 3 then (c.chunk c.myrank).1 else 0

/-- First block that DST holds. -/
def Coll.dstBase (c : Coll) : Nat := if c.op = 2 then (c.chunk c.myrank).1 else 0

/-! ### Completion and failure -/

/-- The key of a job tag's collectives at an engine. -/
def collTag (stack jobTag : Nat) : Nat := stack * 4096 + jobTag

/-- The collective of an engine, job tag and sequence number. -/
def State.collFind (s : State) (stack jobTag collSeq : Nat) : Option Coll :=
  (s.colls.find? fun e => decide (e.2.stack = stack ∧ e.2.jobTag = jobTag ∧ e.2.collSeq = collSeq)).map Prod.snd

/-- Replaces a collective. -/
def State.putColl (s : State) (c : Coll) : State := { s with colls := s.colls.set c.key c }

/-- The result of a COLLECTIVE (Table 15-11). -/
def collResult (nf ext failRank : Nat) : List Byte := leBytes 4 nf ++ leBytes 4 ext ++ leBytes 2 failRank

/-- A collective completes: its result is kept for the blend engines (R244), and then its command completes (R480). -/
def State.collFinish (s : State) (c : Coll) (status failRank : Nat) : State :=
  let page := Page.collective c.stack
  let key := collTag c.stack c.jobTag
  let done := ((c.collSeq, status, c.nf) :: s.collDone.get [] key).filter fun d => decide (c.collSeq < d.1 + 4096)
  let s := { s with colls := s.colls.drop fun k => k == c.key, collDone := s.collDone.set key done }
  let s := (s.bump page (if status = St.ok ∨ status = St.okDelayed then 0 else 1)).bump page 6 c.ownNf
  match s.cmd c.queue c.seq with
  | some x => s.finishCmd x status (collResult c.nf c.ext failRank)
  | none => s

/-- Keeps a note for a collective that is not armed (R479, R482). -/
def State.keepNote (s : State) (n : KeptNote) : State :=
  let l := s.collNotes ++ [n]
  let mine := l.filter fun x => decide (x.stack = n.stack)
  { s with collNotes := if 64 < mine.length then
      (match l.findIdx? fun x => decide (x.stack = n.stack) with
        | some i => l.eraseIdx i
        | none => l)
    else l }

/-- An engine receives an ABORT: an active collective completes with its status and rank, a completed one ignores it,
and one not yet armed keeps it (R479). -/
def State.abortAt (s : State) (stack jobTag collSeq status rank : Nat) : State :=
  match s.collFind stack jobTag collSeq with
  | some c => s.collFinish c status rank
  | none =>
    match s.collHigh.find (collTag stack jobTag) with
    | some h => if collSeq ≤ h then s else s.keepNote ⟨stack, jobTag, collSeq, true, status, rank⟩
    | none => s.keepNote ⟨stack, jobTag, collSeq, true, status, rank⟩

/-- The collective's timeout grows by an extension, up to its own length (R482). -/
def Coll.extend (c : Coll) (us : Nat) : Coll := { c with ext := min c.timeoutUs (c.ext + us) }

/-- An engine receives a STRAGGLE (R482). -/
def State.straggleAt (s : State) (stack jobTag collSeq us : Nat) : State :=
  let s := s.bump (Page.collective stack) 4
  match s.collFind stack jobTag collSeq with
  | some c => s.putColl (c.extend us)
  | none =>
    match s.collHigh.find (collTag stack jobTag) with
    | some h => if collSeq ≤ h then s else s.keepNote ⟨stack, jobTag, collSeq, false, 0, us⟩
    | none => s.keepNote ⟨stack, jobTag, collSeq, false, 0, us⟩

/-- Sends a note to every other rank: over the fabric, or straight to an engine of this module. -/
def State.noteRanks (s : State) (c : Coll) (type status value : Nat) : State :=
  (List.range c.nranks).foldl (fun s r =>
    if r = c.myrank then s
    else
      let e := c.ranks.getD r (0, 0)
      if e.1 = s.moduleId then
        match s.boundStack e.2 with
        | some p =>
          if type = 0x0B then s.abortAt p c.jobTag c.collSeq status value else s.straggleAt p c.jobTag c.collSeq value
        | none => s
      else
        let p : Packet := {
          type := type, dst := e.1, part := c.part, jobTag := c.jobTag, status := status, op := e.2
          collSeq := c.collSeq, aux := value }
        s.sendLoose p) s

/-- COLL_FAIL: a failing engine completes its command, sends ABORT to every other rank, and posts COLL_FAILED
(R479). -/
def State.collFail (s : State) (c : Coll) (status : Nat) : State :=
  let s := s.collFinish c status c.myrank
  let s := s.noteRanks c 0x0B status c.myrank
  s.genEvent (Page.collective c.stack) 0x02B5 c.part
    (place 31 0 c.collSeq ||| place 43 32 c.jobTag ||| place 55 44 c.myrank ||| place 63 56 status)

/-- The status with which a collective ends for a failed local access (R483). -/
def localStatus (st : Nat) : Nat := if st = St.dataLost then St.localMemoryLost else st

/-! ### Steps -/

/-- How a piece of a collective's work ends: the state goes on, fails with a status, or waits for a page request, in
which case nothing of it counts. -/
inductive Work where
  | go (s : State) (c : Coll)
  | fail (s : State) (c : Coll) (status : Nat)
  | hold (s : State) (va : Nat)
  | wait (s : State)
  deriving DecidableEq, Repr

/-- Continues work. -/
def Work.bind (w : Work) (f : State → Coll → Work) : Work :=
  match w with
  | .go s c => f s c
  | w => w

/-- Continues with the end of an access. -/
def Coll.after (c : Coll) (e : Ended) (s : State) (f : State → Work) : Work :=
  match e with
  | .status 0 => f s
  | .status st => .fail s c (localStatus st)
  | .absent va => .hold s va
  | .wait => .wait s

/-- Reads a block of the input (R475). -/
def collRead (s : State) (c : Coll) (blk : Nat) (f : State → List Byte → Work) : Work :=
  let b := blk - c.srcBase
  if c.inFmt = 2 then
    let e := s.vread c.ctxt (c.src + 32 * b) 32
    c.after e.1 e.2.2 fun s =>
      let d := s.vread c.ctxt (c.srcSide + b) 1
      c.after d.1 d.2.2 fun s => f s (e.2.1 ++ d.2.1)
  else
    let n := blockSize c.inFmt
    let e := s.vread c.ctxt (c.src + n * b) n
    c.after e.1 e.2.2 fun s => f s e.2.1

/-- Writes a block of the result. -/
def collWrite (s : State) (c : Coll) (blk : Nat) (bs : List Byte) : Work :=
  let b := blk - c.dstBase
  let done := fun (s : State) => Work.go s { c with written := c.written + 1 }
  if c.outFmt = 2 then
    let e := s.vwrite c.ctxt (c.dst + 32 * b) (bs.take 32)
    c.after e.1 e.2.2 fun s =>
      let d := s.vwrite c.ctxt (c.dstSide + b) (bs.drop 32)
      c.after d.1 d.2.2 done
  else
    let e := s.vwrite c.ctxt (c.dst + blockSize c.outFmt * b) bs
    c.after e.1 e.2.2 done

/-- The data channel of a partition toward a module: the lowest that it owns on an eligible port (R461; log row 28). -/
def State.dataVc (s : State) (dst part : Nat) : Nat :=
  match s.fabricRoute dst with
  | none => 2
  | some (j, _) => ((List.range 6).map fun k => k + 2).find? (fun vc => decide (s.eligiblePorts j vc part ≠ [])) |>.getD 2

/-- Sends a packet of a collective to an engine, of another module or of this one. -/
def collSend (s : State) (c : Coll) (dest : Nat × Nat) (p : Packet) : Work :=
  let p := { p with dst := dest.1, op := dest.2, part := c.part, jobTag := c.jobTag, collSeq := c.collSeq, sig := c.sig }
  if dest.1 = s.moduleId then .go { s with collLocal := s.collLocal ++ [{ p with src := dest.1, ackseq := c.key }] } c
  else
    let r := s.sendPacket { p with vc := s.dataVc dest.1 c.part } (.coll c.key)
    if r.1 = St.ok then .go r.2 c else .fail r.2 c r.1

/-- Sends a COLL_STEP with one block to a rank (R475; log row 28). -/
def collStepTo (s : State) (c : Coll) (rank step blk : Nat) (bs : List Byte) (nf : Nat) : Work :=
  collSend s c (c.ranks.getD rank (0, 0)) { type := 0x07, step := step, addr := 32 * blk, aux := nf, payload := bs }

/-- Passes the result of a block on within the group, to the rank before its owner's position (R475). -/
def passIn (s : State) (c : Coll) (blk step : Nat) (bs : List Byte) (nf : Nat) : Work :=
  if c.nextIn % c.width = c.owner blk % c.width then .go s c else collStepTo s c c.nextIn step blk bs nf

/-- The result of a block is known: it is counted and written, and passed on among the groups and within the group;
REDUCE_SCATTER keeps it (R475, R477). -/
def finalBlock (s : State) (c : Coll) (blk : Nat) (bs : List Byte) : Work :=
  let nf := if c.op ≤ 2 then blockNf c.outFmt bs else 0
  let st := c.stages
  (collWrite s { c with nf := c.nf + nf, ownNf := c.ownNf + nf } blk bs).bind fun s c =>
    if c.op = 2 then .go s c
    else
      (if c.nextGroup / c.width = c.owner blk / c.width then Work.go s c
        else collStepTo s c c.nextGroup st.2.1 blk bs nf).bind fun s c => passIn s c blk st.2.2 bs nf

/-- The group's partial of a block is known: it joins the reduction among the groups (R475). -/
def groupPart (s : State) (c : Coll) (blk : Nat) (v : List FVal) : Work :=
  let g := c.myrank / c.width
  let og := c.owner blk / c.width
  let st := c.stages
  let send := fun (s : State) (c : Coll) (v : List FVal) (step : Nat) =>
    if g = og then finalBlock s c blk (valsBlock c.outFmt v)
    else collStepTo s c c.nextGroup step blk (valsBlock c.wireFmt v) 0
  if c.groups = 1 ∨ g = (og + 1) % c.groups then send s c v st.1
  else match c.parts.find (2 ^ 40 + blk) with
    | some inc =>
      let d := (g + c.groups - (og + 1)) % c.groups
      send s { c with parts := c.parts.drop fun k => k == 2 ^ 40 + blk } (combine c.redop (partVals inc) v) (st.1 + d)
    | none => .go s { c with parts := c.parts.set blk (partCodes v) }

/-- Adds this rank's input to a partial of a block within the group, or begins with it (R475). -/
def ringPart (s : State) (c : Coll) (blk step : Nat) (inc : Option (List FVal)) : Work :=
  collRead s c blk fun s own =>
    let c := { c with reads := c.reads + 1 }
    let mine := blockVals c.inFmt own
    let v := match inc with
      | some i => combine c.redop i mine
      | none => mine
    if c.myrank % c.width = c.owner blk % c.width then groupPart s c blk v
    else collStepTo s c c.nextIn step blk (valsBlock c.wireFmt v) 0

/-- A rank of the tree combines its children's partials, in ascending order, and its own input last, once it has them
all (R475; log row 28). -/
def treePart (s : State) (c : Coll) (blk : Nat) : Work :=
  let keys := c.children.map fun r => (r % 2) * 2 ^ 40 + blk
  let ins := keys.filterMap fun k => c.parts.find k
  if ins.length < keys.length then .go s c
  else collRead s c blk fun s own =>
    let mine := blockVals c.inFmt own
    let v := match ins.reverse.map partVals with
      | [] => mine
      | [a] => combine c.redop a mine
      | b :: a :: _ => combine c.redop (combine c.redop a b) mine
    let c := { c with reads := c.reads + 1, parts := c.parts.drop fun k => keys.contains k }
    if c.rel = 0 then
      let bs := valsBlock c.outFmt v
      let nf := blockNf c.outFmt bs
      (collWrite s { c with nf := c.nf + nf, ownNf := c.ownNf + nf } blk bs).bind fun s c =>
        c.children.foldl (fun w r => w.bind fun s c => collStepTo s c (c.ofRel r) 4096 blk bs nf) (.go s c)
    else collStepTo s c (c.ofRel ((c.rel - 1) / 2)) c.rel blk (valsBlock c.wireFmt v) 0

/-- The step in which a REDUCE_SCATTER passes a count around the ring (R477; log row 28). -/
abbrev countStep : Nat := 0xFFFF

/-- The chunk of a REDUCE_SCATTER is complete: its count goes around the ring (R477). -/
def sendCount (s : State) (c : Coll) : Work :=
  if c.op = 2 ∧ c.written = (c.chunk c.myrank).2 ∧ 1 < c.nranks then
    collStepTo s c ((c.myrank + 1) % c.nranks) countStep 0 [] c.ownNf
  else .go s c

/-- One block of a received COLL_STEP (R475). -/
def stepBlock (s : State) (c : Coll) (step blk nf : Nat) (bs : List Byte) : Work :=
  let st := c.stages
  if c.algo = 2 then
    if step = 4096 then
      (collWrite s { c with nf := c.nf + nf } blk bs).bind fun s c =>
        c.children.foldl (fun w r => w.bind fun s c => collStepTo s c (c.ofRel r) 4096 blk bs nf) (.go s c)
    else
      treePart s { c with parts := c.parts.set ((step % 2) * 2 ^ 40 + blk) (partCodes (blockVals c.wireFmt bs)) } blk
  else if step < st.1 then
    (ringPart s c blk (step + 1) (some (blockVals c.wireFmt bs))).bind fun s c =>
      if c.op = 2 ∧ c.chunkOf blk = c.myrank then sendCount s c else .go s c
  else if step < st.2.1 then
    let v := blockVals c.wireFmt bs
    let go := match c.parts.find blk with
      | none => Work.go s { c with parts := c.parts.set (2 ^ 40 + blk) (partCodes v) }
      | some own =>
        let u := combine c.redop v (partVals own)
        let c := { c with parts := c.parts.drop fun k => k == blk }
        if c.myrank / c.width = c.owner blk / c.width then finalBlock s c blk (valsBlock c.outFmt u)
        else collStepTo s c c.nextGroup (step + 1) blk (valsBlock c.wireFmt u) 0
    go.bind fun s c => if c.op = 2 ∧ c.chunkOf blk = c.myrank then sendCount s c else .go s c
  else
    (collWrite s { c with nf := c.nf + nf } blk bs).bind fun s c =>
      if step < st.2.2 then
        (if c.nextGroup / c.width = c.owner blk / c.width then Work.go s c
          else collStepTo s c c.nextGroup (step + 1) blk bs nf).bind fun s c => passIn s c blk st.2.2 bs nf
      else passIn s c blk (step + 1) bs nf

/-- Whether an engine has all of a collective: DST holds the final result and every count has come (R480). -/
def Coll.finished (c : Coll) : Bool :=
  if c.op ≤ 5 then decide (c.target ≤ c.written ∧ (c.op ≠ 2 ∨ c.counts + 1 = c.nranks)) else decide (c.open_ = 0)

/-- Ends a piece of work: the collective goes on or completes, or fails; `held` says what a page request does. -/
def Work.settle (w : Work) (held : State → Nat → State) : State :=
  match w with
  | .go s c => if c.finished then s.collFinish c St.ok 0xFFFF else s.putColl c
  | .fail s c st => s.collFail c st
  | .hold s va => held s va
  | .wait s => s

/-- The blocks of a received COLL_STEP, in ascending order. -/
def stepBlocks (c : Coll) (p : Packet) (s : State) : Work :=
  let size := blockSize (if c.op ≤ 2 ∧ (if c.algo = 2 then p.step ≠ 4096 else p.step < c.stages.2.1) then c.wireFmt
    else c.outFmt)
  (List.range (p.payload.length / size)).foldl (fun w i => w.bind fun s c =>
    stepBlock s c p.step (p.addr / 32 + i) (if i = 0 then p.aux else 0) ((p.payload.drop (size * i)).take size)) (.go s c)

/-- A received COLL_STEP for an armed collective; the flag says that it took effect, and not that it waits for a page
request (R475 to R477). -/
def State.collStep (s : State) (c : Coll) (p : Packet) : Bool × State :=
  let w : Work :=
    if p.sig ≠ c.sig then .fail s c St.inputCorrupt
    else if c.op = 5 then
      let e := s.vwrite c.ctxt (c.dst + p.addr) p.payload
      c.after e.1 e.2.2 fun s => .go s { c with written := c.written + p.payload.length }
    else if p.step = countStep then
      (if p.addr / 32 + 2 < c.nranks then collStepTo s c ((c.myrank + 1) % c.nranks) countStep (p.addr / 32 + 1) [] p.aux
        else Work.go s c).bind fun s c => .go s { c with nf := c.nf + p.aux, counts := c.counts + 1 }
    else stepBlocks c p s
  match w with
  | .hold _ va => (false, s.pageRequest c.ctxt va (.coll c.key))
  | .wait _ => (false, s)
  | w => (true, w.settle fun s _ => s)

/-! ### Direct operations -/

/-- Executes a remote write at its destination: TRANSLATION_FAULT for an absent translation, without a page request
(R464); none while a migration holds the page (R316). -/
def State.remoteWrite (s : State) (part pasid va : Nat) (bs : List Byte) : Option (Nat × State) :=
  let r := s.vwrite ⟨none, part, pasid, .engine⟩ va bs
  match r.1 with
  | .status st => some (st, r.2.2)
  | .absent _ => some (St.translationFault, r.2.2)
  | .wait => none

/-- Executes a remote read at its destination (R464). -/
def State.remoteRead (s : State) (part pasid va n : Nat) : Option (Nat × List Byte × State) :=
  let r := s.vread ⟨none, part, pasid, .engine⟩ va n
  match r.1 with
  | .status st => some (st, r.2.1, r.2.2)
  | .absent _ => some (St.translationFault, [], r.2.2)
  | .wait => none

/-- Performs a remote atomic on 8 B at its destination's home: status and old value (R201, R465). -/
def State.remoteAtomic (s : State) (part pasid va aop b cmp : Nat) : Option (Nat × Nat × State) :=
  let t := s.translate none part pasid va true
  match t.1 with
  | .wait => none
  | .absent => some (St.translationFault, 0, t.2)
  | .fault st => some (st, 0, t.2)
  | .ok pa =>
    if 9 < aop ∨ pa % 8 ≠ 0 then some (St.permissionFault, 0, t.2)
    else match regionOf pa with
      | .gddr _ _ | .cellar _ _ =>
        let r := t.2.physRead part .engine pa 8
        if r.1 ≠ St.ok then some (r.1, 0, t.2)
        else
          let old := ofLeBytes r.2
          let w := t.2.physWrite part .engine pa (leBytes 8 (amoValue aop 64 old b cmp))
          some (w.1, old, w.2)
      | _ => some (St.permissionFault, 0, t.2)

/-- Sends one packet of a direct operation to its peer module. -/
def directSend (s : State) (c : Coll) (p : Packet) : Work :=
  let p := { p with
    dst := c.peer.1, part := c.part, jobTag := c.jobTag, collSeq := c.collSeq, pasid := c.rpasid
    vc := s.dataVc c.peer.1 c.part }
  let r := s.sendPacket p (.coll c.key)
  if r.1 = St.ok then .go r.2 { c with open_ := c.open_ + 1 } else .fail r.2 c r.1

/-- Pieces of at most 4 KiB of n bytes, as (offset, length). -/
def pieces (n : Nat) : List (Nat × Nat) := (List.range ((n + 4095) / 4096)).map fun i => (4096 * i, min 4096 (n - 4096 * i))

/-- The result of a remote access made within this module. -/
def Coll.local_ (c : Coll) (s : State) (r : Option (Nat × State)) : Work :=
  match r with
  | none => .wait s
  | some (st, s) => if st = St.ok then .go s c else .fail s c st

/-- One piece of a PUT (R474, Table 15-10). -/
def putPiece (s : State) (c : Coll) (o : Nat × Nat) : Work :=
  let e := s.vread c.ctxt (c.src + o.1) o.2
  c.after e.1 e.2.2 fun s =>
    if c.peer.1 = s.moduleId then c.local_ s (s.remoteWrite c.part c.rpasid (c.dst + o.1) e.2.1)
    else directSend s c { type := 0x01, addr := c.dst + o.1, payload := e.2.1 }

/-- One piece of a GET. -/
def getPiece (s : State) (c : Coll) (o : Nat × Nat) : Work :=
  if c.peer.1 = s.moduleId then
    match s.remoteRead c.part c.rpasid (c.src + o.1) o.2 with
    | none => .wait s
    | some (st, bs, s) =>
      if st ≠ St.ok then .fail s c st
      else
        let e := s.vwrite c.ctxt (c.dst + o.1) bs
        c.after e.1 e.2.2 fun s => .go s c
  else directSend s c { type := 0x02, addr := c.src + o.1, aux := o.2 }

/-- An ATOMIC (R465). -/
def atomicStart (s : State) (c : Coll) : Work :=
  if c.peer.1 = s.moduleId then
    c.local_ s ((s.remoteAtomic c.part c.rpasid c.dst c.redop c.operand c.compare).map fun r => (r.1, r.2.2))
  else directSend s c { type := 0x04, op := c.redop, addr := c.dst, payload := leBytes 8 c.operand ++ leBytes 8 c.compare }

/-- An EVENT (R465); within this module the COLLECTIVE page posts it (log row 28). -/
def eventStart (s : State) (c : Coll) : Work :=
  if c.peer.1 = s.moduleId then
    .go (s.genEvent (Page.collective c.stack) (0x8000 + c.operand % 2 ^ 15) c.part (BitVec.ofNat 64 c.compare)) c
  else directSend s c { type := 0x06, payload := leBytes 8 (c.operand % 2 ^ 16) ++ leBytes 8 c.compare }

/-- First byte and length of slot k of an ALL_TO_ALL's SRC. -/
def Coll.slot (c : Coll) (k : Nat) : Nat × Nat :=
  let b := c.count / c.nranks
  let x := c.count % c.nranks
  (k * b + min k x, b + (if k < x then 1 else 0))

/-- Sends one piece of an ALL_TO_ALL to a rank, or copies it where the rank is this one. -/
def slotPiece (s : State) (c : Coll) (k : Nat) (o : Nat × Nat) : Work :=
  let sl := c.slot k
  let e := s.vread c.ctxt (c.src + sl.1 + o.1) o.2
  let off := c.myrank * sl.2 + o.1
  c.after e.1 e.2.2 fun s =>
    if k = c.myrank then
      let w := s.vwrite c.ctxt (c.dst + off) e.2.1
      c.after w.1 w.2.2 fun s => .go s { c with written := c.written + o.2 }
    else collSend s c (c.ranks.getD k (0, 0)) { type := 0x07, addr := off, payload := e.2.1 }

/-! ### Arming -/

/-- What an engine does when it has armed a collective: the steps that need nothing from another rank (R475). -/
def collStart (s : State) (c : Coll) : Work :=
  let blocks := List.range (c.count / 32)
  let all := fun (f : State → Coll → Nat → Work) (bs : List Nat) =>
    bs.foldl (fun w b => w.bind fun s c => f s c b) (Work.go s c)
  match c.op with
  | 3 => all (fun s c b => if c.chunkOf b = c.myrank then
      collRead s c b fun s bs => finalBlock s { c with reads := c.reads + 1 } b bs else .go s c) blocks
  | 4 =>
    if c.myrank ≠ c.root then .go s c
    else all (fun s c b => collRead s c b fun s bs =>
      let c := { c with reads := c.reads + 1 }
      if c.algo = 2 then
        (collWrite s c b bs).bind fun s c =>
          c.children.foldl (fun w r => w.bind fun s c => collStepTo s c (c.ofRel r) 4096 b bs 0) (.go s c)
      else finalBlock s c b bs) blocks
  | 5 => (List.range c.nranks).foldl (fun w k => w.bind fun s c =>
      (pieces (c.slot k).2).foldl (fun w o => w.bind fun s c => slotPiece s c k o) (Work.go s c)) (.go s c)
  | 6 => (pieces c.count).foldl (fun w o => w.bind fun s c => putPiece s c o) (.go s c)
  | 7 => (pieces c.count).foldl (fun w o => w.bind fun s c => getPiece s c o) (.go s c)
  | 8 => atomicStart s c
  | 9 => eventStart s c
  | _ =>
    if c.algo = 2 then all (fun s c b => if c.children = [] then treePart s c b else .go s c) blocks
    else
      (all (fun s c b => if (c.owner b % c.width + 1) % c.width = c.myrank % c.width then ringPart s c b 0 none
        else .go s c) blocks).bind fun s c =>
          if (c.chunk c.myrank).2 = 0 then sendCount s c else .go s c

/-- Whether the operation, algorithm and formats of a descriptor go together (Table 15-10). -/
def opSound (op algo fi fw fo red : Nat) : Bool :=
  match op with
  | 1 => decide (1 ≤ algo ∧ algo ≤ 3 ∧ fi ≤ 2 ∧ fw ≤ 2 ∧ fo ≤ 2 ∧ red ≤ 2)
  | 2 => decide ((algo = 1 ∨ algo = 3) ∧ fi ≤ 2 ∧ fw ≤ 2 ∧ fo ≤ 2 ∧ red ≤ 2)
  | 3 => decide ((algo = 1 ∨ algo = 3) ∧ fi = fo ∧ fi ≤ 3)
  | 4 => decide ((algo = 2 ∨ algo = 1) ∧ fi = fo ∧ fi ≤ 3)
  | 8 => decide (algo = 4 ∧ fi = 3 ∧ fw = 3 ∧ fo = 3 ∧ red ≤ 9)
  | 5 | 6 | 7 | 9 => decide (algo = 4 ∧ fi = 3 ∧ fw = 3 ∧ fo = 3)
  | _ => false

/-- The checks of a descriptor, in order; OK where they pass (R474). -/
def descStatus (d : List Byte) : Nat :=
  let n := leAt d 12 2
  let op := leAt d 6 1
  if d.take 4 ≠ [0x50, 0x5A, 0x43, 0x44] ∨ leAt d 124 4 ≠ crc32c (d.take 124) then St.inputCorrupt
  else if leAt d 4 2 ≠ 0x1100 then St.versionMismatch
  else if !opSound op (leAt d 7 1) (leAt d 8 1) (leAt d 9 1) (leAt d 10 1) (leAt d 11 1) || !zeroAt d 96 28
      || decide (n = 0 ∨ 4096 < n ∨ n ≤ leAt d 14 2 ∨ (op = 4 ∧ n ≤ leAt d 16 2)
        ∨ (leAt d 7 1 = 3 ∧ (leAt d 18 2 = 0 ∨ n % leAt d 18 2 ≠ 0)) ∨ (op ≤ 4 ∧ leAt d 24 8 % 32 ≠ 0)
        ∨ 2 ^ 18 ≤ leAt d 72 4 ∨ 2 ^ 20 ≤ leAt d 76 4) then St.inputCorrupt
  else St.ok

/-- SIG: CRC32C of descriptor bytes 6–31, with MYRANK, which differs in every rank, as zero, and of the rank table
(R476; log row 29). -/
def collSig (d ranks : List Byte) : Nat := crc32c ((d.drop 6).take 8 ++ [0, 0] ++ (d.drop 16).take 16 ++ ranks)

/-- The collective that a descriptor and its rank table describe. -/
def State.collOf (s : State) (x : Cmd) (stack : Nat) (d rt : List Byte) : Coll :=
  let ms := if leAt d 20 4 = 0 then s.fld (Page.collective stack) 0x100 15 0 else leAt d 20 4
  { queue := x.queue, seq := x.seq, stack := stack, part := x.part, pasid := x.pasid, jobTag := x.jobTag
    collSeq := x.cs.getD 1 0, op := leAt d 6 1, algo := leAt d 7 1, inFmt := leAt d 8 1
    wireFmt := leAt d 9 1, outFmt := leAt d 10 1, redop := leAt d 11 1, nranks := leAt d 12 2, myrank := leAt d 14 2
    root := leAt d 16 2, inner := leAt d 18 2, timeoutUs := 1000 * ms, count := leAt d 24 8
    ranks := (List.range (leAt d 12 2)).map fun i => (leAt rt (4 * i) 4 % 4096, leAt rt (4 * i) 4 / 4096)
    src := leAt d 40 8, srcSide := leAt d 48 8, dst := leAt d 56 8, dstSide := leAt d 64 8
    peer := (leAt d 72 4 % 4096, leAt d 72 4 / 4096), rpasid := leAt d 76 4, operand := leAt d 80 8
    compare := leAt d 88 8, sig := collSig d rt, armedAt := s.panelTime.toNat }

/-! ### STRAGGLE -/

/-- The stack whose GDDR holds a plane of a collective, if one does. -/
def State.planeStack (s : State) (c : Coll) (a : Nat) : Option Nat :=
  match (s.peekTranslate c.part c.pasid a false).map regionOf with
  | some (.gddr st _) => some st
  | _ => none

/-- Whether a GDDR device of a stack affects a collective: its engine runs there, or a plane is homed there (R481). -/
def State.affects (s : State) (c : Coll) (stack : Nat) : Bool :=
  decide (c.stack = stack) || [c.src, c.srcSide, c.dst, c.dstSide].any fun a => decide (a ≠ 0 ∧ s.planeStack c a = some stack)

/-- Bytes that a collective has still to read or write on a stack (R482). -/
def State.remaining (s : State) (c : Coll) (stack : Nat) : Nat :=
  let total := c.count / 32
  let rd := if s.planeStack c c.src = some stack then (total - c.reads) * blockSize c.inFmt else 0
  let wr := if s.planeStack c c.dst = some stack then (c.target - c.written) * blockSize c.outFmt else 0
  rd + wr

/-- EXTRA_US of R482. -/
def extraUs (r hot : Nat) : Nat := (r * (16 - hot) + hot * 960000 - 1) / (hot * 960000)

/-- STRAGGLE_SEND: an engine tells every other rank of its extension and extends its own timeout (R482). -/
def State.straggleSend (s : State) (c : Coll) (stack dev : Nat) : State :=
  let us := extraUs (s.remaining c stack) (s.fld (Page.gddr stack dev) 0x100 3 0)
  let page := Page.collective c.stack
  let s := (s.putColl (c.extend us)).noteRanks c 0x0A 0 us
  (s.bump page 3 (c.nranks - 1)).genEvent page 0x02B6 c.part (place 31 0 c.collSeq ||| place 63 32 us)

/-- Sends STRAGGLE for every HOT device that affects a collective just armed (R482). -/
def State.straggleArmed (s : State) (key : Nat) : State :=
  (List.range 72).foldl (fun s st => (List.range 6).foldl (fun s g =>
    if s.fld (Page.gddr st g) 0x108 9 8 ≠ 2 then s
    else match s.colls.find key with
      | some c => if s.affects c st then s.straggleSend c st g else s
      | none => s) s) s

/-! ### The command -/

/-- A COLLECTIVE that fails before it is armed completes at once (R474, R478). -/
def State.collRefuse (s : State) (x : Cmd) (stack status : Nat) : State :=
  (s.bump (Page.collective stack) 1).finishCmd x status (collResult 0 0 0xFFFF)

/-- Arms a collective: its number must exceed the highest armed for its job tag; a kept ABORT ends it, kept STRAGGLEs
extend it, and then it starts (R478, R479, R482). -/
def State.collArm (s : State) (x : Cmd) (c : Coll) : State :=
  let tag := collTag c.stack c.jobTag
  let old := match s.collHigh.find tag with
    | some h => decide (c.collSeq ≤ h)
    | none => false
  if old then s.collRefuse x c.stack St.inputCorrupt
  else
    let mine := fun (n : KeptNote) => decide (n.stack = c.stack ∧ n.jobTag = c.jobTag ∧ n.collSeq = c.collSeq)
    let notes := s.collNotes.filter mine
    let armed := { s with
      collHigh := s.collHigh.set tag c.collSeq, collNotes := s.collNotes.filter fun n => !mine n }
    match notes.find? KeptNote.abort with
    | some n => (armed.putColl c).collFinish c n.status n.value
    | none =>
      let c := notes.foldl (fun c n => c.extend n.value) c
      let held := fun (_ : State) (va : Nat) => s.holdPage x c.ctxt va
      match collStart (armed.putColl c) c with
      | .wait _ => s
      | w => (w.settle held).straggleArmed c.key

/-- COLLECTIVE: the engine reads and checks the descriptor and its rank table, and arms the collective (R473, R474). -/
def execCollective (q seq : Nat) (s : State) : Out :=
  .next (match s.cmd q seq with
  | none => s
  | some x =>
    let s := s.activate q seq
    let x := (s.cmd q seq).getD x
    match s.boundStack x.target with
    | none => s
    | some p =>
      if x.kind ≠ 3 ∨ !s.mayIssue x ∨ (s.colls.find (cmdKey q seq)).isSome then s
      else if x.cs.getD 0 0 % 64 ≠ 0 then s.collRefuse x p St.inputCorrupt
      else
        let cx : Ctxt := ⟨some p, x.part, x.pasid, .engine⟩
        let d := s.vread cx (x.cs.getD 0 0) 128
        match d.1 with
        | .absent va => d.2.2.holdPage x cx va
        | .wait => d.2.2
        | .status st =>
          let st := if st = St.ok then descStatus d.2.1 else st
          if st ≠ St.ok then d.2.2.collRefuse x p st
          else
            let r := d.2.2.vread cx (leAt d.2.1 32 8) (4 * leAt d.2.1 12 2)
            match r.1 with
            | .absent va => r.2.2.holdPage x cx va
            | .wait => r.2.2
            | .status st =>
              let bad := (List.range (leAt d.2.1 12 2)).any fun i => decide (2 ^ 18 ≤ leAt r.2.1 (4 * i) 4)
              if st ≠ St.ok then r.2.2.collRefuse x p st
              else if bad then r.2.2.collRefuse x p St.inputCorrupt
              else r.2.2.collArm x (r.2.2.collOf x p d.2.1 r.2.1))

/-- COLL_TIMEOUT: a collective's time since arming exceeds its timeout and extensions (R479). -/
def execCollTimeout (q seq : Nat) (s : State) : Out :=
  .next (match s.colls.find (cmdKey q seq) with
  | none => s
  | some c =>
    if c.armedAt + 1000 * (c.timeoutUs + c.ext) < s.panelTime.toNat then
      (s.bump (Page.collective c.stack) 2).collFail c St.timeout
    else s)

/-- COLL_STEP_RESEND: steps that their destination had not armed are sent again after RETRY_US, each counted (R478). -/
def execCollStepResend (q seq : Nat) (s : State) : Out :=
  .next (match s.colls.find (cmdKey q seq) with
  | none => s
  | some c =>
    let c' := { c with resend := [] }
    let s := s.bump (Page.collective c.stack) 5 c.resend.length
    (c.resend.foldl (fun w p => w.bind fun s c => collSend s c (p.dst, p.op) { p with flags := 0, chseq := 0 })
      (Work.go (s.putColl c') c')).settle fun s _ => s)

end Sys2Proof.Machine
end

