-- ==== Sys2Proof/Machine/Fabric.lean ====
section
/-!
DEFINITION. Fabric ports: links going down and coming up (R452, R455 to R457, R602, R626), flits (R449 to R451), and
what becomes of the channels and operations of a port that goes down (R463, R471).
-/
namespace Sys2Proof.Machine

/-! ### Operations whose packet ends -/

/-- Key of a window slot of a partition. -/
def winKey (part slot : Nat) : Nat := part * 64 + slot

/-- A window write is discarded: the slot keeps the first status and the count, CNT4 increases, and WIN_DISCARD is
posted at most once per millisecond for the slot (R433, R434). -/
def State.winDrop (s : State) (part slot off status : Nat) : State :=
  let d := s.winDrops.get (0, 0) (winKey part slot)
  let d' := (if d.1 = 0 then status else d.1, min (d.2 + 1) 0xFFFFFFFF)
  let s := { s with winDrops := s.winDrops.set (winKey part slot) d' }
  (s.bump Page.hostPort 4).genLimited (Page.hostPort * 2 ^ 20 + winKey part slot) Page.hostPort 0x02A3 part
    (place 5 0 slot ||| place 27 6 off ||| place 35 28 status)

/-- A flush of a window slot completes: the host's read returns the status and the count, which it clears (R434). -/
def State.flushDone (s : State) (part slot : Nat) : State :=
  let key := winKey part slot
  let d := s.winDrops.get (0, 0) key
  let v := leBytes 8 (d.1 + 2 ^ 32 * d.2)
  let msg : Msg := ⟨.hostCpl, part + 1, slot, 0, 0, v⟩
  { s with
    winDrops := s.winDrops.drop fun k => k == key
    winFlush := s.winFlush.filter fun k => k ≠ key
    reply := (St.ok, v)
    out := msg :: s.out }

/-- An attempt to return a completion to the master has failed: after the third it is discarded (R471). -/
def State.completionAgain : Nat → State → Nat → Packet → Nat → Nat → State
  | 0, s, _, _, _, _ => s
  | n + 1, s, port, p, q, seq =>
    let r := s.sendGroup port p (.completion q seq (3 - n))
    if r.1 = St.ok then r.2 else State.completionAgain n r.2 port p q seq

/-- The operation of a packet ends with a status (R463, R464). -/
def State.ownerFail (s : State) (x : TxPkt) (port status : Nat) : State :=
  match x.owner with
  | .none => s
  | .command q seq => s.complete q seq status 0 []
  | .completion q seq tries => s.completionAgain (3 - tries) port x.pkt q seq
  | .coll key =>
    match s.colls.find key with
    | some c => s.collFail c status
    | none => s
  | .hostFwd _ => s
  | .window part slot =>
    let s := if x.pkt.type = 0x14 then s.winDrop part slot x.pkt.aux status else s
    if x.pkt.type = 0x15 then s.flushDone part slot else s

/-! ### Channels -/

/-- The partition of a channel's packets. -/
def TxChan.part (ch : TxChan) : Nat := (ch.unacked.head?.map fun x => x.pkt.part).getD 0

/-- A channel fails, and with it every operation that has an unacknowledged packet on it (R463). -/
def State.failChannel (s : State) (key : Nat) : State :=
  let ch := s.txChan key
  ch.unacked.foldl (fun s x => s.ownerFail x ch.port St.timeout) (s.channelDead key ch.part)

/-- Sends a channel's unacknowledged packets again, in CHSEQ order, each counted and none charged (R463, R484). -/
def State.resendChannel (s : State) (key : Nat) : State :=
  let ch := s.txChan key
  ch.unacked.foldl (fun s x => (s.bump (Page.fabricPort ch.port) 5).transmit ch.port x.pkt) s

/-- The channels bound to a port. -/
def State.portChannels (s : State) (f : Nat) : List Nat :=
  (s.txChans.filter fun e => e.2.bound && decide (e.2.port = f)).map Prod.fst

/-- A channel's port has gone down: group traffic fails, and another channel rebinds and sends again, or fails where no
port is eligible (R463). -/
def State.failover (s : State) (key : Nat) : State :=
  let ch := s.txChan key
  let dst := key / 512
  let vc := key / 64 % 8
  let ports := match s.fabricRoute dst with
    | some (j, _) => if key % 64 = 0 then s.eligiblePorts j vc ch.part else []
    | none => []
  match ports[Config.channelHash dst vc % (max ports.length 1)]? with
  | none => s.failChannel key
  | some f =>
    let s := { s with txChans := s.txChans.set key { ch with port := f } }
    (s.genEvent (Page.fabricPort ch.port) 0x02B3 ch.part (place 11 0 dst ||| place 14 12 vc ||| place 20 16 f)).resendChannel key

/-! ### Link states -/

/-- Loads PORT_STAT.LSTATE. -/
def State.setLstate (s : State) (f n : Nat) : State := s.setFld (Page.fabricPort f) 0x108 2 0 n

/-- Loads PORT_STAT.LAST_STATUS. -/
def State.linkStatus (s : State) (f n : Nat) : State := s.setFld (Page.fabricPort f) 0x108 63 56 n

/-- The link layer of a port starts anew: nothing is kept but the cable. -/
def State.clearLink (s : State) (f : Nat) : State :=
  let s := s.modFabPort f fun x => { cable := x.cable, downAt := some s.panelTime.toNat }
  (s.setFld (Page.fabricPort f) 0x108 55 40 0).setReg (Page.fabricPort f) Reg.VER_ACTIVE 0

/-- A port returns to DOWN without an event: a state of its bring-up has exceeded its bound, or the versions do not meet
(R455, R456). -/
def State.portIdle (s : State) (f status : Nat) : State := ((s.clearLink f).setLstate f 0).linkStatus f status

/-- A port goes down: its replay buffer is discarded, FABRIC_LINK_DOWN is posted, and its channels rebind or fail (R452,
R463, Table 15-15). -/
def State.portDown (s : State) (f cause : Nat) : State :=
  if s.lstate f = 0 then s
  else
    let page := Page.fabricPort f
    let s := if s.portUp f then s.bump page 7 else s
    let s := ((s.clearLink f).setLstate f 0).genEvent page 0x02B0 0 (place 2 0 cause)
    (s.portChannels f).foldl State.failover s

/-- Whether a port in DOWN may start its bring-up: a cable, a valid module ID, and start-up in phase 7 or later (R455,
R457, R602). -/
def State.mayBringUp (s : State) (f : Nat) : Bool :=
  let phase := s.fld Page.pmc Reg.BOOT_STAT 3 0
  decide (s.lstate f = 0) && s.ready (Page.fabricPort f) && (s.fabPort f).cable && decide (s.fld (Page.portDie 0) 0x100 16 16 = 1)
    && decide (7 ≤ phase ∧ phase ≤ 10)

/-- Starts a port's bring-up. -/
def State.bringUp (s : State) (f : Nat) : State := if s.mayBringUp f then s.setLstate f 1 else s

/-- Whether n ns have passed since a port went down. -/
def State.downFor (s : State) (f n : Nat) : Bool :=
  match (s.fabPort f).downAt with
  | some t => decide (t + n ≤ s.panelTime.toNat)
  | none => true

/-- Whether a port's last bring-up ended with VINTAGE_FAIL. -/
def State.vintageFailed (s : State) (f : Nat) : Bool :=
  let st := s.fld (Page.fabricPort f) 0x108 63 56
  decide (st = St.versionMismatch ∨ st = St.inputCorrupt)

/-- FABRIC_SILENCE: a port has received no flit for 100 µs (R452). -/
def execFabricSilence (f : Nat) (s : State) : Out :=
  .next (if 3 ≤ s.lstate (f % 32) then s.portDown (f % 32) 2 else s)

/-- LANE_SIGNAL_LOSS: a lane loses signal (R452). -/
def execLaneSignalLoss (f : Nat) (s : State) : Out := .next (s.portDown (f % 32) 3)

/-- CABLE_PRESENCE: presence of a cable changes (R452, R602, R604). -/
def execCablePresence (f : Nat) (present : Bool) (s : State) : Out :=
  .next (let f := f % 32
  if (s.fabPort f).cable = present then s
  else
    let s := (s.modFabPort f fun x => { x with cable := present }).genEvent (Page.fabricPort f) 0x02F7 0
      (place 4 0 f ||| place 8 8 present.toNat)
    if present then s.bringUp f else s.portDown f 4)

/-- BRINGUP_RESTART: 1 s after it went down, a port starts bring-up again (R452). -/
def execBringupRestart (f : Nat) (s : State) : Out :=
  .next (let f := f % 32
  if s.downFor f 1000000000 && !s.vintageFailed f then s.bringUp f else s)

/-- VINTAGE_FAIL_RETRY: after VINTAGE_FAIL a port tries again every 10 s (R602). -/
def execVintageFailRetry (f : Nat) (s : State) : Out :=
  .next (let f := f % 32
  if s.downFor f 10000000000 && s.vintageFailed f then s.bringUp f else s)

/-! ### Vintage -/

/-- The port's own message (Table 15-5). -/
def State.vintageBytes (s : State) (f : Nat) : List Byte :=
  leBytes 2 0x1100 ++ leBytes 2 0x1100 ++ leBytes 2 0 ++ leBytes 2 2 ++ leBytes 2 s.moduleId ++ leBytes 1 f
    ++ List.replicate 5 0

/-- Sends the port's message on VC 0 (R456). -/
def State.sendVintage (s : State) (f : Nat) : State :=
  { s with out := ⟨.vintage, f, 0, 0, 0, s.vintageBytes f⟩ :: s.out }

/-- One side of a negotiation: LOW, HIGH, MAJOR_MAP0 and MAJOR_MAP1 (R626). -/
structure Side where
  low : Nat
  high : Nat
  map0 : Nat
  map1 : Nat
  deriving DecidableEq, Repr

/-- The side that a VER_SUPPORT value, or a message of the same layout, advertises. -/
def sideOf (v : Nat) : Side := ⟨natBits v 15 0, natBits v 31 16, natBits v 47 32, natBits v 63 48⟩

/-- The top minor of a side for a major (R626). -/
def Side.topMinor (x : Side) (g j : Nat) : Nat :=
  if g = natBits x.high 15 12 ∧ j = natBits x.high 11 8 then natBits x.high 7 0 else 0

/-- Whether a side supports a major. -/
def Side.supports (x : Side) (g j : Nat) : Bool := (if g = 0 then x.map0 else x.map1).testBit j

/-- The version in force of two sides; zero is failure (R626). -/
def negotiate (a b : Side) : Nat :=
  ((List.range 2).flatMap fun g => (List.range 16).map fun j => (g, j)).foldl (fun best p =>
    if a.supports p.1 p.2 && b.supports p.1 p.2 then
      let v := p.1 * 4096 + p.2 * 256 + min (a.topMinor p.1 p.2) (b.topMinor p.1 p.2)
      if max a.low b.low ≤ v ∧ v ≤ min a.high b.high ∧ best < v then v else best
    else best) 0

/-- VINTAGE_MESSAGE: a port in VINTAGE has its partner's message (R456). -/
def execVintageMessage (f : Nat) (b : List Byte) (s : State) : Out :=
  .next (let f := f % 32
  let page := Page.fabricPort f
  if s.lstate f ≠ 3 then s
  else
    let v := negotiate (sideOf (s.reg page Reg.VER_SUPPORT).toNat) (sideOf (ofLeBytes (b.take 8)))
    let peer := leAt b 8 2 % 4096
    let st := if v = 0 then St.versionMismatch else if peer = s.moduleId then St.inputCorrupt else St.ok
    if st ≠ St.ok then (s.portIdle f st).genEvent page 0x02B2 0 (place 7 0 st ||| place 31 16 (leAt b 2 2))
    else
      let stat := place 55 40 v ||| place 28 28 (leAt b 11 1 % 2) ||| place 27 16 peer ||| place 15 8 (leAt b 10 1) ||| place 2 0 4
      let s := (s.setReg page 0x108 stat).setFld page Reg.VER_ACTIVE 15 0 v
      s.genEvent page 0x02B1 0 (place 11 0 peer ||| place 23 16 (leAt b 10 1)))

/-- VINTAGE_RESEND: a port in VINTAGE sends its message every 100 µs (R456). -/
def execVintageResend (f : Nat) (s : State) : Out :=
  .next (if s.lstate (f % 32) = 3 then s.sendVintage (f % 32) else s)

/-- BRINGUP_STAGE_DONE: training or alignment completes (R455). -/
def execBringupStageDone (f : Nat) (s : State) : Out :=
  .next (let f := f % 32
  match s.lstate f with
  | 1 => s.setLstate f 2
  | 2 => ((s.clearLink f).setLstate f 3).sendVintage f
  | _ => s)

/-- BRINGUP_TIMEOUT: a state of the bring-up has exceeded its bound (R455). -/
def execBringupTimeout (f : Nat) (s : State) : Out :=
  .next (let f := f % 32
  if 1 ≤ s.lstate f ∧ s.lstate f ≤ 3 then s.portIdle f St.timeout else s)

/-! ### Flits -/

/-- Sends a flit without payload: the acknowledgement, or with NAK (Table 15-2). -/
def State.nullFlit (s : State) (f : Nat) (nak : Bool) : State :=
  let x := s.fabPort f
  let hdr := place 13 0 x.txSeq ||| x.ackBits ||| place 29 29 nak.toNat ||| place 30 30 1
  (s.modFabPort f FabPort.acked).emitFlit f hdr []

/-- The flits that remain after an acknowledgement. -/
def afterAck (ack : Nat) (rs : List (Nat × Nat × List Byte)) : List (Nat × Nat × List Byte) :=
  match rs.findIdx? fun r => decide (r.1 = ack) with
  | some i => rs.drop (i + 1)
  | none => rs

/-- Sends the flits of the replay buffer again, each counted; more than 1,024 in any 1 ms take the port down (R450,
R452). -/
def State.replay (s : State) (f : Nat) : State :=
  let x := s.fabPort f
  let now := s.panelTime.toNat
  let n := x.replay.length
  let s := x.replay.foldl (fun s r => s.emitFlit f (place 13 0 r.1 ||| (s.fabPort f).ackBits ||| place 48 46 r.2.1) r.2.2) s
  let recent := (x.replays.filter fun r => decide (now < r.1 + 1000000)) ++ [(now, n)]
  let s := (s.bump (Page.fabricPort f) 4 n).modFabPort f fun x => { x with replays := recent }
  if 1024 < (recent.map Prod.snd).sum then s.portDown f 1 else s

/-- The acknowledgement, the credits and a NAK of a received flit (R450, R451). -/
def State.flitControl (s : State) (f : Nat) (h : Word) : State :=
  let s := s.modFabPort f fun x => { x with
    replay := if bit h 28 then afterAck (bits h 27 14) x.replay else x.replay
    credits := if bits h 45 34 = 0 then x.credits
      else x.credits.set (bits h 33 31) (min 8192 (x.credit (bits h 33 31) + bits h 45 34)) }
  if bit h 29 then s.replay f else s

/-- FABRIC_FLIT_RECEIVE: a flit arrives, with the FEC codewords corrected and not corrected since the one before (R450,
R451, Table 15-15). Its packets are the commands of their own that follow it (log row 30). -/
def execFabricFlitReceive (f : Nat) (b : List Byte) (fixed lost : Nat) (s : State) : Out :=
  .next (let f := f % 32
  let page := Page.fabricPort f
  if s.lstate f < 3 then s
  else
    let s := (s.bumpUnits page 2 fixed 1024).bump page 3 lost
    let h := BitVec.ofNat 64 (leAt b 0 8)
    if b.length ≠ 256 ∨ leAt b 248 8 ≠ crc64 (b.take 248) then s.nullFlit f true
    else
      let s := s.flitControl f h
      if s.lstate f < 3 then s
      else
        let s := (List.range 8).foldl (fun s vc => s.pumpFlits f vc 8192) s
        let x := s.fabPort f
        if bit h 30 then s
        else if bits h 13 0 ≠ x.rxNext then s.nullFlit f true
        else
          let vc := bits h 48 46
          let s := s.modFabPort f fun x => { x with
            rxNext := (x.rxNext + 1) % 16384
            unackedRx := x.unackedRx + 1
            owed := x.owed.set vc (x.owed.get 0 vc + 1) }
          if 256 ≤ x.unackedRx + 1 then s.nullFlit f false else s)

/-- FABRIC_ACK_TIMER: a receiver acknowledges at least every 1 µs, and an idle sender sends NULL flits (R450). -/
def execFabricAckTimer (f : Nat) (s : State) : Out :=
  .next (if 3 ≤ s.lstate (f % 32) then s.nullFlit (f % 32) false else s)

/-! ### Module identity -/

/-- A write of MODULE_CFG takes effect only while every port is DOWN (R457). -/
def moduleCfgEff (v : Word) (s : State) : State :=
  if (List.range 32).all fun f => decide (s.lstate f = 0) then
    (List.range 32).foldl State.bringUp (s.plainWrite (Page.portDie 0) 0x100 v)
  else s

/-- MODULE_CFG_WRITE (R457). -/
def execModuleCfgWrite (i : Ident) (v : Word) (s : State) : Out :=
  .next (s.writeVia i (Page.portDie 0) 0x100 v (moduleCfgEff v))

/-- RETX_TIMER: nothing of a channel has been acknowledged for RETX_US. Its unacknowledged packets are sent again, and
after the eighth time the channel fails (R463). `port` is the port of a channel of group traffic, plus one. -/
def execRetxTimer (dst vc port : Nat) (s : State) : Out :=
  .next (let key := (dst * 8 + vc % 8) * 64 + port % 64
  let ch := s.txChan key
  if ch.unacked = [] then s
  else if 8 ≤ ch.tries then s.failChannel key
  else
    let s := { s with txChans := s.txChans.set key { ch with tries := ch.tries + 1 } }
    s.resendChannel key)

end Sys2Proof.Machine
end

