-- ==== Sys2Proof/Machine/Packets.lean ====
section
/-!
DEFINITION. Received packets (R454, R459 to R465, R468): ownership of channels, forwarding, the order of a channel, and
what each packet type does at its destination.
-/
namespace Sys2Proof.Machine

/-- What a packet's execution at its destination comes to: done, answered with a NAK, or not yet executed. -/
inductive Handled where
  | done (s : State)
  | nak (status : Nat) (s : State)
  | hold (s : State)
  deriving DecidableEq, Repr

/-- Sends an ACK or a NAK for a packet: CHSEQ in ACKSEQ and the channel's VC in AUX; that of group traffic goes out on the
port where the packet arrived (R461, R462; log row 31). -/
def State.ackPacket (s : State) (f : Nat) (p : Packet) (type status : Nat) : State :=
  let a : Packet := { type := type, dst := p.src, part := p.part, ackseq := p.chseq, aux := p.vc, status := status }
  if p.vc = 1 then (if s.portUp f then s.transmit f { a with src := s.moduleId } else s) else s.sendLoose a

/-- Counts and posts a packet discarded under R454, R459 or R468; only the last two post (Table 15-19). -/
def State.discard (s : State) (f : Nat) (p : Packet) (post : Bool) : State :=
  let page := Page.fabricPort f
  let s := s.bump page 6
  if post then s.genEvent page 0x02B9 p.part (place 11 0 p.src ||| place 19 12 p.type) else s

/-- Forwards a packet for another module: on a port of its routing entry, on the same VC, uncharged, and at most 15 times
(R459). -/
def State.forwardPacket (s : State) (f : Nat) (p : Packet) : State :=
  if 15 ≤ p.hops then s.discard f p true
  else match s.fabricRoute p.dst with
    | none => s.discard f p true
    | some (j, n) =>
      let s := if 1 < n then s.multiMatch (Page.portDie 0) 3 j n else s
      let ports := (s.eligiblePorts j p.vc p.part).filter fun g => p.vc ≠ 1 || s.groupPort g
      match ports[Config.channelHash p.dst p.vc % (max ports.length 1)]? with
      | none => s.discard f p true
      | some g => s.transmit g { p with hops := p.hops + 1 }

/-- Key of a receiving channel; that of group traffic includes its port. -/
def rxKey (f : Nat) (p : Packet) : Nat := (p.src * 8 + p.vc) * 64 + if p.vc = 1 then f + 1 else 0

/-- A packet in its channel: executed in CHSEQ order and acknowledged; a duplicate is answered with the highest contiguous
CHSEQ only, and one after a gap is discarded (R462, R463). -/
def State.inChannel (s : State) (f : Nat) (p : Packet) (run : State → Handled) : State :=
  let key := rxKey f p
  let e := s.rxChans.get 1 key
  let next : State → State := fun s => { s with rxChans := s.rxChans.set key ((p.chseq + 1) % 2 ^ 32) }
  if p.chseq = e ∨ (p.flags.testBit 0 ∧ p.chseq = 1) then
    match run s with
    | .done s => (next s).ackPacket f p 0x08 0
    | .nak st s => (next s).ackPacket f p 0x09 st
    | .hold s => s
  else if seqLe p.chseq e then s.ackPacket f { p with chseq := (e + 2 ^ 32 - 1) % 2 ^ 32 } 0x08 0
  else s

/-- Whether a port accepts a packet of a virtual channel: a data channel that the packet's partition owns (R454). -/
def State.ownsVc (s : State) (f : Nat) (p : Packet) : Bool := decide (p.vc < 2) || decide (s.vcOwner f p.vc = some p.part)

/-- A packet of a type arrives on a port: counted, checked, forwarded where it is for another module, and executed in its
channel. A type lies on the virtual channel that Table 15-7 gives it. -/
def State.receive (s : State) (f : Nat) (p : Packet) (seq : Bool) (run : State → Handled) : State :=
  if !s.portUp f then s
  else
    let s := s.bumpUnits (Page.fabricPort f) 1 (48 + p.payload.length) 1024
    let home := decide (p.dst = s.moduleId)
    if p.vc = 1 ∧ !(s.groupPort f && (!home || (s.memberOf p.src).isSome)) then s.discard f p true
    else if !s.ownsVc f p then
      let s := s.discard f p false
      if home then s.inChannel f p fun s => .nak St.permissionFault s else s.ackPacket f p 0x09 St.permissionFault
    else if !home then s.forwardPacket f p
    else if seq then s.inChannel f p run
    else match run s with
      | .done s => s
      | .nak _ s => s
      | .hold s => s

/-- A packet as a port of this module sees it: its type, and its virtual channel, where 2 to 7 stand for a data channel. -/
def typed (p : Packet) (type : Nat) (vc : Option Nat) : Packet :=
  { p with type := type, vc := vc.getD (if p.vc % 8 < 2 then 2 else p.vc % 8), payload := p.payload.take 4096 }

/-- The handling of an access's result. -/
def handled {α : Type} (s : State) (r : Option (Nat × α)) (ok : α → State) (f : α → State) : Handled :=
  match r with
  | none => .hold s
  | some (st, x) => if st = St.ok then .done (ok x) else .nak st (f x)

/-- WRITE: the payload is written at its address and visible before the channel's next packet (R462, R464). -/
def execWrite (f : Nat) (p : Packet) (s : State) : Out :=
  .next (let p := typed p 0x01 none
  s.receive (f % 32) p true fun s => handled s (s.remoteWrite p.part p.pasid p.addr p.payload) id id)

/-- The answer to a request goes back on the request's virtual channel. -/
def State.respond (s : State) (p : Packet) (type : Nat) (payload : List Byte) : State :=
  let r : Packet := {
    type := type, dst := p.src, vc := p.vc, part := p.part, jobTag := p.jobTag, collSeq := p.collSeq, op := p.op
    addr := p.addr, payload := payload }
  (s.sendPacket r .none).2

/-- READ_REQ: the bytes return in READ_RSP; AUX is their number (R462, R464; log row 31). -/
def execReadReq (f : Nat) (p : Packet) (s : State) : Out :=
  .next (let p := typed p 0x02 none
  s.receive (f % 32) p true fun s => handled s (s.remoteRead p.part p.pasid p.addr (min 4096 p.aux))
    (fun x => x.2.respond p 0x03 x.1) (fun x => x.2))

/-- The active direct operation of this module that a response is for. -/
def State.directOp (s : State) (p : Packet) (op : Nat) : Option Coll :=
  (s.colls.find? fun e => decide (e.2.op = op ∧ e.2.jobTag = p.jobTag ∧ e.2.collSeq = p.collSeq ∧ e.2.peer.1 = p.src
    ∧ e.2.part = p.part)).map Prod.snd

/-- READ_RSP: the bytes of a GET are written (Table 15-10). -/
def execReadRsp (f : Nat) (p : Packet) (s : State) : Out :=
  .next (let p := typed p 0x03 none
  s.receive (f % 32) p true fun s =>
    match s.directOp p 7 with
    | none => .done s
    | some c =>
      let e := s.vwrite c.ctxt (c.dst + (p.addr - c.src)) p.payload
      match e.1 with
      | .absent va => .hold (e.2.2.pageRequest c.ctxt va (.coll c.key))
      | .wait => .hold e.2.2
      | .status st =>
        let w := if st = St.ok then Work.go e.2.2 { c with open_ := c.open_ - 1 } else .fail e.2.2 c (localStatus st)
        .done (w.settle fun s _ => s))

/-- ATOMIC: performed at the destination's home; the old value returns (R465). -/
def execFabricAtomic (f : Nat) (p : Packet) (s : State) : Out :=
  .next (let p := typed p 0x04 none
  s.receive (f % 32) p true fun s =>
    handled s (s.remoteAtomic p.part p.pasid p.addr p.op (leAt p.payload 0 8) (leAt p.payload 8 8))
      (fun x => x.2.respond p 0x05 (leBytes 8 x.1)) (fun x => x.2))

/-- ATOMIC_RSP: the ATOMIC of this module is complete (R462). -/
def execAtomicRsp (f : Nat) (p : Packet) (s : State) : Out :=
  .next (let p := typed p 0x05 none
  s.receive (f % 32) p true fun s =>
    match s.directOp p 8 with
    | none => .done s
    | some c => .done ((Work.go s { c with open_ := c.open_ - 1 }).settle fun s _ => s))

/-- EVENT_POST: one event from the page of the arrival port (R465). -/
def execEventPost (f : Nat) (p : Packet) (s : State) : Out :=
  .next (let p := typed p 0x06 none
  s.receive (f % 32) p true fun s =>
    .done (s.genEvent (Page.fabricPort (f % 32)) (0x8000 + leAt p.payload 0 2 % 2 ^ 15) p.part
      (BitVec.ofNat 64 (leAt p.payload 8 8))))

/-- A COLL_STEP at its engine: an armed collective takes it, one completed ignores it, and one not yet armed is answered
with UNIT_UNAVAILABLE (R475, R478). -/
def State.stepArrives (s : State) (p : Packet) : Handled :=
  match s.boundStack p.op with
  | none => .nak St.unitUnavailable s
  | some st =>
    match s.collFind st p.jobTag p.collSeq with
    | some c =>
      let r := s.collStep c p
      if r.1 then .done r.2 else .hold r.2
    | none =>
      match s.collHigh.find (collTag st p.jobTag) with
      | some h => if p.collSeq ≤ h then .done s else .nak St.unitUnavailable s
      | none => .nak St.unitUnavailable s

/-- A step that its destination had not armed waits to be sent again (R478). -/
def State.stepAgain (s : State) (key : Nat) (p : Packet) : State :=
  match s.colls.find key with
  | some c => s.putColl { c with resend := c.resend ++ [p] }
  | none => s

/-- COLL_STEP: a step arrives at an engine, on a port or, for f of 32 and above, from another engine of this module, whose
oldest step is the one that arrives (R475 to R478). -/
def execCollStep (f : Nat) (p : Packet) (s : State) : Out :=
  .next (if f < 32 then
    let p := typed p 0x07 none
    s.receive f p true fun s => s.stepArrives p
  else match s.collLocal with
    | [] => s
    | q :: rest =>
      match { s with collLocal := rest }.stepArrives q with
      | .done s => s
      | .nak _ s => s.stepAgain q.ackseq q
      | .hold s => { s with collLocal := q :: s.collLocal })

/-- STRAGGLE: the timeout of the receiver's collective grows (R482). -/
def execStraggle (f : Nat) (p : Packet) (s : State) : Out :=
  .next (let p := typed p 0x0A (some 0)
  s.receive (f % 32) p false fun s =>
    .done (match s.boundStack p.op with
      | some st => s.straggleAt st p.jobTag p.collSeq p.aux
      | none => s))

/-- ABORT: the receiver's collective ends with the carried status and rank (R479). -/
def execAbort (f : Nat) (p : Packet) (s : State) : Out :=
  .next (let p := typed p 0x0B (some 0)
  s.receive (f % 32) p false fun s =>
    .done (match s.boundStack p.op with
      | some st => s.abortAt st p.jobTag p.collSeq p.status p.aux
      | none => s))

/-! ### Acknowledgements -/

/-- An acknowledged packet that needs no response: a PUT's or an EVENT's piece is done, and a flush of the window has seen
every earlier write of its slot (R434, R470, R474). -/
def State.ownerDone (s : State) (x : TxPkt) : State :=
  match x.owner with
  | .coll key =>
    if x.pkt.type = 0x01 ∨ x.pkt.type = 0x06 then
      match s.colls.find key with
      | some c => (Work.go s { c with open_ := c.open_ - 1 }).settle fun s _ => s
      | none => s
    else s
  | .window part slot => if x.pkt.type = 0x15 then s.flushDone part slot else s
  | _ => s

/-- The channel that an ACK or NAK on a port is for. -/
def ackedChannel (f : Nat) (p : Packet) : Nat := chanKey p.src (p.aux % 8) (if p.aux % 8 = 1 then some f else none)

/-- ACK: the channel's packets up to ACKSEQ leave it (R462, R463). -/
def execAck (f : Nat) (p : Packet) (s : State) : Out :=
  .next (let p := typed p 0x08 (some 0)
  s.receive (f % 32) p false fun s =>
    let key := ackedChannel (f % 32) p
    let ch := s.txChan key
    let gone := ch.unacked.filter fun x => seqLe x.pkt.chseq p.ackseq
    if gone = [] then .done s
    else
      let left := ch.unacked.filter fun x => !seqLe x.pkt.chseq p.ackseq
      .done (gone.foldl State.ownerDone { s with txChans := s.txChans.set key { ch with unacked := left, tries := 0 } }))

/-- What a refused packet does to its operation at the source: a forwarded command of a full ring and a step not yet armed
are sent again later, and every other operation completes with the status (R464, R469, R478). -/
def State.refusedPacket (s : State) (x : TxPkt) (port status : Nat) : State :=
  match x.owner with
  | .command q seq =>
    if status = St.refusedFull then
      match s.cmds.find (cmdKey q seq) with
      | some c => { s with cmds := s.cmds.set (cmdKey q seq) { c with held := 3 } }
      | none => s
    else s.ownerFail x port status
  | .coll key => if x.pkt.type = 0x07 ∧ status = St.unitUnavailable then s.stepAgain key x.pkt else s.ownerFail x port status
  | _ => s.ownerFail x port status

/-- NAK: packets before the one that ACKSEQ names are acknowledged, and that one's operation is refused (R462, R464). -/
def execNak (f : Nat) (p : Packet) (s : State) : Out :=
  .next (let p := typed p 0x09 (some 0)
  s.receive (f % 32) p false fun s =>
    let key := ackedChannel (f % 32) p
    let ch := s.txChan key
    match ch.unacked.find? fun x => decide (x.pkt.chseq = p.ackseq) with
    | none => .done s
    | some x =>
      let gone := ch.unacked.filter fun y => seqLe y.pkt.chseq p.ackseq && decide (y ≠ x)
      let left := ch.unacked.filter fun y => !seqLe y.pkt.chseq p.ackseq
      let s := { s with txChans := s.txChans.set key { ch with unacked := left, tries := 0 } }
      .done ((gone.foldl State.ownerDone s).refusedPacket x ch.port p.status))

end Sys2Proof.Machine
end

