-- ==== Sys2Proof/Machine/Groups.lean ====
section
/-!
DEFINITION. Host groups: formation (R466, R467), forwarded commands and completions (R469, R471), forwarded host accesses
and window traffic (R470).
-/
namespace Sys2Proof.Machine

/-! ### Formation -/

/-- The indices of the valid members. -/
def State.members (s : State) : List Nat := (List.range 64).filter fun m => (s.groupMember m).isSome

/-- What this module says in GROUP_HELLO: its strap in bit 0 and its host link in bit 1. -/
def State.helloBits (s : State) : Nat :=
  s.fld (Page.portDie 0) 0x100 17 17 + 2 * s.fld Page.hostPort 0x108 0 0

/-- Sends GROUP_HELLO to every other member (R467). -/
def State.sendHellos (s : State) : State :=
  s.members.foldl (fun s m =>
    match s.groupMember m with
    | none => s
    | some d =>
      if d = s.moduleId then s else (s.sendPacket { type := 0x16, dst := d, op := m % 256, aux := s.helloBits } .none).2) s

/-- The members whose answers have a bit. -/
def GroupForm.withBit (g : GroupForm) (b : Nat) : List Nat := g.heard.keysWhere fun _ v => v.testBit b

/-- A mask with the bits of a list set. -/
def maskOf (l : List Nat) : Nat := l.foldl (fun m i => m ||| 1 <<< i) 0

/-- The member that becomes master: the one with the strap, and without a strap the one of lowest module ID whose host link
is up (R467). -/
def State.masterOf (s : State) : Option Nat :=
  match s.group.withBit 0 with
  | m :: _ => some m
  | [] =>
    (s.group.withBit 1).foldl (fun best m =>
      match best with
      | none => some m
      | some b => if (s.groupMember m).getD 0 < (s.groupMember b).getD 0 then some m else some b) none

/-- The group is formed under a master; members that did not answer are absent, and the mode follows from GROUP_SIZE (R427,
R467). -/
def State.groupFormed (s : State) (master : Nat) : State :=
  let page := Page.portDie 0
  let ms := s.members
  let id := (s.groupMember master).getD 0
  let me := (s.memberOf s.moduleId).getD 0
  let mode := if 16 ≤ ms.length then 1 else 0
  let s := s.setReg page 0x118 (place 31 31 1 ||| place 30 19 id ||| place 5 0 me)
  let s := s.setReg page 0x120 (BitVec.ofNat 64 (maskOf (ms.filter fun m => (s.group.heard.find m).isNone)))
  let stat := s.reg Page.hostPort 0x108
  let stat := setBits (setBits (setBits stat 15 9 ms.length) 8 3 me) 2 1 (2 * (if master = me then 1 else 0) + mode)
  let s := s.setReg Page.hostPort 0x108 stat
  { s with group := { s.group with forming := false } }.genEvent page 0x02B7 0
    (place 6 0 ms.length ||| place 7 7 mode ||| place 19 8 id)

/-- What the answers so far decide: straps on several members end the formation with GROUP_CONFLICT, and the answers of all
members form the group if they name a master (R467). -/
def State.groupCheck (s : State) (late : Bool) : State :=
  if !s.group.forming then s
  else
    let straps := s.group.withBit 0
    if 1 < straps.length then
      { s with group := { s.group with forming := false, conflict := true } }.genEvent (Page.portDie 0) 0x02B8 0
        (BitVec.ofNat 64 (maskOf straps))
    else if late || s.members.all fun m => (s.group.heard.find m).isSome then
      match s.masterOf with
      | some m => s.groupFormed m
      | none => s
    else s

/-- The limit of 30 s begins at the formation, or with the first strap or host link heard of (R467). -/
def State.groupLimit (s : State) : State :=
  if s.group.limitFrom = none ∧ s.group.heard.any (fun e => decide (e.2 ≠ 0)) then
    { s with group := { s.group with limitFrom := some s.panelTime.toNat } }
  else s

/-- Starts a formation (R466). A module that its table does not list belongs to no group. -/
def State.groupStart (s : State) : State :=
  match s.memberOf s.moduleId with
  | none => s
  | some me =>
    let page := Page.portDie 0
    let s := (s.setFld page 0x118 31 31 0).setReg page 0x120 0
    let s := { s with group := { forming := true, heard := [(me, s.helloBits)], linked := s.group.linked } }
    (s.groupLimit.sendHellos).groupCheck false

/-- A write of GROUP_CTL (R466). -/
def groupCtlEff (v : Word) (s : State) : State := if bit v 0 then s.groupStart else s

/-- GROUP_FORM: a write of GROUP_CTL.FORM (R466). -/
def execGroupForm (i : Ident) (v : Word) (s : State) : Out :=
  .next (s.writeVia i (Page.portDie 0) 0x108 v (groupCtlEff v))

/-- GROUP_HELLO: a member says its strap and host-link state. A module that forms no group begins to, unless its last
formation met a conflict (R466, R467; log row 32). -/
def execGroupHello (f : Nat) (p : Packet) (s : State) : Out :=
  .next (let p := typed p 0x16 (some 0)
  s.receive (f % 32) p true fun s =>
    .done (match s.memberOf p.src with
      | none => s
      | some m =>
        let g := s.group
        let s := if !g.forming && !g.conflict && decide (s.fld (Page.portDie 0) 0x118 31 31 = 0) then s.groupStart else s
        if !s.group.forming then s
        else
          let me := (s.memberOf s.moduleId).getD 0
          let heard := (s.group.heard.set m (p.aux % 4)).set me s.helloBits
          let s := { s with group := { s.group with heard := heard } }
          s.groupLimit.groupCheck false))

/-- GROUP_HELLO_TIMER: every 10 ms of a formation a member sends GROUP_HELLO (R467). -/
def execGroupHelloTimer (s : State) : Out := .next (if s.group.forming then s.sendHellos else s)

/-- GROUP_FORM_TIMEOUT: after 30 s the master forms the group without those that did not answer (R467). -/
def execGroupFormTimeout (s : State) : Out :=
  .next (match s.group.limitFrom with
  | some t => if t + 30000000000 ≤ s.panelTime.toNat then s.groupCheck true else s
  | none => s)

/-! ### Commands and completions -/

/-- The queues that a group-forward command matches (R395). -/
def State.groupQueues (s : State) (f src : Nat) : List Nat :=
  (List.range 1024).filter fun q =>
    let b := s.qreg q Q.bind
    decide (bits b 63 63 = 1 ∧ bits b 59 56 = Q.groupFwd ∧ bits b 43 32 = f ∧ (bits b 44 44 = 1 ∨ bits b 27 16 = src))

/-- Delivers a forwarded command to the ring of a queue (R395, R469): a full ring is answered with REFUSED_FULL. -/
def State.deliver (s : State) (f q : Nat) (p : Packet) : Handled :=
  let n := s.ringSize q
  let tail := bits (s.qreg q Q.tail) 11 0
  if (s.queue q).ringFault then .nak St.translationFault (s.modQueue q fun x => { x with ringFault := false })
  else if (tail + 1) % n = bits (s.qreg q Q.stat) 59 48 then .nak St.refusedFull s
  else match s.addrReg (Page.queueBlock q) (qOff q 0) with
    | none => .nak St.translationFault s
    | some base =>
      let r := s.vwrite (s.queueCtxt q) (base + 512 * tail) ((p.payload ++ List.replicate 512 0).take 512)
      match r.1 with
      | .absent va => .hold (r.2.2.pageRequest (s.queueCtxt q) va (.ring q))
      | .wait => .hold r.2.2
      | .status st =>
        if st ≠ St.ok then .nak st r.2.2
        else
          let id := p.src * 2 ^ 42 + p.addr % 1024 * 2 ^ 32 + p.collSeq % 2 ^ 32
          .done ((r.2.2.modQueue q fun x => { x with fwdIds := x.fwdIds ++ [(f, id)] }).setQfld q Q.tail 11 0 ((tail + 1) % n))

/-- GROUP_CMD: a member takes a command that the master forwards, into the matching queue of lowest index (R395, R565). -/
def execGroupCmd (f : Nat) (p : Packet) (s : State) : Out :=
  .next (let f := f % 32
  let p := typed p 0x10 (some 1)
  s.receive f p true fun s =>
    match s.groupQueues f p.src with
    | [] => .done (s.bump (Page.queueBlock 0) 2)
    | [q] => s.deliver f q p
    | q :: rest =>
      ((s.bump (Page.queueBlock q) 3).multiMatch (Page.queueBlock q) 2 q (rest.length + 1)).deliver f q p)

/-- GROUP_CPL: the master writes a member's completion to the forwarding queue, under that queue's number, with its
interrupt (R469; log row 33). -/
def execGroupCpl (f : Nat) (p : Packet) (s : State) : Out :=
  .next (let p := typed p 0x11 (some 1)
  s.receive (f % 32) p true fun s =>
    let q := p.addr % 1024
    match s.cmd q p.collSeq with
    | none => .done s
    | some c =>
      if !c.sent then .done s
      else
        let e := (p.payload ++ List.replicate 32 0).take 32
        let entry := e.take 6 ++ leBytes 2 q ++ e.drop 8
        let irq := c.flags.testBit 1
        .done (if (s.queue q).stalled ≠ [] then
            s.modQueue q fun x => { x with stalled := x.stalled ++ [(c.seq, entry, irq)] }
          else s.writeEntry q c.seq entry irq))

/-- GROUP_CMD_RESEND: 100 µs after a full ring's refusal the master sends a command again (R469). -/
def execGroupCmdResend (q seq : Nat) (s : State) : Out :=
  .next (match s.cmd q seq with
  | none => s
  | some c =>
    match c.fwdPkt with
    | none => s
    | some (port, p) =>
      if c.held ≠ 3 then s
      else
        let r := (s.setCmd { c with held := 0 }).sendGroup port p (.command q seq)
        if r.1 = St.ok then r.2 else r.2.complete q seq r.1 0 [])

/-! ### Host accesses and window traffic -/

/-- Whether this module is the master of a formed group. -/
def State.isMaster (s : State) : Bool := decide (s.fld Page.hostPort 0x108 2 2 = 1)

/-- Performs a member's host access on the virtual function of its partition: a read of AUX bytes where the packet has no
payload (R428, R429). -/
def State.hostAccess (s : State) (p : Packet) : Nat × List Byte × State :=
  let st := if !s.isMaster then St.hostLost else if s.fld Page.hostPort 0x108 1 1 = 1 then St.permissionFault
    else s.ownHostStatus p.part .engine
  let a := 0x8000000000000 + p.addr % 2 ^ 50
  if st ≠ St.ok then (st, [], s.countHost a 1 0 st)
  else if p.payload = [] then
    let n := min 4096 p.aux
    (St.ok, s.mem.readBytes a n, s.countHost a 1 n St.ok)
  else (St.ok, [], (s.writeBytes a p.payload).countHost a 0 p.payload.length St.ok)

/-- HOST_FWD_REQ: the master issues a member's host access and returns the reply (R428, R470). -/
def execHostFwdReq (f : Nat) (p : Packet) (s : State) : Out :=
  .next (let f := f % 32
  let p := typed p 0x12 (some 1)
  s.receive f p true fun s =>
    let r := s.hostAccess p
    let q : Packet := {
      type := 0x13, dst := p.src, part := p.part, op := p.op, addr := p.addr, aux := p.aux, status := r.1, payload := r.2.1 }
    .done (r.2.2.sendGroup f q .none).2)

/-- HOST_FWD_RSP: a member receives the reply to a forwarded host access (R470; log row 34). -/
def execHostFwdRsp (f : Nat) (p : Packet) (s : State) : Out :=
  .next (let p := typed p 0x13 (some 1)
  s.receive (f % 32) p true fun s => .done { s with reply := (p.status, p.payload) })

/-- WIN_WRITE: a member receives a window write: it lands at its virtual address, or is discarded with the status that the
NAK returns, without a page request (R431, R433, R470). -/
def execWinWrite (f : Nat) (p : Packet) (s : State) : Out :=
  .next (let p := typed p 0x14 (some 1)
  s.receive (f % 32) p true fun s => handled s (s.remoteWrite p.part p.pasid p.addr p.payload) id id)

/-- WIN_FLUSH: a member answers a flush once the writes before it are visible, which the order of the channel gives (R434,
R462, R470). -/
def execWinFlush (f : Nat) (p : Packet) (s : State) : Out :=
  .next (let p := typed p 0x15 (some 1)
  s.receive (f % 32) p true fun s => .done s)

end Sys2Proof.Machine
end

