-- ==== Sys2Proof/Machine/HostPort.lean ====
section
/-!
DEFINITION. The host port (chapter 14): doorbells and MSI-X in BAR4 (R423 to R425), the ingress window (R431 to R434),
host reads (R429), a host that stalls (R435), the link and its loss (R437 to R442), and protocol negotiation (R443).
-/
namespace Sys2Proof.Machine

/-- Whether protocol 0x0300 is active (R444). -/
def State.p7 (s : State) : Bool := decide (s.fld Page.hostPort Reg.VER_ACTIVE 15 0 = 0x0300)

/-- The identity of a host function: 0 is the PF and 1 + p is VF p (R420, R444). -/
def State.fnIdent (s : State) (fn : Nat) : Ident :=
  if fn = 0 then (if s.p7 then .p7Pf else .hostPf) else .hostVf (fn - 1)

/-! ### BAR4 -/

/-- Sends an MSI-X entry's message that masking held back, if it may be sent now (R425). -/
def State.msixRelease (s : State) (fn entry : Nat) : State :=
  let f := s.hostFn fn
  let e := f.table.get {} entry
  if e.pend && !e.masked && f.busMaster && f.msixEnable && decide (s.fld Page.hostPort 0x108 0 0 = 1) then
    let s := { s with hostFns := s.hostFns.set fn { f with table := f.table.set entry { e with pend := false } } }
    s.msixSend fn entry
  else s

/-- A write of one 8 B half of an MSI-X table entry: address, or data and vector control (R425). -/
def State.msixTableWrite (s : State) (fn off : Nat) (bs : List Byte) : State :=
  let i := off / 16
  let f := s.hostFn fn
  let e := f.table.get {} i
  let old := leBytes 8 e.addr ++ leBytes 4 e.data ++ leBytes 4 e.masked.toNat
  let o := off % 16
  let b := old.take o ++ bs ++ old.drop (o + bs.length)
  let e' : MsixEntry := { e with addr := leAt b 0 8, data := leAt b 8 4, masked := (leAt b 12 4).testBit 0 }
  { s with hostFns := s.hostFns.set fn { f with table := f.table.set i e' } }.msixRelease fn i

/-- The value that a read of BAR4 returns at an 8 B offset: a doorbell of a queue bound to the function, an MSI-X table half,
or the pending bits (R423, Table 14-3). -/
def State.bar4Value (s : State) (fn off : Nat) : Nat :=
  let f := s.hostFn fn
  if off < 0x4000 then
    let q := off / 16
    if s.boundTo q (s.fnIdent fn) then bits (s.qreg q (if off % 16 < 8 then Q.tail else Q.head)) 11 0 else 0
  else if 0x8000 ≤ off ∧ off < 0x8200 then
    let e := f.table.get {} ((off - 0x8000) / 16)
    if off % 16 < 8 then e.addr else e.data + 2 ^ 32 * e.masked.toNat
  else if off / 8 = 0xC000 / 8 then maskOf (f.table.keysWhere fun _ e => e.pend)
  else 0

/-- BAR4_DOORBELL: an aligned access of 4 B or 8 B to BAR4 of a function, the flush registers apart (R423, Table 14-3). A
doorbell takes its value from bits [11:0] of a write at its own offset. -/
def execBar4Doorbell (fn off size : Nat) (write : Bool) (v : Word) (s : State) : Out :=
  .next (if (size ≠ 4 ∧ size ≠ 8) ∨ off % size ≠ 0 ∨ 0x10000 ≤ off ∨ 64 < fn then s
  else if !write then
    s.answer St.ok ((leBytes 8 (s.bar4Value fn (off / 8 * 8))).drop (off % 8) |>.take size)
  else if off < 0x4000 then
    if off % 8 ≠ 0 then s
    else if off % 16 = 0 then sqTailEff (s.fnIdent fn) (off / 16) (place 11 0 (bits v 11 0)) s
    else cqHeadEff (s.fnIdent fn) (off / 16) (place 11 0 (bits v 11 0)) s
  else if 0x8000 ≤ off ∧ off < 0x8200 then s.msixTableWrite fn (off - 0x8000) (leBytes size v.toNat)
  else s)

/-- MSIX_SEND: a function signals one of its entries (R425). -/
def execMsixSend (fn entry : Nat) (s : State) : Out := .next (s.msixSend (fn % 65) (entry % 32))

/-- MSIX_UNMASK: the host clears the mask of an entry, and a message held back is sent (R425). -/
def execMsixUnmask (fn entry : Nat) (s : State) : Out :=
  .next (let fn := fn % 65
  let i := entry % 32
  let f := s.hostFn fn
  let e : MsixEntry := { f.table.get {} i with masked := false }
  let s := { s with hostFns := s.hostFns.set fn { f with table := f.table.set i e } }
  s.msixRelease fn i)

/-! ### The ingress window -/

/-- A window-table entry, from the host port's copy or the table (R432). -/
def State.winEntry (s : State) (part slot : Nat) : WinEntry × State :=
  match s.winCache.find (winKey part slot) with
  | some e => (e, s)
  | none =>
    let r : Nat × List Byte := match s.addrReg Page.hostPort (Reg.WIN_TABLE + 8 * part) with
      | some a => s.physRead part .window (a + 16 * slot) 16
      | none => (St.permissionFault, [])
    let w := leAt r.2 8 4
    let e : WinEntry := {
      sound := decide (r.1 = St.ok ∧ natBits w 31 20 = 0x800 ∧ leAt r.2 12 4 = 0 ∧ leAt r.2 0 8 % 4096 = 0)
      target := leAt r.2 0 8, pasid := natBits w 19 0 }
    (e, { s with winCache := s.winCache.set (winKey part slot) e })

/-- The group-forward port toward a member: the lowest of its routing entry that is UP (R458, R468; log row 35). -/
def State.groupPortTo (s : State) (module : Nat) : Option Nat :=
  match s.fabricRoute module with
  | none => none
  | some (j, _) => (s.eligiblePorts j 1 0).find? fun f => s.groupPort f

/-- WINDOW_WRITE: a host write to BAR2 of VF p reaches the member's memory, or is discarded and recorded (R431, R433, R442,
R470). -/
def execWindowWrite (p off : Nat) (bytes : List Byte) (s : State) : Out :=
  .next (let p := p % 64
  let slot := off / 0x400000 % 64
  let o := off % 0x400000
  let stat := s.reg Page.hostPort 0x108
  let ps := s.pageState Page.hostPort
  let bytes := bytes.take 4096
  if !bit stat 0 then s
  else
    let s := s.bumpUnits Page.hostPort 1 bytes.length 1024
    if ps = PS.quiescing ∨ ps = PS.quiesced then s.winDrop p slot o St.unitUnavailable
    else if ps ≠ PS.ready ∨ !bit stat 1 ∨ bits stat 15 9 ≤ slot then s.winDrop p slot o St.permissionFault
    else
      let e := s.winEntry p slot
      let s := e.2
      if !e.1.sound then s.winDrop p slot o St.permissionFault
      else if slot = bits stat 8 3 then
        match s.remoteWrite p e.1.pasid (e.1.target + o) bytes with
        | none => s
        | some (st, s) => if st = St.ok then s else s.winDrop p slot o st
      else match s.groupMember slot with
        | none => s.winDrop p slot o St.permissionFault
        | some m =>
          match s.groupPortTo m with
          | none => s.winDrop p slot o St.timeout
          | some f =>
            let pkt : Packet := {
              type := 0x14, dst := m, part := p, pasid := e.1.pasid, op := 0xF, addr := e.1.target + o, aux := o
              payload := bytes }
            let r := s.sendGroup f pkt (.window p slot)
            if r.1 = St.ok then r.2 else r.2.winDrop p slot o r.1)

/-- WINDOW_FLUSH: a read of a slot's flush register in BAR4 of VF p completes once its earlier writes are visible (R434,
R470). -/
def execWindowFlush (p slot : Nat) (s : State) : Out :=
  .next (let p := p % 64
  let slot := slot % 64
  let stat := s.reg Page.hostPort 0x108
  if !bit stat 0 then s
  else if !bit stat 1 ∨ bits stat 15 9 ≤ slot ∨ slot = bits stat 8 3 then s.flushDone p slot
  else match (s.groupMember slot).bind fun m => (s.groupPortTo m).map fun f => (m, f) with
    | none => s.flushDone p slot
    | some (m, f) =>
      let pkt : Packet := { type := 0x15, dst := m, part := p, op := 0xF }
      let r := { s with winFlush := setInsert s.winFlush (winKey p slot) }.sendGroup f pkt (.window p slot)
      if r.1 = St.ok then r.2 else r.2.flushDone p slot)

/-- A write of WIN_CTL: RELOAD drops the cached entries of PARTITION (R432). -/
def winCtlEff (v : Word) (s : State) : State :=
  let s := s.storeWrite Page.hostPort Reg.WIN_CTL v
  if bit v 0 then { s with winCache := s.winCache.drop fun k => k / 64 == bits v 13 8 } else s

/-- WIN_RELOAD (R432). -/
def execWinReload (i : Ident) (v : Word) (s : State) : Out :=
  .next (s.writeVia i Page.hostPort Reg.WIN_CTL v (winCtlEff v))

/-! ### Host accesses -/

/-- Whether an active MOVE's next bytes lie in the host aperture, for reads and for writes. -/
def State.hostMove (s : State) (c : Cmd) : Bool × Bool :=
  let is := fun (va : Nat) (write : Bool) =>
    match (s.peekTranslate c.part c.pasid va write).map regionOf with
    | some (.host _) => true
    | _ => false
  if c.kind = 2 ∧ c.active = true then (is (c.cs.getD 0 0 + c.progress) false, is (c.cs.getD 1 0 + c.progress) true)
  else (false, false)

/-- The status of a host read's completion: 0 success, 1 poisoned data, 2 Unsupported Request or Completer Abort, 3 none
within the timeout (R429). -/
def hostReadStatus (result : Nat) : Nat :=
  match result with
  | 0 => St.ok
  | 1 => St.poisoned
  | 2 => St.permissionFault
  | _ => St.timeout

/-- The end of a host read of a command or of a core: success puts the host's bytes at the aperture's address, where the
access finds them, and another end completes the access with its status (R98, R405, R429). -/
def State.hostReadEnd (s : State) (core : Bool) (x y result : Nat) (bytes : List Byte) : State :=
  let st := hostReadStatus result
  if core then
    match (s.core x).wait, (s.core x).fetched with
    | .access _ va _ _, some w =>
      match s.coreTask x with
      | none => s
      | some t =>
        match (s.peekTranslate t.2.part t.2.pasid va false).map fun a => (a, regionOf a) with
        | some (a, .host _) =>
          if st = St.ok then s.writeBytes a bytes
          else s.applyIssue x w (.fault 0x05 st 0xFFFF va)
        | _ => s
    | _, _ => s
  else match s.cmd x y with
    | none => s
    | some c =>
      if !(s.hostMove c).1 then s
      else if st = St.ok then
        match s.peekTranslate c.part c.pasid (c.cs.getD 0 0 + c.progress) false with
        | some a => s.writeBytes a (bytes.take (4096 - a % 4096))
        | none => s
      else s.finishCmd c st (leBytes 8 c.progress)

/-- HOST_READ_COMPLETION: a completion arrives for a host read of the command x, y or of core x (R429). -/
def execHostReadCompletion (core : Bool) (x y result : Nat) (bytes : List Byte) (s : State) : Out :=
  .next (s.hostReadEnd core x y (result % 3) bytes)

/-- HOST_COMPLETION_TIMEOUT: no completion within the host's timeout (R429). -/
def execHostCompletionTimeout (core : Bool) (x y : Nat) (s : State) : Out := .next (s.hostReadEnd core x y 3 [])

/-- HOST_STALL: a mover has sent no byte of its current page for HOST_STALL_LIMIT, and abandons the MOVE (R435). -/
def execHostStall (q seq : Nat) (s : State) : Out :=
  .next (match s.cmd q seq with
  | none => s
  | some c =>
    if (s.hostMove c).2 && decide (s.fld Page.hostPort 0x108 0 0 = 1) then
      let s := (s.bump Page.hostPort 2).genEvent Page.hostPort 0x02A2 c.part (place 40 0 c.progress ||| place 52 41 c.jobTag)
      s.finishCmd c St.hostPartial (leBytes 8 c.progress)
    else s)

/-! ### The link -/

/-- A lock of a host identity is released (R614). -/
def State.releaseLock (s : State) (page : Nat) : State := s.setReg page Reg.PAGE_LOCK 0

/-- The page indices whose lock is held. -/
def State.lockedPages (s : State) : List Nat :=
  (s.regs.filter fun e => decide (e.1 % 512 = Reg.PAGE_LOCK / 8 ∧ e.1 / 512 ≠ 0x102) && bit e.2 63).map fun e => e.1 / 512

/-- The MOVE commands of some partitions with an access to the host aperture end with HOST_LOST (R439). -/
def State.loseMoves (s : State) (mine : Nat → Bool) : State :=
  let cs := (s.cmds.filter fun e => mine e.2.part && ((s.hostMove e.2).1 || (s.hostMove e.2).2)).map Prod.snd
  cs.foldl (fun s c => (s.bump Page.hostPort 3).finishCmd c St.hostLost (leBytes 8 c.progress)) s

/-- Steps 2 to 5 of a host loss, for the partitions and functions concerned (R439, R441). -/
def State.dropHost (s : State) (mine : Nat → Bool) (fns : Nat → Bool) : State :=
  let s := { s with
    atc := s.atc.filter fun e => !fns e.fn
    atsReqs := s.atsReqs.filter fun e => !fns e.fn
    winFlush := s.winFlush.filter fun k => !mine (k / 64) }
  let s := s.loseMoves mine
  let qs := (List.range 1024).filter fun q =>
    let b := s.qreg q Q.bind
    bit b 63 && decide (bits b 59 56 = Q.hostVf) && mine (bits b 43 32)
  qs.foldl (fun s q =>
    let es := (s.queue q).stalled
    let s := s.modQueue q fun x => { x with lost := true, stalled := [] }
    (es.foldl (fun s e => s.cmdDone q e.1) s).disableQueue q) s

/-- Host loss under protocol 0x1100 (R438, R439, R471, R614): `cause` is that of HOST_LINK_DOWN. -/
def State.hostLoss (s : State) (cause : Nat) : State :=
  let page := Page.hostPort
  let ps := s.pageState page
  let s := (s.bump page 7).genEvent page 0x02A0 0 (place 2 0 cause)
  let s := if ps = PS.quiescing ∨ ps = PS.quiesced then s else s.enterState page PS.faulted
  let s := if cause ≤ 3 then ((s.setFld page 0x108 0 0 0).setFld page 0x108 23 16 0) else s
  let s := { s with
    numVfs := 0
    hostFns := if cause = 5 then s.hostFns.filter fun e => decide (e.1 = 0) else [] }
  let s := (s.dropHost (fun _ => true) fun _ => true).setFld page Reg.VER_ACTIVE 15 0 0
  s.lockedPages.foldl (fun s p =>
    if s.fld p Reg.PAGE_LOCK 55 48 = 6 ∨ s.fld p Reg.PAGE_LOCK 10 8 = 1 then s.releaseLock p else s) s

/-- HOST_LOSS: the link goes down, a reset or a PF reset comes, or VF Enable is cleared, outside protocol 0x0300 (R438). -/
def execHostLoss (cause : Nat) (s : State) : Out :=
  .next (if s.p7 || decide (cause < 1 ∨ 5 < cause ∨ s.fld Page.hostPort 0x108 0 0 = 0) then s else s.hostLoss cause)

/-- HOST_LINK_UP: the link reaches L0 with the PF configured: trained width and rate, NumVFs, and the functions whose Bus
Master and MSI-X Enable the host has set (R440, R466; log row 36). -/
def execHostLinkUp (width rate vfs : Nat) (masters msix : Nat) (s : State) : Out :=
  .next (let page := Page.hostPort
  let ps := s.pageState page
  if s.fld page 0x108 0 0 = 1 ∧ ps ≠ PS.faulted then s
  else
    let s := ((s.setFld page 0x108 0 0 1).setFld page 0x108 23 19 width).setFld page 0x108 18 16 rate
    let fns : Map HostFn := (List.range 65).map fun f =>
      (f, { s.hostFn f with busMaster := masters.testBit f, msixEnable := msix.testBit f })
    let s := { s with numVfs := min vfs 64, hostFns := fns }
    let s := s.setFld page Reg.VER_ACTIVE 15 0 0
    let s := if ps = PS.quiescing ∨ ps = PS.quiesced then s else (s.enterState page PS.init).enterState page PS.ready
    let s := s.genEvent page 0x02A1 0 (place 15 0 (s.epoch page) ||| place 20 16 width ||| place 23 21 rate)
    if s.group.forming then
      match s.memberOf s.moduleId with
      | some me =>
        let g := { s.group with heard := s.group.heard.set me s.helloBits, linked := true }
        ({ s with group := g }.groupLimit.sendHellos).groupCheck false
      | none => s
    else if s.group.linked then s
    else
      let s := { s with group := { s.group with linked := true } }
      if s.fld (Page.portDie 0) 0x118 31 31 = 0 then s.groupStart else s)

/-- VF_FLR: a Function Level Reset of VF p (R441, R614). -/
def execVfFlr (p : Nat) (s : State) : Out :=
  .next (let p := p % 64
  let s := s.dropHost (fun x => x == p) fun f => f == p + 1
  let s := { s with hostFns := s.hostFns.drop fun k => k == p + 1 }
  s.lockedPages.foldl (fun s g =>
    if s.fld g Reg.PAGE_LOCK 10 8 = 1 ∧ s.fld g Reg.PAGE_LOCK 47 32 = p ∧ s.fld g Reg.PAGE_LOCK 55 48 = 0 then s.releaseLock g
    else s) s)

/-- LINK_RECOVERY: the link passes through Recovery and loses nothing (R437). -/
def execLinkRecovery (s : State) : Out :=
  .next (if s.fld Page.hostPort 0x108 0 0 = 1 then s.bump Page.hostPort 8 else s)

/-! ### Protocol negotiation -/

/-- The version that HOST_PROTO_REQ and the host port agree on; zero where there is none (R443). -/
def State.hostVersion (s : State) : Nat :=
  let r := s.reg Page.hostPort Reg.HOST_PROTO_REQ
  [0x0300, 0x1100].foldl (fun best v =>
    let g := v / 4096
    let map := if g = 1 then bits r 63 48 else if g = 0 then bits r 47 32 else 0
    let ok := decide (bits r 15 0 ≤ v ∧ v ≤ bits r 31 16) && map.testBit (natBits v 11 8)
    let ok := ok && !(decide (v = 0x0300) && decide (s.fld Page.hostPort 0x108 15 9 ≠ 1 ∨ s.numVfs ≠ 0))
    if ok then v else best) 0

/-- The queues bound to HOST_VF. -/
def State.hostQueues (s : State) : List Nat :=
  (List.range 1024).filter fun q => bit (s.qreg q Q.bind) 63 && decide (s.queuePort q = Q.hostVf)

/-- A write of HOST_ATTACH (R443). With both bits set, the detachment follows the attachment. -/
def hostAttachEff (v : Word) (s : State) : State :=
  let page := Page.hostPort
  let s := s.storeWrite page Reg.HOST_ATTACH v
  let status := fun (s : State) (st : Nat) => s.setFld page Reg.HOST_STAT 31 24 st
  let stale := decide (bits v 15 0 ≠ s.fld page Reg.HOST_STAT 47 32)
  let s := if !bit v 16 then s
    else if stale then status s St.epochStale
    else if s.hostQueues.any fun q => bit (s.qreg q Q.cfg) 63 || !bit (s.qreg q Q.stat) 63 then status s St.unitUnavailable
    else if s.hostVersion = 0 then status s St.versionMismatch
    else status (s.setFld page Reg.VER_ACTIVE 15 0 s.hostVersion) St.ok
  if !bit v 17 then s
  else if stale then status s St.epochStale
  else status ((s.hostQueues.foldl State.disableQueue s).setFld page Reg.VER_ACTIVE 15 0 0) St.ok

/-- HOST_ATTACH: a write with GO (R443). -/
def execHostAttach (i : Ident) (v : Word) (s : State) : Out :=
  let v := setBit v 16 true
  .next (s.writeVia i Page.hostPort Reg.HOST_ATTACH v (hostAttachEff v))

/-- HOST_DETACH: a write with DETACH (R443). -/
def execHostDetach (i : Ident) (v : Word) (s : State) : Out :=
  let v := setBit (setBit v 16 false) 17 true
  .next (s.writeVia i Page.hostPort Reg.HOST_ATTACH v (hostAttachEff v))

end Sys2Proof.Machine
end

