-- ==== Sys2Proof/Machine/Gddr.lean ====
section
/-!
DEFINITION. GDDR controllers (R286 to R296): temperature and refresh, retries and retraining, data protection, and devices
that go offline; the clamp of an adaptive loop (R544).
-/
namespace Sys2Proof.Machine

/-- A clamp of a loop: while it holds, the clamp bit is set, and POLICY_CLAMPED is posted once (R544, R545). `bitAt` is the
register and bit of the clamp, and `bound` and `val` the software bound and the value in force. -/
def State.clampLoop (s : State) (page loop off bitAt : Nat) (holds : Bool) (bound val : Nat) : State :=
  let key := page * 4 + loop
  if holds then
    let s := s.setFld page off bitAt bitAt 1
    if s.clamps.contains key then s
    else { s with clamps := setInsert s.clamps key }.genEvent page 0x02D3 0
      (place 3 0 loop ||| place 15 8 bound ||| place 23 16 val)
  else { s with clamps := s.clamps.filter fun k => k ≠ key }

/-- A GDDR controller's state. -/
def State.gddrCtl (s : State) (st g : Nat) : GddrDev := s.gddr.get {} (st * 8 + g)

/-- Updates a GDDR controller's state. -/
def State.modGddr (s : State) (st g : Nat) (f : GddrDev → GddrDev) : State := { s with gddr := s.gddr.mod {} (st * 8 + g) f }

/-- GDDR_STAT of a device. -/
abbrev gddrStatOff : Nat := 0x108

/-! ### Refresh and temperature -/

/-- The refresh rate that Table 9-11 requires. -/
def requiredRefresh (tstate : Nat) (hot : Bool) : Nat :=
  match tstate with
  | 0 => 1
  | 1 => if hot then 4 else 2
  | _ => 4

/-- The refresh rate in force follows REF_MULT and the required rate (R288, R544). -/
def State.gddrRefresh (s : State) (st g : Nat) : State :=
  let page := Page.gddr st g
  let need := requiredRefresh (s.fld page gddrStatOff 9 8) (s.gddrCtl st g).hot
  let mult := s.fld page 0x100 10 8
  let eff := max mult need
  let s := s.setFld page gddrStatOff 12 10 eff
  s.clampLoop page 1 gddrStatOff 13 (decide (mult ≠ 0 ∧ mult < need)) mult eff

/-- A write of GDDR_CFG (R288, R545). -/
def gddrCfgEff (page : Nat) (v : Word) (s : State) : State :=
  let s := s.storeWrite page 0x100 v
  match pageStack page with
  | some st => s.gddrRefresh st ((page - 0x1000) % 0x40 - 3)
  | none => s

/-- GDDR_REFRESH: the controller refreshes its device at the rate in force (R288). -/
def execGddrRefresh (st g : Nat) (s : State) : Out := .next (s.gddrRefresh (st % 72) (g % 6))

/-- The state that a reading leads to (Table 9-11): the highest whose entry condition it meets, or down while it is at or
below the exit value. -/
def tstateNext (old t : Nat) : Nat :=
  if old = 3 ∨ 110 ≤ t then 3
  else if 103 ≤ t then 2
  else
    let x := if old = 2 ∧ t ≤ 100 then 1 else old
    if 85 < t then max x 1
    else if x = 1 ∧ t ≤ 82 then 0 else x

/-- The collectives of the module that a stack's device affects (R481). -/
def State.affected (s : State) (st : Nat) : List Coll := (s.colls.filter fun e => s.affects e.2 st).map Prod.snd

/-- A device goes offline: OFFLINE is set, queued requests complete with DATA_LOST, its hub-cache lines are dropped, and its
supply is removed (R290, R292). -/
def State.gddrOffline (s : State) (st g cause : Nat) : State :=
  let page := Page.gddr st g
  let s := s.setFld page gddrStatOff 15 15 1
  let s := if (s.gddrCtl st g).held.isSome then s.answer St.dataLost [] else s
  let s := s.modGddr st g fun x => { x with held := none, attempts := 0, again := false, rewrites := [] }
  let s := (s.setFld page gddrStatOff 14 14 0).cacheDropDevice st g
  s.genEvent page 0x0252 0 (place 7 0 cause ||| place 15 8 (s.fld page gddrStatOff 7 0))

/-- GDDR_TEMP_READING: the controller reads its device's temperature (R287, R288, R290, R481, R482). -/
def execGddrTempReading (st g t : Nat) (s : State) : Out :=
  .next (let st := st % 72
  let g := g % 6
  let page := Page.gddr st g
  let old := s.fld page gddrStatOff 9 8
  let new := tstateNext old t
  let s := (s.setFld page gddrStatOff 7 0 (min t 255)).markWritten page gddrStatOff
  let s := s.modGddr st g fun x => { x with hot := if 95 < t then true else if t ≤ 92 then false else x.hot }
  let s := s.setFld page gddrStatOff 9 8 new
  let s := s.gddrRefresh st g
  if new = old then s
  else
    let s := s.genEvent page 0x0250 0 (place 7 0 (min t 255) ||| place 9 8 new)
    if new = 2 ∧ old < 2 then
      (s.affected st).foldl (fun s c => match s.colls.find c.key with
        | some c => s.straggleSend c st g
        | none => s) s
    else if new = 3 then
      let s := if s.fld page gddrStatOff 15 15 = 1 then s else s.gddrOffline st g 1
      (s.affected st).foldl (fun s c => match s.colls.find c.key with
        | some c => s.collFail c St.localMemoryLost
        | none => s) s
    else s)

/-! ### Accesses -/

/-- The bytes that a device holds at a stack offset: those under a dirty hub-cache line, or those of memory. -/
def State.deviceBytes (s : State) (st off n : Nat) : List Byte :=
  let a := gddrBase st + off
  match s.cacheFind st (a / 128) with
  | some l => if l.dirty then (l.below.drop (a % 128)).take n else s.mem.readBytes a n
  | none => s.mem.readBytes a n

/-- Writes bytes to a device. -/
def State.deviceWrite (s : State) (st off : Nat) (bs : List Byte) : State :=
  let a := gddrBase st + off
  match s.cacheFind st (a / 128) with
  | some l =>
    if l.dirty then s.cachePut { l with below := l.below.take (a % 128) ++ bs ++ l.below.drop (a % 128 + bs.length) }
    else s.writeBytes a bs
  | none => s.writeBytes a bs

/-- A read that the controller ECC cannot correct: counted and posted, and the line stays as it is (R293). -/
def State.gddrBad (s : State) (st g line : Nat) : State :=
  let page := Page.gddr st g
  let s := { s with bad := s.bad.set line St.dataUncorrectable }
  (s.bump page 4).genEvent page 0x0253 0 (BitVec.ofNat 64 (line * 128))

/-- A transfer without a detection error: the status and data of a request of n bytes (R293 to R295). -/
def State.gddrServe (s : State) (st off n : Nat) (data : List Byte) (ecc : Ecc) : State :=
  let g := gddrDev off
  let page := Page.gddr st g
  let a := gddrBase st + off
  let known := s.badStatus a
  if data = [] then
    if known = St.poisoned then s.answer known []
    else if known ≠ St.ok ∨ ecc = .uncorrectable then (s.gddrBad st g (a / 128)).answer St.dataUncorrectable []
    else
      let s := if ecc = .corrected then
          (s.bump page 3).modGddr st g fun x => { x with rewrites := x.rewrites ++ [a / 128] }
        else s
      s.answer St.ok (s.deviceBytes st off n)
  else
    let s := s.modGddr st g fun x => { x with rewrites := x.rewrites.filter fun l => l ≠ a / 128 }
    let whole := decide (a % 128 = 0 ∧ data.length = 128)
    if !whole ∧ known ≠ St.ok then s.answer known []
    else ({ s with bad := if whole then s.bad.drop fun l => l == a / 128 else s.bad }.deviceWrite st off data).answer St.ok []

/-- GDDR_ACCESS: a controller serves a read of n bytes or a write within one line; `edc` says that the detection code
matches, and `wait` counts the MCLK cycles that throttling held the request (R289 to R294). -/
def execGddrAccess (st off n : Nat) (data : List Byte) (edc : Bool) (wait : Nat) (ecc : Ecc) (s : State) : Out :=
  .next (let st := st % 72
  let off := off % 0x600000000
  let g := gddrDev off
  let page := Page.gddr st g
  let n := inLine off n
  let data := data.take (inLine off data.length)
  let x := s.gddrStatus st off
  if x ≠ St.ok then s.answer x []
  else if s.fld page gddrStatOff 14 14 = 1 ∨ (s.gddrCtl st g).held.isSome then s
  else
    let s := if s.fld page gddrStatOff 9 8 = 2 then s.bumpUnits page 6 wait 1024 else s
    if edc then s.gddrServe st off n data ecc
    else s.modGddr st g fun x => { x with held := some (off, n, data), attempts := 0, again := false })

/-- The device has failed after a retraining, or has been retrained too often: FAULTED (R292). -/
def State.gddrFaulted (s : State) (st g cause : Nat) : State :=
  let page := Page.gddr st g
  ((s.setFld page gddrStatOff 16 16 1).enterState page PS.faulted).gddrOffline st g cause

/-- GDDR_RETRY_ATTEMPT: the held request's transfer is issued again, counted and uncharged (R291, R292). -/
def execGddrRetryAttempt (st g : Nat) (edc : Bool) (ecc : Ecc) (s : State) : Out :=
  .next (let st := st % 72
  let g := g % 6
  let x := s.gddrCtl st g
  match x.held with
  | none => s
  | some (off, n, data) =>
    if 4 ≤ x.attempts ∨ s.fld (Page.gddr st g) gddrStatOff 14 14 = 1 then s
    else
      let s := s.bump (Page.gddr st g) (if data = [] then 0 else 1)
      if edc then (s.modGddr st g fun x => { x with held := none }).gddrServe st off n data ecc
      else
        let s := s.modGddr st g fun x => { x with attempts := x.attempts + 1 }
        if x.again ∧ x.attempts = 3 then s.gddrFaulted st g 2 else s)

/-- GDDR_RETRAIN: after the fifth failure the controller retrains the interface, unless it has been retrained RETRAIN_MAX
times in the last 1 s (R292). -/
def execGddrRetrain (st g : Nat) (s : State) : Out :=
  .next (let st := st % 72
  let g := g % 6
  let page := Page.gddr st g
  let x := s.gddrCtl st g
  let now := s.panelTime.toNat
  if x.held = none ∨ x.attempts < 4 ∨ x.again = true ∨ s.fld page gddrStatOff 14 14 = 1 then s
  else
    let recent := x.retrains.filter fun t => decide (now < t + 1000000000)
    if s.fld page 0x100 23 16 ≤ recent.length then s.gddrFaulted st g 3
    else
      let s := s.modGddr st g fun x => { x with retrains := recent ++ [now] }
      ((s.setFld page gddrStatOff 14 14 1).bump page 2).genEvent page 0x0251 0 (place 7 0 (recent.length + 1)))

/-- GDDR_RETRAIN_DONE: the retraining ends, and the held request has four new retries (R292). -/
def execGddrRetrainDone (st g : Nat) (s : State) : Out :=
  .next (let st := st % 72
  let g := g % 6
  let page := Page.gddr st g
  if s.fld page gddrStatOff 14 14 = 0 then s
  else (s.setFld page gddrStatOff 14 14 0).modGddr st g fun x => { x with attempts := 0, again := true })

/-- GDDR_SCRUB: the background scrub reads a line (R295). -/
def execGddrScrub (st off : Nat) (ecc : Ecc) (s : State) : Out :=
  .next (let st := st % 72
  let off := off % 0x600000000
  let g := gddrDev off
  let page := Page.gddr st g
  let line := (gddrBase st + off) / 128
  if s.fld page 0x100 31 24 = 0 ∨ s.gddrStatus st off ≠ St.ok ∨ s.fld page gddrStatOff 14 14 = 1 then s
  else
    let s := s.bumpUnits page 7 1 1024
    let known := s.badStatus (line * 128)
    if known = St.poisoned then s
    else if known ≠ St.ok ∨ ecc = .uncorrectable then s.gddrBad st g line
    else if ecc = .corrected then
      (s.bump page 3).modGddr st g fun x => { x with rewrites := x.rewrites ++ [line] }
    else s)

/-- LINE_REWRITE: a corrected line is rewritten in an idle slot; its data do not change (R295). -/
def execLineRewrite (st g : Nat) (s : State) : Out :=
  .next (s.modGddr (st % 72) (g % 6) fun x => { x with rewrites := x.rewrites.drop 1 })

end Sys2Proof.Machine
end

