-- ==== Sys2Proof/Machine/Power.lean ====
section
/-!
DEFINITION. Clocks and power (chapter 18): operating points and the moves between them (R536 to R540), ceilings and their
causes (R541, R542), the bounds of the adaptive loops (R544, R545), the current keeper's bound (R136), and PANEL_TIME
(R547 to R549).
-/
namespace Sys2Proof.Machine

/-! ### Ceilings -/

/-- Key of a cause: class and sensor; class 10 is the lost feed. -/
def causeKey (c i : Nat) : Nat := c * 65536 + i

/-- A cause. -/
def State.cause (s : State) (c i : Nat) : Cause := s.causes.get {} (causeKey c i)

/-- Updates a cause. -/
def State.modCause (s : State) (c i : Nat) (f : Cause → Cause) : State :=
  { s with causes := s.causes.mod {} (causeKey c i) f }

/-- Whether a cause acts on a compute die: its own sensor, its hub's, or one of those that act on every die (Table 18-3,
R546). -/
def actsOn (key st d : Nat) : Bool :=
  let c := key / 65536
  let i := key % 65536
  decide (c = 0 ∧ i = st * 4 + d ∨ c = 1 ∧ i = st ∨ 6 ≤ c)

/-- The causes that act on a compute die. -/
def State.dieCauses (s : State) (st d : Nat) : List Cause := (s.causes.filter fun e => actsOn e.1 st d).map Prod.snd

/-- Minimum core voltage of an operating point, in mV (Table 18-2). -/
def minVolt (div : Nat) : Nat := [750, 700, 650, 600].getD div 600

/-- DIE_PWR_BOUND and DIE_PWR_STAT (Tables 18-5 and 18-6), KEEP_CTL and KEEP_STAT (Tables 4-15 and 4-16). -/
abbrev diePwrBound : Nat := 0x208
/-- DIE_PWR_STAT. -/
abbrev diePwrStat : Nat := 0x210
/-- KEEP_CTL. -/
abbrev keepCtl : Nat := 0x1F8
/-- KEEP_STAT. -/
abbrev keepStat : Nat := 0x200

/-- CEIL, WARN and the clamp of the divisor follow the causes and the bounds of a die (R542, R544). -/
def State.refreshDie (s : State) (st d : Nat) : State :=
  let page := Page.computeDie st d
  let cs := s.dieCauses st d
  let ceil := cs.foldl (fun m x => max m x.demand) 0
  let s := s.setFld page diePwrStat 5 4 ceil
  let s := s.setFld page diePwrStat 9 9 (cs.any Cause.warn).toNat
  let slow := s.fld page diePwrBound 3 2
  s.clampLoop page 3 diePwrStat 8 (decide (slow < ceil)) slow (s.fld page diePwrStat 1 0)

/-- The dies that a cause acts on. -/
def causeDies (c i : Nat) : List (Nat × Nat) :=
  (List.range 288).filterMap fun k => if actsOn (causeKey c i) (k / 4) (k % 4) then some (k / 4, k % 4) else none

/-- Whether the keeper's cap of 16 cycles is in force: input power in WARN, or one feed lost (Table 18-4). -/
def State.keeperCapped (s : State) : Bool := (s.cause 9 0).warn || (s.cause 10 0).warn

/-- EFFECTIVE_GAP and its clamp follow KEEP_GAP and the cap (R136, R544). -/
def State.refreshKeeper (s : State) (st d : Nat) : State :=
  let page := Page.computeDie st d
  let gap := s.fld page keepCtl 7 0
  let eff := if s.keeperCapped then min gap 16 else gap
  let s := (s.setFld page keepStat 7 0 eff).setFld page keepStat 8 8 0
  s.clampLoop page 2 keepStat 8 (decide (eff ≠ gap)) gap eff

/-- The keepers of every die. -/
def State.refreshKeepers (s : State) : State := (List.range 288).foldl (fun s k => s.refreshKeeper (k / 4) (k % 4)) s

/-- The dies on which a cause acts follow a change of it. -/
def State.refreshCause (s : State) (c i : Nat) : State :=
  let s := (causeDies c i).foldl (fun s p => s.refreshDie p.1 p.2) s
  if 9 ≤ c then s.refreshKeepers else s

/-- The payload of a thermal event: class, sensor and reading (Table 18-10). -/
def thermalPayload (c i v : Nat) : Word := place 7 0 c ||| place 23 8 i ||| place 31 24 v

/-- The last reading of a sensor. -/
def State.lastReading (s : State) (c i : Nat) : Nat := s.sensors.get 0 (causeKey c i)

/-- CEIL_STEP: a cause's demand moves one point slower after 1 ms above WARN, and one faster 10 ms after it has ended. The
single-feed cause moves slower while the input power exceeds 28 kW (R542, R546). -/
def execCeilStep (c i : Nat) (s : State) : Out :=
  .next (let x := s.cause c i
  let now := s.panelTime.toNat
  let rising := if c = 10 then x.warn && decide (2800 < s.lastReading 9 0) else x.warn && x.above
  if rising then
    if x.moved + 1000000 ≤ now ∧ x.demand < 3 then
      (s.modCause c i fun x => { x with demand := x.demand + 1, moved := now }).refreshCause c i
    else s
  else if !x.warn && decide (0 < x.demand ∧ x.moved + 10000000 ≤ now) then
    (s.modCause c i fun x => { x with demand := x.demand - 1, moved := now }).refreshCause c i
  else s)

/-- The rate that a bay's link runs at: its trained rate, limited to 32 GT/s while its cartridge or its port die is in WARN
(Table 18-3). -/
def State.refreshBayRate (s : State) (b : Nat) : State :=
  let r := (s.bay b).rate
  let hot := (s.cause 5 b).warn || (s.cause 3 (b / 4)).warn
  if r = 0 then s else s.setFld (Page.bay b) Reg.BAY_STAT 11 8 (if hot then min r 5 else r)

/-- What the start or the end of a WARN changes beside the ceilings: link rates and prefetch depths (Table 18-3). -/
def State.warnActions (s : State) (c i : Nat) : State :=
  match c with
  | 1 => if s.hubWarn i then s.setFld (Page.cache i) Reg.PREFETCH_CTL 14 8 0 else s
  | 3 => (List.range 4).foldl (fun s j => s.refreshBayRate (4 * i + j)) s
  | 5 => s.refreshBayRate i
  | _ => s

/-- WARN_END: the readings of a cause have stayed at or below WARN − 5 K, or the limit, for 10 ms (R541). -/
def execWarnEnd (c i : Nat) (s : State) : Out :=
  .next (let x := s.cause c i
  match x.coolSince with
  | some t =>
    if x.warn && decide (c ≤ 9 ∧ t + 10000000 ≤ s.panelTime.toNat) then
      let s := s.modCause c i fun x => { x with warn := false, above := false, coolSince := none, moved := s.panelTime.toNat }
      let s := s.genEvent Page.thermal 0x02D1 0 (thermalPayload c i (if c = 9 then s.lastReading c i / 100 else s.lastReading c i))
      (s.refreshCause c i).warnActions c i
    else s
  | none => s)

/-! ### Operating points -/

/-- Whether any core of a die holds a task (R539). -/
def State.dieBusy (s : State) (st d : Nat) : Bool :=
  s.cores.any fun e => decide (coreStack e.1 = st ∧ coreDie e.1 = d) && e.2.task.isSome

/-- The divisor code that a die runs (R539). -/
def State.divTarget (s : State) (st d : Nat) : Nat :=
  let page := Page.computeDie st d
  let ceil := s.fld page diePwrStat 5 4
  let least := ((List.range 4).find? fun j => decide (minVolt j ≤ s.fld page diePwrBound 25 16)).getD 3
  let b := if s.dieBusy st d then s.fld page diePwrBound 1 0 else s.fld page diePwrBound 3 2
  max least (max b ceil)

/-- Key of a compute die. -/
def dieKey (st d : Nat) : Nat := st * 4 + d

/-- DIV_STEP: a die steps its divisor by one entry of Table 18-2 toward the one it is to run, at least 1 µs after its last
step; to speed up it needs the target point's voltage first (R536 to R539). -/
def execDivStep (st d : Nat) (s : State) : Out :=
  .next (let st := st % 72
  let d := d % 4
  let page := Page.computeDie st d
  let eff := s.fld page diePwrStat 1 0
  let target := s.divTarget st d
  let now := s.panelTime.toNat
  let early := match s.divAt.find (dieKey st d) with
    | some t => decide (now < t + 1000)
    | none => false
  let step := fun n => { (s.setFld page diePwrStat 1 0 n) with divAt := s.divAt.set (dieKey st d) now }
  if early then s
  else if target < eff then (if minVolt target ≤ s.fld page diePwrStat 41 32 then step (eff - 1) else s)
  else if eff < target then step (eff + 1)
  else s)

/-- VOLTAGE_RAMP_DONE: a die's voltage has reached the minimum of the point it moves to; a slower point's only after the
divisor is there (R537, R538). -/
def execVoltageRampDone (st d : Nat) (s : State) : Out :=
  .next (let st := st % 72
  let d := d % 4
  let page := Page.computeDie st d
  let eff := s.fld page diePwrStat 1 0
  let target := s.divTarget st d
  let volt := s.fld page diePwrStat 41 32
  if target < eff then (if volt < minVolt target then s.setFld page diePwrStat 41 32 (minVolt target) else s)
  else if eff = target then s.setFld page diePwrStat 41 32 (minVolt eff)
  else s)

/-- POWER_GATE: a core that has held no task for GATE_US loses everything but its local store (R540). -/
def execPowerGate (c : Nat) (s : State) : Out :=
  .next (let k := s.core c
  if k.status = .idle ∧ k.task = none ∧ s.fld (corePage c) diePwrBound 15 8 ≠ 0 then
    s.setCore c { status := .gated, lastPart := k.lastPart, lastCause := k.lastCause }
  else s)

/-- A write of DIE_PWR_BOUND: unchanged where DIV_FAST is slower than DIV_SLOW or VMAX is out of range (R545, R550). -/
def diePwrBoundEff (page : Nat) (v : Word) (s : State) : State :=
  if bits v 3 2 < bits v 1 0 ∨ bits v 25 16 < 600 ∨ 850 < bits v 25 16 then s
  else
    let s := s.storeWrite page diePwrBound v
    match pageStack page with
    | some st => s.refreshDie st ((page - 0x1000) % 0x40 - 17)
    | none => s

/-- DIE_PWR_BOUND_WRITE (R550). -/
def execDiePwrBoundWrite (i : Ident) (st d : Nat) (v : Word) (s : State) : Out :=
  let page := Page.computeDie (st % 72) (d % 4)
  .next (s.writeVia i page diePwrBound v (diePwrBoundEff page v))

/-- A write of KEEP_CTL takes effect within the safe range (R136, R545). -/
def keepCtlEff (page : Nat) (v : Word) (s : State) : State :=
  let s := s.storeWrite page keepCtl v
  match pageStack page with
  | some st => s.refreshKeeper st ((page - 0x1000) % 0x40 - 17)
  | none => s

/-- KEEP_CTL_WRITE (R136). -/
def execKeepCtlWrite (i : Ident) (st d : Nat) (v : Word) (s : State) : Out :=
  let page := Page.computeDie (st % 72) (d % 4)
  .next (s.writeVia i page keepCtl v (keepCtlEff page v))

/-! ### PANEL_TIME -/

/-- Sets PANEL_TIME. -/
def State.setTime (s : State) (t : Nat) : State := s.setReg Page.clock Reg.PANEL_TIME (BitVec.ofNat 64 t)

/-- TIME_STAT (Table 18-7). -/
abbrev timeStat : Nat := 0x108

/-- PANEL_TIME_TICK: n SCLK cycles pass. `adj` is 1 where one of them adds 4 and 2 where one adds 6, which may be once in
2,000 cycles and needs a source (R547, R548). -/
def execPanelTimeTick (n adj : Nat) (s : State) : Out :=
  .next (let now := s.panelTime.toNat
  let may := decide (1 ≤ n ∧ (adj = 1 ∨ adj = 2) ∧ s.time.corrected + 10000 ≤ now) && s.time.pairs.any fun e => s.portUp e.1
  if may then
    let s := { s with time := { s.time with corrected := now } }
    s.setTime (now + 5 * n + (if adj = 1 then 0 else 2) - 1)
  else s.setTime (now + 5 * n))

/-- The port whose partner reports the lowest pair of source and hops, among those that are UP (R548). -/
def State.timeSource (s : State) : Option (Nat × Nat × Nat) :=
  (s.time.pairs.filter fun e => s.portUp e.1).foldl (fun best e =>
    match best with
    | none => some (e.1, e.2)
    | some b => if e.2.1 < b.2.1 ∨ (e.2.1 = b.2.1 ∧ e.2.2 < b.2.2) then some (e.1, e.2) else some b) none

/-- TIME_EXCHANGE: a port that is UP exchanges times with its partner, which reports its source and hops: departure `t1` here,
arrival `t2` and departure `t3` there, arrival `t4` here (R548, R549). -/
def execTimeExchange (f source hops t1 t2 t3 t4 : Nat) (s : State) : Out :=
  .next (let f := f % 32
  if !s.portUp f then s
  else
    let s := { s with time := { s.time with pairs := s.time.pairs.set f (source % 4096, hops) } }
    match s.timeSource with
    | none => s
    | some (g, src, h) =>
      if g ≠ f then s
      else
        let off : Int := (((t2 : Int) - (t1 : Int)) - ((t4 : Int) - (t3 : Int))) / 2
        let page := Page.clock
        let s := s.setReg page timeStat (place 47 44 (h + 1) ||| place 43 32 src ||| place 31 16 (unsigned 16 off)
          ||| place 0 0 (s.fld page timeStat 0 0))
        let near := decide (-20 ≤ off ∧ off ≤ 20)
        let good := if near then s.time.good + 1 else 0
        let s := { s with time := { s.time with good := good, last := s.panelTime.toNat } }
        if 16 ≤ good then
          { (s.setFld page timeStat 0 0 1) with time := { s.time with everLocked := true } }
        else if !s.time.everLocked && !s.time.stepped && decide (off < -1000 ∨ 1000 < off) then
          { (s.setTime ((s.panelTime.toNat : Int) + off).toNat) with time := { s.time with stepped := true } }
        else s)

/-- TIME_LOCK_LOSS: 1 s has passed without an exchange (R549). -/
def execTimeLockLoss (s : State) : Out :=
  .next (if s.time.last + 1000000000 ≤ s.panelTime.toNat then
      { (s.setFld Page.clock timeStat 0 0 0) with time := { s.time with good := 0 } }
    else s)

end Sys2Proof.Machine
end

