-- ==== Sys2Proof/Machine/Placement.lean ====
section
/-!
DEFINITION. What the racking engines work on (R313 to R322): placement tables, frame pools, promotion records, leaves, and
how a migration ends. Tables, descriptors and rings are read at physical addresses (log row 38).
-/
namespace Sys2Proof.Machine

/-! ### Placement tables -/

/-- A sound placement entry (Table 10-5). -/
structure Place where
  index : Nat
  vbase : Nat
  npages : Nat
  cls : Nat
  gddrOk : Bool
  hotEn : Bool
  home : Nat
  mask : Nat
  deriving DecidableEq, Repr

namespace Cls
/-- HOT_GDDR (Table 10-6). -/
abbrev hotGddr : Nat := 0
/-- WARM. -/
abbrev warm : Nat := 1
/-- CELLAR. -/
abbrev cellar : Nat := 2
/-- MIRROR2. -/
abbrev mirror2 : Nat := 3
/-- PINNED_LOCAL. -/
abbrev pinnedLocal : Nat := 4
end Cls

/-- The fields of an entry from its 32 bytes. -/
def placeOf (index : Nat) (b : List Byte) : Place :=
  ⟨index, leAt b 0 8, leAt b 8 4, leAt b 12 1, (leAt b 13 1).testBit 0, (leAt b 13 1).testBit 1, leAt b 14 1, leAt b 16 2⟩

/-- Whether an entry has no reserved value and follows the one before it, which ends at `next` (R313). -/
def placeSound (next : Nat) (b : List Byte) : Bool :=
  let e := placeOf 0 b
  decide (e.vbase % 4096 = 0 ∧ 1 ≤ e.npages ∧ e.cls ≤ 4 ∧ leAt b 13 1 < 4 ∧ e.home < 64 ∧ next ≤ e.vbase)
    && zeroAt b 15 1 && zeroAt b 18 14

/-- The indices and bytes of a partition's placement table at a RACKING page; none while PLACEp_BASE is unwritten. -/
def State.placeTable (s : State) (stack p : Nat) : List (Nat × List Byte) :=
  match s.addrReg (Page.racking stack) (0x200 + 16 * p) with
  | none => []
  | some a => (List.range (s.fld (Page.racking stack) (0x208 + 16 * p) 31 0)).map fun i => (i, s.mem.readBytes (a + 32 * i) 32)

/-- An engine reads the placement table of a partition: the sound entries, and PLACE_INVALID for each other (R313). -/
def State.placeScan (s : State) (stack p : Nat) : List Place × State :=
  let r := (s.placeTable stack p).foldl (fun (acc : Nat × List Place × State) e =>
    if placeSound acc.1 e.2 then
      let x := placeOf e.1 e.2
      (x.vbase + 4096 * x.npages, acc.2.1 ++ [x], acc.2.2)
    else (acc.1, acc.2.1, acc.2.2.genEvent (Page.racking stack) 0x0270 p (place 5 0 p ||| place 63 32 e.1)))
    (0, [], s)
  r.2

/-- Whether an entry covers an address. -/
def Place.covers (e : Place) (va : Nat) : Bool := decide (e.vbase ≤ va ∧ va < e.vbase + 4096 * e.npages)

/-- The placement entry of an address of a partition. -/
def State.placeFind (s : State) (stack p va : Nat) : Option Place × State :=
  let r := s.placeScan stack p
  (r.1.find? fun e => e.covers va, r.2)

/-! ### Pools -/

/-- Offset of POOL_TABLE on a RACKING or a CELLAR_BAY page. -/
def poolTableOff (page : Nat) : Nat := if pageKind page = some .cellarBay then 0x118 else 0x110

/-- Address of a partition's pool descriptor at a block. -/
def State.poolAddr (s : State) (page p : Nat) : Option Nat := (s.addrReg page (poolTableOff page)).map (· + 32 * p)

/-- Count of frames in a pool (R318). -/
def State.poolCount (s : State) (page p : Nat) : Nat :=
  match s.poolAddr page p with
  | some a => s.mem.readNat (a + 12) 4
  | none => 0

/-- POOL_EMPTY, at most once a millisecond for a block (R318). -/
def State.poolEmpty (s : State) (page p : Nat) : State := s.genLimited (page * 64 + 32) page 0x0271 p (place 5 0 p)

/-- Takes the frame that a pool was given last (log row 38). -/
def State.poolTake (s : State) (page p : Nat) : Option Nat × State :=
  match s.poolAddr page p with
  | none => (none, s.poolEmpty page p)
  | some a =>
    let n := s.mem.readNat (a + 12) 4
    if n = 0 then (none, s.poolEmpty page p)
    else
      let f := s.mem.readNat (s.mem.readNat a 8 + 8 * (n - 1)) 8
      (some f, { s with mem := s.mem.writeNat (a + 12) 4 (n - 1) })

/-- Adds a frame to a pool; a full pool drops it and posts POOL_FULL (R318). -/
def State.poolGive (s : State) (page p frame : Nat) : State :=
  let full := fun (s : State) => s.genEvent page 0x0272 p (place 5 0 p)
  match s.poolAddr page p with
  | none => full s
  | some a =>
    let n := s.mem.readNat (a + 12) 4
    if s.mem.readNat (a + 8) 4 ≤ n then full s
    else { s with mem := (s.mem.writeNat (s.mem.readNat a 8 + 8 * n) 8 frame).writeNat (a + 12) 4 (n + 1) }

/-- The block whose pools hold a frame: the racking engine of its stack, or its bay (R318). -/
def framePage (frame : Nat) : Option Nat :=
  match regionOf frame with
  | .gddr st _ => some (Page.racking st)
  | .cellar b _ => some (Page.bay b)
  | _ => none

/-- Releases a frame to its pool. -/
def State.releaseFrame (s : State) (p frame : Nat) : State :=
  match framePage frame with
  | some page => s.poolGive page p frame
  | none => s

/-- A write of POOL_GIVE (Tables 10-8 and 10-9). -/
def poolGiveEff (page : Nat) (v : Word) (s : State) : State := s.poolGive page (bits v 63 58) (bits v 51 12 * 4096)

/-- POOL_GIVE: a write of the register of a RACKING or CELLAR_BAY page (R318). -/
def execPoolGive (i : Ident) (page : Nat) (v : Word) (s : State) : Out :=
  let off := if pageKind page = some .cellarBay then 0x120 else 0x118
  .next (if [some PageKind.racking, some .cellarBay].contains (pageKind page) then
    s.writeVia i page off v (poolGiveEff page v) else s)

/-! ### Leaves -/

/-- The frame of a superpage leaf above the lowest level of a walk, for the page it covers. -/
def superFrame (m : Memory) (tr : Nat → Walk Nat) : Nat → Nat → Nat → Option Nat
  | levels, base, vpage =>
    match tr (base + 8 * (vpage / 512 ^ levels % 512)) with
    | .found pa =>
      let pte := BitVec.ofNat 64 (m.readNat pa 8)
      if !bit pte 0 then none
      else if bits pte 3 1 ≠ 0 then
        (if levels = 0 then none else some (ptePage pte / (4096 * 512 ^ levels) * (4096 * 512 ^ levels) + vpage % 512 ^ levels * 4096))
      else match levels with
        | 0 => none
        | l + 1 => superFrame m tr l (ptePage pte) vpage
    | _ => none

/-- The frame that a first-stage superpage leaf gives a page, if one does. -/
def State.superPage (s : State) (dev pasid va : Nat) : Option Nat :=
  match s.context dev pasid with
  | .found c =>
    let host := fun a => (gWalk s.mem c.gMode c.gRoot a).bind fun r => .found r.2
    (modeLevels c.fsMode).bind fun l => superFrame s.mem host l c.fsRoot (va / 4096)
  | _ => none

/-- The leaf that holds the frame of a page, and the frame (R315). -/
def State.leafOf (s : State) (part pasid va : Nat) : Walk (Leaf × Nat) :=
  (s.walk part pasid va).bind fun r =>
    match r.1.reverse.head? with
    | some lf => .found (lf, r.2 / 4096 * 4096)
    | none => .fault St.unsupportedLeaf

/-- A leaf with another frame. -/
def withFrame (pte : Word) (frame : Nat) : Word := setBits pte 53 10 (frame / 4096)

/-- A racking shootdown: a page leaves every hub copy and every server core's TLB (R315, R529). -/
def State.shootdown (s : State) (part vpage : Nat) : State :=
  let hubs := ((s.tlb.filter fun e => decide (e.dev = part ∧ e.vpage = vpage)).map TlbEntry.stack).eraseDups
  let s := hubs.foldl (fun s h => s.tlbDrop h fun e => decide (e.dev = part ∧ e.vpage = vpage)) s
  { s with srvTlb := s.srvTlb.filter fun e => decide (e.vpage ≠ vpage) }

/-- SHOOTDOWN: a racking shootdown of a page reaches the translation copies and the server cores (R315, R529). -/
def execShootdown (part vpage : Nat) (s : State) : Out := .next (s.shootdown part vpage)

/-! ### Promotion records -/

/-- Records a promotion: both frames go into the engine's ring and into its records (R321; log row 38). -/
def State.recordPromo (s : State) (stack part pasid va gddr backing : Nat) : State :=
  let page := Page.racking stack
  let cap := s.fld page 0x128 31 0
  let k := s.promoNext.get 0 stack
  let s := match s.addrReg page 0x120 with
    | some a =>
      if cap = 0 then s
      else { s with mem := s.mem.writeBytes (a + 16 * (k % cap)) (leBytes 8 gddr ++ leBytes 8 backing) }
    | none => s
  { s with
    promos := s.promos ++ [⟨stack, part, pasid, va, gddr, backing, k⟩]
    promoNext := s.promoNext.set stack (k + 1) }

/-- The promotion record of a page. -/
def State.promoOf (s : State) (part pasid va : Nat) : Option Promo :=
  s.promos.find? fun r => decide (r.part = part ∧ r.pasid = pasid ∧ r.va = va)

/-- Drops the promotion record of a page. -/
def State.dropPromo (s : State) (part pasid va : Nat) : State :=
  { s with promos := s.promos.filter fun r => !decide (r.part = part ∧ r.pasid = pasid ∧ r.va = va) }

/-- Replaces the frames of a promotion record, in the ring as well. -/
def State.movePromo (s : State) (r : Promo) (gddr backing : Nat) : State :=
  let page := Page.racking r.stack
  let cap := s.fld page 0x128 31 0
  let s := match s.addrReg page 0x120 with
    | some a =>
      if cap = 0 then s
      else { s with mem := s.mem.writeBytes (a + 16 * (r.place % cap)) (leBytes 8 gddr ++ leBytes 8 backing) }
    | none => s
  { s with promos := s.promos.map fun (x : Promo) => if x = r then { x with gddr := gddr, backing := backing } else x }

/-! ### Migrations -/

/-- The migrations of an engine. -/
def State.engineMigs (s : State) (stack : Nat) : List Mig := s.migs.filter fun m => decide (m.stack = stack)

/-- RACK_STAT.INFLIGHT: the engine's pages in migration, at most 32 (Table 10-9). -/
def State.refreshRack (s : State) (stack : Nat) : State :=
  s.setFld (Page.racking stack) 0x108 5 0 (min (s.engineMigs stack).length 32)

/-- The same migration: one page of one engine. -/
def Mig.same (a b : Mig) : Bool := decide (a.stack = b.stack ∧ a.part = b.part ∧ a.pasid = b.pasid ∧ a.va = b.va ∧ a.why = b.why)

/-- Starts a migration. -/
def State.addMig (s : State) (m : Mig) : State :=
  if s.migs.any m.same then s else { s with migs := s.migs ++ [m] }.refreshRack m.stack

/-- Replaces a migration. -/
def State.putMig (s : State) (m : Mig) : State := { s with migs := s.migs.map fun x => if x.same m then m else x }

/-- Removes a migration. -/
def State.removeMig (s : State) (m : Mig) : State := { s with migs := s.migs.filter fun x => !x.same m }.refreshRack m.stack

/-- A deferred page: it counts, and is tried again (R315). -/
def State.deferMig (s : State) (m : Mig) : State := (s.bump (Page.racking m.stack) 3).putMig { m with state := 2 }

/-- A transient leaf becomes what it was (R315, R332). -/
def State.restoreLeaf (s : State) (m : Mig) : State :=
  if m.state = 1 then { s with mem := s.mem.writeNat m.leaf 8 m.old.toNat } else s

/-- A refusal of a RACK command in address order: the first one counts (R320). -/
def firstRefusal (old : Option (Nat × Nat)) (page st : Nat) : Option (Nat × Nat) :=
  match old with
  | some (p, x) => if p ≤ page then some (p, x) else some (page, st)
  | none => some (page, st)

/-- A RACK command completes once every page is moved or refused; its result is the number of pages moved (R320). -/
def State.rackCheck (s : State) (key : Nat) : State :=
  match s.cmds.find key with
  | none => s
  | some c =>
    if c.progress = c.cs.getD 1 0 ∧ s.migs.all (fun m => decide (m.why ≠ .command key)) then
      s.finishCmd c (match c.rackFail with
        | some r => r.2
        | none => St.ok) (leBytes 4 c.moved)
    else s

/-- A page of a RACK command is refused (R319, R320). -/
def State.rackRefuse (s : State) (stack key va st : Nat) : State :=
  let s := s.bump (Page.racking stack) 4
  match s.cmds.find key with
  | none => s
  | some c => s.setCmd { c with rackFail := firstRefusal c.rackFail (va / 4096) st }

/-- The stage of a task on a hub whose RACK entry is in progress. -/
def State.rackStage (s : State) (task stack : Nat) : Option Stage :=
  s.stages.find? fun g => decide (g.task = task ∧ g.stack = stack) && g.entries.any fun e => e.kind == 3 && !e.done

/-- What a page that is not moved does to the one it was moved for (Table 10-7): a command notes the refusal, a manifest
entry ends with it, and an evacuation leaves the page in place with EVAC_STUCK. -/
def State.migRefused (s : State) (m : Mig) (st : Nat) : State :=
  match m.why with
  | .command key => (s.rackRefuse m.stack key m.va st).rackCheck key
  | .stage task =>
    match s.rackStage task m.stack with
    | some g => (s.bump (Page.racking m.stack) 4).roundFail g ((g.entries.findIdx? fun e => e.kind == 3 && !e.done).getD 0) st
    | none => s
  | .evac b =>
    let s := s.modBay b fun x => { x with evacStuck := x.evacStuck ++ [(m.part, m.va)] }
    s.genEvent (Page.bay b) 0x0265 m.part (place 56 0 m.va)
  | _ => s

/-- A migration ends without a move: the leaf is restored, the new frame goes back, and a reserved backing frame stays. -/
def State.dropMig (s : State) (m : Mig) : State :=
  let s := (s.restoreLeaf m).removeMig m
  match m.frame with
  | some f => if m.why = .demote then s else s.releaseFrame m.part f
  | none => s

/-- A migration that is refused. -/
def State.refuseMig (s : State) (m : Mig) (st : Nat) : State := (s.dropMig m).migRefused m st

/-- The bay that holds a frame, if one does. -/
def frameBay (frame : Nat) : Option Nat :=
  match regionOf frame with
  | .cellar b _ => some b
  | _ => none

/-- Bay b has lost its cartridge: migrations from it or to it restore the leaf (R332). Its own evacuation ends; another
evacuation chooses a new target. -/
def State.migsLost (s : State) (b : Nat) : State :=
  let s := (s.migs.filter fun m => decide (m.why = .evac b)).foldl State.dropMig s
  let mine := s.migs.filter fun m => decide (m.state = 1 ∧ frameBay (ptePage m.old) = some b)
    || decide (m.frame.bind frameBay = some b)
  mine.foldl (fun s m =>
    if m.frame.bind frameBay ≠ some b then s.refuseMig m St.dataLost
    else match m.why with
      | .evac _ => (s.restoreLeaf m).putMig { m with frame := none, state := 0 }
      | _ => s.refuseMig m St.unitUnavailable) s

end Sys2Proof.Machine
end

