-- ==== Sys2Proof/Machine/Cellar.lean ====
section
/-!
DEFINITION. The bays (R303 to R312, R321, R323 to R327, R332): loss of a cartridge, the mailbox, accesses with their
mirrors and hotness counts, timeouts and resyncs.
-/
namespace Sys2Proof.Machine

/-- Offset of BAY_STAT. -/
abbrev bayStatOff : Nat := 0x108
/-- Offset of MBX_CMD. -/
abbrev mbxCmd : Nat := 0x300

/-- Loads field [hi:lo] of BAY_STAT. -/
def State.setBayStat (s : State) (b hi lo n : Nat) : State := s.setFld (Page.bay b) bayStatOff hi lo n

/-- Field [hi:lo] of BAY_STAT. -/
def State.bayStat (s : State) (b hi lo : Nat) : Nat := s.fld (Page.bay b) bayStatOff hi lo

/-- The bay of a CELLAR_BAY page. -/
def pageBay (page : Nat) : Nat := (page - 0x300) / 0x10

/-! ### Mirrors and loss -/

/-- The valid mirror entries of pairs that bay b belongs to: primary bay, entry, and whether b is the primary. -/
def State.pairsOf (s : State) (b : Nat) : List (Nat × Nat × Bool) :=
  (List.range 128).filterMap fun k =>
    let p := k / 8
    let j := k % 8
    if s.fld (Page.bay p) (0x400 + 16 * j) 0 0 = 1 ∧ (p = b ∨ s.fld (Page.bay p) (0x408 + 16 * j) 11 8 = b)
      then some (p, j, decide (p = b)) else none

/-- Loads MIRRORj_LIMIT.STATE. -/
def State.setMirror (s : State) (p j st : Nat) : State := s.setFld (Page.bay p) (0x408 + 16 * j) 5 4 st

/-- MIRROR_DEGRADED: bay b leaves READY, and every range of its pairs enters DEGRADED; `gone` says that its copy is lost
(R325). -/
def State.mirrorsDegrade (s : State) (b : Nat) (gone : Bool) : State :=
  (s.pairsOf b).foldl (fun s e =>
    let (p, j, own) := e
    let mine := if own then 1 else 2
    let st := s.fld (Page.bay p) (0x408 + 16 * j) 5 4
    let lost := if st = 0 then mine else if s.lostCopy p j ≠ mine ∧ gone then 3 else s.lostCopy p j
    let s := s.modBay p fun x => { x with lostCopy := x.lostCopy.set j lost }
    if st = 1 then s
    else
      let partner := s.fld (Page.bay p) (0x408 + 16 * j) 11 8
      ((s.setMirror p j 1).setFld (Page.bay p) (0x408 + 16 * j) 0 0 0).genEvent (Page.bay p) 0x0266 0
        (place 2 0 j ||| place 7 4 partner)) s

/-- Loads REMOVE_STATEb.STATE (Table 20-8). -/
def State.setRemoval (s : State) (b st : Nat) : State := s.setFld Page.servicePanel (Reg.REMOVE_STATE + 16 * b) 2 0 st

/-- REMOVE_STATEb.STATE. -/
def State.removal (s : State) (b : Nat) : Nat := s.fld Page.servicePanel (Reg.REMOVE_STATE + 16 * b) 2 0

/-- The end of a removal request without removal (R594, Table 20-9): 1 REFUSED, 2 NO_CAPACITY, 3 CANCELLED, 4 SURPRISE. -/
def State.removeEnd (s : State) (b reason refuser : Nat) : State :=
  let page := Page.servicePanel
  let s := (s.setRemoval b 0).setFld page (Reg.REMOVE_STATE + 16 * b) 30 16 0
  let s := if reason = 1 then s.setFld page (Reg.REMOVE_STATE + 16 * b) 45 40 refuser else s
  let s := (s.setReg page (Reg.REMOVE_ASKED + 16 * b) 0).setBayStat b 0 0 0
  let s := s.modBay b fun x => { x with endedAt := some s.panelTime.toNat, asked := 0 }
  s.genEvent page 0x02F4 0 (place 3 0 b ||| place 10 8 reason ||| place 21 16 refuser)

/-- The mailbox of a bay forgets what waits in it; a software command ends with UNIT_UNAVAILABLE. -/
def State.mbxDrop (s : State) (b : Nat) : State :=
  let page := Page.bay b
  let s := s.modBay b fun x => { x with mbxQueue := [], removable := false }
  if s.fld page mbxCmd 17 17 = 1 then
    ((s.setFld page mbxCmd 31 24 St.unitUnavailable).setFld page mbxCmd 17 17 0).setFld page mbxCmd 16 16 0
  else s

/-- What BAY_STAT and the bay's own state become once the cartridge serves no longer. -/
def State.bayDown (s : State) (b : Nat) (absent : Bool) : State :=
  let s := (s.setBayStat b 3 3 0).setBayStat b 4 4 0
  let s := ((s.setBayStat b 5 5 0).setBayStat b 20 16 0).setBayStat b 11 8 0
  let s := if absent then (s.setBayStat b 1 1 0).setFld (Page.bay b) Reg.VER_ACTIVE 15 0 0 else s
  (s.modBay b fun x => { x with rate := 0, retrained := false, evacLeft := [], evacStuck := [], evacDone := false }).mbxDrop b

/-- The loss of a bay without a completed evacuation (R332): FAULTED or OFF with BAY_LINK_DOWN, its pairs DEGRADED, its
migrations undone, and a removal request ended with SURPRISE (R598). -/
def State.bayLost (s : State) (b : Nat) (absent : Bool) : State :=
  let page := Page.bay b
  let s := (s.enterState page (if absent then PS.off else PS.faulted)).genEvent page 0x0261 0 (place 0 0 absent.toNat)
  let s := ((s.mirrorsDegrade b true).migsLost b).bayDown b absent
  if 1 ≤ s.removal b ∧ s.removal b ≤ 3 then s.removeEnd b 4 0 else s.setRemoval b 0

/-- BAY_REQ_TIMEOUT: a request has not been answered within REQ_TIMEOUT: the link is retrained once, and at the second
timeout the bay enters FAULTED (R307). -/
def execBayReqTimeout (b : Nat) (s : State) : Out :=
  let b := b % 16
  let page := Page.bay b
  .next (if [PS.ready, PS.quiescing].contains (s.pageState page) then
    if (s.bay b).retrained then (s.genEvent page 0x0262 0 1).bayLost b false
    else ((s.modBay b fun x => { x with retrained := true }).bump page 6).genEvent page 0x0262 0 0
  else s)

/-! ### The mailbox -/

/-- Whether an opcode is one of Table 10-3. -/
def mbxKnown (op : Nat) : Bool := [1, 2, 3, 4, 0x10, 0x11, 0x12].contains op

/-- A software command ends: RESULT, and BUSY and GO clear (R309). -/
def State.mbxEnd (s : State) (b result : Nat) : State :=
  let page := Page.bay b
  ((s.setFld page mbxCmd 31 24 result).setFld page mbxCmd 17 17 0).setFld page mbxCmd 16 16 0

/-- A reserved opcode whose turn has come ends with VERSION_MISMATCH (Table 10-3). -/
def State.mbxPump (s : State) (b : Nat) : State :=
  match (s.bay b).mbxQueue with
  | (op, true) :: rest =>
    if mbxKnown op then s
    else (s.modBay b fun x => { x with mbxQueue := rest }).mbxEnd b St.versionMismatch
  | _ => s

/-- A command joins the mailbox's queue (R309). -/
def State.mbxAsk (s : State) (b op : Nat) (soft : Bool) : State :=
  (s.modBay b fun x => { x with mbxQueue := x.mbxQueue ++ [(op, soft)] }).mbxPump b

/-- A write of MBX_CMD: ignored while BUSY; with GO it issues the command, which a bay without a trained link ends with
UNIT_UNAVAILABLE (R309; log row 37). -/
def mbxCmdEff (b : Nat) (v : Word) (s : State) : State :=
  let page := Page.bay b
  if s.fld page mbxCmd 17 17 = 1 then s
  else
    let s := s.storeWrite page mbxCmd v
    if !bit v 16 then s
    else if s.bayStat b 3 3 = 0 then s.mbxEnd b St.unitUnavailable
    else ((s.setFld page mbxCmd 17 17 1).setFld page mbxCmd 16 16 1).mbxAsk b (bits v 7 0) true

/-- A write of MBX_CMD with GO, an opcode and a length. -/
def State.mbxWrite (s : State) (i : Ident) (b op len : Nat) : State :=
  let v := place 16 16 1 ||| place 11 8 len ||| place 7 0 op
  s.writeVia i (Page.bay (b % 16)) mbxCmd v (mbxCmdEff (b % 16) v)

/-- MBX_OLM_IDENTIFY (R309). -/
def execMbxOlmIdentify (i : Ident) (b len : Nat) (s : State) : Out := .next (s.mbxWrite i b 0x01 len)
/-- MBX_HEALTH (R309). -/
def execMbxHealth (i : Ident) (b len : Nat) (s : State) : Out := .next (s.mbxWrite i b 0x02 len)
/-- MBX_WEAR (R309). -/
def execMbxWear (i : Ident) (b len : Nat) (s : State) : Out := .next (s.mbxWrite i b 0x03 len)
/-- MBX_TEMPERATURE (R309). -/
def execMbxTemperature (i : Ident) (b len : Nat) (s : State) : Out := .next (s.mbxWrite i b 0x04 len)
/-- MBX_EVAC_BEGIN (R309). -/
def execMbxEvacBegin (i : Ident) (b len : Nat) (s : State) : Out := .next (s.mbxWrite i b 0x10 len)
/-- MBX_EVAC_END (R309). -/
def execMbxEvacEnd (i : Ident) (b len : Nat) (s : State) : Out := .next (s.mbxWrite i b 0x11 len)
/-- MBX_REMOVAL_READY (R309). -/
def execMbxRemovalReady (i : Ident) (b len : Nat) (s : State) : Out := .next (s.mbxWrite i b 0x12 len)
/-- MBX_RESERVED_OPCODE: the command ends with VERSION_MISMATCH (R309). -/
def execMbxReservedOpcode (i : Ident) (b op len : Nat) (s : State) : Out :=
  .next (if mbxKnown (op % 256) then s else s.mbxWrite i b (op % 256) len)

/-- BAY_HEALTH_POLL: every second the root port asks an admitted cartridge for HEALTH, WEAR and TEMPERATURE (R310). -/
def execBayHealthPoll (b : Nat) (s : State) : Out :=
  let b := b % 16
  .next (if s.bayStat b 4 4 = 1 ∧ !(s.bay b).mbxQueue.contains (2, false) then
    ((s.mbxAsk b 2 false).mbxAsk b 3 false).mbxAsk b 4 false
  else s)

/-- The bay enters QUIESCED, where its cartridge is safe to pull; a removal is SAFE (R330, R594). -/
def State.bayQuiesced (s : State) (b : Nat) : State :=
  let s := (s.enterState (Page.bay b) PS.quiesced).genEvent (Page.bay b) 0x0100 0 (place 15 0 (s.epoch (Page.bay b)))
  if s.removal b = 3 then (s.setRemoval b 4).setBayStat b 0 0 0 else s

/-- What the root port does with the answer to a command of its own: BAY_STAT follows HEALTH, WEAR and TEMPERATURE, a
change of HEALTH is posted, FAILED faults the bay, and REMOVAL_READY ends the quiescing (R310, R330). -/
def State.mbxOwn (s : State) (b op : Nat) (data : List Word) : State :=
  let page := Page.bay b
  let w := data.getD 0 0
  if op = 2 then
    let h := bits w 1 0
    if h = s.bayStat b 33 32 then s
    else
      let s := (s.setBayStat b 33 32 h).genEvent page 0x0260 0 (place 1 0 h ||| place 15 8 (s.bayStat b 55 48))
      if h = 2 then s.bayLost b false else s
  else if op = 3 then s.setBayStat b 55 48 (bits w 7 0)
  else if op = 4 then (s.setBayStat b 47 40 (bits w 7 0)).markWritten page bayStatOff
  else if op = 0x12 then
    if s.pageState page ≠ PS.quiescing then s
    else if bit w 0 then (s.modBay b fun x => { x with removable := true }).bayQuiesced b
    else s.mbxAsk b 0x12 false
  else s

/-- MBX_RESPONSE: the cartridge answers the command that runs. A software command gets RESULT and MBX_DATA (R309); the
first word of HEALTH is that of Table 10-3, that of WEAR the endurance used, that of TEMPERATURE the media temperature, and
that of REMOVAL_READY its answer (log row 37). -/
def execMbxResponse (b result : Nat) (data : List Word) (s : State) : Out :=
  let b := b % 16
  .next (match (s.bay b).mbxQueue with
  | [] => s
  | (op, soft) :: rest =>
    let s := s.modBay b fun x => { x with mbxQueue := rest }
    let s := if soft then
        let s := (List.range (min data.length 8)).foldl (fun s k =>
          (s.setReg (Page.bay b) (0x308 + 8 * k) (data.getD k 0)).markWritten (Page.bay b) (0x308 + 8 * k)) s
        s.mbxEnd b result
      else if result = 0 then s.mbxOwn b op data
      else s
    s.mbxPump b)

/-! ### Hotness -/

/-- A demand access of a hub's own cores and engines to a page: the racking engine of a WARM object's HOME stack counts it,
and a page whose count reaches HOT_THRESH is to be promoted (R321). -/
def State.demand (s : State) (hub part pasid va frame : Nat) : State :=
  let page := Page.racking hub
  if s.fld page 0x100 0 0 = 0 then s
  else
    let r := s.placeFind hub part va
    let s := r.2
    match r.1 with
    | none => s
    | some e =>
      if e.cls = Cls.warm ∧ e.hotEn ∧ s.boundStack e.home = some hub then
        let key := hub * 2 ^ 45 + frame / 4096
        let mine := s.hot.filter fun x => decide (x.1 / 2 ^ 45 = hub)
        let full := decide (4096 ≤ mine.length) && (s.hot.find key).isNone
        let least := mine.foldl (fun (m : Option (Nat × Nat)) x => match m with
          | none => some x
          | some y => if x.2 < y.2 then some x else some y) none
        let s := match full, least with
          | true, some x => { s with hot := s.hot.drop fun k => k == x.1 }
          | _, _ => s
        let n := Map.get 0 s.hot key + 1
        let s : State := { s with hot := s.hot.set key n }
        if s.fld page 0x100 31 16 ≤ n ∧ s.fld page 0x128 31 0 ≠ 0 ∧ (State.engineMigs s hub).length < 32 then
          s.addMig {
            stack := hub, part := part, pasid := pasid, va := va / 4096 * 4096, why := .promote
            warm := true, mask := e.mask, gddrOk := e.gddrOk }
        else s
      else s

/-- HOT_WINDOW_RESTART: the counts of an engine restart (R321). -/
def execHotWindowRestart (stack : Nat) (s : State) : Out :=
  .next { s with hot := s.hot.drop fun k => k / 2 ^ 45 == stack }

/-! ### Accesses -/

/-- The status that the medium adds to a read: 1 poison, 2 an uncorrectable error (Table 10-2). -/
def State.mediaError (s : State) (b off media : Nat) : State :=
  if s.bayCopyStatus b off ≠ St.ok then s
  else if media = 1 then { s with bad := s.bad.set ((bayBase b + off) / 128) St.poisoned }
  else if media = 2 then { s with bad := s.bad.set ((bayBase b + off) / 128) St.dataUncorrectable }
  else s

/-- MIRROR_FALLBACK: the partner has answered in the primary's place; the primary's line is rewritten while its bay is
READY (R324). -/
def State.mirrorFallback (s : State) (b copy line : Nat) : State :=
  let s := s.bump (Page.bay b) 4
  if s.ready (Page.bay b) then
    let s := s.writeBytes (line * 128) (s.mem.readBytes (copy / 128 * 128) 128)
    { s with bad := s.bad.drop fun l => l == line }
  else s

/-- A read at a bay's root port (R306, R324, R325). -/
def State.bayRead (s : State) (b off n : Nat) : State :=
  let r := s.cellarRead b off
  let st := r.2.1
  let s := if r.2.2 then s.mirrorFallback b r.1 ((bayBase b + off) / 128) else s
  if st = St.ok then
    let served := (frameBay r.1).getD b
    (s.bumpUnits (Page.bay served) 0 n 1024).answer St.ok (s.mem.readBytes r.1 n)
  else
    let s := if st = St.poisoned then s.bump (Page.bay b) 2
      else if st = St.dataUncorrectable then s.bump (Page.bay b) 3 else s
    s.answer st []

/-- A write at a bay's root port: it completes once every copy has taken it (R306, R323, R325). A write-back that no copy
can take is discarded and counted (R327). -/
def State.bayWrite (s : State) (b off part : Nat) (data : List Byte) (wb : Bool) : State :=
  let w := s.cellarWrite b off
  if w.2 = St.dataLost then (if wb then s.bump (Page.bay b) 5 else s).answer St.dataLost []
  else
    let r := s.physWrite part .engine (bayBase b + off) data
    let s := if r.1 = St.ok then
        w.1.foldl (fun s p => s.bumpUnits (Page.bay ((frameBay p).getD b)) 1 data.length 1024) r.2
      else r.2
    s.answer r.1 []

/-- CELLAR_ACCESS: a read of `n` bytes, or a write of `data`, within one line at a bay's root port, with its charge of 64 B
requests (R308). `media` is 0 for a sound answer, 1 and 2 for the errors of Table 10-2, and 3 when the link is lost with
the request outstanding. `hub` is the hub of a demand access, whose page counts for hotness (R321). -/
def execCellarAccess (b off n : Nat) (data : List Byte) (part : Nat) (hub : Option Nat) (pasid va : Nat) (wb : Bool)
    (media : Nat) (s : State) : Out :=
  let b := b % 16
  let page := Page.bay b
  let len := if data = [] then n else data.length
  let units := 64 * ((off % 64 + len + 63) / 64)
  let v := if wb then (Verdict.inBudget, s.chargeForced page 0 part units) else s.regulate page 0 part units
  .next (if v.1 = .refused then v.2.answer St.refusedBudget []
  else if media = 3 then v.2.answer St.unitUnavailable []
  else
    let s := v.2.modBay b fun x => { x with retrained := false }
    let s := if data = [] then (s.mediaError b off media).bayRead b off n else s.bayWrite b off part data wb
    match hub with
    | some h => if s.reply.1 = St.ok ∧ !wb then s.demand h part pasid va (bayBase b + off) else s
    | none => s)

/-! ### Resyncs -/

/-- The bytes of a range copied over another of the same length. -/
def Memory.copyRange (m : Memory) (src dst n : Nat) : Memory :=
  (m.filter fun c => decide (src ≤ c.1 ∧ c.1 < src + n)).foldl (fun m c => m.write (c.1 - src + dst) c.2) (m.clear dst (dst + n))

/-- A write of MIRRORj_LIMIT: RESYNC starts a resync of a DEGRADED range with one copy left, once both bays are READY
(R325). -/
def mirrorLimitEff (b j : Nat) (v : Word) (s : State) : State :=
  let page := Page.bay b
  let off := 0x408 + 16 * j
  let s := s.storeWrite page off v
  let both := s.ready page && s.ready (Page.bay (s.fld page off 11 8))
  if bit v 0 ∧ s.fld page (0x400 + 16 * j) 0 0 = 1 ∧ s.fld page off 5 4 = 1 ∧ both ∧ s.lostCopy b j ≠ 3 then
    (s.setMirror b j 2).setFld page off 0 0 1
  else s

/-- MIRROR_RESYNC: a write of MIRRORj_LIMIT with RESYNC (R325). -/
def execMirrorResync (i : Ident) (b j : Nat) (v : Word) (s : State) : Out :=
  let b := b % 16
  let j := j % 8
  let v := setBit v 0 true
  .next (s.writeVia i (Page.bay b) (0x408 + 16 * j) v (mirrorLimitEff b j v))

/-- MIRROR_RESYNC_DONE: the surviving copy stands over the other, the range returns to SYNC, and MIRROR_RESYNCED is posted
(R325). -/
def execMirrorResyncDone (b j : Nat) (s : State) : Out :=
  let b := b % 16
  let j := j % 8
  let page := Page.bay b
  .next (if s.fld page (0x408 + 16 * j) 5 4 ≠ 2 then s
  else
    let lo := s.fld page (0x400 + 16 * j) 40 12 * 4096
    let n := s.fld page (0x408 + 16 * j) 40 12 * 4096 + 4096 - lo
    let own := bayBase b + lo
    let other := bayBase (s.fld page (0x408 + 16 * j) 11 8) + lo
    let src := if s.lostCopy b j = 1 then other else own
    let dst := if s.lostCopy b j = 1 then own else other
    let marks := s.bad.filter fun e => decide (src / 128 ≤ e.1 ∧ e.1 < (src + n) / 128)
    let bad := s.bad.drop fun l => decide (dst / 128 ≤ l ∧ l < (dst + n) / 128)
    let s := { s with
      mem := s.mem.copyRange src dst n
      bad := marks.foldl (fun (m : Map Nat) (e : Nat × Nat) => m.set (e.1 - src / 128 + dst / 128) e.2) bad }
    let s := s.modBay b fun x => { x with lostCopy := x.lostCopy.drop fun k => k == j }
    ((s.setMirror b j 0).setFld page (0x408 + 16 * j) 0 0 0).genEvent page 0x0267 0 (place 2 0 j))

end Sys2Proof.Machine
end

