-- ==== Sys2Proof/Machine/Racking.lean ====
section
/-!
DEFINITION. The racking engines (R314 to R320, R322, R328 to R331): the RACK command, the migration of a page, and the
evacuation and admission of bays.
-/
namespace Sys2Proof.Machine

/-! ### Targets -/

/-- Whether a bay may take pages: READY, and with no evacuation running or queued (R319, R596). -/
def State.bayTakes (s : State) (b : Nat) : Bool :=
  s.ready (Page.bay b) && decide (s.bayStat b 5 5 = 0 ∧ s.removal b ≠ 2 ∧ s.removal b ≠ 3)

/-- The bay of a list with most free frames of a partition, the lowest index on a tie; none where every pool is empty
(R329). -/
def mostFree (count : Nat → Nat) (bays : List Nat) : Option Nat :=
  let most := bays.foldl (fun m b => max m (count b)) 0
  if most = 0 then none else bays.find? fun b => count b = most

/-- The bays of a mask that may take pages. -/
def State.takers (s : State) (mask : Nat) : List Nat := (List.range 16).filter fun b => mask.testBit b && s.bayTakes b

/-- What becomes of a page of a RACK command or manifest entry (Table 10-7, R320). -/
inductive RackStep where
  | refuse (st : Nat)
  | absent
  | later
  | there
  | go (m : Mig)
  deriving DecidableEq, Repr

/-- The decision on one page of partition `part`: `toBays` is the mask of a command to bays, and `stack` the target's stack
otherwise (R314, R319, R320, R322). A page that may go has its new frame. -/
def State.rackDecide (s : State) (engine part pasid va : Nat) (why : MigWhy) (toBays : Option Nat) (stack : Option Nat) :
    RackStep × State :=
  match s.leafOf part pasid va with
  | .fault st => (.refuse st, s)
  | .absent => (.absent, s)
  | .wait => (.later, s)
  | .found (lf, frame) =>
    let r := s.placeFind engine part va
    let s := r.2
    match r.1 with
    | none => (.refuse St.permissionFault, s)
    | some e =>
      let m : Mig := {
        stack := engine, part := part, pasid := pasid, va := va, why := why, leaf := lf.addr
        warm := decide (e.cls = Cls.warm), mask := e.mask, gddrOk := e.gddrOk }
      if e.cls = Cls.mirror2 ∨ e.cls = Cls.pinnedLocal then (.refuse St.permissionFault, s)
      else match toBays with
        | none =>
          if e.cls = Cls.cellar ∧ !e.gddrOk then (.refuse St.permissionFault, s)
          else match stack with
            | none => (.refuse St.unitUnavailable, s)
            | some g =>
              if regionOf frame = .gddr g (frame % 0x800000000) then (.there, s)
              else if s.stackState g ≠ PS.ready then (.refuse St.unitUnavailable, s)
              else
                let t := s.poolTake (Page.racking g) part
                match t.1 with
                | none => (.refuse St.refusedFull, t.2)
                | some f => (.go { m with frame := some f }, t.2)
        | some mask =>
          let mask := mask &&& e.mask
          if e.cls = Cls.hotGddr ∨ mask = 0 then (.refuse St.permissionFault, s)
          else if (frameBay frame).any fun b => mask.testBit b then (.there, s)
          else match s.promoOf part pasid va with
            | some r => (.go { m with frame := some r.backing }, s)
            | none =>
              let bays := s.takers mask
              if bays = [] then (.refuse St.unitUnavailable, s)
              else
                let b := (mostFree (fun b => s.poolCount (Page.bay b) part) bays).getD (bays.headD 0)
                let t := s.poolTake (Page.bay b) part
                match t.1 with
                | none => (.refuse St.refusedFull, t.2)
                | some f => (.go { m with frame := some f }, t.2)

/-! ### Evacuation: pages and targets -/

/-- The bays that an evacuation of bay b may use for a page (R329). -/
def State.evacBays (s : State) (b : Nat) (x : EvacPage) : List Nat := (s.takers x.mask).filter (· ≠ b)

/-- Whether the GDDR of the HOME stack is a target for a page: with GDDR_OK, and never for a WARM page's cellar frame
(R329). -/
def evacGddr (x : EvacPage) : Bool := x.gddrOk && !x.warm

/-- The block that gives the frame of a page, with `used` frames already spoken for (R329). -/
def State.evacTarget (s : State) (b : Nat) (used : Map Nat) (x : EvacPage) : Option Nat :=
  let left := fun page => s.poolCount page x.part - used.get 0 (page * 64 + x.part)
  match mostFree (fun c => left (Page.bay c)) (s.evacBays b x) with
  | some c => some (Page.bay c)
  | none => if evacGddr x ∧ 0 < left (Page.racking x.home) then some (Page.racking x.home) else none

/-- Whether the free frames that R329 allows cover a list of pages. -/
def State.evacCovers (s : State) (b : Nat) (xs : List EvacPage) : Bool :=
  (xs.foldl (fun (acc : Bool × Map Nat) x =>
    match s.evacTarget b acc.2 x with
    | some page => (acc.1, acc.2.mod 0 (page * 64 + x.part) (· + 1))
    | none => (false, acc.2)) (true, [])).1

/-- The free frames that R329 allows for some page of a list. -/
def State.evacFree (s : State) (b : Nat) (xs : List EvacPage) : Nat :=
  let pools := xs.flatMap fun x =>
    ((s.evacBays b x).map fun c => (Page.bay c, x.part)) ++ (if evacGddr x then [(Page.racking x.home, x.part)] else [])
  (pools.eraseDups.map fun q => s.poolCount q.1 q.2).sum

/-- Whether a page of an entry has a frame or backing frame in bay b (R328). -/
def State.pageInBay (s : State) (b p va : Nat) : Bool :=
  let leaf := match s.leafOf p 0 va with
    | .found (_, frame) => decide (frameBay frame = some b)
    | .fault _ => decide ((s.superPage p 0 va).bind frameBay = some b)
    | _ => false
  leaf || (s.promoOf p 0 va).any fun r => decide (frameBay r.backing = some b)

/-- The counting pass of one engine for one partition (R328). -/
def State.evacScan (s : State) (b stack l p : Nat) : List EvacPage × State :=
  let r := s.placeScan stack p
  let mine := r.1.filter fun e => decide (e.home = l ∧ (e.cls = Cls.warm ∨ e.cls = Cls.cellar))
  (mine.flatMap fun e => (List.range e.npages).filterMap fun k =>
    if s.pageInBay b p (e.vbase + 4096 * k) then
      some { part := p, va := e.vbase + 4096 * k, home := stack, mask := e.mask, gddrOk := e.gddrOk, warm := decide (e.cls = Cls.warm) }
    else none, r.2)

/-- The counting pass of an evacuation: the engine of every HOME stack walks the entries of every partition (R328). -/
def State.evacCount (s : State) (b : Nat) : List EvacPage × State :=
  (List.range 4096).foldl (fun (acc : List EvacPage × State) k =>
    match acc.2.boundStack (k / 64) with
    | none => acc
    | some st =>
      let r := acc.2.evacScan b st (k / 64) (k % 64)
      (acc.1 ++ r.1, r.2)) ([], s)

/-- Each engine takes pages of an evacuation while it holds fewer than 32 in migration. -/
def State.evacFill (s : State) (b : Nat) : State :=
  let r := (s.bay b).evacLeft.foldl (fun (acc : List EvacPage × State) x =>
    if (State.engineMigs acc.2 x.home).length < 32 then
      (acc.1, acc.2.addMig {
        stack := x.home, part := x.part, pasid := 0, va := x.va, why := .evac b, warm := x.warm, mask := x.mask
        gddrOk := x.gddrOk })
    else (acc.1 ++ [x], acc.2)) ([], s)
  r.2.modBay b fun y => { y with evacLeft := r.1 }

/-- An evacuation goes on after one of its pages has ended. -/
def State.evacNext (s : State) (m : Mig) : State :=
  match m.why with
  | .evac b => s.evacFill b
  | _ => s

/-! ### The migration of a page -/

/-- Charges and counts one page read from or written to where a frame lies; never refused (R308, R300). -/
def State.rackCharge (s : State) (part frame counter : Nat) : State :=
  match regionOf frame with
  | .cellar b _ => (s.chargeForced (Page.bay b) 0 part 4096).bumpUnits (Page.bay b) counter 4096 1024
  | .gddr st off => (List.range 32).foldl (fun s i => s.chargeForced (Page.regulator st) (gddrDev (off + 128 * i)) part 128) s
  | _ => s

/-- Copies a page line by line; answers the first failing status (R315). -/
def State.copyPage (s : State) (part src dst : Nat) : Nat × State :=
  (List.range 32).foldl (fun (acc : Nat × State) i =>
    if acc.1 ≠ St.ok then acc
    else
      let r := acc.2.physRead part .engine (src + 128 * i) 128
      if r.1 ≠ St.ok then (r.1, acc.2) else acc.2.homeWrite (dst + 128 * i) r.2) (St.ok, s)

/-- What a finished move does to the frames: the old frame goes back to its pool; that of a WARM page that goes into GDDR
stays as its backing frame; and a WARM page that goes into the cellar is demoted (R315, R321, R322). -/
def State.settleFrames (s : State) (m : Mig) (old new : Nat) : State :=
  let page := Page.racking m.stack
  let inGddr := fun f => decide (frameBay f = none)
  if !m.warm then s.releaseFrame m.part old
  else match s.promoOf m.part m.pasid m.va with
    | some r =>
      if inGddr new then (s.movePromo r new r.backing).releaseFrame m.part old
      else
        let s := ((s.dropPromo m.part m.pasid m.va).releaseFrame m.part old).bump page 2
        if r.backing = new then s else s.releaseFrame m.part r.backing
    | none =>
      if inGddr new && !inGddr old then
        let s := s.recordPromo m.stack m.part m.pasid m.va new old
        if m.why = .promote then s.bump page 1 else s
      else s.releaseFrame m.part old

/-- The new frame holds the page: the leaf is written with it, and whoever asked for the move hears of it (R315). -/
def State.finishMig (s : State) (m : Mig) (new : Nat) : State :=
  let old := ptePage m.old
  let s : State := { s with mem := s.mem.writeNat m.leaf 8 (withFrame m.old new).toNat }
  let s := ((s.bump (Page.racking m.stack) 0).settleFrames m old new).removeMig m
  match m.why with
  | .command key =>
    match s.cmds.find key with
    | some c => (s.setCmd { c with moved := c.moved + 1 }).rackCheck key
    | none => s
  | .evac b =>
    (s.modBay b fun x => { x with evacFrames := old :: x.evacFrames }).evacFill b
  | _ => s

/-- The second half of a migration: the copy, and then the leaf (R315). A unit that is unavailable is asked again (R326),
and any other failing status restores the leaf (log row 39). -/
def State.migCopy (s : State) (m : Mig) : State :=
  match m.frame with
  | none => s
  | some new =>
    let old := ptePage m.old
    let r := s.copyPage m.part old new
    if r.1 = St.unitUnavailable then s
    else if r.1 ≠ St.ok then (s.refuseMig m r.1).evacNext m
    else ((r.2.rackCharge m.part old 0).rackCharge m.part new 1).finishMig m new

/-- Moves a WARM page's backing frame out of an evacuating bay, to a bay only, and updates its record (R329). -/
def State.moveBacking (s : State) (m : Mig) (r : Promo) (b : Nat) : State :=
  let x : EvacPage := ⟨m.part, m.va, m.stack, m.mask, m.gddrOk, true⟩
  match s.evacTarget b [] x with
  | none => s.deferMig m
  | some page =>
    let t := s.poolTake page m.part
    match t.1 with
    | none => t.2.deferMig m
    | some f =>
      let c := t.2.copyPage m.part r.backing f
      let s := (((c.2.movePromo r r.gddr f).releaseFrame m.part r.backing).bump (Page.racking m.stack) 0).removeMig m
      (s.modBay b fun y => { y with evacFrames := r.backing :: y.evacFrames }).evacFill b

/-- The new frame of a migration that has none yet: a promotion's from the engine's pool, and an evacuation's from the
first target with one (R321, R329). A promotion that finds its pool empty has the oldest page of the ring demoted first
(R322). -/
def State.migFrame (s : State) (m : Mig) : Option Nat × State :=
  match m.frame, m.why with
  | some f, _ => (some f, s)
  | none, .promote =>
    let page := Page.racking m.stack
    let mine := s.promos.filter fun r => decide (r.stack = m.stack)
    let full := decide (s.fld page 0x128 31 0 ≤ mine.length)
    let t := if full then (none, s) else s.poolTake page m.part
    match t.1, mine.head? with
    | none, some r =>
      (none, t.2.addMig {
        stack := m.stack, part := r.part, pasid := r.pasid, va := r.va, why := .demote, frame := some r.backing, warm := true })
    | f, _ => (f, t.2)
  | none, .evac b =>
    match s.evacTarget b [] ⟨m.part, m.va, m.stack, m.mask, m.gddrOk, m.warm⟩ with
    | some page => s.poolTake page m.part
    | none => (none, s)
  | none, _ => (none, s)

/-- The first half of a migration (R315): the leaf becomes the transient one by compare-and-swap, unless another agent has
changed it, and the page is shot down; a transfer in flight gives the leaf back. A promotion that finds its pool empty and
has nothing to demote does not move (Table 10-7). -/
def State.migStart (s : State) (m : Mig) (race busy : Bool) : State :=
  match s.leafOf m.part m.pasid m.va with
  | .wait => s.deferMig m
  | .absent => match m.why with
    | .command _ => (s.deferMig m).pageRequest ⟨some m.stack, m.part, m.pasid, .engine⟩ m.va .engine
    | .stage _ => (s.deferMig m).pageRequest ⟨some m.stack, m.part, m.pasid, .engine⟩ m.va .engine
    | _ => (s.dropMig m).evacNext m
  | .fault st => (s.refuseMig m st).evacNext m
  | .found (lf, frame) =>
    let stays := match m.why with
      | .evac b => decide (frameBay frame ≠ some b)
      | .promote => decide (frameBay frame = none)
      | .demote => decide (frameBay frame ≠ none)
      | _ => false
    match stays, m.why, s.promoOf m.part m.pasid m.va with
    | true, .evac b, some r => if frameBay r.backing = some b then s.moveBacking m r b else (s.dropMig m).evacNext m
    | true, _, _ => (s.dropMig m).evacNext m
    | false, _, _ =>
      let t := s.migFrame m
      match t.1 with
      | none =>
        if m.why = .promote ∧ t.2.promos.all (fun r => decide (r.stack ≠ m.stack)) then t.2.dropMig m else t.2.deferMig m
      | some f =>
        let m := { m with frame := some f, leaf := lf.addr, old := lf.pte }
        if race then t.2.deferMig m
        else
          let s : State := { t.2 with mem := t.2.mem.writeNat lf.addr 8 (setBits (setBit lf.pte 0 false) 9 8 3).toNat }
          let s := s.shootdown m.part (m.va / 4096)
          if busy then ({ s with mem := s.mem.writeNat lf.addr 8 lf.pte.toNat } : State).deferMig m
          else s.putMig { m with state := 1 }

/-- PAGE_MIGRATE: migration `idx` of an engine takes its next step (R315). `race` says that another agent changed the leaf
under the compare-and-swap, and `busy` that a transfer which translated the page is in flight. -/
def execPageMigrate (stack idx : Nat) (race busy : Bool) (s : State) : Out :=
  .next (match (s.engineMigs stack)[idx]? with
  | none => s
  | some m =>
    if m.state = 0 then s.migStart m race busy
    else if m.state = 1 then s.migCopy m
    else s)

/-- MIGRATE_DEFER_RETRY: RETRY_US later a deferred page is tried again (R315). -/
def execMigrateDeferRetry (stack idx : Nat) (s : State) : Out :=
  .next (match (s.engineMigs stack)[idx]? with
  | none => s
  | some m => if m.state = 2 then s.putMig { m with state := 0 } else s)

/-! ### RACK -/

/-- RACK: the racking engine decides on the next page of an active RACK command (R319, R320, R322). -/
def execRack (q seq : Nat) (s : State) : Out :=
  .next (match s.cmd q seq with
  | none => s
  | some c =>
    let s := s.activate q seq
    let c := (s.cmd q seq).getD c
    let key := cmdKey q seq
    if c.kind ≠ 5 ∨ !s.mayIssue c then s
    else match s.boundStack c.target with
      | none => s
      | some engine =>
        let w := c.cs.getD 2 0
        if c.progress = c.cs.getD 1 0 ∨ 32 ≤ (s.engineMigs engine).length then s.rackCheck key
        else
          let va := c.cs.getD 0 0 + 4096 * c.progress
          let mask := if w.testBit 7 then some (natBits w 31 16) else none
          let r := s.rackDecide engine c.part c.pasid va (.command key) mask (s.boundStack (w % 64))
          let on := fun (s : State) => s.setCmd { c with progress := c.progress + 1 }
          match r.1 with
          | .refuse st => ((on r.2).rackRefuse engine key va st).rackCheck key
          | .absent => r.2.holdPage c (s.cmdCtxt c .engine) va
          | .later => r.2
          | .there => (on r.2).rackCheck key
          | .go m => (on r.2).addMig m)

/-! ### Evacuation and admission -/

/-- BAY_CTL.EVAC: the counting pass, and the copying pass where the free frames cover it (R328). -/
def State.bayEvac (s : State) (b : Nat) (stale : Bool) : State :=
  let page := Page.bay b
  let status := fun (s : State) (st : Nat) => s.setBayStat b 63 56 st
  if stale then status s St.epochStale
  else if !s.ready page ∨ s.bayStat b 5 5 = 1 then status s St.unitUnavailable
  else
    let r := s.evacCount b
    let xs := r.1
    let s := r.2
    if s.evacCovers b xs then
      let s := (status s St.ok).setBayStat b 5 5 1
      let s := s.modBay b fun x => { x with
        evacLeft := xs, evacCounted := xs.length, evacFrames := [], evacStuck := [], evacDone := false }
      (s.mbxAsk b 0x10 false).evacFill b
    else
      let s := (status s St.refusedFull).genEvent page 0x0264 0
        (place 31 0 xs.length ||| place 63 32 (s.evacFree b xs))
      if s.removal b = 3 then s.removeEnd b 2 0 else s

/-- BAY_CTL.EVAC_CANCEL: the copying pass stops; what has moved stays where it is (R330, R597). -/
def State.bayEvacCancel (s : State) (b : Nat) : State :=
  if s.bayStat b 5 5 = 0 then s.setBayStat b 63 56 St.unitUnavailable
  else
    let mine := s.migs.filter fun m => decide (m.why = .evac b)
    let s := mine.foldl State.dropMig s
    let s := s.modBay b fun x => { x with evacLeft := [], evacStuck := [] }
    let s := (s.setBayStat b 5 5 0).setBayStat b 63 56 St.ok
    if s.removal b = 3 then s.removeEnd b 3 0 else s

/-- BAY_CTL.ADMIT (R312): Sanitize leaves every byte zero, OLM_IDENTIFY gives the capacity, and the bay enters READY. -/
def State.bayAdmit (s : State) (b : Nat) (stale : Bool) : State :=
  let page := Page.bay b
  let x := s.bay b
  let status := fun (s : State) (st : Nat) => s.setBayStat b 63 56 st
  if stale then status s St.epochStale
  else if s.pageState page ≠ PS.init ∨ !x.fit then status s St.unitUnavailable
  else if !x.sane then status s St.internal
  else
    let lo := bayBase b
    let hi := lo + 0x20000000000
    let s := { s with
      mem := s.mem.clear lo hi
      bad := s.bad.drop fun l => decide (lo / 128 ≤ l ∧ l < hi / 128) }
    let s := s.modBay b fun x => { x with capacity := min x.reported 0x20000000000 }
    status ((s.enterState page PS.ready).setBayStat b 4 4 1) St.ok

/-- A write of BAY_CTL: its actions in the order ADMIT, EVAC, EVAC_CANCEL (Table 10-8). -/
def bayCtlEff (b : Nat) (v : Word) (s : State) : State :=
  let page := Page.bay b
  let s := s.storeWrite page 0x100 v
  let stale := decide (bits v 63 48 ≠ s.epoch page)
  let s := if bit v 0 then s.bayAdmit b stale else s
  let s := if bit v 1 then s.bayEvac b stale else s
  if bit v 2 then s.bayEvacCancel b else s

/-- A write of BAY_CTL with one action. -/
def State.bayCtlWrite (s : State) (i : Ident) (b epoch action : Nat) : State :=
  let v := place 63 48 epoch ||| place 2 0 action
  s.writeVia i (Page.bay (b % 16)) 0x100 v (bayCtlEff (b % 16) v)

/-- BAY_ADMIT (R312). -/
def execBayAdmit (i : Ident) (b epoch : Nat) (s : State) : Out := .next (s.bayCtlWrite i b epoch 1)
/-- BAY_EVAC (R328). -/
def execBayEvac (i : Ident) (b epoch : Nat) (s : State) : Out := .next (s.bayCtlWrite i b epoch 2)
/-- BAY_EVAC_CANCEL (R330). -/
def execBayEvacCancel (i : Ident) (b epoch : Nat) (s : State) : Out := .next (s.bayCtlWrite i b epoch 4)

/-- The frames that a partition's pool holds. -/
def State.poolFrames (s : State) (page p : Nat) : List Nat :=
  match s.poolAddr page p with
  | none => []
  | some a => (List.range (s.mem.readNat (a + 12) 4)).map fun k => s.mem.readNat (s.mem.readNat a 8 + 8 * k) 8

/-- The number of a bay's frames that no pool holds, that no mirror range of the bay covers, and that the evacuation did not
move (R331). -/
def State.evacUnaccounted (s : State) (b : Nat) : Nat :=
  let known := ((List.range 64).flatMap fun p => s.poolFrames (Page.bay b) p) ++ (s.bay b).evacFrames
  let ranges := (s.pairsOf b).map fun e =>
    (s.fld (Page.bay e.1) (0x400 + 16 * e.2.1) 40 12, s.fld (Page.bay e.1) (0x408 + 16 * e.2.1) 40 12)
  ((List.range ((s.bay b).capacity / 4096)).filter fun k =>
    !known.contains (bayBase b + 4096 * k) && ranges.all fun r => !decide (r.1 ≤ k ∧ k ≤ r.2)).length

/-- EVAC_COPY_DONE: every counted page has moved: EVAC_END, EVAC_DONE, and QUIESCE_REQ (R330, R331). A page left in place
keeps the bay from quiescing until software has moved it. -/
def execEvacCopyDone (b : Nat) (s : State) : Out :=
  let b := b % 16
  let page := Page.bay b
  let x := s.bay b
  let stuck := x.evacStuck.any fun e => s.pageInBay b e.1 e.2
  .next (if s.bayStat b 5 5 = 0 ∨ x.evacLeft ≠ [] ∨ s.migs.any (fun m => decide (m.why = .evac b)) ∨ stuck then s
  else
    let s := (s.mbxAsk b 0x11 false).genEvent page 0x0263 0
      (place 31 0 x.evacFrames.length ||| place 63 32 (s.evacUnaccounted b))
    let s := (s.modBay b fun x => { x with evacDone := true, evacStuck := [] }).setBayStat b 5 5 0
    let s := (s.setFld page Reg.PAGE_CTL 1 1 1).enterState page PS.quiescing
    (s.mirrorsDegrade b false).mbxAsk b 0x12 false)

end Sys2Proof.Machine
end

