-- ==== Sys2Proof/Machine/Staging.lean ====
section
/-!
DEFINITION. The entries of a round's manifest (R223, R226 to R228, R232, R233): copies, reads into the hub cache, page moves
and awaited collectives, with the read-back that ends a manifest.
-/
namespace Sys2Proof.Machine

/-- A request of the staging for one line of the hub's own GDDR, with the KEEP hint under the round's tag; a line that had
to be installed NORMAL is counted and remembered for the read-back (R223, R226, R227). The status is `none` where the
request has to be made again. -/
def State.stageLine (s : State) (g : Stage) (part pa : Nat) (data : List Byte) : Option Nat × Stage × State :=
  match regionOf pa with
  | .gddr st off =>
    if st ≠ g.stack then (some St.permissionFault, g, s)
    else if s.gddrStatus st off = St.unitUnavailable then (none, g, s)
    else if s.gddrStatus st off ≠ St.ok then (some (s.gddrStatus st off), g, s)
    else
      let r := if data = [] then s.cacheServe st (pa / 128 * 128) 128 [] 2 (roundTag g.round) part .ok
        else s.cacheServe st pa data.length data 2 (roundTag g.round) part .ok
      let s := r.2
      if s.reply.1 = St.refusedBudget then (none, g, s)
      else if s.reply.1 ≠ St.ok then (some s.reply.1, g, s)
      else
        let kept := (s.cacheFind st (pa / 128)).any fun l => decide (l.cls = .keep)
        if kept then (some St.ok, g, s)
        else (some St.ok, { g with normal := g.normal ++ [pa / 128] }, s.bump (Page.scheduler g.stack) 6)
  | _ => (some St.permissionFault, g, s)

/-- How a part of an entry ends. -/
def endOf : Option Nat → Ended
  | some st => .status st
  | none => .wait

/-- A request of the staging at a virtual address: a read of its line, or a write of bytes that lie in one line. -/
def State.stageAddr (x : Ctxt) (s : State) (g : Stage) (va : Nat) (data : List Byte) : Ended × Stage × State :=
  let t := s.translate x.stack x.part x.pasid va (decide (data ≠ []))
  match t.1 with
  | .ok pa =>
    let r := t.2.stageLine g x.part pa data
    (endOf r.1, r.2)
  | .fault st => (.status st, g, t.2)
  | .absent => (.absent va, g, t.2)
  | .wait => (.wait, g, t.2)

/-- Reads the one or two lines that 128 bytes at a virtual address lie in into the hub cache. -/
def State.touchUnit (x : Ctxt) (s : State) (g : Stage) (va : Nat) : Ended × Stage × State :=
  let r := State.stageAddr x s g va []
  if va % 128 = 0 ∨ r.1 ≠ .status St.ok then r else State.stageAddr x r.2.2 r.2.1 (va + 127) []

/-- Writes 128 bytes at a virtual address into the one or two lines that they lie in. -/
def State.copyUnit (x : Ctxt) (s : State) (g : Stage) (va : Nat) (bs : List Byte) : Ended × Stage × State :=
  let m := inLine va 128
  let r := State.stageAddr x s g va (bs.take m)
  if m = 128 ∨ r.1 ≠ .status St.ok then r else State.stageAddr x r.2.2 r.2.1 (va + m) (bs.drop m)

/-- Reads up to n times 128 bytes at a virtual address into the hub cache; answers how many times it did. -/
def State.touchLines (x : Ctxt) : Nat → State → Stage → Nat → Ended × Nat × Stage × State
  | 0, s, g, _ => (.status St.ok, 0, g, s)
  | n + 1, s, g, va =>
    let r := State.touchUnit x s g va
    match r.1 with
    | .status 0 =>
      let more := State.touchLines x n r.2.2 r.2.1 (va + 128)
      (more.1, 1 + more.2.1, more.2.2)
    | e => (e, 0, r.2)

/-- The bytes of a line at a virtual address, as the mover reads them; it may lie over two lines of memory (R228). -/
def State.copySource (s : State) (x : Ctxt) (va : Nat) : Ended × List Byte × State :=
  let m := inLine va 128
  let a := s.moverRead x va m
  match a.1 with
  | .status 0 =>
    if m = 128 then a
    else
      let b := a.2.2.moverRead x (va + m) (128 - m)
      (b.1, a.2.1 ++ b.2.1, b.2.2)
  | _ => a

/-- Copies up to n times 128 bytes; answers how many times it did. -/
def State.copyLines (x : Ctxt) : Nat → State → Stage → Nat → Nat → Ended × Nat × Stage × State
  | 0, s, g, _, _ => (.status St.ok, 0, g, s)
  | n + 1, s, g, src, dst =>
    let a := s.copySource x src
    match a.1 with
    | .status 0 =>
      let r := State.copyUnit x a.2.2 g dst a.2.1
      match r.1 with
      | .status 0 =>
        let more := State.copyLines x n r.2.2 r.2.1 (src + 128) (dst + 128)
        (more.1, 1 + more.2.1, more.2.2)
      | e => (e, 0, r.2)
    | e => (e, 0, g, a.2.2)

/-- The read-back: every line of the round installed without KEEP that has left the hub cache is read once more (R226). -/
def State.readBack (s : State) (g : Stage) (part : Nat) : State :=
  g.normal.foldl (fun s l =>
    if (s.cacheFind g.stack l).isSome then s
    else (s.cacheServe g.stack (l * 128) 128 [] 0 0 part .ok).2) s

/-- The entry has done `k` more lines; with all `total` it is complete, and with every entry of the manifest complete the
manifest is staged after its read-back (R226). -/
def State.entryOn (s : State) (g : Stage) (i k total part : Nat) : State :=
  match g.entries[i]? with
  | none => s
  | some e =>
    let e := { e with pos := e.pos + k, done := decide (e.pos + k = total) }
    let g := { g with entries := listSet g.entries i e }
    let s := s.putStage g
    let s := if g.complete then s.readBack g part else s
    s.refreshRoundStat g.stack 0

/-- What follows a part of an entry: it goes on, waits for a page request (R232), presents a request again, or ends with a
failing status (R233). -/
def State.entryEnds (s : State) (g : Stage) (x : Ctxt) (i : Nat) (e : Ended) (k total : Nat) : State :=
  let s := s.entryOn g i k total x.part
  match e with
  | .absent va =>
    match s.stages.find? fun h => decide (h.task = g.task ∧ h.stack = g.stack ∧ h.round = g.round) with
    | some h => (s.putStage { h with pageWait := some (va / 4096) }).pageRequest x va .engine
    | none => s
  | .wait => s
  | .status st => if st = St.ok ∨ st = St.unitUnavailable then s else s.roundFail g i st

/-- One part of a RACK entry before its lines: the racking engine decides on its next page, and once all have moved the
lines follow (R223, R320). -/
def State.rackEntry (s : State) (g : Stage) (x : Ctxt) (i : Nat) (e : StageEntry) : State :=
  let put := fun (s : State) (e : StageEntry) => s.putStage { g with entries := listSet g.entries i e }
  if e.pos * 4096 = e.len then
    if s.migs.any fun m => decide (m.why = .stage g.task ∧ m.stack = g.stack) then s
    else put s { e with pos := 0, racked := true }
  else if 32 ≤ (s.engineMigs g.stack).length then s
  else
    let va := e.src + 4096 * e.pos
    let r := s.rackDecide g.stack x.part x.pasid va (.stage g.task) none (some g.stack)
    match r.1 with
    | .refuse st => (r.2.bump (Page.racking g.stack) 4).roundFail g i st
    | .absent => (r.2.putStage { g with pageWait := some (va / 4096) }).pageRequest x va .engine
    | .later => r.2
    | .there => put r.2 { e with pos := e.pos + 1 }
    | .go m => (put r.2 { e with pos := e.pos + 1 }).addMig m

/-- MANIFEST_ENTRY_DONE: entry `i` of the manifest that a hub stages does up to n more lines, and completes with its last
(R223, Table 7-3). An AWAIT entry begins once the task's collective has completed (R244). -/
def execManifestEntryDone (q seq stack i n : Nat) (s : State) : Out :=
  let key := cmdKey q seq
  .next (match s.task key, s.stages.find? fun g => decide (g.task = key ∧ g.stack = stack) && !g.complete with
  | some t, some g =>
    let x := t.ctxt stack
    match g.entries[i]? with
    | none => s
    | some e =>
      if e.done ∨ g.hdrWait ∨ g.pageWait ≠ none then s
      else
        let total := e.len / 128
        let left := min n (total - e.pos)
        match e.kind with
        | 1 =>
          let r := State.copyLines { x with who := .mover } left s g (e.src + 128 * e.pos) (e.dst + 128 * e.pos)
          r.2.2.2.entryEnds r.2.2.1 x i r.1 r.2.1 total
        | 2 =>
          let r := State.touchLines x left s g (e.src + 128 * e.pos)
          r.2.2.2.entryEnds r.2.2.1 x i r.1 r.2.1 total
        | 3 =>
          if !e.racked then s.rackEntry g x i e
          else
            let r := State.touchLines x left s g (e.src + 128 * e.pos)
            r.2.2.2.entryEnds r.2.2.1 x i r.1 r.2.1 total
        | _ =>
          match (s.collDone.get [] (stack * 4096 + t.jobTag)).find? fun d => decide (d.1 = e.src) with
          | none => s
          | some d =>
            if d.2.1 ≠ St.ok ∧ d.2.1 ≠ St.okDelayed then s.roundFail g i d.2.1
            else
              let r := State.touchLines x left s g (e.dst + 128 * e.pos)
              r.2.2.2.entryEnds r.2.2.1 x i r.1 r.2.1 total
  | _, _ => s)

end Sys2Proof.Machine
end

