-- ==== Sys2Proof/Machine/Removal.lean ====
section
/-!
DEFINITION. Removing and inserting cartridges (R590, R593 to R601), the attention button and the display (R591, R592), and
what the lights show (Tables 20-5 and 20-6).
-/
namespace Sys2Proof.Machine

/-! ### Attention and display -/

/-- ATTENTION_PRESS: the attention button is released after a press of `ms` milliseconds (R591). -/
def execAttentionPress (ms : Nat) (s : State) : Out :=
  let page := Page.servicePanel
  .next (if 50 ≤ ms ∧ ms ≤ 2000 then
    (s.setFld page Reg.SP_STAT 63 32 ((s.fld page Reg.SP_STAT 63 32 + 1) % 2 ^ 32)).genEvent page 0x02F0 0 0
  else s)

/-- Sets the identify light; a change is posted where the button made it (R591). -/
def State.identify (s : State) (on : Nat) (button : Bool) : State :=
  let page := Page.servicePanel
  let s := s.setFld page Reg.SP_STAT 0 0 on
  if button then s.genEvent page 0x02F1 0 (place 0 0 on) else s

/-- ATTENTION_HOLD: a press reaches 5 s (R591). -/
def execAttentionHold (s : State) : Out := .next (s.identify (1 - s.fld Page.servicePanel Reg.SP_STAT 0 0) true)

/-- IDENTIFY_WRITE: a write of SP_STAT (R591). -/
def execIdentifyWrite (i : Ident) (v : Word) (s : State) : Out :=
  .next (s.writeVia i Page.servicePanel Reg.SP_STAT v fun s => s.identify (bits v 0 0) false)

/-- DISPLAY_ACK: the display's control acknowledges the event shown, with its CODE and SOURCE (R592). -/
def execDisplayAck (code source : Nat) (s : State) : Out :=
  .next (s.genEvent Page.servicePanel 0x02F2 0 (place 15 0 code ||| place 63 32 source))

/-! ### Removal requests -/

/-- A bay's removal request waits for its turn (R594, R596). -/
def State.removeQueued (s : State) (b : Nat) : State :=
  let s := s.modBay b fun x => { x with queued := s.useCtr }
  let s := { s with useCtr := s.useCtr + 1 }
  (s.setRemoval b 2).setFld Page.servicePanel (Reg.REMOVE_STATE + 16 * b) 30 16 0

/-- The valid partitions whose pool descriptor at the bay has a capacity (R594). -/
def State.poolOwners (s : State) (b : Nat) : List Nat :=
  (List.range 64).filter fun p => decide (s.fld Page.device (partOff p 0) 63 63 = 1)
    && (match s.poolAddr (Page.bay b) p with
      | some a => decide (s.mem.readNat (a + 8) 4 ≠ 0)
      | none => false)

/-- A removal request starts: the partitions with a pool at the bay are asked (R594). -/
def State.removeStart (s : State) (b : Nat) : State :=
  let page := Page.servicePanel
  let ps := s.poolOwners b
  let mask := ps.foldl (fun m p => m + 2 ^ p) 0
  let s := (s.setBayStat b 0 0 1).setRemoval b 1
  let s := (s.setReg page (Reg.REMOVE_ASKED + 16 * b) (BitVec.ofNat 64 mask)).setFld page (Reg.REMOVE_STATE + 16 * b) 30 16 30000
  let s := s.modBay b fun x => { x with askedAt := s.panelTime.toNat, asked := mask }
  let s := ps.foldl (fun s p => s.genEvent page 0x02F3 p (place 3 0 b)) s
  if ps = [] then s.removeQueued b else s

/-- The bay removes the cartridge's power and enters OFF, with BAY_REMOVED (R598, R599). -/
def State.bayPowerOff (s : State) (b : Nat) (absent : Bool) : State :=
  let page := Page.bay b
  let s := ((s.enterState page PS.off).mirrorsDegrade b true).bayDown b absent
  (s.setFld page Reg.VER_ACTIVE 15 0 0).genEvent page 0x02F6 0 (place 3 0 b)

/-- A QUIESCED bay returns to READY with a new epoch (R566, R597). -/
def State.bayResume (s : State) (b : Nat) : State :=
  let page := Page.bay b
  let s := s.modBay b fun x => { x with evacDone := false, removable := false }
  (s.setFld page Reg.PAGE_CTL 1 1 0).enterState page PS.ready

/-- BAY_BUTTON_PRESS: a press of `ms` milliseconds of a bay's button (R591, R594, R597, R599). -/
def execBayButtonPress (b ms : Nat) (s : State) : Out :=
  let b := b % 16
  let st := s.pageState (Page.bay b)
  .next (if ms < 50 ∨ s.bayStat b 1 1 = 0 then s
  else match s.removal b with
    | 0 =>
      if st = PS.ready then s.removeStart b
      else if st = PS.init ∨ st = PS.faulted then s.bayPowerOff b false
      else s
    | 1 => s.removeEnd b 3 0
    | 2 => s.removeEnd b 3 0
    | 3 => if s.bayStat b 5 5 = 1 then s.bayEvacCancel b else s
    | _ => if st = PS.quiesced then (s.bayResume b).removeEnd b 3 0 else s)

/-- A write of REMOVE_ANSWER (R595). -/
def removeAnswerEff (i : Ident) (v : Word) (s : State) : State :=
  let page := Page.servicePanel
  let b := bits v 11 8
  let answer := bits v 1 0
  let asked := (s.reg page (Reg.REMOVE_ASKED + 16 * b)).toNat
  let status := fun (s : State) (st : Nat) => s.setFld page (Reg.REMOVE_STATE + 16 * b) 63 56 st
  let mine := match identPart i with
    | some p => asked.testBit p
    | none => true
  if answer = 0 ∨ answer = 3 then s
  else if s.removal b ≠ 1 ∨ !mine then status s St.permissionFault
  else if bits v 63 48 ≠ s.epoch (Page.bay b) then status s St.epochStale
  else
    let s := status s St.ok
    if answer = 2 then s.removeEnd b 1 ((identPart i).getD ((lowestSet 64 asked).getD 0))
    else
      let left := match identPart i with
        | some p => asked - 2 ^ p
        | none => 0
      let s := s.setReg page (Reg.REMOVE_ASKED + 16 * b) (BitVec.ofNat 64 left)
      if left = 0 then s.removeQueued b else s

/-- REMOVE_ANSWER: a partition, or the management port for all, answers a removal request (R595). -/
def execRemoveAnswer (i : Ident) (v : Word) (s : State) : Out :=
  .next (s.writeVia i Page.servicePanel Reg.REMOVE_ANSWER v (removeAnswerEff i v))

/-- CONSENT_TIMEOUT: 30 s have passed without a refusal (R594). -/
def execConsentTimeout (b : Nat) (s : State) : Out :=
  let b := b % 16
  .next (if s.removal b = 1 ∧ (s.bay b).askedAt + 30000000000 ≤ s.panelTime.toNat then s.removeQueued b else s)

/-- EVAC_QUEUE_START: the request that has waited longest starts its evacuation once no bay evacuates (R594, R596). -/
def execEvacQueueStart (b : Nat) (s : State) : Out :=
  let b := b % 16
  let first := (List.range 16).all fun c => decide (s.removal c ≠ 2 ∨ (s.bay b).queued ≤ (s.bay c).queued)
  let idle := (List.range 16).all fun c => decide (s.bayStat c 5 5 = 0)
  .next (if s.removal b = 2 ∧ first ∧ idle then (s.setRemoval b 3).bayEvac b false else s)

/-! ### Latches and cartridges -/

/-- A cartridge leaves its bay, or its link drops (R332, R598 to R601). A bay that has been evacuated and has QUIESCED loses
nothing; one that was not admitted enters OFF once the cartridge is absent. -/
def State.bayGone (s : State) (b : Nat) (absent : Bool) : State :=
  let page := Page.bay b
  let st := s.pageState page
  if st = PS.off then (if absent then s.setBayStat b 1 1 0 else s)
  else if st = PS.init ∨ st = PS.reset ∨ st = PS.faulted then
    if absent then (s.enterState page PS.off).bayDown b true
    else if st = PS.faulted then s else s.bayLost b false
  else if st = PS.quiesced ∧ (s.bay b).evacDone then
    if absent then (s.setRemoval b 0).bayPowerOff b true else s
  else s.bayLost b absent

/-- LATCH_OPEN: a bay's latch opens; `absent` says that the cartridge is out already (R598, R600, R601). A SAFE bay removes
the power; a cartridge that was never admitted counts as pulled. -/
def execLatchOpen (b : Nat) (absent : Bool) (s : State) : Out :=
  let b := b % 16
  let page := Page.bay b
  let s := s.setBayStat b 2 2 0
  let st := s.pageState page
  .next (if st = PS.quiesced ∧ (s.bay b).evacDone then (s.setRemoval b 0).bayPowerOff b absent
  else if st = PS.init ∨ st = PS.reset then s.bayGone b true
  else s.bayGone b absent)

/-- BAY_SURPRISE_REMOVAL: a bay's link drops without a completed evacuation (R332, R600). -/
def execBaySurpriseRemoval (b : Nat) (absent : Bool) (s : State) : Out := .next (s.bayGone (b % 16) absent)

/-- CARTRIDGE_INSERT: a cartridge is present with the latch closed: the bay powers it, trains the link, negotiates the
mailbox version and reads OLM_IDENTIFY (R601, R627). `width` is zero where training fails; `advert` is the cartridge's
advertisement in the layout of VER_SUPPORT; the rest describes the cartridge (log row 37). Before phase 6 of a start-up the
cartridge is only sensed, and in phase 6 AUTO_ADMIT admits it (R582). -/
def execCartridgeInsert (b width rate : Nat) (advert : Word) (capacity : Nat) (sane fit : Bool) (s : State) : Out :=
  let b := b % 16
  let page := Page.bay b
  .next (if s.pageState page ≠ PS.off then s
  else if s.boot.running && decide (s.fld Page.pmc Reg.BOOT_STAT 3 0 < 6 ∨ s.fld Page.pmc Reg.BOOT_STAT 3 0 = 15)
      || s.unpowered.contains (Page.portDie (b / 4)) then
    (s.setBayStat b 1 1 1).setBayStat b 2 2 1
  else
    let s := ((s.setBayStat b 1 1 1).setBayStat b 2 2 1).setFld page Reg.PAGE_CTL 1 1 0
    let s := s.modBay b fun _ => { lostCopy := (s.bay b).lostCopy, reported := capacity, sane := sane, fit := fit, rate := rate }
    let version := negotiate (sideOf (s.reg page Reg.VER_SUPPORT).toNat) (sideOf advert.toNat)
    if width = 0 then (s.setBayStat b 63 56 St.timeout).enterState page PS.faulted
    else
      let s := ((s.setBayStat b 3 3 1).setBayStat b 20 16 width).refreshBayRate b
      if version = 0 then (s.setBayStat b 63 56 St.versionMismatch).enterState page PS.faulted
      else
        let s := (s.setFld page Reg.VER_ACTIVE 15 0 version).modBay b fun x => { x with capacity := min capacity 0x20000000000 }
        let s := (s.enterState page PS.init).genEvent page 0x02F5 0 (place 3 0 b)
        if s.fld Page.pmc Reg.BOOT_STAT 3 0 = 6 ∧ s.fld Page.pmc Reg.BOOT_CFG 0 0 = 1 then s.bayAdmit b false else s)

/-! ### Lights -/

/-- What a light shows. -/
inductive Light where
  | off | amber | amberBlinking | green | greenBlinking
  deriving DecidableEq, Repr

/-- The light of a bay (Table 20-5, R593). -/
def State.bayLight (s : State) (b : Nat) : Light :=
  let st := s.pageState (Page.bay b)
  let ended := match (s.bay b).endedAt with
    | some t => decide (s.panelTime.toNat < t + 60000000000)
    | none => false
  if s.bayStat b 1 1 = 0 ∨ st = PS.quiesced ∨ st = PS.off then .off
  else if 1 ≤ s.removal b ∧ s.removal b ≤ 3 then .amberBlinking
  else if st = PS.faulted ∨ (st = PS.init ∧ s.bayStat b 63 56 ≠ 0) ∨ s.bayStat b 33 32 ≠ 0 ∨ ended = true then .amber
  else if st = PS.init ∨ st = PS.reset then .greenBlinking
  else if st = PS.ready then .green
  else .off

/-- The light of a fabric port (Table 20-6, R593). -/
def State.portLight (s : State) (f : Nat) : Light :=
  if !(s.fabPort f).cable then .off
  else if 1 ≤ s.lstate f ∧ s.lstate f ≤ 3 then .amber
  else if s.lstate f = 4 then .green
  else if [St.versionMismatch, St.inputCorrupt].contains (s.fld (Page.fabricPort f) 0x108 63 56) then .amberBlinking
  else .off

end Sys2Proof.Machine
end

