-- ==== Sys2Proof/Machine/VectorInt.lean ====
section
/-!
DEFINITION. VSETVL and the integer, logic, shift, compare and mask-logic vector instructions (R141, R148 to
R151, R192).
-/
namespace Sys2Proof.Machine

/-- VSETVL (R141): EW 0b11 is reserved. -/
def semVsetvl (s : State) (c : Nat) (k : Core) (w : Word) : Issue :=
  let ew := bits w 1 0
  if k.vstart ≠ 0 ∨ ew = 3 ∨ bits w 45 2 ≠ 0 then .il
  else
    let vl := min (k.rx (Ins.a w)).toNat (2048 / ewBits ew)
    coreDone s c ({ k with vtype := ew, vl := vl }.wx (Ins.d w) (BitVec.ofNat 64 vl))

/-- VSETVL (R141). -/
def execVsetvl (c : Nat) (s : State) : Out := .next (s.issue c .vsetvl (semVsetvl s c))

/-- An exact integer result kept in EW bits under MODE 0 WRAP, 1 SSAT or 2 USAT (R148). -/
def satInt (w mode : Nat) (x : Int) : Conv :=
  let p : Int := ((2 ^ (w - 1) : Nat) : Int)
  let q : Int := ((2 ^ w : Nat) : Int)
  if mode = 1 then
    if x < -p then ⟨unsigned w (-p), { sat := true }⟩
    else if p - 1 < x then ⟨unsigned w (p - 1), { sat := true }⟩
    else ⟨unsigned w x, {}⟩
  else if mode = 2 then
    if x < 0 then ⟨0, { sat := true }⟩
    else if q - 1 < x then ⟨unsigned w (q - 1), { sat := true }⟩
    else ⟨unsigned w x, {}⟩
  else ⟨unsigned w x, {}⟩

/-- One element of OPC 0x21 by FN and MODE (R148). USAT reads the operands unsigned, SSAT signed. -/
def intElem (w fn mode a b : Nat) : Conv :=
  let sa := signed w a
  let sb := signed w b
  let ia : Int := if mode = 2 then (a : Int) else sa
  let ib : Int := if mode = 2 then (b : Int) else sb
  match fn with
  | 0 => satInt w mode (ia + ib)
  | 1 => satInt w mode (ia - ib)
  | 2 => satInt w mode (ia * ib)
  | 3 => ⟨unsigned w (sa * sb / ((2 ^ w : Nat) : Int)), {}⟩
  | 4 => ⟨a * b / 2 ^ w % 2 ^ w, {}⟩
  | 5 => ⟨if sa < sb then a else b, {}⟩
  | 6 => ⟨if sa < sb then b else a, {}⟩
  | 7 => ⟨if a < b then a else b, {}⟩
  | _ => ⟨if a < b then b else a, {}⟩

/-- OPC 0x21: MODE is 0 to 2 for FN 0 to 2 and zero otherwise (R193). -/
def semVaddVsubVmul (s : State) (c : Nat) (k : Core) (w : Word) : Issue :=
  let mode := bits w 1 0
  if k.vstart ≠ 0 ∨ !maskPolicy w ∨ !zf w 40 36 ∨ !zf w 30 27 ∨ !zf w 25 16 ∨ !zf w 7 2 ∨ mode = 3
      ∨ (2 < Ins.fnV w ∧ mode ≠ 0) then .il
  else elementwise s c k w fun i => intElem k.ew (Ins.fnV w) mode (k.elem (Ins.a w) k.ew i) (operandB k w i)

/-- VADD_VSUB_VMUL (R148). -/
def execVaddVsubVmul (c : Nat) (s : State) : Out := .next (s.issue c .vaddVsubVmul (semVaddVsubVmul s c))

/-- One element of OPC 0x22 by FN: AND, OR, XOR, ANDN (R150). -/
def logicElem (w fn a b : Nat) : Nat :=
  match fn with
  | 0 => a &&& b
  | 1 => a ||| b
  | 2 => a ^^^ b
  | _ => a &&& (2 ^ w - 1 - b)

/-- OPC 0x22 (R192). -/
def semVandVorVxor (s : State) (c : Nat) (k : Core) (w : Word) : Issue :=
  if k.vstart ≠ 0 ∨ !maskPolicy w ∨ !zf w 40 36 ∨ !zf w 30 27 ∨ !zf w 25 16 ∨ !zf w 7 0 then .il
  else elementwise s c k w fun i => ⟨logicElem k.ew (Ins.fnV w) (k.elem (Ins.a w) k.ew i) (operandB k w i), {}⟩

/-- VAND_VOR_VXOR (R192). -/
def execVandVorVxor (c : Nat) (s : State) : Out := .next (s.issue c .vandVorVxor (semVandVorVxor s c))

/-- One element of OPC 0x23 by FN: the amount is bits [7:0] of operand B (R149, R150). -/
def shiftElem (w fn x b : Nat) : Nat :=
  let n := b % 256
  let sx := signed w x
  match fn with
  | 0 => if w ≤ n then 0 else (x <<< n) % 2 ^ w
  | 1 => if w ≤ n then 0 else x >>> n
  | 2 => unsigned w (sx / ((2 ^ (min n w) : Nat) : Int))
  | 3 => if n = 0 then x else if w ≤ n then 0 else (x + 2 ^ (n - 1)) / 2 ^ n
  | _ =>
    if n = 0 then x
    else if w ≤ n then (if sx < 0 ∧ w < n then 2 ^ w - 1 else 0)
    else unsigned w ((sx + ((2 ^ (n - 1) : Nat) : Int)) / ((2 ^ n : Nat) : Int))

/-- OPC 0x23 (R149, R150). -/
def semVshift (s : State) (c : Nat) (k : Core) (w : Word) : Issue :=
  if k.vstart ≠ 0 ∨ !maskPolicy w ∨ !zf w 40 36 ∨ !zf w 30 27 ∨ !zf w 25 16 ∨ !zf w 7 0 then .il
  else elementwise s c k w fun i => ⟨shiftElem k.ew (Ins.fnV w) (k.elem (Ins.a w) k.ew i) (operandB k w i), {}⟩

/-- VSHIFT (R149). -/
def execVshift (c : Nat) (s : State) : Out := .next (s.issue c .vshift (semVshift s c))

/-- The integer compares by FN: EQ, NE, LT, LE, GT, GE (R151). -/
def intCompare (fn : Nat) (a b : Int) : Bool :=
  match fn with
  | 0 => a = b
  | 1 => a ≠ b
  | 2 => a < b
  | 3 => a ≤ b
  | 4 => b < a
  | _ => b ≤ a

/-- VCMP: kd in bits [53:51], IMM8[0] UNS (R151, R181). -/
def semVcmp (s : State) (c : Nat) (k : Core) (w : Word) : Issue :=
  if k.vstart ≠ 0 ∨ !maskPolicy w ∨ !zf w 55 54 ∨ !zf w 40 36 ∨ !zf w 30 27 ∨ !zf w 25 16 ∨ !zf w 7 1 then .il
  else compareInto s c k w fun i =>
    let a := k.elem (Ins.a w) k.ew i
    let b := operandB k w i
    if bit w 0 then intCompare (Ins.fnV w) a b else intCompare (Ins.fnV w) (signed k.ew a) (signed k.ew b)

/-- VCMP (R151). -/
def execVcmp (c : Nat) (s : State) : Out := .next (s.issue c .vcmp (semVcmp s c))

/-- The floating-point compares by FN: EQ, NE, LT, LE, GT, GE, UNORD (R151). -/
def fpCompare (fn : Nat) (a b : FVal) : Bool :=
  let un := decide (a = .nan ∨ b = .nan)
  match fn with
  | 0 => a.eqv b
  | 1 => un || !a.eqv b
  | 2 => a.lt b
  | 3 => a.lt b || a.eqv b
  | 4 => b.lt a
  | 5 => b.lt a || a.eqv b
  | _ => un

/-- VFCMP: no flag is set (R151). -/
def semVfcmp (s : State) (c : Nat) (k : Core) (w : Word) : Issue :=
  match vecFmt k w with
  | none => .il
  | some f =>
    if k.vstart ≠ 0 ∨ !maskPolicy w ∨ !zf w 55 54 ∨ !zf w 40 36 ∨ !zf w 30 27 ∨ !zf w 20 16 ∨ !zf w 7 0 then .il
    else compareInto s c k w fun i =>
      fpCompare (Ins.fnV w) (f.decode (k.elem (Ins.a w) k.ew i)) (f.decode (operandB k w i))

/-- VFCMP (R151). -/
def execVfcmp (c : Nat) (s : State) : Out := .next (s.issue c .vfcmp (semVfcmp s c))

/-- KAND, KOR, KXOR, KANDN and KNOT by FN, on all 256 bits (R147, R192). -/
def kOp (fn : Nat) (a b : BitVec 256) : BitVec 256 :=
  match fn with
  | 0 => a &&& b
  | 1 => a ||| b
  | 2 => a ^^^ b
  | 3 => a &&& ~~~b
  | _ => ~~~a

/-- KLOGIC: bits [4:3] of each mask register field are reserved, and KNOT has no kb (R181, R192). -/
def semKlogic (s : State) (c : Nat) (k : Core) (w : Word) : Issue :=
  if k.vstart ≠ 0 ∨ !maskNone w ∨ !zf w 55 54 ∨ !zf w 50 49 ∨ !zf w 45 44 ∨ !zf w 40 36 ∨ !zf w 30 16 ∨ !zf w 7 0
      ∨ (Ins.fnV w = 4 ∧ Ins.b w ≠ 0) then .il
  else coreDone s c (k.wk (Ins.d w) (kOp (Ins.fnV w) (k.rk (Ins.a w)) (k.rk (Ins.b w))))

/-- KLOGIC (R192). -/
def execKlogic (c : Nat) (s : State) : Out := .next (s.issue c .klogic (semKlogic s c))

end Sys2Proof.Machine
end

