-- ==== Sys2Proof/Machine/VectorPerm.lean ====
section
/-!
DEFINITION. Reductions, permutes, compress, expand and summaries (R164 to R170, R192, R193).
-/
namespace Sys2Proof.Machine

/-- One level of the reduction tree (R164). -/
def treeLevel {α : Type} (f : α → α → α) : List (Option α) → List (Option α)
  | a :: b :: t =>
    (match a, b with
      | some x, some y => some (f x y)
      | some x, none => some x
      | none, y => y) :: treeLevel f t
  | t => t

/-- The reduction tree of R164 over 2^n elements. -/
def treeReduce {α : Type} (f : α → α → α) : Nat → List (Option α) → Option α
  | 0, l => (l.headD none)
  | n + 1, l => treeReduce f n (treeLevel f l)

/-- The participating elements of a reduction; the others are absent (R164). -/
def Core.participants (k : Core) (w : Word) : List (Option Nat) :=
  (List.range k.vlmax).map fun i =>
    if i < k.vl && k.active (Ins.msel w) i then some (k.elem (Ins.a w) k.ew i) else none

/-- Writes a reduction result to the low bits of vd (R164, R165). -/
def Core.writeLow (k : Core) (r wr x : Nat) : Core := k.wv r (setLow (k.rv r) wr x)
where
  /-- Replaces the low wr bits of a register. -/
  setLow (v : BitVec 2048) (wr x : Nat) : BitVec 2048 :=
    BitVec.ofNat 2048 (v.toNat - v.toNat % 2 ^ wr + x % 2 ^ wr)

/-- VREDSUM, VREDMAX and VREDMIN of TYPE 0 or 1 (R165): result width and value. -/
def redInt (k : Core) (w : Word) (isSigned : Bool) : Nat × Nat :=
  let ew := k.ew
  let ext := fun e => if isSigned then unsigned 32 (signed ew e) else e
  let key := fun (e : Nat) => if isSigned then signed ew e else (e : Int)
  let ps := k.participants w
  match Ins.fnV w with
  | 0 => (32, (treeReduce (fun a b => (a + b) % 2 ^ 32) 8 (ps.map (Option.map ext))).getD 0)
  | 1 => (ew, (treeReduce (fun a b => if key a < key b then b else a) 8 ps).getD
      (if isSigned then 2 ^ (ew - 1) else 0))
  | _ => (ew, (treeReduce (fun a b => if key b < key a then b else a) 8 ps).getD
      (if isSigned then 2 ^ (ew - 1) - 1 else 2 ^ ew - 1))

/-- Floating-point VREDSUM: elements widened to FP32 and combined under the rounding field (R165). -/
def redSum (k : Core) (w : Word) (f : Fmt) (m : Rnd) : Conv :=
  let ps := (k.participants w).map (Option.map fun e =>
    (⟨(Fmt.fp32.encode .rne false 0 (f.decode e)).code, {}⟩ : Conv))
  let comb := fun (a b : Conv) =>
    let r := Fmt.fp32.finish m 0 ((Fmt.fp32.decode a.code).add m (Fmt.fp32.decode b.code))
    (⟨r.code, (a.flags.or b.flags).or { r.flags with nf := 0 }⟩ : Conv)
  let r := (treeReduce comb 8 ps).getD ⟨0, {}⟩
  ⟨r.code, { r.flags with nf := if (Fmt.fp32.decode r.code).nonFinite then 1 else 0 }⟩

/-- Floating-point VREDMAX and VREDMIN (R153, R165). -/
def redMinmax (k : Core) (w : Word) (f : Fmt) (isMax : Bool) : Conv :=
  let ps := (k.participants w).map (Option.map f.decode)
  fpCopy f ((treeReduce (FVal.minmax isMax) 8 ps).getD (.inf isMax))

/-- VRED: TYPE in IMM8[1:0]; FS and RND are reserved outside their TYPE (R165, R193). An empty reduction
writes the value R165 gives, with VL = 0 as well (log row 6). -/
def semVred (s : State) (c : Nat) (k : Core) (w : Word) : Issue :=
  let ty := bits w 1 0
  if k.vstart ≠ 0 ∨ !maskSelects w ∨ !zf w 45 36 ∨ !zf w 27 26 ∨ !zf w 20 16 ∨ !zf w 7 2 ∨ ty = 3 then .il
  else if ty < 2 then
    if Ins.fs w ≠ 0 ∨ Ins.rnd w ≠ 0 then .il
    else let r := redInt k w (ty = 0); coreDone s c (k.writeLow (Ins.d w) r.1 r.2)
  else match vecFmt k w, Rnd.ofField (Ins.rnd w) with
    | some f, some m =>
      if Ins.fnV w = 0 then
        if m = .sr then .il
        else
          let r := redSum k w f m
          coreDone s c ((k.writeLow (Ins.d w) 32 r.code).raise r.flags)
      else if m ≠ .rne then .il
      else
        let r := redMinmax k w f (Ins.fnV w = 1)
        coreDone s c ((k.writeLow (Ins.d w) k.ew r.code).raise (if k.vl = 0 then {} else r.flags))
    | _, _ => .il

/-- VRED (R164). -/
def execVred (c : Nat) (s : State) : Out := .next (s.issue c .vred (semVred s c))

/-- VPERM: an index of VLMAX or more writes zero (R166). -/
def semVperm (s : State) (c : Nat) (k : Core) (w : Word) : Issue :=
  if k.vstart ≠ 0 ∨ !maskPolicy w ∨ !zf w 40 36 ∨ !zf w 30 16 ∨ !zf w 7 0 then .il
  else elementwise s c k w fun i =>
    let j := k.elem (Ins.b w) k.ew i
    ⟨if j < k.vlmax then k.elem (Ins.a w) k.ew j else 0, {}⟩

/-- VPERM (R166). -/
def execVperm (c : Nat) (s : State) : Out := .next (s.issue c .vperm (semVperm s c))

/-- The immediate IMM8, or scalar register xb with VS = 1; the field not used is reserved (R192). -/
def immOrX (k : Core) (w : Word) : Option Nat :=
  if Ins.vs w then (if zf w 7 0 then some (k.rx (Ins.b w)).toNat else none)
  else if Ins.b w = 0 then some (Ins.imm8 w) else none

/-- VSLIDE.UP and VSLIDE.DN, FN 1 and 2 (R166). -/
def semVslide (s : State) (c : Nat) (k : Core) (w : Word) : Issue :=
  match immOrX k w with
  | none => .il
  | some n =>
    if k.vstart ≠ 0 ∨ !maskPolicy w ∨ !zf w 40 36 ∨ !zf w 30 27 ∨ !zf w 25 16 then .il
    else if Ins.fnV w = 1 then
      let v := packV k.ew ((List.range k.vlmax).map fun i =>
        let old := k.elem (Ins.d w) k.ew i
        if k.vl ≤ i ∨ i < n then old
        else if k.active (Ins.msel w) i then k.elem (Ins.a w) k.ew (i - n)
        else if Ins.pol w then 0 else old)
      coreDone s c (k.wv (Ins.d w) v)
    else elementwise s c k w fun i => ⟨if i + n < k.vl then k.elem (Ins.a w) k.ew (i + n) else 0, {}⟩

/-- VSLIDE (R166). -/
def execVslide (c : Nat) (s : State) : Out := .next (s.issue c .vslide (semVslide s c))

/-- VBCAST: xb with VS = 1, or element IMM8 of va (R166). -/
def semVbcast (s : State) (c : Nat) (k : Core) (w : Word) : Issue :=
  if k.vstart ≠ 0 ∨ !maskPolicy w ∨ !zf w 40 36 ∨ !zf w 30 27 ∨ !zf w 25 16
      ∨ (Ins.vs w ∧ (Ins.a w ≠ 0 ∨ Ins.imm8 w ≠ 0)) ∨ (!Ins.vs w ∧ Ins.b w ≠ 0) then .il
  else
    let x := if Ins.vs w then (k.rx (Ins.b w)).toNat % 2 ^ k.ew
      else if Ins.imm8 w < k.vlmax then k.elem (Ins.a w) k.ew (Ins.imm8 w) else 0
    elementwise s c k w fun _ => ⟨x, {}⟩

/-- VBCAST (R166). -/
def execVbcast (c : Nat) (s : State) : Out := .next (s.issue c .vbcast (semVbcast s c))

/-- VEXT: element j of va, zero-extended; an index of VLMAX or more gives zero (R166). -/
def semVext (s : State) (c : Nat) (k : Core) (w : Word) : Issue :=
  match immOrX k w with
  | none => .il
  | some j =>
    if k.vstart ≠ 0 ∨ !maskNone w ∨ !zf w 40 36 ∨ !zf w 30 27 ∨ !zf w 25 16 then .il
    else
      let x := if j < k.vlmax then k.elem (Ins.a w) k.ew j else 0
      coreDone s c (k.wx (Ins.d w) (BitVec.ofNat 64 x))

/-- VEXT (R166). -/
def execVext (c : Nat) (s : State) : Out := .next (s.issue c .vext (semVext s c))

/-- COMPRESS (R167). -/
def semCompress (s : State) (c : Nat) (k : Core) (w : Word) : Issue :=
  if k.vstart ≠ 0 ∨ !maskNamed w ∨ !zf w 45 36 ∨ !zf w 30 16 ∨ !zf w 7 0 then .il
  else
    let sel := (k.activeIdx k.vl (Ins.msel w)).map fun i => k.elem (Ins.a w) k.ew i
    let v := packV k.ew ((List.range k.vlmax).map fun i =>
      let old := k.elem (Ins.d w) k.ew i
      match sel[i]? with
      | some e => e
      | none => if i < k.vl && Ins.pol w then 0 else old)
    coreDone s c (k.wv (Ins.d w) v)

/-- COMPRESS (R167). -/
def execCompress (c : Nat) (s : State) : Out := .next (s.issue c .compress (semCompress s c))

/-- EXPAND (R168). -/
def semExpand (s : State) (c : Nat) (k : Core) (w : Word) : Issue :=
  if k.vstart ≠ 0 ∨ !maskNamed w ∨ !zf w 45 36 ∨ !zf w 30 16 ∨ !zf w 7 0 then .il
  else elementwise s c k w fun i => ⟨k.elem (Ins.a w) k.ew (k.activeIdx i (Ins.msel w)).length, {}⟩

/-- EXPAND (R168). -/
def execExpand (c : Nat) (s : State) : Out := .next (s.issue c .expand (semExpand s c))

/-- COUNT, ANY, ALL and FIRST by FN (Table 5-8). -/
def maskSummary (fn vl : Nat) (m : Nat) : Word :=
  match fn with
  | 0 => BitVec.ofNat 64 (popcount vl m)
  | 1 => if 0 < popcount vl m then 1 else 0
  | 2 => if popcount vl m = vl then 1 else 0
  | _ => match lowestSet vl m with
    | some i => BitVec.ofNat 64 i
    | none => BitVec.allOnes 64

/-- MASK_SUMMARY: the mask must be named and POL zero (R169). -/
def semMaskSummary (s : State) (c : Nat) (k : Core) (w : Word) : Issue :=
  if k.vstart ≠ 0 ∨ !maskNamed w ∨ Ins.pol w ∨ !zf w 50 36 ∨ !zf w 30 16 ∨ !zf w 7 0 then .il
  else coreDone s c (k.wx (Ins.d w) (maskSummary (Ins.fnV w) k.vl (k.rk (Ins.msel w % 8)).toNat))

/-- MASK_SUMMARY (R169). -/
def execMaskSummary (c : Nat) (s : State) : Out := .next (s.issue c .maskSummary (semMaskSummary s c))

/-- The index of the best element of a list of (index, element) pairs, the first one on ties (R170). -/
def bestIdx {α : Type} (better : α → α → Bool) : List (Nat × α) → Option (Nat × α)
  | [] => none
  | p :: t => some (t.foldl (fun b q => if better q.2 b.2 then q else b) p)

/-- MAXIDX and MINIDX, FN 4 and 5: NaN elements are ignored, −0 orders below +0 (R153, R170). -/
def semMaxidxMinidx (s : State) (c : Nat) (k : Core) (w : Word) : Issue :=
  let ty := bits w 1 0
  let isMax := decide (Ins.fnV w = 4)
  let out := fun (i : Option Nat) => coreDone s c (k.wx (Ins.d w) (match i with
    | some i => BitVec.ofNat 64 i
    | none => BitVec.allOnes 64))
  let es := (k.activeIdx (min k.vl k.vlmax) (Ins.msel w)).map fun i => (i, k.elem (Ins.a w) k.ew i)
  if k.vstart ≠ 0 ∨ !maskSelects w ∨ !zf w 45 36 ∨ !zf w 30 26 ∨ !zf w 20 16 ∨ !zf w 7 2 ∨ ty = 3 then .il
  else if ty < 2 then
    if Ins.fs w ≠ 0 then .il
    else
      let key := fun (e : Nat) => if ty = 0 then signed k.ew e else (e : Int)
      out ((bestIdx (fun a b => if isMax then decide (key b < key a) else decide (key a < key b)) es).map Prod.fst)
  else match vecFmt k w with
    | none => .il
    | some f =>
      let vs := (es.map fun p => (p.1, f.decode p.2)).filter fun p => decide (p.2 ≠ .nan)
      out ((bestIdx (fun a b => if isMax then b.ltTotal a else a.ltTotal b) vs).map Prod.fst)

/-- MAXIDX_MINIDX (R170). -/
def execMaxidxMinidx (c : Nat) (s : State) : Out := .next (s.issue c .maxidxMinidx (semMaxidxMinidx s c))

end Sys2Proof.Machine
end

