-- ==== Sys2Proof/Machine/VectorQuant.lean ====
section
/-!
DEFINITION. Block quantisation and dequantisation in the vector engine (R40 to R49, R160 to R163, R193).
-/
namespace Sys2Proof.Machine

/-- Block kind of a quantisation: FN of OPC 0x2C and FD. -/
def quantKind (fn fd : Nat) : BlockKind :=
  if fn = 1 then .ts4
  else if fn = 0 then .mx (match fd with | 0x01 => 8 | 0x02 => 15 | 0x03 => 2 | 0x04 => 4 | _ => 2)
  else .g8

/-- Elements per block of a block kind. -/
def blockLen : BlockKind → Nat
  | .ts4 => 64
  | _ => 32

/-- Side bytes per block of a block kind (R38). -/
def sideLen : BlockKind → Nat
  | .ts4 => 3
  | _ => 1

/-- The side entry of a quantised block, little-endian (R38, R44). -/
def sideEntry (k : BlockKind) (q : QBlock) : Nat :=
  match k with
  | .ts4 => q.scale + (packElems 4 q.refine <<< 8)
  | _ => q.scale

/-- The element format written by a quantisation: TS4 elements are E2M1, G8 elements E4M3 (R43, R46). -/
def quantFmt (fd : Nat) : Fmt := if fd = 0x09 then .e2m1 else (fmtOfCode fd).getD .e4m3

/-- Replaces n bits at position off of a vector register. -/
def setField (v : BitVec 2048) (off n x : Nat) : BitVec 2048 :=
  BitVec.ofNat 2048 (v.toNat - (natBits v.toNat (off + n - 1) off <<< off) + ((x % 2 ^ n) <<< off))

/-- The blocks of a source element list. -/
def blocksOf (len count : Nat) (xs : List FVal) : List (List FVal) :=
  (List.range count).map fun b => (xs.drop (b * len)).take len

/-- The checks that the four quantisations share (R160, R161, R193): source width N, SEG range, registers. -/
def quantOk (k : Core) (w : Word) (fdOk : Bool) : Bool :=
  let wd := codeWidth (Ins.fd w)
  let n := if Ins.fs w = 0x12 then 64 else 128
  let segs := 2048 / (n * wd)
  decide (k.vstart = 0) && maskNone w && zf w 27 26 && zf w 7 3 && fdOk
    && (Ins.fs w = 0x10 || Ins.fs w = 0x11 || Ins.fs w = 0x12) && decide (bits w 2 0 < segs)
    && decide (Ins.d w ≠ Ins.b w)

/-- Writes the blocks of a quantisation into segment SEG of vd and vside (R160). -/
def writeQuant (k : Core) (w : Word) (kind : BlockKind) (n : Nat) (qs : List QBlock) : Core :=
  let wd := codeWidth (Ins.fd w)
  let seg := bits w 2 0
  let dBits := 8 * sideLen kind * qs.length
  let codes := packElems wd (qs.flatMap QBlock.codes)
  let sides := packElems (8 * sideLen kind) (qs.map (sideEntry kind))
  let k := k.wv (Ins.d w) (setField (k.rv (Ins.d w)) (seg * (n * wd)) (n * wd) codes)
  (k.wv (Ins.b w) (setField (k.rv (Ins.b w)) (seg * dBits) dBits sides)).raise (sumFlags (qs.map QBlock.flags))

/-- VQ.MX, VQ.TS4 and VQ.G8 after their checks (R160, R161). -/
def quantise (s : State) (c : Nat) (k : Core) (w : Word) (m : Rnd) : Issue :=
  let f := quantFmt (Ins.fd w)
  let kind := quantKind (Ins.fnV w) (Ins.fd w)
  let ws := codeWidth (Ins.fs w)
  let n := 2048 / ws
  let xs := (List.range n).map fun i => decodeCode (Ins.fs w) (k.elem (Ins.a w) ws i)
  let seg := bits w 2 0
  let len := blockLen kind
  let qs := (blocksOf len (n / len) xs).zipIdx.map fun p =>
    quantBlock f kind m (fun i => k.srBits (seg * n + p.2 * len + i)) p.1
  coreDone s c ((writeQuant k w kind n qs).advanceSr m)

/-- VQ.MX: FD is an 8-, 6- or 4-bit MX element; SR is not allowed into 4 bits (R40, R159, R193). -/
def semVqMx (s : State) (c : Nat) (k : Core) (w : Word) : Issue :=
  match Rnd.ofField (Ins.rnd w) with
  | none => .il
  | some m =>
    if quantOk k w ([0x01, 0x02, 0x03, 0x04, 0x08].contains (Ins.fd w)) && Ins.c w = 0
        && !(decide (Ins.fd w = 0x08) && decide (m = .sr)) then quantise s c k w m
    else .il

/-- VQ_MX (R40). -/
def execVqMx (c : Nat) (s : State) : Out := .next (s.issue c .vqMx (semVqMx s c))

/-- VQ.TS4: FD is 0x09 and SR is not allowed (R45, R159, R193). -/
def semVqTs4 (s : State) (c : Nat) (k : Core) (w : Word) : Issue :=
  match Rnd.ofField (Ins.rnd w) with
  | none => .il
  | some m =>
    if quantOk k w (Ins.fd w = 0x09) && Ins.c w = 0 && !decide (m = .sr) then quantise s c k w m else .il

/-- VQ_TS4 (R45). -/
def execVqTs4 (c : Nat) (s : State) : Out := .next (s.issue c .vqTs4 (semVqTs4 s c))

/-- VQ.G8: FD is 0x01; RNE or SR only (R46, R161, R193). -/
def semVqG8 (s : State) (c : Nat) (k : Core) (w : Word) : Issue :=
  match Rnd.ofField (Ins.rnd w) with
  | none => .il
  | some m =>
    if quantOk k w (Ins.fd w = 0x01) && Ins.c w = 0 && (decide (m = .rne) || decide (m = .sr)) then quantise s c k w m
    else .il

/-- VQ_G8 (R46). -/
def execVqG8 (c : Nat) (s : State) : Out := .next (s.issue c .vqG8 (semVqG8 s c))

/-- The new residual of one element: the exact difference t − decode(q) rounded RNE to BF16 (R47). -/
def residual (scale code : Nat) (t : FVal) : Conv :=
  match t.add .rne (scaledVal .e4m3 scale 0 code).negate with
  | some v => Fmt.bf16.encode .rne false 0 v
  | none => ⟨0, {}⟩

/-- The core after VQ.G8L: t = g + lees, the blocks of t quantised, and the residuals written back unless a block holds a
non-finite t (R47, R48, R162). -/
def Core.g8l (k : Core) (w : Word) (m : Rnd) : Core :=
  let seg := bits w 2 0
  let base := 64 * (seg % 2)
  let ts := (List.range 64).map fun i =>
    Fmt.fp32.finish .rne 0
      ((Fmt.fp32.decode (k.elem (Ins.a w) 32 i)).add .rne (Fmt.bf16.decode (k.elem (Ins.c w) 16 (base + i))))
  let tv := ts.map fun r => Fmt.fp32.decode r.code
  let qs := (blocksOf 32 2 tv).zipIdx.map fun p =>
    quantBlock .e4m3 .g8 m (fun i => k.srBits (seg * 64 + p.2 * 32 + i)) p.1
  let res := (List.range 64).map fun i =>
    let q := qs.getD (i / 32) ⟨0xFF, [], [], {}⟩
    if q.scale = 0xFF then (⟨k.elem (Ins.c w) 16 (base + i), {}⟩ : Conv)
    else residual q.scale (q.codes.getD (i % 32) 0) (tv.getD i .nan)
  let tflags := sumFlags (ts.map fun r => { r.flags with nf := 0 })
  let rflags := sumFlags (res.map Conv.flags)
  let k' := writeQuant k w .g8 64 qs
  let lees := setField (k'.rv (Ins.c w)) (16 * base) 1024 (packElems 16 (res.map Conv.code))
  (((k'.wv (Ins.c w) lees).raise tflags).raise rflags).advanceSr m

/-- VQ.G8L: FD is 0x01 and FS FP32; RNE or SR only; the lees register is neither vd nor vside (R162, R193). -/
def semVqG8l (s : State) (c : Nat) (k : Core) (w : Word) : Issue :=
  match Rnd.ofField (Ins.rnd w) with
  | none => .il
  | some m =>
    if quantOk k w (Ins.fd w = 0x01) && Ins.fs w = 0x12 && (decide (m = .rne) || decide (m = .sr))
        && decide (Ins.c w ≠ Ins.d w) && decide (Ins.c w ≠ Ins.b w) then
      .done (s.setCore c (k.g8l w m)) (k.pc + 8)
    else .il

/-- VQ_G8L (R162). -/
def execVqG8l (c : Nat) (s : State) : Out := .next (s.issue c .vqG8l (semVqG8l s c))

/-- VDQ: segment SEG of vs with its side entries becomes N elements of vd (R163, R193). -/
def semVdq (s : State) (c : Nat) (k : Core) (w : Word) : Issue :=
  let wsrc := codeWidth (Ins.fs w)
  let wd := codeWidth (Ins.fd w)
  let n := 2048 / wd
  let ts4 := decide (Ins.fs w = 0x09)
  let seg := bits w 2 0
  match Rnd.ofField (Ins.rnd w) with
  | none => .il
  | some m =>
    if k.vstart ≠ 0 ∨ !maskNone w ∨ !zf w 40 36 ∨ !zf w 27 26 ∨ !zf w 7 3
        ∨ ! [0x01, 0x02, 0x03, 0x04, 0x08, 0x09].contains (Ins.fs w) ∨ ! [0x10, 0x11, 0x12].contains (Ins.fd w)
        ∨ 2048 / (n * wsrc) ≤ seg then .il
    else
      let f := quantFmt (Ins.fs w)
      let len := if ts4 then 64 else 32
      let sb := if ts4 then 24 else 8
      let side := fun i => natBits (k.rv (Ins.b w)).toNat ((seg * (n / len) + i / len) * sb + sb - 1)
        ((seg * (n / len) + i / len) * sb)
      let val := fun i =>
        let e := side i
        let r := if ts4 then natBits e (8 + 4 * (i % 64 / 16) + 3) (8 + 4 * (i % 64 / 16)) else 0
        encodeCode (Ins.fd w) m false (k.srBits i)
          (scaledVal f (e % 256) r (k.elem (Ins.a w) wsrc (seg * n + i) % 2 ^ f.width))
      let rs := (List.range n).map val
      coreDone s c (((k.advanceSr m).wv (Ins.d w) (packV wd (rs.map Conv.code))).raise (sumFlags (rs.map Conv.flags)))

/-- VDQ (R163). -/
def execVdq (c : Nat) (s : State) : Out := .next (s.issue c .vdq (semVdq s c))

end Sys2Proof.Machine
end

