-- ==== Sys2Proof/Machine/Blend.lean ====
section
/-!
DEFINITION. The blend engine (R238 to R267): arming, readiness, the update arithmetic of SGDM, ADAMW and SIGN, the PROG
kind, the working weights, both checking scopes, failures and reports.
-/
namespace Sys2Proof.Machine

/-! ### Descriptors (Table 8-3) -/

namespace Lg
/-- KIND. -/
def kind (d : List Byte) : Nat := leAt d 6 1
/-- FLAGS. -/
def flags (d : List Byte) : Nat := leAt d 7 1
/-- AVG_EN. -/
def avgEn (d : List Byte) : Bool := (flags d).testBit 0
/-- SCOPE = STEP. -/
def stepScope (d : List Byte) : Bool := (flags d).testBit 1
/-- WFMT = TS4. -/
def ts4 (d : List Byte) : Bool := leAt d 8 1 = 9
/-- WRND. -/
def wrnd (d : List Byte) : Rnd := (Rnd.ofField (leAt d 9 1)).getD .rne
/-- COLL_STACK. -/
def collStack (d : List Byte) : Nat := leAt d 10 1 % 64
/-- COLL_SEL. -/
def collSel (d : List Byte) : Bool := (leAt d 10 1).testBit 6
/-- COLL_SEQ. -/
def collSeq (d : List Byte) : Nat := leAt d 12 4
/-- NPARAM. -/
def nparam (d : List Byte) : Nat := leAt d 16 4
/-- NRES. -/
def nres (d : List Byte) : Nat := leAt d 20 4
/-- GROUP_ID. -/
def groupId (d : List Byte) : Nat := leAt d 24 4
/-- An address field. -/
def addr (d : List Byte) (off : Nat) : Nat := leAt d off 8
/-- MASTER_A. -/
abbrev masterA : Nat := 32
/-- MASTER_B. -/
abbrev masterB : Nat := 40
/-- MOM1. -/
abbrev mom1 : Nat := 48
/-- MOM2. -/
abbrev mom2 : Nat := 56
/-- AVG. -/
abbrev avg : Nat := 64
/-- GRAD. -/
abbrev grad : Nat := 72
/-- GRAD_SIDE. -/
abbrev gradSide : Nat := 80
/-- WOBJ. -/
abbrev wobj : Nat := 88
/-- WOBJ_SIDE. -/
abbrev wobjSide : Nat := 96
/-- RESMAP. -/
abbrev resmap : Nat := 104
/-- GENPTR. -/
abbrev genptr : Nat := 112
/-- PBASE. -/
def pbase (d : List Byte) : Nat := leAt d 160 8
/-- An FP32 field. -/
def fp (d : List Byte) (off : Nat) : FVal := Fmt.fp32.decode (leAt d off 4)
/-- Tiles of the slice. -/
def tiles (d : List Byte) : Nat := (nparam d + 1023) / 1024
end Lg

/-- Check 3 of Table 8-2. -/
def lgSound (d : List Byte) : Bool :=
  let k := Lg.kind d
  let a := Lg.addr d
  decide (1 ≤ k ∧ k ≤ 4 ∧ Lg.flags d < 4 ∧ (leAt d 8 1 = 1 ∨ leAt d 8 1 = 9) ∧ (leAt d 9 1 = 0 ∨ leAt d 9 1 = 4)
      ∧ leAt d 10 1 < 128 ∧ Lg.nparam d % 64 = 0 ∧ 64 ≤ Lg.nparam d ∧ Lg.nres d ≤ 65535)
    && zeroAt d 11 1 && zeroAt d 28 4 && zeroAt d 156 4 && zeroAt d 184 4
    && [Lg.masterA, Lg.masterB, Lg.mom1, Lg.mom2, Lg.avg].all (fun o => decide (a o % 4096 = 0))
    && decide (a Lg.grad % 128 = 0 ∧ a Lg.gradSide % 32 = 0 ∧ a Lg.wobj % 128 = 0 ∧ a Lg.resmap % 32 = 0 ∧ a Lg.genptr % 16 = 0)
    && (Lg.stepScope d || decide (a Lg.masterB = 0))
    && (decide (k ≠ 1 ∧ k ≠ 3) || decide (a Lg.mom2 = 0))
    && (Lg.avgEn d || decide (a Lg.avg = 0))
    && ((Lg.ts4 d && decide (a Lg.wobj ≠ 0)) || decide (a Lg.wobjSide = 0))
    && (decide (Lg.nres d ≠ 0) || decide (a Lg.resmap = 0))
    && (decide (k = 4) || decide (a 168 = 0 ∧ a 176 = 0))

/-- Whether n bytes at a virtual address lie in a hub's GDDR, by page-table reads only (Table 8-2). -/
def State.homedAt (s : State) (part pasid va stack : Nat) (write : Bool) : Bool :=
  match s.peekTranslate part pasid va write with
  | some pa => match regionOf pa with
    | .gddr st off => decide (st = stack ∧ off < 0x600000000)
    | _ => false
  | none => false

/-- Checks 1 to 4 of Table 8-2 on a descriptor; OK where they pass. -/
def State.lgStatus (s : State) (c : Cmd) (stack : Nat) (d : List Byte) : Nat :=
  if d.take 4 ≠ [0x50, 0x5A, 0x4C, 0x47] ∨ leAt d 188 4 ≠ crc32c (d.take 188) then St.inputCorrupt
  else if leAt d 4 2 ≠ 0x1100 then St.versionMismatch
  else if !lgSound d then St.inputCorrupt
  else if !s.homedAt c.part c.pasid (Lg.addr d Lg.genptr) stack true then St.inputCorrupt
  else if Lg.collSel d && !((s.boundStack (Lg.collStack d)).isSome && s.ownsStack c.part (Lg.collStack d)) then St.inputCorrupt
  else St.ok

/-- Entry i of a resident map. -/
def mapEntry (m : List Byte) (i : Nat) : List Byte := (m.drop (32 * i)).take 32

/-- Check 5 of Table 8-2: ascending entries that do not overlap, within NPARAM and below 2^18 (R250). -/
def mapSound (d m : List Byte) : Bool :=
  ((List.range (Lg.nres d)).foldl (fun (acc : Bool × Nat) i =>
    let e := mapEntry m i
    let dest := BitVec.ofNat 64 (leAt e 0 8)
    let ps := leAt e 8 4
    let pc := leAt e 12 4
    let side := leAt e 16 4
    let room := if Lg.ts4 d then
        decide (ps % 64 = 0 ∧ pc % 64 = 0 ∧ Dest.lsaddr dest + pc / 2 ≤ 2 ^ 18 ∧ side + 3 * (pc / 64) ≤ 2 ^ 18)
      else decide (Dest.lsaddr dest + pc ≤ 2 ^ 18 ∧ side = 0)
    let ok := room && zeroAt e 20 12 && decide (acc.2 ≤ ps ∧ ps + pc ≤ Lg.nparam d ∧ side < 2 ^ 18)
      && outside dest.toNat [(50, 45), (44, 43), (42, 38), (37, 32), (17, 0)] && decide (Dest.row dest ≤ 29 ∧ Dest.col dest ≤ 39)
    (acc.1 && ok, ps + pc)) (true, 0)).1

/-! ### Arming -/

/-- Armed commands of a blend engine. -/
def State.armed (s : State) (stack : Nat) : List BlendOp := s.blends.filter fun o => decide (o.stack = stack)

/-- ARM_STAT.ARMED (Table 8-14). -/
def State.refreshArmed (s : State) (stack : Nat) : State := s.setFld (Page.blend stack) 0x128 4 0 (s.armed stack).length

/-- The same armed command. -/
def BlendOp.same (a b : BlendOp) : Bool := decide (a.queue = b.queue ∧ a.seq = b.seq)

/-- Replaces an armed command. -/
def State.putBlend (s : State) (o : BlendOp) : State := { s with blends := s.blends.map fun x => if x.same o then o else x }

/-- The result bytes of a BLEND completion (Table 8-8, R408). -/
def blendResult (tiles groups nf nfOut gmax gsq : Nat) : List Byte :=
  leBytes 4 tiles ++ leBytes 2 groups ++ leBytes 2 0 ++ leBytes 4 nf ++ leBytes 4 nfOut ++ leBytes 4 gmax ++ leBytes 4 gsq

/-- A command that is not armed completes with a status (R242). -/
def State.blendRefuse (s : State) (c : Cmd) (st : Nat) : State := s.finishCmd c st (blendResult 0 0 0 0 0 0)

/-- An access of the arming that does not end with OK: it waits for its page, is made again, or ends the command. -/
def State.armEnds (s : State) (c : Cmd) (x : Ctxt) (e : Ended) : State :=
  match e with
  | .absent va => s.holdPage c x va
  | .wait => s
  | .status st => if st = St.unitUnavailable then s else s.blendRefuse c st

/-- Arms a command (R242 to R244). -/
def State.arm (s : State) (c : Cmd) (o : BlendOp) : State :=
  ({ (s.setCmd { c with started := true }) with blends := s.blends ++ [o] } : State).refreshArmed o.stack

/-- Whether a command is a BLEND that may be armed now, with its stack. -/
def State.blendReady (s : State) (c : Cmd) (op : Nat) : Option Nat :=
  if c.kind = 4 ∧ leAt (leBytes 8 (c.cs.getD 0 0)) 0 1 = op ∧ s.mayStart c ∧ !c.started ∧ c.held = 0 then s.boundStack c.target
  else none

/-- The record of a completed collective of a job tag at an engine (R244). -/
def State.collRecord (s : State) (stack jobTag seq : Nat) : Option (Nat × Nat × Nat) :=
  (s.collDone.get [] (stack * 4096 + jobTag)).find? fun d => decide (d.1 = seq)

/-- An armed UPDATE is ready once its collective has completed (R244). -/
def BlendOp.readied (o : BlendOp) (at_ : Nat) (d : Option (Nat × Nat × Nat)) : BlendOp :=
  match d with
  | some r => { o with ready := some at_, collStatus := r.2.1, nfTotal := r.2.2 }
  | none => o

/-- BLEND_UPDATE: the blend engine reads and checks the descriptor and the resident map and arms the command (R242 to R247).
With 16 commands armed it completes with REFUSED_FULL. -/
def execBlendUpdate (q seq : Nat) (s : State) : Out :=
  .next (match s.cmd q seq with
  | none => s
  | some c => match s.blendReady c 1 with
    | none => s
    | some stack =>
      let x := s.cmdCtxt c .engine
      if 16 ≤ (s.armed stack).length then s.blendRefuse c St.refusedFull
      else if c.cs.getD 1 0 % 64 ≠ 0 then s.blendRefuse c St.inputCorrupt
      else
        let r := s.vread x (c.cs.getD 1 0) 192
        let d := r.2.1
        let s := r.2.2
        if r.1 ≠ .status St.ok then s.armEnds c x r.1
        else if s.lgStatus c stack d ≠ St.ok then s.blendRefuse c (s.lgStatus c stack d)
        else
          let m := s.vread x (Lg.addr d Lg.resmap) (32 * Lg.nres d)
          let s := m.2.2
          let watch := if Lg.collSel d then (s.boundStack (Lg.collStack d)).getD stack else stack
          let top := (s.collDone.get [] (watch * 4096 + c.jobTag)).foldl (fun t e => max t e.1) 0
          if m.1 ≠ .status St.ok then s.armEnds c x m.1
          else if !mapSound d m.2.1 ∨ Lg.collSeq d + 4096 ≤ top then s.blendRefuse c St.inputCorrupt
          else
            let o : BlendOp := {
              queue := q, seq := seq, stack := stack, part := c.part, pasid := c.pasid, jobTag := c.jobTag
              jobSeed := c.jobSeed, step := c.step, commit := false, descs := [d], maps := [m.2.1], watch := watch
              arrival := s.useCtr }
            let o := o.readied s.useCtr (s.collRecord watch c.jobTag (Lg.collSeq d))
            ({ s with useCtr := s.useCtr + 1 } : State).arm c o)

/-- Reads the listed descriptors and resident maps of a COMMIT; a group that fails a check ends with INPUT_CORRUPT
(Table 8-2; log row 41). -/
def State.readGroups (c : Cmd) (x : Ctxt) (stack : Nat) :
    List Nat → State → Ended × List (List Byte × List Byte) × State
  | [], s => (.status St.ok, [], s)
  | a :: as, s =>
    if a % 64 ≠ 0 ∨ !s.homedAt c.part c.pasid a stack false then (.status St.inputCorrupt, [], s)
    else
      let r := s.vread x a 192
      let d := r.2.1
      let s := r.2.2
      if r.1 ≠ .status St.ok then (r.1, [], s)
      else if s.lgStatus c stack d ≠ St.ok ∨ !Lg.stepScope d then (.status St.inputCorrupt, [], s)
      else
        let m := s.vread x (Lg.addr d Lg.resmap) (32 * Lg.nres d)
        if m.1 ≠ .status St.ok then (m.1, [], m.2.2)
        else if !mapSound d m.2.1 then (.status St.inputCorrupt, [], m.2.2)
        else
          let more := State.readGroups c x stack as m.2.2
          (more.1, (d, m.2.1) :: more.2.1, more.2.2)

/-- BLEND_COMMIT: the blend engine reads the list and every listed descriptor and arms the command, ready at once (R242,
R244, R247, R260). -/
def execBlendCommit (q seq : Nat) (s : State) : Out :=
  .next (match s.cmd q seq with
  | none => s
  | some c => match s.blendReady c 2 with
    | none => s
    | some stack =>
      let x := s.cmdCtxt c .engine
      let n := c.cs.getD 2 0
      if 16 ≤ (s.armed stack).length then s.blendRefuse c St.refusedFull
      else if n = 0 ∨ 4096 < n then s.blendRefuse c St.inputCorrupt
      else
        let r := s.vread x (c.cs.getD 1 0) (8 * n)
        if r.1 ≠ .status St.ok then r.2.2.armEnds c x r.1
        else
          let g := State.readGroups c x stack ((List.range n).map fun i => leAt r.2.1 (8 * i) 8) r.2.2
          let s := g.2.2
          if g.1 ≠ .status St.ok then s.armEnds c x g.1
          else
            ({ s with useCtr := s.useCtr + 1 } : State).arm c {
              queue := q, seq := seq, stack := stack, part := c.part, pasid := c.pasid, jobTag := c.jobTag
              jobSeed := c.jobSeed, step := c.step, commit := true, descs := g.2.1.map Prod.fst, maps := g.2.1.map Prod.snd
              verdict := c.cs.getD 3 0, arrival := s.useCtr, ready := some s.useCtr })

/-- COLL_COMPLETION_NOTIFY: the notice of a completed collective reaches every blend engine with an armed UPDATE that names
it, and readies them (R244). -/
def execCollCompletionNotify (stack jobTag seq : Nat) (s : State) : Out :=
  .next (match s.collRecord stack jobTag seq with
  | none => s
  | some d =>
    { s with
      useCtr := s.useCtr + 1
      blends := s.blends.map fun (o : BlendOp) =>
        if o.commit = false ∧ o.ready = none ∧ o.watch = stack ∧ o.jobTag = jobTag ∧ Lg.collSeq (o.descs.headD []) = seq then
          o.readied s.useCtr (some d)
        else o })

/-! ### Arithmetic (R253) -/

/-- √x rounded once to FP32 under RNE. -/
def sqrt32 : FVal → FVal
  | .nan => .nan
  | .inf neg => if neg then .nan else .inf false
  | .fin neg n d => if n = 0 then .fin neg n d else if neg then .nan else let r := sqrtFrac n d; rne32 (.fin false r.1 r.2)

/-- sign of R253; that of a NaN is a NaN (log row 41). -/
def sign32 : FVal → FVal
  | .nan => .nan
  | .inf neg => .fin neg 1 1
  | .fin neg n _ => if n = 0 then .fin false 0 1 else .fin neg 1 1

/-- The FP32 code of a value. -/
def code32 (v : FVal) : Nat := (Fmt.fp32.encode .rne false 0 v).code

/-- 1 − x rounded to FP32. -/
def oneMinus (x : FVal) : FVal := add32 (.fin false 1 1) x.negate

/-- The new first and second moment of a parameter (R253). -/
def newMoments (d : List Byte) (g m1 m2 : FVal) : FVal × FVal :=
  let b1 := Lg.fp d 124
  let b2 := Lg.fp d 128
  match Lg.kind d with
  | 1 => (fma32 b1 m1 g, m2)
  | 2 => (fma32 b1 m1 (mul32 (oneMinus b1) g), fma32 b2 m2 (mul32 (oneMinus b2) (mul32 g g)))
  | _ => (fma32 b2 m1 (mul32 (oneMinus b2) g), m2)

/-- The new master of a parameter (R253). -/
def newMaster (d : List Byte) (g p m1 m1n m2n : FVal) : FVal :=
  let lr := Lg.fp d 120
  let pd := mul32 p (oneMinus (mul32 lr (Lg.fp d 136)))
  match Lg.kind d with
  | 1 => fma32 lr.negate m1n pd
  | 2 =>
    let u := div32 (mul32 m1n (Lg.fp d 140)) (add32 (sqrt32 (mul32 m2n (Lg.fp d 144))) (Lg.fp d 132))
    fma32 lr.negate u pd
  | _ =>
    let b1 := Lg.fp d 124
    fma32 lr.negate (sign32 (fma32 b1 m1 (mul32 (oneMinus b1) g))) pd

/-- The new average of a parameter (R253). -/
def newAvg (d : List Byte) (a p2 : FVal) : FVal := fma32 (Lg.fp d 152) (rne32 (add32 a p2.negate)) p2

/-- The stochastic bits of parameter i of a slice (R254). -/
def blendSr (jobSeed step : Nat) (d : List Byte) (i : Nat) : Nat :=
  let w := fun (n : Nat) => BitVec.ofNat 64 n
  let kb := mix64 (mix64 (w jobSeed) (w (step * 2 ^ 20 + 0xFFFFF))) (w (Lg.groupId d))
  bits (mix64 kb (w (Lg.pbase d + i))) 63 40

/-- The working weights of parameters from `first` on: bytes of the element plane and of the side plane (R253, R44). -/
def workWeights (jobSeed step : Nat) (d : List Byte) (first : Nat) (ps : List FVal) : List Byte × List Byte :=
  let sr := blendSr jobSeed step d
  if Lg.ts4 d then
    let qs := (List.range (ps.length / 64)).map fun j =>
      quantBlock .e2m1 .ts4 (Lg.wrnd d) (fun i => sr (first + 64 * j + i)) ((ps.drop (64 * j)).take 64)
    (qs.flatMap fun q => leBytes 32 (packElems 4 q.codes), qs.flatMap fun q => leBytes 3 (sideEntry .ts4 q))
  else (ps.zipIdx.map fun p => BitVec.ofNat 8 (Fmt.e4m3.encode (Lg.wrnd d) true (sr (first + p.2)) p.1).code, [])

/-- The FP32 values of a list of bytes. -/
def fpValues (n : Nat) (b : List Byte) : List FVal := (List.range n).map fun i => Fmt.fp32.decode (leAt b (4 * i) 4)

/-- The gradients of a tile: the exact G8 decode times GMULT (R253). -/
def tileGrads (d : List Byte) (n : Nat) (elems side : List Byte) : List FVal :=
  (List.range n).map fun i => mul32 (scaledVal .e4m3 (leAt side (i / 32) 1) 0 (leAt elems i 1)) (Lg.fp d 148)

/-- FP32 bytes of values. -/
def fpBytes (vs : List FVal) : List Byte := vs.flatMap fun v => leBytes 4 (code32 v)

/-- The inputs of a tile (R252): gradient planes, masters or the alternate buffer, moments and average, as address and
length. Arrays that the kind lacks have length zero. -/
def tileInputs (d : List Byte) (commit : Bool) (src : Nat) (lo n : Nat) : List (Nat × Nat) :=
  let k := Lg.kind d
  let has := fun (off : Nat) => if k = 4 then decide (Lg.addr d off ≠ 0) else decide (off = Lg.mom1 ∨ k = 2)
  let avgs := Lg.avgEn d && (commit || !Lg.stepScope d)
  [(Lg.addr d Lg.grad + lo, n), (Lg.addr d Lg.gradSide + lo / 32, n / 32), (src + 4 * lo, 4 * n),
    (Lg.addr d Lg.mom1 + 4 * lo, if has Lg.mom1 then 4 * n else 0), (Lg.addr d Lg.mom2 + 4 * lo, if has Lg.mom2 then 4 * n else 0),
    (Lg.addr d Lg.avg + 4 * lo, if avgs then 4 * n else 0)]

/-- The part of the resident map's ranges that a tile covers (R250). -/
def residentWrites (d m : List Byte) (lo n : Nat) (w : List Byte × List Byte) : List BlendWrite :=
  (List.range (Lg.nres d)).flatMap fun i =>
    let e := mapEntry m i
    let dest := BitVec.ofNat 64 (leAt e 0 8)
    let ps := leAt e 8 4
    let a := max lo ps
    let b := min (lo + n) (ps + leAt e 12 4)
    if b ≤ a then []
    else if Lg.ts4 d then
      [⟨some dest, Dest.lsaddr dest + (a - ps) / 2, (w.1.drop ((a - lo) / 2)).take ((b - a) / 2)⟩,
        ⟨some dest, leAt e 16 4 + 3 * ((a - ps) / 64), (w.2.drop (3 * ((a - lo) / 64))).take (3 * ((b - a) / 64))⟩]
    else [⟨some dest, Dest.lsaddr dest + (a - ps), (w.1.drop (a - lo)).take (b - a)⟩]

/-- What a tile becomes: its writes in order, the non-finite values among them, and its gradients (R253, R255, R258, R259,
R261). The operation writes the masters unless it commits, and the rest unless it is a STEP-scope UPDATE. -/
def tileWrites (o : BlendOp) (d m : List Byte) (dst lo n : Nat) (p2 m1n m2n av : List FVal) : List BlendWrite × Nat :=
  let k := Lg.kind d
  let rest := o.commit || !Lg.stepScope d
  let hasM1 := k ≠ 4 || decide (Lg.addr d Lg.mom1 ≠ 0)
  let hasM2 := k = 2 || (decide (k = 4) && decide (Lg.addr d Lg.mom2 ≠ 0))
  let arrays := (if o.commit then [] else [(dst, p2)]) ++ (if rest && hasM1 then [(Lg.addr d Lg.mom1, m1n)] else [])
    ++ (if rest && hasM2 then [(Lg.addr d Lg.mom2, m2n)] else []) ++ (if rest && Lg.avgEn d then [(Lg.addr d Lg.avg, av)] else [])
  let w := workWeights o.jobSeed o.step d lo p2
  let wobj := Lg.addr d Lg.wobj
  let weights : List BlendWrite := if !rest then [] else
    (if wobj = 0 then [] else
      [(⟨none, wobj + (if Lg.ts4 d then lo / 2 else lo), w.1⟩ : BlendWrite)]
        ++ (if Lg.ts4 d then [(⟨none, Lg.addr d Lg.wobjSide + 3 * (lo / 64), w.2⟩ : BlendWrite)] else []))
      ++ residentWrites d m lo n w
  (arrays.map (fun a => (⟨none, a.1 + 4 * lo, fpBytes a.2⟩ : BlendWrite)) ++ weights,
    (arrays.map fun a => (a.2.filter FVal.nonFinite).length).sum)

/-! ### Running -/

/-- How the blend engine presents an operation's addresses. -/
def BlendOp.ctxt (o : BlendOp) : Ctxt := ⟨some o.stack, o.part, o.pasid, .engine⟩

/-- The descriptor and map of the group at hand. -/
def BlendOp.desc (o : BlendOp) : List Byte := o.descs.getD o.group []

/-- Resident map of the group at hand. -/
def BlendOp.map (o : BlendOp) : List Byte := o.maps.getD o.group []

/-- CUR of the group at hand. -/
def BlendOp.cur (o : BlendOp) : Nat := o.curs.getD o.group 0

/-- Buffers of R253: the one that an UPDATE reads, and the one that it writes. -/
def BlendOp.buffers (o : BlendOp) : Nat × Nat :=
  let a := Lg.addr o.desc Lg.masterA
  let b := Lg.addr o.desc Lg.masterB
  if !Lg.stepScope o.desc then (a, a) else if o.cur = 1 then (b, a) else (a, b)

/-- Adds an UPDATE to the step registers as it completes (R266). -/
def State.stepAdd (s : State) (o : BlendOp) (st gmax gsq : Nat) : State :=
  let page := Page.blend o.stack
  let s := s.setFld page 0x108 63 48 (min 0xFFFF (s.fld page 0x108 63 48 + 1))
  let s := s.setFld page 0x110 31 0 (min 0xFFFFFFFF (s.fld page 0x110 31 0 + o.nfTotal))
  let s := if st = St.ok ∨ st = St.okDelayed ∨ st = St.nonfiniteSkipped then s
    else s.setFld page 0x110 63 32 ((s.fld page 0x110 63 32 + 1) % 2 ^ 32)
  let s := s.setFld page 0x118 31 0 (max gmax (s.fld page 0x118 31 0))
  let old := Fmt.fp32.decode (s.fld page 0x120 31 0)
  s.setFld page 0x120 31 0 (code32 (add32 old (Fmt.fp32.decode gsq)))

/-- The command of an operation. -/
def State.blendCmd (s : State) (o : BlendOp) : Option Cmd := s.cmd o.queue o.seq

/-- The status that an operation which succeeds completes with (R386). -/
def State.blendOk (s : State) (o : BlendOp) : Nat :=
  if (s.blendCmd o).any Cmd.delayed then St.okDelayed else St.ok

/-- An operation completes and is armed no longer: counters, step registers and the completion (R264, R266, Table 8-15). -/
def State.blendEnd (s : State) (o : BlendOp) (st tiles groups gmax gsq : Nat) : State :=
  let page := Page.blend o.stack
  let ok := st = St.ok ∨ st = St.okDelayed
  let s := ({ s with blends := s.blends.filter fun x => !x.same o } : State).refreshArmed o.stack
  let s := if !o.commit ∧ ok then (s.bump page 0).bumpUnits page 6 (Lg.nparam o.desc) (2 ^ 20) else s
  let s := if st = St.nonfiniteSkipped then s.bump page 1 else s
  let s := if o.commit ∧ ok then s.bump page 2 else s
  let s := s.bump page 4 o.nfOut
  let s := if o.commit ∨ !o.started then s else s.stepAdd o st gmax gsq
  let nf := if o.commit then 0 else o.nfTotal
  match s.blendCmd o with
  | some c => s.finishCmd c st (blendResult tiles groups nf o.nfOut gmax gsq)
  | none => s

/-- A write of a generation word's half that nothing waits for. -/
def State.genWrite (s : State) (o : BlendOp) (half : Nat) (w : Word) : State :=
  (s.vwrite o.ctxt (Lg.addr o.desc Lg.genptr + 8 * half) (leBytes 8 w.toNat)).2.2

/-- The half of the generation word that an UPDATE writes, and its value (R258, R259, Table 8-4). -/
def BlendOp.genWord (o : BlendOp) (st : Nat) : Nat × Word :=
  (if Lg.stepScope o.desc then 1 else 0, place 63 56 st ||| place 43 0 o.step)

/-- UPDATE_FAILED: an operation ends under R263 (Table 8-7). GMAX and GSQ of a failed UPDATE are free values (log row 41). -/
def State.blendFail (s : State) (o : BlendOp) (st : Nat) : State :=
  let s := s.genEvent (Page.blend o.stack) 0x0241 o.part
    (place 31 0 (Lg.groupId o.desc) ||| place 55 32 o.tile ||| place 63 56 st)
  if o.commit then s.blendEnd o st o.tile o.group 0 0
  else
    let s := s.genWrite o (o.genWord st).1 (o.genWord st).2
    let a := s.free
    let b := a.2.free
    b.2.blendEnd o st o.tile 0 (bits a.1 31 0) (bits b.1 31 0)

/-- What follows an access of a running operation that did not end with OK: it waits, is made again, or ends the operation
(R263). -/
def State.blendEnds (s : State) (o : BlendOp) (e : Ended) : State :=
  match e with
  | .absent va => (s.putBlend { o with pageWait := some (va / 4096) }).pageRequest o.ctxt va .engine
  | .wait => s.putBlend o
  | .status st => if st = St.unitUnavailable then s.putBlend o else s.blendFail o st

/-- One write of a tile: through the page tables, or to the local store of a core that holds a resident task of the
partition (R250, R251). -/
def State.blendWrite (s : State) (o : BlendOp) (w : BlendWrite) : Ended × State :=
  match w.dest with
  | none =>
    let r := s.vwrite o.ctxt w.addr w.data
    (r.1, r.2.2)
  | some dest =>
    match s.destCore dest with
    | none => (.status St.permissionFault, s)
    | some c =>
      if (s.core c).task.isNone ∨ s.corePart c ≠ o.part then (.status St.permissionFault, s)
      else if s.lsStatus c ≠ St.ok then (.status (s.lsStatus c), s)
      else (.status St.ok, s.writeBytes (lsBase c + w.addr) w.data)

/-- Makes the writes of an operation in order; answers those that are left. -/
def State.blendWrites (o : BlendOp) : List BlendWrite → State → Ended × List BlendWrite × State
  | [], s => (.status St.ok, [], s)
  | w :: ws, s =>
    let r := s.blendWrite o w
    if r.1 = .status St.ok then State.blendWrites o ws r.2 else (r.1, w :: ws, r.2)

/-- The writes of an operation have been made: its tile is done, its group is committed, or it completes. -/
def State.blendWritten (s : State) (o : BlendOp) : State :=
  match o.closing with
  | none => s.putBlend { o with tile := o.tile + 1, nfOut := o.nfOut + o.nfTile, nfTile := 0 }
  | some st =>
    if o.commit then
      let o := { o with group := o.group + 1, tile := 0, closing := none, progNext := 0 }
      if o.group = o.descs.length then s.blendEnd o st 0 o.group 0 0 else s.putBlend o
    else
      let s := if st = St.nonfiniteSkipped then
          s.genEvent (Page.blend o.stack) 0x0240 o.part (place 31 0 (Lg.groupId o.desc) ||| place 63 32 o.nfTotal) else s
      s.blendEnd o st o.tile 0 o.gmax o.gsq

/-- Goes on with the writes of an operation. -/
def State.blendFlush (s : State) (o : BlendOp) : State :=
  let r := State.blendWrites o o.writes s
  let o := { o with writes := r.2.1 }
  if r.1 = .status St.ok then r.2.2.blendWritten o else r.2.2.blendEnds o r.1

/-- Queues the generation word that ends an UPDATE or a group of a COMMIT, and writes it. -/
def State.blendClose (s : State) (o : BlendOp) (st : Nat) : State :=
  let g := if o.commit then (0, place 48 48 (1 - o.cur) ||| place 43 0 o.step) else o.genWord st
  s.blendFlush { o with
    closing := some st
    writes := [⟨none, Lg.addr o.desc Lg.genptr + 8 * g.1, leBytes 8 g.2.toNat⟩] }

/-- Reads a list of ranges in order. -/
def State.readRanges (x : Ctxt) : List (Nat × Nat) → State → Ended × List (List Byte) × State
  | [], s => (.status St.ok, [], s)
  | r :: rs, s =>
    let a := s.vread x r.1 r.2
    if a.1 = .status St.ok then
      let more := State.readRanges x rs a.2.2
      (more.1, a.2.1 :: more.2.1, more.2.2)
    else (a.1, [], a.2.2)

/-- Adds a tile's gradients to GMAX and GSQ (R264, R265). -/
def BlendOp.addGrads (o : BlendOp) (gs : List FVal) : BlendOp :=
  let top := gs.foldl (fun m g => match g with
    | .fin _ n d => maxFrac m (n, d)
    | _ => m) (Fmt.fp32.decode o.gmax).mag
  let sum := treeReduce add32 10 ((gs.map fun g => if g.nonFinite then none else some (mul32 g g)) ++ List.replicate (1024 - gs.length) none)
  let gsq := match sum with
    | some v => if o.tile = 0 ∧ o.progNext = 0 then v else add32 (Fmt.fp32.decode o.gsq) v
    | none => Fmt.fp32.decode o.gsq
  { o with gmax := code32 (.fin false top.1 top.2), gsq := code32 gsq }

/-- The parameters of tile j: first index and count. -/
def BlendOp.span (o : BlendOp) (j : Nat) : Nat × Nat := (1024 * j, min 1024 (Lg.nparam o.desc - 1024 * j))

/-- The source of p: the masters of an UPDATE, and the alternate buffer of a COMMIT but for a PROG routine, which gets the
masters (R253, R256, R261). -/
def BlendOp.source (o : BlendOp) : Nat := if o.commit ∧ Lg.kind o.desc ≠ 4 then o.buffers.2 else o.buffers.1

/-- One tile of a built-in kind: every input is read before anything is written (R252, R253). -/
def State.blendTile (s : State) (o : BlendOp) : State :=
  let d := o.desc
  let sp := o.span o.tile
  let r := State.readRanges o.ctxt (tileInputs d o.commit o.source sp.1 sp.2) s
  if r.1 ≠ .status St.ok then r.2.2.blendEnds o r.1
  else
    let b := fun i => r.2.1.getD i []
    let gs := tileGrads d sp.2 (b 0) (b 1)
    let ps := fpValues sp.2 (b 2)
    let m1 := fpValues sp.2 (b 3)
    let m2 := fpValues sp.2 (b 4)
    let at_ := fun (l : List FVal) i => l.getD i (.fin false 0 1)
    let ix := List.range sp.2
    let ms := ix.map fun i => newMoments d (at_ gs i) (at_ m1 i) (at_ m2 i)
    let p2 := if o.commit then ps else ix.map fun i =>
      let m := ms.getD i (.nan, .nan)
      newMaster d (at_ gs i) (at_ ps i) (at_ m1 i) m.1 m.2
    let av := ix.map fun i => newAvg d (at_ (fpValues sp.2 (b 5)) i) (at_ p2 i)
    let w := tileWrites o d o.map o.buffers.2 sp.1 sp.2 p2 (ms.map Prod.fst) (ms.map Prod.snd) av
    let o := if o.commit then o else o.addGrads gs
    r.2.2.blendFlush { o with writes := w.1, nfTile := w.2 }

/-- PROG_TILE_CALL: the next tile goes into a tile buffer and to a free hub control core (R256, Table 8-6). -/
def State.progCall (s : State) (o : BlendOp) (core : Nat) : State :=
  let d := o.desc
  let sp := o.span o.progNext
  let ins := (tileInputs d o.commit o.source sp.1 sp.2).take 5
  let r := State.readRanges o.ctxt ins s
  if r.1 ≠ .status St.ok then r.2.2.blendEnds o r.1
  else
    let b := fun i => r.2.1.getD i []
    let pad := fun (l : List Byte) => (l ++ List.replicate 4096 0).take 4096
    let gs := tileGrads d sp.2 (b 0) (b 1)
    let buf := pad (fpBytes gs) ++ pad (b 2) ++ pad (b 3) ++ pad (b 4)
    let o := if o.commit then o else o.addGrads gs
    (r.2.2.bump (Page.blend o.stack) 5).putBlend { o with
      progs := o.progs ++ [⟨core, o.progNext, buf, none⟩], progNext := o.progNext + 1 }

/-- The oldest tile of a PROG has come back: its results are formed and written, in tile order (R256). -/
def State.progTake (s : State) (o : BlendOp) (buf : List Byte) : State :=
  let d := o.desc
  let sp := o.span o.tile
  let alt := if o.commit then (o.buffers.2 + 4 * sp.1, 4 * sp.2) else (0, 0)
  let r := State.readRanges o.ctxt [(tileInputs d o.commit o.source sp.1 sp.2).getD 5 (0, 0), alt] s
  if r.1 ≠ .status St.ok then r.2.2.blendEnds o r.1
  else
    let at_ := fun (l : List FVal) i => l.getD i (.fin false 0 1)
    let p2 := if o.commit then fpValues sp.2 (r.2.1.getD 1 []) else fpValues sp.2 (buf.drop 0x1000)
    let old := fpValues sp.2 (r.2.1.getD 0 [])
    let av := (List.range sp.2).map fun i => newAvg d (at_ old i) (at_ p2 i)
    let w := tileWrites o d o.map o.buffers.2 sp.1 sp.2 p2 (fpValues sp.2 (buf.drop 0x2000)) (fpValues sp.2 (buf.drop 0x3000)) av
    r.2.2.blendFlush { o with writes := w.1, nfTile := w.2, progs := o.progs.drop 1 }

/-- Calls a free hub control core with the next tile, while the cores run (R256, Table 19-8). -/
def State.progMore (s : State) (o : BlendOp) : State :=
  if !s.ready (Page.hubCtrl o.stack) ∨ Lg.tiles o.desc ≤ o.progNext then s.putBlend o
  else match (List.range 4).find? fun k => o.progs.all fun p => decide (p.core ≠ k) with
    | some k => s.progCall o k
    | none => s.putBlend o

/-- A step of a PROG operation: the oldest tile once it has come back, and otherwise another call (R256). -/
def State.progStep (s : State) (o : BlendOp) : State :=
  match o.progs.head?.bind ProgCall.back with
  | some buf => s.progTake o buf
  | none => s.progMore o

/-- An UPDATE starts (R245, R249, R258, R259, R266). -/
def State.updateStart (s : State) (o : BlendOp) : State :=
  let page := Page.blend o.stack
  let s := if s.fld page 0x108 43 0 = o.step then s
    else
      let s := s.setReg page 0x108 (place 43 0 o.step)
      ((s.setReg page 0x110 0).setReg page 0x118 0).setReg page 0x120 0
  let x := { o with started := true }
  if o.collStatus ≠ St.ok ∧ o.collStatus ≠ St.okDelayed then s.blendEnd x o.collStatus 0 0 0 0
  else
    let r := s.vread o.ctxt (Lg.addr o.desc Lg.genptr) 8
    let w := BitVec.ofNat 64 (leAt r.2.1 0 8)
    if r.1 ≠ .status St.ok then
      (match r.1 with
      | .status st => if st = St.unitUnavailable then r.2.2 else r.2.2.blendFail x st
      | e => r.2.2.blendEnds o e)
    else if o.step ≤ bits w 43 0 then r.2.2.blendEnd x St.epochStale 0 0 0 0
    else
      let o := { x with curs := [if Lg.stepScope o.desc then bits w 48 48 else 0] }
      if 0 < o.nfTotal then r.2.2.blendClose o St.nonfiniteSkipped else r.2.2.putBlend o

/-- A COMMIT starts: its verdict, and the generation word of every listed group (R260). -/
def State.commitStart (s : State) (o : BlendOp) : State :=
  let page := Page.blend o.stack
  let v := if o.verdict = 0 then (Ended.status St.ok, leBytes 8 (s.fld page 0x110 31 0 + s.fld page 0x110 63 32), s)
    else s.vread o.ctxt o.verdict 8
  let g := State.readRanges o.ctxt (o.descs.map fun d => (Lg.addr d Lg.genptr, 16)) v.2.2
  if v.1 ≠ .status St.ok then v.2.2.blendEnds o v.1
  else if g.1 ≠ .status St.ok then g.2.2.blendEnds o g.1
  else
    let verdict := leAt v.2.1 0 8
    let stale := g.2.1.any fun b =>
      let w0 := BitVec.ofNat 64 (leAt b 0 8)
      let w1 := BitVec.ofNat 64 (leAt b 8 8)
      decide (bits w1 43 0 ≠ o.step ∨ bits w1 63 56 ≠ St.ok ∨ o.step ≤ bits w0 43 0)
    if verdict ≠ 0 ∨ stale then
      let st := if verdict ≠ 0 then St.nonfiniteSkipped else St.epochStale
      ((g.2.2.genEvent page 0x0242 o.part (place 43 0 o.step ||| place 63 56 st)).bump page 3).blendEnd o st 0 0 0 0
    else g.2.2.putBlend { o with started := true, curs := g.2.1.map fun b => bits (BitVec.ofNat 64 (leAt b 0 8)) 48 48 }

/-- The operation that a blend engine runs: a started one, and otherwise the first that became ready, earlier arrivals first
(R244). -/
def State.blendNext (s : State) (stack : Nat) : Option BlendOp :=
  let os := (s.armed stack).filter fun o => o.ready.isSome
  match os.find? fun o => o.started with
  | some o => some o
  | none => os.foldl (fun (b : Option BlendOp) o => match b with
      | none => some o
      | some x => if o.ready.getD 0 < x.ready.getD 0 ∨ (o.ready = x.ready ∧ o.arrival < x.arrival) then some o else some x) none

/-- BLEND_OP_RUN: the blend engine of a stack takes the next step of its running operation: its start, the writes that are
left, its next tile, or its end (R253 to R263). `park` is the PARK bucket of its requests (R386). -/
def execBlendOpRun (stack park : Nat) (s : State) : Out :=
  .next (match s.blendNext stack with
  | none => s
  | some o =>
    let s := match s.blendCmd o with
      | some c => if park % 8 = 0 then s else s.setCmd { c with delayed := true, park := max c.park (park % 8) }
      | none => s
    if o.pageWait ≠ none then s
    else if o.writes ≠ [] then s.blendFlush o
    else if !o.started then (if o.commit then s.commitStart o else s.updateStart o)
    else if o.tile < Lg.tiles o.desc then (if Lg.kind o.desc = 4 then s.progStep o else s.blendTile o)
    else s.blendClose o (s.blendOk o))

/-- The running operation of a stack whose PROG routine is on a hub control core, with its call. -/
def State.progOf (s : State) (stack core : Nat) : Option (BlendOp × ProgCall) :=
  (s.armed stack).findSome? fun o => (o.progs.find? fun p => decide (p.core = core ∧ p.back = none)).map fun p => (o, p)

/-- PROG_RETURN: a routine returns with a0 and its tile buffer; any a0 but zero ends the operation with INTERNAL (R256). -/
def execProgReturn (stack core a0 : Nat) (buf : List Byte) (s : State) : Out :=
  .next (match s.progOf stack core with
  | none => s
  | some (o, p) =>
    if a0 ≠ 0 then s.blendFail o St.internal
    else s.putBlend { o with progs := o.progs.map fun x => if x.core = p.core then { x with back := some buf } else x })

/-- PROG_TIMEOUT: a routine has not returned after PROG_TIMEOUT, which is not zero (R256, Table 8-9). -/
def execProgTimeout (stack core : Nat) (s : State) : Out :=
  .next (match s.progOf stack core with
  | none => s
  | some (o, _) => if s.fld (Page.blend stack) 0x100 15 0 = 0 then s else s.blendFail o St.internal)

/-- QUIESCE of a BLEND page: the armed commands that do not run complete with UNIT_UNAVAILABLE (Table 8-7). -/
def State.blendQuiesce (s : State) (stack : Nat) : State :=
  ((s.armed stack).filter fun o => !o.started).foldl (fun s o => s.blendEnd o St.unitUnavailable 0 0 0 0) s

/-- QUIESCE_TIMEOUT of a BLEND page: the running operation stops at a tile boundary as a failure (Table 8-7). Answers how
many stopped. -/
def State.blendExpire (s : State) (stack : Nat) : Nat × State :=
  let os := (s.armed stack).filter fun o => o.started
  (os.length, os.foldl (fun s o => s.blendFail o St.unitUnavailable) s)

end Sys2Proof.Machine
end

