-- ==== Sys2Proof/Machine/Jpeg.lean ====
section
/-!
DEFINITION. The JPEG decoder of the decanters (R501 to R503): baseline sequential streams of ISO/IEC 10918-1 with one or
three components, the integer inverse DCT, and the conversion to RGB.
-/
namespace Sys2Proof.Machine

/-! ### The inverse DCT of R503 -/

/-- round_half_away(4096 cos(j pi / 16)), j = 0 to 8. -/
def cosTable : List Int := [4096, 4017, 3784, 3406, 2896, 2276, 1567, 799, 0]

/-- round_half_away(4096 cos(m pi / 16)) for any m, by the symmetries of the cosine. -/
def cosInt (m : Nat) : Int :=
  let r := m % 32
  let q := if 16 < r then 32 - r else r
  if q ≤ 8 then cosTable.getD q 0 else -cosTable.getD (16 - q) 0

/-- W[k][n] of R503. -/
def dctW (k n : Nat) : Int := if k = 0 then 2896 else cosInt ((2 * n + 1) * k)

/-- An arithmetic right shift. -/
def sar (x : Int) (n : Nat) : Int := x / ((2 ^ n : Nat) : Int)

/-- The 64 samples of a block, row by row, from its dequantised coefficients F[v][u] in the same order (R503). -/
def idctBlock (f : List Int) : List Nat :=
  let t := (List.range 64).map fun i =>
    sar ((List.range 8).foldl (fun a u => a + dctW u (i % 8) * f.getD (i / 8 * 8 + u) 0) 1024) 11
  (List.range 64).map fun i =>
    let s := sar ((List.range 8).foldl (fun a v => a + dctW v (i / 8) * t.getD (v * 8 + i % 8) 0) 16384) 15
    (clampInt 0 255 (s + 128)).toNat

/-! ### Entropy decoding -/

/-- A Huffman table: code length, code and symbol of every code. -/
abbrev Huff := List (Nat × Nat × Nat)

/-- The codes of one length, from the first code on. -/
def huffRow (len : Nat) : Nat → List Nat → Huff
  | _, [] => []
  | code, s :: ss => (len, code, s) :: huffRow len (code + 1) ss

/-- The codes that the counts of the lengths and the list of symbols define. -/
def huffCodes : Nat → Nat → List Nat → List Nat → Huff
  | _, _, [], _ => []
  | len, code, n :: ns, syms => huffRow len code (syms.take n) ++ huffCodes (len + 1) ((code + n) * 2) ns (syms.drop n)

/-- Decodes one symbol from a bit string; none where no code matches or the bits end. -/
def huffDecode (h : Huff) : Nat → Nat → Nat → List Bool → Option (Nat × List Bool)
  | 0, _, _, _ => none
  | _, _, _, [] => none
  | n + 1, len, code, b :: bs =>
    let code := code * 2 + b.toNat
    match h.find? fun e => decide (e.1 = len + 1 ∧ e.2.1 = code) with
    | some e => some (e.2.2, bs)
    | none => huffDecode h n (len + 1) code bs

/-- Reads n bits. -/
def takeBits : Nat → Nat → List Bool → Option (Nat × List Bool)
  | 0, a, bs => some (a, bs)
  | _ + 1, _, [] => none
  | n + 1, a, b :: bs => takeBits n (a * 2 + b.toNat) bs

/-- The value of t additional bits: ISO/IEC 10918-1 EXTEND. -/
def extendBits (t v : Nat) : Int := if t ≠ 0 ∧ v < 2 ^ (t - 1) then (v : Int) - (2 ^ t : Nat) + 1 else v

/-- A signed value of t additional bits. -/
def takeSigned (t : Nat) (bs : List Bool) : Option (Int × List Bool) :=
  (takeBits t 0 bs).map fun x => (extendBits t x.1, x.2)

/-- The AC coefficients of a block from index k on, as (zigzag index, value). -/
def acCoeffs (h : Huff) : Nat → Nat → List Bool → Option (List (Nat × Int) × List Bool)
  | 0, _, bs => some ([], bs)
  | n + 1, k, bs =>
    if 63 < k then some ([], bs)
    else match huffDecode h 16 0 0 bs with
      | none => none
      | some (rs, bs) =>
        let r := rs / 16
        let z := rs % 16
        if z = 0 then
          if r = 0 then some ([], bs) else if r = 15 then acCoeffs h n (k + 16) bs else none
        else if 63 < k + r then none
        else match takeSigned z bs with
          | none => none
          | some (v, bs) => (acCoeffs h n (k + r + 1) bs).map fun x => ((k + r, v) :: x.1, x.2)

/-- Zigzag index to natural index v × 8 + u. -/
def zigzag : List Nat := [
  0, 1, 8, 16, 9, 2, 3, 10, 17, 24, 32, 25, 18, 11, 4, 5, 12, 19, 26, 33, 40, 48, 41, 34, 27, 20, 13, 6, 7, 14, 21, 28]
  ++ [
  35, 42, 49, 56, 57, 50, 43, 36, 29, 22, 15, 23, 30, 37, 44, 51, 58, 59, 52, 45, 38, 31, 39, 46, 53, 60, 61, 54, 47, 55,
  62, 63]

/-- A block's dequantised coefficients in natural order, its DC value before dequantisation, and the bits left. -/
def decodeBlock (dc ac : Huff) (q : List Nat) (pred : Int) (bs : List Bool) : Option (List Int × Int × List Bool) :=
  match huffDecode dc 16 0 0 bs with
  | none => none
  | some (t, bs) =>
    if 16 < t then none
    else match takeSigned t bs with
      | none => none
      | some (d, bs) =>
        let v := pred + d
        match acCoeffs ac 64 1 bs with
        | none => none
        | some (cs, bs) =>
          let all := (0, v) :: cs
          let f := (List.range 64).map fun i =>
            match all.find? fun c => decide (zigzag.getD c.1 0 = i) with
            | some c => c.2 * (q.getD c.1 0 : Nat)
            | none => 0
          some (f, v, bs)

/-! ### Frames and scans -/

/-- A component of the frame: identifier, sampling factors and quantisation table. -/
structure JComp where
  id : Nat
  h : Nat
  v : Nat
  tq : Nat
  deriving DecidableEq, Repr

/-- The frame header of SOF0. -/
structure JFrame where
  height : Nat
  width : Nat
  comps : List JComp
  deriving DecidableEq, Repr

/-- The decoder between two markers: tables, restart interval, frame, and the blocks decoded so far by component × 2^24 +
block row × 2^12 + block column. -/
structure JState where
  qt : Map (List Nat) := []
  dc : Map Huff := []
  ac : Map Huff := []
  ri : Nat := 0
  frame : Option JFrame := none
  blocks : Map (List Int) := []
  deriving DecidableEq, Repr

/-- n ÷ d, rounded up. -/
def ceilDiv (n d : Nat) : Nat := (n + d - 1) / d

/-- Largest sampling factors of a frame. -/
def JFrame.hmax (f : JFrame) : Nat := f.comps.foldl (fun a c => max a c.h) 1

/-- Largest vertical sampling factor. -/
def JFrame.vmax (f : JFrame) : Nat := f.comps.foldl (fun a c => max a c.v) 1

/-- Whether the sampling factors are 4:4:4, 4:2:2 or 4:2:0 (R501). -/
def JFrame.samplingOk (f : JFrame) : Bool :=
  match f.comps with
  | [c] => decide (1 ≤ c.h ∧ c.h ≤ 4 ∧ 1 ≤ c.v ∧ c.v ≤ 4)
  | [y, b, r] =>
    decide (1 ≤ b.h ∧ 1 ≤ b.v ∧ y.h ≤ 4 ∧ y.v ≤ 4 ∧ b.h = r.h ∧ b.v = r.v)
      && decide ((y.h = b.h ∧ y.v = b.v) ∨ (y.h = 2 * b.h ∧ y.v = b.v) ∨ (y.h = 2 * b.h ∧ y.v = 2 * b.v))
  | _ => false

/-- The blocks of one MCU of a scan, as (component index, block row, block column), with the scan's MCU count. -/
def scanBlocks (f : JFrame) (idx : List Nat) : Nat × (Nat → List (Nat × Nat × Nat)) :=
  match idx with
  | [i] =>
    let c := f.comps.getD i ⟨0, 1, 1, 0⟩
    let w := ceilDiv (ceilDiv (f.width * c.h) f.hmax) 8
    let h := ceilDiv (ceilDiv (f.height * c.v) f.vmax) 8
    (w * h, fun m => [(i, m / max w 1, m % max w 1)])
  | _ =>
    let w := ceilDiv f.width (8 * f.hmax)
    let h := ceilDiv f.height (8 * f.vmax)
    (w * h, fun m => idx.flatMap fun i =>
      let c := f.comps.getD i ⟨0, 1, 1, 0⟩
      (List.range (c.h * c.v)).map fun k => (i, m / max w 1 * c.v + k / max c.h 1, m % max w 1 * c.h + k % max c.h 1))

/-- Splits entropy-coded bytes at their restart markers: each interval's bytes with stuffing removed and the number of the
marker that ends it, and the bytes from the next other marker on. -/
def splitScan : List Byte → List Byte → List (List Byte × Option Nat) → List (List Byte × Option Nat) × List Byte
  | [], cur, acc => (acc ++ [(cur, none)], [])
  | [b], cur, acc => (acc ++ [(cur ++ [b], none)], [])
  | b :: m :: rest, cur, acc =>
    if b ≠ 0xFF then splitScan (m :: rest) (cur ++ [b]) acc
    else if m = 0 then splitScan rest (cur ++ [b]) acc
    else if m = 0xFF then splitScan (m :: rest) cur acc
    else if 0xD0 ≤ m ∧ m ≤ 0xD7 then splitScan rest [] (acc ++ [(cur, some (m.toNat - 0xD0))])
    else (acc ++ [(cur, none)], b :: m :: rest)

/-- The bits of a byte string, most significant first. -/
def bitsOf (bs : List Byte) : List Bool := bs.flatMap fun b => (List.range 8).map fun i => b.toNat.testBit (7 - i)

/-- A component of a scan: its index in the frame and its tables. -/
structure JScan where
  idx : Nat
  dc : Huff
  ac : Huff
  q : List Nat
  deriving DecidableEq, Repr

/-- Decodes the blocks of one MCU; `preds` holds the DC predictions by component. -/
def decodeMcu (sc : List JScan) : List (Nat × Nat × Nat) → Map Int → Map (List Int) → List Bool →
    Option (Map Int × Map (List Int) × List Bool)
  | [], preds, blocks, bs => some (preds, blocks, bs)
  | (i, y, x) :: rest, preds, blocks, bs =>
    match sc.find? fun c => decide (c.idx = i) with
    | none => none
    | some c =>
      match decodeBlock c.dc c.ac c.q (preds.get 0 i) bs with
      | none => none
      | some (f, v, bs) => decodeMcu sc rest (preds.set i v) (blocks.set (i * 2 ^ 24 + y * 2 ^ 12 + x) f) bs

/-- Decodes n MCUs of an interval from MCU m on. -/
def decodeMcus (sc : List JScan) (at_ : Nat → List (Nat × Nat × Nat)) : Nat → Nat → Map Int → Map (List Int) → List Bool →
    Option (Map (List Int))
  | 0, _, _, blocks, _ => some blocks
  | n + 1, m, preds, blocks, bs =>
    match decodeMcu sc (at_ m) preds blocks bs with
    | none => none
    | some (preds, blocks, bs) => decodeMcus sc at_ n (m + 1) preds blocks bs

/-- Decodes the intervals of a scan: each ends with the restart marker whose number is due, the last with none. -/
def decodeIntervals (sc : List JScan) (at_ : Nat → List (Nat × Nat × Nat)) (ri total : Nat) :
    List (List Byte × Option Nat) → Nat → Nat → Map (List Int) → Option (Map (List Int))
  | [], _, m, blocks => if total ≤ m then some blocks else none
  | (bytes, rst) :: rest, k, m, blocks =>
    let n := if ri = 0 then total - m else min ri (total - m)
    let due := if total ≤ m + n then none else some (k % 8)
    if rst ≠ due then none
    else match decodeMcus sc at_ n m [] blocks (bitsOf bytes) with
      | none => none
      | some blocks => decodeIntervals sc at_ ri total rest (k + 1) (m + n) blocks

/-- The components of an SOS header with their tables; none where one is missing. -/
def scanComps (st : JState) (f : JFrame) : List Byte → Option (List JScan)
  | c :: t :: rest =>
    let i := (List.range f.comps.length).find? fun i => decide ((f.comps.getD i ⟨0, 1, 1, 0⟩).id = c.toNat)
    match i with
    | none => none
    | some i =>
      match st.dc.find (t.toNat / 16), st.ac.find (t.toNat % 16), st.qt.find (f.comps.getD i ⟨0, 1, 1, 0⟩).tq with
      | some d, some a, some q => (scanComps st f rest).map fun x => ⟨i, d, a, q⟩ :: x
      | _, _, _ => none
  | _ => some []

/-- The tables of a DQT segment: 8-bit ones only in a baseline stream. -/
def readDqt : Nat → Map (List Nat) → List Byte → Option (Map (List Nat))
  | 0, _, _ => none
  | _, qt, [] => some qt
  | n + 1, qt, p :: rest =>
    if 4 ≤ p.toNat ∨ rest.length < 64 then none
    else readDqt n (qt.set p.toNat ((rest.take 64).map BitVec.toNat)) (rest.drop 64)

/-- The tables of a DHT segment: tables 0 and 1 of each class in a baseline stream. -/
def readDht : Nat → JState → List Byte → Option JState
  | 0, _, _ => none
  | _, st, [] => some st
  | n + 1, st, p :: rest =>
    let counts := (rest.take 16).map BitVec.toNat
    let total := counts.foldl (· + ·) 0
    if rest.length < 16 + total ∨ 1 < p.toNat % 16 ∨ 1 < p.toNat / 16 then none
    else
      let h := huffCodes 1 0 counts (((rest.drop 16).take total).map BitVec.toNat)
      let st := if p.toNat / 16 = 0 then { st with dc := st.dc.set (p.toNat % 16) h }
        else { st with ac := st.ac.set (p.toNat % 16) h }
      readDht n st (rest.drop (16 + total))

/-- The components of a frame header. -/
def readComps : List Byte → List JComp
  | c :: hv :: q :: rest => ⟨c.toNat, hv.toNat / 16, hv.toNat % 16, q.toNat⟩ :: readComps rest
  | _ => []

/-- Big-endian 16 bits at an offset. -/
def be16 (bs : List Byte) (i : Nat) : Nat := (bs.getD i 0).toNat * 256 + (bs.getD (i + 1) 0).toNat

/-- Why an image is not decoded: undecodable (R501), or above 16,384 pixels a side. -/
inductive JFail where
  | jpeg | limit
  deriving DecidableEq, Repr

/-- A frame header: 8-bit samples and one or three components (R501). -/
def readSof (seg : List Byte) : Except JFail JFrame :=
  let n := (seg.getD 5 0).toNat
  let f : JFrame := ⟨be16 seg 1, be16 seg 3, readComps ((seg.drop 6).take (3 * n))⟩
  if seg.getD 0 0 ≠ 8 ∨ (n ≠ 1 ∧ n ≠ 3) ∨ seg.length ≠ 6 + 3 * n ∨ f.height = 0 ∨ f.width = 0 ∨ f.samplingOk = false then
    .error .jpeg
  else if 16384 < f.height ∨ 16384 < f.width then .error .limit
  else .ok f

/-- Decodes the scan that an SOS segment begins; answers the state and the bytes after the scan. -/
def readScan (st : JState) (seg data : List Byte) : Option (JState × List Byte) :=
  match st.frame with
  | none => none
  | some f =>
    let n := (seg.getD 0 0).toNat
    let tail := seg.drop (1 + 2 * n)
    if n = 0 ∨ 4 < n ∨ seg.length ≠ 4 + 2 * n ∨ tail ≠ [0, 63, 0] then none
    else match scanComps st f ((seg.drop 1).take (2 * n)) with
      | none => none
      | some sc =>
        let parts := splitScan data [] []
        let m := scanBlocks f (sc.map JScan.idx)
        (decodeIntervals sc m.2 st.ri m.1 parts.1 0 0 st.blocks).map fun b => ({ st with blocks := b }, parts.2)

/-- Reads the marker segments of a stream up to EOI. -/
def readMarkers : Nat → JState → List Byte → Except JFail JState
  | 0, _, _ => .error .jpeg
  | n + 1, st, bs =>
    match bs with
    | x :: m :: rest =>
      if x ≠ 0xFF then .error .jpeg
      else if m = 0xFF then readMarkers n st (m :: rest)
      else if m = 0xD9 then .ok st
      else
        let len := be16 rest 0
        let seg := (rest.take len).drop 2
        let after := rest.drop len
        if len < 2 ∨ rest.length < len then .error .jpeg
        else if m = 0xDB then
          match readDqt (seg.length + 1) st.qt seg with
          | some q => readMarkers n { st with qt := q } after
          | none => .error .jpeg
        else if m = 0xC4 then
          match readDht (seg.length + 1) st seg with
          | some st => readMarkers n st after
          | none => .error .jpeg
        else if m = 0xC0 then
          if st.frame.isSome then .error .jpeg
          else match readSof seg with
            | .ok f => readMarkers n { st with frame := some f } after
            | .error e => .error e
        else if m = 0xDD then readMarkers n { st with ri := be16 seg 0 } after
        else if m = 0xDA then
          match readScan st seg after with
          | some x => readMarkers n x.1 x.2
          | none => .error .jpeg
        else if (0xE0 ≤ m ∧ m ≤ 0xEF) ∨ m = 0xFE then readMarkers n st after
        else .error .jpeg
    | _ => .error .jpeg

/-! ### Images -/

/-- An 8-bit image, row by row with channels interleaved. -/
structure Pix where
  w : Nat
  h : Nat
  ch : Nat
  bytes : List Nat
  deriving DecidableEq, Repr

/-- The samples of a component plane at full resolution: chroma is replicated (R502). -/
def planeSample (f : JFrame) (samples : Map (List Nat)) (i x y : Nat) : Nat :=
  let c := f.comps.getD i ⟨0, 1, 1, 0⟩
  let px := x * c.h / f.hmax
  let py := y * c.v / f.vmax
  (samples.get [] (i * 2 ^ 24 + py / 8 * 2 ^ 12 + px / 8)).getD (py % 8 * 8 + px % 8) 0

/-- An FP32 constant from a decimal fraction, rounded RNE (R502). -/
def dec32 (n d : Nat) : FVal := rne32 (.fin false n d)

/-- Rounds RNE to an integer and saturates to 0 to 255. -/
def toU8 (v : FVal) : Nat :=
  let c := (encodeInt 64 .rne 0 v).code
  (clampInt 0 255 (signed 64 c)).toNat

/-- YCbCr to RGB (R502). -/
def toRgb (y b r : Nat) : List Nat :=
  let n := fun (i : Int) => FVal.fin (decide (i < 0)) i.natAbs 1
  let yy := n y
  let bb := n ((b : Int) - 128)
  let rr := n ((r : Int) - 128)
  [toU8 (add32 yy (mul32 (dec32 1402 1000) rr)),
   toU8 (add32 (add32 yy (mul32 (dec32 344136 1000000) bb).negate) (mul32 (dec32 714136 1000000) rr).negate),
   toU8 (add32 yy (mul32 (dec32 1772 1000) bb))]

/-- Decodes a JPEG field (R501, R502); every block of every component must have been decoded. -/
def decodeJpeg (bs : List Byte) : Except JFail Pix :=
  match bs with
  | 0xFF :: 0xD8 :: rest =>
    match readMarkers (rest.length + 1) {} rest with
    | .error e => .error e
    | .ok st =>
      match st.frame with
      | none => .error .jpeg
      | some f =>
        let samples : Map (List Nat) := st.blocks.map fun b => (b.1, idctBlock b.2)
        let needed := (List.range f.comps.length).flatMap fun i =>
          let c := f.comps.getD i ⟨0, 1, 1, 0⟩
          let w := ceilDiv (ceilDiv (f.width * c.h) f.hmax) 8
          let h := ceilDiv (ceilDiv (f.height * c.v) f.vmax) 8
          (List.range (w * h)).map fun k => i * 2 ^ 24 + k / max w 1 * 2 ^ 12 + k % max w 1
        if needed.any fun k => (samples.find k).isNone then .error .jpeg
        else
          let px := (List.range (f.width * f.height)).flatMap fun k =>
            let x := k % f.width
            let y := k / f.width
            match f.comps with
            | [_] => [planeSample f samples 0 x y]
            | _ => toRgb (planeSample f samples 0 x y) (planeSample f samples 1 x y) (planeSample f samples 2 x y)
          .ok ⟨f.width, f.height, if f.comps.length = 1 then 1 else 3, px⟩
  | _ => .error .jpeg

end Sys2Proof.Machine
end

