-- ==== Sys2Proof/Machine/Geometry.lean ====
section
/-!
DEFINITION. The geometry stage of the decanters (R506, R507): source coordinates, sampling and the conversion of pixels.
-/
namespace Sys2Proof.Machine

/-- The FP32 value of a natural number. -/
def nat32 (n : Nat) : FVal := rne32 (.fin false n 1)

/-- The FP32 value of an integer. -/
def int32 (i : Int) : FVal := rne32 (.fin (decide (i < 0)) i.natAbs 1)

/-- a - b in FP32. -/
def sub32 (a b : FVal) : FVal := add32 a b.negate

/-- The FP32 field of a descriptor. -/
def fpAt (d : List Byte) (off : Nat) : FVal := Fmt.fp32.decode (leAt d off 4)

/-- LENS: source coordinates of an output pixel from FX, FY, CX, CY, K1, K2, K3, P1 and P2 (R506). -/
def lensAt (d : List Byte) (u v : Nat) : FVal × FVal :=
  let g := fun i => fpAt d (120 + 4 * i)
  let x := div32 (sub32 (nat32 u) (g 2)) (g 0)
  let y := div32 (sub32 (nat32 v) (g 3)) (g 1)
  let r2 := add32 (mul32 x x) (mul32 y y)
  let r4 := mul32 r2 r2
  let r6 := mul32 r4 r2
  let k := add32 (add32 (add32 (nat32 1) (mul32 (g 4) r2)) (mul32 (g 5) r4)) (mul32 (g 6) r6)
  let two := nat32 2
  let tang := fun p => mul32 (mul32 (mul32 two p) x) y
  let rad := fun z => add32 r2 (mul32 (mul32 two z) z)
  let xd := add32 (add32 (mul32 x k) (tang (g 7))) (mul32 (g 8) (rad x))
  let yd := add32 (add32 (mul32 y k) (mul32 (g 7) (rad y))) (tang (g 8))
  (add32 (mul32 (g 0) xd) (g 2), add32 (mul32 (g 1) yd) (g 3))

/-- The mesh cell of an output coordinate along one axis and the fraction within it (R506; log row 45). -/
def meshCell (u size points : Nat) : Nat × FVal :=
  if size ≤ 1 then (0, nat32 0)
  else
    let i := min (u * (points - 1) / (size - 1)) (points - 2)
    let at_ := fun j => div32 (nat32 (j * (size - 1))) (nat32 (points - 1))
    (i, div32 (sub32 (nat32 u) (at_ i)) (sub32 (at_ (i + 1)) (at_ i)))

/-- Linear interpolation in FP32. -/
def lerp32 (a b f : FVal) : FVal := add32 a (mul32 (sub32 b a) f)

/-- MESH: source coordinates from the table of control points (R506). -/
def meshAt (d table : List Byte) (u v : Nat) : FVal × FVal :=
  let mw := leAt d 89 1
  let cx := meshCell u (leAt d 84 2) mw
  let cy := meshCell v (leAt d 86 2) (leAt d 90 1)
  let pick := fun c =>
    let p := fun i j => fpAt table (8 * ((cy.1 + j) * mw + cx.1 + i) + c)
    lerp32 (lerp32 (p 0 0) (p 1 0) cx.2) (lerp32 (p 0 1) (p 1 1) cx.2) cy.2
  (pick 0, pick 4)

/-- The floor of a finite value. -/
def floorVal : FVal → Option Int
  | .fin neg n d => some (if neg then -(((n + d - 1) / d : Nat) : Int) else ((n / d : Nat) : Int))
  | _ => none

/-- A tap of the source (R507): CLAMP takes the nearest edge pixel and FILL the value FILL. -/
def tapAt (d : List Byte) (p : Pix) (c : Nat) (x y : Int) : FVal :=
  let inside := decide (0 ≤ x ∧ x < p.w ∧ 0 ≤ y ∧ y < p.h)
  if !inside && decide (leAt d 11 1 = 1) then fpAt d 92
  else
    let cx := (clampInt 0 ((p.w : Int) - 1) x).toNat
    let cy := (clampInt 0 ((p.h : Int) - 1) y).toNat
    nat32 (p.bytes.getD ((cy * p.w + cx) * p.ch + c) 0)

/-- The cubic convolution kernel with a = -0.5 in FP32 (R507; log row 45). -/
def cubic32 (t : FVal) : FVal :=
  let a := match t with
    | .fin _ n d => FVal.fin false n d
    | x => x
  let h := fun n => rne32 (.fin false n 2)
  if a.lt (nat32 1) || a.eqv (nat32 1) then
    add32 (mul32 (mul32 (sub32 (mul32 (h 3) a) (h 5)) a) a) (nat32 1)
  else if a.lt (nat32 2) then
    add32 (mul32 (sub32 (mul32 (add32 (mul32 (h 1).negate a) (h 5)) a) (nat32 4)) a) (nat32 2)
  else nat32 0

/-- A channel of the source at (xs, ys): the 2 × 2 or 4 × 4 taps around the point in FP32 (R507; log row 45). -/
def sampleAt (d : List Byte) (p : Pix) (c : Nat) (xs ys : FVal) : FVal :=
  match floorVal xs, floorVal ys with
  | some x0, some y0 =>
    let fx := sub32 xs (int32 x0)
    let fy := sub32 ys (int32 y0)
    if leAt d 9 1 = 0 then
      lerp32 (lerp32 (tapAt d p c x0 y0) (tapAt d p c (x0 + 1) y0) fx)
        (lerp32 (tapAt d p c x0 (y0 + 1)) (tapAt d p c (x0 + 1) (y0 + 1)) fx) fy
    else
      let row := fun (j : Int) => (List.range 4).foldl (fun a (i : Nat) =>
        add32 a (mul32 (tapAt d p c (x0 + i - 1) (y0 + j)) (cubic32 (sub32 (int32 ((i : Int) - 1)) fx)))) (nat32 0)
      (List.range 4).foldl (fun a (j : Nat) =>
        add32 a (mul32 (row ((j : Int) - 1)) (cubic32 (sub32 (int32 ((j : Int) - 1)) fy)))) (nat32 0)
  | _, _ => .nan

/-- The bytes of an output value: fma32(sample, SCALEc, BIASc) in OUT_PIX under RNE (R507). -/
def pixBytes (d : List Byte) (c : Nat) (v : FVal) : List Byte :=
  let x := fma32 v (fpAt d (96 + 4 * c)) (fpAt d (108 + 4 * c))
  match leAt d 10 1 with
  | 0 => [BitVec.ofNat 8 (toU8 x)]
  | 1 => leBytes 2 (Fmt.bf16.encode .rne true 0 x).code
  | _ => leBytes 4 (Fmt.fp32.encode .rne true 0 x).code

/-- An image as it leaves the geometry stage: OUT_H rows of OUT_W pixels with OUT_C channels; none for FIELD_INVALID
(R506, R507). -/
def geometry (d mesh : List Byte) (p : Pix) : Option (List Byte) :=
  let w := leAt d 84 2
  let h := leAt d 86 2
  let oc := leAt d 88 1
  let geom := leAt d 8 1
  if p.ch = 3 ∧ oc = 1 then none
  else if geom = 0 ∧ (p.w ≠ w ∨ p.h ≠ h) then none
  else
    some ((List.range (w * h)).flatMap fun k =>
      let u := k % w
      let v := k / w
      let xy := match geom with
        | 0 => (nat32 u, nat32 v)
        | 1 => lensAt d u v
        | _ => meshAt d mesh u v
      (List.range oc).flatMap fun c => pixBytes d c (sampleAt d p (if p.ch = 1 then 0 else c) xy.1 xy.2))

end Sys2Proof.Machine
end

