-- ==== Sys2Proof/Machine/Trellis.lean ====
section
/-!
DEFINITION. The trellis and the arbiters (R366 to R390): links, routing and lanes, changes of the routing tables, the
arbitration of a data phase, parking, refusal and starvation.
-/
namespace Sys2Proof.Machine

/-! ### Nodes and links -/

/-- The node beyond link d (0 N, 1 E, 2 S, 3 W) of a hub; stack S lies in column S div 8 and row S mod 8 (R10, R20, R21). -/
def neighbourNode (stack d : Nat) : Option Nat :=
  let col := stack / 8
  let row := stack % 8
  let die := [0, 0, 1, 1, 1, 2, 2, 3, 3].getD col 0
  match d with
  | 0 => if row = 0 then some (72 + die) else some (stack - 1)
  | 1 => if col = 8 then none else some (stack + 8)
  | 2 => if row = 7 then some (76 + die) else some (stack + 1)
  | 3 => if col = 0 then none else some (stack - 8)
  | _ => none

/-- The hubs that a server die or a port die attaches to, from west to east (Table 1-3). -/
def dieHubs (node : Nat) : List Nat :=
  (List.range 72).filter fun h => neighbourNode h (if node < 76 then 0 else 2) = some node

/-- The page that owns the router of a node. -/
def nodePage (node : Nat) : Nat :=
  if node < 72 then Page.router node else if node < 76 then Page.serverDie (node - 72) else Page.portDie (node - 76)

/-- ROUTER_STAT.LINK_UP of one link. -/
def State.linkUp (s : State) (stack d : Nat) : Bool := bit (s.reg (Page.router stack) Reg.ROUTER_STAT) (16 + d)

/-- Sets or clears ROUTER_STAT.LINK_UP of one link. -/
def State.setLink (s : State) (stack d : Nat) (up : Bool) : State :=
  s.setFld (Page.router stack) Reg.ROUTER_STAT (16 + d) (16 + d) up.toNat

/-- Whether a hub's router works: its page is neither OFF nor FAULTED (R22). -/
def State.routerAlive (s : State) (stack : Nat) : Bool :=
  let st := s.pageState (Page.router stack)
  decide (st ≠ PS.off ∧ st ≠ PS.faulted)

/-- The links of a hub train: each becomes up at both ends where the other node's router works. -/
def State.trainLinks (s : State) (stack : Nat) : State :=
  (List.range 4).foldl (fun s d =>
    match neighbourNode stack d with
    | none => s
    | some n =>
      if n < 72 then (if s.routerAlive n then (s.setLink stack d true).setLink n ((d + 2) % 4) true else s)
      else s.setLink stack d true) s

/-! ### Arbiters -/

/-- Key of the arbiter of group o of a page. -/
def arbKey (page o : Nat) : Nat := page * 8 + o

/-- Offset of the register group of an arbiter (R389). -/
def arbOff (o : Nat) : Nat := 0x600 + 0x40 * o

/-- The number of arbiters of a page (Table 12-3). -/
def arbCount (page : Nat) : Nat :=
  match pageKind page with
  | some .hubRouter => 5
  | some .gddrCtl => 1
  | some .fabricPort => 1
  | _ => 0

/-- The requests at an arbiter. -/
def State.arb (s : State) (page o : Nat) : List ArbEntry := s.trellis.entries.get [] (arbKey page o)

/-- Replaces the requests at an arbiter. -/
def State.setArb (s : State) (page o : Nat) (es : List ArbEntry) : State :=
  { s with trellis := { s.trellis with entries := s.trellis.entries.set (arbKey page o) es } }

/-- Adds an outcome of the running command (R385, R386). -/
def State.arbResult (s : State) (requester status park : Nat) : State :=
  { s with trellis := { s.trellis with results := s.trellis.results ++ [(requester, status, park)] } }

/-- The PARK bucket of an age in HCLK cycles (Table 12-6). -/
def parkBucket (age : Nat) : Nat :=
  if age = 0 then 0 else if age < 64 then 1 else if age < 256 then 2 else if age < 1024 then 3
  else if age < 4096 then 4 else if age < 16384 then 5 else if age < 65536 then 6 else 7

/-- The class of a request as the starvation registers give it (Table 12-13). -/
def ArbEntry.cls (e : ArbEntry) : Nat :=
  match e.transit with
  | some t => t.pkt.cls
  | none => 6

/-- Whether a request is a prefetch (R284). -/
def ArbEntry.isPrefetch (e : ArbEntry) : Bool :=
  match e.transit with
  | some t => t.pkt.pref && t.injected
  | none => decide (e.req.kind = .prefetch)

/-- Whether a request may not be refused (R382). -/
def ArbEntry.mustServe (e : ArbEntry) : Bool :=
  match e.transit with
  | some t => !t.injected || decide (t.pkt.cls ≠ 4)
  | none => decide (e.req.kind = .writeBack)

/-- SHARE of a partition at an arbiter; 48 at reset (Table 12-11). -/
def State.arbShare (s : State) (page o part : Nat) : Nat := s.trellis.shares.get 0x30 (arbKey page o * 64 + part)

/-- Entries 16 to 63 that a partition holds. -/
def State.arbUsed (s : State) (page o part : Nat) : Nat :=
  ((s.arb page o).filter fun e => e.parked && !e.mustServe && decide (e.req.part = part)).length

/-- Loads ARB_STAT and ARB_SHARE.USED of an arbiter, and ROUTER_STAT.IN_TRANSIT of a router (Tables 12-8, 12-11, 12-12). -/
def State.arbSync (s : State) (page o : Nat) : State :=
  let es := s.arb page o
  let off := arbOff o
  let s := s.setFld page (off + 0x10) 38 32 (es.filter fun e => e.parked).length
  let oldest := es.foldl (fun a e => if e.tried then max a e.age else a) 0
  let s := s.setFld page (off + 0x10) 31 0 (min oldest 0xFFFFFFFF)
  let s := s.setFld page (off + 8) 13 8 (s.arbUsed page o (s.fld page (off + 8) 21 16))
  if pageKind page = some .hubRouter then
    let n := (List.range 5).foldl (fun a q => a + (s.arb page q).length) 0
    s.setFld page Reg.ROUTER_STAT 15 0 (min n 0xFFFF)
  else s

/-- The page and point of the regulators that govern an arbiter (Table 9-18, R378, R484); none at LOCAL. -/
def arbPoint (page o : Nat) : Option (Nat × Nat) :=
  match pageKind page, pageStack page with
  | some .hubRouter, some st => if o < 4 then some (Page.regulator st, 6 + o) else none
  | some .gddrCtl, some st => some (Page.regulator st, page % 0x40 - 3)
  | some .fabricPort, _ => some (page, 0)
  | _, _ => none

/-- The priority of a regulator that governs the running arbitration (R381). -/
def State.prioNow (s : State) (page point part : Nat) : Nat :=
  s.trellis.oldPrio.get (s.bucket page point part).prio (bucketKey page point part)

/-- The regulator that charges and checks a request, with the bytes it charges: injected BULK packets where the link's
regulators are in force, fills and transmits (R297, R299, R300, R378). -/
def State.arbGovern (s : State) (page o : Nat) (e : ArbEntry) : Option (Nat × Nat × Nat) :=
  match arbPoint page o with
  | none => none
  | some (rp, pt) =>
    match e.transit with
    | some t =>
      if t.injected && decide (t.pkt.cls = 4) && bit (s.reg rp Reg.REG_CTL) o then some (rp, pt, t.pkt.bytes) else none
    | none => if e.req.kind = .writeBack then none else some (rp, pt, e.req.size)

/-- How a request stands with its regulator: 2 in budget or ungoverned, 1 borrowing, 0 over budget without BORROW
(R298, R299, R301, R379). -/
def State.arbStanding (s : State) (page o : Nat) (e : ArbEntry) : Nat :=
  match s.arbGovern page o e with
  | none => 2
  | some (rp, pt, n) =>
    let b := s.bucket rp pt e.req.part
    if b.inBudget n then 2 else if b.borrow then 1 else 0

/-- The priority of a request (Table 12-3, R378): at a router RSP, DAT, SNP, CTRL and REQ in that order above every BULK
packet; a write-back at 7. -/
def State.arbPrio (s : State) (page o : Nat) (e : ArbEntry) : Nat :=
  match e.transit with
  | some t =>
    match t.pkt.cls with
    | 2 => 13
    | 3 => 12
    | 1 => 11
    | 5 => 10
    | 0 => 9
    | _ =>
      if t.injected then
        match arbPoint page o with
        | some (rp, pt) => s.prioNow rp pt t.pkt.part
        | none => t.pkt.prio % 8
      else t.pkt.prio % 8
  | none =>
    if e.req.kind = .writeBack then 7
    else match arbPoint page o with
      | some (rp, pt) => s.prioNow rp pt e.req.part
      | none => 0

/-- The place of a request in the order of R379, higher first: its budget group and its priority. Prefetches lose to every
demand request (R284). -/
def State.arbRank (s : State) (page o : Nat) (e : ArbEntry) : Nat :=
  (if e.isPrefetch then 0 else s.arbStanding page o e) * 16 + s.arbPrio page o e

/-- The requests that may win: the first of each requester and channel (R384), unless it is over budget without BORROW. -/
def State.arbCandidates (s : State) (page o : Nat) : List (Nat × ArbEntry) :=
  let es := (s.arb page o).mapIdx fun i e => (i, e)
  es.filter fun x =>
    !(es.any fun y => decide (y.1 < x.1 ∧ y.2.req.requester = x.2.req.requester ∧ y.2.cls = x.2.cls
      ∧ y.2.req.kind = x.2.req.kind)) && decide (s.arbStanding page o x.2 ≠ 0)

/-- The winner (R379): highest rank, and among equals the first requester at or after the rotation pointer. -/
def State.arbWinner (s : State) (page o : Nat) : Option (Nat × ArbEntry) :=
  let ptr := s.trellis.rotate.get 0 (arbKey page o)
  let before := fun (x y : Nat × ArbEntry) =>
    let rx := s.arbRank page o x.2
    let ry := s.arbRank page o y.2
    let qx := (decide (x.2.req.requester < ptr)).toNat * 65536 + x.2.req.requester
    let qy := (decide (y.2.req.requester < ptr)).toNat * 65536 + y.2.req.requester
    decide (ry < rx) || (decide (ry = rx) && decide (qx < qy))
  (s.arbCandidates page o).foldl (fun b x =>
    match b with
    | none => some x
    | some y => if before x y then some x else some y) none

/-- Bytes of a request on the output: 32 B of header and the payload for a trellis packet (Table 12-1). -/
def ArbEntry.wire (e : ArbEntry) : Nat :=
  match e.transit with
  | some t => 32 + t.pkt.bytes
  | none => e.req.size

/-- What a grant charges (R298 to R300). -/
def State.arbCharge (s : State) (page o : Nat) (e : ArbEntry) : State :=
  match s.arbGovern page o e with
  | some (rp, pt, n) => (s.regulate rp pt e.req.part n).2
  | none =>
    if e.req.kind = .writeBack then
      match arbPoint page o with
      | some (rp, pt) => s.chargeForced rp pt e.req.part e.req.size
      | none => s
    else s

/-- A granted packet leaves its router: it travels to the next node, or is delivered at LOCAL (R370, Table 12-9). -/
def State.arbLeave (s : State) (page o : Nat) (e : ArbEntry) : State :=
  match e.transit, pageStack page with
  | some t, some st =>
    match neighbourNode st o with
    | none => s
    | some n =>
      let p : TrellisPkt := if t.injected ∧ t.pkt.cls = 4 then { t.pkt with prio := s.arbPrio page o e } else t.pkt
      let t' : Transit := { t with pkt := p, last := some o, injected := false, waited := none }
      let s : State := { s with trellis := { s.trellis with flight := s.trellis.flight ++ [⟨st, n, t'⟩] } }
      s.bumpUnits page 0 1 1024
  | _, _ => s

/-- One grant: the request leaves, is charged, and its requester sees OK or OK_DELAYED with its PARK bucket (R379, R385,
R386). -/
def State.arbGrant (s : State) (page o i : Nat) (e : ArbEntry) : State :=
  let before := match e.transit with
    | some t => t.waited
    | none => none
  let s' := s.arbCharge page o e
  let s' := s'.setArb page o ((s.arb page o).eraseIdx i)
  let s' : State := { s' with
    trellis := { s'.trellis with rotate := s'.trellis.rotate.set (arbKey page o) (e.req.requester + 1) } }
  let s' := s'.arbLeave page o e
  if e.tried || before.isSome then
    s'.arbResult e.req.requester St.okDelayed (parkBucket (max 1 (e.age + before.getD 0)))
  else s'.arbResult e.req.requester St.ok 0

/-- The grants of one data phase: up to four packets and 1,280 B at a router output, one request elsewhere; they stop at the
first winner that does not fit (R378, Table 12-3). -/
def arbGrants (page o : Nat) : Nat → Nat → State → State
  | 0, _, s => s
  | n + 1, cap, s =>
    match s.arbWinner page o with
    | none => s
    | some (i, e) =>
      if cap < e.wire then s else arbGrants page o n (cap - e.wire) (s.arbGrant page o i e)

/-- New requests that their regulator turns away: a prefetch over budget is dropped and counted, any other request without
BORROW is refused (R284, R299, R385). -/
def State.arbPresent (s : State) (page o : Nat) (e : ArbEntry) : Option ArbEntry × State :=
  if e.tried then (some e, s)
  else match s.arbGovern page o e with
    | none => (some e, s)
    | some (rp, pt, n) =>
      let b := s.bucket rp pt e.req.part
      if b.inBudget n then (some e, s)
      else if e.isPrefetch then
        (none, match pageStack page with
          | some st => s.bump (Page.cache st) 9
          | none => s)
      else if b.borrow then (some e, s)
      else (none, (s.regulate rp pt e.req.part n).2.arbResult e.req.requester St.refusedBudget 0)

/-- A loser (R382, R383, R385, R387): a prefetch is dropped; what may not be refused takes one of entries 0 to 15 or stays
presented; any other takes one of entries 16 to 63 within its partition's SHARE or is refused. -/
def State.arbLose (s : State) (page o : Nat) (done : List ArbEntry) (e : ArbEntry) (rest : List ArbEntry) :
    List ArbEntry × State :=
  let others := done ++ rest
  let off := arbOff o
  let count := fun (s : State) => s.setReg page (off + 0x20) (s.reg page (off + 0x20) + 1)
  if e.isPrefetch then
    (done, match pageStack page with
      | some st => s.bump (Page.cache st) 9
      | none => s)
  else if e.parked then (done ++ [e], s)
  else if e.mustServe then
    let room := decide ((others.filter fun x => x.parked && x.mustServe).length < 16)
    (done ++ [{ e with tried := true, parked := room }], if e.tried then s else count s)
  else
    let used := others.filter fun x => x.parked && !x.mustServe
    let own := used.filter fun x => decide (x.req.part = e.req.part)
    if own.length < s.arbShare page o e.req.part ∧ used.length < 48 then
      (done ++ [{ e with tried := true, parked := true }], count s)
    else
      let s := s.setReg page (off + 0x28) (s.reg page (off + 0x28) + 1)
      (done, s.arbResult e.req.requester St.refusedFull 0)

/-- Presents the new requests of an arbiter to their regulators. -/
def State.arbPresents (s : State) (page o : Nat) : State :=
  let r := (s.arb page o).foldl (fun (a : List ArbEntry × State) e =>
    let x := a.2.arbPresent page o e
    (a.1 ++ x.1.toList, x.2)) ([], s)
  r.2.setArb page o r.1

/-- The losers of an arbitration, in order of presentation. -/
def State.arbLosers (page o : Nat) : List ArbEntry → List ArbEntry → State → State
  | done, [], s => s.setArb page o done
  | done, e :: rest, s =>
    let r := s.arbLose page o done e rest
    State.arbLosers page o r.1 rest r.2

/-- Every parked or held entry ages. -/
def State.arbAge (s : State) (page o cycles : Nat) : State :=
  s.setArb page o ((s.arb page o).map fun e => if e.tried then { e with age := e.age + cycles } else e)

/-- Starvation (R388): the first entry loads ARB_STARVE_SRC, and each entry is posted once. -/
def State.arbStarve (s : State) (page o : Nat) : State :=
  let limit := s.fld page (arbOff o) 15 0 * 64
  let r := (s.arb page o).foldl (fun (a : List ArbEntry × State) e =>
    if limit ≠ 0 ∧ e.tried = true ∧ e.posted = false ∧ limit < e.age then
      let s := a.2
      let stat := s.reg page (arbOff o + 0x10)
      let s := if bit stat 63 then s
        else s.setReg page (arbOff o + 0x18) (place 21 16 e.req.part ||| place 2 0 e.cls)
      let s := s.setReg page (arbOff o + 0x10) (setBit stat 63 true)
      (a.1 ++ [{ e with posted := true }], s.genEvent page 0x0290 e.req.part
        (place 5 0 e.req.part ||| place 10 8 e.cls ||| place 18 16 o ||| place 63 32 (e.age / 64)))
    else (a.1 ++ [e], a.2)) ([], s)
  r.2.setArb page o r.1

/-- Old priorities end with the arbitration that they governed (R381). -/
def State.arbForget (s : State) (page o : Nat) : State :=
  match arbPoint page o with
  | none => s
  | some (rp, pt) =>
    { s with trellis := { s.trellis with oldPrio := s.trellis.oldPrio.drop fun k => k / 64 == rp * 16 + pt } }

/-- Whether a request of a kind may stand at the arbiter of a page: trellis packets come through PACKET_ROUTE. -/
def arbTakes (page : Nat) (r : ArbReq) : Bool :=
  match pageKind page, r.kind with
  | some .gddrCtl, .fill => true
  | some .gddrCtl, .prefetch => true
  | some .gddrCtl, .writeBack => true
  | some .fabricPort, .transmit => true
  | _, _ => false

/-- One arbitration of a page's group o, `cycles` HCLK cycles after the one before (R377 to R386): the new requests are
presented, the data phase is granted, and the losers are parked, held or refused. -/
def State.arbitrate (s : State) (page o cycles : Nat) (reqs : List ArbReq) : State :=
  let s : State := { s with trellis := { s.trellis with results := [] } }
  let s := s.arbAge page o cycles
  let s := s.setArb page o (s.arb page o ++ (reqs.filter (arbTakes page)).map fun r => { req := r })
  let s := s.arbPresents page o
  let s := if pageKind page = some .hubRouter then arbGrants page o 4 1280 s
    else arbGrants page o 1 ((s.arb page o).foldl (fun a e => max a e.wire) 0) s
  let s := State.arbLosers page o [] (s.arb page o) s
  ((s.arbForget page o).arbStarve page o).arbSync page o

/-- ARBITRATION (R379). -/
def execArbitration (page o cycles : Nat) (reqs : List ArbReq) (s : State) : Out :=
  .next (if o < arbCount page then s.arbitrate page o cycles reqs else s)

/-- ARB_STARVED: `cycles` HCLK cycles pass without an arbitration at an arbiter (R388). -/
def execArbStarved (page o cycles : Nat) (s : State) : Out :=
  .next (if o < arbCount page then ((s.arbAge page o cycles).arbStarve page o).arbSync page o else s)

/-- PRIO_WRITE: a write of the REG_DATA that REG_INDEX selects; where it lands less than one HCLK cycle before the sample
edge of the next arbitration, the old PRIO governs that one (R381). -/
def execPrioWrite (i : Ident) (page : Nat) (v : Word) (late : Bool) (s : State) : Out :=
  .next (if [some PageKind.regulator, some .fabricPort].contains (pageKind page) then
    s.writeVia i page (regIndexOff page + 8) v fun s =>
      let sel := s.regSelected page
      let old := (s.bucket page sel.1 sel.2).prio
      let s := regDataEff page v s
      if late then
        { s with trellis := { s.trellis with oldPrio := s.trellis.oldPrio.set (bucketKey page sel.1 sel.2) old } }
      else s
  else s)

/-- A write of ARB_SHARE selects a partition and, with SET, sets its SHARE; a reserved SHARE sets nothing (R387, Table
12-11). -/
def arbShareEff (page o : Nat) (v : Word) (s : State) : State :=
  let part := bits v 21 16
  let share := bits v 5 0
  let s : State := if bit v 31 ∧ share ≤ 48 then
      { s with trellis := { s.trellis with shares := s.trellis.shares.set (arbKey page o * 64 + part) share } }
    else s
  s.setReg page (arbOff o + 8) (place 21 16 part ||| place 13 8 (s.arbUsed page o part)
    ||| place 5 0 (s.arbShare page o part))

/-- ARB_SHARE_WRITE (R387). -/
def execArbShareWrite (i : Ident) (page o : Nat) (v : Word) (s : State) : Out :=
  .next (if o < arbCount page then s.writeVia i page (arbOff o + 8) v (arbShareEff page o v) else s)

/-! ### Links that fail -/

/-- One end of a link goes down: the event, LINK_UP, and the packets queued for that output, which the router holds with
those that have not reached the other end (R374; log row 43). -/
def State.linkDownEnd (s : State) (stack d : Nat) : State :=
  let page := Page.router stack
  if !s.linkUp stack d then s
  else
    let s := (s.setLink stack d false).genEvent page 0x0291 0 (place 1 0 d)
    let out := s.trellis.flight.filter fun h => decide (h.src = stack ∧ some h.dst = neighbourNode stack d)
    let back := out.map (·.transit) ++ (s.arb page d).filterMap (·.transit)
    let s := s.setArb page d []
    let s : State := { s with trellis := { s.trellis with
      flight := s.trellis.flight.filter fun h => !decide (h.src = stack ∧ some h.dst = neighbourNode stack d)
      held := s.trellis.held ++ back.map fun t => (stack, s.panelTime.toNat, t) } }
    s.arbSync page d

/-- A link goes down: both routers act (R374); a die's router posts from its own page. -/
def State.linkDown (s : State) (stack d : Nat) : State :=
  if !s.linkUp stack d then s
  else
    let s := s.linkDownEnd stack d
    match neighbourNode stack d with
    | none => s
    | some n =>
      if n < 72 then s.linkDownEnd n ((d + 2) % 4)
      else s.genEvent (nodePage n) 0x0291 0 (place 1 0 ((d + 2) % 4))

/-- TRELLIS_LINK_DOWN (R374). -/
def execTrellisLinkDown (stack d : Nat) (s : State) : Out :=
  .next (if stack < 72 ∧ d < 4 then s.linkDown stack d else s)

/-- FLIT_RECEIVE: a flit of link d reaches the far end of a hub's link; one whose CRC fails is discarded there and replayed
by this hub, which counts it; the 257th replay within 1 ms takes the link down (R367). -/
def execFlitReceive (stack d : Nat) (crcOk : Bool) (s : State) : Out :=
  .next (if 72 ≤ stack ∨ 4 ≤ d ∨ crcOk = true ∨ s.linkUp stack d = false then s
  else
    let now := s.panelTime.toNat
    let ts := (s.trellis.replays.get [] (stack * 4 + d)).filter fun t => decide (now < t + 1000000)
    let s := s.bump (Page.router stack) 5
    let s : State := { s with trellis := { s.trellis with replays := s.trellis.replays.set (stack * 4 + d) (ts ++ [now]) } }
    if 256 < ts.length + 1 then
      let s : State := { s with trellis := { s.trellis with replays := s.trellis.replays.drop fun k => k == stack * 4 + d } }
      s.linkDown stack d
    else s)

/-! ### Routing -/

/-- The routing table entry of a node for a destination (Table 12-2, R372): a port, or none for UNREACHABLE and an invalid
entry. -/
def State.routeOf (s : State) (node dst : Nat) : Option Nat :=
  let e := if node < 72 then s.reg (Page.router node) (Reg.ROUTE + 8 * dst)
    else s.trellis.dieRoutes.get 5 (node * 128 + dst)
  if dst < 80 ∧ bit e 7 = true ∧ bits e 2 0 < 5 then some (bits e 2 0) else none

/-- A packet waits at an output of a router, or is held where the output's link is down or the table gives none (R374; log
row 43). -/
def State.enqueue (s : State) (stack o requester : Nat) (t : Transit) : State :=
  let page := Page.router stack
  if o < 4 ∧ s.linkUp stack o = false then
    { s with trellis := { s.trellis with held := s.trellis.held ++ [(stack, s.panelTime.toNat, t)] } }
  else
    let e : ArbEntry := { req := ⟨requester, t.pkt.part, .packet, 32 + t.pkt.bytes⟩, transit := some t }
    (s.setArb page o (s.arb page o ++ [e])).arbSync page o

/-- A router routes a packet (R371): a turn that lane 0 forbids moves it to lane 1, and one that lane 1 forbids discards
it with ROUTE_FAULT. -/
def State.routeAt (s : State) (stack requester : Nat) (t : Transit) : State :=
  match s.routeOf stack t.pkt.dst with
  | none => { s with trellis := { s.trellis with held := s.trellis.held ++ [(stack, s.panelTime.toNat, t)] } }
  | some o =>
    let turns := fun d => decide (o = d) && t.last.any (fun l => decide (l ≠ d))
    if t.lane = 1 ∧ turns 1 = true then
      (s.bump (Page.router stack) 6).genEvent (Page.router stack) 0x0292 0
        (place 6 0 t.pkt.src ||| place 14 8 t.pkt.dst)
    else s.enqueue stack o requester (if t.lane = 0 ∧ turns 3 = true then { t with lane := 1 } else t)

/-- A node injects a packet (R371 to R373, R378). -/
def State.inject (s : State) (node requester : Nat) (p : TrellisPkt) (waited : Option Nat) : State :=
  match s.routeOf node p.dst with
  | none => s.arbResult requester St.unitUnavailable 0
  | some o =>
    let t : Transit := { pkt := p, injected := true, waited := waited }
    if node < 72 then (s.bumpUnits (Page.router node) 1 1 1024).enqueue node o requester t
    else
      match (dieHubs node)[o]? with
      | none => s.arbResult requester St.unitUnavailable 0
      | some h =>
        let t' : Transit := { t with injected := false, last := some (if node < 76 then 2 else 0) }
        { s with trellis := { s.trellis with flight := s.trellis.flight ++ [⟨node, h, t'⟩] } }

/-- The requester index of the packets that arrive on a link of a hub: 0 N, 1 E, 2 S, 3 W; a hub's own requesters follow
(log row 43). -/
def inputOf (stack src : Nat) : Nat :=
  ((List.range 4).find? fun d => neighbourNode stack d = some src).getD 0

/-- PACKET_ROUTE: a node injects a packet of one of its requesters, or takes the oldest packet on its way from another node.
A server die or port die delivers what reaches it and never forwards (R368, R371, R372). -/
def execPacketRoute (node src requester : Nat) (inj : Option TrellisPkt) (s : State) : Out :=
  .next (
  let s : State := { s with trellis := { s.trellis with results := [] } }
  if 80 ≤ node then s
  else match inj with
    | some p =>
      let p : TrellisPkt := { p with src := node, cls := p.cls % 6, part := p.part % 64, bytes := min p.bytes 1024 }
      let rq := 4 + requester
      if node < 72 ∧ s.routerAlive node = false then s.arbResult rq St.unitUnavailable 0
      else if node < 72 ∧ bit (s.reg (Page.router node) Reg.ROUTER_CTL) 0 = true then
        { s with trellis := { s.trellis with waits := s.trellis.waits ++ [(node, rq, s.panelTime.toNat, p)] } }
      else s.inject node rq p none
    | none =>
      match s.trellis.flight.find? fun h => decide (h.src = src ∧ h.dst = node) with
      | none => s
      | some h =>
        let s : State := { s with trellis := { s.trellis with flight := s.trellis.flight.erase h } }
        if 72 ≤ node ∨ s.routerAlive node = false then s
        else s.routeAt node (inputOf node src) h.transit)

/-! ### Changes of the routing tables -/

/-- HCLK cycles since a PANEL_TIME: 1.6 in a nanosecond. -/
def State.cyclesSince (s : State) (t : Nat) : Nat := (s.panelTime.toNat - t) * 8 / 5

/-- A held packet is injected again: in lane 0, counted, and with the priority that its source gave it. The sender of a
SEND.H unit records UNIT_UNAVAILABLE and stops (R374, R573). -/
def State.reinject (s : State) (stack since : Nat) (t : Transit) : State :=
  let s := s.bump (Page.router stack) 4
  let s := match t.pkt.sendH with
    | none => s
    | some (c, k) =>
      let x := (s.core c).tokens.get ({ kind := 0 } : Token) k
      if x.kind = 4 ∧ x.faulted = false then s.tokenFault c k St.unitUnavailable 0 else s
  s.routeAt stack 4 { t with lane := 0, last := none, waited := some (t.waited.getD 0 + s.cyclesSince since) }

/-- Clearing INJECT_HOLD of a router: the packets it holds are injected again, and the requests that waited at their
injection points proceed in their order (R373, R374). -/
def State.holdClear (s : State) (stack : Nat) : State :=
  let s := s.setFld (Page.router stack) Reg.ROUTER_CTL 0 0 0
  let hs := s.trellis.held.filter fun h => decide (h.1 = stack)
  let ws := s.trellis.waits.filter fun w => decide (w.1 = stack)
  let s : State := { s with trellis := { s.trellis with
    held := s.trellis.held.filter fun h => !decide (h.1 = stack)
    waits := s.trellis.waits.filter fun w => !decide (w.1 = stack) } }
  let s := hs.foldl (fun s h => s.reinject stack h.2.1 h.2.2) s
  ws.foldl (fun s w => s.inject stack w.2.1 w.2.2.2 (some (s.cyclesSince w.2.2.1))) s

/-- A write of ROUTER_CTL (Table 12-7). -/
def routerCtlEff (stack : Nat) (v : Word) (s : State) : State :=
  if bit v 0 then s.setFld (Page.router stack) Reg.ROUTER_CTL 0 0 1
  else if bit (s.reg (Page.router stack) Reg.ROUTER_CTL) 0 then s.holdClear stack
  else s

/-- INJECT_HOLD_SET (R373). -/
def execInjectHoldSet (i : Ident) (stack : Nat) (s : State) : Out :=
  .next (if stack < 72 then s.writeVia i (Page.router stack) Reg.ROUTER_CTL 1 (routerCtlEff stack 1) else s)

/-- INJECT_HOLD_CLEAR (R373, R374). -/
def execInjectHoldClear (i : Ident) (stack : Nat) (s : State) : Out :=
  .next (if stack < 72 then s.writeVia i (Page.router stack) Reg.ROUTER_CTL 0 (routerCtlEff stack 0) else s)

/-- Whether every router is drained: ROUTER_STAT.IN_TRANSIT is zero in every router that works, and no packet is between two
nodes. -/
def State.trellisDrained (s : State) : Bool :=
  s.trellis.flight.isEmpty
    && (List.range 72).all fun st => decide (s.fld (Page.router st) Reg.ROUTER_STAT 15 0 = 0)

/-- One entry of a routing table, as node, destination and register value. -/
def State.writeRoute (s : State) (e : Nat × Nat × Nat) : State :=
  let v := place 7 7 (natBits e.2.2 7 7) ||| place 2 0 (natBits e.2.2 2 0)
  if 80 ≤ e.2.1 then s
  else if e.1 < 72 then s.setReg (Page.router e.1) (Reg.ROUTE + 8 * e.2.1) v
  else if e.1 < 80 then
    { s with trellis := { s.trellis with dieRoutes := s.trellis.dieRoutes.set (e.1 * 128 + e.2.1) v } }
  else s

/-- Rebuilds the routing tables: holds injection in every router and, once all are drained, writes the tables that the panel
management controller has built and releases injection (R373). -/
def State.rebuildRoutes (s : State) (tables : List (Nat × Nat × Nat)) : State :=
  let s := (List.range 72).foldl (fun (s : State) st => s.setFld (Page.router st) Reg.ROUTER_CTL 0 0 1) s
  if s.trellisDrained then
    let s := tables.foldl State.writeRoute s
    (List.range 72).foldl (fun (s : State) st => s.holdClear st) s
  else s

/-- A router that leaves READY for OFF or FAULTED loses every packet it holds, and its neighbours treat its links as down
(R375). -/
def State.routerLost (s : State) (stack : Nat) : State :=
  let s := (List.range 5).foldl (fun (s : State) o => (s.setArb (Page.router stack) o []).arbSync (Page.router stack) o) s
  let s : State := { s with trellis := { s.trellis with
    held := s.trellis.held.filter fun h => !decide (h.1 = stack)
    waits := s.trellis.waits.filter fun w => !decide (w.1 = stack)
    flight := s.trellis.flight.filter fun h => !decide (h.src = stack) } }
  (List.range 4).foldl (fun s d =>
    let up := s.linkUp stack d
    let s := s.setLink stack d false
    match neighbourNode stack d with
    | none => s
    | some n =>
      if n < 72 then s.linkDownEnd n ((d + 2) % 4)
      else if up then s.genEvent (nodePage n) 0x0291 0 (place 1 0 ((d + 2) % 4))
      else s) s

end Sys2Proof.Machine
end

