-- ==== Sys2Proof/Machine/Decanter.lean ====
section
/-!
DEFINITION. The decanters (R488 to R518): streams and requests, the record container, sample order, alignment, packing of
rows, slots, stops and restarts.
-/
namespace Sys2Proof.Machine

/-! ### Streams -/

/-- Key of a stream. -/
def decKey (n k : Nat) : Nat := n * 16 + k

/-- A stream of a decanter. -/
def State.dec (s : State) (n k : Nat) : DecStream := s.decs.get {} (decKey n k)

/-- Replaces a stream. -/
def State.setDec (s : State) (n k : Nat) (x : DecStream) : State := { s with decs := s.decs.set (decKey n k) x }

/-- Offset of a register of a stream group (R517). -/
def decOff (k r : Nat) : Nat := 0x400 + 0x40 * k + r

/-- A register of a stream group. -/
def State.decReg (s : State) (n k r : Nat) : Word := s.reg (Page.decanter n) (decOff k r)

/-- STREAM_STAT.STATE (Table 16-10). -/
def State.decState (s : State) (n k : Nat) : Nat := bits (s.decReg n k 0x28) 2 0

/-- Loads a field of STREAM_STAT. -/
def State.decStat (s : State) (n k hi lo x : Nat) : State := s.setFld (Page.decanter n) (decOff k 0x28) hi lo x

/-- STREAM_CFG.PARTITION. -/
def State.decPart (s : State) (n k : Nat) : Nat := bits (s.decReg n k 8) 5 0

/-- STREAM_POS.POS. -/
def State.decPos (s : State) (n k : Nat) : Nat := bits (s.decReg n k 0x20) 47 0

/-- Loads STREAM_POS. -/
def State.setDecPos (s : State) (n k p : Nat) : State := s.setFld (Page.decanter n) (decOff k 0x20) 47 0 p

/-- The context of a stream's accesses: its partition and the PASID of its descriptor (R488). -/
def State.decCtxt (s : State) (n k : Nat) : Ctxt :=
  ⟨none, s.decPart n k, leAt (s.dec n k).desc 156 4 % 2 ^ 20, .engine⟩

/-- What a piece of a stream's work comes to: a result, a wait for a page or for a transient leaf, or a stop with its
reason and status (R488, R513). -/
inductive DecGot (α : Type) where
  | ok (x : α) (s : State)
  | page (va : Nat) (s : State)
  | wait (s : State)
  | stop (reason status : Nat) (s : State)
  deriving DecidableEq, Repr

/-- Continues with a result. -/
def DecGot.bind {α β : Type} (g : DecGot α) (f : α → State → DecGot β) : DecGot β :=
  match g with
  | .ok x s => f x s
  | .page va s => .page va s
  | .wait s => .wait s
  | .stop r st s => .stop r st s

/-- A read of a stream; a failed access stops it with reason MEMORY (R488, Table 16-9). -/
def decRead (x : Ctxt) (s : State) (va n : Nat) : DecGot (List Byte) :=
  let r := s.vread x va n
  match r.1 with
  | .status st => if st = St.ok then .ok r.2.1 r.2.2 else .stop 12 st r.2.2
  | .absent va => .page va r.2.2
  | .wait => .wait r.2.2

/-- Writes the pieces of a slot; where an access does not succeed none of them is written (R513). -/
def decWrite (x : Ctxt) (base : Nat) : List (Nat × List Byte) → State → DecGot Unit
  | [], s => .ok () s
  | (off, bs) :: rest, s =>
    let keep := fun (t : State) => { t with mem := s.mem, bad := s.bad }
    let r := s.vwrite x (base + off) bs
    match r.1 with
    | .status st =>
      if st = St.ok then
        match decWrite x base rest r.2.2 with
        | .ok u t => .ok u t
        | .page va t => .page va (keep t)
        | .wait t => .wait (keep t)
        | .stop a b t => .stop a b (keep t)
      else .stop 12 st (keep r.2.2)
    | .absent va => .page va (keep r.2.2)
    | .wait => .wait (keep r.2.2)

/-- The stream waits for a page: a page request goes out (R353, R488). -/
def State.decHold (s : State) (n k va : Nat) : State :=
  let s := s.pageRequest (s.decCtxt n k) va .engine
  s.setDec n k { s.dec n k with pageWait := some (va / 4096) }

/-! ### Requests -/

/-- Whether the request ring is empty: TAIL equals HEAD, or REQ_BASE is unwritten (R4, R492). -/
def State.decRingEmpty (s : State) (n k : Nat) : Bool :=
  !s.isWritten (Page.decanter n) (decOff k 0x10) || decide (bits (s.decReg n k 0x30) 3 0 = bits (s.decReg n k 0x28) 7 4)

/-- The address of a request entry (R492). -/
def State.decEntry (s : State) (n k i : Nat) : Nat := (s.decReg n k 0x10).toNat + 32 * i

/-- A stream that runs waits while it has no request and its ring is empty (Table 16-10). -/
def State.decArm (s : State) (n k : Nat) : State :=
  s.decStat n k 2 0 (if (s.dec n k).req.isNone && s.decRingEmpty n k then 2 else 1)

/-- Writes the completion of the current request, CFLAGS last, and posts DECANT_DONE where it asks for it (R493, R518). A
page request holds it back; any other failure leaves the entry as it is. -/
def State.decClose (s : State) (n k : Nat) (r : DecReq) (status : Nat) (end_ : Bool) (pos : Nat) : State :=
  let e := s.decEntry n k r.index
  let x := s.decCtxt n k
  let body := leBytes 4 r.done ++ [BitVec.ofNat 8 status]
  let w := decWrite x e [(16, body), (22, leBytes 2 0 ++ leBytes 8 pos), (21, [BitVec.ofNat 8 (1 + 2 * end_.toNat)])] s
  let hold := fun (s : State) => s.setDec n k { s.dec n k with req := some { r with closing := some (status, end_, pos) } }
  match w with
  | .page va s => (hold s).decHold n k va
  | .wait s => hold s
  | .ok _ s =>
    let s := s.setDec n k { s.dec n k with req := none }
    if r.irq then
      s.genEvent (Page.decanter n) 0x02C1 (s.decPart n k)
        (place 31 0 r.done ||| place 35 32 k ||| place 39 36 r.index ||| place 40 40 end_.toNat ||| place 63 56 status)
    else s
  | .stop _ _ s => s.setDec n k { s.dec n k with req := none }

/-- A stop (R513): the request completes, STREAM_STAT and STOP_OFFSET are loaded, and DECANT_STOP is posted. A stop that no
record causes has a free file and offset. -/
def State.decStop (s : State) (n k reason status pos : Nat) (at_ : Option (Nat × Nat)) : State :=
  let s := match (s.dec n k).req with
    | some r => if r.closing.isSome then s else s.decClose n k r status false pos
    | none => s
  let f := match at_ with
    | some p => (p, s)
    | none => let w := s.free; ((bits w.1 47 40, bits w.1 39 0), w.2)
  let s := f.2
  let s := s.decStat n k 2 0 3
  let s := s.decStat n k 31 28 reason
  let s := s.decStat n k 39 32 status
  let s := s.decStat n k 63 48 (bits (s.decReg n k 0x28) 63 48 + 1)
  let s := s.setDecPos n k pos
  let s := s.setReg (Page.decanter n) (decOff k 0x38) (place 47 40 f.1.1 ||| place 39 0 f.1.2)
  let s := s.bump (Page.decanter n) 5
  s.genEvent (Page.decanter n) 0x02C0 (s.decPart n k)
    (place 39 0 f.1.2 ||| place 47 40 f.1.1 ||| place 51 48 k ||| place 55 52 reason ||| place 63 56 status)

/-- Takes the next request entry; one whose reserved bytes are not zero completes with INPUT_CORRUPT (R492, R493). -/
def State.decTake (s : State) (n k : Nat) : State :=
  let h := bits (s.decReg n k 0x28) 7 4
  match decRead (s.decCtxt n k) s (s.decEntry n k h) 32 with
  | .page va s => s.decHold n k va
  | .wait s => s
  | .stop r st s => s.decStop n k r st (s.decPos n k) none
  | .ok e s =>
    let r : DecReq := { index := h, dst := leAt e 0 8, nslots := leAt e 8 4, irq := (leAt e 12 1).testBit 0 }
    let s := s.decStat n k 7 4 ((h + 1) % 16)
    let sound := decide (leAt e 12 1 < 2 ∧ 1 ≤ r.nslots ∧ r.nslots ≤ 2 ^ 20 ∧ r.dst % 64 = 0)
      && zeroAt e 13 3 && zeroAt e 22 2
    if sound then s.setDec n k { s.dec n k with req := some r }
    else (s.decClose n k r St.inputCorrupt false (s.decPos n k)).decArm n k

/-! ### The descriptor -/

/-- What is wrong with a descriptor, if anything (R491, Table 16-1). -/
def streamDescStatus (d : List Byte) : Nat :=
  let f := leAt d
  let t := f 56 4
  let one := fun off lo hi => decide (lo ≤ f off 1 ∧ f off 1 ≤ hi)
  let mesh := decide (f 8 1 = 2)
  let pts := fun off => if mesh then one off 2 65 else one off 0 0
  let align := (f 12 1).testBit 0
  let slot := (64 + 10 * t + 63) / 64 * 64 + 16 * min t 65535
  if f 0 4 ≠ 0x53445A50 ∨ f 252 4 ≠ crc32c (d.take 252) then St.inputCorrupt
  else if f 4 2 ≠ 0x1100 then St.versionMismatch
  else if one 6 1 2 && one 7 0 1 && one 8 0 2 && one 9 0 1 && one 10 0 2 && one 11 0 1 && one 12 0 3 && one 13 0 15
      && (f 14 2).testBit (f 13 1) && decide (1 ≤ f 16 8 ∧ f 16 8 ≤ 2 ^ 48) && decide (1 ≤ f 54 2 ∧ f 52 2 < f 54 2)
      && decide (1 ≤ t ∧ t ≤ 2097152) && one 60 1 64 && zeroAt d 61 3 && zeroAt d 68 4 && decide (f 72 8 % 64 = 0)
      && decide (1 ≤ f 84 2 ∧ f 84 2 ≤ 16384 ∧ 1 ≤ f 86 2 ∧ f 86 2 ≤ 16384) && decide (f 88 1 = 1 ∨ f 88 1 = 3)
      && pts 89 && pts 90 && zeroAt d 91 1 && decide (f 156 4 < 2 ^ 20) && zeroAt d 168 84
      && !(align && decide (f 6 1 = 1 ∨ f 7 1 = 1)) && !(decide (f 6 1 = 1 ∧ f 72 8 < slot)) then St.ok
  else St.inputCorrupt

/-- START: discards rows and buffers, reads the descriptor and sets the position to 0; a descriptor at fault leaves the
stream IDLE (R4, R490, R491, R515; log row 44). -/
def State.decStart (s : State) (n k : Nat) : State :=
  let old := s.dec n k
  let fail := fun (s : State) st =>
    ((s.setDec n k { req := old.req }).decStat n k 2 0 0).decStat n k 47 40 st
  if !s.ready (Page.decanter n) || !bit (s.decReg n k 8) 63 || !s.isWritten (Page.decanter n) (decOff k 0) then
    s.decStat n k 47 40 St.unitUnavailable
  else
    let s := s.setDec n k { starting := true, req := old.req }
    match decRead (s.decCtxt n k) s (s.decReg n k 0).toNat 256 with
    | .page va s => (s.decStat n k 2 0 1).decHold n k va
    | .wait s => s.decStat n k 2 0 1
    | .stop _ st s => fail s st
    | .ok d s =>
      let st := streamDescStatus d
      if st ≠ St.ok then fail s st
      else
        let s := s.setDec n k { desc := d, req := old.req }
        let s := (s.setDecPos n k 0).decStat n k 47 40 St.ok
        s.decArm n k

/-- RESTART: continues a stopped stream from STREAM_POS (R514). -/
def State.decRestart (s : State) (n k epoch : Nat) (discard : Bool) : State :=
  let x := s.dec n k
  if s.decState n k ≠ 3 ∨ s.ready (Page.decanter n) = false then s.decStat n k 47 40 St.unitUnavailable
  else if bits (s.decReg n k 0x28) 63 48 ≠ epoch then s.decStat n k 47 40 St.epochStale
  else
    let x := { x with files := [], pageWait := none }
    let x := if discard then { x with rows := [], frames := [], lens := [] } else x
    ((s.setDec n k x).decStat n k 47 40 St.ok).decArm n k

/-- STOP of a stream that runs or waits for a request (R515). -/
def State.decHalt (s : State) (n k : Nat) : State :=
  if s.decState n k = 1 ∨ s.decState n k = 2 then
    let s := s.setDec n k { s.dec n k with pageWait := none, starting := false }
    s.decStop n k 0 St.unitUnavailable (s.decPos n k) none
  else s

/-- A write of STREAM_CTL (Table 16-10). -/
def streamCtlEff (n k : Nat) (v : Word) (s : State) : State :=
  let s := if bit v 2 then s.decHalt n k else s
  let s := if bit v 1 then s.decRestart n k (bits v 63 48) (bit v 4) else s
  if bit v 0 then s.decStart n k else s

/-- STREAM_START (R490). -/
def execStreamStart (i : Ident) (n k : Nat) (s : State) : Out :=
  .next (if n < 4 ∧ k < 16 then s.writeVia i (Page.decanter n) (decOff k 0x18) 1 (streamCtlEff n k 1) else s)

/-- STREAM_STOP (R515). -/
def execStreamStop (i : Ident) (n k : Nat) (s : State) : Out :=
  .next (if n < 4 ∧ k < 16 then s.writeVia i (Page.decanter n) (decOff k 0x18) 4 (streamCtlEff n k 4) else s)

/-- STREAM_RESTART (R514). -/
def execStreamRestart (i : Ident) (n k epoch : Nat) (discard : Bool) (s : State) : Out :=
  let v := place 63 48 epoch ||| place 4 4 discard.toNat ||| 2
  .next (if n < 4 ∧ k < 16 then s.writeVia i (Page.decanter n) (decOff k 0x18) v (streamCtlEff n k v) else s)

/-- A write of REQ_TAIL (R492, R517; log row 44). -/
def reqTailEff (n k : Nat) (v : Word) (s : State) : State :=
  let head := bits (s.decReg n k 0x28) 7 4
  let old := bits (s.decReg n k 0x30) 3 0
  let new := bits v 3 0
  if s.decState n k = 1 then s
  else if new = head ∧ old ≠ head then s.decStat n k 47 40 St.refusedFull
  else
    let s := s.setReg (Page.decanter n) (decOff k 0x30) (place 3 0 new)
    if s.decState n k = 2 then s.decArm n k else s

/-- REQ_TAIL (R492). -/
def execReqTail (i : Ident) (n k : Nat) (v : Word) (s : State) : Out :=
  .next (if n < 4 ∧ k < 16 then s.writeVia i (Page.decanter n) (decOff k 0x30) v (reqTailEff n k v) else s)

/-- A write of another register of a stream group: ignored while the stream runs (R517). -/
def decGroupEff (n k off : Nat) (v : Word) (s : State) : State :=
  if s.decState n k = 1 then s else s.storeWrite (Page.decanter n) off v

/-- Quiesce of a DECANTER page: every stream that runs stops (R516). -/
def State.decQuiesce (s : State) (n : Nat) : State := (List.range 16).foldl (fun (s : State) k => s.decHalt n k) s

/-! ### Sample order (R499) -/

/-- The smallest even b from 2 on with n ≤ 2^b. -/
def evenBits (n : Nat) : Nat := ((List.range 24).map fun i => 2 * (i + 1)).find? (fun b => decide (n ≤ 2 ^ b)) |>.getD 48

/-- enc of R499. -/
def shuffleEnc (key : Word) (b x : Nat) : Nat :=
  let h := b / 2
  let r := (List.range 4).foldl (fun (p : Nat × Nat) rnd =>
    (p.2, p.1 ^^^ ((mix64 (key + BitVec.ofNat 64 rnd) (BitVec.ofNat 64 p.2)).toNat >>> (64 - h)))) (x >>> h, x % 2 ^ h)
  (r.1 <<< h) ||| r.2

/-- Cycle-walking: the first value below n, and the extra calls of enc. -/
def cycleWalk (key : Word) (b n : Nat) : Nat → Nat → Nat × Nat
  | 0, y => (y, 0)
  | fuel + 1, y => if y < n then (y, 0) else let r := cycleWalk key b n fuel (shuffleEnc key b y); (r.1, r.2 + 1)

/-- The sample at position index i, and the extra calls of enc (R499). -/
def sampleIndex (d : List Byte) (i : Nat) : Nat × Nat :=
  if leAt d 7 1 = 0 then (i, 0)
  else
    let n := leAt d 16 8
    let key := mix64 (BitVec.ofNat 64 (leAt d 40 8)) (BitVec.ofNat 64 (leAt d 48 4))
    let b := evenBits n
    cycleWalk key b n (2 ^ b) (shuffleEnc key b i)

/-- The index of position t, none where the rank's positions are exhausted (R499). -/
def positionOf (d : List Byte) (t : Nat) : Option Nat :=
  let i := leAt d 52 2 + leAt d 54 2 * t
  if i < leAt d 16 8 then some i else none

/-! ### Records -/

/-- A checked field: its type, format, sensor, parameter and data (Table 16-6). -/
structure DecField where
  ftype : Nat
  ffmt : Nat
  sid : Nat
  param : Nat
  data : List Byte
  deriving DecidableEq, Repr

/-- A checked record with where it came from. -/
structure DecRecord where
  idx : Nat
  file : Nat
  off : Nat
  fields : List DecField
  deriving DecidableEq, Repr

/-- Element size of a TOKENS or FLOATS format; zero for a format that Table 16-6 does not give. -/
def elemSize (ftype ffmt : Nat) : Nat :=
  if ftype = 1 then (if ffmt = 0 then 2 else if ffmt = 1 then 4 else 0)
  else if ftype = 4 then (if ffmt = 0x12 then 4 else if ffmt = 0x10 ∨ ffmt = 0x11 then 2 else 0)
  else 0

/-- The first failing check of a field, as a stop reason; zero where it passes (R498, Table 16-9). -/
def fieldReason (f : DecField) (rsvd flen room : Nat) : Nat :=
  let w := natBits f.param 15 0
  let h := natBits f.param 31 16
  let ch := natBits f.param 39 32
  let data := decide (f.ftype = 1 ∨ f.ftype = 4)
  if f.ftype = 0 ∨ 5 < f.ftype then 5
  else if rsvd ≠ 0 then 7
  else if data && decide (elemSize f.ftype f.ffmt = 0 ∨ f.sid ≠ 0 ∨ 2 ^ 32 ≤ f.param) then 7
  else if !data && decide (f.ffmt ≠ 0) then 7
  else if f.ftype = 5 ∧ 15 < f.sid then 7
  else if (f.ftype = 2 ∨ f.ftype = 3) ∧ f.sid ≠ 0 then 7
  else if f.ftype = 3 ∧ f.param ≠ 0 then 7
  else if f.ftype = 2 ∧ (2 ^ 40 ≤ f.param ∨ (ch ≠ 1 ∧ ch ≠ 3)) then 7
  else if room < 16 + (flen + 7) / 8 * 8 then 6
  else if data && decide (flen ≠ natBits f.param 31 0 * elemSize f.ftype f.ffmt) then 7
  else if f.ftype = 2 ∧ (16384 < w ∨ 16384 < h) then 11
  else if f.ftype = 2 ∧ flen ≠ w * h * ch then 7
  else if f.ftype = 5 ∧ flen % 4 ≠ 0 then 7
  else 0

/-- The fields of a payload, or the reason of the first failure (R497, R498). -/
def parseFields : Nat → List Byte → Except Nat (List DecField)
  | 0, bs => if bs = [] then .ok [] else .error 6
  | n + 1, bs =>
    if bs.length < 16 then .error 6
    else
      let flen := leAt bs 4 4
      let f : DecField := ⟨leAt bs 0 1, leAt bs 1 1, leAt bs 2 1, leAt bs 8 8, (bs.drop 16).take flen⟩
      let r := fieldReason f (leAt bs 3 1) flen bs.length
      if r ≠ 0 then .error r
      else match parseFields n (bs.drop (16 + (flen + 7) / 8 * 8)) with
        | .ok fs => .ok (f :: fs)
        | .error e => .error e

/-- FILE_BYTES of a file, checked at its first use since START or RESTART (R495). -/
def decFile (n k file off : Nat) (s : State) : DecGot Nat :=
  let x := s.dec n k
  match x.files.find file with
  | some b => .ok b s
  | none =>
    (decRead (s.decCtxt n k) s (leAt x.desc 32 8 + 8 * file) 8).bind fun p s =>
      if leAt p 0 8 = 0 then .stop 1 St.inputCorrupt s
      else (decRead (s.decCtxt n k) s (leAt p 0 8) 64).bind fun h s =>
        if leAt h 0 4 ≠ 0x43525A50 ∨ leAt h 60 4 ≠ crc32c (h.take 60) ∨ zeroAt h 6 2 = false ∨ zeroAt h 32 28 = false then
          .stop 1 St.inputCorrupt s
        else if leAt h 4 2 ≠ 0x1100 then .stop 2 St.versionMismatch s
        else if leAt h 8 8 ≤ off then .stop 1 St.inputCorrupt s
        else
          let x := s.dec n k
          .ok (leAt h 8 8) (s.setDec n k { x with files := x.files.set file (leAt h 8 8) })

/-- Reads and checks the record at a file offset (R498). -/
def decRecord (n k idx file off : Nat) (s : State) : DecGot DecRecord :=
  let bad := fun (r : Nat) (s : State) => (DecGot.stop r St.inputCorrupt s : DecGot DecRecord)
  (decFile n k file off s).bind fun bytes s =>
    if bytes ≤ off then bad 1 s
    else (decRead (s.decCtxt n k) s (leAt (s.dec n k).desc 32 8 + 8 * file) 8).bind fun p s =>
      let base := leAt p 0 8 + off
      (decRead (s.decCtxt n k) s base 16).bind fun h s =>
        let len := leAt h 0 5
        let accept := if (leAt (s.dec n k).desc 12 1).testBit 0 then 2 else 1
        if leAt h 14 2 ≠ crc32c (h.take 14) % 2 ^ 16 then bad 3 s
        else if leAt h 6 1 ≠ 0 ∨ leAt h 7 1 = 0 ∨ leAt h 12 2 ≠ 0 then bad 3 s
        else if 2 ^ 30 < len then bad 11 s
        else if bytes < (off + 16 + len + 7) / 8 * 8 then bad 6 s
        else (decRead (s.decCtxt n k) s (base + 16) len).bind fun pl s =>
          if leAt h 8 4 ≠ crc32c pl then bad 4 s
          else if leAt h 5 1 ≠ accept then bad 5 s
          else match parseFields (leAt h 7 1) pl with
            | .error r => bad r s
            | .ok fs => .ok ⟨idx, file, off, fs⟩ s

/-! ### Slots -/

/-- Round up to 64. -/
def up64 (x : Nat) : Nat := (x + 63) / 64 * 64

/-- The header of a SLOTS-mode slot (R508). -/
def slotHeader (idx file off nf : Nat) : List Byte :=
  leBytes 8 idx ++ leBytes 1 file ++ leBytes 5 off ++ leBytes 2 nf ++ List.replicate 16 0

/-- Fields at 64 B boundaries from an offset on, and the end of the last. -/
def slotFields : Nat → List (List Byte) → List (Nat × List Byte) × Nat
  | at_, [] => ([], at_)
  | at_, f :: fs =>
    let r := slotFields (up64 (at_ + f.length)) fs
    ((at_, f) :: r.1, if fs = [] then at_ + f.length else r.2)

/-- The tokens of a TOKENS field as 32-bit IDs. -/
def tokensOf (f : DecField) : List Nat :=
  let z := elemSize 1 f.ffmt
  (List.range (natBits f.param 31 0)).map fun i => leAt f.data (i * z) z

/-- The bytes of a row slot in pieces (Table 16-7): its segments as sample index and tokens. -/
def rowSlot (d : List Byte) (seq : Nat) (segs : List (Nat × List Nat)) : List (Nat × List Byte) :=
  let t := leAt d 56 4
  let fill := segs.foldl (fun a x => a + x.2.length) 0
  let pad := t - fill
  let toks := segs.flatMap (·.2) ++ List.replicate pad (leAt d 64 4)
  let pos := segs.flatMap (fun x => List.range x.2.length) ++ List.range pad
  let ids := (segs.mapIdx fun i x => List.replicate x.2.length i).flatten ++ List.replicate pad 0xFFFF
  let table := (segs.foldl (fun (a : Nat × List Byte) x =>
    (a.1 + x.2.length, a.2 ++ leBytes 8 x.1 ++ leBytes 4 a.1 ++ leBytes 4 x.2.length)) (0, [])).2
  [(0, leBytes 4 segs.length ++ leBytes 4 fill ++ leBytes 8 seq ++ leBytes 4 (leAt d 48 4) ++ leBytes 2 (leAt d 52 2)
      ++ List.replicate 42 0),
   (64, toks.flatMap (leBytes 4)),
   (64 + 4 * t, pos.flatMap (leBytes 4)),
   (64 + 8 * t, ids.flatMap (leBytes 2)),
   (up64 (64 + 10 * t), table)]

/-- Writes a slot of the current request, and counts it. -/
def decSlot (n k size : Nat) (pieces : List (Nat × List Byte)) (s : State) : DecGot Unit :=
  match (s.dec n k).req with
  | none => .wait s
  | some r =>
    let stride := leAt (s.dec n k).desc 72 8
    (decWrite (s.decCtxt n k) (r.dst + r.done * stride) (pieces.filter fun p => decide (p.2 ≠ [])) s).bind fun _ s =>
      .ok () ((s.setDec n k { s.dec n k with req := some { r with done := r.done + 1 } }).bumpUnits (Page.decanter n) 1 size (2 ^ 20))

/-- Closes the lowest-numbered open row into a slot (R509, R510, R512). -/
def decCloseRow (n k : Nat) (s : State) : DecGot Unit :=
  let x := s.dec n k
  match x.rows with
  | [] => .ok () s
  | segs :: rest =>
    let t := leAt x.desc 56 4
    let fill := segs.foldl (fun a y => a + y.2.length) 0
    (decSlot n k (up64 (64 + 10 * t) + 16 * min t 65535) (rowSlot x.desc x.rowSeq segs) s).bind fun _ s =>
      let s := s.setDec n k { s.dec n k with rows := rest, rowSeq := x.rowSeq + 1 }
      .ok () ((s.bump (Page.decanter n) 3).bumpUnits (Page.decanter n) 4 (t - fill) 1024)

/-- The place of the open row that takes m tokens: the lowest-numbered one with room (R509). -/
def rowFor (t m : Nat) (rows : List (List (Nat × List Nat))) : Option Nat :=
  (List.range rows.length).find? fun i =>
    let segs := rows.getD i []
    decide (segs.foldl (fun a y => a + y.2.length) 0 + m ≤ t ∧ segs.length < 65535)

/-- ROWS mode: places a sample as one segment (R509 to R511). -/
def decRows (n k : Nat) (r : DecRecord) (s : State) : DecGot Unit :=
  let x := s.dec n k
  let t := leAt x.desc 56 4
  match r.fields.filter fun f => decide (f.ftype = 1) with
  | [f] =>
    let toks := tokensOf f
    if toks = [] then .stop 7 St.inputCorrupt s
    else if t < toks.length then .stop 10 St.inputCorrupt s
    else match rowFor t toks.length x.rows with
      | some i =>
        .ok () (s.setDec n k { x with rows := x.rows.mapIdx fun j segs => if j = i then segs ++ [(r.idx, toks)] else segs })
      | none =>
        let open_ := fun (s : State) =>
          DecGot.ok () (s.setDec n k { s.dec n k with rows := (s.dec n k).rows ++ [[(r.idx, toks)]] })
        if leAt x.desc 60 1 ≤ x.rows.length then (decCloseRow n k s).bind fun _ s => open_ s
        else open_ s
  | _ => .stop 7 St.inputCorrupt s

/-- An image through the geometry stage (R506, R507). -/
def decImage (n k : Nat) (mesh : List Byte) (p : Pix) (s : State) : DecGot (List Byte) :=
  match geometry (s.dec n k).desc mesh p with
  | some b => .ok b s
  | none => .stop 7 St.inputCorrupt s

/-- The output bytes of one field of a sample (R502, R508). -/
def decFieldOut (n k : Nat) (mesh : List Byte) (f : DecField) (s : State) : DecGot (List Byte) :=
  match f.ftype with
  | 1 => .ok ((tokensOf f).flatMap (leBytes 4)) s
  | 2 => decImage n k mesh ⟨natBits f.param 15 0, natBits f.param 31 16, natBits f.param 39 32, f.data.map BitVec.toNat⟩ s
  | 3 =>
    match decodeJpeg f.data with
    | .error .jpeg => .stop 8 St.inputCorrupt s
    | .error .limit => .stop 11 St.inputCorrupt s
    | .ok p => decImage n k mesh p (s.bumpUnits (Page.decanter n) 2 (p.w * p.h) (2 ^ 20))
  | 4 => .ok f.data s
  | _ => .stop 7 St.inputCorrupt s

/-- The output bytes of every field. -/
def decFieldsOut (n k : Nat) (mesh : List Byte) : List DecField → State → DecGot (List (List Byte))
  | [], s => .ok [] s
  | f :: fs, s => (decFieldOut n k mesh f s).bind fun b s => (decFieldsOut n k mesh fs s).bind fun bs s => .ok (b :: bs) s

/-- The mesh table, where a sample has images and GEOM is MESH (Table 16-1). -/
def decMesh (n k : Nat) (r : DecRecord) (s : State) : DecGot (List Byte) :=
  let d := (s.dec n k).desc
  if leAt d 8 1 = 2 ∧ r.fields.any (fun f => decide (f.ftype = 2 ∨ f.ftype = 3)) = true then
    decRead (s.decCtxt n k) s (leAt d 160 8) (8 * leAt d 89 1 * leAt d 90 1)
  else .ok [] s

/-- SLOTS mode: a sample fills one slot (R508). -/
def decSlots (n k : Nat) (r : DecRecord) (s : State) : DecGot Unit :=
  (decMesh n k r s).bind fun mesh s => (decFieldsOut n k mesh r.fields s).bind fun outs s =>
    let p := slotFields 64 outs
    if leAt (s.dec n k).desc 72 8 < p.2 then .stop 11 St.inputCorrupt s
    else decSlot n k p.2 ((0, slotHeader r.idx r.file r.off outs.length) :: p.1) s

/-! ### Alignment (R504, R505) -/

/-- The sensors of SENSOR_MASK. -/
def sensorsOf (d : List Byte) : List Nat := (List.range 16).filter fun i => (leAt d 14 2).testBit i

/-- The oldest reference frame that has not been decided. -/
def DecStream.ref (x : DecStream) : Option DecFrame :=
  (x.frames.get [] (leAt x.desc 13 1)).head?

/-- Buffers the frames of a record, or answers the reason of a stop (R505). -/
def bufferFrames (pos : Nat) (r : DecRecord) : List DecField → DecStream → Except Nat DecStream
  | [], x => .ok x
  | f :: fs, x =>
    if f.ftype ≠ 5 ∨ (sensorsOf x.desc).contains f.sid = false then bufferFrames pos r fs x
    else
      let q := x.frames.get [] f.sid
      let count := f.data.length / 4
      let fr : DecFrame := ⟨f.param, (List.range count).map fun i => leAt f.data (4 * i) 4, r.idx, r.file, r.off, pos⟩
      if (q.getLast?).any fun p => decide (fr.time ≤ p.time) then .error 9
      else if x.lens.get count f.sid ≠ count then .error 7
      else
        let x := { x with frames := x.frames.set f.sid (q ++ [fr]), lens := x.lens.set f.sid count }
        let ahead := match x.ref with
          | some t => (q ++ [fr]).filter fun (g : DecFrame) => decide (t.time < g.time)
          | none => q ++ [fr]
        if 64 ≤ ahead.length then .error 11 else bufferFrames pos r fs x

/-- Whether a reference frame can be decided: every sensor has a frame later than T + TOL_NS, or positions are exhausted. -/
def DecStream.decidable (x : DecStream) (t : DecFrame) (exhausted : Bool) : Bool :=
  exhausted || (sensorsOf x.desc).all fun i =>
    (x.frames.get [] i).any fun f => decide (t.time + leAt x.desc 80 4 < f.time)

/-- A sensor's value at a reference time (R504). -/
def alignValue (interp : Bool) (tol t : Nat) (fs : List DecFrame) : Option (List Nat) :=
  let near := fs.filter fun f => decide (f.time ≤ t + tol ∧ t ≤ f.time + tol)
  let dist := fun (f : DecFrame) => (f.time - t) + (t - f.time)
  if !interp then
    (near.foldl (fun (b : Option DecFrame) f => match b with
      | none => some f
      | some g => if dist f < dist g then some f else some g) none).map DecFrame.vals
  else match near.find? fun f => decide (f.time = t) with
    | some f => some f.vals
    | none =>
      match (near.filter fun f => decide (f.time < t)).getLast?, near.find? fun f => decide (t < f.time) with
      | some a, some b =>
        some ((a.vals.zip b.vals).map fun v =>
          let v0 := Fmt.fp32.decode v.1
          let v1 := Fmt.fp32.decode v.2
          code32 (add32 v0 (div32 (mul32 (sub32 v1 v0) (nat32 (t - a.time))) (nat32 (b.time - a.time)))))
      | _, _ => none

/-- Writes the fused sample of a reference frame, or stops with TIME_RANGE; frames that no later reference needs leave
(R504, R505, R508; log row 44). -/
def decFuse (n k : Nat) (t : DecFrame) (s : State) : DecGot Unit :=
  let x := s.dec n k
  let d := x.desc
  let ref := leAt d 13 1
  let vals := (sensorsOf d).map fun i =>
    if i = ref then some t.vals else alignValue ((leAt d 12 1).testBit 1) (leAt d 80 4) t.time (x.frames.get [] i)
  if vals.any Option.isNone then .stop 9 St.inputCorrupt s
  else
    let body := leBytes 8 t.time ++ (vals.flatMap fun v => (v.getD []).flatMap (leBytes 4))
    if leAt d 72 8 < 64 + body.length then .stop 11 St.inputCorrupt s
    else (decSlot n k (64 + body.length) [(0, slotHeader t.idx t.file t.off 1), (64, body)] s).bind fun _ s =>
      let x := s.dec n k
      let trim := fun (e : Nat × List DecFrame) =>
        if e.1 = ref then (e.1, e.2.drop 1)
        else
          let old := e.2.filter fun f => decide (f.time ≤ t.time)
          (e.1, old.drop (old.length - 1) ++ e.2.filter fun f => decide (t.time < f.time))
      .ok () (s.setDec n k { x with frames := x.frames.map trim })

/-! ### One record -/

/-- After a step: the request completes with END where the positions are exhausted and nothing is left to write, or with its
slots full (R493). -/
def State.decAfter (s : State) (n k : Nat) : State :=
  let x := s.dec n k
  let above := (positionOf x.desc (s.decPos n k)).isNone && x.rows.isEmpty
    && (!(leAt x.desc 12 1).testBit 0 || x.ref.isNone)
  match x.req with
  | none => s.decArm n k
  | some r =>
    if above then (s.decClose n k r St.ok true (s.decPos n k)).decStat n k 2 0 0
    else if r.nslots ≤ r.done then (s.decClose n k r St.ok false (s.decPos n k)).decArm n k
    else s

/-- The index entry of a sample: file number and offset (R498). -/
def decIndex (n k idx : Nat) (s : State) : DecGot (Nat × Nat) :=
  (decRead (s.decCtxt n k) s (leAt (s.dec n k).desc 24 8 + 8 * idx) 8).bind fun e s =>
    let v := leAt e 0 8
    if natBits v 55 40 ≠ 0 then .stop 13 St.inputCorrupt s else .ok (natBits v 63 56, natBits v 39 0) s

/-- Places a record at position t under the stream's mode, and moves the position on. -/
def decPlace (n k t : Nat) (r : DecRecord) (s : State) : DecGot Unit :=
  let x := s.dec n k
  let next := fun (s : State) => s.setDecPos n k (t + 1)
  if (leAt x.desc 12 1).testBit 0 then
    match bufferFrames t r r.fields x with
    | .error e => .stop e St.inputCorrupt s
    | .ok x =>
      if r.fields.any fun f => decide (f.ftype = 5) then .ok () (next (s.setDec n k x)) else .stop 7 St.inputCorrupt s
  else if leAt x.desc 6 1 = 1 then (decRows n k r s).bind fun _ s => .ok () (next s)
  else (decSlots n k r s).bind fun _ s => .ok () (next s)

/-- How a step of a stream ends: a wait, a stop at a position with its record, or the bookkeeping of R493. -/
def State.decSettle (s : State) (n k pos : Nat) (at_ : Option (Nat × Nat)) (g : DecGot Unit) : State :=
  match g with
  | .ok _ s => s.decAfter n k
  | .page va t =>
    let t : State := { t with decs := s.decs }
    t.decHold n k va
  | .wait t => { t with decs := s.decs }
  | .stop r st t =>
    let t : State := { t with decs := s.decs }
    let x := t.dec n k
    let keep := x.frames.map fun e => (e.1, e.2.filter fun f => decide (f.pos < pos))
    (t.setDec n k { x with frames := keep }).decStop n k r st pos at_

/-- The next record, or the rows that are left (R498, R509). -/
def State.decNext (s : State) (n k t : Nat) (i : Option Nat) : State :=
  match i with
  | none => s.decSettle n k t none (decCloseRow n k s)
  | some i =>
    let p := sampleIndex (s.dec n k).desc i
    match decIndex n k p.1 s with
    | .ok fo s' =>
      let page := Page.decanter n
      s'.decSettle n k t (some fo) ((decRecord n k p.1 fo.1 fo.2 s').bind fun r s =>
        (decPlace n k t r s).bind fun _ s => .ok () ((s.bumpUnits page 0 1 1024).bumpUnits page 6 p.2 1024))
    | .page va t => t.decHold n k va
    | .wait t => t
    | .stop r st t' => t'.decStop n k r st t none

/-- RECORD_PROCESS: a running stream takes a request, decides a reference frame, reads, checks, decodes and places the record
at its next position, or closes a row once the positions are exhausted (R492, R493, R498, R505, R509). -/
def State.decStep (s : State) (n k : Nat) : State :=
  let x := s.dec n k
  match x.req.bind fun r => r.closing.map fun c => (r, c) with
  | some (r, c) =>
    let s := s.decClose n k { r with closing := none } c.1 c.2.1 c.2.2
    if s.decState n k = 1 then s.decArm n k else s
  | none =>
    if s.decState n k ≠ 1 ∨ s.ready (Page.decanter n) = false ∨ x.pageWait.isSome = true then s
    else if x.starting then s.decStart n k
    else if x.req.isNone then (if s.decRingEmpty n k then s.decArm n k else s.decTake n k)
    else
      let t := s.decPos n k
      let i := positionOf x.desc t
      let align := (leAt x.desc 12 1).testBit 0
      match (if align then x.ref else none) with
      | some f =>
        if x.decidable f i.isNone then s.decSettle n k f.pos (some (f.file, f.off)) (decFuse n k f s)
        else s.decNext n k t i
      | none => s.decNext n k t i

/-- RECORD_PROCESS (R498). -/
def execRecordProcess (n k : Nat) (s : State) : Out :=
  .next (if n < 4 ∧ k < 16 then s.decStep n k else s)

end Sys2Proof.Machine
end

