-- ==== Sys2Proof/Machine/Server.lean ====
section
/-!
DEFINITION. Server cores (R521 to R533): failed loads and stores, cache-block operations, fences, interrupt files and MSI
table entries.
-/
namespace Sys2Proof.Machine

/-- A server core. -/
def State.srvCore (s : State) (c : Nat) : SrvCore := s.srv.get {} c

/-- Updates a server core. -/
def State.modSrv (s : State) (c : Nat) (f : SrvCore → SrvCore) : State := { s with srv := s.srv.mod {} c f }

/-- mvendorid of every server core (Table 17-2, R520). -/
def srvVendorId : Word := 0x0000_0A4F

/-- marchid of every server core (Table 17-2, R520). -/
def srvArchId : Word := 0x8000_0000_0000_0009

/-- mimpid of every server core, stepping A1 (Table 17-2, R520). -/
def srvImpId : Word := 0x0000_0000_0000_0A01

/-- mhartid: the server core number (Table 17-2, R520). -/
def srvHartId (c : Nat) : Word := BitVec.ofNat 64 c

/-- time of a server core: PANEL_TIME ÷ 5 (Table 17-2, R520). -/
def State.srvTime (s : State) : Word := BitVec.ofNat 64 (s.panelTime.toNat / 5)

/-- An access of a server core raises an exception: its code and xtval (R526). -/
def State.srvTrap (s : State) (c code va : Nat) : State := s.modSrv c fun x => { x with trap := some (code, va), retry := none }

/-- The access-fault code of an operation: 1 for a fetch, 5 for a load or LR and 7 for a store, AMO or SC (log row 46). -/
def accessFault (op : Nat) : Nat := if op = 2 then 1 else if op = 0 ∨ op = 4 then 5 else 7

/-- The page-fault code of an operation (log row 46). -/
def pageFaultCode (op : Nat) : Nat := if op = 2 then 12 else if op = 0 ∨ op = 4 then 13 else 15

/-- The exception code of a failed access (R526); none for UNIT_UNAVAILABLE and for no failure. -/
def srvCode (op status : Nat) : Option Nat :=
  if [St.dataUncorrectable, St.dataLost, St.poisoned].contains status then some 19
  else if [St.permissionFault, St.timeout, St.hostLost].contains status then some (accessFault op)
  else none

/-- The SERVER_DIE page of a server core: 64 cores a die (Table 0-5). -/
def srvPage (c : Nat) : Nat := Page.serverDie (c / 64)

/-- SRV_LOAD_ERROR: a load (0), AMO (3) or fetch (2) completes with a status (R526). After UNIT_UNAVAILABLE the core retries
and raises nothing. -/
def execSrvLoadError (c op va status : Nat) (s : State) : Out :=
  .next (if 256 ≤ c then s
  else match srvCode op status with
    | some code => s.srvTrap c code va
    | none => s)

/-- A retired store is discarded (R527). -/
def State.storeLost (s : State) (c pa : Nat) : State :=
  s.genEvent (srvPage c) 0x02E0 0 (place 51 0 (pa / 128 * 128))

/-- SRV_STORE_LOST: the ownership request for a retired store ends with a status of R526 (R527). -/
def execSrvStoreLost (c pa status : Nat) (s : State) : Out :=
  .next (if c < 256 ∧ (srvCode 1 status).isSome = true then s.storeLost c pa else s)

/-- The next state of a message command. -/
def after (o : Out) (s : State) : State :=
  match o with
  | .next t => t
  | _ => s

/-- A server core gives a line up: a dirty one is written back, and a clean one only where `clean` says so (R522). -/
def State.cboLine (s : State) (c line : Nat) (clean : Bool) : State :=
  match s.agentState c line with
  | .m => after (execDatWb c line true s) s
  | .i => s
  | _ => if clean then after (execEvictClean c line s) s else s

/-- CBO: CLEAN (0), FLUSH (1), INVAL (2), which executes as FLUSH, and ZERO (3) (R522, Table 17-3). -/
def execCbo (c op va pa : Nat) (s : State) : Out :=
  .next (
  let main := match regionOf pa with
    | .gddr _ _ => true
    | .cellar _ _ => true
    | _ => false
  if 256 ≤ c ∨ 3 < op then s
  else if !main then s.srvTrap c 7 va
  else match op with
    | 0 => s.cboLine c (pa / 128) false
    | 3 =>
      let r := s.physWrite 0 .engine (pa / 64 * 64) (List.replicate 64 0)
      if r.1 = St.ok then (if r.2.agentState c (pa / 128) = .e then r.2.setAgent c (pa / 128) .m else r.2)
      else if (srvCode 1 r.1).isSome then r.2.storeLost c pa
      else r.2
    | _ => s.cboLine c (pa / 128) true)

/-- SRV_FENCE_IO: a fence whose predecessor set includes O or W. It completes, with OK as the reply, once no access of the
core waits to be presented again and, with W, no ownership request of its is open (R533). -/
def execSrvFenceIo (c : Nat) (predO predW : Bool) (s : State) : Out :=
  let own := fun (m : Msg) => decide (m.src = c ∧ (m.kind = .rdUnique ∨ m.kind = .upgrade))
  let busy := decide ((predO = true ∨ predW = true) ∧ (s.srvCore c).retry.isSome = true)
    || (predW && (s.dirQueue.any own || s.txns.any fun t => own t.2.req))
  .next (if 256 ≤ c ∨ busy = true then s else { s with reply := (St.ok, []) })

/-- IMSIC_WRITE: a write of n bytes into the IMSIC window by a server core (0), the panel IOMMU (1), the MSI path (2) or
another agent, whose write is discarded (R530). -/
def execImsicWrite (who off n data : Nat) (s : State) : Out :=
  .next (if who < 3 ∧ n = 4 ∧ off % 4 = 0 then s.imsicWrite off (data % 2 ^ 32) else s)

/-- MSI_UNMASK: software clears MASKED of entry `vec` of a partition's MSI table; a pending entry sends its MSI once
(R531). -/
def execMsiUnmask (part vec : Nat) (s : State) : Out :=
  .next (if 64 ≤ part then s
  else match s.msiEntryAddr part vec with
    | none => s
    | some a =>
      let ctl := s.mem.readNat (a + 12) 4
      if ctl % 2 = 0 then s
      else if ctl.testBit 1 then ({ s with mem := s.mem.writeNat (a + 12) 4 (ctl - 3) } : State).msiFire part a
      else { s with mem := s.mem.writeNat (a + 12) 4 (ctl - 1) })

end Sys2Proof.Machine
end

