-- ==== Sys2Proof/Machine/Events.lean ====
section
/-!
DEFINITION. Event records, their routing and the event queues (R553 to R562), and reads of registers through a port (R607,
R617, R618).
-/
namespace Sys2Proof.Machine

/-! ### Event queues -/

/-- The EVENT_QUEUE page of a queue. -/
def evqPage (e : Nat) : Nat := Page.eventQueue (e / 16)

/-- Offset of a register of an event queue (Table 19-3). -/
def evqOff (e r : Nat) : Nat := 0x400 + 0x40 * (e % 16) + r

/-- A register of an event queue. -/
def State.evqReg (s : State) (e r : Nat) : Word := s.reg (evqPage e) (evqOff e r)

/-- Updates what an event queue keeps. -/
def State.modEvq (s : State) (e : Nat) (f : EvQueue → EvQueue) : State := { s with evq := s.evq.mod {} e f }

/-- Records of a ring: 2^(SIZE_LOG2 + 6). -/
def evqSize (cfg : Word) : Nat := 2 ^ (bits cfg 3 0 + 6)

/-- The queue counts a drop, and its next record carries LOST (R561). -/
def State.evqDrop (s : State) (e : Nat) : State :=
  let n := bits (s.evqReg e 0x20) 63 32
  (s.setFld (evqPage e) (evqOff e 0x20) 63 32 (min (n + 1) 0xFFFFFFFF)).modEvq e fun q => { q with lost := true }

/-- The 32 bytes of a record (Table 19-1). -/
def recordBytes (g : GenEvent) (phase lost : Bool) : List Byte :=
  let type := match pageKind g.page with
    | some k => blockType k
    | none => 0
  leBytes 2 (pageInstance g.page) ++ leBytes 2 type ++ leBytes 4 g.seq ++ leBytes 2 g.code
    ++ leBytes 1 (g.cls * 16 + g.sev) ++ leBytes 1 (phase.toNat * 128 + lost.toNat * 64 + g.part % 64)
    ++ leBytes 2 0 ++ leBytes 2 g.epoch ++ leBytes 8 g.time ++ leBytes 8 g.payload.toNat

/-- Raises the interrupt of a queue: an MSI-X vector of the owner's VF or of the PF, an MSI table entry, or the panel
management controller (R562). -/
def State.evqInterrupt (s : State) (e : Nat) : State :=
  let cfg := s.evqReg e 8
  let vec := bits cfg 50 40
  match bits cfg 55 52 with
  | 1 => s.msixSend (if bit cfg 62 then 0 else bits cfg 61 56 + 1) vec
  | 2 => s.msiSend (bits cfg 61 56) vec
  | 3 => { s with out := ⟨.pmcIrq, e, 1, vec, 0, []⟩ :: s.out }
  | _ => s

/-- Where a queue's ring entry lies: a physical address, or a virtual one that the walk of the owner's context gives; none
where nothing is written there (R4, R561). -/
def State.evqPlace (s : State) (e tail : Nat) : Option Nat :=
  let cfg := s.evqReg e 8
  match s.addrReg (evqPage e) (evqOff e 0) with
  | none => none
  | some base =>
    let a := base + 32 * tail
    if bit cfg 62 then some a else s.peekTranslate (bits cfg 61 56) (bits cfg 39 20) a true

/-- A queue takes an event: it writes the record, advances TAIL and raises its interrupt, or drops the event (R561, R562). -/
def State.evqTake (s : State) (e : Nat) (g : GenEvent) : State :=
  let page := evqPage e
  let cfg := s.evqReg e 8
  let size := evqSize cfg
  let tail := bits (s.evqReg e 0x10) 19 0
  let head := bits (s.evqReg e 0x18) 19 0
  let q := s.evq.get {} e
  if (tail + 1) % size = head % size then s.evqDrop e
  else match s.evqPlace e tail with
    | none => s.evqDrop e
    | some a =>
      let w := s.physWrite (bits cfg 61 56) .engine a (recordBytes g q.phase q.lost)
      if w.1 ≠ St.ok then w.2.evqDrop e
      else
        let s := w.2.setFld page (evqOff e 0x10) 19 0 ((tail + 1) % size)
        let s := s.setFld page (evqOff e 0x20) 31 0 (bits (s.evqReg e 0x20) 31 0 + 1)
        let s := s.modEvq e fun x =>
          { x with lost := false, phase := if tail + 1 = size then !x.phase else x.phase, raised := true }
        if q.raised then s else s.evqInterrupt e

/-- Whether a queue takes an event of a partition: it is enabled, and owned by the management port or that partition
(R560). -/
def State.evqAccepts (s : State) (e part : Nat) : Bool :=
  let cfg := s.evqReg e 8
  bit cfg 63 && (bit cfg 62 || decide (bits cfg 61 56 = part))

/-- The entry of the event routing table that decides for an event, and how many matched at its priority (R559, R565). -/
def State.ertMatch (s : State) (g : GenEvent) : Option (Nat × Nat) :=
  let page := Page.eventQueue 0
  let type := match pageKind g.page with
    | some k => blockType k
    | none => 0
  let ms := (List.range 32).filter fun i =>
    let m := s.reg page (0x800 + 16 * i)
    let a := s.reg page (0x808 + 16 * i)
    bit a 63 && decide (type &&& bits m 31 16 = bits m 15 0 &&& bits m 31 16)
      && decide (g.code &&& bits m 63 48 = bits m 47 32 &&& bits m 63 48)
      && decide (bits a 11 8 ≤ g.sev) && (bit a 39 || decide (bits a 45 40 = g.part))
  let prio := fun i => s.fld page (0x808 + 16 * i) 62 60
  let top := ms.foldl (fun a i => max a (prio i)) 0
  match ms.filter fun i => decide (prio i = top) with
  | [] => none
  | i :: t => some (i, t.length + 1)

/-- EVQ_REDIRECT into EQ000, at most once a millisecond (R560). -/
def State.evqRedirect (s : State) (e : Nat) (g : GenEvent) : State :=
  let type := match pageKind g.page with
    | some k => blockType k
    | none => 0
  let n := s.events.length
  let t := s.genLimited (0x20 * 64 + 33) 0x20 0x0104 0
    (place 7 0 e ||| place 47 32 (pageInstance g.page) ||| place 63 48 type)
  match t.events.drop n with
  | r :: _ =>
    let t : State := { t with events := t.events.take n }
    if t.evqAccepts 0 r.part then t.evqTake 0 r else t.bump 0x20 2
  | [] => t

/-- An event meets queue e, or EQ000 in its place (R560). -/
def State.evqDeliver (s : State) (g : GenEvent) (e : Nat) : State :=
  if e != 0 && s.evqAccepts e g.part then s.evqTake e g
  else if s.evqAccepts 0 g.part then
    if e == 0 then s.evqTake 0 g else (s.evqTake 0 g).evqRedirect e g
  else s.bump 0x20 2

/-- Routes an event (R559, R560). -/
def State.routeEvent (s : State) (g : GenEvent) : State :=
  match s.ertMatch g with
  | some (i, n) =>
    let s := if 1 < n then s.multiMatch (Page.eventQueue 0) 4 i n else s
    s.evqDeliver g (s.fld (Page.eventQueue 0) (0x808 + 16 * i) 7 0)
  | none => s.evqDeliver g (s.fld g.page Reg.EV_ROUTE 7 0)

/-- EVENT_POSTING: the oldest generated event is routed and written or dropped (R557 to R562). -/
def execEventPosting (s : State) : Out :=
  .next (match s.events with
  | [] => s
  | g :: rest => ({ s with events := rest } : State).routeEvent g)

/-- A write of EVQ_HEAD (R562). -/
def evqHeadEff (e : Nat) (v : Word) (s : State) : State :=
  (s.storeWrite (evqPage e) (evqOff e 0x18) v).modEvq e fun q => { q with raised := false }

/-- EVQ_HEAD (R562). -/
def execEvqHead (i : Ident) (e : Nat) (v : Word) (s : State) : Out :=
  .next (if e < 256 then s.writeVia i (evqPage e) (evqOff e 0x18) v (evqHeadEff e v) else s)

/-- A write of EVQ_CFG takes effect only while ENABLE is clear or when it clears ENABLE; setting ENABLE sets TAIL and HEAD to
zero (R561, Table 19-3). -/
def evqCfgEff (e : Nat) (v : Word) (s : State) : State :=
  let on := bit (s.evqReg e 8) 63
  if on && bit v 63 then s
  else
    let s := s.storeWrite (evqPage e) (evqOff e 8) v
    if bit v 63 then
      let s := (s.setFld (evqPage e) (evqOff e 0x10) 19 0 0).setFld (evqPage e) (evqOff e 0x18) 19 0 0
      s.modEvq e fun _ => {}
    else s

/-- EVQ_CFG_WRITE (R561). -/
def execEvqCfgWrite (i : Ident) (e : Nat) (v : Word) (s : State) : Out :=
  .next (if e < 256 then s.writeVia i (evqPage e) (evqOff e 8) v (evqCfgEff e v) else s)

/-- A write of EV_FORCE posts one TEST event of each named class (Table 21-4, R559). -/
def evForceEff (page : Nat) (v : Word) (s : State) : State :=
  (List.range 16).foldl (fun (s : State) c => if bit v c then s.genEventAs page 0x01FF c 0 0 0 true else s) s

/-- EV_FORCE (R559). -/
def execEvForce (i : Ident) (page : Nat) (v : Word) (s : State) : Out :=
  .next (if page = 0x102 then s else s.writeVia i page Reg.EV_FORCE v (evForceEff page v))

/-! ### Reads -/

/-- A register read of n bytes at an offset by an identity (R607, R613, R617, R618): zero at a reserved offset, at a wrong
size or alignment, without the right, and from a block without power. `val` is the register's value and `clear` the effect
of a read on its RC fields, which a 4 B read has on its own half only. The bytes are the reply. -/
def State.readVia (s : State) (i : Ident) (page off n : Nat) (val : Word) (clear : Bool → Bool → State → State) : State :=
  let zero := fun (s : State) => { s with reply := (St.ok, List.replicate n 0) }
  let base := off / 8 * 8
  let known := match pageKind page with
    | none => false
    | some k => decide (page = 0x102) || (findReg k base).isSome
  if s.unreached page then { s with reply := (St.unitUnavailable, [15]) }
  else
  let s := s.lockTouch i page
  if (n ≠ 4 ∧ n ≠ 8) ∨ off % n ≠ 0 ∨ known = false then zero s
  else if !s.mayRead i page base then zero (s.denied i)
  else if s.unpowered.contains page && decide (0x60 ≤ base) then zero s
  else
    let lo := decide (n = 8 ∨ off % 8 = 0)
    let hi := decide (n = 8 ∨ off % 8 = 4)
    clear lo hi { s with reply := (St.ok, ((leBytes 8 val.toNat).drop (off % 8)).take n) }

/-- The effect of a read of EVQ_STAT: DROPPED, which lies in the upper half, is cleared (R3, R607). -/
def evqStatClear (e : Nat) (_lo hi : Bool) (s : State) : State :=
  if hi then s.setFld (evqPage e) (evqOff e 0x20) 63 32 0 else s

/-- EVQ_STAT_READ: a read of n bytes at byte `at` of EVQ_STAT returns and clears DROPPED (R8, R607). -/
def execEvqStatRead (i : Ident) (e at_ n : Nat) (s : State) : Out :=
  .next (if e < 256 ∧ at_ < 8 then
    s.readVia i (evqPage e) (evqOff e 0x20 + at_) n (s.evqReg e 0x20) (evqStatClear e) else s)

end Sys2Proof.Machine
end

