-- ==== Sys2Proof/Machine/Pages.lean ====
section
/-!
DEFINITION. Page control: quiescing, reset, update, power and counters of a page (R564, R566 to R572, R610 to R613), and the
page lock (R614).
-/
namespace Sys2Proof.Machine

/-! ### The work of a unit -/

/-- QUIESCE_TIMEOUT in ns (Table 19-9). -/
def State.quiesceLimit (s : State) : Nat := s.fld Page.device 0x100 15 0 * 100000

/-- RETRY_HINT of a response of a unit (R564). -/
def State.retryHint (s : State) (page : Nat) : Nat :=
  if s.pageState page = PS.quiescing then
    let left := s.quiesceAt.get 0 page + s.quiesceLimit - s.panelTime.toNat
    ((List.range 15).find? fun h => decide (left ≤ 2 ^ h * 1000)).getD 14
  else s.fld Page.device 0x100 35 32

/-- PANEL_TIME before which a requester with a hint does not present its request again, or, for hint 15, the page's READY
state together with 1 ms (R564). -/
def State.mayRetry (s : State) (page hint since : Nat) : Bool :=
  if hint < 15 then decide (since + 2 ^ hint * 1000 ≤ s.panelTime.toNat) else s.ready page

/-- The active commands of a mover, collective engine or racking engine page. -/
def State.engineWork (s : State) (kind stack : Nat) : List Cmd :=
  (s.cmds.filter fun e => e.2.active && !e.2.sent
    && decide (engineOf e.2.kind = kind ∧ s.boundStack e.2.target = some stack)).map Prod.snd

/-- The tasks that a SCHEDULER page leads, or that hold cores of a COMPUTE_DIE page's die. -/
def State.pageTasks (s : State) (stack : Nat) (die : Option Nat) : List (Nat × Task) :=
  s.tasks.filter fun e => match die with
    | none => decide (s.leadStack e.2 = some stack)
    | some d => e.2.onCores && (s.taskCores e.2).any fun c =>
        decide (coreStack c = stack ∧ coreDie c = d ∧ (s.core c).task = some e.1)

/-- The fetched commands of a QUEUE_BLOCK page. -/
def State.blockCmds (s : State) (page : Nat) : List Cmd :=
  (s.cmds.filter fun e => decide (Page.queueBlock e.2.queue = page)).map Prod.snd

/-- Requests and transactions that a directory slice has not finished. -/
def State.homeWork (s : State) (stack : Nat) : List Nat :=
  (s.txns.filter fun t => decide (s.homeOf (t.1 * 128) = some stack)).map Prod.fst
    ++ (s.dirQueue.filter fun m => decide (s.homeOf (m.a * 128) = some stack)).map Msg.a

/-- Whether no route of a neighbour leads into a hub on its way elsewhere (R373, Table 19-8). -/
def State.routedAround (s : State) (stack : Nat) : Bool :=
  (List.range 4).all fun d =>
    match neighbourNode stack d with
    | none => true
    | some n =>
      let port := if n < 72 then (d + 2) % 4 else ((dieHubs n).findIdx? (· == stack)).getD 8
      (List.range 80).all fun dst => decide (dst = stack) || decide (s.routeOf n dst ≠ some port)

/-- How many requests in flight keep a page from QUIESCED (R567, Table 19-8; log row 47). -/
def State.workLeft (s : State) (page : Nat) : Nat :=
  let st := (pageStack page).getD 0
  match pageKind page with
  | some .hubRouter => s.fld page Reg.ROUTER_STAT 15 0 + (if s.routedAround st then 0 else 1)
  | some .hubCache => (s.nearReqs.filter fun r => decide (r.stack = st)).length
  | some .directory => (s.homeWork st).length
  | some .gddrCtl => if (s.gddrCtl st ((page - 0x1000) % 0x40 - 3)).held.isSome then 1 else 0
  | some .scheduler => (s.pageTasks st none).length
  | some .computeDie => (s.pageTasks st (some ((page - 0x1000) % 0x40 - 17))).length
  | some .mover => (s.engineWork 2 st).length
  | some .collective => (s.engineWork 3 st).length
  | some .racking => (s.engineWork 5 st).length + (s.engineMigs st).length
  | some .blend => (s.armed st).length
  | some .hubCtrlCores => ((s.armed st).flatMap BlendOp.progs |>.filter fun p => p.back.isNone).length
  | some .hostPort => s.atsReqs.length + s.winFlush.length
  | some .queueBlock => (s.blockCmds page).length
  | some .cellarBay => if (s.bay (pageBay page)).removable then 0 else 1
  | _ => 0

/-! ### Ending work -/

/-- A home ends the transaction of a line with a status: the agents that are silent leave the entry, and a line that one of
them owned becomes POISONED (R579). -/
def State.endTxn (s : State) (line status : Nat) : State :=
  match s.txns.find line with
  | none => s
  | some t =>
    let silent := t.waits ++ t.missed
    let e := s.dirEntry line
    let owned := silent.any fun g => decide (e.owner = some g)
    let s : State := { s with txns := s.txns.drop fun k => k == line }
    let s := silent.foldl (fun s g => s.dirRemove line g) s
    let s : State := if owned then { s with bad := s.bad.set line St.poisoned } else s
    s.refuseRequest t.req status

/-- Every request and transaction that waits at a home ends with a status. -/
def State.endHome (s : State) (stack status : Nat) : State :=
  let mine := fun (line : Nat) => decide (s.homeOf (line * 128) = some stack)
  let qs := s.dirQueue.filter fun m => mine m.a
  let ts := (s.txns.filter fun t => mine t.1).map Prod.fst
  let s : State := { s with dirQueue := s.dirQueue.filter fun m => !mine m.a }
  ts.foldl (fun s l => s.endTxn l status) (qs.foldl (fun s m => s.refuseRequest m status) s)

/-- The accesses that wait at a near-cache end with a status. -/
def State.endNear (s : State) (mine : NearReq → Bool) (status : Nat) : State :=
  let gone := s.nearReqs.filter mine
  let s : State := { s with nearReqs := s.nearReqs.filter fun r => !mine r }
  if gone.all NearReq.pref then s else s.answer status []

/-- The KERNEL of a task completes with UNIT_UNAVAILABLE, and its cores are free (R567). -/
def State.abandonTask (s : State) (key : Nat) (x : Task) : State :=
  s.kernelComplete key { x with failStatus := St.unitUnavailable, failLcid := 0xFFFFFFFF, failCause := 0 } St.unitUnavailable

/-- An engine's command, or one that waits for its turn, completes with UNIT_UNAVAILABLE (R567). -/
def State.abandonCmd (s : State) (c : Cmd) : State :=
  let key := cmdKey c.queue c.seq
  let un := St.unitUnavailable
  match c.kind with
  | 1 => match s.task key with
    | some x => s.abandonTask key x
    | none => s.complete c.queue c.seq un 0 []
  | 2 => s.finishCmd c un (leBytes 8 c.progress)
  | 3 => match s.colls.find key with
    | some x => s.collFail x un
    | none => s.finishCmd c un []
  | 4 => match s.blends.find? fun o => decide (o.queue = c.queue ∧ o.seq = c.seq) with
    | some o => if o.started then s.blendFail o un else s.blendEnd o un 0 0 0 0
    | none => s.complete c.queue c.seq un 0 []
  | 5 =>
    let s := (s.migs.filter fun m => decide (m.why = .command key)).foldl State.dropMig s
    match s.cmds.find key with
    | some c => s.finishCmd c un (leBytes 4 c.moved)
    | none => s
  | 8 => s.finishCmd c un []
  | _ => s.complete c.queue c.seq un 0 []

/-- The oldest PROG call that has not returned, and those after it, will be made again (R263). -/
def BlendOp.dropCalls (o : BlendOp) : BlendOp :=
  match o.progs.findIdx? fun p => p.back.isNone with
  | some i => { o with progs := o.progs.take i, progNext := (o.progs.getD i ⟨0, 0, [], none⟩).tile }
  | none => o

/-- A unit completes all remaining work with UNIT_UNAVAILABLE (R567, Table 19-8). -/
def State.endWork (s : State) (page : Nat) : State :=
  let st := (pageStack page).getD 0
  let un := St.unitUnavailable
  match pageKind page with
  | some .hubCache => s.endNear (fun r => decide (r.stack = st)) un
  | some .directory => s.endHome st un
  | some .gddrCtl =>
    let g := (page - 0x1000) % 0x40 - 3
    if (s.gddrCtl st g).held.isSome then
      (s.modGddr st g fun x => { x with held := none, attempts := 0, again := false }).answer un []
    else s
  | some .scheduler => (s.pageTasks st none).foldl (fun s e => s.abandonTask e.1 e.2) s
  | some .computeDie =>
    (s.pageTasks st (some ((page - 0x1000) % 0x40 - 17))).foldl (fun s e => s.abandonTask e.1 e.2) s
  | some .mover => (s.engineWork 2 st).foldl State.abandonCmd s
  | some .collective => (s.engineWork 3 st).foldl State.abandonCmd s
  | some .racking =>
    let s := (s.engineWork 5 st).foldl State.abandonCmd s
    (s.engineMigs st).foldl (fun s m => s.refuseMig m un) s
  | some .blend => (s.blendExpire st).2.blendQuiesce st
  | some .hubCtrlCores => { s with blends := s.blends.map fun o => if o.stack = st then o.dropCalls else o }
  | some .hostPort =>
    let fs := s.winFlush
    let s : State := { s with atsReqs := [] }
    fs.foldl (fun s k => s.flushDone (k / 64) (k % 64)) s
  | some .queueBlock => (s.blockCmds page).foldl State.abandonCmd s
  | _ => s

/-! ### Quiescing -/

/-- A directory slice recalls a line that it homes (R336). -/
def State.recallLine (s : State) (line : Nat) : State :=
  let e := s.dirEntry line
  let s := (e.owner.toList ++ e.sharers).foldl (fun s g => s.dropCopy g line) s
  s.dirSetEntry line { e with owner := none, sharers := [] }

/-- The lines that a slice homes and that are not BUSY. -/
def State.homedLines (s : State) (stack : Nat) : List Nat :=
  (s.dir.filter fun e => decide (s.homeOf (e.1 * 128) = some stack) && !s.busy e.1).map Prod.fst

/-- QUIESCE_REQ is set: the page enters QUIESCING (R516, R567, Table 8-7). -/
def State.quiesceStart (s : State) (page : Nat) : State :=
  let s := (s.setFld page Reg.PAGE_CTL 1 1 1).enterState page PS.quiescing
  let s : State := { s with quiesceAt := s.quiesceAt.set page s.panelTime.toNat }
  match pageKind page with
  | some .decanter => s.decQuiesce (pageInstance page)
  | some .blend => s.blendQuiesce ((pageStack page).getD 0)
  | some .cellarBay => (s.mirrorsDegrade (pageBay page) false).mbxAsk (pageBay page) 0x12 false
  | _ => s

/-- What entering QUIESCED means for a unit (Table 19-8). -/
def State.quiescedWork (s : State) (page : Nat) : State :=
  let st := (pageStack page).getD 0
  match pageKind page with
  | some .hubCache => s.cacheFlush st
  | some .directory => (s.homedLines st).foldl State.recallLine s
  | some .hubTlb => s.tlbDrop st fun _ => true
  | some .fabricPort =>
    let f := pageInstance page
    let ks := s.portChannels f
    ks.foldl State.failover (s.portIdle f St.ok)
  | _ => s

/-- The page enters QUIESCED and posts QUIESCE_DONE (R567). -/
def State.quiesceEnd (s : State) (page : Nat) : State :=
  let s : State := { s with quiesceAt := s.quiesceAt.drop fun k => k == page }
  if pageKind page = some .cellarBay then s.bayQuiesced (pageBay page)
  else ((s.quiescedWork page).enterState page PS.quiesced).genEvent page 0x0100 0 (place 15 0 (s.epoch page))

/-- QUIESCE_DONE: a page's work in flight is done (R567). -/
def execQuiesceDone (page : Nat) (s : State) : Out :=
  .next (if s.pageState page = PS.quiescing && s.workLeft page == 0 then s.quiesceEnd page else s)

/-- QUIESCE_EXPIRED: QUIESCE_TIMEOUT has passed since the page entered QUIESCING: all remaining work completes with
UNIT_UNAVAILABLE (R567). A bay waits for REMOVAL_READY all the same (R330; log row 47). -/
def execQuiesceExpired (page : Nat) (s : State) : Out :=
  .next (match s.quiesceAt.find page with
  | none => s
  | some t =>
    if s.pageState page = PS.quiescing && decide (t + s.quiesceLimit ≤ s.panelTime.toNat) then
      let n := s.workLeft page
      let s := (s.endWork page).genEvent page 0x0101 0 (place 31 0 n)
      if pageKind page = some .cellarBay then { s with quiesceAt := s.quiesceAt.drop fun k => k == page }
      else s.quiesceEnd page
    else s)

/-! ### Reset -/

/-- Registers that RESET leaves as they are (R566, R587, R609, R615; log row 48): what the flash holds, what is true of a
cartridge or of time, and what INIT clears at its end. -/
def resetKeeps (page off : Nat) : Bool :=
  decide (off = Reg.PAGE_STATE ∨ off = Reg.PAGE_OWNER) || match pageKind page with
    | some .device => decide (off = 0x108 ∨ (0x140 ≤ off ∧ off < 0x188) ∨ (0x200 ≤ off ∧ off < 0x400))
    | some .computeDie => decide (0x100 ≤ off ∧ off < 0x1F0)
    | some .pmc => decide (off = Reg.BOOT_CFG ∨ off = Reg.BOOT_STAT ∨ off = Reg.PMC_FEED_STAT)
    | some .clock => decide (off = Reg.PANEL_TIME)
    | some .cellarBay => decide (off = bayStatOff ∨ off = Reg.VER_ACTIVE ∨ (0x400 ≤ off ∧ off < 0x480))
    | some .gddrCtl => decide (off = gddrStatOff)
    | some .servicePanel => decide (0x200 ≤ off ∧ off < 0x300)
    | _ => false

/-- The cores of a die lose what their RESET clears: local stores are zero, and the weight banks hold free values (R122,
R123, R582). A FAULTED core stays FAULTED. -/
def State.resetCore (s : State) (c : Nat) : State :=
  let k := s.core c
  let s := s.setCore c { freshBanks s.freeCtr with
    status := if k.status = .faulted ∨ k.status = .skipped then k.status else .idle, fault := k.fault, lastCause := k.lastCause }
  { s with freeCtr := s.freeCtr + 1024 }
where
  /-- A core whose accumulators and banks are free values from number `free` on. -/
  freshBanks (free : Nat) : Core :=
    { wbank := (List.range 4).map fun b =>
        (b, { elems := BitVec.ofNat 8192 (freeWide (free + 160 * b) 8192)
              side := BitVec.ofNat 2048 (freeWide (free + 128 + 160 * b) 2048)
              active := decide (b % 2 = 0) }) }

/-- What a unit holds beside its registers returns to its reset value. -/
def State.clearUnit (s : State) (page : Nat) : State :=
  let st := (pageStack page).getD 0
  let s : State := { s with buckets := s.buckets.drop fun k => k / 1024 == page }
  match pageKind page with
  | some .hubRouter =>
    { s with trellis := { s.trellis with
      entries := s.trellis.entries.drop fun k => k / 8 == page
      shares := s.trellis.shares.drop fun k => k / 512 == page
      rotate := s.trellis.rotate.drop fun k => k / 8 == page
      held := s.trellis.held.filter fun h => !decide (h.1 = st)
      waits := s.trellis.waits.filter fun w => !decide (w.1 = st) } }
  | some .hubCache => { s.cacheFlush st with prefetch := s.prefetch.drop fun k => k == st }
  | some .directory => (s.homedLines st).foldl State.recallLine s
  | some .gddrCtl => { s with gddr := s.gddr.drop fun k => k == st * 8 + ((page - 0x1000) % 0x40 - 3) }
  | some .hubTlb => s.tlbDrop st fun _ => true
  | some .computeDie =>
    let d := (page - 0x1000) % 0x40 - 17
    let lo := lsBase (coreKey st d 0)
    let s : State := { s with mem := s.mem.clear lo (lo + 0x20000000) }
    (s.cores.filter fun e => decide (coreStack e.1 = st ∧ coreDie e.1 = d)).foldl (fun s e => s.resetCore e.1) s
  | some .fabricPort => s.clearLink (pageInstance page)
  | some .cellarBay => s.mbxDrop (pageBay page)
  | some .eventQueue => { s with evq := s.evq.drop fun e => e / 16 == pageInstance page }
  | some .queueBlock => { s with queues := s.queues.drop fun q => q / 32 == pageInstance page }
  | some .decanter => { s with decs := s.decs.drop fun k => k / 16 == pageInstance page }
  | some .interrupt => s
  | _ => s

/-- The registers of a page take their reset values (R3, R4, R566, R614). -/
def State.resetRegs (s : State) (page : Nat) : State :=
  let gone := fun (k : Nat) => decide (k / 512 = page) && !resetKeeps page (k % 512 * 8)
  let iommu := fun (k : Nat) => decide (page = Page.iommu ∧ k / 512 = 0x102)
  let s : State := { s with
    regs := s.regs.drop fun k => gone k || iommu k
    written := s.written.filter fun k => !(gone k || iommu k)
    evSeq := s.evSeq.drop fun k => k == page
    lockAt := s.lockAt.drop fun k => k == page
    quiesceAt := s.quiesceAt.drop fun k => k == page }
  let s := (s.setFld page Reg.PAGE_OWNER 8 8 0).setReg page Reg.PAGE_STATE (place 47 32 (s.epoch page))
  if page = Page.hostPort then s.setFld page Reg.HOST_STAT 47 32 (s.epoch page) else s

/-- A page passes through RESET and enters INIT (R566, R613). -/
def State.resetPage (s : State) (page : Nat) : State :=
  let s := (s.enterState page PS.reset).clearUnit page
  let s := s.resetRegs page
  let s : State := { s with unpowered := s.unpowered.filter fun p => p ≠ page }
  s.enterState page PS.init

/-- The reading of a page's sensor that keeps a reset in INIT exceeds WARN (R290, R543). -/
def State.tooHot (s : State) (page : Nat) : Bool :=
  let hotter := fun (c i : Nat) => decide (s.fld Page.thermal (0x100 + 8 * c) 7 0 < s.lastReading c i)
  match pageKind page, pageStack page with
  | some .computeDie, some st => hotter 0 (st * 4 + ((page - 0x1000) % 0x40 - 17)) || hotter 1 st
  | some .gddrCtl, some st => hotter 1 st || decide (95 < s.fld page gddrStatOff 7 0)
  | some _, some st => hotter 1 st
  | some .serverDie, none => hotter 2 (pageInstance page)
  | some .portDie, none => hotter 3 (pageInstance page)
  | some .fabricPort, none => hotter 3 (pageInstance page / 8) || hotter 4 (pageInstance page)
  | some .cellarBay, none => hotter 3 (pageInstance page / 4) || hotter 5 (pageInstance page)
  | _, _ => false

/-- A GDDR controller's INIT: the device is trained and zero, and OFFLINE and TSTATE clear (R290). -/
def State.gddrInit (s : State) (st g : Nat) : State :=
  let lo := gddrBase st
  let mine := fun (a : Nat) => decide (lo ≤ a ∧ a < lo + 0x600000000 ∧ gddrDev (a - lo) = g)
  let s : State := { s with
    mem := s.mem.filter fun c => !mine c.1
    bad := s.bad.drop fun l => mine (l * 128) }
  let page := Page.gddr st g
  (((s.setFld page gddrStatOff 15 15 0).setFld page gddrStatOff 16 16 0).setFld page gddrStatOff 9 8 0).gddrRefresh st g

/-- The end of a unit's INIT work (R122, R290, R566). -/
def State.initEnd (s : State) (page : Nat) : State :=
  let s := match pageKind page, pageStack page with
    | some .hubRouter, some st => s.trainLinks st
    | some .gddrCtl, some st => s.gddrInit st ((page - 0x1000) % 0x40 - 3)
    | _, _ => s
  s.enterState page PS.ready

/-- PAGE_INIT_DONE: a unit's INIT work ends. A bay that has been reset trains its link, at `width` lanes and `rate` or, with
width zero, in vain, and waits for its admission (R312, R566, R601; log row 48). -/
def execPageInitDone (page width rate : Nat) (s : State) : Out :=
  .next (if s.pageState page ≠ PS.init ∨ s.tooHot page = true ∨ s.unreached page = true then s
  else if pageKind page = some .cellarBay then
    let b := pageBay page
    if s.bayStat b 1 1 = 0 then s.enterState page PS.off
    else if s.bayStat b 3 3 = 1 then s
    else if width = 0 then (s.setBayStat b 63 56 St.timeout).enterState page PS.faulted
    else ((((s.modBay b fun x => { x with rate := rate }).setBayStat b 3 3 1).setBayStat b 20 16 width).refreshBayRate b)
  else s.initEnd page)

/-! ### Power and update -/

/-- ENABLE is cleared: the page is OFF, without power where PAGE_CAP.POWER says so; a router loses its packets (R375, R566,
R613). -/
def State.pageOff (s : State) (page : Nat) : State :=
  let s := (s.setFld page Reg.PAGE_CTL 0 0 0).enterState page PS.off
  let s : State := if bit (s.reg page Reg.PAGE_CAP) 0 then { s with unpowered := setInsert s.unpowered page } else s
  match pageKind page, pageStack page with
  | some .hubRouter, some st => s.routerLost st
  | some .cellarBay, _ => (s.mirrorsDegrade (pageBay page) true).bayDown (pageBay page) false
  | _, _ => s

/-- UPDATE_DONE: the firmware image has been checked and loaded, or left aside (R566, Table 19-8). `status` is OK, INPUT_CORRUPT
or VERSION_MISMATCH, and `version` that of the image. -/
def execUpdateDone (stack status version : Nat) (s : State) : Out :=
  let page := Page.hubCtrl stack
  .next (if 72 ≤ stack ∨ s.pageState page ≠ PS.updating then s
  else
    let st := if status = St.inputCorrupt ∨ status = St.versionMismatch then status
      else if s.isWritten page 0x100 then St.ok else St.unitUnavailable
    let s := if st = St.ok then (s.setReg page 0x108 (place 15 0 version)).markWritten page 0x108 else s
    (s.lastStatus page st).enterState page PS.quiesced)

/-- QUIESCE_REQ is cleared: a QUIESCED page returns to READY with a new epoch; a driver attaches
again (R442, R566, R597). -/
def State.quiesceClear (s : State) (page : Nat) : State :=
  if pageKind page = some .cellarBay then
    let b := pageBay page
    let s := s.bayResume b
    if s.removal b = 4 then s.removeEnd b 3 0 else s
  else
    let s := if page = Page.hostPort then s.setFld page Reg.VER_ACTIVE 15 0 0 else s
    (s.setFld page Reg.PAGE_CTL 1 1 0).enterState page PS.ready

/-! ### PAGE_CTL -/

/-- The change that a write of PAGE_CTL asks for: 0 none, 1 ENABLE, 2 QUIESCE_REQ, 3 RESET_REQ, 4 UPDATE_REQ, and 5 for more
than one (R611). -/
def State.ctlChange (s : State) (page : Nat) (v : Word) : Nat :=
  let old := s.reg page Reg.PAGE_CTL
  match [(1, bit v 0 != bit old 0), (2, bit v 1 != bit old 1), (3, bit v 2), (4, bit v 3)].filter Prod.snd with
  | [] => 0
  | [c] => c.1
  | _ => 5

/-- Whether Table 19-7 and PAGE_CAP allow a change (R566, R611). -/
def State.ctlAllowed (s : State) (page change : Nat) : Bool :=
  let st := s.pageState page
  let cap := s.reg page Reg.PAGE_CAP
  match change with
  | 0 => true
  | 1 => decide (st = PS.quiesced ∨ st = PS.off)
  | 2 => decide (st = PS.quiesced) || (decide (st = PS.ready) && bit cap 1)
  | 3 => decide (st = PS.quiesced ∨ st = PS.faulted) && bit cap 2
  | 4 => decide (st = PS.quiesced) && bit cap 3
  | _ => false

/-- Makes an allowed change. -/
def State.ctlMake (s : State) (page change : Nat) : State :=
  match change with
  | 1 => if s.pageState page = PS.off then s.resetPage page else s.pageOff page
  | 2 => if s.pageState page = PS.ready then s.quiesceStart page else s.quiesceClear page
  | 3 => s.resetPage page
  | 4 => s.enterState page PS.updating
  | _ => s

/-- CNT_CLEAR (R611). -/
def State.cntClear (s : State) (page : Nat) : State :=
  { s with regs := s.regs.drop fun k => decide (k / 512 = page ∧ 0x60 / 8 ≤ k % 512 ∧ k % 512 < 0xE0 / 8) }

/-- A write of PAGE_CTL (R566, R570, R611). -/
def pageCtlEff (page : Nat) (v : Word) (s : State) : State :=
  let change := s.ctlChange page v
  if bits v 63 48 ≠ s.epoch page then s.lastStatus page St.epochStale
  else if change = 5 then s.lastStatus page St.inputCorrupt
  else if s.ctlAllowed page change = false then s.lastStatus page St.unitUnavailable
  else
    let s := if bit v 4 then s.cntClear page else s
    (s.ctlMake page change).lastStatus page St.ok

/-- A write of PAGE_CTL that expects an epoch, and changes the bits of a mask of ENABLE and QUIESCE_REQ and sets those of
another. -/
def State.pageCtlWrite (s : State) (i : Ident) (page epoch enable quiesce set_ : Nat) : State :=
  let v := place 63 48 epoch ||| place 0 0 enable ||| place 1 1 quiesce ||| BitVec.ofNat 64 set_
  if page = 0x102 then s else s.writeVia i page Reg.PAGE_CTL v (pageCtlEff page v)

/-- QUIESCE_REQ (R567). -/
def execQuiesceReq (i : Ident) (page epoch : Nat) (s : State) : Out :=
  .next (s.pageCtlWrite i page epoch (s.fld page Reg.PAGE_CTL 0 0) 1 0)

/-- QUIESCE_CLEAR (R566). -/
def execQuiesceClear (i : Ident) (page epoch : Nat) (s : State) : Out :=
  .next (s.pageCtlWrite i page epoch (s.fld page Reg.PAGE_CTL 0 0) 0 0)

/-- RESET_REQ (R566). -/
def execResetReq (i : Ident) (page epoch : Nat) (s : State) : Out :=
  .next (s.pageCtlWrite i page epoch (s.fld page Reg.PAGE_CTL 0 0) (s.fld page Reg.PAGE_CTL 1 1) 4)

/-- UPDATE_REQ (R566). -/
def execUpdateReq (i : Ident) (page epoch : Nat) (s : State) : Out :=
  .next (s.pageCtlWrite i page epoch (s.fld page Reg.PAGE_CTL 0 0) (s.fld page Reg.PAGE_CTL 1 1) 8)

/-- ENABLE_CLEAR (R566). -/
def execEnableClear (i : Ident) (page epoch : Nat) (s : State) : Out :=
  .next (s.pageCtlWrite i page epoch 0 (s.fld page Reg.PAGE_CTL 1 1) 0)

/-- ENABLE_SET (R566). -/
def execEnableSet (i : Ident) (page epoch : Nat) (s : State) : Out :=
  .next (s.pageCtlWrite i page epoch 1 (s.fld page Reg.PAGE_CTL 1 1) 0)

/-- CNT_CLEAR (R611). -/
def execCntClear (i : Ident) (page epoch : Nat) (s : State) : Out :=
  .next (s.pageCtlWrite i page epoch (s.fld page Reg.PAGE_CTL 0 0) (s.fld page Reg.PAGE_CTL 1 1) 16)

/-! ### The page lock -/

/-- A write of PAGE_LOCK (R614). -/
def pageLockEff (i : Ident) (page : Nat) (v : Word) (s : State) : State :=
  let held := bit (s.reg page Reg.PAGE_LOCK) 63
  if bit v 0 && bit v 1 then s.lastStatus page St.inputCorrupt
  else if bit v 0 && !held then
    let l := place 63 63 1 ||| place 55 48 (identType i) ||| place 47 32 (identIndex i) ||| place 10 8 (identVia i)
    { s.setReg page Reg.PAGE_LOCK l with lockAt := s.lockAt.set page s.panelTime.toNat }
  else if bit v 1 && held && (s.holdsLock i page || decide (i = .mgmt)) then s.releaseLock page
  else s

/-- PAGE_LOCK_ACQUIRE (R614). -/
def execPageLockAcquire (i : Ident) (page : Nat) (s : State) : Out :=
  .next (if page = 0x102 then s else s.writeVia i page Reg.PAGE_LOCK 1 (pageLockEff i page 1))

/-- PAGE_LOCK_RELEASE (R614). -/
def execPageLockRelease (i : Ident) (page : Nat) (s : State) : Out :=
  .next (if page = 0x102 then s else s.writeVia i page Reg.PAGE_LOCK 2 (pageLockEff i page 2))

/-- PAGE_LOCK_IDLE_EXPIRY: the holder has not accessed the page for 1 ms (R614). -/
def execPageLockIdleExpiry (page : Nat) (s : State) : Out :=
  .next (if bit (s.reg page Reg.PAGE_LOCK) 63 && decide (s.lockAt.get 0 page + 1000000 ≤ s.panelTime.toNat) then
    s.releaseLock page else s)

end Sys2Proof.Machine
end

