-- ==== Sys2Proof/Machine/Sparing.lean ====
section
/-!
DEFINITION. Sparing (R102 to R104, R573 to R581): routing rebuilds that finish bindings, failures of compute dies and hubs,
BIND and RELEASE, CAP_DECLARED and UNAVAIL_US, row skips, and the core window (R620, R621).
-/
namespace Sys2Proof.Machine

/-! ### Binding -/

/-- Holds injection in every router, with which a rebuild of the routing tables begins (R373). -/
def State.holdAll (s : State) : State :=
  (List.range 72).foldl (fun (s : State) st => s.setFld (Page.router st) Reg.ROUTER_CTL 0 0 1) s

/-- Whether a core of a physical stack holds a task. -/
def State.stackBusy (s : State) (p : Nat) : Bool := s.cores.any fun e => decide (coreStack e.1 = p) && e.2.task.isSome

/-- The cellar lines with a directory entry. -/
def State.cellarLines (s : State) : List Nat :=
  (s.dir.filter fun e => match regionOf (e.1 * 128) with
    | .cellar _ _ => true
    | _ => false).map Prod.fst

/-- Loads the PHYS, VALID and EPOCH of a logical stack. -/
def State.setSpareMap (s : State) (l phys valid epoch : Nat) : State :=
  s.setReg Page.device (Reg.SPARE_MAP + 8 * l) (place 63 48 epoch ||| place 7 7 valid ||| place 6 0 phys)

/-- The EPOCH of a logical stack's binding. -/
def State.bindEpoch (s : State) (l : Nat) : Nat := s.fld Page.device (Reg.SPARE_MAP + 8 * l) 63 48

/-- What a READY stack becomes that is no longer bound: MEMORY_ONLY where its hub is READY, and FAULTED otherwise (R577). -/
def State.stackUnbound (s : State) (p : Nat) : State :=
  if s.stackState p ≠ PS.ready then s
  else s.setStackState p (if s.ready (Page.router p) then PS.memoryOnly else PS.faulted)

/-- Changes the binding of a logical stack; homes recall the cellar lines that another slice homes afterwards (R336, R615). -/
def State.rebind (s : State) (change : State → State) : State :=
  let t := change s
  let moved := s.cellarLines.filter fun line => decide (s.homeOf (line * 128) ≠ t.homeOf (line * 128)) && !s.busy line
  (change (moved.foldl State.recallLine s)).refreshOwners

/-- The end of a binding, once the routing tables are rebuilt (R577, steps 4 and 5). -/
def State.bindEnd (s : State) (l p : Nat) : State :=
  let old := s.fld Page.device (Reg.SPARE_MAP + 8 * l) 6 0
  let was := s.boundStack l
  let s := s.rebind fun s =>
    let s := s.setSpareMap l p 1 ((s.bindEpoch l + 1) % 65536)
    let s := match was with
      | some q => s.stackUnbound q
      | none => s
    s.setStackState p PS.ready
  s.genEvent Page.device 0x0113 0 (place 5 0 l ||| place 14 8 p ||| place 22 16 old)

/-- Zeroes what the cores of a stack hold (R577, step 2). A FAULTED core stays FAULTED, and a gated one gated (R540). -/
def State.zeroStack (s : State) (p : Nat) : State :=
  let lo := lsBase (coreKey p 0 0)
  { s with
    mem := s.mem.clear lo (lo + 0x80000000)
    cores := s.cores.map fun (e : Nat × Core) =>
      if coreStack e.1 = p then
        (e.1, { status := if e.2.status = .faulted ∨ e.2.status = .skipped ∨ e.2.status = .gated then e.2.status else .idle
                fault := e.2.fault, lastCause := e.2.lastCause })
      else e }

/-- Starts the binding of a logical to a SPARED stack: recall, unless the slice is gone, zeroing, and the hold of injection;
ROUTE_REBUILD ends it (R577, R579). -/
def State.bindStart (s : State) (l p : Nat) (recalled : Bool) : State :=
  let s := match s.boundStack l, recalled with
    | some q, true =>
      (s.cellarLines.filter fun line => decide (s.homeOf (line * 128) = some q) && !s.busy line).foldl State.recallLine s
    | _, _ => s
  let s := (s.zeroStack p).holdAll
  { s with binds := s.binds ++ [(l, p)] }

/-- ROUTE_REBUILD: issued again while the routers drain (R373). With the tables written, the bindings that waited for them
are made (R577). -/
def execRouteRebuild (tables : List (Nat × Nat × Nat)) (s : State) : Out :=
  .next (let drained := s.holdAll.trellisDrained
  let s := s.rebuildRoutes tables
  if drained then
    let bs := s.binds
    let s : State := { s with binds := [] }
    bs.foldl (fun s b => s.bindEnd b.1 b.2) s
  else s)

/-- The panel management controller binds a logical stack to the SPARED stack of lowest index, or leaves it unbound
(R578, R579). -/
def State.autoBind (s : State) (l : Nat) (recalled : Bool) : State :=
  match (List.range 72).find? fun p => s.stackState p = PS.spared && s.binds.all fun b => decide (b.2 ≠ p) with
  | some p => s.bindStart l p recalled
  | none =>
    match s.boundStack l with
    | none => s
    | some q => s.rebind fun s => (s.setSpareMap l q 0 (s.bindEpoch l)).stackUnbound q

/-- SPARE_CTL.AUTO. -/
def State.autoSpare (s : State) : Bool := s.fld Page.device Reg.SPARE_CTL 62 62 == 1

/-- A RELEASE of a MEMORY_ONLY stack: its lines are written back and returned, its power goes, and it is FAULTED; its memory
is gone (R280, R578). It loses its routers' packets, but is no hub failure. -/
def State.releaseStack (s : State) (p : Nat) : State :=
  let s := ((s.cacheFlush p).routerLost p).setStackState p PS.faulted
  let s := (List.range 22).foldl (fun s j => s.enterState (Page.hub p j) PS.faulted) s
  let lo := gddrBase p
  { s with
    unpowered := (List.range 22).foldl (fun u j => setInsert u (Page.hub p j)) s.unpowered
    mem := s.mem.clear lo (lo + 0x800000000)
    bad := s.bad.drop fun l => decide (lo ≤ l * 128 ∧ l * 128 < lo + 0x800000000) }.genEvent Page.device 0x0115 0 (place 6 0 p)

/-- LAST_STATUS of SPARE_CTL. -/
def State.spareStatus (s : State) (st : Nat) : State := s.setFld Page.device Reg.SPARE_CTL 55 48 st

/-- A logical stack is busy, or it or the physical stack waits for a binding. -/
def State.bindBusy (s : State) (l p : Nat) : Bool :=
  (match s.boundStack l with
    | some q => s.stackBusy q
    | none => false) || s.binds.any fun b => decide (b.1 = l ∨ b.2 = p)

/-- A write of SPARE_CTL (R570, R577, R578). -/
def spareCtlEff (v : Word) (s : State) : State :=
  let s := s.storeWrite Page.device Reg.SPARE_CTL v
  let c := s.reg Page.device Reg.SPARE_CTL
  let l := bits c 13 8
  let p := bits c 6 0
  let expected := bits c 47 32
  if !bit v 63 then s
  else if 72 ≤ p then s.spareStatus St.unitUnavailable
  else if bits c 57 56 = 0 then
    if 64 ≤ l ∨ s.bindEpoch l ≠ expected then s.spareStatus St.epochStale
    else if s.stackState p ≠ PS.spared ∨ s.bindBusy l p = true then
      s.spareStatus St.unitUnavailable
    else (s.bindStart l p true).spareStatus St.ok
  else
    if s.epoch (Page.router p) ≠ expected then s.spareStatus St.epochStale
    else if s.stackState p ≠ PS.memoryOnly then s.spareStatus St.unitUnavailable
    else (s.releaseStack p).spareStatus St.ok

/-- A write of SPARE_CTL with GO. -/
def State.spareGo (s : State) (i : Ident) (op l p epoch : Nat) (auto : Bool) : State :=
  let v := place 63 63 1 ||| place 62 62 auto.toNat ||| place 57 56 op ||| place 47 32 epoch ||| place 13 8 l ||| place 6 0 p
  s.writeVia i Page.device Reg.SPARE_CTL v (spareCtlEff v)

/-- SPARE_BIND (R577). -/
def execSpareBind (i : Ident) (l p epoch : Nat) (auto : Bool) (s : State) : Out := .next (s.spareGo i 0 l p epoch auto)

/-- SPARE_RELEASE (R578). -/
def execSpareRelease (i : Ident) (p epoch : Nat) (auto : Bool) (s : State) : Out := .next (s.spareGo i 1 0 p epoch auto)

/-! ### Failures -/

/-- The records of lost cores get SAVE_INFO of all ones, their cores hold no task any more, and the task fails (R418, R578,
R579). -/
def State.loseCores (s : State) (key : Nat) (t : Task) (lost : List Nat) (status cause : Nat) : State :=
  let lcid := (lost.map s.lcid).foldl min 0xFFFFFFFF
  let s := lost.foldl (fun s c =>
    let s := match (s.logicalPlace c).bind (s.recordAddr t t.saveTable) with
      | some a => (s.vwrite { t.ctxt 0 with stack := none } (a + 0x64238) (List.replicate 8 0xFF)).2.2
      | none => s
    s.freeCore c) s
  (s.failTask key t status lcid cause).savesDone key

/-- Every task on cores that satisfy a predicate loses them. -/
def State.loseTasks (s : State) (gone : Nat → Bool) (status cause : Nat) : State :=
  s.tasks.foldl (fun s e =>
    if e.2.onCores then
      let lost := (s.taskCores e.2).filter fun c => gone c && decide ((s.core c).task = some e.1)
      match lost, s.task e.1 with
      | _ :: _, some t => s.loseCores e.1 t lost status cause
      | _, _ => s
    else s) s

/-- Pre-empts every task of a logical stack with a full save (R578). -/
def State.evictTasks (s : State) (l : Nat) : State :=
  s.tasks.foldl (fun s e =>
    if e.2.stackBits.testBit l && decide (e.2.status = .running ∨ e.2.status = .stopping) && decide (e.2.request < 3) then
      s.beginPreempt e.1 { e.2 with request := e.2.request + 3 } false
    else s) s

/-- A compute die has failed: FAULTED, DIE_FAILED, and the tasks on it fail (R578). -/
def State.dieFail (s : State) (st d : Nat) (power : Bool) : State :=
  let page := Page.computeDie st d
  let s := s.enterState page PS.faulted
  let s : State := { s with
    unpowered := if power then setInsert s.unpowered page else s.unpowered
    capStale := true }
  let s := s.genEvent page 0x0112 0 (place 6 0 st ||| place 9 8 d)
  s.loseTasks (fun c => decide (coreStack c = st ∧ coreDie c = d)) St.internal 0x08

/-- What AUTO does after the failure of a die: it pre-empts the stack's other tasks, and binds the logical stack anew once its
cores are free (R578). -/
def State.dieRebind (s : State) (st : Nat) : State :=
  match s.logicalStack st with
  | none => s
  | some l =>
    if !s.autoSpare || s.binds.any fun b => decide (b.1 = l) then s
    else
      let s := s.evictTasks l
      if s.stackBusy st then s else s.autoBind l true

/-- DIE_FAILED: a HARDWARE fault that covers a compute die; issued again, it goes on with the rebinding (R578). -/
def execDieFailed (st d : Nat) (s : State) : Out :=
  let st := st % 72
  let d := d % 4
  .next ((if s.pageState (Page.computeDie st d) = PS.faulted then s else s.dieFail st d false).dieRebind st)

/-- The line of an agent's key. -/
def keyLine (k : Nat) : Nat := k % 2 ^ 45

/-- Every caching agent drops its copies of the lines that a failed hub homes; what waited there goes on waiting (R579,
step 2). -/
def State.dropHome (s : State) (p : Nat) : State :=
  let mine := fun (line : Nat) => decide (s.homeOf (line * 128) = some p)
  let s := (s.agents.filter fun e => mine (keyLine e.1)).foldl
    (fun s e => s.dropCopy (e.1 / 2 ^ 45) (keyLine e.1)) s
  let waits := ((s.txns.filter fun t => mine t.1).map fun t => t.2.req) ++ s.dirQueue.filter fun m => mine m.a
  { s with
    dir := s.dir.drop mine
    txns := s.txns.drop mine
    dirQueue := s.dirQueue.filter fun m => !mine m.a
    lostReqs := s.lostReqs ++ waits.map fun m => (p, m) }

/-- Every home removes the near-cache of a failed hub; a line that it owned becomes POISONED (R579, step 3). -/
def State.dropNear (s : State) (p : Nat) : State :=
  let g := nearAgent p
  let owned := (s.dir.filter fun e => decide (e.2.owner = some g)).map Prod.fst
  let named := (s.dir.filter fun e => decide (e.2.owner = some g ∨ g ∈ e.2.sharers)).map Prod.fst
  let s := named.foldl (fun s line => s.dirRemove line g) s
  { s with
    bad := owned.foldl (fun m line => m.set line St.poisoned) s.bad
    agents := s.agents.drop fun k => k / 2 ^ 45 == g
    nearReqs := s.nearReqs.filter fun r => !decide (r.stack = p)
    net := s.net.filter fun m => !decide (m.src = g ∨ m.dst = g) }

/-- What the units of a failed hub held is gone; its engines' commands wait for LOST_TIMEOUT (R579, step 4). -/
def State.dropHub (s : State) (p : Nat) : State :=
  let lo := gddrBase p
  let window := fun (a : Nat) => decide (lo ≤ a ∧ a < lo + 0x800000000)
  let keys := ([2, 3, 4, 5].flatMap fun k => s.engineWork k p).map fun c => cmdKey c.queue c.seq
  let s := (s.migs.filter fun m => decide (m.stack = p)).foldl State.dropMig s
  let s : State := { s with
    cache := s.cache.filter fun l => !decide (l.stack = p)
    tlb := s.tlb.filter fun e => !decide (e.stack = p)
    prefetch := s.prefetch.drop fun k => k == p
    gddr := s.gddr.drop fun k => k / 8 == p
    colls := s.colls.filter fun c => !decide (c.2.stack = p)
    blends := s.blends.filter fun o => !decide (o.stack = p)
    promos := s.promos.filter fun r => !decide (r.stack = p)
    mem := s.mem.clear lo (lo + 0x800000000)
    bad := s.bad.drop fun l => window (l * 128)
    cmds := s.cmds.map fun (e : Nat × Cmd) => if keys.contains e.1 then (e.1, { e.2 with held := 4 }) else e }
  s

/-- A hub has failed (R579). A TRIP removes the power of the whole stack. -/
def State.hubFail (s : State) (p : Nat) (power : Bool) : State :=
  let pages := if power then (List.range 22).map (Page.hub p) else [Page.router p]
  let s := pages.foldl (fun s j => if s.pageState j = PS.off then s else s.enterState j PS.faulted) s
  let s : State := { s with
    unpowered := if power then pages.foldl setInsert s.unpowered else s.unpowered
    lostAt := s.lostAt.set p s.panelTime.toNat
    capStale := true }
  let homed := s.dropHome p
  let s := (homed.setStackState p PS.faulted).genEvent Page.device 0x0114 0 (place 6 0 p)
  let s := (((s.routerLost p).holdAll).dropNear p).dropHub p
  let s := s.loseTasks (fun c => decide (coreStack c = p)) St.dataLost 0x08
  match s.logicalStack p with
  | some l => if s.autoSpare && s.binds.all (fun b => decide (b.1 ≠ l)) then s.autoBind l false else s
  | none => s

/-- STACK_FAILED: a fault that fails a hub (R579). -/
def execStackFailed (p : Nat) (s : State) : Out :=
  let p := p % 72
  .next (if s.stackState p = PS.faulted ∨ s.stackState p = PS.off then s else s.hubFail p false)

/-- ROUTER_LOSS: a router leaves READY for OFF or FAULTED by a fault, which fails its hub (R375, R574). -/
def execRouterLoss (p : Nat) (off : Bool) (s : State) : Out :=
  let p := p % 72
  let page := Page.router p
  .next (if s.pageState page ≠ PS.ready then s
  else (s.enterState page (if off then PS.off else PS.faulted)).hubFail p false)

/-- LOST_TIMEOUT: LOST_TIMEOUT after STACK_FAILED, what still waits for the failed hub completes with DATA_LOST; a home treats
the silent agents as in step 3 (R579). -/
def execLostTimeout (p : Nat) (s : State) : Out :=
  .next (match s.lostAt.find p with
  | none => s
  | some t =>
    if s.panelTime.toNat < t + s.fld Page.device Reg.QUIESCE_CFG 31 16 * 100000 then s
    else
      let g := nearAgent p
      let lost := (s.lostReqs.filter fun e => decide (e.1 = p)).map Prod.snd
      let s : State := { s with lostReqs := s.lostReqs.filter fun e => !decide (e.1 = p) }
      let s := lost.foldl (fun s m => s.refuseRequest m St.dataLost) s
      let silent := (s.txns.filter fun e => e.2.waits.contains g || e.2.missed.contains g || decide (e.2.req.src = g)).map Prod.fst
      let s := silent.foldl (fun s line => s.endTxn line St.dataLost) s
      let s := s.endNear (fun r => match regionOf (r.line * 128) with
        | .gddr st _ => decide (st = p)
        | _ => false) St.dataLost
      let cs := (s.cmds.filter fun e => decide (e.2.held = 4)).map Prod.snd
      let s := cs.foldl (fun s c => s.finishCmd c St.dataLost []) s
      { s with lostAt := s.lostAt.drop fun k => k == p })

/-! ### Capacity and availability -/

/-- What CAP_DECLARED states (Table 19-11). -/
def State.capacityNow (s : State) : Nat :=
  let ready := (List.range 72).filter fun p => s.stackState p = PS.ready
  let offline := (ready.flatMap fun p => (List.range 6).filter fun g => s.fld (Page.gddr p g) gddrStatOff 15 15 = 1).length
  let up := ((List.range 32).filter fun f => s.portUp f).length
  let bays := ((List.range 16).filter fun b => s.ready (Page.bay b)).length
  let stackBits := ((List.range 64).filter fun l => match s.boundStack l with
    | some p => (List.range 22).all fun j => s.ready (Page.hub p j)
    | none => false).length
  (place 42 32 (24 * ready.length - 4 * offline) ||| place 29 24 up ||| place 20 16 bays ||| place 14 8 stackBits).toNat

/-- CAP_CHANGED: CAP_DECLARED follows its inputs (R580). -/
def execCapChanged (s : State) : Out :=
  let old := s.reg Page.device Reg.CAP_DECLARED
  let n := s.capacityNow
  let s : State := { s with capStale := false }
  .next (if bits old 42 0 = n then s
  else
    let s := s.setReg Page.device Reg.CAP_DECLARED (place 63 48 (bits old 63 48 + 1) ||| BitVec.ofNat 64 n)
    s.genEvent Page.device 0x0116 0 (BitVec.ofNat 64 (n >>> 8)))

/-- Whether the module does not accept work at its declared capacity (R581). -/
def State.unavailable (s : State) : Bool :=
  let bound := (List.range 64).filterMap s.boundStack
  s.boot.running || s.capStale
    || ((List.range 72).any fun p => s.fld (Page.router p) Reg.ROUTER_CTL 0 0 == 1)
    || bound.any fun p => (List.range 22).any (fun j => !s.ready (Page.hub p j))
      || (List.range 6).any fun g => s.fld (Page.gddr p g) gddrStatOff 14 14 == 1

/-- UNAVAIL_TICK: a microsecond passes (R581). -/
def execUnavailTick (s : State) : Out := .next (if s.unavailable then s.bump Page.device 0 else s)

/-! ### Row skips -/

/-- A write of ROW_SKIPr (R103, R104): reserved where the positions are not two rising columns; refused while a core of the row
holds a task. -/
def rowSkipEff (page r : Nat) (v : Word) (s : State) : State :=
  let off := Reg.ROW_SKIP + 8 * r
  let n0 := bits v 5 0
  let n1 := bits v 13 8
  match pageStack page with
  | none => s
  | some st =>
    let d := (page - 0x1000) % 0x40 - 17
    let at_ := fun (p : Nat) => coreKey st d (r * 42 + p)
    let cols := List.range 42
    if n1 ≤ n0 ∨ 41 < n1 then s
    else if cols.any fun p => (s.core (at_ p)).task.isSome then s.lastStatus page St.unitUnavailable
    else
      let old := cols.map fun p => s.logicalCol (at_ p)
      let was := s.rowSkips st d r
      let fused := resetValue page off
      let changed := decide (n0 ≠ bits fused 5 0 ∨ n1 ≠ bits fused 13 8)
      let s := s.setReg page off (place 5 0 n0 ||| place 13 8 n1 ||| place 16 16 changed.toNat)
      let s := (cols.filter fun p => decide (s.logicalCol (at_ p) ≠ old.getD p none)).foldl (fun s p => s.zeroCore (at_ p)) s
      let s := [was.1, was.2].foldl (fun s p =>
        s.modCore (at_ p) fun k => if k.status = .skipped then { k with status := .idle } else k) s
      [n0, n1].foldl (fun s p =>
        s.modCore (at_ p) fun k => if k.status = .faulted then k else { k with status := .skipped }) s

/-- ROW_SKIP_WRITE (R104). -/
def execRowSkipWrite (i : Ident) (st d r : Nat) (v : Word) (s : State) : Out :=
  let page := Page.computeDie (st % 72) (d % 4)
  .next (s.writeVia i page (Reg.ROW_SKIP + 8 * (r % 30)) v (rowSkipEff page (r % 30) v))

/-! ### The core window -/

/-- The core that CW_SELECT of a stack names. -/
def State.cwCore (s : State) (st : Nat) : Nat :=
  let v := s.reg (Page.coreWindow st) 0x100
  coreKey st (bits v 15 14) (bits v 12 8 * 42 + bits v 5 0)

/-- CW_STAT.STATE of a core (Table 21-11, R620): a core of a FAULTED die is FAULTED, and a STOPPED one has drained and is not
saved. -/
def State.cwState (s : State) (c : Nat) : Nat :=
  let k := s.core c
  let skips := s.rowSkips (coreStack c) (coreDie c) (coreRow c)
  if s.pageState (corePage c) = PS.faulted then 4
  else if (s.cores.find c).isNone && decide (corePcol c = skips.1 ∨ corePcol c = skips.2) then 5
  else match k.status with
    | .idle => 0
    | .running => 1
    | .stopped => if k.drained && !k.saved then 2 else 1
    | .gated => 3
    | .faulted => 4
    | .skipped => 5

/-- CW_STAT as it reads. -/
def State.cwStat (s : State) (st : Nat) : Word :=
  let c := s.cwCore st
  place 47 40 (s.fld (Page.coreWindow st) 0x118 47 40) ||| place 39 32 (s.core c).lastCause ||| place 2 0 (s.cwState c)

/-- Whether a CW_DATA access reaches the selected core's state. -/
def State.cwReaches (s : State) (st : Nat) : Bool :=
  [0, 2, 4].contains (s.cwState (s.cwCore st)) && !s.unpowered.contains (corePage (s.cwCore st))

/-- CW_DATA as it reads: zero where the state is not reached, among the accumulators (R122) and past the record. -/
def State.cwData (s : State) (st : Nat) : Word :=
  let c := s.cwCore st
  let o := s.fld (Page.coreWindow st) 0x108 18 0 / 8 * 8
  if s.cwReaches st = false ∨ 0x68000 ≤ o then 0
  else if o < 0x40000 then BitVec.ofNat 64 (s.mem.readNat (lsBase c + o) 8)
  else if o < 0x60000 then 0
  else (s.core c).recWord (saveInfo none) o

/-- A CW_DATA access: its status, and CW_OFFSET advances by 8 (R620). -/
def State.cwAdvance (s : State) (st : Nat) : State :=
  let page := Page.coreWindow st
  let s := s.setFld page 0x118 47 40 (if s.cwReaches st then St.ok else St.unitUnavailable)
  s.setFld page 0x108 18 0 ((s.fld page 0x108 18 0 + 8) % 2 ^ 19)

/-- A write of CW_DATA (R122, R620). -/
def cwDataEff (st : Nat) (v : Word) (s : State) : State :=
  let c := s.cwCore st
  let o := s.fld (Page.coreWindow st) 0x108 18 0 / 8 * 8
  let t := if s.cwReaches st = false ∨ 0x68000 ≤ o then s
    else if o < 0x40000 then s.writeBytes (lsBase c + o) (leBytes 8 v.toNat)
    else if o < 0x60000 ∨ o = 0x64238 then s
    else s.modCore c fun k => coreOfRecord k fun a => if a = o then v else k.recWord (saveInfo none) a
  t.cwAdvance st

/-- A read of CW_DATA: one of 8 B advances CW_OFFSET (R607, R620). -/
def cwDataRead (st : Nat) (lo hi : Bool) (s : State) : State := if lo && hi then s.cwAdvance st else s

/-- CW_DATA_ACCESS: a write of `v`, or a read of n bytes at byte `at` of CW_DATA (R620). -/
def execCwDataAccess (i : Ident) (st : Nat) (write : Option Word) (at_ n : Nat) (s : State) : Out :=
  let st := st % 72
  .next (match write with
  | some v => s.writeVia i (Page.coreWindow st) 0x110 v (cwDataEff st v)
  | none => s.readVia i (Page.coreWindow st) (0x110 + at_ % 8) n (s.cwData st) (cwDataRead st))

/-- A write of CW_CTL: a FAULTED core that passes its self-test is IDLE (R621). -/
def cwCtlEff (st : Nat) (v : Word) (pass : Bool) (s : State) : State :=
  let c := s.cwCore st
  if bit v 0 && pass && decide ((s.core c).status = .faulted) then s.modCore c fun k => { k with status := .idle }
  else s

/-- CLEAR_FAULT: the selected core's self-test, which it passes or fails (R621). -/
def execClearFault (i : Ident) (st : Nat) (pass : Bool) (s : State) : Out :=
  let st := st % 72
  .next (s.writeVia i (Page.coreWindow st) 0x120 1 (cwCtlEff st 1 pass))

end Sys2Proof.Machine
end

