-- ==== Sys2Proof/Machine/Restart.lean ====
section
/-!
DEFINITION. What a restart clears and keeps (R543, R546, R588, R589), standby, and the loss of power.
-/
namespace Sys2Proof.Machine

/-- Registers whose changes go to the flash (R587). -/
def inFlash (key : Nat) : Bool :=
  let page := key / 512
  let off := key % 512 * 8
  match pageKind page with
  | some .device => decide ((0x140 ≤ off ∧ off < 0x188) ∨ (0x200 ≤ off ∧ off < 0x400))
  | some .computeDie => decide (0x100 ≤ off ∧ off < 0x1F0)
  | some .pmc => decide (off = Reg.BOOT_CFG)
  | _ => false

/-- Registers of the pages whose power stays on in standby, but for the queues and partitions: PMC, THERMAL, CLOCK and
SERVICE_PANEL. -/
def staysOn (key : Nat) : Bool := decide (1 ≤ key / 512 ∧ key / 512 < 5)

/-- BOOT_STAT.PHASE. -/
def State.phase (s : State) : Nat := s.fld Page.pmc Reg.BOOT_STAT 3 0

/-- Loads BOOT_STAT.PHASE and notes when. -/
def State.setPhase (s : State) (n : Nat) : State :=
  { s.setFld Page.pmc Reg.BOOT_STAT 3 0 n with boot := { s.boot with phaseAt := s.panelTime.toNat } }

/-- Whether an address is one of the host's memory, which no restart of the module clears. -/
def hostAddr (a : Nat) : Bool := decide (0x8000000000000 ≤ a ∧ a < 0xC000000000000)

/-- A restart: registers at their reset values, memory cleared, and partitions, queues and tasks lost (R588). It keeps what the
flash holds or is about to hold, what is true of feeds, cables and cartridges, the host's own memory, and, while the panel
management controller has power, the registers of its pages. The model's queue of commands, its free values and the list of
messages sent stay too. A
firmware update goes on through a module reset, and is abandoned otherwise (R638). -/
def State.restart (s : State) (on : Bool) (phase : Nat) : State :=
  let kept := fun (k : Nat) => inFlash k || (on && staysOn k) || decide (k = regKey Page.pmc Reg.PMC_FEED_STAT)
  let bayRegs : Map Word := s.regs.filterMap fun (e : Nat × Word) =>
    if (List.range 16).any fun b => e.1 == regKey (Page.bay b) Reg.BAY_STAT then some (e.1, e.2 &&& 6) else none
  let t : State := { State.reset with
    pending := s.pending
    freeCtr := s.freeCtr
    out := s.out
    regs := bayRegs.foldl (fun m (e : Nat × Word) => m.set e.1 e.2) (s.regs.filter fun e => kept e.1)
    written := s.written.filter kept
    mem := s.mem.filter fun c => hostAddr c.1
    sensors := if on then s.sensors else []
    bays := s.bays.map fun (e : Nat × Bay) => (e.1, { reported := e.2.reported, sane := e.2.sane, fit := e.2.fit })
    fabPorts := s.fabPorts.map fun (e : Nat × FabPort) => (e.1, { cable := e.2.cable })
    boot := { s.boot with running := true, groups := 0, update := s.boot.update && phase == 3 } }
  (t.setReg Page.pmc Reg.BOOT_STAT (place 8 8 (s.fld Page.pmc Reg.BOOT_STAT 8 8))).setPhase phase

/-- The module enters standby: every domain but the panel management controller, its flash, its sensors, MGMT and I3C loses its
power, and all memory is lost (R543). BOOT_STAT.PHASE shows STOPPED (log row 48). -/
def State.standby (s : State) : State := if s.boot.running && s.phase == 15 then s else s.restart true 15

/-- Both feeds are lost: the module holds nothing (R546). -/
def State.powerLost (s : State) : State := s.restart false 1

end Sys2Proof.Machine
end

