-- ==== Sys2Proof/Machine/Thermal.lean ====
section
/-!
DEFINITION. Sensors, WARN and TRIP (R541 to R543), and the feeds (R546, R630, R631).
-/
namespace Sys2Proof.Machine

/-- Sensors of a class (Table 18-3); class 8 is the coolant flow in L/min and class 9 the input power in 0.01 kW. -/
def sensorCount (c : Nat) : Nat := [288, 72, 4, 4, 32, 16, 2, 2, 1, 1].getD c 0

/-- Whether a reading exceeds WARN. -/
def State.overWarn (s : State) (c v : Nat) : Bool :=
  if c = 8 then decide (v < 45) else if c = 9 then decide (4500 < v)
  else decide (s.fld Page.thermal (Reg.THR + 8 * c) 7 0 < v)

/-- Whether a reading counts toward the end of a WARN: at or below WARN − 5 K, or at or below the limit. -/
def State.coolEnough (s : State) (c v : Nat) : Bool :=
  if c = 8 then decide (45 ≤ v) else if c = 9 then decide (v ≤ 4500)
  else decide (v + 5 ≤ s.fld Page.thermal (Reg.THR + 8 * c) 7 0)

/-- Whether a reading exceeds TRIP; `peak` is the input power over 10 ms. -/
def State.overTrip (s : State) (c v peak : Nat) : Bool :=
  if c = 8 then decide (v < 30) else if c = 9 then decide (4800 < peak)
  else decide (s.fld Page.thermal (Reg.THR + 8 * c) 31 24 < v)

/-- The reading that a thermal event carries. -/
def eventReading (c v : Nat) : Nat := if c = 9 then v / 100 else v

/-- The registers that show readings: THR_c.HOTTEST, DIE_PWR_STAT.TEMP, and FLOW and INPUT_KW of the feeds. -/
def State.showReading (s : State) (c i v : Nat) : State :=
  let feed := fun (hi lo : Nat) => (s.setFld Page.pmc Reg.PMC_FEED_STAT hi lo v).markWritten Page.pmc Reg.PMC_FEED_STAT
  if c = 8 then feed 47 40
  else if c = 9 then feed 63 48
  else
    let hottest := (s.sensors.filter fun e => decide (e.1 / 65536 = c)).foldl (fun m e => max m e.2) 0
    let off := Reg.THR + 8 * c
    let s := (s.setFld Page.thermal off 55 48 hottest).markWritten Page.thermal off
    if c = 0 then
      let page := Page.computeDie (i / 4) (i % 4)
      (s.setFld page diePwrStat 63 56 v).markWritten page diePwrStat
    else s

/-- A reading above WARN: the WARN starts, with its event but for a reading that trips, and its demand moves one point
(R541 to R543; log row 47). -/
def State.warnStep (s : State) (c i v : Nat) (trips : Bool) : State :=
  let x := s.cause c i
  if s.overWarn c v then
    if x.warn then s.modCause c i fun x => { x with above := true, coolSince := none }
    else
      let s := s.modCause c i fun x => { x with
        warn := true, above := true, coolSince := none, demand := min 3 (x.demand + 1), moved := s.panelTime.toNat }
      let s := if trips then s else s.genEvent Page.thermal 0x02D0 0 (thermalPayload c i (eventReading c v))
      (s.refreshCause c i).warnActions c i
  else if x.warn then
    s.modCause c i fun x => { x with
      above := false
      coolSince := if s.coolEnough c v then some (x.coolSince.getD s.panelTime.toNat) else none }
  else s

/-- A port die loses its power: its fabric ports go DOWN, and its bays follow surprise removal (R332, R452, R543). -/
def State.portDieOff (s : State) (n : Nat) : State :=
  let s := (List.range 8).foldl (fun (s : State) j => s.portDown (8 * n + j) 3) s
  let s := (List.range 4).foldl (fun (s : State) j => s.bayGone (4 * n + j) false) s
  let pages := (Page.portDie n :: (List.range 8).map fun j => Page.fabricPort (8 * n + j))
    ++ (List.range 4).map fun j => Page.bay (4 * n + j)
  let s := (Page.portDie n :: (List.range 8).map fun j => Page.fabricPort (8 * n + j)).foldl
    (fun (s : State) p => s.enterState p PS.faulted) s
  { s with unpowered := pages.foldl setInsert s.unpowered }

/-- What a TRIP does (Table 18-3, R543). -/
def State.tripAct (s : State) (c i : Nat) : State :=
  match c with
  | 0 => if s.pageState (Page.computeDie (i / 4) (i % 4)) = PS.faulted then s
    else (s.dieFail (i / 4) (i % 4) true).dieRebind (i / 4)
  | 1 => if s.stackState i = PS.faulted ∨ s.stackState i = PS.off then s else s.hubFail i true
  | 3 => s.portDieOff i
  | 4 => s.portDown i 3
  | 5 =>
    let s := s.bayGone i false
    { s with unpowered := setInsert s.unpowered (Page.bay i) }
  | _ => s.standby

/-- SENSOR_READING: the cellar master reads sensor i of class c; `peak` is the input power over 10 ms. It acts at the first
reading above WARN or TRIP (R541, R543, R633). -/
def execSensorReading (c i v peak : Nat) (s : State) : Out :=
  .next (if sensorCount c ≤ i then s
  else
    let before := s.sensors.find (causeKey c i)
    let trips := s.overTrip c v peak && (c == 9 || !(match before with
      | some w => s.overTrip c w peak
      | none => false))
    let s : State := { s with sensors := s.sensors.set (causeKey c i) v }
    let s := s.showReading c i v
    if s.boot.running && decide (s.phase < 3 ∨ s.phase = 15) then s
    else
      let s := s.warnStep c i v trips
      if trips then
        (s.tripAct c i).genEvent Page.thermal 0x02D2 0 (thermalPayload c i (eventReading c (if c = 9 then peak else v)))
      else s)

/-! ### Feeds -/

/-- The single-feed cause starts: it demands SINGLE_DIV at once, and the keeper is capped (R546). -/
def State.singleFeed (s : State) : State :=
  let d := s.fld Page.pmc Reg.PMC_FEED_CFG 1 0
  (s.modCause 10 0 fun x => { x with warn := true, demand := max x.demand d, moved := s.panelTime.toNat }).refreshCause 10 0

/-- Loads the presence and the voltage of a feed. -/
def State.feedStat (s : State) (f ok volt : Nat) : State :=
  let s := s.setFld Page.pmc Reg.PMC_FEED_STAT f f ok
  (s.setFld Page.pmc Reg.PMC_FEED_STAT (29 + 10 * f) (20 + 10 * f) volt).markWritten Page.pmc Reg.PMC_FEED_STAT

/-- A feed is lost (R546); the loss of both is the loss of power. -/
def State.feedLost (s : State) (f volt : Nat) : State :=
  if s.boot.lost.contains f then s.feedStat f 0 volt
  else
    let s : State := { s with boot := { s.boot with lost := f :: s.boot.lost } }
    let s := s.feedStat f 0 volt
    if s.boot.lost.contains (1 - f) then s.powerLost
    else (s.genEvent Page.pmc 0x02D4 0 (place 0 0 f)).singleFeed

/-- FEED_LOSS: a feed has stayed below 700 V for 100 µs (R546, R631). -/
def execFeedLoss (f volt : Nat) (s : State) : Out := .next (s.feedLost (f % 2) volt)

/-- FEED_OVER_VOLTAGE: a feed has stayed above 860 V for 1 ms: it is disconnected and counts as lost (R630). -/
def execFeedOverVoltage (f volt : Nat) (s : State) : Out := .next (s.feedLost (f % 2) volt)

/-- FEED_RESTORE: a lost feed has been within 760 V to 840 V for 1 s (R546). The return of power after the loss of both is
FEED_PRESENT's. -/
def execFeedRestore (f volt : Nat) (s : State) : Out :=
  let f := f % 2
  .next (if !s.boot.lost.contains f ∨ s.boot.lost.contains (1 - f) then s
  else
    let s : State := { s with boot := { s.boot with lost := [] } }
    let s := (s.feedStat f 1 volt).genEvent Page.pmc 0x02D5 0 (place 0 0 f)
    (s.modCause 10 0 fun x => { x with warn := false, moved := s.panelTime.toNat }).refreshCause 10 0)

end Sys2Proof.Machine
end

