-- ==== Sys2Proof/Machine/Startup.lean ====
section
/-!
DEFINITION. Start-up and restarts (R445, R582 to R589), the flash (R587), PLDM (R637, R638) and the pins of the host connector
(R635, R636).
-/
namespace Sys2Proof.Machine

/-- Bounds of the phases in ns (Table 20-1). -/
def phaseBound (p : Nat) : Nat :=
  [0, 100000000, 2000000000, 15000000000, 5000000000, 10000000000, 20000000000, 1000000000, 5000000000, 500000000].getD p 0

/-- BOOT_STAT.STATUS. -/
def State.bootStatus (s : State) (st : Nat) : State := s.setFld Page.pmc Reg.BOOT_STAT 39 32 st

/-- Start-up stops: the module stays in standby (R582). -/
def State.bootStop (s : State) (status : Nat) : State :=
  let p := s.phase
  ((s.restart true 15).setFld Page.pmc Reg.BOOT_STAT 31 28 p).bootStatus status

/-- The image of a slot passes its check. -/
def State.slotGood (s : State) (slot : Nat) : Bool := !s.boot.badSlots.contains slot

/-- The end of phase 2: the slot that boots, what the flash holds, and the strap (R582, R587, R636). With neither slot sound,
start-up stops (log row 48). -/
def State.phase2 (s : State) (strap : Bool) : State :=
  let slot := if s.slotGood s.boot.active then s.boot.active else 1 - s.boot.active
  if !s.slotGood slot then s.bootStop St.internal
  else
    let fl := s.boot.flash
    let s : State := { s with
      regs := fl.foldl (fun m (e : Nat × Word) => m.set e.1 e.2) (s.regs.drop inFlash)
      boot := { s.boot with strap := strap } }
    (s.setFld Page.pmc Reg.BOOT_STAT 8 8 slot).setPhase 3

/-- Whether the coolant keeps start-up in phase 3 from going on (Table 20-1). -/
def State.coolantBad (s : State) : Bool :=
  (match s.sensors.find (causeKey 8 0) with
    | some v => decide (v < 45)
    | none => false)
  || (List.range 2).any fun i => decide (35 < s.lastReading 6 i)

/-- A core that fails its self-test is FAULTED, and takes the place of the first skip of its row that holds no FAULTED
core (R585). -/
def State.badCore (s : State) (c : Nat) : State :=
  let st := coreStack c
  let d := coreDie c
  let r := coreRow c
  let s := s.modCore c fun k => { k with lastCause := 0x08 }
  let k := s.rowSkips st d r
  let sound := fun (p : Nat) => decide ((s.core (coreKey st d (r * 42 + p))).status ≠ .faulted)
  let s := s.enterFaulted c 0x08
  let p := corePcol c
  if p = k.1 ∨ p = k.2 then s
  else
    let keep := if sound k.1 then some k.2 else if sound k.2 then some k.1 else none
    match keep with
    | none => s
    | some q =>
      let page := Page.computeDie st d
      let off := Reg.ROW_SKIP + 8 * r
      s.setReg page off (place 5 0 (min p q) ||| place 13 8 (max p q) ||| place 16 16 1)

/-- A stack that the flash records as FAULTED stays without power; every other stack powers up with its dies (R582, R585). -/
def State.stackPower (s : State) (p : Nat) (badHub : Bool) (badDies badCores : List Nat) : State :=
  let off := fun (s : State) =>
    let s := (List.range 22).foldl (fun (s : State) j => s.enterState (Page.hub p j) PS.faulted) s
    { s with unpowered := (List.range 22).foldl (fun u j => setInsert u (Page.hub p j)) s.unpowered }
  if s.stackState p = PS.faulted then off s
  else
    let dies := (List.range 4).filter fun d => badDies.contains (dieKey p d)
    let s := if dies ≠ [] ∨ badHub then s.setStackState p (if badHub then PS.faulted else PS.memoryOnly) else s
    let s := dies.foldl (fun (s : State) d => s.enterState (Page.computeDie p d) PS.faulted) s
    if badHub then off s
    else
      let cs := badCores.filter fun c => decide (coreStack c = p) && !dies.contains (coreDie c)
      (cs.foldl State.badCore s).trainLinks p

/-- STACK_GROUP_POWER: the next column of stacks powers up, 0.5 s after the one before. The operands name the hubs, the dies
(stack × 4 + die) and the cores that fail their self-tests (R582, R585). -/
def execStackGroupPower (badHubs badDies badCores : List Nat) (s : State) : Out :=
  let g := s.boot.groups
  .next (if s.boot.running = false ∨ s.phase ≠ 4 ∨ 9 ≤ g ∨ s.panelTime.toNat < s.boot.phaseAt + 500000000 * g then s
  else
    let s := (List.range 8).foldl (fun (s : State) j =>
      s.stackPower (8 * g + j) (badHubs.contains (8 * g + j)) badDies badCores) s
    { s with boot := { s.boot with groups := g + 1 } })

/-- The end of phase 4: with AUTO, a logical stack whose physical stack failed is bound to the lowest SPARED stack (R585). -/
def State.phase4 (s : State) : State :=
  let s := if !s.autoSpare then s
    else (List.range 64).foldl (fun (s : State) l =>
      match s.boundStack l with
      | none => s
      | some q =>
        if s.stackState q = PS.ready then s
        else match (List.range 72).find? fun p => s.stackState p = PS.spared with
          | some p => (s.zeroStack p).bindEnd l p
          | none => s.rebind fun s => s.setSpareMap l q 0 (s.bindEpoch l)) s
  (s.refreshOwners).setPhase 5

/-- Whether a stack's GDDR serves: READY or MEMORY_ONLY. -/
def State.gddrServes (s : State) (p : Nat) : Bool := decide (s.stackState p = PS.ready ∨ s.stackState p = PS.memoryOnly)

/-- The end of phase 5: every controller has trained and zeroed its device, and those named are taken offline (R290, R292). -/
def State.phase5 (s : State) (offline : List Nat) : State :=
  let s := (List.range 432).foldl (fun (s : State) k =>
    let p := k / 6
    let g := k % 6
    if !s.gddrServes p then s
    else if offline.contains k then s.gddrOffline p g 2
    else s.gddrInit p g) s
  s.setPhase 6

/-- Phase 7 starts: MODULE_CFG is loaded from the boot record, with the strap, and every port with a cable starts its bring-up
(R455, R582, R636). -/
def State.phase7 (s : State) : State :=
  let s := s.setPhase 7
  let s := s.setReg (Page.portDie 0) Reg.MODULE_CFG (setBits s.boot.record 17 17 s.boot.strap.toNat)
  (List.range 32).foldl State.bringUp s

/-- The end of phase 8: the server cores of a mask run, and the others are held in reset (R582). -/
def State.phase8 (s : State) (srv : Nat) : State :=
  let s := s.setFld Page.pmc Reg.BOOT_STAT 17 9 (popcount 256 srv)
  let s := (List.range 256).foldl (fun (s : State) c =>
    s.setFld (Page.serverDie (c / 64)) (Reg.SRV_CORE_STAT + 8 * (c % 64 / 32)) (2 * (c % 32) + 1) (2 * (c % 32)) (srv.testBit c).toNat) s
  s.setPhase 9

/-- DONE: CAP_DECLARED is set, and ELAPSED_MS is fixed (R580, R582). -/
def State.bootDone (s : State) : State :=
  let s := s.setPhase 10
  let s := s.setFld Page.pmc Reg.BOOT_STAT 63 40 ((s.panelTime.toNat - s.boot.since) / 1000000)
  let s : State := { s with boot := { s.boot with running := false, groups := 9 } }
  match execCapChanged s with
  | .next t => t
  | _ => s

/-- PHASE_COMPLETE: the phase in progress ends. `ok` says whether the self-tests of phase 3 passed, `strap` is the MASTER_SEL
strap, `offline` names the GDDR devices (stack × 6 + device) that could not be trained, and `srv` is the mask of the server cores
that are ready (R582). A module that State.reset describes is in phase 2. -/
def execPhaseComplete (ok strap : Bool) (offline : List Nat) (srv : Nat) (s : State) : Out :=
  .next (match s.phase with
  | 1 => if s.boot.lost.length < 2 then s.setPhase 2 else s
  | 2 => { s with boot := { s.boot with running := true, groups := 0 } }.phase2 strap
  | 3 =>
    if !ok || s.coolantBad then s.bootStop St.internal
    else
      let s := s.setPhase 4
      if s.boot.lost ≠ [] then s.singleFeed else s
  | 4 => if s.boot.groups = 9 then s.phase4 else s
  | 5 => s.phase5 offline
  | 6 => s.phase7
  | 7 => s.setPhase 8
  | 8 => s.phase8 srv
  | 9 => s.bootDone
  | _ => s)

/-- PHASE_TIMEOUT: the phase in progress has reached its bound (Table 20-1): phases 2 and 3 stop start-up, a stack of phase 4
without power fails, an untrained device of phase 5 goes offline, and the other phases go on. -/
def execPhaseTimeout (offline : List Nat) (srv : Nat) (s : State) : Out :=
  let p := s.phase
  .next (if s.boot.running = false ∨ s.panelTime.toNat < s.boot.phaseAt + phaseBound p then s
  else match p with
  | 2 => s.bootStop St.timeout
  | 3 => s.bootStop St.timeout
  | 4 =>
    let late := (List.range 72).filter fun q => s.boot.groups ≤ q / 8
    let s := late.foldl (fun (s : State) q => s.stackPower q true [] []) s
    { s with boot := { s.boot with groups := 9 } }.phase4
  | 5 => s.phase5 offline
  | 6 => s.phase7
  | 7 => s.setPhase 8
  | 8 => s.phase8 srv
  | 9 => s.bootDone
  | _ => s)

/-- FEED_PRESENT: a feed has held 760 V for 10 ms. In standby, or without power, a cold start begins with phase 1
(R582, R588, R630; log row 48). -/
def execFeedPresent (f volt : Nat) (s : State) : Out :=
  let f := f % 2
  .next (if volt < 760 then s
  else
    let cold := s.boot.running && decide (s.phase = 1 ∨ s.phase = 15)
    if cold then
      let s : State := { s with boot := { s.boot with lost := s.boot.lost.filter fun g => g ≠ f } }
      let s := (s.restart false 1).feedStat f 1 volt
      { s with boot := { s.boot with since := s.panelTime.toNat } }
    else if s.boot.lost.contains f then s
    else s.feedStat f 1 volt)

/-- FLASH_PERSIST: the panel management controller writes the sparing map, the stack states, the row skips and BOOT_CFG to the
flash (R587). -/
def execFlashPersist (s : State) : Out :=
  .next { s with boot := { s.boot with flash := s.regs.filter fun e => inFlash e.1 } }

/-! ### Restarts -/

/-- A restart at phase 3, with the panel management controller and its flash as they are (R445, R588). -/
def State.moduleRestart (s : State) (strap : Bool) : State :=
  let s := s.restart true 3
  { s with boot := { s.boot with since := s.panelTime.toNat, strap := strap } }

/-- A write of BOOT_CTL (R588, R589). -/
def bootCtlEff (v : Word) (strap : Bool) (s : State) : State :=
  if !bit v 63 then s
  else if bits v 15 0 ≠ s.epoch Page.device then s.bootStatus St.epochStale
  else (s.moduleRestart strap).bootStatus St.ok

/-- MODULE_RESET: `strap` is MASTER_SEL at the restart (R588, R636). -/
def execModuleReset (i : Ident) (epoch : Nat) (strap : Bool) (s : State) : Out :=
  let v := place 63 63 1 ||| place 15 0 epoch
  .next (s.writeVia i Page.pmc Reg.BOOT_CTL v (bootCtlEff v strap))

/-- P7_HOST_LOSS: host loss under protocol 0x0300 restarts the module (R445, R588); `cause` is that of HOST_LINK_DOWN. -/
def execP7HostLoss (cause : Nat) (strap : Bool) (s : State) : Out :=
  .next (if s.p7 && decide (1 ≤ cause ∧ cause ≤ 5) then s.moduleRestart strap else s)

/-- NUMVFS_SET_P7: NumVFs other than zero under protocol 0x0300 is treated as host loss, and that restarts the module (R444,
R445). -/
def execNumvfsSetP7 (n : Nat) (strap : Bool) (s : State) : Out := .next (if s.p7 && n != 0 then s.moduleRestart strap else s)

/-! ### Pins -/

/-- MOD_READY: asserted from phase 9 on (Table 22-5). -/
def State.modReady (s : State) : Bool := decide (9 ≤ s.phase ∧ s.phase ≤ 10)

/-- MOD_ALERT#: an event of severity 6 or more waits for the panel management controller (Table 22-5). -/
def State.modAlert (s : State) : Bool := s.events.any fun g => decide (6 ≤ g.sev)

/-! ### PLDM -/

/-- The PLDM completion codes that the spec speaks of: success, an unsupported command, and busy. -/
inductive Pldm where
  | ok | unsupported | busy
  deriving DecidableEq, Repr

/-- The answer of the panel management controller on a management path. -/
def State.pldmAnswer (s : State) (path : Nat) (c : Pldm) : State :=
  let n := match c with
    | .ok => 0
    | .unsupported => 1
    | .busy => 2
  { s with out := ⟨.pldm, path, 0, n, 0, []⟩ :: s.out }

/-- PLDM_REQUEST: a request of a type on a path, 0 I3C, 1 PCIe VDM of the PF, 2 MGMT; `known` says that the type has the command
(R637). The firmware updates of type 5 are PLDM_FIRMWARE_UPDATE's. -/
def execPldmRequest (path type : Nat) (known : Bool) (s : State) : Out :=
  .next (s.pldmAnswer path (if [0, 2, 4, 5].contains type && known then .ok else .unsupported))

/-- PLDM_FIRMWARE_UPDATE: a step of a firmware update on a path: 0 the request, 1 the image is written to the inactive slot, and
passes its check or not, 2 the end, which makes that slot active for the next phase 2 (R587, R638). -/
def execPldmFirmwareUpdate (path step : Nat) (sound : Bool) (s : State) : Out :=
  let other := 1 - s.boot.active
  .next (match step with
  | 0 =>
    if s.boot.update then s.pldmAnswer path .busy
    else { s with boot := { s.boot with update := true } }.pldmAnswer path .ok
  | 1 =>
    if s.boot.update then
      { s with boot := { s.boot with
        badSlots := if sound then s.boot.badSlots.filter fun x => x ≠ other else setInsert s.boot.badSlots other } }
    else s
  | _ =>
    if s.boot.update then
      let good := s.slotGood other
      { s with boot := { s.boot with update := false, active := if good then other else s.boot.active } }.pldmAnswer path .ok
    else s.pldmAnswer path .unsupported)

end Sys2Proof.Machine
end

