-- ==== Sys2Proof/Machine/Registers.lean ====
section
/-!
DEFINITION. Register accesses in general (R3 to R9, R405, R421, R422, R606, R607): what a write of any register does, what a read
returns, and the commands REGISTER_WRITE, BAR0_ACCESS and QUERY.
-/
namespace Sys2Proof.Machine

/-! ### Writes -/

/-- A write of THR_c: a WARN outside WARN_MIN to WARN_MAX leaves WARN unchanged (R551). -/
def thrEff (off : Nat) (v : Word) (s : State) : State :=
  let n := bits v 7 0
  if s.fld Page.thermal off 23 16 ≤ n ∧ n ≤ s.fld Page.thermal off 39 32 then s.setFld Page.thermal off 7 0 n else s

/-- A write to a register of a partition's group (Table 13-1). -/
def partEff (off : Nat) (v : Word) (s : State) : State :=
  let p := (off - 0x400) / 0x30
  match (off - 0x400) % 0x30 with
  | 0 => partCtlEff p v s
  | 8 => partStacksEff p v s
  | r => partSrvEff p ((r - 0x10) / 8) v s

/-- A write to a register of a queue's group (Table 13-2). -/
def queueEff (i : Ident) (page off : Nat) (v : Word) (s : State) : State :=
  let q := queueOf page off
  match (off - 0x800) % 0x40 with
  | 0x10 => qcfgEff q v s
  | 0x18 => qbindEff i q v s
  | 0x20 => sqTailEff i q v s
  | 0x28 => cqHeadEff i q v s
  | _ => s.plainWrite page off v

/-- A write to a register of a stream's group (Table 16-10). -/
def decanterEff (page off : Nat) (v : Word) (s : State) : State :=
  let n := pageInstance page
  let k := (off - 0x400) / 0x40
  match (off - 0x400) % 0x40 with
  | 0x18 => streamCtlEff n k v s
  | 0x30 => reqTailEff n k v s
  | _ => decGroupEff n k off v s

/-- A write to a register of an event queue's group (Table 19-3). -/
def evqEff (page off : Nat) (v : Word) (s : State) : State :=
  let e := 16 * pageInstance page + (off - 0x400) / 0x40
  match (off - 0x400) % 0x40 with
  | 0x08 => evqCfgEff e v s
  | 0x18 => evqHeadEff e v s
  | _ => s.plainWrite page off v

/-- A write of CW_CTL, whose self-test ends as a free value says (R621). -/
def cwCtlFree (st : Nat) (v : Word) (s : State) : State :=
  let r := s.free
  if bit v 0 then cwCtlEff st v (bit r.1 0) r.2 else s

/-- What a write to a block-specific register does. -/
def blockEff (i : Ident) (k : PageKind) (page off : Nat) (v : Word) (s : State) : State :=
  let st := (pageStack page).getD 0
  let plain := s.plainWrite page off v
  match k with
  | .device => if 0x400 ≤ off then partEff off v s else if off = Reg.SPARE_CTL then spareCtlEff v s else plain
  | .pmc => if off = Reg.BOOT_CTL then bootCtlEff v s.boot.strap s else plain
  | .thermal => thrEff off v s
  | .servicePanel =>
    if off = Reg.SP_STAT then s.identify (bits v 0 0) false
    else if off = Reg.REMOVE_ANSWER then removeAnswerEff i v s else plain
  | .eventQueue => if off < 0x800 then evqEff page off v s else plain
  | .portDie => if off = Reg.MODULE_CFG then moduleCfgEff v s else if off = Reg.GROUP_CTL then groupCtlEff v s else plain
  | .fabricPort =>
    if off = 0x180 then regIndexEff page v s else if off = 0x188 then regDataEff page v s
    else if off = 0x608 then arbShareEff page 0 v s else plain
  | .cellarBay =>
    if off = 0x180 then regIndexEff page v s else if off = 0x188 then regDataEff page v s
    else if off = Reg.BAY_CTL then bayCtlEff (pageBay page) v s
    else if off = Reg.BAY_POOL_GIVE then poolGiveEff page v s
    else if off = Reg.MBX_CMD then mbxCmdEff (pageBay page) v s
    else if 0x400 ≤ off ∧ off % 16 = 8 then mirrorLimitEff (pageBay page) ((off - 0x408) / 16) v s else plain
  | .hostPort => if off = Reg.HOST_ATTACH then hostAttachEff v s else if off = Reg.WIN_CTL then winCtlEff v s else plain
  | .queueBlock => queueEff i page off v s
  | .decanter => decanterEff page off v s
  | .hubRouter =>
    if off = Reg.ROUTER_CTL then routerCtlEff st v s
    else if 0x600 ≤ off ∧ (off - 0x600) % 0x40 = 8 then arbShareEff page ((off - 0x600) / 0x40) v s else plain
  | .hubCache =>
    if off = Reg.CACHE_CTL then cacheCtlEff page v s
    else if off = Reg.PREFETCH_CTL then prefetchCtlEff page v s
    else if off = Reg.KEEP_RELEASE then keepReleaseEff page v s else plain
  | .gddrCtl => if off = 0x100 then gddrCfgEff page v s else if off = 0x608 then arbShareEff page 0 v s else plain
  | .regulator => if off = 0x108 then regIndexEff page v s else if off = 0x110 then regDataEff page v s else plain
  | .scheduler =>
    if off = Reg.RT_RESERVE then rtReserveEff st v s
    else if off = Reg.PREEMPT_REQ then preemptReqEff i st v s else plain
  | .racking => if off = 0x118 then poolGiveEff page v s else plain
  | .computeDie =>
    if off < 0x1F0 then rowSkipEff page ((off - 0x100) / 8) v s
    else if off = keepCtl then keepCtlEff page v s
    else if off = diePwrBound then diePwrBoundEff page v s else plain
  | .coreWindow => if off = 0x110 then cwDataEff st v s else if off = 0x120 then cwCtlFree st v s else plain
  | _ => plain

/-- What an accepted write of any register does (R3, R606). -/
def regEffect (i : Ident) (page off : Nat) (v : Word) (s : State) : State :=
  match pageKind page with
  | none => s
  | some .iommuFile => s.plainWrite page off v
  | some k =>
    if off = Reg.PAGE_CTL then pageCtlEff page v s
    else if off = Reg.EV_FORCE then evForceEff page v s
    else if off = Reg.PAGE_LOCK then pageLockEff i page v s
    else if off < 0x100 then s.plainWrite page off v
    else blockEff i k page off v s

/-- A register write of n bytes by an identity (R607): another size or alignment than 8 B is discarded. -/
def State.regWrite (s : State) (i : Ident) (page off n : Nat) (v : Word) : State :=
  if n = 8 ∧ off % 8 = 0 ∧ off < 0x1000 then s.writeVia i page off v (regEffect i page off v) else s

/-- REGISTER_WRITE: a write of 8 B to any register (R3). -/
def execRegisterWrite (i : Ident) (page off : Nat) (v : Word) (s : State) : Out := .next (s.regWrite i page off 8 v)

/-! ### Reads -/

/-- The bits of a register whose fields have the reset value X. -/
def xMask (page off : Nat) : Word :=
  match pageKind page with
  | none => 0
  | some k => match findReg k off with
    | some r => (r.fields.filter FieldSpec.isX).foldl (fun m f => m ||| fieldMask f.hi f.lo) 0
    | none => 0

/-- Milliseconds left of a removal request's 30 s wait (Table 20-8). -/
def State.waitMs (s : State) (b : Nat) : Nat :=
  if s.removal b = 1 then 30000 - (s.panelTime.toNat - (s.bay b).askedAt) / 1000000 else 0

/-- The value that a register reads as, for fields that are computed and for those that are stored (Tables 3-11 to 21-11). -/
def State.shownValue (s : State) (i : Ident) (page off : Nat) : Word :=
  let v := s.reg page off
  let st := (pageStack page).getD 0
  match pageKind page with
  | none => 0
  | some .iommuFile => v
  | some k =>
    if off = Reg.PAGE_LOCK then v ||| place 62 62 (s.holdsLock i page).toNat
    else if off = Reg.PAGE_CTL then
      v ||| place 2 2 (decide (s.pageState page = PS.reset ∨ s.pageState page = PS.init)).toNat
        ||| place 3 3 (decide (s.pageState page = PS.updating)).toNat
    else match k with
      | .regulator => if off = 0x110 then s.regData page else if off = 0x118 then s.regLevel page else v
      | .cellarBay => if off = 0x188 then s.regData page else if off = 0x190 then s.regLevel page else v
      | .fabricPort => if off = 0x188 then s.regData page else if off = 0x190 then s.regLevel page else v
      | .coreWindow => if off = 0x110 then s.cwData st else if off = 0x118 then s.cwStat st else v
      | .servicePanel =>
        if 0x200 ≤ off ∧ off % 16 = 8 then setBits v 30 16 (s.waitMs ((off - 0x208) / 16)) else v
      | _ => v

/-- The value that a read returns, and the state in which a free value has been met: the fields that reset to X are free values
until they are written or loaded (R4). -/
def State.regRead (s : State) (i : Ident) (page off : Nat) : Word × State :=
  let v := s.shownValue i page off
  let m := if pageKind page = some .coreWindow ∨ s.isWritten page off = true then 0 else xMask page off
  if m = 0 then (v, s)
  else
    let r := s.free
    ((v &&& ~~~ m) ||| (r.1 &&& m), r.2)

/-- What a read changes: an RC field is cleared, and CW_OFFSET advances (R3, R607, R620). -/
def readEffect (page off : Nat) (lo hi : Bool) (s : State) : State :=
  match pageKind page with
  | some .eventQueue =>
    if 0x400 ≤ off ∧ off < 0x800 ∧ (off - 0x400) % 0x40 / 8 = 4 then
      evqStatClear (16 * pageInstance page + (off - 0x400) / 0x40) lo hi s else s
  | some .coreWindow => if off / 8 * 8 = 0x110 then cwDataRead ((pageStack page).getD 0) lo hi s else s
  | _ => s

/-- A register read of n bytes by an identity: the answer is in `reply` (R607). -/
def State.regAccess (s : State) (i : Ident) (page off n : Nat) : State :=
  if 0x1000 ≤ off then { s with reply := (St.ok, List.replicate n 0) }
  else
    let r := s.regRead i page (off / 8 * 8)
    r.2.readVia i page off n r.1 (readEffect page off)

/-! ### BAR0 -/

/-- BAR0_ACCESS: function `fn` of the host reads n bytes of register space, or writes `v` (R421, R422, R605). An access of another
size or alignment is not performed, and a read of that kind ends with Unsupported Request. -/
def execBar0Access (fn off n : Nat) (write : Option Word) (s : State) : Out :=
  let i := s.fnIdent fn
  let page := off / 0x1000
  let o := off % 0x1000
  .next (if 64 < fn ∨ 0x4000000 ≤ off then s
  else match write with
    | some v => s.regWrite i page o n v
    | none =>
      if (n = 4 ∨ n = 8) ∧ o % n = 0 then s.regAccess i page o n
      else { s with out := ⟨.hostCpl, fn, 0, 1, 0, []⟩ :: s.out })

/-! ### QUERY -/

/-- The identity with which a queue's QUERY reads (Table 21-7). -/
def State.queueIdent (s : State) (q : Nat) : Ident :=
  let p := s.queuePart q
  match s.queuePort q with
  | 0 => if s.p7 then .p7Pf else .hostVf p
  | 1 => .mgmt
  | 5 => .service
  | _ => .server p

/-- A value that a QUERY reads: zero at a reserved offset and from a block without power (R606, R613). -/
def State.queryValue (s : State) (i : Ident) (page off : Nat) : Word × State :=
  let known := match pageKind page with
    | none => false
    | some k => decide (k = .iommuFile) || (findReg k off).isSome
  if known = false ∨ (s.unpowered.contains page && decide (0x60 ≤ off)) = true then (0, s)
  else
    let r := s.regRead i page off
    (r.1, readEffect page off true true r.2)

/-- QUERY: two registers, EPOCH and STATE of a page in one snapshot (R406, R572, R618). -/
def execQuery (q seq : Nat) (s : State) : Out :=
  .next (match s.cmd q seq with
  | none => s
  | some c =>
    if c.kind ≠ 10 ∨ !s.mayStart c then s
    else
      let page := c.cs.getD 0 0 % 2 ^ 14
      let o0 := natBits (c.cs.getD 1 0) 11 0
      let o1 := natBits (c.cs.getD 1 0) 27 16
      let i := s.queueIdent q
      if s.unreached page then s.complete q seq St.unitUnavailable 0 []
      else if !s.mayRead i page o0 || !s.mayRead i page o1 then s.completeChecked q seq St.refusedPort
      else
        let epoch := if pageKind page = none ∨ page = 0x102 then 0 else s.epoch page
        let st := if pageKind page = none ∨ page = 0x102 then 0 else s.pageState page
        let a := s.queryValue i page o0
        let b := a.2.queryValue i page o1
        b.2.complete q seq St.ok 0 (leBytes 8 a.1.toNat ++ leBytes 8 b.1.toNat ++ leBytes 2 epoch ++ leBytes 1 st))

end Sys2Proof.Machine
end

