-- ==== Sys2Proof/Machine/GlobalAccess.lean ====
section
/-!
DEFINITION. Global accesses of compute cores (R80, R98, R99, R175 to R180, R197 to R201, R353): the completion of a
synchronous access, its presentation again, and the blocks of asynchronous transfers.
-/
namespace Sys2Proof.Machine

/-- The context of a core's accesses: those of its task, through the proxy of its hub. -/
def State.coreCtxt (s : State) (c : Nat) : Ctxt :=
  match s.coreTask c with
  | some (_, t) => { t.ctxt (coreStack c) with who := .core }
  | none => ⟨some (coreStack c), 0, 0, .core⟩

/-- What a synchronous access asks for: n bytes, bytes to write, or the operation of AMO.G with its operands. -/
inductive CoreOp where
  | read (n : Nat)
  | write (bs : List Byte)
  | amo (n aop b c : Nat)
  deriving DecidableEq, Repr

/-- Whether an operation writes. -/
def CoreOp.writes : CoreOp → Bool
  | .read _ => false
  | _ => true

/-- A synchronous access to a register of a page: it carries the identity of a compute-core task (Table 21-7, R607). -/
def State.coreRegister (s : State) (part page off : Nat) (op : CoreOp) : Ended × List Byte × State :=
  let i : Ident := .coreTask part
  if s.unreached page then (.status St.unitUnavailable, [], s)
  else match op with
    | .read n =>
      let r := s.regAccess i page off n
      (.status St.ok, r.reply.2, r)
    | .write bs => (.status St.ok, [], s.regWrite i page off bs.length (BitVec.ofNat 64 (ofLeBytes bs)))
    | .amo _ _ _ _ => (.status St.permissionFault, [], s)

/-- A synchronous access at a physical address. An AMO is performed at the home of a GDDR or cellar line, and anywhere else it
is a PERMISSION_FAULT (R201). -/
def State.corePhys (s : State) (part pa : Nat) (op : CoreOp) : Ended × List Byte × State :=
  match regionOf pa, op with
  | .register page off, op => s.coreRegister part page off op
  | _, .read n =>
    let r := s.physRead part .core pa n
    (.status r.1, r.2, s)
  | _, .write bs =>
    let r := s.physWrite part .core pa bs
    (.status r.1, [], r.2)
  | .gddr _ _, .amo n aop b c => amoAt n aop b c
  | .cellar _ _, .amo n aop b c => amoAt n aop b c
  | _, .amo _ _ _ _ => (.status St.permissionFault, [], s)
where
  /-- The atomic operation of Table 6-11. -/
  amoAt (n aop b c : Nat) : Ended × List Byte × State :=
    let r := s.physRead part .core pa n
    if r.1 ≠ St.ok then (.status r.1, [], s)
    else
      let w := s.physWrite part .core pa (leBytes n (amoValue aop (8 * n) (ofLeBytes r.2) b c))
      (.status w.1, r.2, w.2)

/-- A synchronous access at a virtual address. -/
def State.coreVirt (s : State) (x : Ctxt) (va : Nat) (op : CoreOp) : Ended × List Byte × State :=
  let t := s.translate x.stack x.part x.pasid va op.writes
  match t.1 with
  | .ok pa => t.2.corePhys x.part pa op
  | .fault st => (.status st, [], t.2)
  | .absent => (.absent va, [], t.2)
  | .wait => (.wait, [], t.2)

/-- The operation of the instruction that holds a core's issue, at an element of a gather or scatter (R175, R197, R201). -/
def Core.pendingOp (k : Core) (w : Word) (elem : Nat) : CoreOp :=
  let n := sizeBytes w
  match Ins.opc w with
  | 0x88 => .read n
  | 0x89 => .write (leBytes n (k.rx (Ins.d w)).toNat)
  | 0x8A => .amo n (Ins.aop w) (k.rx (Ins.b w)).toNat (k.rx (Ins.c w)).toNat
  | 0x8C => .read (k.ew / 8)
  | _ => .write (leBytes (k.ew / 8) (k.elem (Ins.d w) k.ew elem))

/-- The core after its access has completed: LD.G and AMO.G write their register, and the instruction completes; a gather or
scatter commits its element and goes on to the next active one, unless the core has stopped, which then stands at an element
boundary (R93, R177, R197, R201). -/
def Core.committed (k : Core) (w : Word) (elem : Nat) (bs : List Byte) : Core :=
  let x := ofLeBytes bs
  let done := fun (k : Core) => { k with wait := .none, pc := (k.pc + 8) % 2 ^ 18 }
  let next := fun (k : Core) =>
    if k.status = .running ∨ k.vl ≤ elem + 1 then gatherFrom w 33 k (elem + 1)
    else { k with wait := .none, vstart := elem + 1 }
  match Ins.opc w with
  | 0x88 => done (k.wx (Ins.d w) (extLoad w x))
  | 0x89 => done k
  | 0x8A => done (k.wx (Ins.d w) (sext (8 * sizeBytes w) x))
  | 0x8C => next (k.wv (Ins.d w) (BitVec.ofNat 2048 (setElem 2048 (k.rv (Ins.d w)).toNat k.ew elem x)))
  | _ => next k

/-- The core whose access ends with a failing status: GLOBAL_ACCESS at the instruction, at element k of a gather or scatter
(R98, R100, R178). -/
def Core.accessFault (k : Core) (w : Word) (va elem st : Nat) : Core :=
  let vec := decide (Ins.opc w = 0x8C ∨ Ins.opc w = 0x8D)
  let f : FaultRec := ⟨0x05, st, if vec then elem else 0xFFFF, k.pc, va, w⟩
  ({ k with vstart := k.abandonAt w elem } : Core).stopWith f

/-- A core has stopped for a page request: its task waits for the response (R353). -/
def State.pageStop (s : State) (c cause : Nat) (x : Ctxt) (va : Nat) : State :=
  match (s.core c).task with
  | none => s
  | some key =>
    let s := s.modCore c fun k => { k with pageStop := true }
    (s.modTask key fun t => { t with waitsPage := true }).pageRequest x va (.core c key cause)

/-- Performs the access that holds a core's issue (R80). UNIT_UNAVAILABLE leaves it to be presented again, or abandons it where
the core has stopped (R99); an absent leaf stops the core for a page request (R353), and the transient one keeps it
waiting (R316). -/
def State.coreAccess (s : State) (c : Nat) : State :=
  let k := s.core c
  match k.wait with
  | .access w va elem _ =>
    let x := s.coreCtxt c
    let r := s.coreVirt x va (k.pendingOp w elem)
    let s := r.2.2
    match r.1 with
    | .status st =>
      if st = St.ok then s.modCore c fun k => k.committed w elem r.2.1
      else if st = St.unitUnavailable then
        s.modCore c fun k =>
          if k.status = .running then { k with wait := .access w va elem true }
          else { k with wait := .none, vstart := k.abandonAt w elem }
      else s.modCore c fun k => k.accessFault w va elem st
    | .absent _ =>
      let s := s.modCore c fun k => k.accessFault w va elem St.translationFault
      s.pageStop c 0x05 x va
    | .wait => s
  | _ => s

/-- Epoch a is older than b, modulo 2^16 within a window of 2^15 (R568). -/
def epochOlder (a b : Nat) : Bool := decide (a % 65536 ≠ b % 65536) && decide ((b + 65536 - a % 65536) % 65536 < 32768)

/-- GLOBAL_ACCESS_DONE: the reply to the synchronous access of a core arrives from a unit's page with the unit's epoch. One that
is older than the latest kept, or that matches no outstanding request, is discarded and counted (R568); any other completes the
access or faults it (R80). -/
def execGlobalAccessDone (c unit epoch : Nat) (s : State) : Out :=
  let page := corePage c
  let key := page * 65536 + unit
  let open_ := match (s.core c).wait with
    | .access _ _ _ retry => !retry
    | _ => false
  let stale := match s.kept.find key with
    | some e => epochOlder epoch e
    | none => false
  .next (if coreCount ≤ c then s
  else if !open_ || stale then s.bump page 15
  else ({ s with kept := s.kept.set key (epoch % 65536) } : State).coreAccess c)

/-- HUB_PROXY_RETRY: the hub proxy presents a core's access again (R99, R564). -/
def execHubProxyRetry (c : Nat) (s : State) : Out :=
  .next (match (s.core c).wait with
  | .access _ _ _ true => s.coreAccess c
  | _ => s)

/-! ### Asynchronous transfers -/

/-- Whether a transfer may complete a block: its core runs or has not drained, and a stopped core's transfer is inside a block
(R96). -/
def Core.transferOpen (k : Core) (x : Token) : Bool :=
  decide (x.kind = 1 ∨ x.kind = 2) && !x.faulted && !k.drained
    && (decide (k.status = .running) || !(decide (x.done = 0 ∨ (x.gaddr + x.done) % 128 = 0)))

/-- What follows a block of a transfer: its token advances (R199), it is presented again (R99), or its core stops with
TOKEN_ACCESS, for a page request among other causes (R98, R353). -/
def State.blockEnds (s : State) (c t n : Nat) (x : Ctxt) (e : Ended) (va : Nat) : State :=
  match e with
  | .status st =>
    if st = St.ok then s.modCore c fun k => k.advanceToken t n
    else if st = St.unitUnavailable then s
    else s.tokenFault c t st va
  | .absent _ => (s.tokenFault c t St.translationFault va).pageStop c 0x06 x va
  | .wait => s

/-- TRANSFER_BLOCK_DONE: token `t` of a core moves its bytes up to the next 128 B boundary of its global address (R96, R199). An
XFER.S reads its local store, where `ecc` is the state of the block; `sound` is the number of 32 B units before an uncorrectable
one (R85). -/
def execTransferBlockDone (c t : Nat) (ecc : Ecc) (sound : Nat) (s : State) : Out :=
  let k := s.core c
  let t := t % 16
  let y := k.tokens.get {} t
  .next (if !k.transferOpen y then s
  else
    let x := s.coreCtxt c
    let va := (y.gaddr + y.done) % 2 ^ 64
    let ls := lsBase c + y.lsaddr + y.done
    let n := min (inLine va 128) (y.length - y.done)
    if y.kind = 1 then
      let r := s.vread x va n
      let s := r.2.2
      let s := if r.1 = .status St.ok then s.writeBytes ls r.2.1 else s
      s.blockEnds c t n x r.1 va
    else if ecc = .uncorrectable then
      let m := 32 * (sound % (n / 32))
      let r := s.vwrite x va (s.mem.readBytes ls m)
      if m = 0 ∨ r.1 = .status St.ok then
        let s := if m = 0 then s else r.2.2.modCore c fun k => k.setToken t { y with done := y.done + m }
        s.tokenFault c t St.dataUncorrectable 0
      else r.2.2.blockEnds c t m x r.1 va
    else
      let s := s.countEcc c ecc
      let r := s.vwrite x va (s.mem.readBytes ls n)
      r.2.2.blockEnds c t n x r.1 va)

end Sys2Proof.Machine
end

