-- ==== Sys2Proof/Machine/Invalidate.lean ====
section
/-!
DEFINITION. Device translation as separate commands (R351 to R355, R361): requests and replies of the hub
copies, invalidations and fences, translation prefetches; and the host's translations (R356 to R358).
-/
namespace Sys2Proof.Machine

/-- TRANSLATION_REQUEST: a demand access that the hub copy cannot serve asks the IOMMU, which walks and answers;
a fault is answered at once, and an absent leaf sends a page request (R350 to R353). -/
def execTranslationRequest (stack dev pasid va : Nat) (write : Bool) (s : State) : Out :=
  let page := Page.hubTlb stack
  let ask := fun (s : State) =>
    let r := s.iommu dev pasid va write
    match r.1 with
    | .ok pa => r.2.2.post ⟨.xlat, stack, dev, va / 4096, pa / 4096 * 2 + r.2.1.toNat, leBytes 4 pasid⟩
    | .fault st => (if st = St.unsupportedLeaf then r.2.2.bump page 7 else r.2.2).answer st []
    | .absent => r.2.2.pageRequest ⟨some stack, dev, pasid, .engine⟩ va .access
    | .wait => r.2.2
  .next (match s.tlbFind stack dev pasid (va / 4096) with
  | some e =>
    if e.aPending then ask (s.bump page 6)
    else if write ∧ !e.write then ask (s.bump page 6)
    else s
  | none => ask (s.bump page 1))

/-- TRANSLATION_REPLY: what the IOMMU returned fills the hub copy, and the waiting access has its address (R351,
R352). -/
def execTranslationReply (stack dev pasid vpage : Nat) (s : State) : Out :=
  .next (match s.net.findIdx? fun m =>
      decide (m.kind = .xlat ∧ m.src = stack ∧ m.dst = dev ∧ m.a = vpage ∧ m.data = leBytes 4 pasid) with
  | none => s
  | some i =>
    let b := (s.net.getD i ⟨.xlat, 0, 0, 0, 0, []⟩).b
    let s := { s with net := s.net.eraseIdx i }
    let s := match s.tlbFind stack dev pasid vpage with
      | some e => if e.aPending then s.bump (Page.hubTlb stack) 3 else s
      | none => s
    (s.tlbFill ⟨stack, dev, pasid, vpage, b / 2, decide (b % 2 = 1), false⟩).answer St.ok (leBytes 8 (b / 2 * 4096)))

/-- The hubs whose copies take part in invalidation (R354). -/
def State.copyHubs (s : State) : List Nat := (List.range 72).filter fun h => s.ready (Page.hubTlb h)

/-- IOTINVAL.VMA and IOTINVAL.GVMA: every READY hub copy removes what matches the device, process and page named,
and acknowledges once its accesses have reached their targets; `late` names the hubs whose acknowledgement is still
to come (R354, R355). A GVMA removes every entry of its device (log row 8). -/
def execIotinval (index : Nat) (gvma : Bool) (dev pasid va : Option Nat) (late : List Nat) (s : State) : Out :=
  let hits := fun (d p v : Nat) =>
    (dev.isNone || decide (dev = some d)) && (gvma || ((pasid.isNone || decide (pasid = some p))
      && (va.isNone || decide (va.map (· / 4096) = some v))))
  let hubs := s.copyHubs
  let s := hubs.foldl (fun s h => (s.tlbDrop h fun e => hits e.dev e.pasid e.vpage).bump (Page.hubTlb h) 5) s
  let s := { s with net := s.net.filter fun m =>
    !(decide (m.kind = .xlat) && hits m.dst (ofLeBytes m.data) m.a) }
  let waiting := hubs.filter fun h => late.contains h
  .next (if waiting = [] then s else { s with invals := s.invals ++ [⟨index, waiting, s.panelTime.toNat, false⟩] })

/-- IOFENCE.C completes: every hub has acknowledged every earlier invalidation. It writes its data where it names an
address, and raises its interrupt where it asks for one (R355; log row 8). -/
def execIofenceC (addr : Option Nat) (data : Nat) (wsi : Bool) (s : State) : Out :=
  let s := { s with invals := [] }
  let s := match addr with
    | some a => (s.physWrite 0 .engine a (leBytes 4 data)).2
    | none => s
  .next (if wsi then
      let s := s.setReg 0x102 0x48 (setBit (s.reg 0x102 0x48) 11 true)
      s.setReg 0x102 0x50 (setBit (s.reg 0x102 0x50) 32 true)
    else s)

/-- INV_SLOW: an invalidation that some hub has not acknowledged 100 µs after its issue posts the event, once
(R355, R365). -/
def execInvSlow (index : Nat) (s : State) : Out :=
  .next (match s.invals.find? fun v => decide (v.index = index) && !v.slow with
  | some v =>
    if v.issued + 100000 ≤ s.panelTime.toNat then
      let s := { s with invals := s.invals.map fun (x : Inval) => if x.index = index then { x with slow := true } else x }
      s.genEvent Page.iommu 0x0280 0 (place 6 0 (v.hubs.foldl min 127) ||| place 63 32 index)
    else s
  | none => s)

/-- TRANSLATION_PREFETCH: while XPF_EN is set, a page at most XPF_DEPTH pages ahead of a stream is walked with reads
only; a walk that does not end at a permitted leaf is dropped (R359, R361). -/
def execTranslationPrefetch (stack dev pasid va ahead : Nat) (write : Bool) (s : State) : Out :=
  let page := Page.hubTlb stack
  .next (if s.fld page 0x100 8 8 = 0 ∨ s.fld page 0x100 4 0 < ahead ∨ ahead = 0
      ∨ (s.tlbFind stack dev pasid (va / 4096)).isSome then s
    else match s.walk dev pasid va with
      | .found (ls, pa) =>
        if leavesPermit ls write then
          (s.bump page 2).tlbFill ⟨stack, dev, pasid, va / 4096, pa / 4096,
            leavesPermit ls true && ls.all fun l => bit l.pte 7, true⟩
        else s.bump page 4
      | _ => s.bump page 4)

/-! ### Host translations -/

/-- The ATC entry that covers an aperture offset of a function. -/
def State.atcFind (s : State) (fn off : Nat) : Option AtcEntry :=
  s.atc.find? fun e => decide (e.fn = fn ∧ e.base ≤ off ∧ off < e.base + e.size)

/-- ATS_TRANSLATION_REQUEST: a host-aperture access that misses the ATC sends a Translation Request and is held (R356,
R426). -/
def execAtsTranslationRequest (part off : Nat) (write : Bool) (s : State) : Out :=
  let fn := if s.fld Page.hostPort Reg.VER_ACTIVE 15 0 = 0x0300 then 0 else part + 1
  let st := s.hostStatus part .engine
  .next (if st ≠ St.ok then s.answer st []
    else match s.atcFind fn off with
      | some _ => s
      | none => { s with
          atsReqs := s.atsReqs ++ [({ fn := fn, off := off, write := write } : AtsReq)]
          out := ⟨.atsRequest, fn, 0, off, write.toNat, []⟩ :: s.out })

/-- Outstanding PRI Page Requests of a function (R357). -/
def State.priCount (s : State) (fn : Nat) : Nat := (s.atsReqs.filter fun r => decide (r.fn = fn) && r.pri).length

/-- Removes a host translation in progress. -/
def State.atsDrop (s : State) (fn off : Nat) : State :=
  { s with atsReqs := s.atsReqs.filter fun r => !decide (r.fn = fn ∧ r.off = off) }

/-- TRANSLATION_COMPLETION: a completion with the permission the access needs fills the ATC with its range, of
2^size bytes up to 2 MiB; one without it sends a PRI Page Request, at most 512 for a function; Unsupported
Request completes the access with TRANSLATION_FAULT (R356, R357). -/
def execTranslationCompletion (fn off size : Nat) (supported read write : Bool) (s : State) : Out :=
  .next (match s.atsReqs.find? fun r => decide (r.fn = fn ∧ r.off = off) && !r.pri with
  | none => s
  | some r =>
    if !supported then (s.atsDrop fn off).answer St.translationFault []
    else if (if r.write then write else read) then
      let n := 2 ^ max 12 (min 21 size)
      let rest := if 16384 ≤ s.atc.length then s.atc.drop 1 else s.atc
      ({ (s.atsDrop fn off) with atc := rest ++ [⟨fn, off / n * n, n, write⟩] } : State).answer St.ok []
    else if s.priCount fn < 512 then
      { s with
        atsReqs := s.atsReqs.map fun (x : AtsReq) => if x.fn = fn ∧ x.off = off then { x with pri := true } else x
        out := ⟨.pageRequest, fn, 1, off, r.write.toNat, []⟩ :: s.out }
    else s)

/-- PRG_RESPONSE: Success retries the translation; any other response completes the access with
TRANSLATION_FAULT (R357). -/
def execPrgResponse (fn off : Nat) (success : Bool) (s : State) : Out :=
  .next (match s.atsReqs.find? fun r => decide (r.fn = fn ∧ r.off = off) && r.pri with
  | none => s
  | some r =>
    if success then
      { s with
        atsReqs := s.atsReqs.map fun (x : AtsReq) => if x.fn = fn ∧ x.off = off then { x with pri := false } else x
        out := ⟨.atsRequest, fn, 0, off, r.write.toNat, []⟩ :: s.out }
    else (s.atsDrop fn off).answer St.translationFault [])

/-- ATS_INVALIDATE_REQUEST: the matching entries go, and the completion is sent (R358). -/
def execAtsInvalidateRequest (fn base size : Nat) (s : State) : Out :=
  .next { s with
    atc := s.atc.filter fun e => !decide (e.fn = fn ∧ e.base < base + size ∧ base < e.base + e.size)
    out := ⟨.invCompletion, fn, 0, base, size, []⟩ :: s.out }

end Sys2Proof.Machine
end

