-- ==== Sys2Proof/Machine/PageAnswer.lean ====
section
/-!
DEFINITION. The response to a page request (R353): whoever waits for the page goes on, or its access completes with
TRANSLATION_FAULT (R232, R263, R396, R407, R408, R418, R488).
-/
namespace Sys2Proof.Machine

/-- Whether an address range meets a page. -/
def onPage (va n vpage : Nat) : Bool := decide (va / 4096 ≤ vpage ∧ vpage ≤ (va + n - 1) / 4096)

/-- A task that waits for page requests goes on once none of its own is left (R353). -/
def State.taskPaged (s : State) (key : Nat) : State :=
  let left := s.pageReqs.any fun r => match r.waiter with
    | .core _ t _ => decide (t = key)
    | .restore t => decide (t = key)
    | _ => false
  s.modTask key fun t => { t with waitsPage := left }

/-- The answer to one waiter that is not an engine: `good` for a success response (R353). -/
def State.waiterAnswer (s : State) (w : Waiter) (good : Bool) : State :=
  let fail := fun (key lcid cause : Nat) => match s.task key with
    | some t => s.failTask key { t with waitsPage := false } St.translationFault lcid cause
    | none => s
  match w, good with
  | .engine, _ => s
  | .core _ key _, true => s.taskPaged key
  | .restore key, true => s.taskPaged key
  | _, true => s
  | .core c key cause, false => fail key (s.lcid c) cause
  | .restore key, false => fail key 0xFFFFFFFF 0
  | .save c key, false =>
    ((s.modCore c fun k => { k with saved := true }).saveFailed c key St.translationFault).savesDone key
  | .coll key, false => match s.colls.find key with
    | some c => s.collFail c St.translationFault
    | none => s
  | .ring q, false => s.modQueue q fun x => { x with ringFault := true }
  | .access, false => s.answer St.translationFault []

/-- A command whose access fails after its page request (R407, R418): it completes with TRANSLATION_FAULT, and a RACK command
goes on past the page (R320). -/
def State.cmdPageFail (s : State) (c : Cmd) : State :=
  let st := St.translationFault
  let key := cmdKey c.queue c.seq
  let c := { c with held := 0 }
  let s := s.setCmd c
  match c.kind with
  | 1 => match s.task key with
    | some t => s.kernelComplete key { t with failStatus := st } st
    | none => s.kernelRefuse (taskOf c) st
  | 3 => match s.boundStack c.target with
    | some p => s.collRefuse c p st
    | none => s.finishCmd c st []
  | 4 => s.blendRefuse c st
  | 5 => match s.boundStack c.target with
    | some p => ((s.setCmd { c with progress := c.progress + 1 }).rackRefuse p key (c.cs.getD 0 0 + 4096 * c.progress) st).rackCheck key
    | none => s.finishCmd c st []
  | _ => s.finishCmd c st (leBytes 8 c.progress)

/-- The commands that wait for a page. -/
def State.cmdsPaged (s : State) (dev pasid vpage : Nat) (good : Bool) : State :=
  (s.cmds.filter fun e => decide (e.2.held = 2 ∧ e.2.heldPage = vpage ∧ e.2.part = dev ∧ e.2.pasid = pasid)).foldl
    (fun s e => if good then s.setCmd { e.2 with held := 0 } else s.cmdPageFail e.2) s

/-- Whether the completion entry that a queue waits to write lies on a page (R408). -/
def State.entryPage (s : State) (q vpage : Nat) : Bool :=
  (s.queue q).stalled ≠ [] && (match s.addrReg (Page.queueBlock q) (qOff q 0x08) with
    | some base => decide ((base + 32 * (s.queue q).cqTail) / 4096 = vpage)
    | none => false)

/-- The queues whose slot fetch or completion entry waits for a page (R396, R408). -/
def State.queuesPaged (s : State) (dev pasid vpage : Nat) (good : Bool) : State :=
  (s.queues.map Prod.fst).foldl (fun s q =>
    if s.queuePart q ≠ dev ∨ (s.queueCtxt q).pasid ≠ pasid then s
    else
      let s := if (s.queue q).fetchWait = some vpage then
          let s := s.modQueue q fun x => { x with fetchWait := none }
          if good then s else s.takeSlot q [] (some St.translationFault)
        else s
      if s.entryPage q vpage then (if good then s.retryEntries q else s.loseEntry q) else s) s

/-- The entry of a manifest that an access of a page belongs to. -/
def Stage.pagedEntry (g : Stage) (vpage : Nat) : Nat :=
  (g.entries.findIdx? fun e => !e.done && (onPage e.src e.len vpage || onPage e.dst e.len vpage)).getD g.entryAt

/-- The staging that waits for a page (R232, R233). -/
def State.stagesPaged (s : State) (dev pasid vpage : Nat) (good : Bool) : State :=
  s.stages.foldl (fun s g =>
    match s.task g.task with
    | none => s
    | some t =>
      if t.part ≠ dev ∨ t.pasid ≠ pasid ∨ s.stages.contains g = false then s
      else if g.hdrWait ∧ onPage g.addr (64 + 32 * 4096) vpage = true then
        if good then s.readManifest g else s.roundFail g 0 St.translationFault
      else if g.pageWait = some vpage then
        if good then s.putStage { g with pageWait := none } else s.roundFail g (g.pagedEntry vpage) St.translationFault
      else s) s

/-- The blend operations that wait for a page (R263). -/
def State.blendsPaged (s : State) (dev pasid vpage : Nat) (good : Bool) : State :=
  s.blends.foldl (fun s o =>
    if o.part = dev ∧ o.pasid = pasid ∧ o.pageWait = some vpage then
      let o := { o with pageWait := none }
      if good then s.putBlend o else s.blendFail o St.translationFault
    else s) s

/-- A stream of a decanter whose access fails after its page request: a completion is given up, START leaves the stream IDLE,
and any other access stops it with reason MEMORY (R488, R491, R513). -/
def State.decPageFail (s : State) (n k : Nat) : State :=
  let x := s.dec n k
  let st := St.translationFault
  match x.req.bind fun r => r.closing with
  | some _ => s.setDec n k { x with req := none }
  | none =>
    if x.starting then
      ((s.setDec n k { req := x.req }).decStat n k 2 0 0).decStat n k 47 40 st
    else s.decStop n k 12 st (s.decPos n k) none

/-- The streams that wait for a page. -/
def State.decsPaged (s : State) (dev pasid vpage : Nat) (good : Bool) : State :=
  (s.decs.map Prod.fst).foldl (fun s key =>
    let n := key / 16
    let k := key % 16
    let x := s.decCtxt n k
    if x.part = dev ∧ x.pasid = pasid ∧ (s.dec n k).pageWait = some vpage then
      let s := s.setDec n k { s.dec n k with pageWait := none }
      if good then s else s.decPageFail n k
    else s) s

/-- The migrations of a page whose leaf was absent: a deferred one is tried again, or the page is refused (R315, R319). -/
def State.migsPaged (s : State) (dev pasid vpage : Nat) (good : Bool) : State :=
  s.migs.foldl (fun s m =>
    let mine := match m.why with
      | .command _ => true
      | .stage _ => true
      | _ => false
    if mine = true ∧ m.part = dev ∧ m.pasid = pasid ∧ m.va / 4096 = vpage ∧ m.state = 2 ∧ good = false
        ∧ s.leafOf m.part m.pasid m.va = .absent then s.refuseMig m St.translationFault
    else s) s

/-- ATS_PRGR: software answers the page requests of a page of a process (R353). -/
def execAtsPrgr (dev pasid vpage : Nat) (good : Bool) (s : State) : Out :=
  let mine := fun (r : PageReq) => decide (r.dev = dev ∧ r.pasid = pasid ∧ r.vpage = vpage)
  let rs := s.pageReqs.filter mine
  .next (if rs = [] then s
  else
    let s := { s with pageReqs := s.pageReqs.filter fun r => !mine r }
    let s := rs.foldl (fun s r => s.waiterAnswer r.waiter good) s
    let s := ((s.cmdsPaged dev pasid vpage good).queuesPaged dev pasid vpage good).stagesPaged dev pasid vpage good
    ((s.blendsPaged dev pasid vpage good).decsPaged dev pasid vpage good).migsPaged dev pasid vpage good)

end Sys2Proof.Machine
end

