-- ==== Sys2Proof/Machine/Scalar.lean ====
section
/-!
DEFINITION. The scalar instructions of Table 6-4 (R189 to R191).
-/
namespace Sys2Proof.Machine

/-- The arithmetic of OPC 0x01 and 0x02 by FN (Table 6-4, R189). -/
def aluOp (fn : Nat) (a b : Word) : Word :=
  let sh := b.toNat % 64
  match fn with
  | 0x00 => a + b
  | 0x01 => a - b
  | 0x02 => a &&& b
  | 0x03 => a ||| b
  | 0x04 => a ^^^ b
  | 0x05 => a <<< sh
  | 0x06 => a >>> sh
  | 0x07 => a.sshiftRight sh
  | 0x08 => if a.slt b then 1 else 0
  | 0x09 => if a.ult b then 1 else 0
  | 0x0A => if a.slt b then a else b
  | 0x0B => if a.slt b then b else a
  | 0x0C => if a.ult b then a else b
  | _ => if a.ult b then b else a

/-- A scalar instruction that writes XD: reserved fields checked, then the value written (R184, R189). -/
def scalarWrite (s : State) (c : Nat) (k : Core) (w : Word) (reservedOk : Bool) (v : Word) : Issue :=
  if reservedOk then coreDone s c (k.wx (Ins.d w) v) else .il

/-- ALU_REG: HINT and IMM32 are reserved (R189). -/
def semAluReg (s : State) (c : Nat) (k : Core) (w : Word) : Issue :=
  scalarWrite s c k w (bits w 40 40 = 0 && bits w 31 0 = 0) (aluOp (Ins.fnS w) (k.rx (Ins.a w)) (k.rx (Ins.b w)))

/-- ALU_REG (R189, R183). -/
def execAluReg (c : Nat) (s : State) : Out := .next (s.issue c .aluReg (semAluReg s c))

/-- ALU_IMM: XB and HINT are reserved (R189). -/
def semAluImm (s : State) (c : Nat) (k : Core) (w : Word) : Issue :=
  scalarWrite s c k w (bits w 45 40 = 0) (aluOp (Ins.fnS w) (k.rx (Ins.a w)) (Ins.imm32 w))

/-- ALU_IMM (R189). -/
def execAluImm (c : Nat) (s : State) : Out := .next (s.issue c .aluImm (semAluImm s c))

/-- MUL, MULH and MULHU by FN (R189). -/
def mulOp (fn : Nat) (a b : Word) : Word :=
  match fn with
  | 0 => a * b
  | 1 => BitVec.ofInt 64 ((a.toInt * b.toInt) / ((2 ^ 64 : Nat) : Int))
  | _ => BitVec.ofNat 64 (a.toNat * b.toNat / 2 ^ 64)

/-- MUL: HINT and IMM32 are reserved (R189). -/
def semMul (s : State) (c : Nat) (k : Core) (w : Word) : Issue :=
  scalarWrite s c k w (bits w 40 40 = 0 && bits w 31 0 = 0) (mulOp (Ins.fnS w) (k.rx (Ins.a w)) (k.rx (Ins.b w)))

/-- MUL (R189). -/
def execMul (c : Nat) (s : State) : Out := .next (s.issue c .mul (semMul s c))

/-- LI: XA, XB and HINT are reserved (R189). -/
def semLi (s : State) (c : Nat) (k : Core) (w : Word) : Issue :=
  scalarWrite s c k w (bits w 50 40 = 0) (Ins.imm32 w)

/-- LI (R189). -/
def execLi (c : Nat) (s : State) : Out := .next (s.issue c .li (semLi s c))

/-- LIH: writes IMM32 to XD[63:32] and keeps XD[31:0] (R189). -/
def semLih (s : State) (c : Nat) (k : Core) (w : Word) : Issue :=
  scalarWrite s c k w (bits w 50 40 = 0) (setBits (k.rx (Ins.d w)) 63 32 (bits w 31 0))

/-- LIH (R189). -/
def execLih (c : Nat) (s : State) : Out := .next (s.issue c .lih (semLih s c))

/-- The branch conditions by FN (Table 6-4). -/
def branchTaken (fn : Nat) (a b : Word) : Bool :=
  match fn with
  | 0 => a == b
  | 1 => a != b
  | 2 => a.slt b
  | 3 => !a.slt b
  | 4 => a.ult b
  | _ => !a.ult b

/-- The check of a branch or jump target: range, then alignment (R190). -/
def jumpTo (s : State) (target : Word) : Issue :=
  if 0x3FFF8 < target.toNat then .lr target.toNat
  else if target.toNat % 8 ≠ 0 then .lm target.toNat
  else .done s target.toNat

/-- BRANCH: XD is reserved; a not-taken branch checks no target (R190). -/
def semBranch (s : State) (k : Core) (w : Word) : Issue :=
  if Ins.d w ≠ 0 then .il
  else if branchTaken (Ins.fnS w) (k.rx (Ins.a w)) (k.rx (Ins.b w)) then
    jumpTo s (BitVec.ofNat 64 k.pc + Ins.imm32 w)
  else .done s (k.pc + 8)

/-- BRANCH (R190). -/
def execBranch (c : Nat) (s : State) : Out := .next (s.issue c .branch (semBranch s))

/-- JAL: XA, XB and HINT are reserved; XD is not written when the target faults (R190, R191). -/
def semJal (s : State) (c : Nat) (k : Core) (w : Word) : Issue :=
  if bits w 50 40 ≠ 0 then .il
  else jumpTo (s.setCore c (k.wx (Ins.d w) (BitVec.ofNat 64 (k.pc + 8)))) (BitVec.ofNat 64 k.pc + Ins.imm32 w)

/-- JAL (R191). -/
def execJal (c : Nat) (s : State) : Out := .next (s.issue c .jal (semJal s c))

/-- JALR: XB and HINT are reserved; the target is formed from XA before XD is written (R191). -/
def semJalr (s : State) (c : Nat) (k : Core) (w : Word) : Issue :=
  if bits w 45 40 ≠ 0 then .il
  else jumpTo (s.setCore c (k.wx (Ins.d w) (BitVec.ofNat 64 (k.pc + 8)))) (k.rx (Ins.a w) + Ins.imm32 w)

/-- JALR (R191). -/
def execJalr (c : Nat) (s : State) : Out := .next (s.issue c .jalr (semJalr s c))

end Sys2Proof.Machine
end

