-- ==== Sys2Proof/Machine/ServerAccess.lean ====
section
/-!
DEFINITION. Loads, stores and fetches of server cores (R523 to R527): the regions of Table 17-3, the identity of the
access, its exceptions, and its presentation again.
-/
namespace Sys2Proof.Machine

/-- The valid partition that a server core belongs to (R391, R525). -/
def State.srvPart (s : State) (c : Nat) : Option Nat :=
  (List.range 64).find? fun p => (s.partServers p (c / 64)).testBit (c % 64)

/-- The parts of n bytes from an address that lie in one line each. -/
def linePieces : Nat → Nat → Nat → List (Nat × Nat)
  | 0, _, _ => []
  | f + 1, a, n => if n = 0 then [] else (a, inLine a n) :: linePieces f (a + inLine a n) (n - inLine a n)

/-- Reads physical bytes line by line: the first failing status, or the bytes. -/
def State.physBytes (s : State) (part a n : Nat) : Nat × List Byte :=
  (linePieces (n / 128 + 2) a n).foldl (fun r p =>
    if r.1 ≠ St.ok then r
    else
      let x := s.physRead part .engine p.1 p.2
      (x.1, r.2 ++ x.2)) (St.ok, [])

/-- The page of the unit whose state governs an address (R564). -/
def State.unitPage (s : State) (a : Nat) : Nat :=
  match regionOf a with
  | .gddr st off => if s.ready (Page.cache st) then Page.gddr st (gddrDev off) else Page.cache st
  | .cellar b _ => Page.bay b
  | .host _ => Page.hostPort
  | .register page _ => page
  | _ => Page.device

/-- The access waits to be presented again after the hint (R526, R564): every 1 ms for hint 15. -/
def State.srvHold (s : State) (a : SrvAccess) (hint : Nat) : State :=
  s.modSrv a.core fun x => { x with
    retry := some (a, s.panelTime.toNat + (if hint = 15 then 1000000 else 2 ^ hint * 1000)) }

/-- The end of an access with a failing status: its exception (R526), or a presentation again. -/
def State.srvFailed (s : State) (a : SrvAccess) (st : Nat) : State :=
  if st = St.unitUnavailable then s.srvHold a (s.retryHint (s.unitPage a.pa))
  else match srvCode a.op st with
    | some code => s.srvTrap a.core code a.va
    | none => s.srvTrap a.core (accessFault a.op) a.va

/-- An access that Table 17-3 does not allow (R524). -/
def State.srvDeny (s : State) (a : SrvAccess) : State := s.srvTrap a.core (accessFault a.op) a.va

/-- A line that a server core has written is dirty in its L2 (Table 11-2). -/
def State.srvDirty (s : State) (c line : Nat) : State :=
  if s.agentState c line = .e then s.setAgent c line .m else s

/-- A retired store to main memory, line by line: a failing line is discarded with SRV_STORE_LOST (R527), and one whose home
answers UNIT_UNAVAILABLE has the store presented again (R526). -/
def State.srvStore (s : State) (a : SrvAccess) : State :=
  (linePieces (a.n / 128 + 2) a.pa a.n).foldl (fun s p =>
    let r := s.physWrite 0 .engine p.1 ((a.data.drop (p.1 - a.pa)).take p.2)
    if r.1 = St.ok then r.2.srvDirty a.core (p.1 / 128)
    else if r.1 = St.unitUnavailable then r.2.srvHold a (r.2.retryHint (r.2.unitPage p.1))
    else r.2.storeLost a.core p.1) (s.answer St.ok [])

/-- An access to main memory: loads and fetches of any width, stores, AMOs, LR and SC (R522 to R524, R526). -/
def State.srvMain (s : State) (a : SrvAccess) : State :=
  let line := a.pa / 128
  if a.op = 1 then s.srvStore a
  else if a.op = 5 then
    let held := decide ((s.srvCore a.core).resv = some line) && !a.scFail
    let s := s.modSrv a.core fun x => { x with resv := none }
    if !held then s.answer St.ok [1]
    else
      let r := s.physWrite 0 .engine a.pa (a.data.take a.n)
      if r.1 = St.ok then (r.2.srvDirty a.core line).answer St.ok [0]
      else if r.1 = St.unitUnavailable then
        (r.2.modSrv a.core fun x => { x with resv := some line }).srvFailed a r.1
      else r.2.srvFailed a r.1
  else
    let r := s.physBytes 0 a.pa a.n
    if r.1 ≠ St.ok then s.srvFailed a r.1
    else if a.op = 3 then
      let w := s.physWrite 0 .engine a.pa (leBytes a.n (amoValue a.aop (8 * a.n) (ofLeBytes r.2) a.b a.c))
      if w.1 = St.ok then (w.2.srvDirty a.core line).answer St.ok r.2 else w.2.srvFailed a w.1
    else
      let s := if a.op = 4 then s.modSrv a.core fun x => { x with resv := some line } else s
      s.answer St.ok r.2

/-- An access to a local store or the host aperture: 1, 2, 4 or 8 B, aligned, and no AMO, LR or SC (Table 17-3). -/
def State.srvIo (s : State) (part : Nat) (a : SrvAccess) : State :=
  if (a.n ≠ 1 ∧ a.n ≠ 2 ∧ a.n ≠ 4 ∧ a.n ≠ 8) ∨ a.pa % a.n ≠ 0 ∨ 3 ≤ a.op then s.srvDeny a
  else if a.op = 1 then
    let r := s.physWrite part .engine a.pa (a.data.take a.n)
    if r.1 = St.ok then r.2.answer St.ok [] else r.2.srvFailed a r.1
  else
    let r := s.physRead part .engine a.pa a.n
    if r.1 = St.ok then s.answer St.ok r.2 else s.srvFailed a r.1

/-- An access to register space under the identity SERVER (R525, R607): a core of no valid partition reads zero and writes
nothing. -/
def State.srvRegister (s : State) (part : Option Nat) (a : SrvAccess) (page off : Nat) : State :=
  let widths := if a.op = 1 then decide (a.n = 8) else decide (a.n = 4 ∨ a.n = 8)
  if !widths ∨ a.pa % a.n ≠ 0 ∨ 3 ≤ a.op then s.srvDeny a
  else match part with
    | none => s.answer St.ok (if a.op = 1 then [] else List.replicate a.n 0)
    | some p =>
      if s.unreached page then s.srvHold a 15
      else if a.op = 1 then (s.regWrite (.server p) page off 8 (BitVec.ofNat 64 (ofLeBytes (a.data.take 8)))).answer St.ok []
      else s.regAccess (.server p) page off a.n

/-- An access by region (Table 17-3, R524, R525, R530). -/
def State.srvRegion (s : State) (a : SrvAccess) : State :=
  let part := s.srvPart a.core
  match regionOf a.pa, part with
  | .gddr _ off, _ => if 0x600000000 ≤ off then s.srvDeny a else s.srvMain a
  | .cellar _ _, _ => s.srvMain a
  | .register page off, _ => s.srvRegister part a page off
  | .ls c _, some p =>
    (match s.logicalStack (coreStack c) with
      | some l => if s.ownsStack p l then s.srvIo p a else s.srvDeny a
      | none => s.srvDeny a)
  | .host _, some p => s.srvIo p a
  | .imsic off, some _ =>
    if a.op = 1 then
      (if a.n = 4 ∧ off % 4 = 0 then s.imsicWrite off (ofLeBytes (a.data.take 4) % 2 ^ 32) else s).answer St.ok []
    else if 3 ≤ a.op then s.srvDeny a
    else s.answer St.ok (List.replicate a.n 0)
  | _, _ => s.srvDeny a

/-- SRV_MEMORY_ACCESS: a load, store, fetch, AMO, LR or SC of a server core (R523 to R527, R529). A leaf that Svade or the
transient value of R316 excludes raises a page fault. -/
def execSrvMemoryAccess (a : SrvAccess) (s : State) : Out :=
  .next (if 256 ≤ a.core ∨ 5 < a.op ∨ a.n = 0 then s
  else if a.pageFault then s.srvTrap a.core (pageFaultCode a.op) a.va
  else
    let e : SrvTlb := ⟨a.core, a.va / 4096, a.pa / 4096⟩
    let s := if s.srvTlb.contains e then s else { s with srvTlb := s.srvTlb ++ [e] }
    s.srvRegion a)

/-- SRV_ACCESS_RETRY: a server core presents its access again, once the interval of the hint has passed (R526, R564). -/
def execSrvAccessRetry (c : Nat) (s : State) : Out :=
  .next (match (s.srvCore c).retry with
  | some (a, due) =>
    if due ≤ s.panelTime.toNat then (s.modSrv c fun x => { x with retry := none }).srvRegion a else s
  | none => s)

end Sys2Proof.Machine
end

