-- ==== Sys2Proof/Machine/Dispatch.lean ====
section
/-!
DEFINITION. One arm per command: the meaning of each.
-/
namespace Sys2Proof.Machine

def exec (i : Instr) (s : State) : Host.Outcome State Fault Refusal :=
  match i with
  | .aluReg c => Sys2Proof.Machine.execAluReg c s
  | .aluImm c => Sys2Proof.Machine.execAluImm c s
  | .mul c => Sys2Proof.Machine.execMul c s
  | .li c => Sys2Proof.Machine.execLi c s
  | .lih c => Sys2Proof.Machine.execLih c s
  | .branch c => Sys2Proof.Machine.execBranch c s
  | .jal c => Sys2Proof.Machine.execJal c s
  | .jalr c => Sys2Proof.Machine.execJalr c s
  | .vsetvl c => Sys2Proof.Machine.execVsetvl c s
  | .vaddVsubVmul c => Sys2Proof.Machine.execVaddVsubVmul c s
  | .vandVorVxor c => Sys2Proof.Machine.execVandVorVxor c s
  | .vshift c => Sys2Proof.Machine.execVshift c s
  | .vcmp c => Sys2Proof.Machine.execVcmp c s
  | .vfcmp c => Sys2Proof.Machine.execVfcmp c s
  | .klogic c => Sys2Proof.Machine.execKlogic c s
  | .vfaddVfsubVfmulVfma c => Sys2Proof.Machine.execVfaddVfsubVfmulVfma c s
  | .vfminVfmax c => Sys2Proof.Machine.execVfminVfmax c s
  | .vapprox c => Sys2Proof.Machine.execVapprox c s
  | .vcvt c => Sys2Proof.Machine.execVcvt c s
  | .vqMx c => Sys2Proof.Machine.execVqMx c s
  | .vqTs4 c => Sys2Proof.Machine.execVqTs4 c s
  | .vqG8 c => Sys2Proof.Machine.execVqG8 c s
  | .vqG8l c => Sys2Proof.Machine.execVqG8l c s
  | .vdq c => Sys2Proof.Machine.execVdq c s
  | .vred c => Sys2Proof.Machine.execVred c s
  | .vperm c => Sys2Proof.Machine.execVperm c s
  | .vslide c => Sys2Proof.Machine.execVslide c s
  | .vbcast c => Sys2Proof.Machine.execVbcast c s
  | .vext c => Sys2Proof.Machine.execVext c s
  | .compress c => Sys2Proof.Machine.execCompress c s
  | .expand c => Sys2Proof.Machine.execExpand c s
  | .maskSummary c => Sys2Proof.Machine.execMaskSummary c s
  | .maxidxMinidx c => Sys2Proof.Machine.execMaxidxMinidx c s
  | .mmaK16n128 c => Sys2Proof.Machine.execMmaK16n128 c s
  | .mmaK16n128T c => Sys2Proof.Machine.execMmaK16n128T c s
  | .mmaK32n64 c => Sys2Proof.Machine.execMmaK32n64 c s
  | .mmaK16n64 c => Sys2Proof.Machine.execMmaK16n64 c s
  | .mmaK8n64 c => Sys2Proof.Machine.execMmaK8n64 c s
  | .mmaK16n32 c => Sys2Proof.Machine.execMmaK16n32 c s
  | .mlw c => Sys2Proof.Machine.execMlw c s
  | .msw c => Sys2Proof.Machine.execMsw c s
  | .mrd c => Sys2Proof.Machine.execMrd c s
  | .ldL c e => Sys2Proof.Machine.execLdL c e s
  | .stL c => Sys2Proof.Machine.execStL c s
  | .vld c e => Sys2Proof.Machine.execVld c e s
  | .vst c => Sys2Proof.Machine.execVst c s
  | .ldG c => Sys2Proof.Machine.execLdG c s
  | .stG c => Sys2Proof.Machine.execStG c s
  | .amoG c => Sys2Proof.Machine.execAmoG c s
  | .gatherG c => Sys2Proof.Machine.execGatherG c s
  | .scatterG c => Sys2Proof.Machine.execScatterG c s
  | .xferL c => Sys2Proof.Machine.execXferL c s
  | .xferS c => Sys2Proof.Machine.execXferS c s
  | .send c => Sys2Proof.Machine.execSend c s
  | .recv c => Sys2Proof.Machine.execRecv c s
  | .sendH c => Sys2Proof.Machine.execSendH c s
  | .arm c => Sys2Proof.Machine.execArm c s
  | .nop c => Sys2Proof.Machine.execNop c s
  | .bar c => Sys2Proof.Machine.execBar c s
  | .twait c => Sys2Proof.Machine.execTwait c s
  | .syncI c => Sys2Proof.Machine.execSyncI c s
  | .evt c => Sys2Proof.Machine.execEvt c s
  | .crd c => Sys2Proof.Machine.execCrd c s
  | .cwr c => Sys2Proof.Machine.execCwr c s
  | .endProg c => Sys2Proof.Machine.execEndProg c s
  | .barRelease c => Sys2Proof.Machine.execBarRelease c s
  | .instrFetch c line ecc => Sys2Proof.Machine.execInstrFetch c line ecc s
  | .mmaStart c ecc => Sys2Proof.Machine.execMmaStart c ecc s
  | .mlwLoadDone c ecc => Sys2Proof.Machine.execMlwLoadDone c ecc s
  | .portRowWaitEnd c => Sys2Proof.Machine.execPortRowWaitEnd c s
  | .streamUnitArrive c port ecc => Sys2Proof.Machine.execStreamUnitArrive c port ecc s
  | .creditReturn c port => Sys2Proof.Machine.execCreditReturn c port s
  | .sendHArrival c ecc => Sys2Proof.Machine.execSendHArrival c ecc s
  | .transferBlockDone c t ecc sound => Sys2Proof.Machine.execTransferBlockDone c t ecc sound s
  | .globalAccessDone c unit epoch => Sys2Proof.Machine.execGlobalAccessDone c unit epoch s
  | .hubProxyRetry c => Sys2Proof.Machine.execHubProxyRetry c s
  | .portStall c op => Sys2Proof.Machine.execPortStall c op s
  | .coreDrainDone c => Sys2Proof.Machine.execCoreDrainDone c s
  | .keepLevelFall c a => Sys2Proof.Machine.execKeepLevelFall c a s
  | .keepRampStep c a => Sys2Proof.Machine.execKeepRampStep c a s
  | .keepCtlWrite u st d v => Sys2Proof.Machine.execKeepCtlWrite u st d v s
  | .kernel q seq => Sys2Proof.Machine.execKernel q seq s
  | .kernelLaunch q seq => Sys2Proof.Machine.execKernelLaunch q seq s
  | .taskPreempt q seq => Sys2Proof.Machine.execTaskPreempt q seq s
  | .cheapWindowExpiry q seq => Sys2Proof.Machine.execCheapWindowExpiry q seq s
  | .sliceExpiry q seq => Sys2Proof.Machine.execSliceExpiry q seq s
  | .coreSave c => Sys2Proof.Machine.execCoreSave c s
  | .taskRestore q seq => Sys2Proof.Machine.execTaskRestore q seq s
  | .taskFail c hw => Sys2Proof.Machine.execTaskFail c hw s
  | .preemptReqGo u stack v => Sys2Proof.Machine.execPreemptReqGo u stack v s
  | .rtReserveWrite u stack v => Sys2Proof.Machine.execRtReserveWrite u stack v s
  | .move q seq n refuse park => Sys2Proof.Machine.execMove q seq n refuse park s
  | .inlineWrite q seq refuse park => Sys2Proof.Machine.execInlineWrite q seq refuse park s
  | .event q seq => Sys2Proof.Machine.execEvent q seq s
  | .query q seq => Sys2Proof.Machine.execQuery q seq s
  | .fence q seq => Sys2Proof.Machine.execFence q seq s
  | .barrier q seq => Sys2Proof.Machine.execBarrier q seq s
  | .collective q seq => Sys2Proof.Machine.execCollective q seq s
  | .blendUpdate q seq => Sys2Proof.Machine.execBlendUpdate q seq s
  | .blendCommit q seq => Sys2Proof.Machine.execBlendCommit q seq s
  | .rack q seq => Sys2Proof.Machine.execRack q seq s
  | .commandFetch q => Sys2Proof.Machine.execCommandFetch q s
  | .engineCmdActivate q seq => Sys2Proof.Machine.execEngineCmdActivate q seq s
  | .refusedRetry q seq => Sys2Proof.Machine.execRefusedRetry q seq s
  | .sqTail u q v => Sys2Proof.Machine.execSqTail u q v s
  | .cqHead u q v => Sys2Proof.Machine.execCqHead u q v s
  | .qcfgEnableSet u q v => Sys2Proof.Machine.execQcfgEnableSet u q v s
  | .qcfgEnableClear u q v => Sys2Proof.Machine.execQcfgEnableClear u q v s
  | .qbindWrite u q v => Sys2Proof.Machine.execQbindWrite u q v s
  | .partCtlWrite u p v => Sys2Proof.Machine.execPartCtlWrite u p v s
  | .partStacksWrite u p v => Sys2Proof.Machine.execPartStacksWrite u p v s
  | .partSrvWrite u p j v => Sys2Proof.Machine.execPartSrvWrite u p j v s
  | .manifestEntryDone q seq stack u n => Sys2Proof.Machine.execManifestEntryDone q seq stack u n s
  | .roundFailed q seq stack entry status => Sys2Proof.Machine.execRoundFailed q seq stack entry status s
  | .roundStallCycle q seq stack cause => Sys2Proof.Machine.execRoundStallCycle q seq stack cause s
  | .roundStall q seq stack cause => Sys2Proof.Machine.execRoundStall q seq stack cause s
  | .collCompletionNotify stack jobTag seq => Sys2Proof.Machine.execCollCompletionNotify stack jobTag seq s
  | .blendOpRun stack park => Sys2Proof.Machine.execBlendOpRun stack park s
  | .progReturn stack core a0 buf => Sys2Proof.Machine.execProgReturn stack core a0 buf s
  | .progTimeout stack core => Sys2Proof.Machine.execProgTimeout stack core s
  | .cacheAccess stack a n data hint tag part ecc req pasid va cycle => Sys2Proof.Machine.execCacheAccess stack a n data hint tag part ecc req pasid va cycle s
  | .keepReleaseGo u stack v => Sys2Proof.Machine.execKeepReleaseGo u stack v s
  | .keepSweepDone stack => Sys2Proof.Machine.execKeepSweepDone stack s
  | .nearWaysWrite u stack v => Sys2Proof.Machine.execNearWaysWrite u stack v s
  | .prefetchIssue stack entry => Sys2Proof.Machine.execPrefetchIssue stack entry s
  | .streamEntryExpire stack entry cycle => Sys2Proof.Machine.execStreamEntryExpire stack entry cycle s
  | .prefetchDepthAdjust stack => Sys2Proof.Machine.execPrefetchDepthAdjust stack s
  | .gddrAccess st off n data edc wait ecc => Sys2Proof.Machine.execGddrAccess st off n data edc wait ecc s
  | .gddrRetryAttempt st g edc ecc => Sys2Proof.Machine.execGddrRetryAttempt st g edc ecc s
  | .gddrRetrain st g => Sys2Proof.Machine.execGddrRetrain st g s
  | .gddrTempReading st g t => Sys2Proof.Machine.execGddrTempReading st g t s
  | .gddrRefresh st g => Sys2Proof.Machine.execGddrRefresh st g s
  | .gddrScrub st off ecc => Sys2Proof.Machine.execGddrScrub st off ecc s
  | .lineRewrite st g => Sys2Proof.Machine.execLineRewrite st g s
  | .regRefill page cycles => Sys2Proof.Machine.execRegRefill page cycles s
  | .regIndexWrite u page v => Sys2Proof.Machine.execRegIndexWrite u page v s
  | .regDataWrite u page v => Sys2Proof.Machine.execRegDataWrite u page v s
  | .cellarAccess b off n data part hub pasid va wb media => Sys2Proof.Machine.execCellarAccess b off n data part hub pasid va wb media s
  | .bayReqTimeout b => Sys2Proof.Machine.execBayReqTimeout b s
  | .mbxOlmIdentify u b len => Sys2Proof.Machine.execMbxOlmIdentify u b len s
  | .mbxHealth u b len => Sys2Proof.Machine.execMbxHealth u b len s
  | .mbxWear u b len => Sys2Proof.Machine.execMbxWear u b len s
  | .mbxTemperature u b len => Sys2Proof.Machine.execMbxTemperature u b len s
  | .mbxEvacBegin u b len => Sys2Proof.Machine.execMbxEvacBegin u b len s
  | .mbxEvacEnd u b len => Sys2Proof.Machine.execMbxEvacEnd u b len s
  | .mbxRemovalReady u b len => Sys2Proof.Machine.execMbxRemovalReady u b len s
  | .mbxReservedOpcode u b op len => Sys2Proof.Machine.execMbxReservedOpcode u b op len s
  | .mbxResponse b result data => Sys2Proof.Machine.execMbxResponse b result data s
  | .bayHealthPoll b => Sys2Proof.Machine.execBayHealthPoll b s
  | .bayAdmit u b epoch => Sys2Proof.Machine.execBayAdmit u b epoch s
  | .bayEvac u b epoch => Sys2Proof.Machine.execBayEvac u b epoch s
  | .bayEvacCancel u b epoch => Sys2Proof.Machine.execBayEvacCancel u b epoch s
  | .evacCopyDone b => Sys2Proof.Machine.execEvacCopyDone b s
  | .poolGive u page v => Sys2Proof.Machine.execPoolGive u page v s
  | .pageMigrate stack idx race busy => Sys2Proof.Machine.execPageMigrate stack idx race busy s
  | .migrateDeferRetry stack idx => Sys2Proof.Machine.execMigrateDeferRetry stack idx s
  | .hotWindowRestart stack => Sys2Proof.Machine.execHotWindowRestart stack s
  | .mirrorResync u b j v => Sys2Proof.Machine.execMirrorResync u b j v s
  | .mirrorResyncDone b j => Sys2Proof.Machine.execMirrorResyncDone b j s
  | .baySurpriseRemoval b absent => Sys2Proof.Machine.execBaySurpriseRemoval b absent s
  | .rdShared agent line => Sys2Proof.Machine.execRdShared agent line s
  | .rdPf agent line => Sys2Proof.Machine.execRdPf agent line s
  | .rdUnique agent line => Sys2Proof.Machine.execRdUnique agent line s
  | .upgrade agent line => Sys2Proof.Machine.execUpgrade agent line s
  | .rdOnce agent line off n => Sys2Proof.Machine.execRdOnce agent line off n s
  | .wrFull agent line data => Sys2Proof.Machine.execWrFull agent line data s
  | .wrPtl agent line mask data => Sys2Proof.Machine.execWrPtl agent line mask data s
  | .atomic agent line off aop size b c => Sys2Proof.Machine.execAtomic agent line off aop size b c s
  | .snpFwdS agent line req => Sys2Proof.Machine.execSnpFwdS agent line req s
  | .snpFwdU agent line req => Sys2Proof.Machine.execSnpFwdU agent line req s
  | .snpInv agent line => Sys2Proof.Machine.execSnpInv agent line s
  | .snpRecall agent line => Sys2Proof.Machine.execSnpRecall agent line s
  | .invAck agent line => Sys2Proof.Machine.execInvAck agent line s
  | .fwdAck agent line => Sys2Proof.Machine.execFwdAck agent line s
  | .rspMiss agent line => Sys2Proof.Machine.execRspMiss agent line s
  | .evictClean agent line => Sys2Proof.Machine.execEvictClean agent line s
  | .datWb agent line evict => Sys2Proof.Machine.execDatWb agent line evict s
  | .grant agent line => Sys2Proof.Machine.execGrant agent line s
  | .comp agent line status => Sys2Proof.Machine.execComp agent line status s
  | .pfDrop agent line => Sys2Proof.Machine.execPfDrop agent line s
  | .compAck agent line => Sys2Proof.Machine.execCompAck agent line s
  | .datS agent line status => Sys2Proof.Machine.execDatS agent line status s
  | .datE agent line status => Sys2Proof.Machine.execDatE agent line status s
  | .datM agent line status => Sys2Proof.Machine.execDatM agent line status s
  | .datIo agent line status => Sys2Proof.Machine.execDatIo agent line status s
  | .translationRequest stack dev pasid va write => Sys2Proof.Machine.execTranslationRequest stack dev pasid va write s
  | .translationReply stack dev pasid vpage => Sys2Proof.Machine.execTranslationReply stack dev pasid vpage s
  | .atsPrgr dev pasid vpage good => Sys2Proof.Machine.execAtsPrgr dev pasid vpage good s
  | .iotinval index gvma dev pasid va late => Sys2Proof.Machine.execIotinval index gvma dev pasid va late s
  | .iofenceC addr data wsi => Sys2Proof.Machine.execIofenceC addr data wsi s
  | .invSlow index => Sys2Proof.Machine.execInvSlow index s
  | .translationPrefetch stack dev pasid va ahead write => Sys2Proof.Machine.execTranslationPrefetch stack dev pasid va ahead write s
  | .atsTranslationRequest part off write => Sys2Proof.Machine.execAtsTranslationRequest part off write s
  | .translationCompletion fn off size supported read write => Sys2Proof.Machine.execTranslationCompletion fn off size supported read write s
  | .prgResponse fn off success => Sys2Proof.Machine.execPrgResponse fn off success s
  | .atsInvalidateRequest fn base size => Sys2Proof.Machine.execAtsInvalidateRequest fn base size s
  | .shootdown part vpage => Sys2Proof.Machine.execShootdown part vpage s
  | .flitReceive stack d crcOk => Sys2Proof.Machine.execFlitReceive stack d crcOk s
  | .trellisLinkDown stack d => Sys2Proof.Machine.execTrellisLinkDown stack d s
  | .packetRoute node src requester inj => Sys2Proof.Machine.execPacketRoute node src requester inj s
  | .arbitration page o cycles reqs => Sys2Proof.Machine.execArbitration page o cycles reqs s
  | .prioWrite u page v late => Sys2Proof.Machine.execPrioWrite u page v late s
  | .arbShareWrite u page o v => Sys2Proof.Machine.execArbShareWrite u page o v s
  | .arbStarved page o cycles => Sys2Proof.Machine.execArbStarved page o cycles s
  | .routeRebuild tables => Sys2Proof.Machine.execRouteRebuild tables s
  | .injectHoldSet u stack => Sys2Proof.Machine.execInjectHoldSet u stack s
  | .injectHoldClear u stack => Sys2Proof.Machine.execInjectHoldClear u stack s
  | .routerLoss p off => Sys2Proof.Machine.execRouterLoss p off s
  | .bar0Access fn off n write => Sys2Proof.Machine.execBar0Access fn off n write s
  | .bar4Doorbell fn off size write v => Sys2Proof.Machine.execBar4Doorbell fn off size write v s
  | .windowWrite p off bytes => Sys2Proof.Machine.execWindowWrite p off bytes s
  | .windowFlush p slot => Sys2Proof.Machine.execWindowFlush p slot s
  | .msixSend fn entry => Sys2Proof.Machine.execMsixSend fn entry s
  | .msixUnmask fn entry => Sys2Proof.Machine.execMsixUnmask fn entry s
  | .hostReadCompletion core x y result bytes => Sys2Proof.Machine.execHostReadCompletion core x y result bytes s
  | .hostCompletionTimeout core x y => Sys2Proof.Machine.execHostCompletionTimeout core x y s
  | .hostStall q seq => Sys2Proof.Machine.execHostStall q seq s
  | .hostLoss cause => Sys2Proof.Machine.execHostLoss cause s
  | .p7HostLoss cause strap => Sys2Proof.Machine.execP7HostLoss cause strap s
  | .hostLinkUp width rate vfs masters msix => Sys2Proof.Machine.execHostLinkUp width rate vfs masters msix s
  | .vfFlr p => Sys2Proof.Machine.execVfFlr p s
  | .linkRecovery => Sys2Proof.Machine.execLinkRecovery s
  | .hostAttach u v => Sys2Proof.Machine.execHostAttach u v s
  | .hostDetach u v => Sys2Proof.Machine.execHostDetach u v s
  | .winReload u v => Sys2Proof.Machine.execWinReload u v s
  | .numvfsSetP7 n strap => Sys2Proof.Machine.execNumvfsSetP7 n strap s
  | .fabricFlitReceive f b fixed lost => Sys2Proof.Machine.execFabricFlitReceive f b fixed lost s
  | .fabricAckTimer f => Sys2Proof.Machine.execFabricAckTimer f s
  | .fabricSilence f => Sys2Proof.Machine.execFabricSilence f s
  | .laneSignalLoss f => Sys2Proof.Machine.execLaneSignalLoss f s
  | .bringupRestart f => Sys2Proof.Machine.execBringupRestart f s
  | .bringupStageDone f => Sys2Proof.Machine.execBringupStageDone f s
  | .bringupTimeout f => Sys2Proof.Machine.execBringupTimeout f s
  | .vintageMessage f b => Sys2Proof.Machine.execVintageMessage f b s
  | .vintageResend f => Sys2Proof.Machine.execVintageResend f s
  | .write f p => Sys2Proof.Machine.execWrite f p s
  | .readReq f p => Sys2Proof.Machine.execReadReq f p s
  | .readRsp f p => Sys2Proof.Machine.execReadRsp f p s
  | .fabricAtomic f p => Sys2Proof.Machine.execFabricAtomic f p s
  | .atomicRsp f p => Sys2Proof.Machine.execAtomicRsp f p s
  | .eventPost f p => Sys2Proof.Machine.execEventPost f p s
  | .collStep f p => Sys2Proof.Machine.execCollStep f p s
  | .ack f p => Sys2Proof.Machine.execAck f p s
  | .nak f p => Sys2Proof.Machine.execNak f p s
  | .straggle f p => Sys2Proof.Machine.execStraggle f p s
  | .abort f p => Sys2Proof.Machine.execAbort f p s
  | .groupCmd f p => Sys2Proof.Machine.execGroupCmd f p s
  | .groupCpl f p => Sys2Proof.Machine.execGroupCpl f p s
  | .groupCmdResend q seq => Sys2Proof.Machine.execGroupCmdResend q seq s
  | .hostFwdReq f p => Sys2Proof.Machine.execHostFwdReq f p s
  | .hostFwdRsp f p => Sys2Proof.Machine.execHostFwdRsp f p s
  | .winWrite f p => Sys2Proof.Machine.execWinWrite f p s
  | .winFlush f p => Sys2Proof.Machine.execWinFlush f p s
  | .groupHello f p => Sys2Proof.Machine.execGroupHello f p s
  | .groupHelloTimer => Sys2Proof.Machine.execGroupHelloTimer s
  | .groupFormTimeout => Sys2Proof.Machine.execGroupFormTimeout s
  | .groupForm u v => Sys2Proof.Machine.execGroupForm u v s
  | .retxTimer dst vc port => Sys2Proof.Machine.execRetxTimer dst vc port s
  | .collStepResend q seq => Sys2Proof.Machine.execCollStepResend q seq s
  | .collTimeout q seq => Sys2Proof.Machine.execCollTimeout q seq s
  | .moduleCfgWrite u v => Sys2Proof.Machine.execModuleCfgWrite u v s
  | .streamStart u n k => Sys2Proof.Machine.execStreamStart u n k s
  | .streamStop u n k => Sys2Proof.Machine.execStreamStop u n k s
  | .streamRestart u n k epoch discard => Sys2Proof.Machine.execStreamRestart u n k epoch discard s
  | .reqTail u n k v => Sys2Proof.Machine.execReqTail u n k v s
  | .recordProcess n k => Sys2Proof.Machine.execRecordProcess n k s
  | .srvLoadError c op va status => Sys2Proof.Machine.execSrvLoadError c op va status s
  | .srvStoreLost c pa status => Sys2Proof.Machine.execSrvStoreLost c pa status s
  | .cbo c op va pa => Sys2Proof.Machine.execCbo c op va pa s
  | .srvFenceIo c predO predW => Sys2Proof.Machine.execSrvFenceIo c predO predW s
  | .imsicWrite who off n data => Sys2Proof.Machine.execImsicWrite who off n data s
  | .msiUnmask part vec => Sys2Proof.Machine.execMsiUnmask part vec s
  | .divStep st d => Sys2Proof.Machine.execDivStep st d s
  | .voltageRampDone st d => Sys2Proof.Machine.execVoltageRampDone st d s
  | .powerGate c => Sys2Proof.Machine.execPowerGate c s
  | .sensorReading c u v peak => Sys2Proof.Machine.execSensorReading c u v peak s
  | .warnEnd c u => Sys2Proof.Machine.execWarnEnd c u s
  | .ceilStep c u => Sys2Proof.Machine.execCeilStep c u s
  | .feedLoss f volt => Sys2Proof.Machine.execFeedLoss f volt s
  | .feedRestore f volt => Sys2Proof.Machine.execFeedRestore f volt s
  | .feedOverVoltage f volt => Sys2Proof.Machine.execFeedOverVoltage f volt s
  | .panelTimeTick n adj => Sys2Proof.Machine.execPanelTimeTick n adj s
  | .timeExchange f source hops t1 t2 t3 t4 => Sys2Proof.Machine.execTimeExchange f source hops t1 t2 t3 t4 s
  | .timeLockLoss => Sys2Proof.Machine.execTimeLockLoss s
  | .diePwrBoundWrite u st d v => Sys2Proof.Machine.execDiePwrBoundWrite u st d v s
  | .eventPosting => Sys2Proof.Machine.execEventPosting s
  | .evqHead u e v => Sys2Proof.Machine.execEvqHead u e v s
  | .evqCfgWrite u e v => Sys2Proof.Machine.execEvqCfgWrite u e v s
  | .evqStatRead u e at_ n => Sys2Proof.Machine.execEvqStatRead u e at_ n s
  | .evForce u page v => Sys2Proof.Machine.execEvForce u page v s
  | .quiesceReq u page epoch => Sys2Proof.Machine.execQuiesceReq u page epoch s
  | .quiesceDone page => Sys2Proof.Machine.execQuiesceDone page s
  | .quiesceExpired page => Sys2Proof.Machine.execQuiesceExpired page s
  | .quiesceClear u page epoch => Sys2Proof.Machine.execQuiesceClear u page epoch s
  | .resetReq u page epoch => Sys2Proof.Machine.execResetReq u page epoch s
  | .updateReq u page epoch => Sys2Proof.Machine.execUpdateReq u page epoch s
  | .updateDone stack status version => Sys2Proof.Machine.execUpdateDone stack status version s
  | .enableClear u page epoch => Sys2Proof.Machine.execEnableClear u page epoch s
  | .enableSet u page epoch => Sys2Proof.Machine.execEnableSet u page epoch s
  | .cntClear u page epoch => Sys2Proof.Machine.execCntClear u page epoch s
  | .pageLockAcquire u page => Sys2Proof.Machine.execPageLockAcquire u page s
  | .pageLockRelease u page => Sys2Proof.Machine.execPageLockRelease u page s
  | .pageLockIdleExpiry page => Sys2Proof.Machine.execPageLockIdleExpiry page s
  | .rowSkipWrite u st d r v => Sys2Proof.Machine.execRowSkipWrite u st d r v s
  | .spareBind u l p epoch auto => Sys2Proof.Machine.execSpareBind u l p epoch auto s
  | .spareRelease u p epoch auto => Sys2Proof.Machine.execSpareRelease u p epoch auto s
  | .dieFailed st d => Sys2Proof.Machine.execDieFailed st d s
  | .stackFailed p => Sys2Proof.Machine.execStackFailed p s
  | .lostTimeout p => Sys2Proof.Machine.execLostTimeout p s
  | .capChanged => Sys2Proof.Machine.execCapChanged s
  | .unavailTick => Sys2Proof.Machine.execUnavailTick s
  | .cwDataAccess u st write at_ n => Sys2Proof.Machine.execCwDataAccess u st write at_ n s
  | .clearFault u st pass => Sys2Proof.Machine.execClearFault u st pass s
  | .feedPresent f volt => Sys2Proof.Machine.execFeedPresent f volt s
  | .phaseComplete ok strap offline srv => Sys2Proof.Machine.execPhaseComplete ok strap offline srv s
  | .phaseTimeout offline srv => Sys2Proof.Machine.execPhaseTimeout offline srv s
  | .stackGroupPower badHubs badDies badCores => Sys2Proof.Machine.execStackGroupPower badHubs badDies badCores s
  | .flashPersist => Sys2Proof.Machine.execFlashPersist s
  | .moduleReset u epoch strap => Sys2Proof.Machine.execModuleReset u epoch strap s
  | .attentionPress ms => Sys2Proof.Machine.execAttentionPress ms s
  | .attentionHold => Sys2Proof.Machine.execAttentionHold s
  | .identifyWrite u v => Sys2Proof.Machine.execIdentifyWrite u v s
  | .displayAck code source => Sys2Proof.Machine.execDisplayAck code source s
  | .bayButtonPress b ms => Sys2Proof.Machine.execBayButtonPress b ms s
  | .removeAnswer u v => Sys2Proof.Machine.execRemoveAnswer u v s
  | .consentTimeout b => Sys2Proof.Machine.execConsentTimeout b s
  | .evacQueueStart b => Sys2Proof.Machine.execEvacQueueStart b s
  | .latchOpen b absent => Sys2Proof.Machine.execLatchOpen b absent s
  | .cartridgeInsert b width rate advert capacity sane fit => Sys2Proof.Machine.execCartridgeInsert b width rate advert capacity sane fit s
  | .cablePresence f present => Sys2Proof.Machine.execCablePresence f present s
  | .vintageFailRetry f => Sys2Proof.Machine.execVintageFailRetry f s
  | .pldmRequest path type known => Sys2Proof.Machine.execPldmRequest path type known s
  | .pldmFirmwareUpdate path step sound => Sys2Proof.Machine.execPldmFirmwareUpdate path step sound s
  | .registerWrite u page off v => Sys2Proof.Machine.execRegisterWrite u page off v s
  | .pageInitDone page width rate => Sys2Proof.Machine.execPageInitDone page width rate s
  | .gddrRetrainDone st g => Sys2Proof.Machine.execGddrRetrainDone st g s
  | .srvMemoryAccess a => Sys2Proof.Machine.execSrvMemoryAccess a s
  | .srvAccessRetry c => Sys2Proof.Machine.execSrvAccessRetry c s

end Sys2Proof.Machine
end

