-- ==== Sys2Proof/Machine/Step.lean ====
section
/-!
DEFINITION. One step: the command at the front of the queue. An empty queue idles (assumption log, row 9).
-/
namespace Sys2Proof.Machine

/-- The state with the queue replaced. -/
def State.withPending (s : State) (q : List Instr) : State := { s with pending := q }

/-- Takes the command at the front of the queue and executes it on the state with the queue's rest. -/
def step (s : State) : Host.Outcome State Fault Refusal :=
  match s.pending with
  | [] => .next s
  | i :: rest => exec i (s.withPending rest)

/-- The state with the command that a word spells at the front of the queue; the table gives no row bits, so a
word spells none (assumption log, row 10). -/
def State.withFetchWord (s : State) (nbits w : Nat) : State :=
  match decodeTableWord nbits w with
  | some i => s.withPending (i :: s.pending)
  | none => s

end Sys2Proof.Machine
end

