-- ==== Sys2Proof/Safety.lean ====
section
/-!
DEFINITION. The terms in which claims speak: the invariant of every step, a core that issues an instruction and completes it,
and a register write that reaches its effect.
-/
namespace Sys2Proof

/-- The invariant of every step: memory in canonical form. -/
def Safe (s : Machine.State) : Prop := s.mem.wf = true

end Sys2Proof

namespace Sys2Proof.Machine

/-- The core issues the word at its PC, which belongs to a row with an assigned OPC and FN, and PC is not the last address
(R75, R86, R182, R183, R191). -/
abbrev Issues (s : State) (c : Nat) (row : CoreRow) (w : Word) : Prop :=
  (s.core c).fetched = some w ∧ (s.core c).canIssue = true ∧ rowOf w = row ∧ fnAssigned w = true ∧ (s.core c).pc ≠ 0x3FFF8

/-- The core `k` whose instruction has completed with the state `k'` of its registers and the next PC: the line of its
instruction is the one used last (R86), and its instruction counts. -/
def Core.retire (k k' : Core) (pc : Nat) : Core :=
  { k' with pc := pc, ibuf := touchLine k'.ibuf (k.pc / 64), seq := k.seq + 1 }

/-- A command answers a next state in which core c is `k`, memory is `m`, and nothing else has changed. -/
def CompletesMem (i : Instr) (s : State) (c : Nat) (k : Core) (m : Memory) : Prop :=
  ∃ t, exec i s = .next t ∧ t.core c = k ∧ t.mem = m ∧ (∀ d, d ≠ c → t.core d = s.core d)
    ∧ ({ t with cores := s.cores, mem := s.mem } : State) = s

/-- A core command completes: its core's registers become those of `k`, its PC `pc`, and nothing else changes. -/
def Completes (i : Instr) (s : State) (c : Nat) (k : Core) (pc : Nat) : Prop :=
  CompletesMem i s c ((s.core c).retire k pc) s.mem

/-- A core command faults precisely (R93, R98, R100): its core stops with the cause, status, index and address, its PC and
the instruction in the fault record, its registers are as before, and nothing else changes. -/
def Faults (i : Instr) (s : State) (c : Nat) (w : Word) (cause status index faddr : Nat) : Prop :=
  CompletesMem i s c ((s.core c).stopWith ⟨cause, status, index, (s.core c).pc, faddr, w⟩) s.mem

/-- A core whose element-wise instruction has written vd from the results `f` of its active elements below VL, with the flags of
those elements merged (R142, R144, R145, R171). -/
def Core.lanes (k : Core) (dst msel : Nat) (zero : Bool) (f : Nat → Conv) : Core :=
  (k.wv dst (k.mapV dst k.ew k.vl msel zero fun i => (f i).code)).raise
    (sumFlags ((k.activeIdx k.vl msel).map fun i => (f i).flags))

/-- A core after a quantisation of va into vd and vside: blocks of its kind, each quantised with the stochastic bits of its
elements, and SRSEQ counted (R53, R54, R160, R161). -/
def Core.quantised (k : Core) (w : Word) (m : Rnd) (kind : BlockKind) : Core :=
  let ws := codeWidth (Ins.fs w)
  let n := 2048 / ws
  let len := blockLen kind
  let xs := (List.range n).map fun i => decodeCode (Ins.fs w) (k.elem (Ins.a w) ws i)
  let qs := (blocksOf len (n / len) xs).zipIdx.map fun p =>
    quantBlock (quantFmt (Ins.fd w)) kind m (fun i => k.srBits (bits w 2 0 * n + p.2 * len + i)) p.1
  (writeQuant k w kind n qs).advanceSr m

/-- A core with the instruction of PC at the end of its matrix queue, with its operand values (R95). -/
def Core.enqueue (k : Core) (w opa opb : Word) : Core :=
  { k with mq := k.mq ++ [{ instr := w, opa := opa, opb := opb, seq := k.seq, pc := k.pc }] }

/-- A core whose token t has been set to the record of a new operation (Table 3-5): its kind, the local-store range that its
range word names, and its global address, port and destination word. -/
def Core.startToken (k : Core) (t kind : Nat) (range : Word) (gaddr port : Nat) (dest : Word) : Core :=
  k.setToken t ⟨kind, gaddr, rangeAddr range, rangeLen range, 0, false, 0, port, dest, k.seq⟩

/-- The latest epoch of a unit that a proxy has heard of (R568). -/
def State.keepEpoch (s : State) (key epoch : Nat) : State := { s with kept := s.kept.set key (epoch % 65536) }

/-- A write of a register reaches its effect (R606, R613, R614, R617, R586): the page's block has been started and has power,
the offset holds a register, the identity may write it, and no other holds the page's lock. -/
abbrev Admitted (s : State) (i : Ident) (page off : Nat) (v : Word) : Prop :=
  s.unreached page = false
    ∧ (match pageKind page with
        | none => false
        | some k => decide (page = 0x102) || (findReg k off).isSome) = true
    ∧ (isDoorbell page off || (s.lockTouch i page).mayWrite i page off v) = true
    ∧ ((s.lockTouch i page).unpowered.contains page && decide (0x60 ≤ off)) = false
    ∧ (s.lockTouch i page).lockedOut i page off = false

/-- Where a page's EV_ENABLE enables the class of a code, exactly one event of that code has been posted from the page (R555). -/
abbrev Posts (s t : State) (page code : Nat) : Prop :=
  bit (s.reg page Reg.EV_ENABLE) (eventClass code).1 = true →
    ∃ e, t.events = s.events ++ [e] ∧ e.page = page ∧ e.code = code ∧ e.cls = (eventClass code).1 ∧ e.sev = (eventClass code).2

/-- A packet for this module is accepted on port f, which counts it: `r` is the state in which it is handled (R454, R459, R468,
Table 15-19). -/
abbrev Accepted (s : State) (f : Nat) (p : Packet) (r : State) : Prop :=
  f < 32 ∧ s.portUp f = true ∧ p.dst = s.moduleId ∧ s.ownsVc f p = true
    ∧ (p.vc = 1 → s.groupPort f = true ∧ (s.memberOf p.src).isSome = true)
    ∧ r = s.bumpUnits (Page.fabricPort f) 1 (48 + p.payload.length) 1024

/-- An accepted packet is the next of its channel (R462). -/
abbrev InOrder (s : State) (f : Nat) (p : Packet) (r : State) : Prop :=
  Accepted s f p r ∧ p.chseq = s.rxChans.get 1 (rxKey f p)

/-- A packet of a channel has been handled: the channel expects the next one, and the packet is acknowledged (R462). -/
def State.acknowledge (s : State) (f : Nat) (p : Packet) : State :=
  ({ s with rxChans := s.rxChans.set (rxKey f p) ((p.chseq + 1) % 2 ^ 32) } : State).ackPacket f p 0x08 0

/-- The state in which the effect of an admitted write starts: the lock has been used (R614), and the X fields of the register
count as written (R4). -/
def State.admittedState (s : State) (i : Ident) (page off : Nat) : State :=
  let s := s.lockTouch i page
  if hasX page off then s.markWritten page off else s

/-- The state in which a server core's access starts: its translation is one that the core has used (R354). -/
def State.srvSeen (s : State) (a : SrvAccess) : State :=
  let e : SrvTlb := ⟨a.core, a.va / 4096, a.pa / 4096⟩
  if s.srvTlb.contains e then s else { s with srvTlb := s.srvTlb ++ [e] }

/-- A word written to PAGE_CTL: the expected epoch, ENABLE, QUIESCE_REQ, and the bits of the other requests (R611). -/
def ctlWord (epoch enable quiesce others : Nat) : Word :=
  place 63 48 epoch ||| place 0 0 enable ||| place 1 1 quiesce ||| BitVec.ofNat 64 others

/-- A word written to SPARE_CTL with GO (R576). -/
def spareWord (op l p epoch : Nat) (auto : Bool) : Word :=
  place 63 63 1 ||| place 62 62 auto.toNat ||| place 57 56 op ||| place 47 32 epoch ||| place 13 8 l ||| place 6 0 p

/-- The vector instructions of opcodes 0x20 to 0x33 (Table 6-6): the row of each and its command for core c. -/
def vectorRows (c : Nat) : List (CoreRow × Instr) :=
  [(.vsetvl, .vsetvl c), (.vaddVsubVmul, .vaddVsubVmul c), (.vandVorVxor, .vandVorVxor c), (.vshift, .vshift c), (.vcmp, .vcmp
   c), (.vfcmp, .vfcmp c), (.klogic, .klogic c), (.vfaddVfsubVfmulVfma, .vfaddVfsubVfmulVfma c), (.vfminVfmax, .vfminVfmax c),
   (.vapprox, .vapprox c), (.vcvt, .vcvt c), (.vqMx, .vqMx c), (.vqTs4, .vqTs4 c), (.vqG8, .vqG8 c), (.vqG8l, .vqG8l c), (.vdq,
   .vdq c), (.vred, .vred c), (.vperm, .vperm c), (.vslide, .vslide c), (.vbcast, .vbcast c), (.vext, .vext c), (.compress,
   .compress c), (.expand, .expand c), (.maskSummary, .maskSummary c), (.maxidxMinidx, .maxidxMinidx c)]

/-- The instructions whose whole effect is on core c: the row of each and its command; `e` is the error of a load. -/
def ownRows (c : Nat) (e : Ecc) : List (CoreRow × Instr) :=
  vectorRows c ++
  [(.aluReg, .aluReg c), (.aluImm, .aluImm c), (.mul, .mul c), (.li, .li c), (.lih, .lih c), (.branch, .branch c), (.jal, .jal
   c), (.jalr, .jalr c), (.mmaK16n128, .mmaK16n128 c), (.mmaK16n128T, .mmaK16n128T c), (.mmaK32n64, .mmaK32n64 c), (.mmaK16n64,
   .mmaK16n64 c), (.mmaK8n64, .mmaK8n64 c), (.mmaK16n32, .mmaK16n32 c), (.mlw, .mlw c), (.msw, .msw c), (.mrd, .mrd c), (.ldL,
   .ldL c e), (.ldG, .ldG c), (.stG, .stG c), (.amoG, .amoG c), (.gatherG, .gatherG c), (.scatterG, .scatterG c), (.xferL,
   .xferL c), (.xferS, .xferS c), (.send, .send c), (.sendH, .sendH c), (.arm, .arm c), (.nop, .nop c), (.bar, .bar c),
   (.twait, .twait c), (.syncI, .syncI c), (.crd, .crd c), (.cwr, .cwr c), (.vld, .vld c e)]

/-- The instructions with a row of their own but END, whose core also reports (R211). -/
def issueRows (c : Nat) (e : Ecc) : List (CoreRow × Instr) :=
  ownRows c e ++ [(.stL, .stL c), (.vst, .vst c), (.recv, .recv c), (.evt, .evt c)]

end Sys2Proof.Machine
end

