-- ==== Sys2Proof/Certificates/Slice0/Obligations.lean ====
section
/-!
DEFINITION. The statements for the provers: what a step does, what each command does where it completes, what it leaves
unchanged, and the invariant of every step.
-/
open Sys2Proof Sys2Proof.Machine

/-- ALU_REG, ALU_IMM, MUL, LI and LIH write XD with the value of Table 6-4 and go on at PC + 8; nothing else changes (R189). -/
def Obligations.ScalarCompletes : Prop :=
  (∀ (s : State) (c : Nat) (w : Word), Issues s c .aluReg w → bits w 40 40 = 0 → bits w 31 0 = 0 →
    Completes (.aluReg c) s c ((s.core c).wx (Ins.d w)
      (aluOp (Ins.fnS w) ((s.core c).rx (Ins.a w)) ((s.core c).rx (Ins.b w)))) ((s.core c).pc + 8)) ∧
  (∀ (s : State) (c : Nat) (w : Word), Issues s c .aluImm w → bits w 45 40 = 0 →
    Completes (.aluImm c) s c ((s.core c).wx (Ins.d w) (aluOp (Ins.fnS w) ((s.core c).rx (Ins.a w)) (sext 32 w.toNat)))
      ((s.core c).pc + 8)) ∧
  (∀ (s : State) (c : Nat) (w : Word), Issues s c .mul w → bits w 40 40 = 0 → bits w 31 0 = 0 →
    Completes (.mul c) s c ((s.core c).wx (Ins.d w)
      (mulOp (Ins.fnS w) ((s.core c).rx (Ins.a w)) ((s.core c).rx (Ins.b w)))) ((s.core c).pc + 8)) ∧
  (∀ (s : State) (c : Nat) (w : Word), Issues s c .li w → bits w 50 40 = 0 →
    Completes (.li c) s c ((s.core c).wx (Ins.d w) (sext 32 w.toNat)) ((s.core c).pc + 8)) ∧
  (∀ (s : State) (c : Nat) (w : Word), Issues s c .lih w → bits w 50 40 = 0 →
    Completes (.lih c) s c ((s.core c).wx (Ins.d w) (setBits ((s.core c).rx (Ins.d w)) 63 32 (bits w 31 0)))
      ((s.core c).pc + 8))

/-- BRANCH, JAL and JALR go on at their target or, not taken, at PC + 8; JAL and JALR write PC + 8 to XD, and JALR forms its
target before it writes XD. A target outside the local store or not a multiple of 8 faults with LS_RANGE or LS_MISALIGNED, and
XD is not written (R190, R191). -/
def Obligations.JumpCompletes : Prop :=
  (∀ (s : State) (c : Nat) (w t : Word), Issues s c .branch w → Ins.d w = 0 →
    branchTaken (Ins.fnS w) ((s.core c).rx (Ins.a w)) ((s.core c).rx (Ins.b w)) = true →
    t = BitVec.ofNat 64 (s.core c).pc + sext 32 w.toNat → t.toNat ≤ 0x3FFF8 → t.toNat % 8 = 0 →
    Completes (.branch c) s c (s.core c) t.toNat) ∧
  (∀ (s : State) (c : Nat) (w : Word), Issues s c .branch w → Ins.d w = 0 →
    branchTaken (Ins.fnS w) ((s.core c).rx (Ins.a w)) ((s.core c).rx (Ins.b w)) = false →
    Completes (.branch c) s c (s.core c) ((s.core c).pc + 8)) ∧
  (∀ (s : State) (c : Nat) (w t : Word), Issues s c .jal w → bits w 50 40 = 0 →
    t = BitVec.ofNat 64 (s.core c).pc + sext 32 w.toNat → t.toNat ≤ 0x3FFF8 → t.toNat % 8 = 0 →
    Completes (.jal c) s c ((s.core c).wx (Ins.d w) (BitVec.ofNat 64 ((s.core c).pc + 8))) t.toNat) ∧
  (∀ (s : State) (c : Nat) (w t : Word), Issues s c .jalr w → bits w 45 40 = 0 →
    t = (s.core c).rx (Ins.a w) + sext 32 w.toNat → t.toNat ≤ 0x3FFF8 → t.toNat % 8 = 0 →
    Completes (.jalr c) s c ((s.core c).wx (Ins.d w) (BitVec.ofNat 64 ((s.core c).pc + 8))) t.toNat) ∧
  (∀ (s : State) (c : Nat) (w t : Word), Issues s c .branch w → Ins.d w = 0 →
    branchTaken (Ins.fnS w) ((s.core c).rx (Ins.a w)) ((s.core c).rx (Ins.b w)) = true →
    t = BitVec.ofNat 64 (s.core c).pc + sext 32 w.toNat →
    (0x3FFF8 < t.toNat → Faults (.branch c) s c w 0x02 0x31 0xFFFF t.toNat) ∧
    (t.toNat ≤ 0x3FFF8 → t.toNat % 8 ≠ 0 → Faults (.branch c) s c w 0x03 0x31 0xFFFF t.toNat)) ∧
  (∀ (s : State) (c : Nat) (w t : Word), Issues s c .jal w → bits w 50 40 = 0 →
    t = BitVec.ofNat 64 (s.core c).pc + sext 32 w.toNat →
    (0x3FFF8 < t.toNat → Faults (.jal c) s c w 0x02 0x31 0xFFFF t.toNat) ∧
    (t.toNat ≤ 0x3FFF8 → t.toNat % 8 ≠ 0 → Faults (.jal c) s c w 0x03 0x31 0xFFFF t.toNat)) ∧
  (∀ (s : State) (c : Nat) (w t : Word), Issues s c .jalr w → bits w 45 40 = 0 →
    t = (s.core c).rx (Ins.a w) + sext 32 w.toNat →
    (0x3FFF8 < t.toNat → Faults (.jalr c) s c w 0x02 0x31 0xFFFF t.toNat) ∧
    (t.toNat ≤ 0x3FFF8 → t.toNat % 8 ≠ 0 → Faults (.jalr c) s c w 0x03 0x31 0xFFFF t.toNat))

/-- VSETVL sets VTYPE.EW and VL = min(x[XA], VLMAX) and writes VL to XD (R141). The element-wise integer, logic, shift,
permute, slide-down, broadcast and expand instructions write vd by the masks and the policy, with the flags of their active
elements merged into FFLAGS (R142, R145, R148 to R150, R166, R168, R171). -/
def Obligations.VectorIntCompletes : Prop :=
  (∀ (s : State) (c : Nat) (w : Word), Issues s c .vsetvl w → (s.core c).vstart = 0 → bits w 1 0 ≠ 3 → bits w 45 2 = 0 →
    let vl := min ((s.core c).rx (Ins.a w)).toNat (2048 / ewBits (bits w 1 0))
    Completes (.vsetvl c) s c (({ s.core c with vtype := bits w 1 0, vl := vl } : Core).wx (Ins.d w) (BitVec.ofNat 64 vl))
      ((s.core c).pc + 8)) ∧
  (∀ (s : State) (c : Nat) (w : Word), Issues s c .vaddVsubVmul w → (s.core c).vstart = 0 → maskPolicy w = true →
    bits w 40 36 = 0 → bits w 30 27 = 0 → bits w 25 16 = 0 → bits w 7 2 = 0 → bits w 1 0 ≠ 3 →
    (2 < Ins.fnV w → bits w 1 0 = 0) →
    Completes (.vaddVsubVmul c) s c ((s.core c).lanes (Ins.d w) (Ins.msel w) (Ins.pol w) fun i =>
      intElem (s.core c).ew (Ins.fnV w) (bits w 1 0) ((s.core c).elem (Ins.a w) (s.core c).ew i) (operandB (s.core c) w i))
      ((s.core c).pc + 8)) ∧
  (∀ (s : State) (c : Nat) (w : Word), Issues s c .vandVorVxor w → (s.core c).vstart = 0 → maskPolicy w = true →
    bits w 40 36 = 0 → bits w 30 27 = 0 → bits w 25 16 = 0 → bits w 7 0 = 0 →
    Completes (.vandVorVxor c) s c ((s.core c).lanes (Ins.d w) (Ins.msel w) (Ins.pol w) fun i =>
      ⟨logicElem (s.core c).ew (Ins.fnV w) ((s.core c).elem (Ins.a w) (s.core c).ew i) (operandB (s.core c) w i), {}⟩)
      ((s.core c).pc + 8)) ∧
  (∀ (s : State) (c : Nat) (w : Word), Issues s c .vshift w → (s.core c).vstart = 0 → maskPolicy w = true →
    bits w 40 36 = 0 → bits w 30 27 = 0 → bits w 25 16 = 0 → bits w 7 0 = 0 →
    Completes (.vshift c) s c ((s.core c).lanes (Ins.d w) (Ins.msel w) (Ins.pol w) fun i =>
      ⟨shiftElem (s.core c).ew (Ins.fnV w) ((s.core c).elem (Ins.a w) (s.core c).ew i) (operandB (s.core c) w i), {}⟩)
      ((s.core c).pc + 8)) ∧
  (∀ (s : State) (c : Nat) (w : Word), Issues s c .vperm w → (s.core c).vstart = 0 → maskPolicy w = true →
    bits w 40 36 = 0 → bits w 30 16 = 0 → bits w 7 0 = 0 →
    Completes (.vperm c) s c ((s.core c).lanes (Ins.d w) (Ins.msel w) (Ins.pol w) fun i =>
      let j := (s.core c).elem (Ins.b w) (s.core c).ew i;
      ⟨if j < (s.core c).vlmax then (s.core c).elem (Ins.a w) (s.core c).ew j else 0, {}⟩)
      ((s.core c).pc + 8)) ∧
  (∀ (s : State) (c n : Nat) (w : Word), Issues s c .vslide w → (s.core c).vstart = 0 → maskPolicy w = true →
    bits w 40 36 = 0 → bits w 30 27 = 0 → bits w 25 16 = 0 → immOrX (s.core c) w = some n → Ins.fnV w = 2 →
    Completes (.vslide c) s c ((s.core c).lanes (Ins.d w) (Ins.msel w) (Ins.pol w) fun i =>
      ⟨if i + n < (s.core c).vl then (s.core c).elem (Ins.a w) (s.core c).ew (i + n) else 0, {}⟩) ((s.core c).pc + 8)) ∧
  (∀ (s : State) (c : Nat) (w : Word), Issues s c .vbcast w → (s.core c).vstart = 0 → maskPolicy w = true →
    bits w 40 36 = 0 → bits w 30 27 = 0 → bits w 25 16 = 0 → Ins.vs w = true → Ins.a w = 0 → Ins.imm8 w = 0 →
    Completes (.vbcast c) s c ((s.core c).lanes (Ins.d w) (Ins.msel w) (Ins.pol w) fun _ =>
      ⟨((s.core c).rx (Ins.b w)).toNat % 2 ^ (s.core c).ew, {}⟩) ((s.core c).pc + 8)) ∧
  (∀ (s : State) (c : Nat) (w : Word), Issues s c .vbcast w → (s.core c).vstart = 0 → maskPolicy w = true →
    bits w 40 36 = 0 → bits w 30 27 = 0 → bits w 25 16 = 0 → Ins.vs w = false → Ins.b w = 0 →
    Completes (.vbcast c) s c ((s.core c).lanes (Ins.d w) (Ins.msel w) (Ins.pol w) fun _ =>
      ⟨if Ins.imm8 w < (s.core c).vlmax then (s.core c).elem (Ins.a w) (s.core c).ew (Ins.imm8 w) else 0, {}⟩)
      ((s.core c).pc + 8)) ∧
  (∀ (s : State) (c : Nat) (w : Word), Issues s c .expand w → (s.core c).vstart = 0 → 8 ≤ Ins.msel w →
    bits w 45 36 = 0 → bits w 30 16 = 0 → bits w 7 0 = 0 →
    Completes (.expand c) s c ((s.core c).lanes (Ins.d w) (Ins.msel w) (Ins.pol w) fun i =>
      ⟨(s.core c).elem (Ins.a w) (s.core c).ew ((s.core c).activeIdx i (Ins.msel w)).length, {}⟩) ((s.core c).pc + 8))

/-- VCMP and VFCMP write one mask bit per element and set no flag, KLOGIC writes all 256 bits of kd (R147, R151, R192). -/
def Obligations.MaskCompletes : Prop :=
  (∀ (s : State) (c : Nat) (w : Word), Issues s c .vcmp w → (s.core c).vstart = 0 → maskPolicy w = true →
    bits w 55 54 = 0 → bits w 40 36 = 0 → bits w 30 27 = 0 → bits w 25 16 = 0 → bits w 7 1 = 0 →
    Completes (.vcmp c) s c ((s.core c).wk (Ins.d w) ((s.core c).mapK (Ins.d w) (s.core c).vl (Ins.msel w) (Ins.pol w) fun i =>
      if bit w 0 then intCompare (Ins.fnV w) ((s.core c).elem (Ins.a w) (s.core c).ew i) (operandB (s.core c) w i)
      else intCompare (Ins.fnV w) (signed (s.core c).ew ((s.core c).elem (Ins.a w) (s.core c).ew i))
        (signed (s.core c).ew (operandB (s.core c) w i)))) ((s.core c).pc + 8)) ∧
  (∀ (s : State) (c : Nat) (w : Word) (f : Fmt), Issues s c .vfcmp w → vecFmt (s.core c) w = some f →
    (s.core c).vstart = 0 → maskPolicy w = true →
    bits w 55 54 = 0 → bits w 40 36 = 0 → bits w 30 27 = 0 → bits w 20 16 = 0 → bits w 7 0 = 0 →
    Completes (.vfcmp c) s c ((s.core c).wk (Ins.d w) ((s.core c).mapK (Ins.d w) (s.core c).vl (Ins.msel w) (Ins.pol w) fun i =>
      fpCompare (Ins.fnV w) (f.decode ((s.core c).elem (Ins.a w) (s.core c).ew i)) (f.decode (operandB (s.core c) w i))))
      ((s.core c).pc + 8)) ∧
  (∀ (s : State) (c : Nat) (w : Word), Issues s c .klogic w → (s.core c).vstart = 0 → maskNone w = true →
    bits w 55 54 = 0 → bits w 50 49 = 0 → bits w 45 44 = 0 → bits w 40 36 = 0 → bits w 30 16 = 0 → bits w 7 0 = 0 →
    (Ins.fnV w = 4 → Ins.b w = 0) →
    Completes (.klogic c) s c ((s.core c).wk (Ins.d w) (kOp (Ins.fnV w) ((s.core c).rk (Ins.a w)) ((s.core c).rk (Ins.b w))))
      ((s.core c).pc + 8))

/-- The floating-point instructions round each active element once and merge their flags; SR counts SRSEQ (R53, R152, R153,
R157 to R159, R171). -/
def Obligations.VectorFloatCompletes : Prop :=
  (∀ (s : State) (c : Nat) (w : Word) (f : Fmt) (m : Rnd), Issues s c .vfaddVfsubVfmulVfma w →
    vecFmt (s.core c) w = some f → Rnd.ofField (Ins.rnd w) = some m → (s.core c).vstart = 0 → maskPolicy w = true →
    (Ins.fnV w ≠ 3 → Ins.c w = 0) → bits w 27 27 = 0 → bits w 20 16 = 0 → bits w 7 0 = 0 →
    Completes (.vfaddVfsubVfmulVfma c) s c (((s.core c).advanceSr m).lanes (Ins.d w) (Ins.msel w) (Ins.pol w) fun i =>
      fpElem f (Ins.fnV w) m ((s.core c).srBits i) (f.decode ((s.core c).elem (Ins.a w) (s.core c).ew i))
        (f.decode (operandB (s.core c) w i)) (f.decode ((s.core c).elem (Ins.c w) (s.core c).ew i))) ((s.core c).pc + 8)) ∧
  (∀ (s : State) (c : Nat) (w : Word) (f : Fmt), Issues s c .vfminVfmax w → vecFmt (s.core c) w = some f →
    (s.core c).vstart = 0 → maskPolicy w = true → bits w 40 36 = 0 → bits w 30 27 = 0 → bits w 20 16 = 0 → bits w 7 0 = 0 →
    Completes (.vfminVfmax c) s c ((s.core c).lanes (Ins.d w) (Ins.msel w) (Ins.pol w) fun i =>
      fpCopy f (FVal.minmax (Ins.fnV w = 5) (f.decode ((s.core c).elem (Ins.a w) (s.core c).ew i))
        (f.decode (operandB (s.core c) w i)))) ((s.core c).pc + 8)) ∧
  (∀ (s : State) (c : Nat) (w : Word) (f : Fmt), Issues s c .vapprox w → vecFmt (s.core c) w = some f →
    (s.core c).vstart = 0 → maskPolicy w = true → bits w 45 36 = 0 → bits w 30 26 = 0 → bits w 20 16 = 0 → bits w 7 0 = 0 →
    Completes (.vapprox c) s c ((s.core c).lanes (Ins.d w) (Ins.msel w) (Ins.pol w) fun i =>
      approxElem f (approxOf (Ins.fnV w)) (f.decode ((s.core c).elem (Ins.a w) (s.core c).ew i))) ((s.core c).pc + 8)) ∧
  (∀ (s : State) (c : Nat) (w : Word) (m : Rnd), Issues s c .vcvt w → Rnd.ofField (Ins.rnd w) = some m →
    (s.core c).vstart = 0 → maskPolicy w = true → bits w 45 36 = 0 → bits w 26 26 = 0 → bits w 7 3 = 0 →
    cvtCode (Ins.fs w) = true → cvtCode (Ins.fd w) = true → Ins.fs w ≠ Ins.fd w →
    ((intOfCode (Ins.fs w)).isSome → intOfCode (Ins.fd w) = none) → (codeWidth (Ins.fd w) = 4 → m ≠ .sr) →
    codeWidth (Ins.fs w) < codeWidth (Ins.fd w) →
    bits w 2 0 < codeWidth (Ins.fd w) / codeWidth (Ins.fs w) →
    ∃ k', Completes (.vcvt c) s c k' ((s.core c).pc + 8) ∧ k'.rv (Ins.d w) = packV (codeWidth (Ins.fd w))
      ((List.range (2048 / codeWidth (Ins.fd w))).map fun j =>
        let n := min (s.core c).vl (2048 / codeWidth (Ins.fd w));
        if n ≤ j then (s.core c).elem (Ins.d w) (codeWidth (Ins.fd w)) j
        else if (s.core c).active (Ins.msel w) j then
          (encodeCode (Ins.fd w) m (Ins.sat w) ((s.core c).srBits j) (decodeCode (Ins.fs w) ((s.core c).elem (Ins.a w)
            (codeWidth (Ins.fs w)) (bits w 2 0 * (2048 / codeWidth (Ins.fd w)) + j)))).code
        else if Ins.pol w then 0 else (s.core c).elem (Ins.d w) (codeWidth (Ins.fd w)) j)
      ∧ (∀ r, r ≠ Ins.d w → k'.rv r = (s.core c).rv r) ∧ k'.x = (s.core c).x ∧ k'.k = (s.core c).k ∧ k'.acc = (s.core c).acc)

/-- The quantisations write the codes of their blocks to segment SEG of vd and the side entries to vside, merge their flags and
count SRSEQ under SR (R40, R45, R46, R53, R160, R161); VQ.G8L also writes its residuals to the lees register (R47, R162); VDQ
writes VLMAX values of vd (R163). -/
def Obligations.QuantCompletes : Prop :=
  (∀ (s : State) (c : Nat) (w : Word) (m : Rnd), Issues s c .vqMx w → Rnd.ofField (Ins.rnd w) = some m →
    quantOk (s.core c) w ([0x01, 0x02, 0x03, 0x04, 0x08].contains (Ins.fd w)) = true → Ins.c w = 0 →
    (Ins.fd w = 0x08 → m ≠ .sr) →
    Completes (.vqMx c) s c ((s.core c).quantised w m (quantKind 0 (Ins.fd w))) ((s.core c).pc + 8)) ∧
  (∀ (s : State) (c : Nat) (w : Word) (m : Rnd), Issues s c .vqTs4 w → Rnd.ofField (Ins.rnd w) = some m →
    quantOk (s.core c) w (Ins.fd w = 0x09) = true → Ins.c w = 0 → m ≠ .sr →
    Completes (.vqTs4 c) s c ((s.core c).quantised w m .ts4) ((s.core c).pc + 8)) ∧
  (∀ (s : State) (c : Nat) (w : Word) (m : Rnd), Issues s c .vqG8 w → Rnd.ofField (Ins.rnd w) = some m →
    quantOk (s.core c) w (Ins.fd w = 0x01) = true → Ins.c w = 0 → (m = .rne ∨ m = .sr) →
    Completes (.vqG8 c) s c ((s.core c).quantised w m .g8) ((s.core c).pc + 8)) ∧
  (∀ (s : State) (c : Nat) (w : Word) (m : Rnd), Issues s c .vqG8l w → Rnd.ofField (Ins.rnd w) = some m →
    quantOk (s.core c) w (Ins.fd w = 0x01) = true → Ins.fs w = 0x12 → (m = .rne ∨ m = .sr) →
    Ins.c w ≠ Ins.d w → Ins.c w ≠ Ins.b w →
    Completes (.vqG8l c) s c ((s.core c).g8l w m) ((s.core c).pc + 8)) ∧
  (∀ (s : State) (c : Nat) (w : Word) (m : Rnd), Issues s c .vdq w → Rnd.ofField (Ins.rnd w) = some m →
    (s.core c).vstart = 0 → maskNone w = true → bits w 40 36 = 0 → bits w 27 26 = 0 → bits w 7 3 = 0 →
    Ins.fs w ∈ [0x01, 0x02, 0x03, 0x04, 0x08] → Ins.fd w ∈ [0x10, 0x11, 0x12] →
    bits w 2 0 < 2048 / (2048 / codeWidth (Ins.fd w) * codeWidth (Ins.fs w)) →
    ∃ k', Completes (.vdq c) s c k' ((s.core c).pc + 8)
      ∧ k'.rv (Ins.d w) = packV (codeWidth (Ins.fd w)) ((List.range (2048 / codeWidth (Ins.fd w))).map fun i =>
          let n := 2048 / codeWidth (Ins.fd w);
          let at_ := (bits w 2 0 * (n / 32) + i / 32) * 8;
          (encodeCode (Ins.fd w) m false ((s.core c).srBits i) (scaledVal (quantFmt (Ins.fs w))
            (natBits ((s.core c).rv (Ins.b w)).toNat (at_ + 8 - 1) at_ % 256) 0
            ((s.core c).elem (Ins.a w) (codeWidth (Ins.fs w)) (bits w 2 0 * n + i) % 2 ^ (quantFmt (Ins.fs w)).width))).code)
      ∧ (∀ r, r ≠ Ins.d w → k'.rv r = (s.core c).rv r) ∧ k'.x = (s.core c).x ∧ k'.k = (s.core c).k ∧ k'.acc = (s.core c).acc)

/-- VRED, VEXT, COMPRESS, MASK_SUMMARY, MAXIDX and MINIDX, and VSLIDE.UP write their one result register (R164 to R170). -/
def Obligations.PermuteCompletes : Prop :=
  (∀ (s : State) (c : Nat) (w : Word), Issues s c .vred w → (s.core c).vstart = 0 → maskSelects w = true →
    bits w 45 36 = 0 → bits w 27 26 = 0 → bits w 20 16 = 0 → bits w 7 2 = 0 → bits w 1 0 < 2 → Ins.fs w = 0 → Ins.rnd w = 0 →
    Completes (.vred c) s c ((s.core c).writeLow (Ins.d w) (redInt (s.core c) w (bits w 1 0 = 0)).1
      (redInt (s.core c) w (bits w 1 0 = 0)).2) ((s.core c).pc + 8)) ∧
  (∀ (s : State) (c : Nat) (w : Word) (f : Fmt) (m : Rnd), Issues s c .vred w → (s.core c).vstart = 0 →
    maskSelects w = true → bits w 45 36 = 0 → bits w 27 26 = 0 → bits w 20 16 = 0 → bits w 7 2 = 0 → bits w 1 0 = 2 →
    vecFmt (s.core c) w = some f → Rnd.ofField (Ins.rnd w) = some m → Ins.fnV w = 0 → m ≠ .sr →
    Completes (.vred c) s c (((s.core c).writeLow (Ins.d w) 32 (redSum (s.core c) w f m).code).raise
      (redSum (s.core c) w f m).flags) ((s.core c).pc + 8)) ∧
  (∀ (s : State) (c n : Nat) (w : Word), Issues s c .vslide w → (s.core c).vstart = 0 → maskPolicy w = true →
    bits w 40 36 = 0 → bits w 30 27 = 0 → bits w 25 16 = 0 → immOrX (s.core c) w = some n → Ins.fnV w = 1 →
    Completes (.vslide c) s c ((s.core c).wv (Ins.d w) (packV (s.core c).ew ((List.range (s.core c).vlmax).map fun i =>
      if (s.core c).vl ≤ i ∨ i < n then (s.core c).elem (Ins.d w) (s.core c).ew i
      else if (s.core c).active (Ins.msel w) i then (s.core c).elem (Ins.a w) (s.core c).ew (i - n)
      else if Ins.pol w then 0 else (s.core c).elem (Ins.d w) (s.core c).ew i))) ((s.core c).pc + 8)) ∧
  (∀ (s : State) (c j : Nat) (w : Word), Issues s c .vext w → immOrX (s.core c) w = some j → (s.core c).vstart = 0 →
    maskNone w = true → bits w 40 36 = 0 → bits w 30 27 = 0 → bits w 25 16 = 0 →
    Completes (.vext c) s c ((s.core c).wx (Ins.d w) (BitVec.ofNat 64
      (if j < (s.core c).vlmax then (s.core c).elem (Ins.a w) (s.core c).ew j else 0))) ((s.core c).pc + 8)) ∧
  (∀ (s : State) (c : Nat) (w : Word), Issues s c .compress w → (s.core c).vstart = 0 → 8 ≤ Ins.msel w →
    bits w 45 36 = 0 → bits w 30 16 = 0 → bits w 7 0 = 0 →
    Completes (.compress c) s c ((s.core c).wv (Ins.d w) (packV (s.core c).ew ((List.range (s.core c).vlmax).map fun i =>
      ((((s.core c).activeIdx (s.core c).vl (Ins.msel w)).map fun j => (s.core c).elem (Ins.a w) (s.core c).ew j)[i]?).getD
        (if i < (s.core c).vl && Ins.pol w then 0 else (s.core c).elem (Ins.d w) (s.core c).ew i))))
      ((s.core c).pc + 8)) ∧
  (∀ (s : State) (c : Nat) (w : Word), Issues s c .maskSummary w → (s.core c).vstart = 0 → 8 ≤ Ins.msel w →
    Ins.pol w = false → bits w 50 36 = 0 → bits w 30 16 = 0 → bits w 7 0 = 0 →
    Completes (.maskSummary c) s c ((s.core c).wx (Ins.d w)
      (maskSummary (Ins.fnV w) (s.core c).vl ((s.core c).rk (Ins.msel w % 8)).toNat)) ((s.core c).pc + 8)) ∧
  (∀ (s : State) (c : Nat) (w : Word), Issues s c .maxidxMinidx w → (s.core c).vstart = 0 → maskSelects w = true →
    bits w 45 36 = 0 → bits w 30 26 = 0 → bits w 20 16 = 0 → bits w 7 2 = 0 → bits w 1 0 ≠ 3 →
    (bits w 1 0 < 2 → Ins.fs w = 0) → (bits w 1 0 = 2 → (vecFmt (s.core c) w).isSome) →
    ∃ v, Completes (.maxidxMinidx c) s c ((s.core c).wx (Ins.d w) v) ((s.core c).pc + 8)
      ∧ (v = BitVec.allOnes 64 ∨ ∃ i, v = BitVec.ofNat 64 i ∧ i < (s.core c).vl ∧ (s.core c).active (Ins.msel w) i = true))

/-- An MMA of any shape that passes its checks enters the matrix queue with its operands (R95, R108, R112, R113, R116, R125,
R128, R129). MLW starts a weight-bank load (R124, R125); MSW on an empty queue moves ACTIVE of each named array to its other
bank, and otherwise queues behind the MMAs (R127); MRD converts 64 values of an accumulator row into part P of vd, and with CLR
zeroes the row (R121, R196). -/
def Obligations.MatrixCompletes : Prop :=
  (let queued := fun (i : Instr) (row : CoreRow) (sh : Shape) (s : State) (c : Nat) =>
    ∀ w : Word, Issues s c row w → (s.core c).mq.length < 4 →
      ((arraysOf sh w).any fun a => (s.core c).banksLoading.contains (bankKey a ((s.core c).bankAfter (s.core c).mq a))) = false →
      (mmaRanges w ((s.core c).rx (Ins.d w)) ((s.core c).rx (Ins.a w)) 0).any (s.core c).readHeld = false →
      mmaCheck s c (s.core c) (s.core c).mq sh w ((s.core c).rx (Ins.d w)) ((s.core c).rx (Ins.a w)) = none →
      Completes i s c ((s.core c).enqueue w ((s.core c).rx (Ins.d w)) ((s.core c).rx (Ins.a w))) ((s.core c).pc + 8)
  ∀ (s : State) (c : Nat),
    queued (.mmaK16n128 c) .mmaK16n128 .k16n128 s c ∧ queued (.mmaK16n128T c) .mmaK16n128T .k16n128t s c ∧
    queued (.mmaK32n64 c) .mmaK32n64 .k32n64 s c ∧ queued (.mmaK16n64 c) .mmaK16n64 .k16n64 s c ∧
    queued (.mmaK8n64 c) .mmaK8n64 .k8n64 s c ∧ queued (.mmaK16n32 c) .mmaK16n32 .k16n32 s c) ∧
  (∀ (s : State) (c : Nat) (w : Word), Issues s c .mlw w →
    (mlwBanks w).any (s.core c).banksInUse.contains = false → (mlwBanks w).any (s.core c).banksLoading.contains = false →
    (mlwRanges w ((s.core c).rx (Ins.d w)) ((s.core c).rx (Ins.a w))).any (s.core c).readHeld = false →
    mlwOk w ((s.core c).rx (Ins.a w)) = true →
    lsCheckAll (mlwRanges w ((s.core c).rx (Ins.d w)) ((s.core c).rx (Ins.a w))) = none →
    Completes (.mlw c) s c { s.core c with loads := (s.core c).loads ++
      [⟨w, (s.core c).rx (Ins.d w), (s.core c).rx (Ins.a w), (s.core c).pc⟩] } ((s.core c).pc + 8)) ∧
  (∀ (s : State) (c : Nat) (w : Word), Issues s c .msw w → amask w ≠ 0 → bits w 55 34 = 0 → bits w 31 0 = 0 →
    (s.core c).mq = [] →
    ∃ k', Completes (.msw c) s c k' ((s.core c).pc + 8) ∧ k'.acc = (s.core c).acc ∧ k'.v = (s.core c).v ∧
      ∀ a, a < 2 → k'.activeBank a = if (amask w).testBit a then 1 - (s.core c).activeBank a else (s.core c).activeBank a) ∧
  (∀ (s : State) (c : Nat) (w : Word), Issues s c .msw w → amask w ≠ 0 → bits w 55 34 = 0 → bits w 31 0 = 0 →
    (s.core c).mq ≠ [] → (s.core c).mq.length < 4 →
    Completes (.msw c) s c ((s.core c).enqueue w 0 0) ((s.core c).pc + 8)) ∧
  (∀ (s : State) (c row : Nat) (w : Word) (m : Rnd), Issues s c .mrd w → Rnd.ofField (bits w 32 30) = some m →
    bits w 45 41 = 0 → bits w 26 8 = 0 → bits w 40 36 ∈ [1, 2, 3, 4, 5, 0x10, 0x11, 0x12] →
    bits w 29 27 < 32 / codeWidth (bits w 40 36) →
    row = ((s.core c).rx (Ins.a w) + BitVec.ofNat 64 (bits w 7 0)).toNat → row ≤ 255 →
    (s.core c).rowPending (bits w 35 35) row = false →
    ∃ k', Completes (.mrd c) s c k' ((s.core c).pc + 8)
      ∧ k'.rv (Ins.d w) = packV (codeWidth (bits w 40 36)) ((List.range (2048 / codeWidth (bits w 40 36))).map fun j =>
          if bits w 29 27 * 64 ≤ j ∧ j < bits w 29 27 * 64 + 64 then
            (encodeCode (bits w 40 36) m (bit w 33) ((s.core c).srBits (bits w 29 27 * 64 + (j - bits w 29 27 * 64)))
              (Fmt.fp32.decode (Machine.elem ((s.core c).accRow (accKey (bits w 35 35) row)).toNat 32
                (j - bits w 29 27 * 64)))).code
          else (s.core c).elem (Ins.d w) (codeWidth (bits w 40 36)) j)
      ∧ (∀ r, r ≠ Ins.d w → k'.rv r = (s.core c).rv r) ∧ k'.x = (s.core c).x ∧ k'.k = (s.core c).k
      ∧ k'.acc = if bit w 34 then (s.core c).acc.set (accKey (bits w 35 35) row) 0 else (s.core c).acc)


/-- LD.L writes the extended bytes at x[XA] + IMM16 of its local store to DR, ST.L writes the low bytes of DR there, VLD and VST
move the elements of a vector register; no other byte of memory, core or register changes (R81, R173, R197). An access outside
the local store faults with LS_RANGE, and a misaligned one with LS_MISALIGNED, at its address; no register and no byte is
written (R81, R93, R98). -/
def Obligations.LocalAccessCompletes : Prop :=
  (∀ (s : State) (c a n : Nat) (w : Word), Issues s c .ldL w → a = ((s.core c).rx (Ins.a w) + Ins.imm16 w).toNat →
    n = 2 ^ Ins.size w → (s.core c).readHeld (a, n) = false → bits w 45 27 = 0 → bits w 23 16 = 0 →
    a + n ≤ 0x40000 → a % n = 0 →
    Completes (.ldL c .ok) s c ((s.core c).wx (Ins.d w) (if Ins.sgn w then sext (8 * n) (s.mem.readNat (lsBase c + a) n)
      else BitVec.ofNat 64 (s.mem.readNat (lsBase c + a) n))) ((s.core c).pc + 8)) ∧
  (∀ (s : State) (c a n : Nat) (w : Word), Issues s c .stL w → a = ((s.core c).rx (Ins.a w) + Ins.imm16 w).toNat →
    n = 2 ^ Ins.size w → (s.core c).writeHeld (a, n) = false → bits w 45 27 = 0 → bits w 24 16 = 0 →
    a + n ≤ 0x40000 → a % n = 0 →
    ∃ m, CompletesMem (.stL c) s c ((s.core c).retire (s.core c) ((s.core c).pc + 8)) m ∧
      m.readBytes (lsBase c + a) n = leBytes n ((s.core c).rx (Ins.d w)).toNat ∧
      ∀ b, (b < lsBase c + a ∨ lsBase c + a + n ≤ b) → m.read b = s.mem.read b) ∧
  (∀ (s : State) (c a n : Nat) (w : Word), Issues s c .vld w → a = ((s.core c).rx (Ins.a w) + Ins.imm16 w).toNat →
    n = (s.core c).vl * (s.core c).ew / 8 → (s.core c).readHeld (a, n) = false → bits w 45 36 = 0 → bits w 30 16 = 0 →
    maskPolicy w = true → (s.core c).vstart = 0 → a < 0x40000 → a + n ≤ 0x40000 → a % 32 = 0 →
    Completes (.vld c .ok) s c ((s.core c).wv (Ins.d w) ((s.core c).mapV (Ins.d w) (s.core c).ew (s.core c).vl (Ins.msel w)
      (Ins.pol w) fun i => elem (s.mem.readNat (lsBase c + a) n) (s.core c).ew i)) ((s.core c).pc + 8)) ∧
  (∀ (s : State) (c a n : Nat) (w : Word), Issues s c .vst w → a = ((s.core c).rx (Ins.a w) + Ins.imm16 w).toNat →
    n = (s.core c).vl * (s.core c).ew / 8 → (s.core c).writeHeld (a, n) = false → bits w 45 36 = 0 → bits w 30 16 = 0 →
    maskSelects w = true → (s.core c).vstart = 0 → (s.core c).vl ≤ (s.core c).vlmax → a < 0x40000 → a + n ≤ 0x40000 →
    a % 32 = 0 →
    ∃ m, CompletesMem (.vst c) s c ((s.core c).retire (s.core c) ((s.core c).pc + 8)) m ∧
      (∀ i, i < (s.core c).vl → m.readNat (lsBase c + a + i * ((s.core c).ew / 8)) ((s.core c).ew / 8) =
        if (s.core c).active (Ins.msel w) i then (s.core c).elem (Ins.d w) (s.core c).ew i
        else s.mem.readNat (lsBase c + a + i * ((s.core c).ew / 8)) ((s.core c).ew / 8)) ∧
      ∀ b, (b < lsBase c + a ∨ lsBase c + a + n ≤ b) → m.read b = s.mem.read b) ∧
  (∀ (s : State) (c a n : Nat) (e : Ecc) (w : Word), Issues s c .ldL w → a = ((s.core c).rx (Ins.a w) + Ins.imm16 w).toNat →
    n = 2 ^ Ins.size w → (s.core c).readHeld (a, n) = false → bits w 45 27 = 0 → bits w 23 16 = 0 →
    (0x40000 < a + n → Faults (.ldL c e) s c w 0x02 0x31 0xFFFF a) ∧
    (a + n ≤ 0x40000 → a % n ≠ 0 → Faults (.ldL c e) s c w 0x03 0x31 0xFFFF a)) ∧
  (∀ (s : State) (c a n : Nat) (w : Word), Issues s c .stL w → a = ((s.core c).rx (Ins.a w) + Ins.imm16 w).toNat →
    n = 2 ^ Ins.size w → (s.core c).writeHeld (a, n) = false → bits w 45 27 = 0 → bits w 24 16 = 0 →
    (0x40000 < a + n → Faults (.stL c) s c w 0x02 0x31 0xFFFF a) ∧
    (a + n ≤ 0x40000 → a % n ≠ 0 → Faults (.stL c) s c w 0x03 0x31 0xFFFF a)) ∧
  (∀ (s : State) (c a n : Nat) (e : Ecc) (w : Word), Issues s c .vld w → a = ((s.core c).rx (Ins.a w) + Ins.imm16 w).toNat →
    n = (s.core c).vl * (s.core c).ew / 8 → (s.core c).readHeld (a, n) = false → bits w 45 36 = 0 → bits w 30 16 = 0 →
    maskPolicy w = true → (s.core c).vstart = 0 →
    (0x40000 < a + n → Faults (.vld c e) s c w 0x02 0x31 0xFFFF a) ∧
    (a < 0x40000 → a + n ≤ 0x40000 → a % 32 ≠ 0 → Faults (.vld c e) s c w 0x03 0x31 0xFFFF a)) ∧
  (∀ (s : State) (c a n : Nat) (w : Word), Issues s c .vst w → a = ((s.core c).rx (Ins.a w) + Ins.imm16 w).toNat →
    n = (s.core c).vl * (s.core c).ew / 8 → (s.core c).writeHeld (a, n) = false → bits w 45 36 = 0 → bits w 30 16 = 0 →
    maskSelects w = true → (s.core c).vstart = 0 →
    (0x40000 < a + n → Faults (.vst c) s c w 0x02 0x31 0xFFFF a) ∧
    (a < 0x40000 → a + n ≤ 0x40000 → a % 32 ≠ 0 → Faults (.vst c) s c w 0x03 0x31 0xFFFF a))

/-- LD.G, ST.G, AMO.G, GATHER.G and SCATTER.G present their access and hold the core's issue, with PC at the instruction
(R80, R175, R197, R201). The access of a gather or scatter is that of its first active element from VSTART on (R176). -/
def Obligations.GlobalAccessCompletes : Prop :=
  (∀ (s : State) (c va : Nat) (w : Word), Issues s c .ldG w → va = ((s.core c).rx (Ins.a w) + Ins.imm16 w).toNat →
    bits w 45 31 = 0 → bits w 28 27 = 0 → bits w 23 16 = 0 → va % 2 ^ Ins.size w = 0 →
    Completes (.ldG c) s c { s.core c with wait := .access w va 0 false } (s.core c).pc) ∧
  (∀ (s : State) (c va : Nat) (w : Word), Issues s c .stG w → va = ((s.core c).rx (Ins.a w) + Ins.imm16 w).toNat →
    bits w 45 31 = 0 → bits w 28 27 = 0 → bits w 24 16 = 0 → va % 2 ^ Ins.size w = 0 →
    Completes (.stG c) s c { s.core c with wait := .access w va 0 false } (s.core c).pc) ∧
  (∀ (s : State) (c va : Nat) (w : Word), Issues s c .amoG w → va = ((s.core c).rx (Ins.a w)).toNat →
    (Ins.aop w ≠ 9 → bits w 40 36 = 0) → bits w 35 31 = 0 → bits w 28 27 = 0 → bits w 24 20 = 0 → bits w 15 0 = 0 →
    2 ≤ Ins.size w → Ins.aop w ≤ 9 → va % 2 ^ Ins.size w = 0 →
    Completes (.amoG c) s c { s.core c with wait := .access w va 0 false } (s.core c).pc) ∧
  (∀ (s : State) (c va : Nat) (w : Word), Issues s c .gatherG w → bits w 40 36 = 0 → bits w 26 0 = 0 → maskPolicy w = true →
    (s.core c).vl ≤ 32 → Ins.d w ≠ Ins.b w → (s.core c).vstart < (s.core c).vl →
    (s.core c).active (Ins.msel w) (s.core c).vstart = true → va = elemAddr (s.core c) w (s.core c).vstart →
    va % ((s.core c).ew / 8) = 0 →
    Completes (.gatherG c) s c { s.core c with wait := .access w va (s.core c).vstart false } (s.core c).pc) ∧
  (∀ (s : State) (c va : Nat) (w : Word), Issues s c .scatterG w → bits w 40 36 = 0 → bits w 26 0 = 0 → maskSelects w = true →
    (s.core c).vl ≤ 32 → (s.core c).vstart < (s.core c).vl →
    (s.core c).active (Ins.msel w) (s.core c).vstart = true → va = elemAddr (s.core c) w (s.core c).vstart →
    va % ((s.core c).ew / 8) = 0 →
    Completes (.scatterG c) s c { s.core c with wait := .access w va (s.core c).vstart false } (s.core c).pc)

/-- XFER.L, XFER.S, SEND, SEND.H and ARM set token TK to the record of Table 3-5, and RECV does so and takes the units that its
port holds (R79, R198, R199, R202 to R205). -/
def Obligations.TokenCompletes : Prop :=
  (∀ (s : State) (c : Nat) (w r : Word), Issues s c .xferL w → r = (s.core c).rx (Ins.b w) →
    (s.core c).tokenBusy (Ins.tk w) = false → (s.core c).writeHeld (rangeAddr r, rangeLen r) = false →
    bits w 55 51 = 0 → bits w 40 31 = 0 → bits w 28 24 = 0 → bits w 19 0 = 0 → rangeOk r = true →
    rangeAddr r + rangeLen r ≤ 0x40000 → rangeAddr r % 32 = 0 → ((s.core c).rx (Ins.a w)).toNat % 32 = 0 →
    Completes (.xferL c) s c ((s.core c).startToken (Ins.tk w) 1 r ((s.core c).rx (Ins.a w)).toNat 0 0) ((s.core c).pc + 8)) ∧
  (∀ (s : State) (c : Nat) (w r : Word), Issues s c .xferS w → r = (s.core c).rx (Ins.b w) →
    (s.core c).tokenBusy (Ins.tk w) = false → (s.core c).readHeld (rangeAddr r, rangeLen r) = false →
    bits w 55 51 = 0 → bits w 40 31 = 0 → bits w 28 24 = 0 → bits w 19 0 = 0 → rangeOk r = true →
    rangeAddr r + rangeLen r ≤ 0x40000 → rangeAddr r % 32 = 0 → ((s.core c).rx (Ins.a w)).toNat % 32 = 0 →
    Completes (.xferS c) s c ((s.core c).startToken (Ins.tk w) 2 r ((s.core c).rx (Ins.a w)).toNat 0 0) ((s.core c).pc + 8)) ∧
  (∀ (s : State) (c : Nat) (w r : Word), Issues s c .send w → r = (s.core c).rx (Ins.a w) →
    (s.core c).tokenBusy (Ins.tkT w) = false → (s.core c).readHeld (rangeAddr r, rangeLen r) = false →
    streamEncOk w = true → rangeOk r = true → rangeAddr r + rangeLen r ≤ 0x40000 → rangeAddr r % 32 = 0 →
    (s.neighbour c (Ins.port w)).isSome →
    Completes (.send c) s c ((s.core c).startToken (Ins.tkT w) 4 r 0 (Ins.port w) 0) ((s.core c).pc + 8)) ∧
  (∀ (s : State) (c : Nat) (w r : Word), Issues s c .recv w → r = (s.core c).rx (Ins.a w) →
    (s.core c).tokenBusy (Ins.tkT w) = false → (s.core c).writeHeld (rangeAddr r, rangeLen r) = false →
    streamEncOk w = true → rangeOk r = true → rangeAddr r + rangeLen r ≤ 0x40000 → rangeAddr r % 32 = 0 →
    (s.neighbour c (Ins.port w)).isSome → (s.core c).fifo.get [] (Ins.port w) = [] →
    Completes (.recv c) s c ((s.core c).startToken (Ins.tkT w) 5 r 0 (Ins.port w) 0) ((s.core c).pc + 8)) ∧
  (∀ (s : State) (c : Nat) (w r d : Word), Issues s c .sendH w → r = (s.core c).rx (Ins.a w) → d = (s.core c).rx (Ins.b w) →
    (s.core c).tokenBusy (Ins.tkT w) = false → (s.core c).readHeld (rangeAddr r, rangeLen r) = false →
    bits w 55 51 = 0 → bits w 36 0 = 0 → rangeOk r = true → destOk d = true →
    rangeAddr r + rangeLen r ≤ 0x40000 → rangeAddr r % 32 = 0 → Dest.lsaddr d + rangeLen r ≤ 0x40000 → Dest.lsaddr d % 32 = 0 →
    Completes (.sendH c) s c ((s.core c).startToken (Ins.tkT w) 4 r 0 0 d) ((s.core c).pc + 8)) ∧
  (∀ (s : State) (c : Nat) (w r : Word), Issues s c .arm w → r = (s.core c).rx (Ins.a w) →
    (s.core c).tokenBusy (Ins.tkT w) = false → (s.core c).writeHeld (rangeAddr r, rangeLen r) = false →
    bits w 55 51 = 0 → bits w 45 41 = 0 → bits w 36 0 = 0 → rangeOk r = true →
    rangeAddr r + rangeLen r ≤ 0x40000 → rangeAddr r % 32 = 0 →
    Completes (.arm c) s c ((s.core c).startToken (Ins.tkT w) 3 r 0 0 0) ((s.core c).pc + 8))

/-- NOP and TWAIT with idle tokens only move PC, BAR arrives at its barrier and holds issue at its address, SYNC.I discards the
instruction buffer, CRD reads a control register of Table 6-17 into XD, CWR writes FFLAGS, SRKEY with SRSEQ zeroed, or VSTART
(R53, R86, R207 to R209). EVT posts an event with CODE 0x8000 + CODE and PAYLOAD x[XA] from the page of its compute die when
class 9 is enabled there (R212, R556); END, once the matrix queue, the weight loads and the tokens are idle, ends the core's
program (R211), here of a core whose task has other cores that still run. -/
def Obligations.ControlCompletes : Prop :=
  (∀ (s : State) (c : Nat) (w : Word), Issues s c .nop w → bits w 55 0 = 0 →
    Completes (.nop c) s c (s.core c) ((s.core c).pc + 8)) ∧
  (∀ (s : State) (c : Nat) (w : Word), Issues s c .bar w → bits w 55 5 = 0 →
    (∀ t ∈ (s.core c).tokens, t.2.kind ≠ 2 ∧ ¬ (t.2.kind = 4 ∧ t.2.port = 0)) →
    Completes (.bar c) s c { s.core c with wait := .barrier (bits w 3 0) (bit w 4) } (s.core c).pc) ∧
  (∀ (s : State) (c : Nat) (w : Word), Issues s c .twait w → bits w 55 16 = 0 → bits w 15 0 ≠ 0 →
    (s.core c).tokensIdle (bits w 15 0) = true → Completes (.twait c) s c (s.core c) ((s.core c).pc + 8)) ∧
  (∀ (s : State) (c : Nat) (w : Word), Issues s c .syncI w → bits w 55 0 = 0 →
    (∀ t ∈ (s.core c).tokens, t.2.kind ≠ 1 ∧ t.2.kind ≠ 5) →
    Completes (.syncI c) s c { s.core c with ibuf := [] } ((s.core c).pc + 8)) ∧
  (∀ (s : State) (c : Nat) (w v : Word), Issues s c .crd w → bits w 50 8 = 0 →
    s.controlReg c (s.core c) (bits w 7 0) = some v →
    Completes (.crd c) s c ((s.core c).wx (Ins.d w) v) ((s.core c).pc + 8)) ∧
  (∀ (s : State) (c : Nat) (w : Word), Issues s c .cwr w → bits w 55 51 = 0 → bits w 45 8 = 0 →
    (bits w 7 0 = 0 → Completes (.cwr c) s c { s.core c with fflags := fflagsOf ((s.core c).rx (Ins.a w)) }
      ((s.core c).pc + 8)) ∧
    (bits w 7 0 = 1 → Completes (.cwr c) s c { s.core c with srkey := (s.core c).rx (Ins.a w), srseq := 0 }
      ((s.core c).pc + 8)) ∧
    (bits w 7 0 = 5 → Completes (.cwr c) s c { s.core c with vstart := bits ((s.core c).rx (Ins.a w)) 4 0 }
      ((s.core c).pc + 8))) ∧
  (∀ (s : State) (c : Nat) (w : Word), Issues s c .evt w → bits w 55 51 = 0 → bits w 45 15 = 0 →
    bit (s.reg (corePage c) Reg.EV_ENABLE) 9 = true →
    ∃ t e, exec (.evt c) s = .next t ∧ t.events = s.events ++ [e] ∧ e.page = corePage c ∧
      e.code = 0x8000 + bits w 14 0 ∧ e.payload = (s.core c).rx (Ins.a w) ∧ e.part = s.corePart c ∧
      t.core c = (s.core c).retire (s.core c) ((s.core c).pc + 8) ∧ (∀ d, d ≠ c → t.core d = s.core d) ∧ t.mem = s.mem) ∧
  (∀ (s : State) (c : Nat) (w : Word), Issues s c .endProg w → bits w 55 0 = 0 → (s.core c).mq = [] → (s.core c).loads = [] →
    (s.core c).tokensIdle 0xFFFF = true →
    (∀ k x, s.coreTask c = some (k, x) → x.status = .running →
      ∃ q ∈ x.logical, lcidOf q ≠ s.lcid c ∧ x.ended.contains (lcidOf q) = false) →
    ∃ t, exec (.endProg c) s = .next t ∧ t.core c = (s.core c).retire { s.core c with ended := true } (((s.core c).pc + 8) % 2 ^ 18) ∧
      (∀ d, d ≠ c → t.core d = s.core d) ∧ t.mem = s.mem ∧ t.regs = s.regs)


/-- A line that is fetched enters the instruction buffer (R86), the head MMA streams its rows once every array it uses carries
full current, and goes on where the row that it waits for has arrived (R94, R118, R134), and the oldest weight load fills its
banks (R124, R125); nothing else changes. An uncorrectable error in the line of PC, in a row of the head MMA or in a weight tile
stops the core with CORE_DATA (R85, R98, R100). The current keeper: a ramp gains a quarter every 16 cycles and a fall loses one
(R132 to R134); KEEP_CTL takes the gap written and EFFECTIVE_GAP follows it under the cap of Table 18-4 (R136, R544). -/
def Obligations.CoreUnitsComplete : Prop :=
  (∀ (s : State) (c line : Nat), (s.core c).status = .running → (s.core c).ended = false → line < 4096 →
    CompletesMem (.instrFetch c line .ok) s c { s.core c with
      ibuf := ((line, BitVec.ofNat 512 (s.mem.readNat (lsBase c + 64 * line) 64))
        :: (s.core c).ibuf.filter fun l => decide (l.1 ≠ line)).take 64 } s.mem) ∧
  (∀ (s : State) (c : Nat) (e : MqEntry) (q : List MqEntry), (s.core c).mq = e :: q → (s.core c).headArrays ≠ [] →
    e.started = false → (s.core c).status = .running → (s.core c).drained = false →
    (∀ a ∈ (s.core c).headArrays, (s.core c).keeper a = ⟨4, false⟩) →
    CompletesMem (.mmaStart c .ok) s c (runHead s c (s.core c)) s.mem) ∧
  (∀ (s : State) (c : Nat) (e : MqEntry) (q : List MqEntry), (s.core c).mq = e :: q → e.started = true →
    (s.core c).drained = false → (s.core c).status ≠ .faulted →
    CompletesMem (.portRowWaitEnd c) s c (runHead s c (s.core c)) s.mem) ∧
  (∀ (s : State) (c : Nat) (l : MlwLoad) (q : List MlwLoad), (s.core c).loads = l :: q →
    CompletesMem (.mlwLoadDone c .ok) s c { finishLoad s.mem c (s.core c) l with loads := q } s.mem) ∧
  (∀ (s : State) (c : Nat), (s.core c).status = .running → (s.core c).ended = false → (s.core c).pc / 64 < 4096 →
    ∃ t, exec (.instrFetch c ((s.core c).pc / 64) .uncorrectable) s = .next t ∧ (t.core c).status = .stopped ∧
      (t.core c).fault = ⟨0x07, 0x40, 0xFFFF, (s.core c).pc, 64 * ((s.core c).pc / 64), 0⟩ ∧ t.mem = s.mem ∧
      ∀ d, d ≠ c → t.core d = s.core d) ∧
  (∀ (s : State) (c : Nat) (e : MqEntry) (q : List MqEntry), (s.core c).mq = e :: q → (s.core c).headArrays ≠ [] →
    e.started = false → (s.core c).status = .running → (s.core c).drained = false →
    (∀ a ∈ (s.core c).headArrays, (s.core c).keeper a = ⟨4, false⟩) →
    ∃ t, exec (.mmaStart c .uncorrectable) s = .next t ∧ (t.core c).status = .faulted ∧
      (t.core c).fault = ⟨0x07, 0x40, 0xFFFF, e.pc, e.opa.toNat, e.instr⟩ ∧ t.mem = s.mem) ∧
  (∀ (s : State) (c : Nat) (l : MlwLoad) (q : List MlwLoad), (s.core c).loads = l :: q →
    ∃ t, exec (.mlwLoadDone c .uncorrectable) s = .next t ∧ (t.core c).status = .faulted ∧
      (t.core c).fault = ⟨0x07, 0x40, 0xFFFF, l.pc, l.opa.toNat, l.instr⟩ ∧ t.mem = s.mem) ∧
  (∀ (s : State) (c a : Nat), ((s.core c).keeper a).ramping = true → ((s.core c).keeper a).level < 3 →
    a ∈ (s.core c).headArrays →
    ∃ t, exec (.keepRampStep c a) s = .next t ∧ (t.core c).keeper a = ⟨((s.core c).keeper a).level + 1, true⟩ ∧ t.mem = s.mem) ∧
  (∀ (s : State) (c a : Nat), ((s.core c).keeper a).ramping = false → ((s.core c).keeper a).level ≠ 0 →
    ∃ t, exec (.keepLevelFall c a) s = .next t ∧ (t.core c).keeper a = ⟨((s.core c).keeper a).level - 1, false⟩ ∧
      t.mem = s.mem ∧ ∀ d, d ≠ c → t.core d = s.core d) ∧
  (∀ (s : State) (i : Ident) (st d : Nat) (v : Word), st < 72 → d < 4 → Admitted s i (Page.computeDie st d) keepCtl v →
    ∃ t, exec (.keepCtlWrite i st d v) s = .next t ∧ t.fld (Page.computeDie st d) keepCtl 7 0 = bits v 7 0 ∧
      t.fld (Page.computeDie st d) keepStat 7 0 = (if s.keeperCapped then min (bits v 7 0) 16 else bits v 7 0) ∧
      t.mem = s.mem ∧ t.cores = s.cores)

/-- A unit of a SEND enters the neighbour's FIFO for a credit and a freed entry's credit returns to the sender (R87, R88); a
unit of a SEND.H is written where the destination's token is armed over it, and counted on both sides (R89, R205, R206); a
stalled stream instruction posts its event once (R91). -/
def Obligations.StreamsComplete : Prop :=
  (∀ (s : State) (c n port t : Nat) (x : Token), s.neighbour c port = some n → n ≠ c →
    (s.core c).sendTurn port = some (t, x) → (s.core c).credit port ≠ 0 → (s.core c).drained = false →
    (s.core n).recvTurn (oppositePort port) = none →
    ∃ r, exec (.streamUnitArrive c port .ok) s = .next r ∧
      r.core c = ({ s.core c with credits := (s.core c).credits.set port ((s.core c).credit port - 1) } : Core).advanceToken t 32 ∧
      r.core n = { s.core n with fifo := (s.core n).fifo.set (oppositePort port) ((s.core n).fifo.get [] (oppositePort port)
        ++ [BitVec.ofNat 256 (s.mem.readNat (lsBase c + x.lsaddr + x.done) 32)]) } ∧
      r.mem = s.mem ∧ ∀ d, d ≠ c → d ≠ n → r.core d = s.core d) ∧
  (∀ (s : State) (c n port : Nat), s.neighbour c port = some n → n ≠ c → (s.core c).owed.get 0 port ≠ 0 →
    ∃ r, exec (.creditReturn c port) s = .next r ∧
      (r.core c).owed.get 0 port = (s.core c).owed.get 0 port - 1 ∧
      (r.core n).credit (oppositePort port) = min 16 ((s.core n).credit (oppositePort port) + 1) ∧ r.mem = s.mem) ∧
  (∀ (s : State) (c d t : Nat) (x : Token), (s.core c).sendHTurn = some (t, x) → (s.core c).drained = false →
    s.destCore x.dest = some d → d ≠ c → (s.core d).task.isSome → s.corePart d = s.corePart c → s.lsStatus d = 0 →
    ((s.core d).tokens.get {} (Dest.tok x.dest)).kind = 3 →
    ((s.core d).tokens.get {} (Dest.tok x.dest)).lsaddr ≤ Dest.lsaddr x.dest + x.done →
    Dest.lsaddr x.dest + x.done + 32 ≤ ((s.core d).tokens.get {} (Dest.tok x.dest)).lsaddr
      + ((s.core d).tokens.get {} (Dest.tok x.dest)).length →
    ∃ r, exec (.sendHArrival c .ok) s = .next r ∧
      r.mem.readBytes (lsBase d + Dest.lsaddr x.dest + x.done) 32 = s.mem.readBytes (lsBase c + x.lsaddr + x.done) 32 ∧
      (∀ a, (a < lsBase d + Dest.lsaddr x.dest + x.done ∨ lsBase d + Dest.lsaddr x.dest + x.done + 32 ≤ a) →
        r.mem.read a = s.mem.read a) ∧
      r.core c = (s.core c).advanceToken t 32 ∧ r.core d = (s.core d).advanceToken (Dest.tok x.dest) 32) ∧
  (∀ (s : State) (c op col : Nat), op < 16 → s.logicalCol c = some col → (s.core c).status = .running →
    s.fld (corePage c) Reg.PORT_STALL_LIMIT 15 0 ≠ 0 → ((s.core c).tokens.get {} op).kind = 5 →
    ((s.core c).tokens.get {} op).faulted = false →
    (s.core c).stalls.contains ((s.core c).tokens.get {} op).seq = false →
    bit (s.reg (corePage c) Reg.EV_ENABLE) 7 = true →
    ∃ r e, exec (.portStall c op) s = .next r ∧ r.events = s.events ++ [e] ∧ e.code = 0x0220 ∧ e.page = corePage c ∧
      (r.core c).stalls = ((s.core c).tokens.get {} op).seq :: (s.core c).stalls)

/-- The reply to a synchronous access completes LD.G, whose register holds the extended value (R80, R197), and its
presentation again does so too (R99); a block of an XFER.L writes local store and advances its token (R199); a stopped core
whose transfers stand at a boundary drains (R94, R96); and every member of a released barrier goes on (R209). -/
def Obligations.CoreMemoryCompletes : Prop :=
  (∀ (s : State) (c unit epoch va e : Nat) (w : Word) (bs : List Byte) (u : State), c < coreCount → Ins.opc w = 0x88 →
    (s.core c).wait = .access w va e false → s.kept.find (corePage c * 65536 + unit) = none →
    (s.keepEpoch (corePage c * 65536 + unit) epoch).coreVirt (s.coreCtxt c) va (.read (2 ^ Ins.size w)) = (.status 0, bs, u) →
    ∃ t, exec (.globalAccessDone c unit epoch) s = .next t ∧ t = u.modCore c fun k =>
      { k.wx (Ins.d w) (extLoad w (ofLeBytes bs)) with wait := .none, pc := ((k.pc) + 8) % 2 ^ 18 }) ∧
  (∀ (s : State) (c va e : Nat) (w : Word) (bs : List Byte) (u : State), Ins.opc w = 0x88 →
    (s.core c).wait = .access w va e true →
    s.coreVirt (s.coreCtxt c) va (.read (2 ^ Ins.size w)) = (.status 0, bs, u) →
    ∃ t, exec (.hubProxyRetry c) s = .next t ∧ t = u.modCore c fun k =>
      { k.wx (Ins.d w) (extLoad w (ofLeBytes bs)) with wait := .none, pc := ((k.pc) + 8) % 2 ^ 18 }) ∧
  (∀ (s : State) (c t va n sound : Nat) (x : Token) (bs : List Byte) (u : State), t < 16 → (s.core c).tokens.get {} t = x →
    x.kind = 1 → (s.core c).transferOpen x = true → va = (x.gaddr + x.done) % 2 ^ 64 →
    n = min (inLine va 128) (x.length - x.done) → s.vread (s.coreCtxt c) va n = (.status 0, bs, u) →
    ∃ r, exec (.transferBlockDone c t .ok sound) s = .next r ∧
      r = (u.writeBytes (lsBase c + x.lsaddr + x.done) bs).modCore c fun k => k.advanceToken t n) ∧
  (∀ (s : State) (c : Nat), (s.core c).status = .stopped → (s.core c).wait = .none → (s.core c).atBoundary = true →
    (s.core c).drained = false → (∀ p, (s.core c).owed.get 0 p = 0) → (s.core c).mq = [] → (s.core c).loads = [] →
    CompletesMem (.coreDrainDone c) s c { s.core c with drained := true } s.mem) ∧
  (∀ (s : State) (c idx key : Nat) (x : Task), (s.core c).wait = .barrier idx false → s.coreTask c = some (key, x) →
    (s.barMembers x c idx false).Nodup → (∀ m ∈ s.barMembers x c idx false, (s.core m).wait = .barrier idx false) →
    ∃ t, exec (.barRelease c) s = .next t ∧
      (∀ m ∈ s.barMembers x c idx false, t.core m = (s.core m).releaseBar) ∧
      (∀ m, m ∉ s.barMembers x c idx false → t.core m = s.core m) ∧ t.mem = s.mem)


/-- KERNEL: a command that passes its checks and whose image is sound becomes a ready task with the image's cheap points (R214,
R402, R403); KERNEL_LAUNCH: on free cores the code is placed and every core of the task starts at the entry (R217, R219, R412).
A manifest entry reads its next lines into the hub cache (R223, Table 7-3), a held-back barrier counts a cycle in the counter of
its cause (R231, R235), and reaching STALL_REPORT_NS posts ROUND_STALL once (R234). -/
def Obligations.KernelCompletes : Prop :=
  (∀ (s u : State) (q seq : Nat) (c : Cmd) (m : Image), s.cmd q seq = some c → s.task (cmdKey q seq) = none → c.kind = 1 →
    c.held = 0 → c.sent = false → s.kernelStatus (taskOf c) = 0 → s.mayStart c = true → (taskOf c).slot = none →
    s.readImage ((taskOf c).ctxt ((s.leadStack (taskOf c)).getD 0)) (taskOf c).image = (.status 0, m, u) → m.check = 0 →
    ∃ t, exec (.kernel q seq) s = .next t ∧ t.task (cmdKey q seq) = some { taskOf c with cheapPoints := m.cheap } ∧
      t.mem = u.mem ∧ t.cores = u.cores ∧ t.regs = u.regs) ∧
  (∀ (s u r : State) (q seq : Nat) (c : Cmd) (x : Task) (m : Image) (code : List Byte), s.cmd q seq = some c →
    s.task (cmdKey q seq) = some x → x.status = .ready → s.mayStart c = true → c.held = 0 → s.coresFree x = true →
    s.heldOff x = false → s.coresFaulted x = false → s.taskBound x = true → s.taskDiesReady x = true → x.slot = none →
    x.resume = false → x.manifestTable = 0 →
    s.readImage (x.ctxt ((s.leadStack x).getD 0)) x.image = (.status 0, m, u) →
    u.vread (x.ctxt ((s.leadStack x).getD 0)) (x.image + m.codeOff) m.codeSize = (.status 0, code, r) →
    ∃ t y, exec (.kernelLaunch q seq) s = .next t ∧ t.task (cmdKey q seq) = some y ∧ y.status = .running ∧ y.ended = [] ∧
      ∀ d ∈ s.taskCores x, (t.core d).status = .running ∧ (t.core d).task = some (cmdKey q seq) ∧ (t.core d).pc = m.entryRaw) ∧
  (∀ (s u : State) (q seq stack i n k : Nat) (x : Task) (g g' : Stage) (e : StageEntry),
    s.task (cmdKey q seq) = some x →
    (s.stages.find? fun g => decide (g.task = cmdKey q seq ∧ g.stack = stack) && !g.complete) = some g →
    g.entries[i]? = some e → e.done = false → g.hdrWait = false → g.pageWait = none → e.kind = 2 →
    State.touchLines (x.ctxt stack) (min n (e.len / 128 - e.pos)) s g (e.src + 128 * e.pos) = (.status 0, k, g', u) →
    ∃ t, exec (.manifestEntryDone q seq stack i n) s = .next t ∧ t = u.entryOn g' i k (e.len / 128) x.part) ∧
  (∀ (s : State) (q seq stack cause : Nat) (x : Task) (g : Stage), s.task (cmdKey q seq) = some x →
    (s.stages.find? fun g => decide (g.task = cmdKey q seq ∧ g.stack = stack ∧ g.round = x.rounds) && !g.complete) = some g →
    s.roundArrived (cmdKey q seq) x = true → 1 ≤ cause → cause ≤ 6 →
    ∃ t, exec (.roundStallCycle q seq stack cause) s = .next t ∧
      t.reg (Page.scheduler stack) (Reg.CNT + 8 * (cause - 1)) = s.reg (Page.scheduler stack) (Reg.CNT + 8 * (cause - 1)) + 1 ∧
      t.stages = (s.putStage { g with stallCycles := g.stallCycles + 1 }).stages ∧ t.mem = s.mem ∧ t.cores = s.cores) ∧
  (∀ (s : State) (q seq stack cause : Nat) (x : Task) (g : Stage), s.task (cmdKey q seq) = some x →
    (s.stages.find? fun g => decide (g.task = cmdKey q seq ∧ g.stack = stack ∧ g.round = x.rounds) && !g.complete) = some g →
    s.fld (Page.scheduler stack) Reg.ROUND_STALL_CTL 31 0 ≠ 0 → g.stallPosted = false →
    s.fld (Page.scheduler stack) Reg.ROUND_STALL_CTL 31 0 * 8 ≤ g.stallCycles * 5 →
    bit (s.reg (Page.scheduler stack) Reg.EV_ENABLE) 1 = true →
    ∃ t e, exec (.roundStall q seq stack cause) s = .next t ∧ t.events = s.events ++ [e] ∧ e.code = 0x0230 ∧
      e.page = Page.scheduler stack ∧ t.stages = (s.putStage { g with stallPosted := true }).stages ∧ t.mem = s.mem)

/-- A pre-emption that is due, or the end of a slice, stops the task: each of its cores issues nothing further, and CHEAP_WINDOW
later so do the cores that no cheap point has stopped (R93, R412, R415, R416). PREEMPT_REQ.GO requests a pre-emption of the task
it names and sets BUSY (R415), and RT_RESERVE takes the value written (R413). -/
def Obligations.PreemptionCompletes : Prop :=
  (∀ (s : State) (q seq : Nat) (x : Task), s.task (cmdKey q seq) = some x → x.status = .running → s.pageStopped x = false →
    x.request = 1 → x.cheap = false →
    ∃ t, exec (.taskPreempt q seq) s = .next t ∧
      t.task (cmdKey q seq) = some { x with status := .stopping, wantCheap := false, stopAt := s.panelTime.toNat } ∧
      (∀ d ∈ s.taskCores x, (s.core d).task = some (cmdKey q seq) → t.core d = (s.core d).halt) ∧ t.mem = s.mem) ∧
  (∀ (s : State) (q seq : Nat) (x : Task), s.task (cmdKey q seq) = some x → x.status = .stopping → x.wantCheap = true →
    x.stopAt + s.cheapWindow x ≤ s.panelTime.toNat →
    ∃ t, exec (.cheapWindowExpiry q seq) s = .next t ∧ t.task (cmdKey q seq) = some { x with wantCheap := false } ∧
      (∀ d ∈ s.taskCores x, (s.core d).status = .running → (s.core d).atCheapStop = false → t.core d = (s.core d).halt) ∧
      t.mem = s.mem) ∧
  (∀ (s : State) (q seq rival : Nat) (x y : Task), s.task (cmdKey q seq) = some x → x.status = .running → x.cheap = false →
    s.fld (Page.scheduler ((s.leadStack x).getD 0)) Reg.SCHED_CTL 47 32 ≠ 0 →
    x.since + 1000 * s.fld (Page.scheduler ((s.leadStack x).getD 0)) Reg.SCHED_CTL 47 32 ≤ s.panelTime.toNat →
    (rival, y) ∈ s.tasks → rival ≠ cmdKey q seq → y.prio = x.prio → y.overlaps x = true → y.waitsPage = false →
    y.status = .ready →
    ∃ t, exec (.sliceExpiry q seq) s = .next t ∧
      t.task (cmdKey q seq) = some { x with status := .stopping, wantCheap := false, stopAt := s.panelTime.toNat } ∧
      (∀ d ∈ s.taskCores x, (s.core d).task = some (cmdKey q seq) → t.core d = (s.core d).halt)) ∧
  (∀ (s : State) (i : Ident) (stack key : Nat) (v : Word) (x : Task), stack < 72 →
    Admitted s i (Page.scheduler stack) Reg.PREEMPT_REQ v → bit v 0 = true →
    s.fld (Page.scheduler stack) Reg.PREEMPT_REQ 1 1 = 0 →
    (s.tasks.find? fun e => decide (e.2.jobTag = bits v 31 20 ∧ e.2.status = .running ∧ s.leadStack e.2 = some stack)
      && (match identPart i with | some p => decide (e.2.part = p) | none => true)) = some (key, x) →
    ∃ t, exec (.preemptReqGo i stack v) s = .next t ∧ t.task key = some { x with request := if bit v 16 then 2 else 1 } ∧
      t.fld (Page.scheduler stack) Reg.PREEMPT_REQ 1 1 = 1 ∧ t.mem = s.mem ∧ t.cores = s.cores) ∧
  (∀ (s : State) (i : Ident) (stack l : Nat) (v : Word), stack < 72 →
    Admitted s i (Page.scheduler stack) Reg.RT_RESERVE v → s.logicalStack stack = some l → s.ownsStack (bits v 53 48) l = true →
    s.reserveBusy stack v = false →
    ∃ t, exec (.rtReserveWrite i stack v) s = .next t ∧
      t.fld (Page.scheduler stack) Reg.RT_RESERVE 63 63 = bits v 63 63 ∧
      t.fld (Page.scheduler stack) Reg.RT_RESERVE 53 48 = bits v 53 48 ∧
      t.fld (Page.scheduler stack) Reg.RT_RESERVE 35 32 = bits v 35 32 ∧ t.mem = s.mem ∧ t.cores = s.cores)

/-- A drained core's record is written and the core is saved (R416), a switched-out task whose records load runs again (R417),
a core fault fails its task with the core's status, number and cause (R418), and a manifest entry that fails fails the round:
the event is posted, staging stops and the task fails (R233). -/
def Obligations.SaveAndFailComplete : Prop :=
  (∀ (s u : State) (c key a other : Nat) (x : Task), s.coreTask c = some (key, x) → (s.core c).drained = true →
    (s.core c).saved = false → x.status = .stopping →
    (s.logicalPlace c).bind (s.recordAddr x x.saveTable) = some a →
    State.writeChunks (x.ctxt (coreStack c)) a c (saveInfo (s.cheapSave c x)) (saveChunks ((s.cheapSave c x).map Prod.snd)) s
      = (.status 0, u) →
    u.task key = some x → other ≠ c → other ∈ u.taskCores x → (u.core other).task = some key → (u.core other).saved = false →
    ∃ t, exec (.coreSave c) s = .next t ∧ t.core c = { u.core c with saved := true } ∧ t.mem = u.mem ∧
      ∀ d, d ≠ c → t.core d = u.core d) ∧
  (∀ (s u : State) (q seq : Nat) (x : Task), s.task (cmdKey q seq) = some x → x.status = .switchedOut → x.waitsPage = false →
    s.taskDiesReady x = true → s.coresFree x = true → s.notFirst (cmdKey q seq) x = false → s.coresFaulted x = false →
    s.saveHomed x = true → State.loadAll x (cmdKey q seq) x.saveTable false x.logical s = (.status 0, u) →
    ∃ t, exec (.taskRestore q seq) s = .next t ∧
      t.task (cmdKey q seq) = some { x with status := .running, since := s.panelTime.toNat } ∧
      t.mem = u.mem ∧ t.cores = u.cores) ∧
  (∀ (s : State) (c key : Nat) (x : Task), s.coreTask c = some (key, x) → x.status = .running →
    (s.core c).fault.cause ≠ 0 → (s.core c).pageStop = false →
    ∃ t, exec (.taskFail c false) s = .next t ∧ t.task key = some { x with
        status := .failing, failStatus := (s.core c).fault.status, failLcid := s.lcid c, failCause := (s.core c).fault.cause } ∧
      (∀ d ∈ s.taskCores x, (s.core d).task = some key → t.core d = (s.core d).halt) ∧ t.mem = s.mem) ∧
  (∀ (s : State) (q seq stack entry status : Nat) (g : Stage) (x : Task),
    (s.stages.find? fun g => decide (g.task = cmdKey q seq ∧ g.stack = stack) && !g.complete) = some g →
    2 ≤ status → entry < g.entries.length → s.task (cmdKey q seq) = some x → x.status = .running →
    bit (s.reg (Page.scheduler stack) Reg.EV_ENABLE) 7 = true →
    ∃ t e, exec (.roundFailed q seq stack entry status) s = .next t ∧ (∀ h ∈ t.stages, h.task ≠ cmdKey q seq) ∧
      t.events = s.events ++ [e] ∧ e.code = 0x0231 ∧ e.page = Page.scheduler stack ∧
      t.task (cmdKey q seq) = some { x with
        status := .failing, failStatus := status, failLcid := 0xFFFFFFFF, failCause := 0 })


/-- A command that may start has its effect and completes with OK: FENCE (R409), BARRIER once every named queue has reached its
entry (R410), EVENT with its event from the queue's page (R406), and QUERY with two registers, EPOCH and STATE in one snapshot
(R406, R572). The completion of a FENCE is one entry in the queue's ring, the command leaves the table, and its queue counts one
more unread entry (R408). The queue block fetches the slot at SQ_HEAD of an enabled and bound queue that has a slot and room for
its completion entry (R396, R399), and the slot takes the queue's next sequence number (R397). -/
def Obligations.CommandsComplete : Prop :=
  (∀ (s r : State) (q seq base n : Nat) (c : Cmd), s.cmd q seq = some c → c.kind = 9 → s.mayStart c = true → c.fwd = none →
    c.flags.testBit 1 = false → (s.queue q).stalled = [] → s.queuePort q ≠ Q.hostVf →
    s.addrReg (Page.queueBlock q) (qOff q 8) = some base →
    s.vwrite (s.queueCtxt q) (base + 32 * (s.queue q).cqTail)
      (listSet (entryBytes c.cmdId 0 0 9 q []) 5 (BitVec.ofNat 8 (9 + if (s.queue q).phase then 128 else 0)))
      = (.status 0, n, r) →
    ∃ t, exec (.fence q seq) s = .next t ∧ t.cmd q seq = none ∧ t.mem = r.mem ∧
      (t.queue q).unread = (r.queue q).unread + 1 ∧
      (t.queue q).cqTail = (if r.ringSize q ≤ (s.queue q).cqTail + 1 then 0 else (r.queue q).cqTail + 1)) ∧
  (∀ (s : State) (q seq : Nat) (c : Cmd), s.cmd q seq = some c → c.kind = 6 → s.mayStart c = true →
    (∀ e ∈ barrierEntries c, seqLe e.2 (bits (s.qreg e.1 Q.stat) 31 0) = true) →
    exec (.barrier q seq) s = .next (s.complete q seq St.ok 0 [])) ∧
  (∀ (s : State) (q seq : Nat) (c : Cmd), s.cmd q seq = some c → c.kind = 7 → s.mayStart c = true →
    exec (.event q seq) s = .next ((s.genEvent (Page.queueBlock q) (0x8000 + c.cs.getD 0 0 % 2 ^ 15) c.part
      (BitVec.ofNat 64 (c.cs.getD 1 0))).complete q seq St.ok 0 [])) ∧
  (∀ (s a b : State) (q seq page : Nat) (c : Cmd) (k : PageKind) (v0 v1 : Word), s.cmd q seq = some c → c.kind = 10 →
    s.mayStart c = true → page = c.cs.getD 0 0 % 2 ^ 14 → pageKind page = some k → page ≠ 0x102 → s.unreached page = false →
    s.mayRead (s.queueIdent q) page (natBits (c.cs.getD 1 0) 11 0) = true →
    s.mayRead (s.queueIdent q) page (natBits (c.cs.getD 1 0) 27 16) = true →
    s.queryValue (s.queueIdent q) page (natBits (c.cs.getD 1 0) 11 0) = (v0, a) →
    a.queryValue (s.queueIdent q) page (natBits (c.cs.getD 1 0) 27 16) = (v1, b) →
    exec (.query q seq) s = .next (b.complete q seq St.ok 0
      (leBytes 8 v0.toNat ++ leBytes 8 v1.toNat ++ leBytes 2 (s.epoch page) ++ leBytes 1 (s.pageState page)))) ∧
  (∀ (s u : State) (q base : Nat) (b : List Byte), bits (s.qreg q Q.cfg) 63 63 = 1 → bits (s.qreg q Q.bind) 63 63 = 1 →
    bits (s.qreg q Q.stat) 59 48 ≠ bits (s.qreg q Q.tail) 11 0 → s.inFlight q + (s.queue q).unread < s.ringSize q →
    (s.queue q).fetchWait = none → s.forwardEntry q = none →
    s.addrReg (Page.queueBlock q) (qOff q 0) = some base →
    s.vread (s.queueCtxt q) (base + 512 * bits (s.qreg q Q.stat) 59 48) 512 = (.status 0, b, u) →
    exec (.commandFetch q) s = .next (u.takeSlot q b none)) ∧
  (∀ (s : State) (q : Nat) (b : List Byte), s.queuePort q ≠ Q.hostVf → s.forwardEntry q = none →
    headSound b = true → leAt b 0 1 = 9 →
    (∀ i, i < 4 → leAt b (32 + 8 * i) 8 = 0) → leAt b 2 1 = 0 → leAt b 4 2 = 0 → bit (s.qreg q Q.bind) 9 = true →
    ∃ c, (s.takeSlot q b none).cmd q (s.queue q).nextSeq = some c ∧ c.kind = 9 ∧ c.cmdId = leAt b 8 4 ∧
      c.part = s.queuePart q ∧ ((s.takeSlot q b none).queue q).nextSeq = ((s.queue q).nextSeq + 1) % 2 ^ 32 ∧
      (s.takeSlot q b none).mem = s.mem)

/-- The mover copies the bytes of a MOVE in ascending order and writes the payload of an INLINE_WRITE, and the command completes
when its last byte is written (R405 to R407, R411). A command of an engine becomes active in its turn (R411), and a refused
request is presented again later, which delays the command (R407). A COLLECTIVE whose descriptor and rank table are sound is
armed (R473, R474, R478), its timeout fails it (R479), and the steps that a destination had not armed are sent again, each
counted (R478). -/
def Obligations.EngineCommandsComplete : Prop :=
  (∀ (s u : State) (q seq n m : Nat) (c : Cmd), s.cmd q seq = some c → c.kind = 2 → s.mayIssue c = true →
    m = min n (c.cs.getD 2 0 - c.progress) → c.progress + m = c.cs.getD 2 0 →
    State.moveLines (s.cmdCtxt c .mover) (2 * (m / 128) + 4) s (c.cs.getD 0 0 + c.progress) (c.cs.getD 1 0 + c.progress) m
      = (.status 0, m, u) →
    exec (.move q seq n 0 0) s = .next (u.finishCmd { c with progress := c.cs.getD 2 0 } St.ok (leBytes 8 (c.cs.getD 2 0)))) ∧
  (∀ (s u : State) (q seq n m : Nat) (c : Cmd), s.cmd q seq = some c → c.kind = 2 → s.mayIssue c = true →
    m = min n (c.cs.getD 2 0 - c.progress) → c.progress + m ≠ c.cs.getD 2 0 →
    State.moveLines (s.cmdCtxt c .mover) (2 * (m / 128) + 4) s (c.cs.getD 0 0 + c.progress) (c.cs.getD 1 0 + c.progress) m
      = (.status 0, m, u) →
    exec (.move q seq n 0 0) s = .next (u.setCmd { c with progress := c.progress + m })) ∧
  (∀ (s u : State) (q seq m : Nat) (c : Cmd), s.cmd q seq = some c → c.kind = 8 → s.mayIssue c = true →
    m = c.payload.length - c.progress → c.progress ≤ c.payload.length →
    State.inlineLines (s.cmdCtxt c .mover) 8 s (c.cs.getD 0 0 + c.progress) (c.payload.drop c.progress) = (.status 0, m, u) →
    exec (.inlineWrite q seq 0 0) s = .next (u.finishCmd { c with progress := c.payload.length } St.ok [])) ∧
  (∀ (s : State) (q seq : Nat) (c : Cmd), s.cmd q seq = some c → c.queue = q → c.seq = seq → s.nextActive c = true →
    ∃ t, exec (.engineCmdActivate q seq) s = .next t ∧ t.cmd q seq = some { c with active := true, started := true } ∧
      t.mem = s.mem ∧ t.cores = s.cores) ∧
  (∀ (s : State) (q seq : Nat) (c : Cmd), s.cmd q seq = some c → c.queue = q → c.seq = seq → c.held = 1 →
    ∃ t, exec (.refusedRetry q seq) s = .next t ∧ t.cmd q seq = some { c with held := 0, delayed := true } ∧
      ({ t with cmds := s.cmds } : State) = s) ∧
  (∀ (s u r : State) (q seq p : Nat) (c : Cmd) (d ranks : List Byte), s.cmd q seq = some c → c.kind = 3 → s.mayIssue c = true →
    s.boundStack c.target = some p → s.colls.find (cmdKey q seq) = none → c.cs.getD 0 0 % 64 = 0 →
    s.vread ⟨some p, c.part, c.pasid, .engine⟩ (c.cs.getD 0 0) 128 = (.status 0, d, u) → descStatus d = 0 →
    u.vread ⟨some p, c.part, c.pasid, .engine⟩ (leAt d 32 8) (4 * leAt d 12 2) = (.status 0, ranks, r) →
    (∀ k, k < leAt d 12 2 → leAt ranks (4 * k) 4 < 2 ^ 18) →
    exec (.collective q seq) s = .next (r.collArm c (r.collOf c p d ranks))) ∧
  (∀ (s : State) (q seq : Nat) (c : Coll), s.colls.find (cmdKey q seq) = some c →
    c.armedAt + 1000 * (c.timeoutUs + c.ext) < s.panelTime.toNat →
    exec (.collTimeout q seq) s = .next ((s.bump (Page.collective c.stack) 2).collFail c St.timeout)) ∧
  (∀ (s : State) (q seq : Nat) (c : Coll) (p : Packet), s.colls.find (cmdKey q seq) = some c → c.key = cmdKey q seq →
    c.resend = [p] → p.dst = s.moduleId → ({ c with resend := [] } : Coll).finished = false →
    ∃ t x, exec (.collStepResend q seq) s = .next t ∧ t.collLocal = s.collLocal ++ [x] ∧ x.step = p.step ∧ x.op = p.op ∧
      x.payload = p.payload ∧ x.collSeq = c.collSeq ∧ t.colls.find (cmdKey q seq) = some { c with resend := [] } ∧
      t.reg (Page.collective c.stack) (Reg.CNT + 40) = s.reg (Page.collective c.stack) (Reg.CNT + 40) + 1 ∧ t.mem = s.mem)



/-- The blend engine arms a BLEND that passes its checks, behind the commands armed before it (R242 to R247, R260), a completed
collective readies the UPDATE that names it (R244), and a PROG routine's return hands its tile back (R256). The running operation
takes its next step: its start, its next tile, the writes that are left, or its end (R244, R252, R253, R258 to R260), and an
operation whose PROG routine fails or is late ends with INTERNAL after one UPDATE_FAILED (R256, R263). -/
def Obligations.BlendCompletes : Prop :=
  (∀ (s u r : State) (q seq stack : Nat) (c : Cmd) (d m : List Byte), s.cmd q seq = some c → s.blendReady c 1 = some stack →
    c.queue = q → c.seq = seq → (s.armed stack).length < 16 → c.cs.getD 1 0 % 64 = 0 →
    s.vread (s.cmdCtxt c .engine) (c.cs.getD 1 0) 192 = (.status 0, d, u) → u.lgStatus c stack d = 0 →
    u.vread (s.cmdCtxt c .engine) (Lg.addr d Lg.resmap) (32 * Lg.nres d) = (.status 0, m, r) → mapSound d m = true →
    (r.collDone.get [] ((if Lg.collSel d then (r.boundStack (Lg.collStack d)).getD stack else stack) * 4096 + c.jobTag)) = [] →
    ∃ t o, exec (.blendUpdate q seq) s = .next t ∧ t.blends = r.blends ++ [o] ∧ o.queue = q ∧ o.seq = seq ∧ o.stack = stack ∧
      o.commit = false ∧ o.descs = [d] ∧ o.maps = [m] ∧ o.step = c.step ∧ o.ready = none ∧ o.started = false ∧
      t.cmd q seq = some { c with started := true } ∧ t.mem = r.mem) ∧
  (∀ (s u r : State) (q seq stack n : Nat) (c : Cmd) (l : List Byte) (g : List (List Byte × List Byte)),
    s.cmd q seq = some c → s.blendReady c 2 = some stack → c.queue = q → c.seq = seq → (s.armed stack).length < 16 →
    n = c.cs.getD 2 0 → 1 ≤ n → n ≤ 4096 →
    s.vread (s.cmdCtxt c .engine) (c.cs.getD 1 0) (8 * n) = (.status 0, l, u) →
    State.readGroups c (s.cmdCtxt c .engine) stack ((List.range n).map fun i => leAt l (8 * i) 8) u = (.status 0, g, r) →
    ∃ t o, exec (.blendCommit q seq) s = .next t ∧ t.blends = r.blends ++ [o] ∧ o.queue = q ∧ o.seq = seq ∧ o.stack = stack ∧
      o.commit = true ∧ o.descs = g.map Prod.fst ∧ o.verdict = c.cs.getD 3 0 ∧ o.ready.isSome = true ∧
      t.cmd q seq = some { c with started := true } ∧ t.mem = r.mem) ∧
  (∀ (s : State) (stack jobTag seq : Nat) (r : Nat × Nat × Nat) (o : BlendOp), s.collRecord stack jobTag seq = some r →
    o ∈ s.blends → o.commit = false → o.ready = none → o.watch = stack → o.jobTag = jobTag →
    Lg.collSeq (o.descs.headD []) = seq →
    ∃ t, exec (.collCompletionNotify stack jobTag seq) s = .next t ∧
      { o with ready := some s.useCtr, collStatus := r.2.1, nfTotal := r.2.2 } ∈ t.blends ∧
      ({ t with blends := s.blends, useCtr := s.useCtr } : State) = s) ∧
  (∀ (s : State) (stack core : Nat) (buf : List Byte) (o : BlendOp) (p : ProgCall), s.progOf stack core = some (o, p) →
    exec (.progReturn stack core 0 buf) s = .next (s.putBlend { o with
      progs := o.progs.map fun x => if x.core = p.core then { x with back := some buf } else x })) ∧
  (∀ (s : State) (stack : Nat) (o : BlendOp), s.blendNext stack = some o → o.pageWait = none →
    (o.writes ≠ [] → exec (.blendOpRun stack 0) s = .next (s.blendFlush o)) ∧
    (o.writes = [] → o.started = false → o.commit = true → exec (.blendOpRun stack 0) s = .next (s.commitStart o)) ∧
    (o.writes = [] → o.started = false → o.commit = false → exec (.blendOpRun stack 0) s = .next (s.updateStart o)) ∧
    (o.writes = [] → o.started = true → o.tile < Lg.tiles o.desc → Lg.kind o.desc ≠ 4 →
      exec (.blendOpRun stack 0) s = .next (s.blendTile o)) ∧
    (o.writes = [] → o.started = true → o.tile < Lg.tiles o.desc → Lg.kind o.desc = 4 →
      exec (.blendOpRun stack 0) s = .next (s.progStep o)) ∧
    (o.writes = [] → o.started = true → Lg.tiles o.desc ≤ o.tile →
      exec (.blendOpRun stack 0) s = .next (s.blendClose o (s.blendOk o)))) ∧
  (∀ (s u : State) (stack core a0 : Nat) (buf : List Byte) (o : BlendOp) (p : ProgCall), s.progOf stack core = some (o, p) →
    u = s.genEvent (Page.blend o.stack) 0x0241 o.part
      (place 31 0 (Lg.groupId o.desc) ||| place 55 32 o.tile ||| place 63 56 St.internal) → o.commit = true →
    (a0 ≠ 0 → exec (.progReturn stack core a0 buf) s = .next (u.blendEnd o St.internal o.tile o.group 0 0)) ∧
    (s.fld (Page.blend stack) 0x100 15 0 ≠ 0 →
      exec (.progTimeout stack core) s = .next (u.blendEnd o St.internal o.tile o.group 0 0)))

/-- The racking engine decides on the next page of a RACK command: one that may go begins to migrate, and one that is there
already is counted (R319, R320). A migration's first half makes the leaf transient and shoots the page down; its second half
copies the page and then writes the leaf (R315). A deferred page is tried again (R315). -/
def Obligations.RackCompletes : Prop :=
  (∀ (s u : State) (q seq engine : Nat) (c : Cmd) (m : Mig), s.cmd q seq = some c → c.kind = 5 → s.mayIssue c = true →
    s.boundStack c.target = some engine → c.progress ≠ c.cs.getD 1 0 → (s.engineMigs engine).length < 32 →
    s.rackDecide engine c.part c.pasid (c.cs.getD 0 0 + 4096 * c.progress) (.command (cmdKey q seq))
      (if (c.cs.getD 2 0).testBit 7 then some (natBits (c.cs.getD 2 0) 31 16) else none)
      (s.boundStack (c.cs.getD 2 0 % 64)) = (.go m, u) →
    exec (.rack q seq) s = .next ((u.setCmd { c with progress := c.progress + 1 }).addMig m)) ∧
  (∀ (s u : State) (stack idx f frame : Nat) (m : Mig) (lf : Leaf), (s.engineMigs stack)[idx]? = some m → m.state = 0 →
    m.frame = some f → (∃ key, m.why = .command key) → s.leafOf m.part m.pasid m.va = .found (lf, frame) →
    u = ({ s with mem := s.mem.writeNat lf.addr 8 (setBits (setBit lf.pte 0 false) 9 8 3).toNat } : State).shootdown m.part
      (m.va / 4096) →
    exec (.pageMigrate stack idx false false) s = .next (u.putMig { m with leaf := lf.addr, old := lf.pte, state := 1 })) ∧
  (∀ (s u : State) (stack idx f : Nat) (m : Mig), (s.engineMigs stack)[idx]? = some m → m.state = 1 → m.frame = some f →
    s.copyPage m.part (ptePage m.old) f = (0, u) →
    exec (.pageMigrate stack idx false false) s = .next (((u.rackCharge m.part (ptePage m.old) 0).rackCharge m.part f 1).finishMig
      m f)) ∧
  (∀ (s : State) (stack idx : Nat) (m : Mig), (s.engineMigs stack)[idx]? = some m → m.state = 2 →
    exec (.migrateDeferRetry stack idx) s = .next (s.putMig { m with state := 0 }))

/-- A read of the hub cache that hits answers the bytes of the line and counts them (R271, Table 9-2), and one that misses within
budget answers the bytes of the line that it fetches (R271, R272, R297). A stream entry without an access for 65,536 HCLK
cycles becomes free (R282), the prefetch governor moves EFF_DEPTH by one (R284), a trained entry prefetches its next line
within budget (R283, R284), and a KEEP_RELEASE sweep lowers the partition's KEEP lines of its tag to NORMAL and sets BUSY, which
its end clears (R274). NEAR_WAYS changes while the page is QUIESCED (R280). -/
def Obligations.CacheCompletes : Prop :=
  (∀ (s : State) (stack a goff n hint tag part req pasid va cycle : Nat) (l : CacheLine), regionOf a = .gddr stack goff →
    s.gddrStatus stack goff = 0 → s.cacheFind stack (a / 128) = some l → hint < 2 → l.prefetched = false →
    ∃ t, exec (.cacheAccess stack a n [] hint tag part .ok req pasid va cycle) s = .next t ∧
      t.reply = (0, s.mem.readBytes a n) ∧ t.cacheFind stack (a / 128) = some { l with used := s.useCtr + 1 } ∧
      t.mem = s.mem ∧ t.cores = s.cores) ∧
  (∀ (s r : State) (stack a goff n tag part req pasid va cycle : Nat), regionOf a = .gddr stack goff →
    s.gddrStatus stack goff = 0 → s.cacheFind stack (a / 128) = none → s.bad.get 0 (a / 128) = 0 →
    s.fld (Page.cache stack) Reg.CACHE_CTL 8 8 = 0 →
    ((s.pfFollow stack req (va / 128 * 128) cycle).bumpUnits (Page.cache stack) 1 1 1024).regulate (Page.regulator stack)
      (gddrDev (a / 128 * 128 % 0x800000000)) part 128 = (.inBudget, r) →
    exec (.cacheAccess stack a n [] 0 tag part .ok req pasid va cycle) s = .next
      ((r.cacheInstall stack (a / 128) .normal tag part false).answer 0
        ((r.cacheInstall stack (a / 128) .normal tag part false).mem.readBytes (a / 128 * 128 + a % 128) n))) ∧
  (∀ (s : State) (stack entry cycle : Nat) (e : Stream), (s.pf stack).streams.find entry = some e →
    e.used + 65536 ≤ cycle →
    ∃ t, exec (.streamEntryExpire stack entry cycle) s = .next t ∧ (t.pf stack).streams.find entry = none ∧
      ({ t with prefetch := s.prefetch } : State) = s) ∧
  (∀ (s : State) (stack un us eff : Nat), s.hubWarn stack = false →
    un = (s.reg (Page.cache stack) (Reg.CNT + 64)).toNat - (s.pf stack).lastUnused →
    us = (s.reg (Page.cache stack) (Reg.CNT + 56)).toNat - (s.pf stack).lastUseful →
    eff = s.fld (Page.cache stack) Reg.PREFETCH_CTL 14 8 →
    ∃ t, exec (.prefetchDepthAdjust stack) s = .next t ∧
      t.fld (Page.cache stack) Reg.PREFETCH_CTL 14 8 = (if us < un then eff - 1
        else if un < us then min (eff + 1) (s.fld (Page.cache stack) Reg.PREFETCH_CTL 6 0)
        else min eff (s.fld (Page.cache stack) Reg.PREFETCH_CTL 6 0)) ∧
      t.fld (Page.cache stack) Reg.PREFETCH_CTL 6 0 = s.fld (Page.cache stack) Reg.PREFETCH_CTL 6 0 ∧ t.mem = s.mem) ∧
  (∀ (s u : State) (stack entry pa off : Nat) (e : Stream), (s.pf stack).streams.find entry = some e →
    s.fld (Page.cache stack) Reg.CACHE_CTL 8 8 ≠ 0 → 1 ≤ ((e.nextVa : Int) - e.lastVa) / (128 * e.stride) →
    ((e.nextVa : Int) - e.lastVa) / (128 * e.stride) ≤ ((s.fld (Page.cache stack) Reg.PREFETCH_CTL 14 8 : Nat) : Int) →
    u = s.modPf stack (fun p => { p with
      streams := p.streams.set entry { e with nextVa := (strideFrom e.nextVa e.stride 1).toNat } }) →
    u.peekTranslate e.part e.pasid e.nextVa false = some pa → regionOf pa = .gddr stack off →
    (u.readStatus e.part .core pa).2 = 0 → u.cacheFind stack (pa / 128) = none →
    (u.bucket (Page.regulator stack) (gddrDev off) e.part).inBudget 128 = true →
    exec (.prefetchIssue stack entry) s = .next (((u.setBucket (Page.regulator stack) (gddrDev off) e.part
      ((u.bucket (Page.regulator stack) (gddrDev off) e.part).charge 128)).bump (Page.cache stack) 6).cacheInstall stack
        (pa / 128) (if e.stream then .stream else .normal) 0 e.part true)) ∧
  (∀ (s : State) (i : Ident) (stack : Nat) (v : Word) (l : CacheLine), stack < 72 →
    Admitted s i (Page.cache stack) Reg.KEEP_RELEASE v → s.fld (Page.cache stack) Reg.KEEP_RELEASE 1 1 = 0 → bit v 0 = true →
    l ∈ s.cache → l.stack = stack → l.part = bits v 21 16 → l.tag = bits v 11 8 → l.cls = .keep →
    ∃ t, exec (.keepReleaseGo i stack v) s = .next t ∧ { l with cls := .normal } ∈ t.cache ∧
      t.fld (Page.cache stack) Reg.KEEP_RELEASE 1 1 = 1 ∧ t.mem = s.mem ∧ t.cores = s.cores) ∧
  (∀ (s : State) (stack : Nat),
    ∃ t, exec (.keepSweepDone stack) s = .next t ∧ t.fld (Page.cache stack) Reg.KEEP_RELEASE 1 1 = 0 ∧
      t.fld (Page.cache stack) Reg.KEEP_RELEASE 0 0 = 0 ∧ ({ t with regs := s.regs } : State) = s) ∧
  (∀ (s : State) (i : Ident) (stack : Nat) (v : Word), stack < 72 → Admitted s i (Page.cache stack) Reg.CACHE_CTL v →
    s.pageState (Page.cache stack) = PS.quiesced → bits v 2 0 ≤ 4 →
    ∃ t, exec (.nearWaysWrite i stack v) s = .next t ∧ t.fld (Page.cache stack) Reg.CACHE_CTL 2 0 = bits v 2 0 ∧
      t.mem = s.mem ∧ t.cache = s.cache)

/-- A GDDR controller answers a read without an error with the device's bytes and a whole-line write stores them (R293, R294); a
retry counts and serves the held request (R291, R292); the fifth failure retrains the interface and its end gives the request
four new retries (R292); a reading sets TEMP and TSTATE and the refresh rate follows (R287, R288); a scrub queues the rewrite
of a corrected line, and the rewrite takes it from the queue with no data changed (R295). -/
def Obligations.GddrCompletes : Prop :=
  (∀ (s : State) (st off n : Nat), st < 72 → off < 0x600000000 → off % 128 + n ≤ 128 → s.gddrStatus st off = 0 →
    s.fld (Page.gddr st (gddrDev off)) gddrStatOff 14 14 = 0 → (s.gddrCtl st (gddrDev off)).held = none →
    s.fld (Page.gddr st (gddrDev off)) gddrStatOff 9 8 ≠ 2 → s.badStatus (gddrBase st + off) = 0 →
    ∃ t, exec (.gddrAccess st off n [] true 0 .ok) s = .next t ∧ t.reply = (0, s.deviceBytes st off n) ∧
      ({ t with reply := s.reply } : State) = s) ∧
  (∀ (s : State) (st off : Nat) (data : List Byte), st < 72 → off < 0x600000000 → off % 128 = 0 → data.length = 128 →
    s.gddrStatus st off = 0 → s.fld (Page.gddr st (gddrDev off)) gddrStatOff 14 14 = 0 →
    (s.gddrCtl st (gddrDev off)).held = none → s.fld (Page.gddr st (gddrDev off)) gddrStatOff 9 8 ≠ 2 →
    s.cacheFind st ((gddrBase st + off) / 128) = none →
    ∃ t, exec (.gddrAccess st off 0 data true 0 .ok) s = .next t ∧ t.reply = (0, []) ∧
      t.mem = s.mem.writeBytes (gddrBase st + off) data ∧ t.badStatus (gddrBase st + off) = 0) ∧
  (∀ (s : State) (st g off n : Nat), st < 72 → g < 6 → (s.gddrCtl st g).held = some (off, n, []) →
    (s.gddrCtl st g).attempts < 4 → s.fld (Page.gddr st g) gddrStatOff 14 14 = 0 → s.badStatus (gddrBase st + off) = 0 →
    ∃ t, exec (.gddrRetryAttempt st g true .ok) s = .next t ∧ t.reply = (0, s.deviceBytes st off n) ∧
      (t.gddrCtl st g).held = none ∧ t.reg (Page.gddr st g) Reg.CNT = s.reg (Page.gddr st g) Reg.CNT + 1 ∧ t.mem = s.mem) ∧
  (∀ (s : State) (st g : Nat), st < 72 → g < 6 → (s.gddrCtl st g).held ≠ none → 4 ≤ (s.gddrCtl st g).attempts →
    (s.gddrCtl st g).again = false → s.fld (Page.gddr st g) gddrStatOff 14 14 = 0 → (s.gddrCtl st g).retrains = [] →
    1 ≤ s.fld (Page.gddr st g) 0x100 23 16 →
    ∃ t, exec (.gddrRetrain st g) s = .next t ∧ t.fld (Page.gddr st g) gddrStatOff 14 14 = 1 ∧
      (t.gddrCtl st g).retrains = [s.panelTime.toNat] ∧
      t.reg (Page.gddr st g) (Reg.CNT + 16) = s.reg (Page.gddr st g) (Reg.CNT + 16) + 1 ∧ t.mem = s.mem) ∧
  (∀ (s : State) (st g : Nat), st < 72 → g < 6 → s.fld (Page.gddr st g) gddrStatOff 14 14 = 1 →
    ∃ t, exec (.gddrRetrainDone st g) s = .next t ∧ t.fld (Page.gddr st g) gddrStatOff 14 14 = 0 ∧
      (t.gddrCtl st g).attempts = 0 ∧ (t.gddrCtl st g).again = true ∧ (t.gddrCtl st g).held = (s.gddrCtl st g).held ∧
      t.mem = s.mem) ∧
  (∀ (s : State) (st g t : Nat), st < 72 → g < 6 → t ≤ 85 → s.fld (Page.gddr st g) gddrStatOff 9 8 = 0 →
    ∃ r, exec (.gddrTempReading st g t) s = .next r ∧ r.fld (Page.gddr st g) gddrStatOff 7 0 = t ∧
      r.fld (Page.gddr st g) gddrStatOff 9 8 = 0 ∧ r.mem = s.mem ∧
      r.fld (Page.gddr st g) gddrStatOff 12 10 = max (s.fld (Page.gddr st g) 0x100 10 8) 1) ∧
  (∀ (s : State) (st g : Nat), st < 72 → g < 6 →
    ∃ t, exec (.gddrRefresh st g) s = .next t ∧ t.fld (Page.gddr st g) gddrStatOff 12 10
      = max (s.fld (Page.gddr st g) 0x100 10 8)
        (requiredRefresh (s.fld (Page.gddr st g) gddrStatOff 9 8) (s.gddrCtl st g).hot) ∧ t.mem = s.mem) ∧
  (∀ (s : State) (st off : Nat), st < 72 → off < 0x600000000 → s.fld (Page.gddr st (gddrDev off)) 0x100 31 24 ≠ 0 →
    s.gddrStatus st off = 0 → s.fld (Page.gddr st (gddrDev off)) gddrStatOff 14 14 = 0 →
    s.badStatus ((gddrBase st + off) / 128 * 128) = 0 →
    ∃ t, exec (.gddrScrub st off .corrected) s = .next t ∧
      (t.gddrCtl st (gddrDev off)).rewrites = (s.gddrCtl st (gddrDev off)).rewrites ++ [(gddrBase st + off) / 128] ∧
      t.reg (Page.gddr st (gddrDev off)) (Reg.CNT + 24) = s.reg (Page.gddr st (gddrDev off)) (Reg.CNT + 24) + 1 ∧
      t.mem = s.mem) ∧
  (∀ (s : State) (st g : Nat), st < 72 → g < 6 →
    ∃ t, exec (.lineRewrite st g) s = .next t ∧ (t.gddrCtl st g).rewrites = (s.gddrCtl st g).rewrites.drop 1 ∧
      ({ t with gddr := s.gddr } : State) = s)

/-- A regulator refills by RATE ÷ 1,600 B a cycle up to its bound (R298); a write of REG_INDEX selects a point and a partition
(R302), and a write of REG_DATA loads the selected regulator, with a full bucket where ENABLE goes from 0 to 1 (R301). -/
def Obligations.RegulatorsComplete : Prop :=
  (∀ (s : State) (page point part cycles : Nat), point < 16 → part < 64 →
    ∃ t, exec (.regRefill page cycles) s = .next t ∧
      t.bucket page point part = (s.bucket page point part).refill cycles ∧
      (∀ p, p ≠ page → t.bucket p point part = s.bucket p point part) ∧ ({ t with buckets := s.buckets } : State) = s) ∧
  (∀ (s : State) (i : Ident) (stack : Nat) (v : Word), stack < 72 → Admitted s i (Page.regulator stack) 0x108 v →
    bits v 11 8 < 10 →
    ∃ t, exec (.regIndexWrite i (Page.regulator stack) v) s = .next t ∧
      t.fld (Page.regulator stack) 0x108 11 8 = bits v 11 8 ∧ t.fld (Page.regulator stack) 0x108 5 0 = bits v 5 0 ∧
      t.mem = s.mem ∧ t.buckets = s.buckets) ∧
  (∀ (s : State) (i : Ident) (stack : Nat) (v : Word), stack < 72 → Admitted s i (Page.regulator stack) 0x110 v →
    bits v 47 32 ≠ 0 → bit v 63 = true →
    (s.bucket (Page.regulator stack) (s.regSelected (Page.regulator stack)).1 (s.regSelected (Page.regulator stack)).2).enable
      = false →
    ∃ t, exec (.regDataWrite i (Page.regulator stack) v) s = .next t ∧
      t.bucket (Page.regulator stack) (s.regSelected (Page.regulator stack)).1 (s.regSelected (Page.regulator stack)).2
        = ⟨true, bit v 62, bits v 61 59, bits v 47 32, bits v 23 0, ((bits v 47 32 * 1024 * 65536 : Nat) : Int)⟩ ∧
      t.mem = s.mem ∧ t.regs = s.regs)

/-- A read at a bay's root port that its regulator finds in budget answers the line's bytes (R306, R308), the first timeout of a
request retrains the link and the second loses the bay (R307), the hotness counts of an engine restart (R321), a resync starts on
a DEGRADED range with one copy left and ends with that copy over the other, the range back in SYNC (R325), and a bay whose
cartridge vanishes is lost (R332, R600). -/
def Obligations.CellarCompletes : Prop :=
  (∀ (s : State) (b off n part pasid va : Nat), b < 16 → off < 0x20000000000 →
    (s.bucket (Page.bay b) 0 part).inBudget (64 * ((off % 64 + n + 63) / 64)) = true → s.mirrorOf b off = none →
    s.copyStatus b off = 0 →
    ∃ t, exec (.cellarAccess b off n [] part none pasid va false 0) s = .next t ∧
      t.reply = (0, s.mem.readBytes (bayBase b + off) n) ∧ t.mem = s.mem ∧ (t.bay b).retrained = false ∧
      t.bucket (Page.bay b) 0 part
        = (s.bucket (Page.bay b) 0 part).charge (64 * ((off % 64 + n + 63) / 64))) ∧
  (∀ (s : State) (b : Nat), b < 16 → s.pageState (Page.bay b) = PS.ready → (s.bay b).retrained = false →
    ∃ t, exec (.bayReqTimeout b) s = .next t ∧ (t.bay b).retrained = true ∧ Posts s t (Page.bay b) 0x0262 ∧
      t.reg (Page.bay b) (Reg.CNT + 48) = s.reg (Page.bay b) (Reg.CNT + 48) + 1 ∧ t.mem = s.mem) ∧
  (∀ (s : State) (b : Nat), b < 16 → s.pageState (Page.bay b) = PS.ready → (s.bay b).retrained = true →
    exec (.bayReqTimeout b) s = .next ((s.genEvent (Page.bay b) 0x0262 0 1).bayLost b false)) ∧
  (∀ (s : State) (stack : Nat),
    ∃ t, exec (.hotWindowRestart stack) s = .next t ∧ (∀ frame, frame < 2 ^ 45 →
      t.hot.find (stack * 2 ^ 45 + frame) = none) ∧ ({ t with hot := s.hot } : State) = s) ∧
  (∀ (s : State) (i : Ident) (b j : Nat) (v : Word), b < 16 → j < 8 →
    Admitted s i (Page.bay b) (0x408 + 16 * j) (setBit v 0 true) → s.fld (Page.bay b) (0x400 + 16 * j) 0 0 = 1 →
    s.fld (Page.bay b) (0x408 + 16 * j) 5 4 = 1 → s.ready (Page.bay b) = true → s.ready (Page.bay (bits v 11 8)) = true →
    s.lostCopy b j ≠ 3 →
    ∃ t, exec (.mirrorResync i b j v) s = .next t ∧ t.fld (Page.bay b) (0x408 + 16 * j) 5 4 = 2 ∧ t.mem = s.mem) ∧
  (∀ (s : State) (b j lo n p : Nat), b < 16 → j < 8 → s.fld (Page.bay b) (0x408 + 16 * j) 5 4 = 2 → s.lostCopy b j = 2 →
    lo = s.fld (Page.bay b) (0x400 + 16 * j) 40 12 * 4096 →
    n = s.fld (Page.bay b) (0x408 + 16 * j) 40 12 * 4096 + 4096 - lo → p = s.fld (Page.bay b) (0x408 + 16 * j) 11 8 →
    ∃ t, exec (.mirrorResyncDone b j) s = .next t ∧ t.fld (Page.bay b) (0x408 + 16 * j) 5 4 = 0 ∧
      t.mem = s.mem.copyRange (bayBase b + lo) (bayBase p + lo) n ∧ t.lostCopy b j = 0 ∧ Posts s t (Page.bay b) 0x0267) ∧
  (∀ (s : State) (b : Nat) (absent : Bool), b < 16 → s.pageState (Page.bay b) = PS.ready →
    exec (.baySurpriseRemoval b absent) s = .next (s.bayLost b absent))

/-- A write of MBX_CMD with GO issues its opcode to a bay with a trained link, and a reserved opcode ends with VERSION_MISMATCH
(R309). The answer to a software command gives RESULT and MBX_DATA and ends BUSY (R309), that to the root port's own WEAR
gives BAY_STAT its wear, and every second an admitted cartridge is asked for HEALTH, WEAR and TEMPERATURE (R310). -/
def Obligations.MailboxCompletes : Prop :=
  (∀ (s : State) (i : Ident) (b op len : Nat) (c : Instr), b < 16 → len < 16 →
    (op, c) ∈ [(0x01, Instr.mbxOlmIdentify i b len), (0x02, .mbxHealth i b len), (0x03, .mbxWear i b len),
      (0x04, .mbxTemperature i b len), (0x10, .mbxEvacBegin i b len), (0x11, .mbxEvacEnd i b len),
      (0x12, .mbxRemovalReady i b len)] →
    Admitted s i (Page.bay b) mbxCmd (place 16 16 1 ||| place 11 8 len ||| place 7 0 op) →
    s.fld (Page.bay b) mbxCmd 17 17 = 0 → s.bayStat b 3 3 = 1 → (∀ e ∈ (s.bay b).mbxQueue, e.2 = false) →
    ∃ t, exec c s = .next t ∧ (t.bay b).mbxQueue = (s.bay b).mbxQueue ++ [(op, true)] ∧
      t.fld (Page.bay b) mbxCmd 17 17 = 1 ∧ t.fld (Page.bay b) mbxCmd 7 0 = op ∧ t.fld (Page.bay b) mbxCmd 11 8 = len ∧
      t.mem = s.mem) ∧
  (∀ (s : State) (i : Ident) (b op len : Nat), b < 16 → len < 16 → op < 256 → mbxKnown op = false →
    Admitted s i (Page.bay b) mbxCmd (place 16 16 1 ||| place 11 8 len ||| place 7 0 op) →
    s.fld (Page.bay b) mbxCmd 17 17 = 0 → s.bayStat b 3 3 = 1 → (s.bay b).mbxQueue = [] →
    ∃ t, exec (.mbxReservedOpcode i b op len) s = .next t ∧ (t.bay b).mbxQueue = [] ∧
      t.fld (Page.bay b) mbxCmd 17 17 = 0 ∧ t.fld (Page.bay b) mbxCmd 16 16 = 0 ∧
      t.fld (Page.bay b) mbxCmd 31 24 = St.versionMismatch ∧ t.mem = s.mem) ∧
  (∀ (s : State) (b op result : Nat) (data : List Word), b < 16 → result < 256 → (s.bay b).mbxQueue = [(op, true)] →
    ∃ t, exec (.mbxResponse b result data) s = .next t ∧ (t.bay b).mbxQueue = [] ∧
      t.fld (Page.bay b) mbxCmd 31 24 = result ∧ t.fld (Page.bay b) mbxCmd 17 17 = 0 ∧
      (∀ k w, k < 8 → data[k]? = some w → t.reg (Page.bay b) (0x308 + 8 * k) = w) ∧ t.mem = s.mem) ∧
  (∀ (s : State) (b : Nat) (w : Word) (l : List Word), b < 16 → (s.bay b).mbxQueue = [(3, false)] →
    ∃ t, exec (.mbxResponse b 0 (w :: l)) s = .next t ∧ t.bayStat b 55 48 = bits w 7 0 ∧ (t.bay b).mbxQueue = [] ∧
      t.mem = s.mem) ∧
  (∀ (s : State) (b : Nat), b < 16 → s.bayStat b 4 4 = 1 → (s.bay b).mbxQueue = [] →
    ∃ t, exec (.bayHealthPoll b) s = .next t ∧ (t.bay b).mbxQueue = [(2, false), (3, false), (4, false)] ∧
      t.regs = s.regs ∧ t.mem = s.mem)

/-- ADMIT leaves every byte of a fitting cartridge zero, gives it its capacity and makes the bay READY with a new epoch (R312,
R566). EVAC starts the copying pass where the free frames cover the counted pages (R328, R329), EVAC_CANCEL ends it (R330), and
once every counted page has moved the bay posts EVAC_DONE and quiesces (R330, R331). POOL_GIVE puts a frame on top of its
partition's pool (R318). -/
def Obligations.BaysComplete : Prop :=
  (∀ (s : State) (i : Ident) (b : Nat), b < 16 →
    Admitted s i (Page.bay b) 0x100 (place 63 48 (s.epoch (Page.bay b)) ||| place 2 0 1) →
    s.pageState (Page.bay b) = PS.init → (s.bay b).fit = true → (s.bay b).sane = true →
    ∃ t, exec (.bayAdmit i b (s.epoch (Page.bay b))) s = .next t ∧ t.pageState (Page.bay b) = PS.ready ∧
      t.epoch (Page.bay b) = (s.epoch (Page.bay b) + 1) % 65536 ∧ t.bayStat b 4 4 = 1 ∧ t.bayStat b 63 56 = 0 ∧
      (t.bay b).capacity = min (s.bay b).reported 0x20000000000 ∧
      (∀ a, bayBase b ≤ a → a < bayBase b + 0x20000000000 → t.mem.read a = 0) ∧
      (∀ a, a < bayBase b ∨ bayBase b + 0x20000000000 ≤ a → t.mem.read a = s.mem.read a)) ∧
  (∀ (s r u : State) (i : Ident) (b : Nat) (v : Word) (xs : List EvacPage), b < 16 →
    v = place 63 48 (s.epoch (Page.bay b)) ||| place 2 0 2 → Admitted s i (Page.bay b) 0x100 v →
    s.ready (Page.bay b) = true → s.bayStat b 5 5 = 0 →
    r = (s.admittedState i (Page.bay b) 0x100).storeWrite (Page.bay b) 0x100 v → r.evacCount b = (xs, u) → u.evacCovers b xs = true →
    exec (.bayEvac i b (s.epoch (Page.bay b))) s = .next ((((((u.setBayStat b 63 56 0).setBayStat b 5 5 1).modBay b (fun x =>
      { x with evacLeft := xs, evacCounted := xs.length, evacFrames := [], evacStuck := [], evacDone := false })).mbxAsk b
        0x10 false).evacFill b))) ∧
  (∀ (s : State) (i : Ident) (b epoch : Nat), b < 16 → epoch < 65536 →
    Admitted s i (Page.bay b) 0x100 (place 63 48 epoch ||| place 2 0 4) → s.bayStat b 5 5 = 1 →
    (∀ m ∈ s.migs, m.why ≠ .evac b) → s.removal b ≠ 3 →
    ∃ t, exec (.bayEvacCancel i b epoch) s = .next t ∧ t.bayStat b 5 5 = 0 ∧ t.bayStat b 63 56 = 0 ∧
      (t.bay b).evacLeft = [] ∧ t.mem = s.mem ∧ t.migs = s.migs) ∧
  (∀ (s u : State) (b : Nat), b < 16 → s.bayStat b 5 5 = 1 → (s.bay b).evacLeft = [] → (s.bay b).evacStuck = [] →
    (∀ m ∈ s.migs, m.why ≠ .evac b) →
    u = (s.mbxAsk b 0x11 false).genEvent (Page.bay b) 0x0263 0
      (place 31 0 (s.bay b).evacFrames.length ||| place 63 32 (s.evacUnaccounted b)) →
    exec (.evacCopyDone b) s = .next ((((((u.modBay b (fun x => { x with evacDone := true, evacStuck := [] })).setBayStat b 5 5
      0).setFld (Page.bay b) Reg.PAGE_CTL 1 1 1).enterState (Page.bay b) PS.quiescing).mirrorsDegrade b false).mbxAsk b 0x12
        false)) ∧
  (∀ (s : State) (i : Ident) (stack a : Nat) (v : Word), stack < 72 → Admitted s i (Page.racking stack) 0x118 v →
    s.poolAddr (Page.racking stack) (bits v 63 58) = some a → s.mem.readNat (a + 12) 4 < s.mem.readNat (a + 8) 4 →
    ∃ t, exec (.poolGive i (Page.racking stack) v) s = .next t ∧
      t.mem = (s.mem.writeNat (s.mem.readNat a 8 + 8 * s.mem.readNat (a + 12) 4) 8 (bits v 51 12 * 4096)).writeNat (a + 12) 4
        (s.mem.readNat (a + 12) 4 + 1) ∧ t.regs = s.regs)

/-- The attention button counts its presses and its hold turns the identify light over, which a write of SP_STAT sets (R591); the
display's control posts its event (R592). A bay's button asks for a removal (R594), the last needed consent or 30 s queue it and a
refusal ends it (R594, R595), the request at the head starts its evacuation (R596), and a latch that opens on an evacuated bay
removes its power (R598). A cartridge that is inserted powers its bay, which trains, negotiates and enters INIT (R601, R627). -/
def Obligations.RemovalCompletes : Prop :=
  (∀ (s : State) (ms : Nat), 50 ≤ ms → ms ≤ 2000 →
    ∃ t, exec (.attentionPress ms) s = .next t ∧ Posts s t Page.servicePanel 0x02F0 ∧
      t.fld Page.servicePanel Reg.SP_STAT 63 32 = (s.fld Page.servicePanel Reg.SP_STAT 63 32 + 1) % 2 ^ 32) ∧
  (∀ s : State, ∃ t, exec .attentionHold s = .next t ∧ Posts s t Page.servicePanel 0x02F1 ∧
    t.fld Page.servicePanel Reg.SP_STAT 0 0 = 1 - s.fld Page.servicePanel Reg.SP_STAT 0 0) ∧
  (∀ (s : State) (i : Ident) (v : Word), Admitted s i Page.servicePanel Reg.SP_STAT v →
    ∃ t, exec (.identifyWrite i v) s = .next t ∧ t.fld Page.servicePanel Reg.SP_STAT 0 0 = bits v 0 0 ∧
      t.events = s.events ∧ t.mem = s.mem) ∧
  (∀ (s : State) (code source : Nat), ∃ t, exec (.displayAck code source) s = .next t ∧ Posts s t Page.servicePanel 0x02F2 ∧
    t.mem = s.mem) ∧
  (∀ (s : State) (b ms : Nat), b < 16 → 50 ≤ ms → s.bayStat b 1 1 = 1 → s.removal b = 0 → s.pageState (Page.bay b) = PS.ready →
    ∃ t, exec (.bayButtonPress b ms) s = .next t ∧ t.bayStat b 0 0 = 1 ∧ t.mem = s.mem ∧
      t.removal b = (if s.poolOwners b = [] then 2 else 1)) ∧
  (∀ (s : State) (v : Word) (b : Nat), Admitted s .mgmt Page.servicePanel Reg.REMOVE_ANSWER v → b = bits v 11 8 →
    s.removal b = 1 → bits v 63 48 = s.epoch (Page.bay b) →
    (bits v 1 0 = 1 → ∃ t, exec (.removeAnswer .mgmt v) s = .next t ∧ t.removal b = 2 ∧
      t.reg Page.servicePanel (Reg.REMOVE_ASKED + 16 * b) = 0 ∧ t.mem = s.mem) ∧
    (bits v 1 0 = 2 → ∃ t, exec (.removeAnswer .mgmt v) s = .next t ∧ t.removal b = 0 ∧ t.bayStat b 0 0 = 0 ∧
      Posts s t Page.servicePanel 0x02F4 ∧ t.mem = s.mem)) ∧
  (∀ (s : State) (b : Nat), b < 16 → s.removal b = 1 → (s.bay b).askedAt + 30000000000 ≤ s.panelTime.toNat →
    ∃ t, exec (.consentTimeout b) s = .next t ∧ t.removal b = 2 ∧ (t.bay b).queued = s.useCtr ∧ t.mem = s.mem) ∧
  (∀ (s : State) (b : Nat), b < 16 → s.removal b = 2 →
    (∀ c, c < 16 → s.removal c = 2 → (s.bay b).queued ≤ (s.bay c).queued) → (∀ c, c < 16 → s.bayStat c 5 5 = 0) →
    exec (.evacQueueStart b) s = .next ((s.setRemoval b 3).bayEvac b false)) ∧
  (∀ (s : State) (b : Nat) (absent : Bool), b < 16 → s.pageState (Page.bay b) = PS.quiesced → (s.bay b).evacDone = true →
    exec (.latchOpen b absent) s = .next (((s.setBayStat b 2 2 0).setRemoval b 0).bayPowerOff b absent)) ∧
  (∀ (s : State) (b width rate capacity version : Nat) (advert : Word) (sane fit : Bool), b < 16 → 1 ≤ width → width < 32 →
    s.pageState (Page.bay b) = PS.off → s.boot.running = false → s.unpowered.contains (Page.portDie (b / 4)) = false →
    version = negotiate (sideOf (s.reg (Page.bay b) Reg.VER_SUPPORT).toNat) (sideOf advert.toNat) → version ≠ 0 →
    s.fld Page.pmc Reg.BOOT_STAT 3 0 ≠ 6 →
    ∃ t, exec (.cartridgeInsert b width rate advert capacity sane fit) s = .next t ∧ t.pageState (Page.bay b) = PS.init ∧
      t.bayStat b 1 1 = 1 ∧ t.bayStat b 2 2 = 1 ∧ t.bayStat b 3 3 = 1 ∧ t.bayStat b 20 16 = width ∧
      t.fld (Page.bay b) Reg.VER_ACTIVE 15 0 = version % 65536 ∧ (t.bay b).capacity = min capacity 0x20000000000 ∧
      Posts s t (Page.bay b) 0x02F5 ∧ t.mem = s.mem)

/-- The home of a line that no agent holds grants it: RD_SHARED and RD_UNIQUE in E with the line's bytes and status, recorded as
owned, BUSY until COMP_ACK (R339, R342, Table 11-5); UPGRADE of the only sharer brings ownership alone (R345), and RD_PF a shared
copy (R360). It performs the request of an agent without copies in memory: RD_ONCE answers the bytes, WR_FULL stores the line,
WR_PTL the bytes of its mask, and ATOMIC the operation's value, and it answers the old one (R201, R342). -/
def Obligations.HomeCompletes : Prop :=
  (∀ (s : State) (agent line home off : Nat) (c : Instr), isCaching agent = true →
    c = .rdShared agent line ∨ c = .rdUnique agent line → regionOf (line * 128) = .gddr home off →
    s.gddrStatus home off = 0 → s.dirQueue = [] → s.busy line = false → s.dir.find line = none →
    s.dirUsed home (dirSet line) < 20 →
    ∃ t, exec c s = .next t ∧ (t.dirEntry line).owner = some agent ∧ (t.dirEntry line).sharers = [] ∧ t.busy line = true ∧
      ⟨.datE, 0, agent, line, s.badStatus (line * 128), if s.badStatus (line * 128) = 0 then s.lineBytes line else []⟩ ∈ t.net ∧
      t.mem = s.mem) ∧
  (∀ (s : State) (agent line home off : Nat), isCaching agent = true → regionOf (line * 128) = .gddr home off →
    s.gddrStatus home off = 0 → s.dirQueue = [] → s.busy line = false → s.dir.find line = some (s.dirEntry line) →
    (s.dirEntry line).owner = none → (s.dirEntry line).sharers = [agent] →
    ∃ t, exec (.upgrade agent line) s = .next t ∧ (t.dirEntry line).owner = some agent ∧ (t.dirEntry line).sharers = [] ∧
      t.busy line = true ∧ ⟨.grant, home, agent, line, 0, []⟩ ∈ t.net ∧ t.mem = s.mem) ∧
  (∀ (s : State) (agent line home off : Nat), isCaching agent = true → regionOf (line * 128) = .gddr home off →
    s.gddrStatus home off = 0 → s.badStatus (line * 128) = 0 → s.busy line = false → s.dir.find line = none →
    s.dirUsed home (dirSet line) < 20 →
    ∃ t, exec (.rdPf agent line) s = .next t ∧ (t.dirEntry line).sharers = [agent] ∧ (t.dirEntry line).owner = none ∧
      ⟨.datS, home, agent, line, 0, s.lineBytes line⟩ ∈ t.net ∧ t.mem = s.mem) ∧
  (∀ (s : State) (agent line home off : Nat), regionOf (line * 128) = .gddr home off → s.gddrStatus home off = 0 →
    s.badStatus (line * 128) = 0 → s.dirQueue = [] → s.busy line = false → s.dir.find line = none →
    s.cacheFind home line = none →
    (∀ (o n : Nat), n < 65536 → ∃ t, exec (.rdOnce agent line o n) s = .next t ∧
      ⟨.datIo, 0, agent, line, 0, s.mem.readBytes (line * 128 + o) n⟩ ∈ t.net ∧ t.mem = s.mem) ∧
    (∀ data : List Byte, data.length = 128 → ∃ t, exec (.wrFull agent line data) s = .next t ∧
      t.mem = s.mem.writeBytes (line * 128) data ∧ ⟨.comp, 0, agent, line, 0, []⟩ ∈ t.net) ∧
    (∀ (mask : Nat) (data : List Byte), data.length = 128 → ∃ t, exec (.wrPtl agent line mask data) s = .next t ∧
      t.mem = s.mem.writeBytes (line * 128) (maskBytes mask data (s.lineBytes line)) ∧
      ⟨.comp, 0, agent, line, 0, []⟩ ∈ t.net) ∧
    (∀ o aop size b c : Nat, aop < 256 → size < 4 → o + 2 ^ size ≤ 128 → b < 2 ^ 64 → c < 2 ^ 64 →
      regionOf (line * 128 + o) = .gddr home (off + o) → s.gddrStatus home (off + o) = 0 →
      ∃ t, exec (.atomic agent line o aop size b c) s = .next t ∧
        t.mem = s.mem.writeBytes (line * 128 + o)
          (leBytes (2 ^ size) (amoValue aop (8 * 2 ^ size) (s.mem.readNat (line * 128 + o) (2 ^ size)) b c)) ∧
        ⟨.datIo, 0, agent, line, 0, leBytes (2 ^ size) (s.mem.readNat (line * 128 + o) (2 ^ size))⟩ ∈ t.net))

/-- A caching agent answers each snoop of a line that it owns (R343, Table 11-6): SNP_FWD_S leaves it S, the others leave it
without a copy, and the line's bytes go where the table says. What a requester receives (R341, R342, R343, R345, R360): a server
core holds the line in the state of the grant and acknowledges to the home; COMP and DAT_IO give an agent without copies its
status and data; and a prefetch that the home drops waits no longer. -/
def Obligations.AgentsComplete : Prop :=
  (∀ (s : State) (agent line req : Nat), isCaching agent = true →
    (s.agentState agent line = .m → isCaching (req % 512) = true →
      ∃ t, exec (.snpFwdS agent line req) s = .next t ∧ t.agentState agent line = .s ∧
        ⟨.datS, agent, req, line, 0, s.lineBytes line⟩ ∈ t.net ∧ ⟨.datWb, agent, 0, line, 0, s.lineBytes line⟩ ∈ t.net ∧
        t.mem = s.mem) ∧
    (s.agentState agent line = .m →
      ∃ t, exec (.snpFwdU agent line req) s = .next t ∧ t.agentState agent line = .i ∧
        ⟨.datM, agent, req, line, 0, s.lineBytes line⟩ ∈ t.net ∧ ⟨.fwdAck, agent, 0, line, 0, []⟩ ∈ t.net ∧ t.mem = s.mem) ∧
    (s.agentState agent line = .s →
      ∃ t, exec (.snpInv agent line) s = .next t ∧ t.agentState agent line = .i ∧
        ⟨.invAck, agent, 0, line, 0, []⟩ ∈ t.net ∧ t.mem = s.mem) ∧
    (s.agentState agent line = .m →
      ∃ t, exec (.snpRecall agent line) s = .next t ∧ t.agentState agent line = .i ∧
        ⟨.datWb, agent, 0, line, 0, s.lineBytes line⟩ ∈ t.net ∧ t.mem = s.mem)) ∧
  (∀ (s : State) (agent line : Nat) (x : DirTxn) (c : Instr) (st : LineState), agent < 256 → s.txns.find line = some x →
    x.needAck = true → x.req.src = agent →
    (c, st) ∈ [(Instr.datS agent line 0, LineState.s), (.datE agent line 0, .e), (.datM agent line 0, .m),
      (.grant agent line, .e)] →
    ∃ t, exec c s = .next t ∧ t.agentState agent line = st ∧ ⟨.compAck, agent, 0, line, 0, []⟩ ∈ t.net ∧ t.mem = s.mem ∧
      ∀ a, a ≠ agent → a < 512 → t.agentState a line = s.agentState a line) ∧
  (∀ (s : State) (agent line status : Nat),
    ∃ t, exec (.comp agent line status) s = .next t ∧ t.reply = (status, []) ∧
      ({ t with reply := s.reply, net := s.net } : State) = s) ∧
  (∀ (s : State) (agent line status : Nat) (m : Msg),
    (s.net.find? fun m => decide (m.kind = .datIo ∧ m.dst = agent ∧ m.a = line)) = some m →
    ∃ t, exec (.datIo agent line status) s = .next t ∧ t.reply = (status, m.data) ∧
      ({ t with reply := s.reply, net := s.net } : State) = s) ∧
  (∀ (s : State) (agent line : Nat),
    ∃ t, exec (.pfDrop agent line) s = .next t ∧
      (∀ r ∈ t.nearReqs, nearAgent r.stack = agent → r.line = line → r.pref = false) ∧
      ({ t with nearReqs := s.nearReqs, net := s.net } : State) = s)

/-- The answers at the home (R339, R342, R344, Table 11-5): INV_ACK and RSP_MISS leave the answers awaited, a forwarding owner's
FWD_ACK hands the line to the requester of RD_UNIQUE, EVICT_CLEAN and the DAT_WB of an eviction take the agent out of the entry,
and COMP_ACK ends the transaction. -/
def Obligations.AnswersComplete : Prop :=
  (∀ (s : State) (agent other line home : Nat) (x : DirTxn), s.homeOf (line * 128) = some home →
    s.txns.find line = some x → agent ∈ x.waits → other ∈ x.waits → other ≠ agent →
    (s.evicting agent line = false →
      ∃ t y, exec (.invAck agent line) s = .next t ∧ t.txns.find line = some y ∧ y.waits = x.waits.filter (· ≠ agent) ∧
        y.missed = x.missed ∧ t.dirNames line agent = false ∧ t.mem = s.mem) ∧
    (s.dirNames line agent = true →
      ∃ t y, exec (.rspMiss agent line) s = .next t ∧ t.txns.find line = some y ∧ y.waits = x.waits.filter (· ≠ agent) ∧
        agent ∈ y.missed ∧ t.mem = s.mem ∧
        t.reg (Page.directory home) (Reg.CNT + 48) = s.reg (Page.directory home) (Reg.CNT + 48) + 1)) ∧
  (∀ (s : State) (agent line home : Nat) (x : DirTxn), s.homeOf (line * 128) = some home → s.txns.find line = some x →
    x.waits = [agent] → x.req.kind = .rdUnique → x.needAck = true → x.acked = false →
    ∃ t, exec (.fwdAck agent line) s = .next t ∧ (t.dirEntry line).owner = some x.req.src ∧ (t.dirEntry line).sharers = [] ∧
      t.txns.find line = some { x with waits := [] } ∧ t.mem = s.mem) ∧
  (∀ (s : State) (agent line home off : Nat) (c : Instr), c = .evictClean agent line ∨ c = .datWb agent line true →
    s.homeOf (line * 128) = some home → regionOf (line * 128) = .gddr home off → s.txns.find line = none →
    ∃ t, exec c s = .next t ∧ t.dirNames line agent = false ∧ t.agentState agent line = .i ∧ t.mem = s.mem) ∧
  (∀ (s : State) (agent line home : Nat) (x : DirTxn), s.homeOf (line * 128) = some home → s.txns.find line = some x →
    x.needAck = true → x.req.src = agent → x.waits = [] → x.missed = [] → s.dirQueue = [] →
    ∃ t, exec (.compAck agent line) s = .next t ∧ t.busy line = false ∧ t.dir = s.dir ∧ t.mem = s.mem)


/-- A demand translation that the hub copy lacks goes to the IOMMU, whose answer fills the copy (R351, R352), and a translation
prefetch fills it by reads alone (R359, R361). Software's answer to a page request lets the command that waited for the page go
on (R353, R407), and a racking shootdown takes the page out of every copy (R315, R529). -/
def Obligations.TranslationCompletes : Prop :=
  (∀ (s u : State) (stack dev pasid va pa : Nat) (write w : Bool), s.tlbFind stack dev pasid (va / 4096) = none →
    (s.bump (Page.hubTlb stack) 1).iommu dev pasid va write = (.ok pa, w, u) →
    exec (.translationRequest stack dev pasid va write) s = .next
      (u.post ⟨.xlat, stack, dev, va / 4096, pa / 4096 * 2 + w.toNat, leBytes 4 pasid⟩)) ∧
  (∀ (s : State) (stack dev pasid vpage b : Nat), s.net = [⟨.xlat, stack, dev, vpage, b, leBytes 4 pasid⟩] →
    s.tlbFind stack dev pasid vpage = none → s.ready (Page.hubTlb stack) = true → s.tlb.length < 262144 →
    ∃ t, exec (.translationReply stack dev pasid vpage) s = .next t ∧ t.net = [] ∧
      t.tlbFind stack dev pasid vpage = some ⟨stack, dev, pasid, vpage, b / 2, decide (b % 2 = 1), false⟩ ∧
      t.reply = (0, leBytes 8 (b / 2 * 4096)) ∧ t.mem = s.mem) ∧
  (∀ (s : State) (stack dev pasid va ahead pa : Nat) (write : Bool) (ls : List Leaf), s.fld (Page.hubTlb stack) 0x100 8 8 = 1 →
    1 ≤ ahead → ahead ≤ s.fld (Page.hubTlb stack) 0x100 4 0 → s.tlbFind stack dev pasid (va / 4096) = none →
    s.walk dev pasid va = .found (ls, pa) → leavesPermit ls write = true → s.ready (Page.hubTlb stack) = true →
    s.tlb.length < 262144 →
    ∃ t, exec (.translationPrefetch stack dev pasid va ahead write) s = .next t ∧
      t.tlbFind stack dev pasid (va / 4096) = some ⟨stack, dev, pasid, va / 4096, pa / 4096,
        leavesPermit ls true && ls.all fun l => bit l.pte 7, true⟩ ∧ t.mem = s.mem) ∧
  (∀ (s : State) (dev pasid vpage key : Nat) (c : Cmd), s.cmds = [(key, c)] → cmdKey c.queue c.seq = key → c.held = 2 →
    c.heldPage = vpage → c.part = dev → c.pasid = pasid → s.queues = [] → s.stages = [] → s.blends = [] → s.decs = [] →
    s.migs = [] → s.pageReqs = [⟨dev, pasid, vpage, .engine⟩] →
    ∃ t, exec (.atsPrgr dev pasid vpage true) s = .next t ∧ t.cmds = [(key, { c with held := 0 })] ∧ t.pageReqs = [] ∧
      ({ t with cmds := s.cmds, pageReqs := s.pageReqs } : State) = s) ∧
  (∀ (s : State) (part vpage : Nat),
    ∃ t, exec (.shootdown part vpage) s = .next t ∧ (∀ e ∈ t.tlb, ¬ (e.dev = part ∧ e.vpage = vpage)) ∧
      (∀ e ∈ s.tlb, e.dev ≠ part ∨ e.vpage ≠ vpage → e ∈ t.tlb) ∧ (∀ e ∈ t.srvTlb, e.vpage ≠ vpage) ∧ t.mem = s.mem)

/-- An invalidation removes what it names from every READY hub copy (R354), a fence ends the invalidations and raises the interrupt
that it asks for (R355), and a late one posts INV_SLOW (R355, R365). Host translations are asked for, filled into the ATC, asked
for again after a Page Request Group Response, and dropped by an Invalidate Request, which is answered (R356 to R358). -/
def Obligations.InvalidationCompletes : Prop :=
  (∀ (s : State) (index : Nat) (gvma : Bool) (dev pasid va : Option Nat),
    ∃ t, exec (.iotinval index gvma dev pasid va []) s = .next t ∧ t.invals = s.invals ∧ t.mem = s.mem ∧
      (∀ e ∈ t.tlb, e.stack < 72 → s.ready (Page.hubTlb e.stack) = true → ¬ ((dev = none ∨ dev = some e.dev) ∧
        (gvma = true ∨ ((pasid = none ∨ pasid = some e.pasid) ∧ (va = none ∨ va.map (· / 4096) = some e.vpage)))))) ∧
  (∀ (s : State) (data : Nat),
    ∃ t, exec (.iofenceC none data true) s = .next t ∧ t.invals = [] ∧ bit (t.reg 0x102 0x48) 11 = true ∧
      bit (t.reg 0x102 0x50) 32 = true ∧ t.mem = s.mem) ∧
  (∀ (s : State) (v : Inval), s.invals = [v] → v.slow = false → v.issued + 100000 ≤ s.panelTime.toNat →
    ∃ t, exec (.invSlow v.index) s = .next t ∧ t.invals = [{ v with slow := true }] ∧ Posts s t Page.iommu 0x0280 ∧
      t.mem = s.mem) ∧
  (∀ (s : State) (part off : Nat) (write : Bool), s.hostStatus part .engine = 0 →
    s.fld Page.hostPort Reg.VER_ACTIVE 15 0 ≠ 0x0300 → s.atcFind (part + 1) off = none →
    ∃ t, exec (.atsTranslationRequest part off write) s = .next t ∧
      t.atsReqs = s.atsReqs ++ [{ fn := part + 1, off := off, write := write }] ∧
      t.out = ⟨.atsRequest, part + 1, 0, off, write.toNat, []⟩ :: s.out ∧
      ({ t with atsReqs := s.atsReqs, out := s.out } : State) = s) ∧
  (∀ (s : State) (fn off size : Nat) (read write : Bool) (r : AtsReq),
    (s.atsReqs.find? fun r => decide (r.fn = fn ∧ r.off = off) && !r.pri) = some r →
    (if r.write then write else read) = true → s.atc.length < 16384 →
    ∃ t, exec (.translationCompletion fn off size true read write) s = .next t ∧ t.reply = (0, []) ∧
      t.atc = s.atc ++ [⟨fn, off / 2 ^ max 12 (min 21 size) * 2 ^ max 12 (min 21 size), 2 ^ max 12 (min 21 size), write⟩] ∧
      (∀ x ∈ t.atsReqs, x.fn ≠ fn ∨ x.off ≠ off) ∧ t.mem = s.mem) ∧
  (∀ (s : State) (fn off : Nat) (r : AtsReq),
    (s.atsReqs.find? fun r => decide (r.fn = fn ∧ r.off = off) && r.pri) = some r →
    ∃ t, exec (.prgResponse fn off true) s = .next t ∧ t.out = ⟨.atsRequest, fn, 0, off, r.write.toNat, []⟩ :: s.out ∧
      { r with pri := false } ∈ t.atsReqs ∧ ({ t with atsReqs := s.atsReqs, out := s.out } : State) = s) ∧
  (∀ (s : State) (fn base size : Nat),
    ∃ t, exec (.atsInvalidateRequest fn base size) s = .next t ∧
      (∀ e ∈ t.atc, ¬ (e.fn = fn ∧ e.base < base + size ∧ base < e.base + e.size)) ∧
      t.out = ⟨.invCompletion, fn, 0, base, size, []⟩ :: s.out ∧ ({ t with atc := s.atc, out := s.out } : State) = s)

/-- A flit whose CRC fails is replayed and counted (R367), a link that goes down is down at both ends (R374), a packet that a hub
injects waits at the output that its routing table names (R371, R372), INJECT_HOLD is set and cleared, and an idle router's hold
clears at once (R373, R374); a rebuild writes the tables and releases injection once every router is drained (R373), and a
router that fails starts the handling of a lost hub (R375, R579). -/
def Obligations.TrellisCompletes : Prop :=
  (∀ (s : State) (stack d : Nat), stack < 72 → d < 4 → s.linkUp stack d = true →
    (s.trellis.replays.get [] (stack * 4 + d)).length < 256 →
    ∃ t, exec (.flitReceive stack d false) s = .next t ∧ s.panelTime.toNat ∈ t.trellis.replays.get [] (stack * 4 + d) ∧
      t.reg (Page.router stack) (Reg.CNT + 40) = s.reg (Page.router stack) (Reg.CNT + 40) + 1 ∧ t.linkUp stack d = true ∧
      t.mem = s.mem) ∧
  (∀ (s : State) (stack d : Nat), stack < 72 → d < 4 → s.linkUp stack d = true →
    ∃ t, exec (.trellisLinkDown stack d) s = .next t ∧ t.linkUp stack d = false ∧ t.mem = s.mem ∧
      ∀ n, neighbourNode stack d = some n → n < 72 → t.linkUp n ((d + 2) % 4) = false) ∧
  (∀ (s : State) (node src requester o : Nat) (p q : TrellisPkt), node < 72 → s.routerAlive node = true →
    s.fld (Page.router node) Reg.ROUTER_CTL 0 0 = 0 → s.routeOf node p.dst = some o → o < 4 → s.linkUp node o = true →
    q = { p with src := node, cls := p.cls % 6, part := p.part % 64, bytes := min p.bytes 1024 } →
    ∃ t, exec (.packetRoute node src requester (some p)) s = .next t ∧
      t.arb (Page.router node) o = s.arb (Page.router node) o
        ++ [{ req := ⟨4 + requester, q.part, .packet, 32 + q.bytes⟩, transit := some { pkt := q, injected := true } }] ∧
      t.mem = s.mem) ∧
  (∀ (s : State) (i : Ident) (stack : Nat), stack < 72 → Admitted s i (Page.router stack) Reg.ROUTER_CTL 1 →
    ∃ t, exec (.injectHoldSet i stack) s = .next t ∧ t.fld (Page.router stack) Reg.ROUTER_CTL 0 0 = 1 ∧
      t.trellis = s.trellis ∧ t.mem = s.mem) ∧
  (∀ (s : State) (i : Ident) (stack : Nat), stack < 72 → Admitted s i (Page.router stack) Reg.ROUTER_CTL 0 →
    (∀ h ∈ s.trellis.held, h.1 ≠ stack) → (∀ w ∈ s.trellis.waits, w.1 ≠ stack) →
    ∃ t, exec (.injectHoldClear i stack) s = .next t ∧ t.fld (Page.router stack) Reg.ROUTER_CTL 0 0 = 0 ∧ t.mem = s.mem) ∧
  (∀ (s : State) (n d v : Nat), n < 72 → d < 80 → s.trellis.flight = [] → s.trellis.held = [] → s.trellis.waits = [] →
    s.binds = [] → (∀ st, st < 72 → s.fld (Page.router st) Reg.ROUTER_STAT 15 0 = 0) →
    ∃ t, exec (.routeRebuild [(n, d, v)]) s = .next t ∧
      t.reg (Page.router n) (Reg.ROUTE + 8 * d) = place 7 7 (natBits v 7 7) ||| place 2 0 (natBits v 2 0) ∧
      (∀ st, st < 72 → t.fld (Page.router st) Reg.ROUTER_CTL 0 0 = 0) ∧ t.mem = s.mem) ∧
  (∀ (s : State) (p : Nat), p < 72 → s.pageState (Page.router p) = PS.ready →
    exec (.routerLoss p false) s = .next ((s.enterState (Page.router p) PS.faulted).hubFail p false))

/-- A lone request in budget wins its arbitration at once and its requester sees OK (R379, R385), an entry past STARVE_LIMIT is
marked and posted once (R388), a write of ARB_SHARE with SET sets a partition's share (R387), and a write of PRIO takes effect,
the old one governing the next arbitration where it came late (R381). -/
def Obligations.ArbitersComplete : Prop :=
  (∀ (s : State) (st g cycles : Nat) (r : ArbReq), st < 72 → g < 6 → s.arb (Page.gddr st g) 0 = [] → r.kind = .fill →
    (s.bucket (Page.regulator st) g r.part).inBudget r.size = true →
    ∃ t, exec (.arbitration (Page.gddr st g) 0 cycles [r]) s = .next t ∧ t.trellis.results = [(r.requester, 0, 0)] ∧
      t.arb (Page.gddr st g) 0 = [] ∧
      t.bucket (Page.regulator st) g r.part = (s.bucket (Page.regulator st) g r.part).charge r.size ∧ t.mem = s.mem) ∧
  (∀ (s : State) (st g cycles : Nat) (e : ArbEntry), st < 72 → g < 6 → s.arb (Page.gddr st g) 0 = [e] → e.tried = true →
    e.posted = false → s.fld (Page.gddr st g) 0x600 15 0 ≠ 0 →
    s.fld (Page.gddr st g) 0x600 15 0 * 64 < e.age + cycles →
    ∃ t, exec (.arbStarved (Page.gddr st g) 0 cycles) s = .next t ∧
      t.arb (Page.gddr st g) 0 = [{ e with age := e.age + cycles, posted := true }] ∧
      t.fld (Page.gddr st g) 0x610 63 63 = 1 ∧ Posts s t (Page.gddr st g) 0x0290 ∧ t.mem = s.mem) ∧
  (∀ (s : State) (i : Ident) (st g : Nat) (v : Word), st < 72 → g < 6 → Admitted s i (Page.gddr st g) 0x608 v →
    bit v 31 = true → bits v 5 0 ≤ 48 →
    ∃ t, exec (.arbShareWrite i (Page.gddr st g) 0 v) s = .next t ∧
      t.arbShare (Page.gddr st g) 0 (bits v 21 16) = bits v 5 0 ∧
      (∀ p, p < 64 → p ≠ bits v 21 16 → t.arbShare (Page.gddr st g) 0 p = s.arbShare (Page.gddr st g) 0 p) ∧
      t.mem = s.mem) ∧
  (∀ (s : State) (i : Ident) (st point part : Nat) (v : Word), st < 72 → Admitted s i (Page.regulator st) 0x110 v →
    s.regSelected (Page.regulator st) = (point, part) →
    ∃ t, exec (.prioWrite i (Page.regulator st) v true) s = .next t ∧
      (t.bucket (Page.regulator st) point part).prio = bits v 61 59 ∧
      t.prioNow (Page.regulator st) point part = (s.bucket (Page.regulator st) point part).prio ∧ t.mem = s.mem)

/-- What the host does at its port: an access of 8 B to register space (R421, R422, R605), a doorbell that moves a queue's tail
(R423), an interrupt that is sent, and one that unmasking releases (R425); a window write into this module's memory and the flush
of its slot (R431, R433, R434), RELOAD (R432), and the completions of host reads, where a stall or the lack of one ends the
command (R429, R435). -/
def Obligations.HostAccessesComplete : Prop :=
  (∀ (s : State) (fn off : Nat) (v : Word), fn ≤ 64 → off < 0x4000000 →
    exec (.bar0Access fn off 8 (some v)) s = .next (s.regWrite (s.fnIdent fn) (off / 0x1000) (off % 0x1000) 8 v) ∧
    (off % 8 = 0 →
      exec (.bar0Access fn off 8 none) s = .next (s.regAccess (s.fnIdent fn) (off / 0x1000) (off % 0x1000) 8))) ∧
  (∀ (s : State) (fn q : Nat) (v : Word), fn ≤ 64 → q < 1024 → s.boundTo q (s.fnIdent fn) = true →
    bits v 11 0 < s.ringSize q →
    ∃ t, exec (.bar4Doorbell fn (16 * q) 8 true v) s = .next t ∧ bits (t.qreg q Q.tail) 11 0 = bits v 11 0 ∧
      ({ t with regs := s.regs } : State) = s) ∧
  (∀ (s : State) (fn entry : Nat), fn < 65 → entry < 32 → s.fld Page.hostPort 0x108 0 0 = 1 →
    (s.hostFn fn).busMaster = true → (s.hostFn fn).msixEnable = true →
    (((s.hostFn fn).table.get {} entry).masked = false →
      ∃ t, exec (.msixSend fn entry) s = .next t ∧ t.out = ⟨.msix, fn, entry, ((s.hostFn fn).table.get {} entry).addr,
        ((s.hostFn fn).table.get {} entry).data, []⟩ :: s.out ∧ ({ t with out := s.out } : State) = s) ∧
    (((s.hostFn fn).table.get {} entry).masked = true →
      ∃ t, exec (.msixSend fn entry) s = .next t ∧ ((t.hostFn fn).table.get {} entry).pend = true ∧
        ({ t with hostFns := s.hostFns } : State) = s) ∧
    (((s.hostFn fn).table.get {} entry).pend = true →
      ∃ t, exec (.msixUnmask fn entry) s = .next t ∧ t.out = ⟨.msix, fn, entry, ((s.hostFn fn).table.get {} entry).addr,
        ((s.hostFn fn).table.get {} entry).data, []⟩ :: s.out ∧ ((t.hostFn fn).table.get {} entry).pend = false ∧
        ((t.hostFn fn).table.get {} entry).masked = false ∧ t.mem = s.mem)) ∧
  (∀ (s r u : State) (p slot o : Nat) (e : WinEntry) (bytes : List Byte), p < 64 → slot < 64 → o < 0x400000 →
    bytes.length ≤ 4096 → s.fld Page.hostPort 0x108 0 0 = 1 → s.fld Page.hostPort 0x108 1 1 = 1 →
    slot < s.fld Page.hostPort 0x108 15 9 → slot = s.fld Page.hostPort 0x108 8 3 → s.pageState Page.hostPort = PS.ready →
    (s.bumpUnits Page.hostPort 1 bytes.length 1024).winEntry p slot = (e, r) → e.sound = true →
    r.remoteWrite p e.pasid (e.target + o) bytes = some (0, u) →
    exec (.windowWrite p (slot * 0x400000 + o) bytes) s = .next u) ∧
  (∀ (s : State) (p slot : Nat), p < 64 → slot < 64 → s.fld Page.hostPort 0x108 0 0 = 1 →
    s.fld Page.hostPort 0x108 1 1 = 1 → slot < s.fld Page.hostPort 0x108 15 9 → slot = s.fld Page.hostPort 0x108 8 3 →
    ∃ t, exec (.windowFlush p slot) s = .next t ∧ t.reply = (0, leBytes 8 ((s.winDrops.get (0, 0) (winKey p slot)).1
      + 2 ^ 32 * (s.winDrops.get (0, 0) (winKey p slot)).2)) ∧ t.winDrops.get (0, 0) (winKey p slot) = (0, 0) ∧ t.mem = s.mem) ∧
  (∀ (s : State) (i : Ident) (v : Word), Admitted s i Page.hostPort Reg.WIN_CTL v → bit v 0 = true →
    ∃ t, exec (.winReload i v) s = .next t ∧
      (∀ slot, slot < 64 → t.winCache.find (winKey (bits v 13 8) slot) = none) ∧ t.mem = s.mem) ∧
  (∀ (s : State) (x y a : Nat) (c : Cmd) (bytes : List Byte), s.cmd x y = some c → (s.hostMove c).1 = true →
    s.peekTranslate c.part c.pasid (c.cs.getD 0 0 + c.progress) false = some a →
    exec (.hostReadCompletion false x y 0 bytes) s = .next (s.writeBytes a (bytes.take (4096 - a % 4096)))) ∧
  (∀ (s : State) (x y : Nat) (c : Cmd), s.cmd x y = some c → (s.hostMove c).1 = true →
    exec (.hostCompletionTimeout false x y) s = .next (s.finishCmd c St.timeout (leBytes 8 c.progress))) ∧
  (∀ (s : State) (q seq : Nat) (c : Cmd), s.cmd q seq = some c → (s.hostMove c).2 = true →
    s.fld Page.hostPort 0x108 0 0 = 1 →
    exec (.hostStall q seq) s = .next (((s.bump Page.hostPort 2).genEvent Page.hostPort 0x02A2 c.part
      (place 40 0 c.progress ||| place 52 41 c.jobTag)).finishCmd c St.hostPartial (leBytes 8 c.progress)))

/-- The host's link (R437 to R445): a link that comes up makes the port READY with a new epoch, Recovery is counted and loses
nothing, a loss outside protocol 0x0300 is handled and one under it, or a NumVFs that is not zero there, restarts the module; a
Function Level Reset drops what its function held; ATTACH activates the protocol agreed on, and DETACH none. -/
def Obligations.HostLinkCompletes : Prop :=
  (∀ (s : State) (width rate vfs masters msix : Nat), width < 32 → rate < 8 → s.fld Page.hostPort 0x108 0 0 = 0 →
    s.pageState Page.hostPort ≠ PS.quiescing → s.pageState Page.hostPort ≠ PS.quiesced → s.group.forming = false →
    s.group.linked = true →
    ∃ t, exec (.hostLinkUp width rate vfs masters msix) s = .next t ∧ t.fld Page.hostPort 0x108 0 0 = 1 ∧
      t.fld Page.hostPort 0x108 23 19 = width ∧ t.fld Page.hostPort 0x108 18 16 = rate ∧ t.numVfs = min vfs 64 ∧
      t.pageState Page.hostPort = PS.ready ∧ t.epoch Page.hostPort = (s.epoch Page.hostPort + 1) % 65536 ∧
      t.fld Page.hostPort Reg.VER_ACTIVE 15 0 = 0 ∧ Posts s t Page.hostPort 0x02A1 ∧ t.mem = s.mem) ∧
  (∀ s : State, s.fld Page.hostPort 0x108 0 0 = 1 →
    ∃ t, exec .linkRecovery s = .next t ∧
      t.reg Page.hostPort (Reg.CNT + 64) = s.reg Page.hostPort (Reg.CNT + 64) + 1 ∧
      ({ t with regs := s.regs } : State) = s) ∧
  (∀ (s : State) (cause : Nat), s.p7 = false → 1 ≤ cause → cause ≤ 5 → s.fld Page.hostPort 0x108 0 0 = 1 →
    exec (.hostLoss cause) s = .next (s.hostLoss cause)) ∧
  (∀ (s : State) (cause n : Nat) (strap : Bool), s.p7 = true → 1 ≤ cause → cause ≤ 5 → n ≠ 0 →
    exec (.p7HostLoss cause strap) s = .next (s.moduleRestart strap) ∧
    exec (.numvfsSetP7 n strap) s = .next (s.moduleRestart strap)) ∧
  (∀ (s : State) (p : Nat), p < 64 → s.cmds = [] → (∀ q, q < 1024 → bit (s.qreg q Q.bind) 63 = true →
      bits (s.qreg q Q.bind) 59 56 = Q.hostVf → bits (s.qreg q Q.bind) 43 32 ≠ p) →
    ∃ t, exec (.vfFlr p) s = .next t ∧ t.hostFns.find (p + 1) = none ∧ (∀ e ∈ t.atc, e.fn ≠ p + 1) ∧
      (∀ e ∈ t.atsReqs, e.fn ≠ p + 1) ∧ (∀ k ∈ t.winFlush, k / 64 ≠ p) ∧ t.mem = s.mem) ∧
  (∀ (s : State) (i : Ident) (v : Word), Admitted s i Page.hostPort Reg.HOST_ATTACH (setBit v 16 true) →
    bit v 17 = false → bits v 15 0 = s.fld Page.hostPort Reg.HOST_STAT 47 32 → s.hostQueues = [] → s.hostVersion ≠ 0 →
    ∃ t, exec (.hostAttach i v) s = .next t ∧ t.fld Page.hostPort Reg.VER_ACTIVE 15 0 = s.hostVersion ∧
      t.fld Page.hostPort Reg.HOST_STAT 31 24 = 0 ∧ t.mem = s.mem) ∧
  (∀ (s : State) (i : Ident) (v : Word), Admitted s i Page.hostPort Reg.HOST_ATTACH (setBit (setBit v 16 false) 17 true) →
    bits v 15 0 = s.fld Page.hostPort Reg.HOST_STAT 47 32 → s.hostQueues = [] →
    ∃ t, exec (.hostDetach i v) s = .next t ∧ t.fld Page.hostPort Reg.VER_ACTIVE 15 0 = 0 ∧
      t.fld Page.hostPort Reg.HOST_STAT 31 24 = 0 ∧ t.mem = s.mem)

/-- A fabric port (R450 to R457, R602): an in-order flit with payload is counted for acknowledgement and credit, and the timer sends
the acknowledgement; silence and loss of signal take the port down with its event; bring-up starts again 1 s after a loss and
10 s after VINTAGE_FAIL, passes through its stages, and ends UP with the partner's message or DOWN at its bound; a cable's
presence is posted, and MODULE_CFG changes while every port is DOWN. -/
def Obligations.PortsComplete : Prop :=
  (∀ (s : State) (f : Nat) (b : List Byte) (h : Word), f < 32 → 3 ≤ s.lstate f → b.length = 256 →
    leAt b 248 8 = crc64 (b.take 248) → h = BitVec.ofNat 64 (leAt b 0 8) → bit h 28 = false → bit h 29 = false →
    bit h 30 = false → bits h 45 34 = 0 → (s.fabPort f).waiting = [] → bits h 13 0 = (s.fabPort f).rxNext →
    (s.fabPort f).unackedRx < 255 →
    ∃ t, exec (.fabricFlitReceive f b 0 0) s = .next t ∧ (t.fabPort f).rxNext = ((s.fabPort f).rxNext + 1) % 16384 ∧
      (t.fabPort f).unackedRx = (s.fabPort f).unackedRx + 1 ∧
      (t.fabPort f).owed.get 0 (bits h 48 46) = (s.fabPort f).owed.get 0 (bits h 48 46) + 1 ∧ t.mem = s.mem) ∧
  (∀ (s : State) (f : Nat), f < 32 → 3 ≤ s.lstate f →
    ∃ t m, exec (.fabricAckTimer f) s = .next t ∧ t.out = m :: s.out ∧ m.kind = .flit ∧ m.src = f ∧ m.data.length = 256 ∧
      (t.fabPort f).unackedRx = 0 ∧ t.mem = s.mem) ∧
  (∀ (s : State) (f : Nat), f < 32 → 3 ≤ s.lstate f → (∀ e ∈ s.txChans, e.2.bound = true → e.2.port ≠ f) →
    (∃ t, exec (.fabricSilence f) s = .next t ∧ t.lstate f = 0 ∧ (t.fabPort f).replay = [] ∧
      Posts s t (Page.fabricPort f) 0x02B0 ∧ t.mem = s.mem) ∧
    (∃ t, exec (.laneSignalLoss f) s = .next t ∧ t.lstate f = 0 ∧ (t.fabPort f).replay = [] ∧
      Posts s t (Page.fabricPort f) 0x02B0 ∧ t.mem = s.mem)) ∧
  (∀ (s : State) (f : Nat), f < 32 → s.mayBringUp f = true →
    (s.downFor f 1000000000 = true → s.vintageFailed f = false →
      ∃ t, exec (.bringupRestart f) s = .next t ∧ t.lstate f = 1 ∧ ({ t with regs := s.regs } : State) = s) ∧
    (s.downFor f 10000000000 = true → s.vintageFailed f = true →
      ∃ t, exec (.vintageFailRetry f) s = .next t ∧ t.lstate f = 1 ∧ ({ t with regs := s.regs } : State) = s)) ∧
  (∀ (s : State) (f : Nat), f < 32 →
    (s.lstate f = 1 → ∃ t, exec (.bringupStageDone f) s = .next t ∧ t.lstate f = 2 ∧ t.mem = s.mem) ∧
    (s.lstate f = 2 → ∃ t m, exec (.bringupStageDone f) s = .next t ∧ t.lstate f = 3 ∧ t.out = m :: s.out ∧
      m.kind = .vintage ∧ m.src = f ∧ m.data = s.vintageBytes f ∧ t.mem = s.mem) ∧
    (1 ≤ s.lstate f → s.lstate f ≤ 3 → ∃ t, exec (.bringupTimeout f) s = .next t ∧ t.lstate f = 0 ∧
      t.fld (Page.fabricPort f) 0x108 63 56 = St.timeout ∧ t.events = s.events ∧ t.mem = s.mem) ∧
    (s.lstate f = 3 → ∃ t m, exec (.vintageResend f) s = .next t ∧ t.out = m :: s.out ∧ m.kind = .vintage ∧ m.src = f ∧
      m.data = s.vintageBytes f ∧ ({ t with out := s.out } : State) = s)) ∧
  (∀ (s : State) (f v : Nat) (b : List Byte), f < 32 → s.lstate f = 3 →
    v = negotiate (sideOf (s.reg (Page.fabricPort f) Reg.VER_SUPPORT).toNat) (sideOf (ofLeBytes (b.take 8))) → v ≠ 0 →
    leAt b 8 2 % 4096 ≠ s.moduleId →
    ∃ t, exec (.vintageMessage f b) s = .next t ∧ t.lstate f = 4 ∧
      t.fld (Page.fabricPort f) 0x108 27 16 = leAt b 8 2 % 4096 ∧
      t.fld (Page.fabricPort f) Reg.VER_ACTIVE 15 0 = v % 65536 ∧ Posts s t (Page.fabricPort f) 0x02B1 ∧ t.mem = s.mem) ∧
  (∀ (s : State) (f : Nat), f < 32 → (s.fabPort f).cable = false →
    ∃ t, exec (.cablePresence f true) s = .next t ∧ (t.fabPort f).cable = true ∧ Posts s t (Page.fabricPort f) 0x02F7 ∧
      t.mem = s.mem) ∧
  (∀ (s : State) (i : Ident) (v : Word), Admitted s i (Page.portDie 0) 0x100 v → (∀ f, f < 32 → s.lstate f = 0) →
    ∃ t, exec (.moduleCfgWrite i v) s = .next t ∧ t.moduleId = bits v 11 0 ∧ t.mem = s.mem)

/-- What a packet does at its destination, in its channel's order, where it is then acknowledged (R462, R464, R465): WRITE,
READ_REQ with its READ_RSP, ATOMIC with its ATOMIC_RSP, EVENT_POST, and COLL_STEP at an armed collective (R475, R478). An ACK
takes a channel's packets up to ACKSEQ out of it, a NAK ends the operation of the packet it names (R462 to R464), RETX_TIMER
sends a channel's packets again and after eight times fails the channel (R463), STRAGGLE extends the receiver's collective,
counted (R482), and ABORT ends it with the carried status and rank (R479). -/
def Obligations.PacketsComplete : Prop :=
  (∀ (s r u : State) (f : Nat) (p q : Packet), q = typed p 0x01 none → InOrder s f q r →
    r.remoteWrite q.part q.pasid q.addr q.payload = some (0, u) →
    exec (.write f p) s = .next (u.acknowledge f q)) ∧
  (∀ (s r u : State) (f : Nat) (p q : Packet) (b : List Byte), q = typed p 0x02 none → InOrder s f q r →
    r.remoteRead q.part q.pasid q.addr (min 4096 q.aux) = some (0, b, u) →
    exec (.readReq f p) s = .next ((u.respond q 0x03 b).acknowledge f q)) ∧
  (∀ (s r u : State) (f n : Nat) (p q : Packet) (c : Coll), q = typed p 0x03 none → InOrder s f q r →
    r.directOp q 7 = some c → r.vwrite c.ctxt (c.dst + (q.addr - c.src)) q.payload = (.status 0, n, u) →
    ({ c with open_ := c.open_ - 1 } : Coll).finished = false →
    exec (.readRsp f p) s = .next ((u.putColl { c with open_ := c.open_ - 1 }).acknowledge f q)) ∧
  (∀ (s r u : State) (f old : Nat) (p q : Packet), q = typed p 0x04 none → InOrder s f q r →
    r.remoteAtomic q.part q.pasid q.addr q.op (leAt q.payload 0 8) (leAt q.payload 8 8) = some (0, old, u) →
    exec (.fabricAtomic f p) s = .next ((u.respond q 0x05 (leBytes 8 old)).acknowledge f q)) ∧
  (∀ (s r : State) (f : Nat) (p q : Packet) (c : Coll), q = typed p 0x05 none → InOrder s f q r →
    r.directOp q 8 = some c → ({ c with open_ := c.open_ - 1 } : Coll).finished = false →
    exec (.atomicRsp f p) s = .next ((r.putColl { c with open_ := c.open_ - 1 }).acknowledge f q)) ∧
  (∀ (s r : State) (f : Nat) (p q : Packet), q = typed p 0x06 none → InOrder s f q r →
    exec (.eventPost f p) s = .next ((r.genEvent (Page.fabricPort f) (0x8000 + leAt q.payload 0 2 % 2 ^ 15) q.part
      (BitVec.ofNat 64 (leAt q.payload 8 8))).acknowledge f q)) ∧
  (∀ (s r u : State) (f st : Nat) (p q : Packet) (c : Coll), q = typed p 0x07 none → InOrder s f q r →
    r.boundStack q.op = some st → r.collFind st q.jobTag q.collSeq = some c → r.collStep c q = (true, u) →
    exec (.collStep f p) s = .next (u.acknowledge f q)) ∧
  (∀ (s r : State) (f key : Nat) (p q : Packet) (x : TxPkt), q = typed p 0x08 (some 0) → Accepted s f q r →
    key = ackedChannel f q → (s.txChan key).unacked = [x] → x.owner = .none → seqLe x.pkt.chseq q.ackseq = true →
    ∃ t, exec (.ack f p) s = .next t ∧ (t.txChan key).unacked = [] ∧ (t.txChan key).tries = 0 ∧
      (∀ k, k ≠ key → t.txChan k = s.txChan k) ∧ t.mem = s.mem) ∧
  (∀ (s r : State) (f key : Nat) (p q : Packet) (x : TxPkt), q = typed p 0x09 (some 0) → Accepted s f q r →
    key = ackedChannel f q → (s.txChan key).unacked = [x] → x.pkt.chseq = q.ackseq →
    exec (.nak f p) s = .next (({ r with txChans := r.txChans.set key { r.txChan key with unacked := [], tries := 0 } } :
      State).refusedPacket x (s.txChan key).port q.status)) ∧
  (∀ (s : State) (dst vc port key : Nat), vc < 8 → port < 33 → key = (dst * 8 + vc) * 64 + port →
    (s.txChan key).unacked ≠ [] →
    ((s.txChan key).tries < 8 → exec (.retxTimer dst vc port) s = .next (({ s with
      txChans := s.txChans.set key { s.txChan key with tries := (s.txChan key).tries + 1 } } : State).resendChannel key)) ∧
    (8 ≤ (s.txChan key).tries → exec (.retxTimer dst vc port) s = .next (s.failChannel key))) ∧
  (∀ (s r : State) (f st : Nat) (p q : Packet) (c : Coll), q = typed p 0x0A (some 0) → Accepted s f q r →
    s.boundStack q.op = some st → s.collFind st q.jobTag q.collSeq = some c →
    ∃ t, exec (.straggle f p) s = .next t ∧ t.colls.find c.key = some { c with ext := min c.timeoutUs (c.ext + q.aux) } ∧
      t.reg (Page.collective st) (Reg.CNT + 32) = s.reg (Page.collective st) (Reg.CNT + 32) + 1 ∧ t.mem = s.mem) ∧
  (∀ (s r : State) (f st : Nat) (p q : Packet) (c : Coll), q = typed p 0x0B (some 0) → Accepted s f q r →
    s.boundStack q.op = some st → r.collFind st q.jobTag q.collSeq = some c →
    exec (.abort f p) s = .next (r.collFinish c q.status q.aux))

/-- Host groups: a member takes a forwarded command into its queue (R395, R469), the master writes the completion that returns
(R469) and sends a refused command again (R469); host accesses are issued for a member and their replies taken (R428, R470), a
member takes a window write and answers a flush (R431, R470); and a group forms: FORM, the hellos, their timer and the limit of
30 s (R466, R467). -/
def Obligations.GroupsComplete : Prop :=
  (∀ (s r u : State) (f k : Nat) (p q : Packet), q = typed p 0x10 (some 1) → InOrder s f q r →
    r.groupQueues f q.src = [k] → r.deliver f k q = .done u → exec (.groupCmd f p) s = .next (u.acknowledge f q)) ∧
  (∀ (s r : State) (f k : Nat) (p q : Packet) (c : Cmd), q = typed p 0x11 (some 1) → InOrder s f q r → k = q.addr % 1024 →
    r.cmd k q.collSeq = some c → c.sent = true → (r.queue k).stalled = [] → q.payload.length = 32 →
    exec (.groupCpl f p) s = .next ((r.writeEntry k c.seq (q.payload.take 6 ++ leBytes 2 k ++ q.payload.drop 8)
      (c.flags.testBit 1)).acknowledge f q)) ∧
  (∀ (s : State) (k seq port : Nat) (c : Cmd) (p : Packet), s.cmd k seq = some c → c.held = 3 → c.fwdPkt = some (port, p) →
    s.portUp port = true → s.groupPort port = true →
    exec (.groupCmdResend k seq) s = .next ((s.setCmd { c with held := 0 }).sendOn (chanKey p.dst 1 (some port)) port
      { p with vc := 1 } (.command k seq))) ∧
  (∀ (s r u : State) (f : Nat) (p q a : Packet) (b : List Byte) (st : Nat), q = typed p 0x12 (some 1) → InOrder s f q r →
    r.hostAccess q = (st, b, u) →
    a = {
      type := 0x13, dst := q.src, part := q.part, op := q.op, addr := q.addr, aux := q.aux, status := st, payload := b } →
    exec (.hostFwdReq f p) s = .next ((u.sendGroup f a .none).2.acknowledge f q)) ∧
  (∀ (s r : State) (f : Nat) (p q : Packet), q = typed p 0x13 (some 1) → InOrder s f q r →
    exec (.hostFwdRsp f p) s = .next (({ r with reply := (q.status, q.payload) } : State).acknowledge f q)) ∧
  (∀ (s r u : State) (f : Nat) (p q : Packet), q = typed p 0x14 (some 1) → InOrder s f q r →
    r.remoteWrite q.part q.pasid q.addr q.payload = some (0, u) →
    exec (.winWrite f p) s = .next (u.acknowledge f q)) ∧
  (∀ (s r : State) (f : Nat) (p q : Packet), q = typed p 0x15 (some 1) → InOrder s f q r →
    exec (.winFlush f p) s = .next (r.acknowledge f q)) ∧
  (∀ (s r : State) (f m me : Nat) (p q : Packet), q = typed p 0x16 (some 0) → InOrder s f q r → r.memberOf q.src = some m →
    r.memberOf r.moduleId = some me → r.group.forming = true →
    exec (.groupHello f p) s = .next ((({ r with group := { r.group with
      heard := (r.group.heard.set m (q.aux % 4)).set me r.helloBits } } : State).groupLimit.groupCheck false).acknowledge f q)) ∧
  (∀ s : State, s.group.forming = true → exec .groupHelloTimer s = .next s.sendHellos) ∧
  (∀ (s : State) (since m : Nat), s.group.limitFrom = some since → since + 30000000000 ≤ s.panelTime.toNat →
    s.group.forming = true → (s.group.withBit 0).length ≤ 1 → s.masterOf = some m →
    exec .groupFormTimeout s = .next (s.groupFormed m)) ∧
  (∀ (s : State) (i : Ident) (v : Word), Admitted s i (Page.portDie 0) 0x108 v → bit v 0 = true →
    exec (.groupForm i v) s = .next ((s.admittedState i (Page.portDie 0) 0x108).groupStart))

/-- A queue's registers (R394 to R398): a doorbell of the bound port moves the tail or takes entries as read, any other is counted
as ignored; ENABLE starts the ring and its numbering again, and its clearing stops the fetch; QBIND is the management port's while
the queue is idle. A partition's registers take a write that expects the current epoch of an idle partition without a clash, and
VALID counts the epoch (R392, R393). -/
def Obligations.QueueRegistersComplete : Prop :=
  (∀ (s : State) (i : Ident) (q : Nat) (v : Word), q < 1024 → Admitted s i (Page.queueBlock q) (qOff q Q.tail) v →
    (s.boundTo q i = true → bits v 11 0 < s.ringSize q → ∃ t, exec (.sqTail i q v) s = .next t ∧
      bits (t.qreg q Q.tail) 11 0 = bits v 11 0 ∧ t.queues = s.queues ∧ t.mem = s.mem) ∧
    (s.boundTo q i = false ∨ s.ringSize q ≤ bits v 11 0 → ∃ t, exec (.sqTail i q v) s = .next t ∧
      t.qreg q Q.tail = s.qreg q Q.tail ∧
      t.reg (Page.queueBlock q) (Reg.CNT + 16) = s.reg (Page.queueBlock q) (Reg.CNT + 16) + 1 ∧ t.mem = s.mem)) ∧
  (∀ (s : State) (i : Ident) (q : Nat) (v : Word), q < 1024 → Admitted s i (Page.queueBlock q) (qOff q Q.head) v →
    (s.boundTo q i = true → bits v 11 0 < s.ringSize q → ∃ t, exec (.cqHead i q v) s = .next t ∧
      bits (t.qreg q Q.head) 11 0 = bits v 11 0 ∧
      (t.queue q).unread = (s.queue q).unread -
        (bits v 11 0 + s.ringSize q - bits (s.qreg q Q.head) 11 0 % s.ringSize q) % s.ringSize q ∧ t.mem = s.mem) ∧
    (s.boundTo q i = false ∨ s.ringSize q ≤ bits v 11 0 → ∃ t, exec (.cqHead i q v) s = .next t ∧
      t.qreg q Q.head = s.qreg q Q.head ∧ t.queues = s.queues ∧
      t.reg (Page.queueBlock q) (Reg.CNT + 16) = s.reg (Page.queueBlock q) (Reg.CNT + 16) + 1 ∧ t.mem = s.mem)) ∧
  (∀ (s : State) (i : Ident) (q : Nat) (v : Word), q < 1024 →
    Admitted s i (Page.queueBlock q) (qOff q Q.cfg) (setBit v 63 true) → bits (s.qreg q Q.cfg) 63 63 = 0 →
    s.queuePort q ≠ Q.hostVf ∨ s.fld Page.hostPort Reg.VER_ACTIVE 15 0 ≠ 0 →
    ∃ t, exec (.qcfgEnableSet i q v) s = .next t ∧ bits (t.qreg q Q.cfg) 63 63 = 1 ∧ bits (t.qreg q Q.tail) 11 0 = 0 ∧
      bits (t.qreg q Q.head) 11 0 = 0 ∧ bits (t.qreg q Q.stat) 59 48 = 0 ∧ bits (t.qreg q Q.stat) 31 0 = 0 ∧
      (t.queue q).nextSeq = 1 ∧ (t.queue q).phase = true ∧ (t.queue q).unread = 0 ∧ t.mem = s.mem) ∧
  (∀ (s : State) (i : Ident) (q : Nat) (v : Word), q < 1024 →
    Admitted s i (Page.queueBlock q) (qOff q Q.cfg) (setBit v 63 false) → bits (s.qreg q Q.cfg) 63 63 = 1 →
    bits (s.qreg q Q.stat) 63 63 = 0 →
    exec (.qcfgEnableClear i q v) s = .next ((((s.admittedState i (Page.queueBlock q) (qOff q Q.cfg)).setQfld q Q.cfg 63 63 0).modQueue q
      fun x => { x with fetchWait := none }).dropUnstarted q)) ∧
  (∀ (s : State) (i : Ident) (q : Nat) (v : Word), q < 1024 →
    Admitted s i (Page.queueBlock q) (qOff q Q.cfg) (setBit v 63 false) → bits (s.qreg q Q.cfg) 63 63 = 1 →
    (∀ e ∈ s.cmds, e.2.queue = q → s.unstarted e.2 = false) →
    ∃ t, exec (.qcfgEnableClear i q v) s = .next t ∧ bits (t.qreg q Q.cfg) 63 63 = 0 ∧ (t.queue q).fetchWait = none ∧
      t.cmds = s.cmds ∧ t.mem = s.mem) ∧
  (∀ (s : State) (i : Ident) (q : Nat) (v : Word), q < 1024 → Admitted s i (Page.queueBlock q) (qOff q Q.bind) v →
    (i = .mgmt → bits (s.qreg q Q.stat) 63 63 = 1 → exec (.qbindWrite i q v) s =
      .next ((s.admittedState i (Page.queueBlock q) (qOff q Q.bind)).plainWrite (Page.queueBlock q) (qOff q Q.bind) v)) ∧
    (i ≠ .mgmt ∨ bits (s.qreg q Q.stat) 63 63 = 0 → exec (.qbindWrite i q v) s =
      .next ((s.admittedState i (Page.queueBlock q) (qOff q Q.bind)).bump (Page.queueBlock q) 4))) ∧
  (∀ (s : State) (i : Ident) (p : Nat) (v : Word), p < 64 → Admitted s i Page.device (partOff p 0) v →
    (s.fld Page.device (partOff p 0) 47 32 = bits v 15 0 → s.partIdle p = true →
      (bit v 63 && s.partClash p (s.reg Page.device (partOff p 8)).toNat (s.partSrvRegs p)) = false →
      ∃ t, exec (.partCtlWrite i p v) s = .next t ∧ t.fld Page.device (partOff p 0) 63 63 = bits v 63 63 ∧
        t.fld Page.device (partOff p 0) 55 48 = St.ok ∧
        t.fld Page.device (partOff p 0) 47 32 = (if bit v 63 = true ∧ s.fld Page.device (partOff p 0) 63 63 = 0
          then (s.fld Page.device (partOff p 0) 47 32 + 1) % 65536 else s.fld Page.device (partOff p 0) 47 32) ∧
        t.mem = s.mem) ∧
    (s.fld Page.device (partOff p 0) 47 32 ≠ bits v 15 0 →
      ∃ t, exec (.partCtlWrite i p v) s = .next t ∧ t.fld Page.device (partOff p 0) 55 48 = St.epochStale ∧
        t.fld Page.device (partOff p 0) 63 63 = s.fld Page.device (partOff p 0) 63 63 ∧ t.mem = s.mem)) ∧
  (∀ (s : State) (i : Ident) (p : Nat) (v : Word), p < 64 → Admitted s i Page.device (partOff p 8) v →
    s.fld Page.device (partOff p 0) 47 32 = s.fld Page.device (partOff p 0) 15 0 → s.partIdle p = true →
    s.fld Page.device (partOff p 0) 63 63 = 0 ∨ s.partClash p v.toNat [] = false →
    ∃ t, exec (.partStacksWrite i p v) s = .next t ∧ t.reg Page.device (partOff p 8) = v ∧
      t.fld Page.device (partOff p 0) 55 48 = St.ok ∧ t.mem = s.mem) ∧
  (∀ (s : State) (i : Ident) (p j : Nat) (v : Word), p < 64 → j < 4 →
    Admitted s i Page.device (partOff p (0x10 + 8 * j)) v →
    s.fld Page.device (partOff p 0) 47 32 = s.fld Page.device (partOff p 0) 15 0 → s.partIdle p = true →
    s.fld Page.device (partOff p 0) 63 63 = 0 ∨ s.partClash p 0 (listSet [0, 0, 0, 0] j v.toNat) = false →
    ∃ t, exec (.partSrvWrite i p j v) s = .next t ∧ t.reg Page.device (partOff p (0x10 + 8 * j)) = v ∧
      t.fld Page.device (partOff p 0) 55 48 = St.ok ∧ t.mem = s.mem)

/-- START with a sound descriptor sets the position to 0 and runs the stream, or waits for a request (R490, R491); STOP of a stream
posts DECANT_STOP and leaves it STOPPED with reason 0 (R513, R515); RESTART of a stopped stream that expects the current epoch goes
on at its position, with or without its rows (R514); REQ_TAIL offers requests (R492, R517). A running stream takes its next request,
places the record of its next position, or decides a reference frame (R492, R498, R505). -/
def Obligations.DecantersComplete : Prop :=
  (∀ (s a b u : State) (i : Ident) (n k : Nat) (d : List Byte), n < 4 → k < 16 →
    Admitted s i (Page.decanter n) (decOff k 0x18) 1 → a = s.admittedState i (Page.decanter n) (decOff k 0x18) →
    a.ready (Page.decanter n) = true → bit (a.decReg n k 8) 63 = true → a.isWritten (Page.decanter n) (decOff k 0) = true →
    b = a.setDec n k { starting := true, req := (a.dec n k).req } →
    decRead (b.decCtxt n k) b (b.decReg n k 0).toNat 256 = .ok d u → streamDescStatus d = St.ok →
    ∃ t, exec (.streamStart i n k) s = .next t ∧ (t.dec n k).desc = d ∧ (t.dec n k).rows = [] ∧ (t.dec n k).frames = [] ∧
      t.decPos n k = 0 ∧ bits (t.decReg n k 0x28) 47 40 = St.ok ∧
      t.decState n k = (if (t.dec n k).req.isNone && t.decRingEmpty n k then 2 else 1) ∧ t.mem = u.mem) ∧
  (∀ (s : State) (i : Ident) (n k : Nat), n < 4 → k < 16 → Admitted s i (Page.decanter n) (decOff k 0x18) 4 →
    exec (.streamStop i n k) s = .next ((s.admittedState i (Page.decanter n) (decOff k 0x18)).decHalt n k)) ∧
  (∀ (s : State) (i : Ident) (n k : Nat), n < 4 → k < 16 → Admitted s i (Page.decanter n) (decOff k 0x18) 4 →
    s.decState n k = 1 ∨ s.decState n k = 2 → (s.dec n k).req = none →
    ∃ t, exec (.streamStop i n k) s = .next t ∧ t.decState n k = 3 ∧ bits (t.decReg n k 0x28) 31 28 = 0 ∧
      bits (t.decReg n k 0x28) 39 32 = St.unitUnavailable ∧ t.decPos n k = s.decPos n k ∧
      Posts s t (Page.decanter n) 0x02C0 ∧ t.mem = s.mem) ∧
  (∀ (s : State) (i : Ident) (n k epoch : Nat) (discard : Bool), n < 4 → k < 16 →
    Admitted s i (Page.decanter n) (decOff k 0x18) (place 63 48 epoch ||| place 4 4 discard.toNat ||| 2) →
    s.decState n k = 3 → s.ready (Page.decanter n) = true → bits (s.decReg n k 0x28) 63 48 = epoch →
    ∃ t, exec (.streamRestart i n k epoch discard) s = .next t ∧ t.decPos n k = s.decPos n k ∧
      t.decState n k = (if (t.dec n k).req.isNone && t.decRingEmpty n k then 2 else 1) ∧
      (t.dec n k).rows = (if discard then [] else (s.dec n k).rows) ∧
      (t.dec n k).frames = (if discard then [] else (s.dec n k).frames) ∧ t.mem = s.mem) ∧
  (∀ (s : State) (i : Ident) (n k : Nat) (v : Word), n < 4 → k < 16 → Admitted s i (Page.decanter n) (decOff k 0x30) v →
    s.decState n k ≠ 1 →
    ¬ (bits v 3 0 = bits (s.decReg n k 0x28) 7 4 ∧ bits (s.decReg n k 0x30) 3 0 ≠ bits (s.decReg n k 0x28) 7 4) →
    ∃ t, exec (.reqTail i n k v) s = .next t ∧ t.decReg n k 0x30 = place 3 0 (bits v 3 0) ∧
      t.decState n k = (if s.decState n k = 2 then (if (s.dec n k).req.isNone && t.decRingEmpty n k then 2 else 1)
        else s.decState n k) ∧ t.mem = s.mem) ∧
  (∀ (s : State) (n k : Nat), n < 4 → k < 16 → s.decState n k = 1 → s.ready (Page.decanter n) = true →
    (s.dec n k).pageWait = none → (s.dec n k).starting = false → (s.dec n k).req = none → s.decRingEmpty n k = false →
    exec (.recordProcess n k) s = .next (s.decTake n k)) ∧
  (∀ (s r1 r2 r3 : State) (n k i file off : Nat) (p : Nat × Nat) (q : DecReq) (r : DecRecord), n < 4 → k < 16 →
    s.decState n k = 1 → s.ready (Page.decanter n) = true → (s.dec n k).pageWait = none → (s.dec n k).starting = false →
    (s.dec n k).req = some q → q.closing = none → (leAt (s.dec n k).desc 12 1).testBit 0 = false →
    positionOf (s.dec n k).desc (s.decPos n k) = some i → p = sampleIndex (s.dec n k).desc i →
    decIndex n k p.1 s = .ok (file, off) r1 → decRecord n k p.1 file off r1 = .ok r r2 →
    decPlace n k (s.decPos n k) r r2 = .ok () r3 →
    exec (.recordProcess n k) s = .next (((r3.bumpUnits (Page.decanter n) 0 1 1024).bumpUnits (Page.decanter n) 6 p.2
      1024).decAfter n k)) ∧
  (∀ (s u : State) (n k : Nat) (q : DecReq) (f : DecFrame), n < 4 → k < 16 →
    s.decState n k = 1 → s.ready (Page.decanter n) = true → (s.dec n k).pageWait = none → (s.dec n k).starting = false →
    (s.dec n k).req = some q → q.closing = none → (leAt (s.dec n k).desc 12 1).testBit 0 = true →
    (s.dec n k).ref = some f →
    (s.dec n k).decidable f (positionOf (s.dec n k).desc (s.decPos n k)).isNone = true → decFuse n k f s = .ok () u →
    exec (.recordProcess n k) s = .next (u.decAfter n k))

/-- Server cores (R521 to R533): a load completes with its bytes, a store writes memory (R523, R529), and an access waits and is
presented again (R526); a failed load raises the exception of its status, and a failed retired store posts SRV_STORE_LOST (R526,
R527). A cache-block operation gives up or cleans its line, or zeroes 64 B (R522); a fence with nothing outstanding completes
(R533); a write of an interrupt file sets its identity (R530), and unmasking an MSI table entry clears MASKED (R531). -/
def Obligations.ServersComplete : Prop :=
  (∀ (s : State) (c op va status code : Nat), c < 256 →
    (status ∈ [St.dataUncorrectable, St.dataLost, St.poisoned] ∧ code = 19) ∨
      (status ∈ [St.permissionFault, St.timeout, St.hostLost] ∧ code = accessFault op) →
    exec (.srvLoadError c op va status) s = .next (s.modSrv c fun x => { x with trap := some (code, va), retry := none })) ∧
  (∀ (s : State) (c pa status : Nat), c < 256 → (srvCode 1 status).isSome = true →
    ∃ t, exec (.srvStoreLost c pa status) s = .next t ∧ Posts s t (srvPage c) 0x02E0 ∧ t.mem = s.mem ∧ t.srv = s.srv) ∧
  (∀ (s u : State) (c va pa home off : Nat), c < 256 → regionOf pa = .gddr home off →
    s.physWrite 0 .engine (pa / 64 * 64) (List.replicate 64 0) = (St.ok, u) →
    ∃ t, exec (.cbo c 3 va pa) s = .next t ∧ t.mem = u.mem ∧ t.regs = u.regs ∧ t.srv = u.srv) ∧
  (∀ (s : State) (c op va pa home off : Nat), c < 256 → op < 3 → regionOf pa = .gddr home off →
    (s.agentState c (pa / 128) = .m → ∃ t, exec (.cbo c op va pa) s = .next t ∧ exec (.datWb c (pa / 128) true) s = .next t) ∧
    (s.agentState c (pa / 128) = .e ∨ s.agentState c (pa / 128) = .s →
      (op = 0 → exec (.cbo c op va pa) s = .next s) ∧
      (op ≠ 0 → ∃ t, exec (.cbo c op va pa) s = .next t ∧ exec (.evictClean c (pa / 128)) s = .next t)) ∧
    (s.agentState c (pa / 128) = .i → exec (.cbo c op va pa) s = .next s)) ∧
  (∀ (s : State) (c : Nat) (predO predW : Bool), c < 256 → (s.srvCore c).retry = none →
    (∀ m ∈ s.dirQueue, m.src ≠ c) → (∀ x ∈ s.txns, x.2.req.src ≠ c) →
    exec (.srvFenceIo c predO predW) s = .next { s with reply := (St.ok, []) }) ∧
  (∀ (s : State) (who off data f : Nat), who < 3 → off % 4 = 0 → imsicFile off = some f → off % 0x1000 = 0 → 1 ≤ data →
    data ≤ 2047 →
    ∃ t, exec (.imsicWrite who off 4 data) s = .next t ∧ data ∈ t.imsic.get [] f ∧
      (∀ n ∈ s.imsic.get [] f, n ∈ t.imsic.get [] f) ∧ ({ t with imsic := s.imsic } : State) = s) ∧
  (∀ (s : State) (part vec a : Nat), part < 64 → s.msiEntryAddr part vec = some a →
    (s.mem.readNat (a + 12) 4 % 2 = 0 → exec (.msiUnmask part vec) s = .next s) ∧
    (s.mem.readNat (a + 12) 4 % 4 = 1 → exec (.msiUnmask part vec) s =
      .next { s with mem := s.mem.writeNat (a + 12) 4 (s.mem.readNat (a + 12) 4 - 1) }) ∧
    (s.mem.readNat (a + 12) 4 % 4 = 3 → exec (.msiUnmask part vec) s =
      .next (({ s with mem := s.mem.writeNat (a + 12) 4 (s.mem.readNat (a + 12) 4 - 3) } : State).msiFire part a))) ∧
  (∀ (s : State) (a : SrvAccess) (home off : Nat) (b : List Byte), a.core < 256 → a.op = 0 ∨ a.op = 2 → 1 ≤ a.n →
    a.pageFault = false → regionOf a.pa = .gddr home off → off < 0x600000000 → s.physBytes 0 a.pa a.n = (St.ok, b) →
    ∃ t, exec (.srvMemoryAccess a) s = .next t ∧ t.reply = (St.ok, b) ∧
      ({ t with reply := s.reply, srvTlb := s.srvTlb } : State) = s) ∧
  (∀ (s v : State) (a : SrvAccess) (home off : Nat), a.core < 256 → a.op = 1 → 1 ≤ a.n → a.pa % 128 + a.n ≤ 128 →
    a.pageFault = false → regionOf a.pa = .gddr home off → off < 0x600000000 →
    ((s.srvSeen a).answer St.ok []).physWrite 0 .engine a.pa (a.data.take a.n) = (St.ok, v) →
    exec (.srvMemoryAccess a) s = .next (v.srvDirty a.core (a.pa / 128))) ∧
  (∀ (s : State) (a : SrvAccess), a.core < 256 → a.op ≤ 5 → 1 ≤ a.n → a.pageFault = false →
    exec (.srvMemoryAccess a) s = .next ((s.srvSeen a).srvRegion a)) ∧
  (∀ (s : State) (a : SrvAccess), a.core < 256 → a.op ≤ 5 → 1 ≤ a.n → a.pageFault = true →
    exec (.srvMemoryAccess a) s = .next (s.modSrv a.core fun x =>
      { x with trap := some (pageFaultCode a.op, a.va), retry := none })) ∧
  (∀ (s : State) (c due : Nat) (a : SrvAccess), (s.srvCore c).retry = some (a, due) → due ≤ s.panelTime.toNat →
    exec (.srvAccessRetry c) s = .next ((s.modSrv c fun x => { x with retry := none }).srvRegion a))

/-- Operating points and ceilings (R536 to R545): a die steps its divisor by one entry toward its target, faster only at that
point's voltage, and its voltage follows; an idle core is gated after GATE_US; a cause's demand rises a point each millisecond
and falls one each 10 ms; a reading above WARN starts a WARN, one that trips acts, and a WARN ends after 10 ms; DIE_PWR_BOUND
takes bounds in the safe range. A lost feed caps the module, the loss of both ends it, and its return lifts the cap (R546,
R630). PANEL_TIME counts five nanoseconds a cycle, one more or less in a cycle that the discipline corrects (R547, R548); an
exchange on the source's port shows the source, its hops and the offset (R548, R549), and a second without one ends the lock
(R549). -/
def Obligations.PowerCompletes : Prop :=
  (∀ (s : State) (st d : Nat), st < 72 → d < 4 →
    (∀ t0, s.divAt.find (dieKey st d) = some t0 → t0 + 1000 ≤ s.panelTime.toNat) →
    (s.fld (Page.computeDie st d) diePwrStat 1 0 < s.divTarget st d →
      ∃ t, exec (.divStep st d) s = .next t ∧
        t.fld (Page.computeDie st d) diePwrStat 1 0 = s.fld (Page.computeDie st d) diePwrStat 1 0 + 1 ∧
        ({ t with regs := s.regs, divAt := s.divAt } : State) = s) ∧
    (s.divTarget st d < s.fld (Page.computeDie st d) diePwrStat 1 0 →
      minVolt (s.divTarget st d) ≤ s.fld (Page.computeDie st d) diePwrStat 41 32 →
      ∃ t, exec (.divStep st d) s = .next t ∧
        t.fld (Page.computeDie st d) diePwrStat 1 0 + 1 = s.fld (Page.computeDie st d) diePwrStat 1 0 ∧
        ({ t with regs := s.regs, divAt := s.divAt } : State) = s)) ∧
  (∀ (s : State) (st d : Nat), st < 72 → d < 4 →
    (s.fld (Page.computeDie st d) diePwrStat 1 0 = s.divTarget st d → exec (.voltageRampDone st d) s =
      .next (s.setFld (Page.computeDie st d) diePwrStat 41 32 (minVolt (s.divTarget st d)))) ∧
    (s.divTarget st d < s.fld (Page.computeDie st d) diePwrStat 1 0 →
      s.fld (Page.computeDie st d) diePwrStat 41 32 < minVolt (s.divTarget st d) → exec (.voltageRampDone st d) s =
      .next (s.setFld (Page.computeDie st d) diePwrStat 41 32 (minVolt (s.divTarget st d))))) ∧
  (∀ (s : State) (c : Nat), (s.core c).status = .idle → (s.core c).task = none →
    s.fld (corePage c) diePwrBound 15 8 ≠ 0 → exec (.powerGate c) s = .next (s.setCore c
      { status := .gated, lastPart := (s.core c).lastPart, lastCause := (s.core c).lastCause })) ∧
  (∀ (s : State) (c i : Nat), (s.cause c i).warn = true → (s.cause c i).moved + 1000000 ≤ s.panelTime.toNat →
    (s.cause c i).demand < 3 → (c ≠ 10 ∧ (s.cause c i).above = true) ∨ (c = 10 ∧ 2800 < s.lastReading 9 0) →
    exec (.ceilStep c i) s = .next ((s.modCause c i fun x =>
      { x with demand := x.demand + 1, moved := s.panelTime.toNat }).refreshCause c i)) ∧
  (∀ (s : State) (c i : Nat), (s.cause c i).warn = false → (s.cause c i).moved + 10000000 ≤ s.panelTime.toNat →
    0 < (s.cause c i).demand → exec (.ceilStep c i) s = .next ((s.modCause c i fun x =>
      { x with demand := x.demand - 1, moved := s.panelTime.toNat }).refreshCause c i)) ∧
  (∀ (s u : State) (c i v peak : Nat), i < sensorCount c → s.boot.running = false →
    u = ({ s with sensors := s.sensors.set (causeKey c i) v } : State).showReading c i v →
    (s.overTrip c v peak = false → exec (.sensorReading c i v peak) s = .next (u.warnStep c i v false)) ∧
    (s.overTrip c v peak = true → c = 9 ∨ s.sensors.find (causeKey c i) = none →
      exec (.sensorReading c i v peak) s = .next (((u.warnStep c i v true).tripAct c i).genEvent Page.thermal 0x02D2 0
        (thermalPayload c i (eventReading c (if c = 9 then peak else v)))))) ∧
  (∀ (s : State) (c i v peak : Nat), i < sensorCount c → s.boot.running = false → s.overTrip c v peak = false →
    s.overWarn c v = true → (s.cause c i).warn = false →
    ∃ t, exec (.sensorReading c i v peak) s = .next t ∧ t.lastReading c i = v ∧ (t.cause c i).warn = true ∧
      (t.cause c i).demand = min 3 ((s.cause c i).demand + 1) ∧ t.mem = s.mem) ∧
  (∀ (s : State) (c i t0 : Nat), (s.cause c i).coolSince = some t0 → (s.cause c i).warn = true → c ≤ 9 →
    t0 + 10000000 ≤ s.panelTime.toNat →
    ∃ t, exec (.warnEnd c i) s = .next t ∧ (t.cause c i).warn = false ∧ (t.cause c i).coolSince = none ∧
      (t.cause c i).demand = (s.cause c i).demand ∧ t.mem = s.mem) ∧
  (∀ (s : State) (f volt : Nat) (c : Instr), f < 2 → c = .feedLoss f volt ∨ c = .feedOverVoltage f volt → f ∉ s.boot.lost →
    (1 - f ∉ s.boot.lost → ∃ t, exec c s = .next t ∧ t.boot.lost = f :: s.boot.lost ∧ (t.cause 10 0).warn = true ∧
      t.fld Page.pmc Reg.PMC_FEED_STAT f f = 0 ∧ t.mem = s.mem) ∧
    (1 - f ∈ s.boot.lost → exec c s = .next ((({ s with
      boot := { s.boot with lost := f :: s.boot.lost } } : State).feedStat f 0 volt).powerLost))) ∧
  (∀ (s : State) (f volt : Nat), f < 2 → f ∈ s.boot.lost → 1 - f ∉ s.boot.lost →
    ∃ t, exec (.feedRestore f volt) s = .next t ∧ t.boot.lost = [] ∧ (t.cause 10 0).warn = false ∧
      t.fld Page.pmc Reg.PMC_FEED_STAT f f = 1 ∧ t.mem = s.mem) ∧
  (∀ (s : State) (i : Ident) (st d : Nat) (v : Word), st < 72 → d < 4 → Admitted s i (Page.computeDie st d) diePwrBound v →
    (bits v 1 0 ≤ bits v 3 2 → 600 ≤ bits v 25 16 → bits v 25 16 ≤ 850 →
      ∃ t, exec (.diePwrBoundWrite i st d v) s = .next t ∧
        t.fld (Page.computeDie st d) diePwrBound 1 0 = bits v 1 0 ∧ t.fld (Page.computeDie st d) diePwrBound 3 2 = bits v 3 2 ∧
        t.fld (Page.computeDie st d) diePwrBound 15 8 = bits v 15 8 ∧
        t.fld (Page.computeDie st d) diePwrBound 25 16 = bits v 25 16 ∧ t.mem = s.mem) ∧
    (bits v 3 2 < bits v 1 0 ∨ bits v 25 16 < 600 ∨ 850 < bits v 25 16 →
      exec (.diePwrBoundWrite i st d v) s = .next (s.admittedState i (Page.computeDie st d) diePwrBound))) ∧
  (∀ (s : State) (n : Nat), exec (.panelTimeTick n 0) s = .next (s.setTime (s.panelTime.toNat + 5 * n))) ∧
  (∀ (s : State) (n adj : Nat), 1 ≤ n → adj = 1 ∨ adj = 2 → s.time.corrected + 10000 ≤ s.panelTime.toNat →
    (∃ e ∈ s.time.pairs, s.portUp e.1 = true) →
    ∃ t, exec (.panelTimeTick n adj) s = .next t ∧
      t.panelTime = BitVec.ofNat 64 (if adj = 1 then s.panelTime.toNat + 5 * n - 1 else s.panelTime.toNat + 5 * n + 1) ∧
      t.time.corrected = s.panelTime.toNat ∧ ({ t with regs := s.regs, time := s.time } : State) = s) ∧
  (∀ (s u : State) (f source hops t1 t2 t3 t4 h : Nat) (off : Int), f < 32 → s.portUp f = true →
    u = { s with time := { s.time with pairs := s.time.pairs.set f (source % 4096, hops) } } →
    u.timeSource = some (f, source % 4096, h) →
    off = (((t2 : Int) - (t1 : Int)) - ((t4 : Int) - (t3 : Int))) / 2 →
    ∃ t, exec (.timeExchange f source hops t1 t2 t3 t4) s = .next t ∧ t.fld Page.clock timeStat 43 32 = source % 4096 ∧
      t.fld Page.clock timeStat 47 44 = (h + 1) % 16 ∧ t.fld Page.clock timeStat 31 16 = unsigned 16 off ∧
      t.time.good = (if -20 ≤ off ∧ off ≤ 20 then s.time.good + 1 else 0) ∧ t.mem = s.mem) ∧
  (∀ (s : State), s.time.last + 1000000000 ≤ s.panelTime.toNat →
    ∃ t, exec .timeLockLoss s = .next t ∧ t.fld Page.clock timeStat 0 0 = 0 ∧ t.time.good = 0 ∧ t.mem = s.mem)

/-- The oldest event goes to the queue that its page's EV_ROUTE names where no entry of the routing table matches: the record is
written at TAIL, which advances (R559 to R562), and a full queue counts a drop instead (R561). A write of EVQ_HEAD takes records
as read (R562), ENABLE of EVQ_CFG starts the queue at zero (R561), a read of EVQ_STAT answers it and clears DROPPED (R607), and
EV_FORCE posts a TEST event of each class named (R559). -/
def Obligations.EventQueuesComplete : Prop :=
  (∀ (s : State) (g : GenEvent) (rest : List GenEvent), s.events = g :: rest →
    exec .eventPosting s = .next (({ s with events := rest } : State).routeEvent g)) ∧
  (∀ (s w : State) (e a tail size : Nat) (g : GenEvent) (rest : List GenEvent), s.events = g :: rest → s.ertMatch g = none →
    e = s.fld g.page Reg.EV_ROUTE 7 0 → s.evqAccepts e g.part = true → tail = bits (s.evqReg e 0x10) 19 0 →
    size = evqSize (s.evqReg e 8) →
    ((tail + 1) % size ≠ bits (s.evqReg e 0x18) 19 0 % size → (s.evq.get {} e).raised = true → s.evqPlace e tail = some a →
      ({ s with events := rest } : State).physWrite (bits (s.evqReg e 8) 61 56) .engine a
        (recordBytes g (s.evq.get {} e).phase (s.evq.get {} e).lost) = (St.ok, w) →
      ∃ t, exec .eventPosting s = .next t ∧ bits (t.evqReg e 0x10) 19 0 = (tail + 1) % size % 2 ^ 20 ∧ t.events = w.events ∧
        t.mem = w.mem) ∧
    ((tail + 1) % size = bits (s.evqReg e 0x18) 19 0 % size →
      ∃ t, exec .eventPosting s = .next t ∧ t.events = rest ∧
        bits (t.evqReg e 0x20) 63 32 = min (bits (s.evqReg e 0x20) 63 32 + 1) 0xFFFFFFFF ∧ t.mem = s.mem)) ∧
  (∀ (s : State) (i : Ident) (e : Nat) (v : Word), e < 256 → Admitted s i (evqPage e) (evqOff e 0x18) v →
    ∃ t, exec (.evqHead i e v) s = .next t ∧ bits (t.evqReg e 0x18) 19 0 = bits v 19 0 ∧ (t.evq.get {} e).raised = false ∧
      t.events = s.events ∧ t.mem = s.mem) ∧
  (∀ (s : State) (i : Ident) (e : Nat) (v : Word), e < 256 → Admitted s i (evqPage e) (evqOff e 8) v →
    (bit (s.evqReg e 8) 63 = false → bit v 63 = true →
      ∃ t, exec (.evqCfgWrite i e v) s = .next t ∧ bits (t.evqReg e 8) 63 56 = bits v 63 56 ∧ bits (t.evqReg e 0x10) 19 0 = 0 ∧
        bits (t.evqReg e 0x18) 19 0 = 0 ∧ t.evq.get {} e = {} ∧ t.mem = s.mem) ∧
    (bit v 63 = false →
      ∃ t, exec (.evqCfgWrite i e v) s = .next t ∧ bits (t.evqReg e 8) 63 56 = bits v 63 56 ∧ t.evq = s.evq ∧ t.mem = s.mem) ∧
    (bit (s.evqReg e 8) 63 = true → bit v 63 = true →
      ∃ t, exec (.evqCfgWrite i e v) s = .next t ∧ t.evqReg e 8 = s.evqReg e 8 ∧ t.evq = s.evq ∧ t.mem = s.mem)) ∧
  (∀ (s : State) (i : Ident) (e at_ n : Nat), e < 256 → (n = 8 ∧ at_ = 0) ∨ (n = 4 ∧ (at_ = 0 ∨ at_ = 4)) →
    s.unreached (evqPage e) = false → s.mayRead i (evqPage e) (evqOff e 0x20) = true →
    s.unpowered.contains (evqPage e) = false →
    ∃ t, exec (.evqStatRead i e at_ n) s = .next t ∧
      t.reply = (St.ok, ((leBytes 8 (s.evqReg e 0x20).toNat).drop at_).take n) ∧
      bits (t.evqReg e 0x20) 31 0 = bits (s.evqReg e 0x20) 31 0 ∧
      bits (t.evqReg e 0x20) 63 32 = (if n = 8 ∨ at_ = 4 then 0 else bits (s.evqReg e 0x20) 63 32) ∧ t.mem = s.mem) ∧
  (∀ (s : State) (i : Ident) (page : Nat) (v : Word), page ≠ 0x102 → Admitted s i page Reg.EV_FORCE v →
    exec (.evForce i page v) s = .next (evForceEff page v (s.admittedState i page Reg.EV_FORCE)) ∧
    ∀ c, c < 16 → v = place c c 1 → ∃ t e, exec (.evForce i page v) s = .next t ∧ t.events = s.events ++ [e] ∧
      e.page = page ∧ e.code = 0x01FF ∧ e.cls = c ∧ t.mem = s.mem)

/-- A change of PAGE_CTL that expects the page's epoch and that Table 19-7 and PAGE_CAP allow is made, with LAST_STATUS OK (R566,
R570, R611): the page enters the state of its transition. A quiescing page enters QUIESCED when its work is done or its time has
passed (R567), an updating one when the image has been dealt with, and a page in INIT becomes READY (R566). PAGE_LOCK is taken
while it is free and freed by its holder, by management or after 1 ms (R614). Every other register takes its plain fields from a
write (R3). -/
def Obligations.PagesComplete : Prop :=
  (∀ (s : State) (i : Ident) (page change e q : Nat) (v : Word) (c : Instr), page ≠ 0x102 → e = s.fld page Reg.PAGE_CTL 0 0 →
    q = s.fld page Reg.PAGE_CTL 1 1 →
    (c, v, change) ∈ [(Instr.quiesceReq i page (s.epoch page), ctlWord (s.epoch page) e 1 0, if q = 1 then 0 else 2),
      (.quiesceClear i page (s.epoch page), ctlWord (s.epoch page) e 0 0, if q = 0 then 0 else 2),
      (.resetReq i page (s.epoch page), ctlWord (s.epoch page) e q 4, 3),
      (.updateReq i page (s.epoch page), ctlWord (s.epoch page) e q 8, 4),
      (.enableClear i page (s.epoch page), ctlWord (s.epoch page) 0 q 0, if e = 0 then 0 else 1),
      (.enableSet i page (s.epoch page), ctlWord (s.epoch page) 1 q 0, if e = 1 then 0 else 1)] →
    Admitted s i page Reg.PAGE_CTL v → s.ctlAllowed page change = true →
    exec c s = .next (((s.admittedState i page Reg.PAGE_CTL).ctlMake page change).lastStatus page St.ok)) ∧
  (∀ (s : State) (i : Ident) (page e q : Nat) (k : PageKind), e = s.fld page Reg.PAGE_CTL 0 0 →
    q = s.fld page Reg.PAGE_CTL 1 1 → pageKind page = some k → k ∉ [.iommuFile, .decanter, .blend, .cellarBay, .hubRouter] →
    (Admitted s i page Reg.PAGE_CTL (ctlWord (s.epoch page) e 1 0) → q = 0 → s.pageState page = PS.ready →
      bit (s.reg page Reg.PAGE_CAP) 1 = true →
      ∃ t, exec (.quiesceReq i page (s.epoch page)) s = .next t ∧ t.pageState page = PS.quiescing ∧
        t.fld page Reg.PAGE_CTL 1 1 = 1 ∧ t.quiesceAt.get 0 page = s.panelTime.toNat ∧ t.mem = s.mem) ∧
    (Admitted s i page Reg.PAGE_CTL (ctlWord (s.epoch page) e 0 0) → q = 1 → s.pageState page = PS.quiesced →
      ∃ t, exec (.quiesceClear i page (s.epoch page)) s = .next t ∧ t.pageState page = PS.ready ∧
        t.fld page Reg.PAGE_CTL 1 1 = 0 ∧ t.epoch page = (s.epoch page + 1) % 65536 ∧ t.mem = s.mem) ∧
    (Admitted s i page Reg.PAGE_CTL (ctlWord (s.epoch page) 0 q 0) → e = 1 → s.pageState page = PS.quiesced →
      ∃ t, exec (.enableClear i page (s.epoch page)) s = .next t ∧ t.pageState page = PS.off ∧
        t.fld page Reg.PAGE_CTL 0 0 = 0 ∧ t.mem = s.mem ∧
        (bit (s.reg page Reg.PAGE_CAP) 0 = true → page ∈ t.unpowered)) ∧
    (Admitted s i page Reg.PAGE_CTL (ctlWord (s.epoch page) 1 q 0) → e = 0 → s.pageState page = PS.off →
      ∃ t, exec (.enableSet i page (s.epoch page)) s = .next t ∧ t.pageState page = PS.init ∧ page ∉ t.unpowered) ∧
    (Admitted s i page Reg.PAGE_CTL (ctlWord (s.epoch page) e q 4) →
      s.pageState page = PS.quiesced ∨ s.pageState page = PS.faulted → bit (s.reg page Reg.PAGE_CAP) 2 = true →
      ∃ t, exec (.resetReq i page (s.epoch page)) s = .next t ∧ t.pageState page = PS.init ∧ page ∉ t.unpowered) ∧
    (Admitted s i page Reg.PAGE_CTL (ctlWord (s.epoch page) e q 8) → s.pageState page = PS.quiesced →
      bit (s.reg page Reg.PAGE_CAP) 3 = true →
      ∃ t, exec (.updateReq i page (s.epoch page)) s = .next t ∧ t.pageState page = PS.updating ∧ t.mem = s.mem) ∧
    (Admitted s i page Reg.PAGE_CTL (ctlWord (s.epoch page) e q 16) →
      ∃ t, exec (.cntClear i page (s.epoch page)) s = .next t ∧ t.mem = s.mem ∧ t.pageState page = s.pageState page ∧
        ∀ j, j < 16 → t.reg page (Reg.CNT + 8 * j) = resetValue page (Reg.CNT + 8 * j))) ∧
  (∀ (s : State) (page : Nat), s.pageState page = PS.quiescing → s.workLeft page = 0 →
    exec (.quiesceDone page) s = .next (s.quiesceEnd page) ∧
    (pageKind page ≠ some .cellarBay → ∃ t, exec (.quiesceDone page) s = .next t ∧ t.pageState page = PS.quiesced)) ∧
  (∀ (s : State) (page t0 : Nat), s.quiesceAt.find page = some t0 → s.pageState page = PS.quiescing →
    t0 + s.quiesceLimit ≤ s.panelTime.toNat → pageKind page ≠ some .cellarBay →
    ∃ t, exec (.quiesceExpired page) s = .next t ∧ t.pageState page = PS.quiesced) ∧
  (∀ (s : State) (stack version : Nat), stack < 72 → s.pageState (Page.hubCtrl stack) = PS.updating →
    (s.isWritten (Page.hubCtrl stack) 0x100 = true → ∃ t, exec (.updateDone stack St.ok version) s = .next t ∧
      t.pageState (Page.hubCtrl stack) = PS.quiesced ∧ t.reg (Page.hubCtrl stack) 0x108 = place 15 0 version ∧
      t.fld (Page.hubCtrl stack) Reg.PAGE_STATE 31 24 = St.ok ∧ t.mem = s.mem) ∧
    (∀ status, status = St.inputCorrupt ∨ status = St.versionMismatch →
      ∃ t, exec (.updateDone stack status version) s = .next t ∧ t.pageState (Page.hubCtrl stack) = PS.quiesced ∧
        t.reg (Page.hubCtrl stack) 0x108 = s.reg (Page.hubCtrl stack) 0x108 ∧
        t.fld (Page.hubCtrl stack) Reg.PAGE_STATE 31 24 = status ∧ t.mem = s.mem)) ∧
  (∀ (s : State) (page width rate : Nat), s.pageState page = PS.init → s.tooHot page = false → s.unreached page = false →
    (pageKind page ≠ some .cellarBay → ∃ t, exec (.pageInitDone page width rate) s = .next t ∧ t.pageState page = PS.ready) ∧
    (∀ b, b < 16 → page = Page.bay b → s.bayStat b 1 1 = 1 → s.bayStat b 3 3 = 0 → width ≠ 0 →
      ∃ t, exec (.pageInitDone page width rate) s = .next t ∧ t.bayStat b 3 3 = 1 ∧ t.bayStat b 20 16 = width % 32 ∧
        (t.bay b).rate = rate ∧ t.mem = s.mem)) ∧
  (∀ (s : State) (i : Ident) (page : Nat), page ≠ 0x102 → identIndex i < 65536 →
    (Admitted s i page Reg.PAGE_LOCK 1 → bit (s.reg page Reg.PAGE_LOCK) 63 = false →
      ∃ t, exec (.pageLockAcquire i page) s = .next t ∧ t.holdsLock i page = true ∧
        t.lockAt.get 0 page = s.panelTime.toNat ∧ t.mem = s.mem) ∧
    (Admitted s i page Reg.PAGE_LOCK 1 → bit (s.reg page Reg.PAGE_LOCK) 63 = true →
      ∃ t, exec (.pageLockAcquire i page) s = .next t ∧ t.reg page Reg.PAGE_LOCK = s.reg page Reg.PAGE_LOCK ∧ t.mem = s.mem) ∧
    (Admitted s i page Reg.PAGE_LOCK 2 → bit (s.reg page Reg.PAGE_LOCK) 63 = true → s.holdsLock i page = true ∨ i = .mgmt →
      ∃ t, exec (.pageLockRelease i page) s = .next t ∧ t.reg page Reg.PAGE_LOCK = 0 ∧ t.mem = s.mem) ∧
    (bit (s.reg page Reg.PAGE_LOCK) 63 = true → s.lockAt.get 0 page + 1000000 ≤ s.panelTime.toNat →
      exec (.pageLockIdleExpiry page) s = .next (s.setReg page Reg.PAGE_LOCK 0))) ∧
  (∀ (s : State) (i : Ident) (page off : Nat) (v : Word), off < 0x1000 → off % 8 = 0 → Admitted s i page off v →
    exec (.registerWrite i page off v) s = .next (regEffect i page off v (s.admittedState i page off)) ∧
    ∀ k r, pageKind page = some k → k ≠ .iommuFile → off < 0x100 → findReg k off = some r →
      off ∉ [Reg.PAGE_CTL, Reg.EV_FORCE, Reg.PAGE_LOCK] →
      ∃ t, exec (.registerWrite i page off v) s = .next t ∧
        t.reg page off = r.fields.foldl (writeField v) (s.reg page off) ∧
        (∀ p o, regKey p o ≠ regKey page off → t.reg p o = s.reg p o) ∧
        ({ t with regs := s.regs, written := s.written, lockAt := s.lockAt } : State) = s)

/-- Sparing (R573 to R581): BIND starts the binding of a logical to a SPARED stack, RELEASE gives up a MEMORY_ONLY one; a failed
die or hub is FAULTED and reported, and what still waits for a lost hub ends with DATA_LOST; CAP_DECLARED follows its inputs and
UNAVAIL_US counts. ROW_SKIP names the two columns that a row skips (R103, R104), and the core window reads and writes the selected
core's state and clears its fault (R620, R621). -/
def Obligations.SparingCompletes : Prop :=
  (∀ (s a : State) (i : Ident) (l p epoch : Nat) (auto : Bool), l < 64 → p < 72 →
    Admitted s i Page.device Reg.SPARE_CTL (spareWord 0 l p epoch auto) →
    a = (s.admittedState i Page.device Reg.SPARE_CTL).storeWrite Page.device Reg.SPARE_CTL (spareWord 0 l p epoch auto) →
    s.bindEpoch l = epoch → s.stackState p = PS.spared → s.bindBusy l p = false →
    exec (.spareBind i l p epoch auto) s = .next ((a.bindStart l p true).spareStatus St.ok) ∧
    (s.boundStack l = none → ∃ t, exec (.spareBind i l p epoch auto) s = .next t ∧ t.binds = s.binds ++ [(l, p)] ∧
      t.fld Page.device Reg.SPARE_CTL 55 48 = St.ok ∧
      ∀ b, b < lsBase (coreKey p 0 0) ∨ lsBase (coreKey p 0 0) + 0x80000000 ≤ b → t.mem.read b = s.mem.read b)) ∧
  (∀ (s a : State) (i : Ident) (p epoch : Nat) (auto : Bool), p < 72 →
    Admitted s i Page.device Reg.SPARE_CTL (spareWord 1 0 p epoch auto) →
    a = (s.admittedState i Page.device Reg.SPARE_CTL).storeWrite Page.device Reg.SPARE_CTL (spareWord 1 0 p epoch auto) →
    s.epoch (Page.router p) = epoch → s.stackState p = PS.memoryOnly →
    exec (.spareRelease i p epoch auto) s = .next ((a.releaseStack p).spareStatus St.ok)) ∧
  (∀ (s : State) (st d : Nat), st < 72 → d < 4 → s.pageState (Page.computeDie st d) ≠ PS.faulted →
    exec (.dieFailed st d) s = .next ((s.dieFail st d false).dieRebind st) ∧
    (s.tasks = [] → s.autoSpare = false → ∃ t, exec (.dieFailed st d) s = .next t ∧
      t.pageState (Page.computeDie st d) = PS.faulted ∧ t.capStale = true ∧ Posts s t (Page.computeDie st d) 0x0112 ∧
      t.mem = s.mem)) ∧
  (∀ (s : State) (p : Nat), p < 72 → s.stackState p ≠ PS.faulted → s.stackState p ≠ PS.off →
    exec (.stackFailed p) s = .next (s.hubFail p false)) ∧
  (∀ (s u : State) (p t0 : Nat), s.lostAt.find p = some t0 →
    t0 + s.fld Page.device Reg.QUIESCE_CFG 31 16 * 100000 ≤ s.panelTime.toNat →
    u = ((s.lostReqs.filter fun e => decide (e.1 = p)).map Prod.snd).foldl (fun u m => u.refuseRequest m St.dataLost)
      { s with lostReqs := s.lostReqs.filter fun e => !decide (e.1 = p) } →
    u.txns = [] → u.nearReqs = [] → (∀ e ∈ u.cmds, e.2.held ≠ 4) →
    exec (.lostTimeout p) s = .next { u with lostAt := u.lostAt.drop fun k => k == p }) ∧
  (∀ (s : State),
    (bits (s.reg Page.device Reg.CAP_DECLARED) 42 0 = s.capacityNow → exec .capChanged s = .next { s with capStale := false }) ∧
    (bits (s.reg Page.device Reg.CAP_DECLARED) 42 0 ≠ s.capacityNow → ∃ t, exec .capChanged s = .next t ∧
      t.fld Page.device Reg.CAP_DECLARED 42 0 = s.capacityNow ∧
      t.fld Page.device Reg.CAP_DECLARED 63 48 = (s.fld Page.device Reg.CAP_DECLARED 63 48 + 1) % 65536 ∧
      t.capStale = false ∧ Posts s t Page.device 0x0116 ∧ t.mem = s.mem) ∧
    (s.unavailable = true → exec .unavailTick s = .next (s.bump Page.device 0)) ∧
    (s.unavailable = false → exec .unavailTick s = .next s)) ∧
  (∀ (s : State) (i : Ident) (st d r n0 n1 : Nat) (v : Word), st < 72 → d < 4 → r < 30 → n0 = bits v 5 0 → n1 = bits v 13 8 →
    n0 < n1 → n1 ≤ 41 → Admitted s i (Page.computeDie st d) (Reg.ROW_SKIP + 8 * r) v →
    ((∀ p, p < 42 → (s.core (coreKey st d (r * 42 + p))).task = none) →
      ∃ t, exec (.rowSkipWrite i st d r v) s = .next t ∧
        t.fld (Page.computeDie st d) (Reg.ROW_SKIP + 8 * r) 5 0 = n0 ∧
        t.fld (Page.computeDie st d) (Reg.ROW_SKIP + 8 * r) 13 8 = n1 ∧
        (∀ p, p = n0 ∨ p = n1 → (t.core (coreKey st d (r * 42 + p))).status = .skipped ∨
          (t.core (coreKey st d (r * 42 + p))).status = .faulted)) ∧
    (∀ p, p < 42 → (s.core (coreKey st d (r * 42 + p))).task ≠ none →
      ∃ t, exec (.rowSkipWrite i st d r v) s = .next t ∧ t.cores = s.cores ∧ t.mem = s.mem ∧
        t.fld (Page.computeDie st d) Reg.PAGE_STATE 31 24 = St.unitUnavailable)) ∧
  (∀ (s : State) (i : Ident) (st o at_ n : Nat) (v : Word), st < 72 → o = s.fld (Page.coreWindow st) 0x108 18 0 / 8 * 8 →
    (Admitted s i (Page.coreWindow st) 0x110 v →
      exec (.cwDataAccess i st (some v) at_ n) s = .next (cwDataEff st v (s.admittedState i (Page.coreWindow st) 0x110)) ∧
      (s.cwReaches st = true → o < 0x40000 → ∃ t, exec (.cwDataAccess i st (some v) at_ n) s = .next t ∧
        t.mem = s.mem.writeBytes (lsBase (s.cwCore st) + o) (leBytes 8 v.toNat) ∧
        t.fld (Page.coreWindow st) 0x118 47 40 = St.ok ∧
        t.fld (Page.coreWindow st) 0x108 18 0 = (s.fld (Page.coreWindow st) 0x108 18 0 + 8) % 2 ^ 19)) ∧
    (s.unreached (Page.coreWindow st) = false → s.mayRead i (Page.coreWindow st) 0x110 = true →
      s.unpowered.contains (Page.coreWindow st) = false →
      ∃ t, exec (.cwDataAccess i st none 0 8) s = .next t ∧ t.reply = (St.ok, leBytes 8 (s.cwData st).toNat) ∧
        t.fld (Page.coreWindow st) 0x108 18 0 = (s.fld (Page.coreWindow st) 0x108 18 0 + 8) % 2 ^ 19 ∧
        t.mem = s.mem ∧ t.cores = s.cores)) ∧
  (∀ (s : State) (i : Ident) (st : Nat), st < 72 → Admitted s i (Page.coreWindow st) 0x120 1 →
    (s.core (s.cwCore st)).status = .faulted →
    exec (.clearFault i st true) s = .next ((s.admittedState i (Page.coreWindow st) 0x120).modCore (s.cwCore st) fun k =>
      { k with status := .idle }) ∧
    exec (.clearFault i st false) s = .next (s.admittedState i (Page.coreWindow st) 0x120))

/-- Start-up goes from phase to phase as each completes or reaches its bound, and stops in phases 2 and 3 (R582, R585); the next
column of stacks powers up 0.5 s after the one before; a feed that is present starts a module without power (R588, R630); the flash
takes what it keeps (R587); a module reset that expects the current epoch restarts at phase 3 with every queue, task and byte of its
memory gone (R588, R589); and the panel management controller answers PLDM (R637, R638). -/
def Obligations.StartupCompletes : Prop :=
  (∀ (s : State) (ok strap : Bool) (offline : List Nat) (srv : Nat),
    (s.phase = 1 → s.boot.lost.length < 2 → ∃ t, exec (.phaseComplete ok strap offline srv) s = .next t ∧ t.phase = 2) ∧
    (s.phase = 2 → s.slotGood s.boot.active = true → s.boot.active < 2 →
      ∃ t, exec (.phaseComplete ok strap offline srv) s = .next t ∧ t.phase = 3 ∧ t.boot.strap = strap ∧
        t.boot.running = true ∧ t.fld Page.pmc Reg.BOOT_STAT 8 8 = s.boot.active) ∧
    (s.phase = 3 → ok = true → s.coolantBad = false → s.boot.lost = [] →
      ∃ t, exec (.phaseComplete ok strap offline srv) s = .next t ∧ t.phase = 4 ∧ t.mem = s.mem) ∧
    (s.phase = 3 → ok = false ∨ s.coolantBad = true →
      exec (.phaseComplete ok strap offline srv) s = .next (s.bootStop St.internal)) ∧
    (s.phase = 4 → s.boot.groups = 9 → ∃ t, exec (.phaseComplete ok strap offline srv) s = .next t ∧ t.phase = 5) ∧
    (s.phase = 5 → ∃ t, exec (.phaseComplete ok strap offline srv) s = .next t ∧ t.phase = 6) ∧
    (s.phase = 6 → exec (.phaseComplete ok strap offline srv) s = .next s.phase7) ∧
    (s.phase = 7 → ∃ t, exec (.phaseComplete ok strap offline srv) s = .next t ∧ t.phase = 8 ∧ t.mem = s.mem) ∧
    (s.phase = 8 → ∃ t, exec (.phaseComplete ok strap offline srv) s = .next t ∧ t.phase = 9 ∧ t.mem = s.mem) ∧
    (s.phase = 9 → ∃ t, exec (.phaseComplete ok strap offline srv) s = .next t ∧ t.phase = 10 ∧ t.boot.running = false ∧
      t.fld Page.device Reg.CAP_DECLARED 42 0 = t.capacityNow ∧ t.mem = s.mem)) ∧
  (∀ (s : State) (offline : List Nat) (srv : Nat), s.boot.running = true →
    s.boot.phaseAt + phaseBound s.phase ≤ s.panelTime.toNat →
    (s.phase = 2 ∨ s.phase = 3 → exec (.phaseTimeout offline srv) s = .next (s.bootStop St.timeout)) ∧
    (s.phase = 4 → ∃ t, exec (.phaseTimeout offline srv) s = .next t ∧ t.phase = 5) ∧
    (s.phase = 5 → exec (.phaseTimeout offline srv) s = .next (s.phase5 offline)) ∧
    (s.phase = 6 → exec (.phaseTimeout offline srv) s = .next s.phase7) ∧
    (s.phase = 7 → exec (.phaseTimeout offline srv) s = .next (s.setPhase 8)) ∧
    (s.phase = 8 → exec (.phaseTimeout offline srv) s = .next (s.phase8 srv)) ∧
    (s.phase = 9 → exec (.phaseTimeout offline srv) s = .next s.bootDone)) ∧
  (∀ (s : State) (badHubs badDies badCores : List Nat), s.boot.running = true → s.phase = 4 → s.boot.groups < 9 →
    s.boot.phaseAt + 500000000 * s.boot.groups ≤ s.panelTime.toNat →
    ∃ t, exec (.stackGroupPower badHubs badDies badCores) s = .next t ∧ t.boot.groups = s.boot.groups + 1) ∧
  (∀ (s : State) (f volt : Nat), f < 2 → 760 ≤ volt →
    (s.boot.running = true → s.phase = 1 ∨ s.phase = 15 → ∃ t, exec (.feedPresent f volt) s = .next t ∧ t.phase = 1 ∧
      t.boot.running = true ∧ f ∉ t.boot.lost ∧ t.fld Page.pmc Reg.PMC_FEED_STAT f f = 1) ∧
    (s.boot.running = false → f ∉ s.boot.lost → exec (.feedPresent f volt) s = .next (s.feedStat f 1 volt))) ∧
  (∀ s : State, exec .flashPersist s = .next { s with
    boot := { s.boot with flash := s.regs.filter fun e => inFlash e.1 } }) ∧
  (∀ (s : State) (i : Ident) (epoch : Nat) (strap : Bool),
    Admitted s i Page.pmc Reg.BOOT_CTL (place 63 63 1 ||| place 15 0 epoch) →
    (epoch = s.epoch Page.device → ∃ t, exec (.moduleReset i epoch strap) s = .next t ∧ t.phase = 3 ∧ t.boot.running = true ∧
      t.cmds = [] ∧ t.tasks = [] ∧ t.mem = s.mem.filter (fun c => hostAddr c.1) ∧ t.pending = s.pending) ∧
    (epoch < 65536 → epoch ≠ s.epoch Page.device → ∃ t, exec (.moduleReset i epoch strap) s = .next t ∧
      t.fld Page.pmc Reg.BOOT_STAT 39 32 = St.epochStale ∧ t.mem = s.mem ∧ t.cmds = s.cmds)) ∧
  (∀ (s : State) (path type : Nat) (known : Bool), exec (.pldmRequest path type known) s =
    .next { s with out := ⟨.pldm, path, 0, if type ∈ [0, 2, 4, 5] ∧ known = true then 0 else 1, 0, []⟩ :: s.out }) ∧
  (∀ (s : State) (path step : Nat) (sound : Bool),
    (s.boot.update = true → exec (.pldmFirmwareUpdate path 0 sound) s =
      .next { s with out := ⟨.pldm, path, 0, 2, 0, []⟩ :: s.out }) ∧
    (s.boot.update = false → ∃ t, exec (.pldmFirmwareUpdate path 0 sound) s = .next t ∧ t.boot.update = true ∧
      t.out = ⟨.pldm, path, 0, 0, 0, []⟩ :: s.out ∧ t.mem = s.mem) ∧
    (s.boot.update = true → ∃ t, exec (.pldmFirmwareUpdate path 1 sound) s = .next t ∧
      t.slotGood (1 - s.boot.active) = sound ∧ t.boot.active = s.boot.active ∧ t.mem = s.mem) ∧
    (s.boot.update = true → 2 ≤ step → ∃ t, exec (.pldmFirmwareUpdate path step sound) s = .next t ∧ t.boot.update = false ∧
      t.boot.active = (if s.slotGood (1 - s.boot.active) then 1 - s.boot.active else s.boot.active) ∧ t.mem = s.mem))

/-- A step executes the command at the front of the queue on the state with the queue's rest; an empty queue idles, which is the
model's choice (log row 9). -/
def Obligations.StepRunsFront : Prop :=
  (∀ (s : State) (i : Instr) (rest : List Instr), s.pending = i :: rest → step s = exec i { s with pending := rest }) ∧
  (∀ s : State, s.pending = [] → step s = .next s)

/-- What reset leaves (R3, R9): every register at its reset value, among them those of start-up, power, sparing and the queues; no
command, task, event or message; and no byte of memory written. The values of reset X, FUSE, of memory, and of what is no
register, are the model's choices (log rows 2, 3, 4, 49). -/
def Obligations.ResetState : Prop :=
  (∀ page off, State.reset.reg page off = resetValue page off) ∧
  State.reset.fld Page.pmc Reg.BOOT_STAT 3 0 = 2 ∧ State.reset.fld Page.pmc Reg.BOOT_CFG 0 0 = 1 ∧
  State.reset.autoSpare = true ∧
  (∀ st d, st < 72 → d < 4 → State.reset.fld (Page.computeDie st d) diePwrStat 1 0 = 3 ∧
    State.reset.fld (Page.computeDie st d) diePwrStat 41 32 = 600 ∧ State.reset.fld (Page.computeDie st d) diePwrBound 3 2 = 3 ∧
    State.reset.fld (Page.computeDie st d) diePwrBound 15 8 = 100 ∧ State.reset.fld (Page.computeDie st d) keepCtl 7 0 = 48) ∧
  (∀ q, q < 1024 → bits (State.reset.qreg q Q.cfg) 63 63 = 0 ∧ State.reset.qreg q Q.bind = 0 ∧
    bits (State.reset.qreg q Q.stat) 63 63 = 1) ∧
  State.reset.pending = [] ∧ State.reset.cmds = [] ∧ State.reset.tasks = [] ∧ State.reset.events = [] ∧ State.reset.net = [] ∧
  (∀ a, State.reset.mem.read a = 0)

/-- The invariant of every step holds at reset. -/
def Obligations.ResetSafe : Prop := Safe State.reset

/-- Every step keeps memory in its canonical form, whatever command is in front and whatever the state. -/
def Obligations.StepKeepsMemory : Prop := ∀ s t : State, Safe s → step s = .next t → Safe t

/-- x0 reads zero and discards writes, every other scalar register reads what was written last; a save writes x0 as zero, and a
restore ignores the saved value of x0. -/
def Obligations.ZeroRegister : Prop :=
  (∀ k : Core, k.rx 0 = 0) ∧ (∀ (k : Core) (v : Word), k.wx 0 v = k) ∧
  (∀ (k : Core) (n m : Nat) (v : Word), n ≠ 0 → (k.wx n v).rx m = if m = n then v else k.rx m) ∧
  (∀ (k : Core) (info : Word), k.recWord info 0x64000 = 0) ∧
  (∀ (k : Core) (f g : Nat → Word), (∀ o, o ≠ 0x64000 → f o = g o) → coreOfRecord k f = coreOfRecord k g)

/-- VSETVL takes its requested length from XA and its EW from its immediate, writes EW to VTYPE.EW, min(request, VLMAX) to VL and
the same value to XD; EW 0b11 is an ILLEGAL_INSTRUCTION fault with status INTERNAL, and nothing is written. -/
def Obligations.VsetvlSets : Prop :=
  (∀ (s : State) (c ew vl : Nat) (w : Word), Issues s c .vsetvl w → (s.core c).vstart = 0 → ew = bits w 1 0 → ew < 3 →
    bits w 45 2 = 0 → vl = min ((s.core c).rx (Ins.a w)).toNat (2048 / ewBits ew) →
    ∃ t, exec (.vsetvl c) s = .next t ∧ (t.core c).vtype = ew ∧ (t.core c).vl = vl ∧ (t.core c).vlmax = 2048 / ewBits ew ∧
      (Ins.d w ≠ 0 → (t.core c).rx (Ins.d w) = BitVec.ofNat 64 vl) ∧
      (∀ m, m ≠ Ins.d w → (t.core c).rx m = (s.core c).rx m) ∧ (t.core c).v = (s.core c).v ∧ (t.core c).k = (s.core c).k ∧
      (t.core c).fflags = (s.core c).fflags ∧ (t.core c).pc = (s.core c).pc + 8) ∧
  (∀ (s : State) (c : Nat) (w : Word), Issues s c .vsetvl w → bits w 1 0 = 3 →
    Faults (.vsetvl c) s c w 0x01 St.internal 0xFFFF 0)

/-- An instruction whose effect is on its own core changes that core alone: memory, every register page, every other core, task,
command, event and queue is as before, whether it completes, is held or faults. -/
def Obligations.CoreFrame : Prop :=
  ∀ (s t : State) (c : Nat) (e : Ecc) (p : CoreRow × Instr), p ∈ ownRows c e → exec p.2 s = .next t →
    ({ t with cores := s.cores } : State) = s ∧ ∀ d, d ≠ c → t.core d = s.core d

/-- A word with an unassigned OPC or FN faults with ILLEGAL_INSTRUCTION and status INTERNAL, at any address, and so does a vector
instruction with VSTART ≠ 0 (R143, R183); the fault is precise, and nothing else changes (R98, R184). -/
def Obligations.IllegalFaults : Prop :=
  (∀ (s : State) (c : Nat) (e : Ecc) (w : Word) (p : CoreRow × Instr), p ∈ issueRows c e →
    (s.core c).fetched = some w → (s.core c).canIssue = true → rowOf w = p.1 → fnAssigned w = false →
    Faults p.2 s c w 0x01 St.internal 0xFFFF 0) ∧
  (∀ (s : State) (c : Nat) (w : Word) (p : CoreRow × Instr), p ∈ vectorRows c → Issues s c p.1 w → (s.core c).vstart ≠ 0 →
    Faults p.2 s c w 0x01 St.internal 0xFFFF 0)

/-- A core that has stopped, ended or waits, or whose instruction is not in its buffer, issues nothing (R80, R86, R93), and a
command of another row than that of the instruction at PC changes nothing (log row 5). -/
def Obligations.HeldCores : Prop :=
  ∀ (s : State) (c : Nat) (e : Ecc) (p : CoreRow × Instr), p ∈ issueRows c e →
    (s.core c).status ≠ .running ∨ (s.core c).ended = true ∨ (s.core c).wait ≠ .none ∨ (s.core c).fetched = none ∨
      (∃ w, (s.core c).fetched = some w ∧ rowOf w ≠ p.1) →
    exec p.2 s = .next s

/-- A write that the identity has no right to make changes no register and counts once, in FILTERED of HOST_PORT for a host
identity and in RIGHTS_DENIED of DEVICE for any other (R617, R618); a write to a reserved offset is discarded (R606), and before
start-up has reached the block it answers UNIT_UNAVAILABLE with hint 15 (R586). -/
def Obligations.WriteRights : Prop :=
  ∀ (s : State) (i : Ident) (page off : Nat) (v : Word) (k : PageKind), off < 0x1000 → off % 8 = 0 → pageKind page = some k →
    k ≠ .iommuFile →
    (s.unreached page = true → exec (.registerWrite i page off v) s = .next { s with reply := (St.unitUnavailable, [15]) }) ∧
    (s.unreached page = false → findReg k off = none →
      ∃ t, exec (.registerWrite i page off v) s = .next t ∧ ({ t with lockAt := s.lockAt } : State) = s) ∧
    (s.unreached page = false → (findReg k off).isSome = true → isDoorbell page off = false → s.mayWrite i page off v = false →
      ∃ t, exec (.registerWrite i page off v) s = .next t ∧
        (identHost i = true → t.reg Page.hostPort (Reg.CNT + 40) = s.reg Page.hostPort (Reg.CNT + 40) + 1) ∧
        (identHost i = false → t.reg Page.device (Reg.CNT + 8) = s.reg Page.device (Reg.CNT + 8) + 1) ∧
        (∀ p o, regKey p o ≠ regKey Page.hostPort (Reg.CNT + 40) → regKey p o ≠ regKey Page.device (Reg.CNT + 8) →
          t.reg p o = s.reg p o) ∧
        ({ t with regs := s.regs, lockAt := s.lockAt } : State) = s)

/-- Commands on registers, clocks and the panel management controller leave every byte of memory, every core, task, command and
cache as it was. -/
def Obligations.RegisterFrame : Prop :=
  ∀ (s t : State) (u : Ident) (q p j e n k st d page epoch at_ adj f source hops t1 t2 t3 t4 version path type step cause ix : Nat)
    (v : Word) (discard known sound : Bool) (c : Instr),
    c ∈ [Instr.sqTail u q v, .cqHead u q v, .qcfgEnableSet u q v, .qbindWrite u q v, .partCtlWrite u p v, .partStacksWrite u p v,
      .partSrvWrite u p j v, .evqHead u e v, .evqCfgWrite u e v, .evqStatRead u e at_ n, .evForce u page v, .reqTail u n k v,
      .streamRestart u n k epoch discard, .diePwrBoundWrite u st d v, .keepCtlWrite u st d v, .updateReq u page epoch,
      .updateDone st k version, .cntClear u page epoch, .pageLockAcquire u page, .pageLockRelease u page,
      .pageLockIdleExpiry page, .divStep st d, .voltageRampDone st d, .ceilStep cause ix, .panelTimeTick n adj,
      .timeExchange f source hops t1 t2 t3 t4, .timeLockLoss, .capChanged, .unavailTick, .flashPersist,
      .pldmRequest path type known, .pldmFirmwareUpdate path step sound] →
    exec c s = .next t → t.mem = s.mem ∧ t.cores = s.cores ∧ t.tasks = s.tasks ∧ t.cmds = s.cmds ∧ t.agents = s.agents ∧
      t.cache = s.cache ∧ t.bad = s.bad
end

