-- ==== Sys2Proof/Laws/Registers.lean ====
section
/-!
SUPPORT. Maps, registers of the address map and the admission of a register access: a read after a load gives what was loaded,
a load leaves every other register alone, and an admitted write is its effect in the state of its admission.
-/
namespace Sys2Proof.Machine

/-- A key reads as what it was set to. -/
theorem Map.get_set_same {α : Type} (d : α) : ∀ (m : Map α) (i : Nat) (x : α), (m.set i x).get d i = x
  | [], i, x => by simp [Map.set, Map.get]
  | (k, v) :: t, i, x => by
    simp only [Map.set]
    split
    · simp [Map.get]
    · split
      · simp [Map.get]
      · rename_i _ h; simp [Map.get, Ne.symm h, Map.get_set_same d t i x]

/-- Setting a key leaves every other key alone. -/
theorem Map.get_set_other {α : Type} (d : α) :
    ∀ (m : Map α) (i j : Nat) (x : α), j ≠ i → (m.set i x).get d j = m.get d j
  | [], i, j, x, h => by simp [Map.set, Map.get, Ne.symm h]
  | (k, v) :: t, i, j, x, h => by
    simp only [Map.set]
    split
    · simp [Map.get, Ne.symm h]
    · split
      · rename_i _ e; subst e; simp [Map.get, Ne.symm h]
      · simp only [Map.get, Map.get_set_other d t i j x h]

/-- A key that was set has an entry. -/
theorem Map.find_set_same {α : Type} : ∀ (m : Map α) (i : Nat) (x : α), (m.set i x).find i = some x
  | [], i, x => by simp [Map.set, Map.find]
  | (k, v) :: t, i, x => by
    simp only [Map.set]
    split
    · simp [Map.find]
    · split
      · simp [Map.find]
      · rename_i _ h; simp [Map.find, Ne.symm h, Map.find_set_same t i x]

/-- Setting a key leaves the entry of every other key alone. -/
theorem Map.find_set_other {α : Type} : ∀ (m : Map α) (i j : Nat) (x : α), j ≠ i → (m.set i x).find j = m.find j
  | [], i, j, x, h => by simp [Map.set, Map.find, Ne.symm h]
  | (k, v) :: t, i, j, x, h => by
    simp only [Map.set]
    split
    · simp [Map.find, Ne.symm h]
    · split
      · rename_i _ e; subst e; simp [Map.find, Ne.symm h]
      · simp only [Map.find, Map.find_set_other t i j x h]

/-- A register reads as what hardware loaded. -/
@[simp] theorem State.reg_setReg_same (s : State) (page off : Nat) (v : Word) : (s.setReg page off v).reg page off = v := by
  simp [State.reg, State.setReg, Map.find_set_same]

/-- Loading a register leaves every register with another key alone. -/
theorem State.reg_setReg_other (s : State) (page off p o : Nat) (v : Word) (h : regKey p o ≠ regKey page off) :
    (s.setReg page off v).reg p o = s.reg p o := by
  simp [State.reg, State.setReg, Map.find_set_other _ _ _ _ h]

/-- Loading a field leaves every register with another key alone. -/
theorem State.reg_setFld_other (s : State) (page off hi lo n p o : Nat) (h : regKey p o ≠ regKey page off) :
    (s.setFld page off hi lo n).reg p o = s.reg p o :=
  State.reg_setReg_other _ _ _ _ _ _ h

/-- A register whose field was loaded is the old register with that field replaced. -/
@[simp] theorem State.reg_setFld_same (s : State) (page off hi lo n : Nat) :
    (s.setFld page off hi lo n).reg page off = setBits (s.reg page off) hi lo n :=
  State.reg_setReg_same _ _ _ _

/-- Using a lock changes at most when the lock was last used (R614). -/
theorem State.lockTouch_eq (s : State) (i : Ident) (page : Nat) : ∃ l, s.lockTouch i page = { s with lockAt := l } := by
  unfold State.lockTouch
  split
  · exact ⟨_, rfl⟩
  · exact ⟨s.lockAt, rfl⟩

/-- Admission changes at most when the lock was last used and which X fields count as written (R4, R614). -/
theorem State.admittedState_eq (s : State) (i : Ident) (page off : Nat) :
    ∃ l w, s.admittedState i page off = { s with lockAt := l, written := w } := by
  obtain ⟨l, hl⟩ := State.lockTouch_eq s i page
  simp only [State.admittedState, hl]
  split
  · exact ⟨l, _, rfl⟩
  · exact ⟨l, s.written, rfl⟩

/-- An admitted write is its effect in the state of its admission. -/
theorem State.writeVia_admitted {s : State} {i : Ident} {page off : Nat} {v : Word} (eff : State → State)
    (h : Admitted s i page off v) : s.writeVia i page off v eff = eff (s.admittedState i page off) := by
  obtain ⟨h1, h2, h3, h4, h5⟩ := h
  have h3' : (!isDoorbell page off && !(s.lockTouch i page).mayWrite i page off v) = false := by
    rw [← Bool.not_or, h3]; rfl
  unfold State.writeVia
  extract_lets known s' s''
  have hk : known = true := h2
  have h4' : (s'.unpowered.contains page && decide (0x60 ≤ off)) = false := h4
  rw [if_neg (by simp [h1]), if_neg (by simp [hk]), if_neg (ne_true_of_eq_false h3'), if_neg (ne_true_of_eq_false h4'),
    if_neg (ne_true_of_eq_false h5)]
  rfl

/-- What a register write can be (R606, R613, R614, R617, R586): the answer that the page's block cannot be reached, nothing
but the use of the lock, a denial counted, the page's LAST_STATUS set, or the effect in the state of its admission. -/
theorem State.writeVia_cases (s : State) (i : Ident) (page off : Nat) (v : Word) (eff : State → State) :
    s.writeVia i page off v eff = { s with reply := (St.unitUnavailable, [15]) }
      ∨ s.writeVia i page off v eff = s.lockTouch i page
      ∨ s.writeVia i page off v eff = (s.lockTouch i page).denied i
      ∨ s.writeVia i page off v eff = (s.lockTouch i page).lastStatus page St.unitUnavailable
      ∨ s.writeVia i page off v eff = eff (s.admittedState i page off) := by
  unfold State.writeVia
  extract_lets known s' s''
  clear_value known
  split
  · exact .inl rfl
  · split
    · exact .inr (.inl rfl)
    · split
      · exact .inr (.inr (.inl rfl))
      · split
        · exact .inr (.inr (.inr (.inl rfl)))
        · split
          · exact .inr (.inr (.inr (.inl rfl)))
          · exact .inr (.inr (.inr (.inr rfl)))

/-- A register write keeps what its effect keeps of every admitted state and its refusals keep. -/
theorem State.writeVia_mem {s : State} {i : Ident} {page off : Nat} {v : Word} {eff : State → State}
    (h : ∀ l w, (eff { s with lockAt := l, written := w }).mem = s.mem) : (s.writeVia i page off v eff).mem = s.mem := by
  obtain ⟨l, hl⟩ := State.lockTouch_eq s i page
  obtain ⟨l', w, ha⟩ := State.admittedState_eq s i page off
  rcases State.writeVia_cases s i page off v eff with e | e | e | e | e <;> rw [e]
  · rw [hl]
  · rw [hl]; unfold State.denied; split <;> rfl
  · rw [hl]; rfl
  · rw [ha]; exact h l' w

end Sys2Proof.Machine
end

