-- ==== Sys2Proof/Laws/Core.lean ====
section
/-!
SUPPORT. Compute cores: the core of a state, the scalar registers, and what the issue of an instruction does, once for an
instruction that completes and once for one that faults (Chapters 4 and 5).
-/
namespace Sys2Proof.Machine

/-- A core reads as what it was set to. -/
@[simp] theorem State.core_setCore (s : State) (c : Nat) (k : Core) : (s.setCore c k).core c = k := Map.get_set_same _ _ _ _

/-- Setting a core leaves every other core alone. -/
theorem State.core_setCore_other (s : State) (c d : Nat) (k : Core) (h : d ≠ c) : (s.setCore c k).core d = s.core d :=
  Map.get_set_other _ _ _ _ _ h

/-- x0 reads as zero (R70). -/
@[simp] theorem Core.rx_zero (k : Core) : k.rx 0 = 0 := rfl

/-- A write to x0 is discarded (R70). -/
@[simp] theorem Core.wx_zero (k : Core) (v : Word) : k.wx 0 v = k := rfl

/-- A scalar register other than x0 reads as what was written. -/
theorem Core.rx_wx_same (k : Core) (i : Nat) (v : Word) (h : i ≠ 0) : (k.wx i v).rx i = v := by
  simp [Core.rx, Core.wx, h, Map.get_set_same]

/-- A write of a scalar register leaves the others alone. -/
theorem Core.rx_wx_other (k : Core) (i j : Nat) (v : Word) (h : j ≠ i) : (k.wx i v).rx j = k.rx j := by
  by_cases hi : i = 0
  · simp [Core.wx, hi]
  · simp [Core.rx, Core.wx, hi, Map.get_set_other _ _ _ _ _ h]

/-- A vector register reads as what was written. -/
@[simp] theorem Core.rv_wv_same (k : Core) (i : Nat) (v : BitVec 2048) : (k.wv i v).rv i = v := Map.get_set_same _ _ _ _

/-- A write of a vector register leaves the others alone. -/
theorem Core.rv_wv_other (k : Core) (i j : Nat) (v : BitVec 2048) (h : j ≠ i) : (k.wv i v).rv j = k.rv j :=
  Map.get_set_other _ _ _ _ _ h

@[simp] theorem Core.wx_pc (k : Core) (i : Nat) (v : Word) : (k.wx i v).pc = k.pc := by unfold Core.wx; split <;> rfl
@[simp] theorem Core.wv_pc (k : Core) (i : Nat) (v : BitVec 2048) : (k.wv i v).pc = k.pc := rfl
@[simp] theorem Core.wk_pc (k : Core) (i : Nat) (v) : (k.wk i v).pc = k.pc := rfl
@[simp] theorem Core.raise_pc (k : Core) (f) : (k.raise f).pc = k.pc := rfl
@[simp] theorem Core.advanceSr_pc (k : Core) (m) : (k.advanceSr m).pc = k.pc := by unfold Core.advanceSr; split <;> rfl
@[simp] theorem Core.setToken_pc (k : Core) (t x) : (k.setToken t x).pc = k.pc := rfl
@[simp] theorem Core.writeLow_pc (k : Core) (t x y) : (k.writeLow t x y).pc = k.pc := rfl

/-- An instruction that issues and completes retires with its result and its next address. -/
theorem State.issue_done {s s' : State} {c : Nat} {row : CoreRow} {w : Word} {sem : Core → Word → Issue} {pc : Nat}
    (h : Issues s c row w) (hs : sem (s.core c) w = .done s' pc) :
    s.issue c row sem = s'.modCore c fun k => (s.core c).retire k pc := by
  obtain ⟨h1, h2, h3, h4, h5⟩ := h
  simp only [State.issue, h1, h2, h3, h4, hs, lastAddress, h5]
  simp [State.applyIssue, Core.retire]

/-- An instruction that issues and faults stops its core with the fault's record and changes nothing else. -/
theorem State.issue_fault {s : State} {c : Nat} {row : CoreRow} {w : Word} {sem : Core → Word → Issue} {a b d e : Nat}
    (h : Issues s c row w) (hs : sem (s.core c) w = .fault a b d e) :
    s.issue c row sem = s.setCore c ((s.core c).stopWith ⟨a, b, d, (s.core c).pc, e, w⟩) := by
  obtain ⟨h1, h2, h3, h4, h5⟩ := h
  simp only [State.issue, h1, h2, h3, h4, hs, lastAddress, h5]
  simp [State.applyIssue]

/-- A command whose instruction issues and writes its own core completes. -/
theorem completes_of_done {i : Instr} {s : State} {c : Nat} {row : CoreRow} {w : Word} {sem : Core → Word → Issue} {k : Core}
    {pc : Nat} (h : Issues s c row w) (he : exec i s = .next (s.issue c row sem))
    (hs : sem (s.core c) w = .done (s.setCore c k) pc) : Completes i s c k pc := by
  refine ⟨_, he, ?_, ?_, ?_, ?_⟩ <;> rw [State.issue_done h hs]
  · simp [State.modCore]
  · rfl
  · intro d hd; simp [State.modCore, State.core_setCore_other, hd]
  · rfl

/-- A command whose instruction issues and writes nothing completes. -/
theorem completes_of_same {i : Instr} {s : State} {c : Nat} {row : CoreRow} {w : Word} {sem : Core → Word → Issue} {pc : Nat}
    (h : Issues s c row w) (he : exec i s = .next (s.issue c row sem)) (hs : sem (s.core c) w = .done s pc) :
    Completes i s c (s.core c) pc := by
  refine ⟨_, he, ?_, ?_, ?_, ?_⟩ <;> rw [State.issue_done h hs]
  · simp [State.modCore]
  · rfl
  · intro d hd; simp [State.modCore, State.core_setCore_other, hd]
  · rfl

/-- A command whose instruction issues and faults stops its core alone. -/
theorem faults_of_fault {i : Instr} {s : State} {c : Nat} {row : CoreRow} {w : Word} {sem : Core → Word → Issue}
    {a b d e : Nat} (h : Issues s c row w) (he : exec i s = .next (s.issue c row sem))
    (hs : sem (s.core c) w = .fault a b d e) : Faults i s c w a b d e := by
  refine ⟨_, he, ?_, ?_, ?_, ?_⟩ <;> rw [State.issue_fault h hs]
  · simp
  · rfl
  · intro d hd; simp [State.core_setCore_other, hd]
  · rfl

end Sys2Proof.Machine
end

