-- ==== Sys2Proof/Laws/Memory.lean ====
section
/-!
SUPPORT. Memory: every operation keeps the canonical form (log row 4), a read after a write gives what was written, a write
leaves every other address alone, and canonical memories that read alike are equal.
-/
namespace Sys2Proof.Machine

/-- Canonical form of a memory with a first entry. -/
theorem Memory.wf_cons {k : Nat} {v : Byte} {t : Memory} :
    Memory.wf ((k, v) :: t) = true ↔ v ≠ 0 ∧ (∀ e ∈ t.head?, k < e.1) ∧ Memory.wf t = true := by
  cases t with
  | nil => simp [Memory.wf]
  | cons e t => obtain ⟨k', v'⟩ := e; simp [Memory.wf, and_assoc]

/-- Canonical form: no zero entry, and rising addresses. -/
theorem Memory.wf_iff {m : Memory} :
    m.wf = true ↔ (∀ e ∈ m, e.2 ≠ 0) ∧ m.Pairwise (fun a b => a.1 < b.1) := by
  induction m with
  | nil => simp [Memory.wf]
  | cons e t ih =>
    obtain ⟨k, v⟩ := e
    rw [Memory.wf_cons, ih]
    constructor
    · rintro ⟨hv, hk, h, hp⟩
      refine ⟨fun e he => (List.mem_cons.1 he).elim (fun q => q ▸ hv) (h e), List.pairwise_cons.2 ⟨?_, hp⟩⟩
      cases t with
      | nil => simp
      | cons e' t =>
        have h0 : k < e'.1 := hk e' rfl
        intro b hb
        rcases List.mem_cons.1 hb with rfl | hb
        · exact h0
        · exact Nat.lt_trans h0 ((List.pairwise_cons.1 hp).1 b hb)
    · rintro ⟨h, hp⟩
      obtain ⟨h1, h2⟩ := List.pairwise_cons.1 hp
      refine ⟨h (k, v) (by simp), ?_, fun e he => h e (by simp [he]), h2⟩
      intro e he
      exact h1 e (List.mem_of_mem_head? he)

/-- Dropping entries keeps the form. -/
theorem Memory.filter_wf {m : Memory} (h : m.wf = true) (p : Host.Cell → Bool) : Memory.wf (m.filter p) = true := by
  rw [Memory.wf_iff] at *
  exact ⟨fun e he => h.1 e (List.mem_filter.1 he).1, h.2.filter p⟩

/-- Clearing a range keeps the form. -/
theorem Memory.clear_wf {m : Memory} (h : m.wf = true) (lo hi : Nat) : (m.clear lo hi).wf = true := Memory.filter_wf h _

/-- Writing a byte keeps the form. -/
theorem Memory.write_wf {m : Memory} (h : m.wf = true) (a : Nat) (b : Byte) : (m.write a b).wf = true := by
  have key : ∀ m : Memory, m.wf = true → (m.write a b).wf = true ∧
      ∀ e ∈ m.write a b, e ∈ m ∨ e.1 = a := by
    intro m
    induction m with
    | nil => intro _; unfold Memory.write; split <;> simp_all [Memory.wf]
    | cons e t ih =>
      obtain ⟨k, v⟩ := e
      intro hm
      have hm' := hm
      rw [Memory.wf_iff] at hm'
      obtain ⟨hv, hp⟩ := hm'
      obtain ⟨h1, h2⟩ := List.pairwise_cons.1 hp
      have ht : Memory.wf t = true := Memory.wf_iff.2 ⟨fun e he => hv e (by simp [he]), h2⟩
      unfold Memory.write
      split
      · split
        · exact ⟨hm, fun e he => .inl he⟩
        · refine ⟨?_, fun e he => ?_⟩
          · rw [Memory.wf_cons]; exact ⟨by assumption, by simpa using by assumption, hm⟩
          · rcases List.mem_cons.1 he with rfl | he
            · exact .inr rfl
            · exact .inl he
      · split
        · split
          · exact ⟨ht, fun e he => .inl (by simp [he])⟩
          · refine ⟨?_, fun e he => ?_⟩
            · rename_i heq _
              rw [Memory.wf_cons, heq]
              exact ⟨by assumption, (Memory.wf_cons.1 hm).2.1, ht⟩
            · rcases List.mem_cons.1 he with rfl | he
              · exact .inr rfl
              · exact .inl (by simp [he])
        · obtain ⟨w, sub⟩ := ih ht
          refine ⟨?_, fun e he => ?_⟩
          · rw [Memory.wf_cons]
            refine ⟨hv (k, v) (by simp), fun e he => ?_, w⟩
            rcases sub e (List.mem_of_mem_head? he) with he | he
            · exact h1 e he
            · omega
          · rcases List.mem_cons.1 he with rfl | he
            · exact .inl (by simp)
            · rcases sub e he with he | he
              · exact .inl (by simp [he])
              · exact .inr he
  exact (key m h).1

/-- Writing bytes keeps the form. -/
theorem Memory.writeBytes_wf {m : Memory} (h : m.wf = true) (a : Nat) (bs : List Byte) : (m.writeBytes a bs).wf = true := by
  induction bs generalizing m a with
  | nil => exact h
  | cons b bs ih => exact ih (Memory.write_wf h a b) (a + 1)

/-- Writing a number keeps the form. -/
theorem Memory.writeNat_wf {m : Memory} (h : m.wf = true) (a n x : Nat) : (m.writeNat a n x).wf = true := Memory.writeBytes_wf h _ _

/-- A fold of operations that keep the form keeps it. -/
theorem Memory.foldl_wf {α : Type} {f : Memory → α → Memory} (l : List α) (hf : ∀ m x, m.wf = true → (f m x).wf = true) {m : Memory}
    (h : m.wf = true) : (l.foldl f m).wf = true := by
  induction l generalizing m with
  | nil => exact h
  | cons x l ih => exact ih (hf m x h)

/-- Setting A and D bits keeps the form. -/
theorem setAccessed_wf {m : Memory} (h : m.wf = true) (ls : List Leaf) (w : Bool) : (setAccessed m ls w).wf = true :=
  Memory.foldl_wf ls (fun _ _ h => Memory.writeNat_wf h _ _ _) h

/-- Storing vector elements keeps the form. -/
theorem storeElems_wf {m : Memory} (h : m.wf = true) (b : Nat) (k : Core) (w : Word) : (storeElems m b k w).wf = true :=
  Memory.foldl_wf _ (fun _ _ h => Memory.writeNat_wf h _ _ _) h

/-- An address that no entry lists reads zero. -/
theorem Memory.read_unlisted {m : Memory} {a : Nat} (h : ∀ e ∈ m, e.1 ≠ a) : m.read a = 0 := by
  induction m with
  | nil => rfl
  | cons e t ih =>
    obtain ⟨k, v⟩ := e
    unfold Memory.read
    rw [if_neg (h (k, v) (by simp))]
    exact ih fun e he => h e (by simp [he])

/-- Reading a byte that was written. -/
@[simp] theorem Memory.read_write_same {m : Memory} (h : m.wf = true) (a : Nat) (b : Byte) : (m.write a b).read a = b := by
  induction m with
  | nil => unfold Memory.write; split <;> simp_all [Memory.read]
  | cons e t ih =>
    obtain ⟨k, v⟩ := e
    rw [Memory.wf_iff] at h
    obtain ⟨h1, h2⟩ := List.pairwise_cons.1 h.2
    have ht : Memory.wf t = true := Memory.wf_iff.2 ⟨fun e he => h.1 e (by simp [he]), h2⟩
    unfold Memory.write
    split
    · split
      · rename_i hb; rw [hb]
        refine Memory.read_unlisted fun e he => ?_
        rcases List.mem_cons.1 he with rfl | he
        · exact Nat.ne_of_gt (by assumption)
        · have := h1 e he; simp at this; omega
      · simp [Memory.read]
    · split
      · split
        · rename_i hk hb; rw [hb]
          refine Memory.read_unlisted fun e he => ?_
          have := h1 e he; simp at this; omega
        · simp [Memory.read]
      · have : k ≠ a := by omega
        simp only [Memory.read, if_neg this]
        exact ih ht

/-- Reading another byte than the one written. -/
theorem Memory.read_write_other (m : Memory) (a c : Nat) (b : Byte) (h : c ≠ a) : (m.write a b).read c = m.read c := by
  induction m with
  | nil => unfold Memory.write; split <;> simp [Memory.read, Ne.symm h]
  | cons e t ih =>
    obtain ⟨k, v⟩ := e
    unfold Memory.write
    split
    · split
      · rfl
      · simp [Memory.read, Ne.symm h]
    · split
      · rename_i hk; subst hk
        split <;> simp [Memory.read, Ne.symm h]
      · simp only [Memory.read, ih]

/-- Bytes outside the written range read as before. -/
theorem Memory.read_writeBytes_other (m : Memory) (a c : Nat) (bs : List Byte) (h : c < a ∨ a + bs.length ≤ c) :
    (m.writeBytes a bs).read c = m.read c := by
  induction bs generalizing m a with
  | nil => rfl
  | cons b bs ih =>
    rw [List.length_cons] at h
    rw [Memory.writeBytes, ih _ _ (by omega), Memory.read_write_other _ _ _ _ (by omega)]

/-- Reading back bytes that were written. -/
theorem Memory.readBytes_writeBytes {m : Memory} (h : m.wf = true) (a : Nat) (bs : List Byte) :
    (m.writeBytes a bs).readBytes a bs.length = bs := by
  induction bs generalizing m a with
  | nil => rfl
  | cons b bs ih =>
    rw [Memory.writeBytes, List.length_cons, Memory.readBytes, ih (Memory.write_wf h a b),
      Memory.read_writeBytes_other _ _ _ _ (by omega), Memory.read_write_same h]

/-- A listed entry is what its address reads. -/
theorem Memory.read_listed {m : Memory} (h : m.wf = true) {e : Host.Cell} (he : e ∈ m) : m.read e.1 = e.2 := by
  induction m with
  | nil => cases he
  | cons x t ih =>
    obtain ⟨k, v⟩ := x
    rw [Memory.wf_iff] at h
    obtain ⟨h1, h2⟩ := List.pairwise_cons.1 h.2
    rcases List.mem_cons.1 he with rfl | he
    · simp [Memory.read]
    · have hk := h1 e he
      have : k ≠ e.1 := by simp at hk; omega
      simp only [Memory.read, if_neg this]
      exact ih (Memory.wf_iff.2 ⟨fun e he => h.1 e (by simp [he]), h2⟩) he

/-- Canonical memories that read alike at every address are equal. -/
theorem Memory.ext_read {m n : Memory} (hm : m.wf = true) (hn : n.wf = true) (h : ∀ a, m.read a = n.read a) : m = n := by
  have sub : ∀ {m n : Memory}, m.wf = true → n.wf = true → (∀ a, m.read a = n.read a) → ∀ e ∈ m, e ∈ n := by
    intro m n hm hn h e he
    by_contra hc
    have hv := (Memory.wf_iff.1 hm).1 e he
    have hr := (h e.1).symm.trans (Memory.read_listed hm he)
    by_cases hl : ∃ x ∈ n, x.1 = e.1
    · obtain ⟨x, hx, hk⟩ := hl
      have := Memory.read_listed hn hx
      rw [hk, hr] at this
      exact hc ((Prod.ext hk this.symm : x = e) ▸ hx)
    · exact hv (by rw [← hr, Memory.read_unlisted fun x hx hk => hl ⟨x, hx, hk⟩])
  have p := (Memory.wf_iff.1 hm).2
  have q := (Memory.wf_iff.1 hn).2
  have dm : m.Nodup := p.imp fun h e => by subst e; exact Nat.lt_irrefl _ h
  have dn : n.Nodup := q.imp fun h e => by subst e; exact Nat.lt_irrefl _ h
  exact List.Perm.eq_of_pairwise (fun a b _ _ h1 h2 => absurd h1 (Nat.lt_asymm h2)) p q
    ((List.perm_ext_iff_of_nodup dm dn).2 fun e => ⟨sub hm hn h e, sub hn hm (fun a => (h a).symm) e⟩)

/-- A copy of a range of memory keeps the canonical form. -/
theorem Memory.copyRange_wf {m : Memory} (h : m.wf = true) (src dst n : Nat) : (m.copyRange src dst n).wf = true :=
  Memory.foldl_wf _ (fun _ _ h => Memory.write_wf h _ _) (Memory.clear_wf h _ _)

end Sys2Proof.Machine
end

