-- ==== Sys2Proof/Laws/Queues.lean ====
section
/-!
SUPPORT. Queues whose registers nothing has written: they are unbound, so the host has no queue, a partition is idle and no
forwarded command finds one (R394, R395, R443, R469).
-/
namespace Sys2Proof.Machine

/-- A key that no entry of a map has is not found. -/
theorem Map.find_none {α : Type} (m : Map α) (k : Nat) (h : ∀ e ∈ m, e.1 ≠ k) : m.find k = none := by
  induction m with
  | nil => rfl
  | cons e t ih =>
    obtain ⟨k', v⟩ := e
    have h1 : k' ≠ k := h (k', v) (List.mem_cons_self ..)
    simp only [Map.find, if_neg h1]
    exact ih fun e he => h e (List.mem_cons_of_mem _ he)

/-- QBIND resets to zero (Table 13-2). -/
theorem resetValue_qbind (q : Nat) (h : q < 1024) : resetValue (Page.queueBlock q) (qOff q Q.bind) = 0 := by
  have hk : ∀ a, a < 32 → pageKind (0x410 + a) = some .queueBlock := by decide +kernel
  have hf : ∀ b, b < 32 → (findReg .queueBlock (0x800 + 0x40 * b + 0x18)).map (fun r =>
      (decide (r.base ≠ Reg.PAGE_ID ∧ r.base ≠ Reg.PAGE_CAP ∧ r.base ≠ Reg.VER_SUPPORT ∧ r.base ≠ Reg.VER_ACTIVE),
        resetOfFields r.fields)) = some (true, 0) := by decide +kernel
  have e := hf (q % 32) (Nat.mod_lt _ (by decide))
  unfold resetValue
  rw [show Page.queueBlock q = 0x410 + q / 32 from rfl, hk (q / 32) (by omega)]
  show (match findReg .queueBlock (0x800 + 0x40 * (q % 32) + 0x18) with | none => _ | some r => _) = _
  cases hr : findReg .queueBlock (0x800 + 0x40 * (q % 32) + 0x18) with
  | none => rfl
  | some r =>
    rw [hr] at e
    simp only [Option.map_some, Option.some.injEq, Prod.mk.injEq, decide_eq_true_eq] at e
    obtain ⟨⟨h1, h2, h3, h4⟩, h5⟩ := e
    simp [h1, h2, h3, h4, h5]

/-- A queue below `top` is unbound where nothing has written a register of the queue blocks below queue `top`. -/
theorem qbind_unwritten (s : State) (q top : Nat) (hq : q < top) (ht : top ≤ 1024)
    (h : s.regs.all (fun e => decide (e.1 < 0x410 * 512 ∨ regKey (Page.queueBlock top) (qOff top 0) ≤ e.1)) = true) :
    s.qreg q Q.bind = 0 := by
  have hn : s.regs.find (regKey (Page.queueBlock q) (qOff q Q.bind)) = none := by
    refine Map.find_none _ _ fun e he => ?_
    have := of_decide_eq_true (List.all_eq_true.mp h e he)
    simp only [regKey, qOff, Page.queueBlock, Q.bind] at this ⊢
    omega
  unfold State.qreg State.reg
  rw [hn]
  exact resetValue_qbind q (by omega)

/-- Without bound queues the host has none. -/
theorem hostQueues_none (s : State) (h : ∀ q, q < 1024 → s.qreg q Q.bind = 0) : s.hostQueues = [] := by
  unfold State.hostQueues
  refine List.filter_eq_nil_iff.mpr fun q hq => ?_
  rw [h q (List.mem_range.mp hq), show bit (0 : Word) 63 = false by decide]
  simp

/-- Without bound queues and tasks a partition is idle. -/
theorem partIdle_of_unbound (s : State) (p : Nat) (ht : s.tasks = []) (h : ∀ q, q < 1024 → s.qreg q Q.bind = 0) :
    s.partIdle p = true := by
  unfold State.partIdle
  rw [ht, List.all_nil, Bool.true_and]
  refine List.all_eq_true.mpr fun q hq => ?_
  rw [h q (List.mem_range.mp hq), show bits (0 : Word) 63 63 = 0 by decide]
  simp

/-- The queues that a forwarded command of a module may go to, where only the last queue is bound. -/
theorem groupQueues_last (s : State) (f src : Nat) (h : ∀ q, q < 1023 → s.qreg q Q.bind = 0)
    (hb : bits (s.qreg 1023 Q.bind) 63 63 = 1 ∧ bits (s.qreg 1023 Q.bind) 59 56 = Q.groupFwd ∧ bits (s.qreg 1023 Q.bind) 43 32 = f ∧
      (bits (s.qreg 1023 Q.bind) 44 44 = 1 ∨ bits (s.qreg 1023 Q.bind) 27 16 = src)) : s.groupQueues f src = [1023] := by
  unfold State.groupQueues
  rw [show List.range 1024 = List.range 1023 ++ [1023] from List.range_succ, List.filter_append]
  have e : (List.range 1023).filter (fun q =>
      let b := s.qreg q Q.bind
      decide (bits b 63 63 = 1 ∧ bits b 59 56 = Q.groupFwd ∧ bits b 43 32 = f ∧ (bits b 44 44 = 1 ∨ bits b 27 16 = src))) = [] := by
    refine List.filter_eq_nil_iff.mpr fun q hq => ?_
    simp only [h q (List.mem_range.mp hq)]
    have e0 : bits (0#64) 63 63 = 0 := by decide
    simp [e0]
  rw [e]
  simp [hb]

end Sys2Proof.Machine
end

