-- ==== Sys2Proof/Laws/State.lean ====
section
/-!
SUPPORT. What each update of the state leaves alone: one lemma per field and update, true by definition.
-/
namespace Sys2Proof.Machine

/-! `setReg` writes `regs`. -/

section
variable (s : State) (page off : Nat) (v : Word)

@[simp] theorem State.setReg_pending : (s.setReg page off v).pending = s.pending := rfl
@[simp] theorem State.setReg_freeCtr : (s.setReg page off v).freeCtr = s.freeCtr := rfl
@[simp] theorem State.setReg_written : (s.setReg page off v).written = s.written := rfl
@[simp] theorem State.setReg_mem : (s.setReg page off v).mem = s.mem := rfl
@[simp] theorem State.setReg_unpowered : (s.setReg page off v).unpowered = s.unpowered := rfl
@[simp] theorem State.setReg_lastPost : (s.setReg page off v).lastPost = s.lastPost := rfl
@[simp] theorem State.setReg_evSeq : (s.setReg page off v).evSeq = s.evSeq := rfl
@[simp] theorem State.setReg_events : (s.setReg page off v).events = s.events := rfl
@[simp] theorem State.setReg_cores : (s.setReg page off v).cores = s.cores := rfl
@[simp] theorem State.setReg_partial_ : (s.setReg page off v).partial_ = s.partial_ := rfl
@[simp] theorem State.setReg_bad : (s.setReg page off v).bad = s.bad := rfl
@[simp] theorem State.setReg_tlb : (s.setReg page off v).tlb = s.tlb := rfl
@[simp] theorem State.setReg_pageReqs : (s.setReg page off v).pageReqs = s.pageReqs := rfl
@[simp] theorem State.setReg_iommuFaults : (s.setReg page off v).iommuFaults = s.iommuFaults := rfl
@[simp] theorem State.setReg_net : (s.setReg page off v).net = s.net := rfl
@[simp] theorem State.setReg_out : (s.setReg page off v).out = s.out := rfl
@[simp] theorem State.setReg_imsic : (s.setReg page off v).imsic = s.imsic := rfl
@[simp] theorem State.setReg_hostFns : (s.setReg page off v).hostFns = s.hostFns := rfl
@[simp] theorem State.setReg_numVfs : (s.setReg page off v).numVfs = s.numVfs := rfl
@[simp] theorem State.setReg_buckets : (s.setReg page off v).buckets = s.buckets := rfl
@[simp] theorem State.setReg_cache : (s.setReg page off v).cache = s.cache := rfl
@[simp] theorem State.setReg_useCtr : (s.setReg page off v).useCtr = s.useCtr := rfl
@[simp] theorem State.setReg_prefetch : (s.setReg page off v).prefetch = s.prefetch := rfl
@[simp] theorem State.setReg_nearReqs : (s.setReg page off v).nearReqs = s.nearReqs := rfl
@[simp] theorem State.setReg_agents : (s.setReg page off v).agents = s.agents := rfl
@[simp] theorem State.setReg_dir : (s.setReg page off v).dir = s.dir := rfl
@[simp] theorem State.setReg_txns : (s.setReg page off v).txns = s.txns := rfl
@[simp] theorem State.setReg_dirQueue : (s.setReg page off v).dirQueue = s.dirQueue := rfl
@[simp] theorem State.setReg_invals : (s.setReg page off v).invals = s.invals := rfl
@[simp] theorem State.setReg_atc : (s.setReg page off v).atc = s.atc := rfl
@[simp] theorem State.setReg_atsReqs : (s.setReg page off v).atsReqs = s.atsReqs := rfl
@[simp] theorem State.setReg_srvTlb : (s.setReg page off v).srvTlb = s.srvTlb := rfl
@[simp] theorem State.setReg_txChans : (s.setReg page off v).txChans = s.txChans := rfl
@[simp] theorem State.setReg_rxChans : (s.setReg page off v).rxChans = s.rxChans := rfl
@[simp] theorem State.setReg_colls : (s.setReg page off v).colls = s.colls := rfl
@[simp] theorem State.setReg_collHigh : (s.setReg page off v).collHigh = s.collHigh := rfl
@[simp] theorem State.setReg_collDone : (s.setReg page off v).collDone = s.collDone := rfl
@[simp] theorem State.setReg_collNotes : (s.setReg page off v).collNotes = s.collNotes := rfl
@[simp] theorem State.setReg_collLocal : (s.setReg page off v).collLocal = s.collLocal := rfl
@[simp] theorem State.setReg_fabPorts : (s.setReg page off v).fabPorts = s.fabPorts := rfl
@[simp] theorem State.setReg_time : (s.setReg page off v).time = s.time := rfl
@[simp] theorem State.setReg_divAt : (s.setReg page off v).divAt = s.divAt := rfl
@[simp] theorem State.setReg_gddr : (s.setReg page off v).gddr = s.gddr := rfl
@[simp] theorem State.setReg_group : (s.setReg page off v).group = s.group := rfl
@[simp] theorem State.setReg_winCache : (s.setReg page off v).winCache = s.winCache := rfl
@[simp] theorem State.setReg_winDrops : (s.setReg page off v).winDrops = s.winDrops := rfl
@[simp] theorem State.setReg_winFlush : (s.setReg page off v).winFlush = s.winFlush := rfl
@[simp] theorem State.setReg_causes : (s.setReg page off v).causes = s.causes := rfl
@[simp] theorem State.setReg_sensors : (s.setReg page off v).sensors = s.sensors := rfl
@[simp] theorem State.setReg_clamps : (s.setReg page off v).clamps = s.clamps := rfl
@[simp] theorem State.setReg_kept : (s.setReg page off v).kept = s.kept := rfl
@[simp] theorem State.setReg_reply : (s.setReg page off v).reply = s.reply := rfl
@[simp] theorem State.setReg_bays : (s.setReg page off v).bays = s.bays := rfl
@[simp] theorem State.setReg_migs : (s.setReg page off v).migs = s.migs := rfl
@[simp] theorem State.setReg_promos : (s.setReg page off v).promos = s.promos := rfl
@[simp] theorem State.setReg_promoNext : (s.setReg page off v).promoNext = s.promoNext := rfl
@[simp] theorem State.setReg_hot : (s.setReg page off v).hot = s.hot := rfl
@[simp] theorem State.setReg_cmds : (s.setReg page off v).cmds = s.cmds := rfl
@[simp] theorem State.setReg_queues : (s.setReg page off v).queues = s.queues := rfl
@[simp] theorem State.setReg_tasks : (s.setReg page off v).tasks = s.tasks := rfl
@[simp] theorem State.setReg_blends : (s.setReg page off v).blends = s.blends := rfl
@[simp] theorem State.setReg_stages : (s.setReg page off v).stages = s.stages := rfl
@[simp] theorem State.setReg_trellis : (s.setReg page off v).trellis = s.trellis := rfl
@[simp] theorem State.setReg_evq : (s.setReg page off v).evq = s.evq := rfl
@[simp] theorem State.setReg_lockAt : (s.setReg page off v).lockAt = s.lockAt := rfl
@[simp] theorem State.setReg_quiesceAt : (s.setReg page off v).quiesceAt = s.quiesceAt := rfl
@[simp] theorem State.setReg_srv : (s.setReg page off v).srv = s.srv := rfl
@[simp] theorem State.setReg_decs : (s.setReg page off v).decs = s.decs := rfl
@[simp] theorem State.setReg_boot : (s.setReg page off v).boot = s.boot := rfl
@[simp] theorem State.setReg_binds : (s.setReg page off v).binds = s.binds := rfl
@[simp] theorem State.setReg_lostAt : (s.setReg page off v).lostAt = s.lostAt := rfl
@[simp] theorem State.setReg_lostReqs : (s.setReg page off v).lostReqs = s.lostReqs := rfl
@[simp] theorem State.setReg_capStale : (s.setReg page off v).capStale = s.capStale := rfl

end

/-! `bump` writes `regs`. -/

section
variable (s : State) (page i : Nat) (by_ : Nat)

@[simp] theorem State.bump_pending : (s.bump page i by_).pending = s.pending := rfl
@[simp] theorem State.bump_freeCtr : (s.bump page i by_).freeCtr = s.freeCtr := rfl
@[simp] theorem State.bump_written : (s.bump page i by_).written = s.written := rfl
@[simp] theorem State.bump_mem : (s.bump page i by_).mem = s.mem := rfl
@[simp] theorem State.bump_unpowered : (s.bump page i by_).unpowered = s.unpowered := rfl
@[simp] theorem State.bump_lastPost : (s.bump page i by_).lastPost = s.lastPost := rfl
@[simp] theorem State.bump_evSeq : (s.bump page i by_).evSeq = s.evSeq := rfl
@[simp] theorem State.bump_events : (s.bump page i by_).events = s.events := rfl
@[simp] theorem State.bump_cores : (s.bump page i by_).cores = s.cores := rfl
@[simp] theorem State.bump_partial_ : (s.bump page i by_).partial_ = s.partial_ := rfl
@[simp] theorem State.bump_bad : (s.bump page i by_).bad = s.bad := rfl
@[simp] theorem State.bump_tlb : (s.bump page i by_).tlb = s.tlb := rfl
@[simp] theorem State.bump_pageReqs : (s.bump page i by_).pageReqs = s.pageReqs := rfl
@[simp] theorem State.bump_iommuFaults : (s.bump page i by_).iommuFaults = s.iommuFaults := rfl
@[simp] theorem State.bump_net : (s.bump page i by_).net = s.net := rfl
@[simp] theorem State.bump_out : (s.bump page i by_).out = s.out := rfl
@[simp] theorem State.bump_imsic : (s.bump page i by_).imsic = s.imsic := rfl
@[simp] theorem State.bump_hostFns : (s.bump page i by_).hostFns = s.hostFns := rfl
@[simp] theorem State.bump_numVfs : (s.bump page i by_).numVfs = s.numVfs := rfl
@[simp] theorem State.bump_buckets : (s.bump page i by_).buckets = s.buckets := rfl
@[simp] theorem State.bump_cache : (s.bump page i by_).cache = s.cache := rfl
@[simp] theorem State.bump_useCtr : (s.bump page i by_).useCtr = s.useCtr := rfl
@[simp] theorem State.bump_prefetch : (s.bump page i by_).prefetch = s.prefetch := rfl
@[simp] theorem State.bump_nearReqs : (s.bump page i by_).nearReqs = s.nearReqs := rfl
@[simp] theorem State.bump_agents : (s.bump page i by_).agents = s.agents := rfl
@[simp] theorem State.bump_dir : (s.bump page i by_).dir = s.dir := rfl
@[simp] theorem State.bump_txns : (s.bump page i by_).txns = s.txns := rfl
@[simp] theorem State.bump_dirQueue : (s.bump page i by_).dirQueue = s.dirQueue := rfl
@[simp] theorem State.bump_invals : (s.bump page i by_).invals = s.invals := rfl
@[simp] theorem State.bump_atc : (s.bump page i by_).atc = s.atc := rfl
@[simp] theorem State.bump_atsReqs : (s.bump page i by_).atsReqs = s.atsReqs := rfl
@[simp] theorem State.bump_srvTlb : (s.bump page i by_).srvTlb = s.srvTlb := rfl
@[simp] theorem State.bump_txChans : (s.bump page i by_).txChans = s.txChans := rfl
@[simp] theorem State.bump_rxChans : (s.bump page i by_).rxChans = s.rxChans := rfl
@[simp] theorem State.bump_colls : (s.bump page i by_).colls = s.colls := rfl
@[simp] theorem State.bump_collHigh : (s.bump page i by_).collHigh = s.collHigh := rfl
@[simp] theorem State.bump_collDone : (s.bump page i by_).collDone = s.collDone := rfl
@[simp] theorem State.bump_collNotes : (s.bump page i by_).collNotes = s.collNotes := rfl
@[simp] theorem State.bump_collLocal : (s.bump page i by_).collLocal = s.collLocal := rfl
@[simp] theorem State.bump_fabPorts : (s.bump page i by_).fabPorts = s.fabPorts := rfl
@[simp] theorem State.bump_time : (s.bump page i by_).time = s.time := rfl
@[simp] theorem State.bump_divAt : (s.bump page i by_).divAt = s.divAt := rfl
@[simp] theorem State.bump_gddr : (s.bump page i by_).gddr = s.gddr := rfl
@[simp] theorem State.bump_group : (s.bump page i by_).group = s.group := rfl
@[simp] theorem State.bump_winCache : (s.bump page i by_).winCache = s.winCache := rfl
@[simp] theorem State.bump_winDrops : (s.bump page i by_).winDrops = s.winDrops := rfl
@[simp] theorem State.bump_winFlush : (s.bump page i by_).winFlush = s.winFlush := rfl
@[simp] theorem State.bump_causes : (s.bump page i by_).causes = s.causes := rfl
@[simp] theorem State.bump_sensors : (s.bump page i by_).sensors = s.sensors := rfl
@[simp] theorem State.bump_clamps : (s.bump page i by_).clamps = s.clamps := rfl
@[simp] theorem State.bump_kept : (s.bump page i by_).kept = s.kept := rfl
@[simp] theorem State.bump_reply : (s.bump page i by_).reply = s.reply := rfl
@[simp] theorem State.bump_bays : (s.bump page i by_).bays = s.bays := rfl
@[simp] theorem State.bump_migs : (s.bump page i by_).migs = s.migs := rfl
@[simp] theorem State.bump_promos : (s.bump page i by_).promos = s.promos := rfl
@[simp] theorem State.bump_promoNext : (s.bump page i by_).promoNext = s.promoNext := rfl
@[simp] theorem State.bump_hot : (s.bump page i by_).hot = s.hot := rfl
@[simp] theorem State.bump_cmds : (s.bump page i by_).cmds = s.cmds := rfl
@[simp] theorem State.bump_queues : (s.bump page i by_).queues = s.queues := rfl
@[simp] theorem State.bump_tasks : (s.bump page i by_).tasks = s.tasks := rfl
@[simp] theorem State.bump_blends : (s.bump page i by_).blends = s.blends := rfl
@[simp] theorem State.bump_stages : (s.bump page i by_).stages = s.stages := rfl
@[simp] theorem State.bump_trellis : (s.bump page i by_).trellis = s.trellis := rfl
@[simp] theorem State.bump_evq : (s.bump page i by_).evq = s.evq := rfl
@[simp] theorem State.bump_lockAt : (s.bump page i by_).lockAt = s.lockAt := rfl
@[simp] theorem State.bump_quiesceAt : (s.bump page i by_).quiesceAt = s.quiesceAt := rfl
@[simp] theorem State.bump_srv : (s.bump page i by_).srv = s.srv := rfl
@[simp] theorem State.bump_decs : (s.bump page i by_).decs = s.decs := rfl
@[simp] theorem State.bump_boot : (s.bump page i by_).boot = s.boot := rfl
@[simp] theorem State.bump_binds : (s.bump page i by_).binds = s.binds := rfl
@[simp] theorem State.bump_lostAt : (s.bump page i by_).lostAt = s.lostAt := rfl
@[simp] theorem State.bump_lostReqs : (s.bump page i by_).lostReqs = s.lostReqs := rfl
@[simp] theorem State.bump_capStale : (s.bump page i by_).capStale = s.capStale := rfl

end

/-! `setFld` writes `regs`. -/

section
variable (s : State) (page off hi lo n : Nat)

@[simp] theorem State.setFld_pending : (s.setFld page off hi lo n).pending = s.pending := rfl
@[simp] theorem State.setFld_freeCtr : (s.setFld page off hi lo n).freeCtr = s.freeCtr := rfl
@[simp] theorem State.setFld_written : (s.setFld page off hi lo n).written = s.written := rfl
@[simp] theorem State.setFld_mem : (s.setFld page off hi lo n).mem = s.mem := rfl
@[simp] theorem State.setFld_unpowered : (s.setFld page off hi lo n).unpowered = s.unpowered := rfl
@[simp] theorem State.setFld_lastPost : (s.setFld page off hi lo n).lastPost = s.lastPost := rfl
@[simp] theorem State.setFld_evSeq : (s.setFld page off hi lo n).evSeq = s.evSeq := rfl
@[simp] theorem State.setFld_events : (s.setFld page off hi lo n).events = s.events := rfl
@[simp] theorem State.setFld_cores : (s.setFld page off hi lo n).cores = s.cores := rfl
@[simp] theorem State.setFld_partial_ : (s.setFld page off hi lo n).partial_ = s.partial_ := rfl
@[simp] theorem State.setFld_bad : (s.setFld page off hi lo n).bad = s.bad := rfl
@[simp] theorem State.setFld_tlb : (s.setFld page off hi lo n).tlb = s.tlb := rfl
@[simp] theorem State.setFld_pageReqs : (s.setFld page off hi lo n).pageReqs = s.pageReqs := rfl
@[simp] theorem State.setFld_iommuFaults : (s.setFld page off hi lo n).iommuFaults = s.iommuFaults := rfl
@[simp] theorem State.setFld_net : (s.setFld page off hi lo n).net = s.net := rfl
@[simp] theorem State.setFld_out : (s.setFld page off hi lo n).out = s.out := rfl
@[simp] theorem State.setFld_imsic : (s.setFld page off hi lo n).imsic = s.imsic := rfl
@[simp] theorem State.setFld_hostFns : (s.setFld page off hi lo n).hostFns = s.hostFns := rfl
@[simp] theorem State.setFld_numVfs : (s.setFld page off hi lo n).numVfs = s.numVfs := rfl
@[simp] theorem State.setFld_buckets : (s.setFld page off hi lo n).buckets = s.buckets := rfl
@[simp] theorem State.setFld_cache : (s.setFld page off hi lo n).cache = s.cache := rfl
@[simp] theorem State.setFld_useCtr : (s.setFld page off hi lo n).useCtr = s.useCtr := rfl
@[simp] theorem State.setFld_prefetch : (s.setFld page off hi lo n).prefetch = s.prefetch := rfl
@[simp] theorem State.setFld_nearReqs : (s.setFld page off hi lo n).nearReqs = s.nearReqs := rfl
@[simp] theorem State.setFld_agents : (s.setFld page off hi lo n).agents = s.agents := rfl
@[simp] theorem State.setFld_dir : (s.setFld page off hi lo n).dir = s.dir := rfl
@[simp] theorem State.setFld_txns : (s.setFld page off hi lo n).txns = s.txns := rfl
@[simp] theorem State.setFld_dirQueue : (s.setFld page off hi lo n).dirQueue = s.dirQueue := rfl
@[simp] theorem State.setFld_invals : (s.setFld page off hi lo n).invals = s.invals := rfl
@[simp] theorem State.setFld_atc : (s.setFld page off hi lo n).atc = s.atc := rfl
@[simp] theorem State.setFld_atsReqs : (s.setFld page off hi lo n).atsReqs = s.atsReqs := rfl
@[simp] theorem State.setFld_srvTlb : (s.setFld page off hi lo n).srvTlb = s.srvTlb := rfl
@[simp] theorem State.setFld_txChans : (s.setFld page off hi lo n).txChans = s.txChans := rfl
@[simp] theorem State.setFld_rxChans : (s.setFld page off hi lo n).rxChans = s.rxChans := rfl
@[simp] theorem State.setFld_colls : (s.setFld page off hi lo n).colls = s.colls := rfl
@[simp] theorem State.setFld_collHigh : (s.setFld page off hi lo n).collHigh = s.collHigh := rfl
@[simp] theorem State.setFld_collDone : (s.setFld page off hi lo n).collDone = s.collDone := rfl
@[simp] theorem State.setFld_collNotes : (s.setFld page off hi lo n).collNotes = s.collNotes := rfl
@[simp] theorem State.setFld_collLocal : (s.setFld page off hi lo n).collLocal = s.collLocal := rfl
@[simp] theorem State.setFld_fabPorts : (s.setFld page off hi lo n).fabPorts = s.fabPorts := rfl
@[simp] theorem State.setFld_time : (s.setFld page off hi lo n).time = s.time := rfl
@[simp] theorem State.setFld_divAt : (s.setFld page off hi lo n).divAt = s.divAt := rfl
@[simp] theorem State.setFld_gddr : (s.setFld page off hi lo n).gddr = s.gddr := rfl
@[simp] theorem State.setFld_group : (s.setFld page off hi lo n).group = s.group := rfl
@[simp] theorem State.setFld_winCache : (s.setFld page off hi lo n).winCache = s.winCache := rfl
@[simp] theorem State.setFld_winDrops : (s.setFld page off hi lo n).winDrops = s.winDrops := rfl
@[simp] theorem State.setFld_winFlush : (s.setFld page off hi lo n).winFlush = s.winFlush := rfl
@[simp] theorem State.setFld_causes : (s.setFld page off hi lo n).causes = s.causes := rfl
@[simp] theorem State.setFld_sensors : (s.setFld page off hi lo n).sensors = s.sensors := rfl
@[simp] theorem State.setFld_clamps : (s.setFld page off hi lo n).clamps = s.clamps := rfl
@[simp] theorem State.setFld_kept : (s.setFld page off hi lo n).kept = s.kept := rfl
@[simp] theorem State.setFld_reply : (s.setFld page off hi lo n).reply = s.reply := rfl
@[simp] theorem State.setFld_bays : (s.setFld page off hi lo n).bays = s.bays := rfl
@[simp] theorem State.setFld_migs : (s.setFld page off hi lo n).migs = s.migs := rfl
@[simp] theorem State.setFld_promos : (s.setFld page off hi lo n).promos = s.promos := rfl
@[simp] theorem State.setFld_promoNext : (s.setFld page off hi lo n).promoNext = s.promoNext := rfl
@[simp] theorem State.setFld_hot : (s.setFld page off hi lo n).hot = s.hot := rfl
@[simp] theorem State.setFld_cmds : (s.setFld page off hi lo n).cmds = s.cmds := rfl
@[simp] theorem State.setFld_queues : (s.setFld page off hi lo n).queues = s.queues := rfl
@[simp] theorem State.setFld_tasks : (s.setFld page off hi lo n).tasks = s.tasks := rfl
@[simp] theorem State.setFld_blends : (s.setFld page off hi lo n).blends = s.blends := rfl
@[simp] theorem State.setFld_stages : (s.setFld page off hi lo n).stages = s.stages := rfl
@[simp] theorem State.setFld_trellis : (s.setFld page off hi lo n).trellis = s.trellis := rfl
@[simp] theorem State.setFld_evq : (s.setFld page off hi lo n).evq = s.evq := rfl
@[simp] theorem State.setFld_lockAt : (s.setFld page off hi lo n).lockAt = s.lockAt := rfl
@[simp] theorem State.setFld_quiesceAt : (s.setFld page off hi lo n).quiesceAt = s.quiesceAt := rfl
@[simp] theorem State.setFld_srv : (s.setFld page off hi lo n).srv = s.srv := rfl
@[simp] theorem State.setFld_decs : (s.setFld page off hi lo n).decs = s.decs := rfl
@[simp] theorem State.setFld_boot : (s.setFld page off hi lo n).boot = s.boot := rfl
@[simp] theorem State.setFld_binds : (s.setFld page off hi lo n).binds = s.binds := rfl
@[simp] theorem State.setFld_lostAt : (s.setFld page off hi lo n).lostAt = s.lostAt := rfl
@[simp] theorem State.setFld_lostReqs : (s.setFld page off hi lo n).lostReqs = s.lostReqs := rfl
@[simp] theorem State.setFld_capStale : (s.setFld page off hi lo n).capStale = s.capStale := rfl

end

/-! `markWritten` writes `written`. -/

section
variable (s : State) (page off : Nat)

@[simp] theorem State.markWritten_pending : (s.markWritten page off).pending = s.pending := rfl
@[simp] theorem State.markWritten_freeCtr : (s.markWritten page off).freeCtr = s.freeCtr := rfl
@[simp] theorem State.markWritten_regs : (s.markWritten page off).regs = s.regs := rfl
@[simp] theorem State.markWritten_mem : (s.markWritten page off).mem = s.mem := rfl
@[simp] theorem State.markWritten_unpowered : (s.markWritten page off).unpowered = s.unpowered := rfl
@[simp] theorem State.markWritten_lastPost : (s.markWritten page off).lastPost = s.lastPost := rfl
@[simp] theorem State.markWritten_evSeq : (s.markWritten page off).evSeq = s.evSeq := rfl
@[simp] theorem State.markWritten_events : (s.markWritten page off).events = s.events := rfl
@[simp] theorem State.markWritten_cores : (s.markWritten page off).cores = s.cores := rfl
@[simp] theorem State.markWritten_partial_ : (s.markWritten page off).partial_ = s.partial_ := rfl
@[simp] theorem State.markWritten_bad : (s.markWritten page off).bad = s.bad := rfl
@[simp] theorem State.markWritten_tlb : (s.markWritten page off).tlb = s.tlb := rfl
@[simp] theorem State.markWritten_pageReqs : (s.markWritten page off).pageReqs = s.pageReqs := rfl
@[simp] theorem State.markWritten_iommuFaults : (s.markWritten page off).iommuFaults = s.iommuFaults := rfl
@[simp] theorem State.markWritten_net : (s.markWritten page off).net = s.net := rfl
@[simp] theorem State.markWritten_out : (s.markWritten page off).out = s.out := rfl
@[simp] theorem State.markWritten_imsic : (s.markWritten page off).imsic = s.imsic := rfl
@[simp] theorem State.markWritten_hostFns : (s.markWritten page off).hostFns = s.hostFns := rfl
@[simp] theorem State.markWritten_numVfs : (s.markWritten page off).numVfs = s.numVfs := rfl
@[simp] theorem State.markWritten_buckets : (s.markWritten page off).buckets = s.buckets := rfl
@[simp] theorem State.markWritten_cache : (s.markWritten page off).cache = s.cache := rfl
@[simp] theorem State.markWritten_useCtr : (s.markWritten page off).useCtr = s.useCtr := rfl
@[simp] theorem State.markWritten_prefetch : (s.markWritten page off).prefetch = s.prefetch := rfl
@[simp] theorem State.markWritten_nearReqs : (s.markWritten page off).nearReqs = s.nearReqs := rfl
@[simp] theorem State.markWritten_agents : (s.markWritten page off).agents = s.agents := rfl
@[simp] theorem State.markWritten_dir : (s.markWritten page off).dir = s.dir := rfl
@[simp] theorem State.markWritten_txns : (s.markWritten page off).txns = s.txns := rfl
@[simp] theorem State.markWritten_dirQueue : (s.markWritten page off).dirQueue = s.dirQueue := rfl
@[simp] theorem State.markWritten_invals : (s.markWritten page off).invals = s.invals := rfl
@[simp] theorem State.markWritten_atc : (s.markWritten page off).atc = s.atc := rfl
@[simp] theorem State.markWritten_atsReqs : (s.markWritten page off).atsReqs = s.atsReqs := rfl
@[simp] theorem State.markWritten_srvTlb : (s.markWritten page off).srvTlb = s.srvTlb := rfl
@[simp] theorem State.markWritten_txChans : (s.markWritten page off).txChans = s.txChans := rfl
@[simp] theorem State.markWritten_rxChans : (s.markWritten page off).rxChans = s.rxChans := rfl
@[simp] theorem State.markWritten_colls : (s.markWritten page off).colls = s.colls := rfl
@[simp] theorem State.markWritten_collHigh : (s.markWritten page off).collHigh = s.collHigh := rfl
@[simp] theorem State.markWritten_collDone : (s.markWritten page off).collDone = s.collDone := rfl
@[simp] theorem State.markWritten_collNotes : (s.markWritten page off).collNotes = s.collNotes := rfl
@[simp] theorem State.markWritten_collLocal : (s.markWritten page off).collLocal = s.collLocal := rfl
@[simp] theorem State.markWritten_fabPorts : (s.markWritten page off).fabPorts = s.fabPorts := rfl
@[simp] theorem State.markWritten_time : (s.markWritten page off).time = s.time := rfl
@[simp] theorem State.markWritten_divAt : (s.markWritten page off).divAt = s.divAt := rfl
@[simp] theorem State.markWritten_gddr : (s.markWritten page off).gddr = s.gddr := rfl
@[simp] theorem State.markWritten_group : (s.markWritten page off).group = s.group := rfl
@[simp] theorem State.markWritten_winCache : (s.markWritten page off).winCache = s.winCache := rfl
@[simp] theorem State.markWritten_winDrops : (s.markWritten page off).winDrops = s.winDrops := rfl
@[simp] theorem State.markWritten_winFlush : (s.markWritten page off).winFlush = s.winFlush := rfl
@[simp] theorem State.markWritten_causes : (s.markWritten page off).causes = s.causes := rfl
@[simp] theorem State.markWritten_sensors : (s.markWritten page off).sensors = s.sensors := rfl
@[simp] theorem State.markWritten_clamps : (s.markWritten page off).clamps = s.clamps := rfl
@[simp] theorem State.markWritten_kept : (s.markWritten page off).kept = s.kept := rfl
@[simp] theorem State.markWritten_reply : (s.markWritten page off).reply = s.reply := rfl
@[simp] theorem State.markWritten_bays : (s.markWritten page off).bays = s.bays := rfl
@[simp] theorem State.markWritten_migs : (s.markWritten page off).migs = s.migs := rfl
@[simp] theorem State.markWritten_promos : (s.markWritten page off).promos = s.promos := rfl
@[simp] theorem State.markWritten_promoNext : (s.markWritten page off).promoNext = s.promoNext := rfl
@[simp] theorem State.markWritten_hot : (s.markWritten page off).hot = s.hot := rfl
@[simp] theorem State.markWritten_cmds : (s.markWritten page off).cmds = s.cmds := rfl
@[simp] theorem State.markWritten_queues : (s.markWritten page off).queues = s.queues := rfl
@[simp] theorem State.markWritten_tasks : (s.markWritten page off).tasks = s.tasks := rfl
@[simp] theorem State.markWritten_blends : (s.markWritten page off).blends = s.blends := rfl
@[simp] theorem State.markWritten_stages : (s.markWritten page off).stages = s.stages := rfl
@[simp] theorem State.markWritten_trellis : (s.markWritten page off).trellis = s.trellis := rfl
@[simp] theorem State.markWritten_evq : (s.markWritten page off).evq = s.evq := rfl
@[simp] theorem State.markWritten_lockAt : (s.markWritten page off).lockAt = s.lockAt := rfl
@[simp] theorem State.markWritten_quiesceAt : (s.markWritten page off).quiesceAt = s.quiesceAt := rfl
@[simp] theorem State.markWritten_srv : (s.markWritten page off).srv = s.srv := rfl
@[simp] theorem State.markWritten_decs : (s.markWritten page off).decs = s.decs := rfl
@[simp] theorem State.markWritten_boot : (s.markWritten page off).boot = s.boot := rfl
@[simp] theorem State.markWritten_binds : (s.markWritten page off).binds = s.binds := rfl
@[simp] theorem State.markWritten_lostAt : (s.markWritten page off).lostAt = s.lostAt := rfl
@[simp] theorem State.markWritten_lostReqs : (s.markWritten page off).lostReqs = s.lostReqs := rfl
@[simp] theorem State.markWritten_capStale : (s.markWritten page off).capStale = s.capStale := rfl

end

/-! `setCore` writes `cores`. -/

section
variable (s : State) (c : Nat) (k : Core)

@[simp] theorem State.setCore_pending : (s.setCore c k).pending = s.pending := rfl
@[simp] theorem State.setCore_freeCtr : (s.setCore c k).freeCtr = s.freeCtr := rfl
@[simp] theorem State.setCore_regs : (s.setCore c k).regs = s.regs := rfl
@[simp] theorem State.setCore_written : (s.setCore c k).written = s.written := rfl
@[simp] theorem State.setCore_mem : (s.setCore c k).mem = s.mem := rfl
@[simp] theorem State.setCore_unpowered : (s.setCore c k).unpowered = s.unpowered := rfl
@[simp] theorem State.setCore_lastPost : (s.setCore c k).lastPost = s.lastPost := rfl
@[simp] theorem State.setCore_evSeq : (s.setCore c k).evSeq = s.evSeq := rfl
@[simp] theorem State.setCore_events : (s.setCore c k).events = s.events := rfl
@[simp] theorem State.setCore_partial_ : (s.setCore c k).partial_ = s.partial_ := rfl
@[simp] theorem State.setCore_bad : (s.setCore c k).bad = s.bad := rfl
@[simp] theorem State.setCore_tlb : (s.setCore c k).tlb = s.tlb := rfl
@[simp] theorem State.setCore_pageReqs : (s.setCore c k).pageReqs = s.pageReqs := rfl
@[simp] theorem State.setCore_iommuFaults : (s.setCore c k).iommuFaults = s.iommuFaults := rfl
@[simp] theorem State.setCore_net : (s.setCore c k).net = s.net := rfl
@[simp] theorem State.setCore_out : (s.setCore c k).out = s.out := rfl
@[simp] theorem State.setCore_imsic : (s.setCore c k).imsic = s.imsic := rfl
@[simp] theorem State.setCore_hostFns : (s.setCore c k).hostFns = s.hostFns := rfl
@[simp] theorem State.setCore_numVfs : (s.setCore c k).numVfs = s.numVfs := rfl
@[simp] theorem State.setCore_buckets : (s.setCore c k).buckets = s.buckets := rfl
@[simp] theorem State.setCore_cache : (s.setCore c k).cache = s.cache := rfl
@[simp] theorem State.setCore_useCtr : (s.setCore c k).useCtr = s.useCtr := rfl
@[simp] theorem State.setCore_prefetch : (s.setCore c k).prefetch = s.prefetch := rfl
@[simp] theorem State.setCore_nearReqs : (s.setCore c k).nearReqs = s.nearReqs := rfl
@[simp] theorem State.setCore_agents : (s.setCore c k).agents = s.agents := rfl
@[simp] theorem State.setCore_dir : (s.setCore c k).dir = s.dir := rfl
@[simp] theorem State.setCore_txns : (s.setCore c k).txns = s.txns := rfl
@[simp] theorem State.setCore_dirQueue : (s.setCore c k).dirQueue = s.dirQueue := rfl
@[simp] theorem State.setCore_invals : (s.setCore c k).invals = s.invals := rfl
@[simp] theorem State.setCore_atc : (s.setCore c k).atc = s.atc := rfl
@[simp] theorem State.setCore_atsReqs : (s.setCore c k).atsReqs = s.atsReqs := rfl
@[simp] theorem State.setCore_srvTlb : (s.setCore c k).srvTlb = s.srvTlb := rfl
@[simp] theorem State.setCore_txChans : (s.setCore c k).txChans = s.txChans := rfl
@[simp] theorem State.setCore_rxChans : (s.setCore c k).rxChans = s.rxChans := rfl
@[simp] theorem State.setCore_colls : (s.setCore c k).colls = s.colls := rfl
@[simp] theorem State.setCore_collHigh : (s.setCore c k).collHigh = s.collHigh := rfl
@[simp] theorem State.setCore_collDone : (s.setCore c k).collDone = s.collDone := rfl
@[simp] theorem State.setCore_collNotes : (s.setCore c k).collNotes = s.collNotes := rfl
@[simp] theorem State.setCore_collLocal : (s.setCore c k).collLocal = s.collLocal := rfl
@[simp] theorem State.setCore_fabPorts : (s.setCore c k).fabPorts = s.fabPorts := rfl
@[simp] theorem State.setCore_time : (s.setCore c k).time = s.time := rfl
@[simp] theorem State.setCore_divAt : (s.setCore c k).divAt = s.divAt := rfl
@[simp] theorem State.setCore_gddr : (s.setCore c k).gddr = s.gddr := rfl
@[simp] theorem State.setCore_group : (s.setCore c k).group = s.group := rfl
@[simp] theorem State.setCore_winCache : (s.setCore c k).winCache = s.winCache := rfl
@[simp] theorem State.setCore_winDrops : (s.setCore c k).winDrops = s.winDrops := rfl
@[simp] theorem State.setCore_winFlush : (s.setCore c k).winFlush = s.winFlush := rfl
@[simp] theorem State.setCore_causes : (s.setCore c k).causes = s.causes := rfl
@[simp] theorem State.setCore_sensors : (s.setCore c k).sensors = s.sensors := rfl
@[simp] theorem State.setCore_clamps : (s.setCore c k).clamps = s.clamps := rfl
@[simp] theorem State.setCore_kept : (s.setCore c k).kept = s.kept := rfl
@[simp] theorem State.setCore_reply : (s.setCore c k).reply = s.reply := rfl
@[simp] theorem State.setCore_bays : (s.setCore c k).bays = s.bays := rfl
@[simp] theorem State.setCore_migs : (s.setCore c k).migs = s.migs := rfl
@[simp] theorem State.setCore_promos : (s.setCore c k).promos = s.promos := rfl
@[simp] theorem State.setCore_promoNext : (s.setCore c k).promoNext = s.promoNext := rfl
@[simp] theorem State.setCore_hot : (s.setCore c k).hot = s.hot := rfl
@[simp] theorem State.setCore_cmds : (s.setCore c k).cmds = s.cmds := rfl
@[simp] theorem State.setCore_queues : (s.setCore c k).queues = s.queues := rfl
@[simp] theorem State.setCore_tasks : (s.setCore c k).tasks = s.tasks := rfl
@[simp] theorem State.setCore_blends : (s.setCore c k).blends = s.blends := rfl
@[simp] theorem State.setCore_stages : (s.setCore c k).stages = s.stages := rfl
@[simp] theorem State.setCore_trellis : (s.setCore c k).trellis = s.trellis := rfl
@[simp] theorem State.setCore_evq : (s.setCore c k).evq = s.evq := rfl
@[simp] theorem State.setCore_lockAt : (s.setCore c k).lockAt = s.lockAt := rfl
@[simp] theorem State.setCore_quiesceAt : (s.setCore c k).quiesceAt = s.quiesceAt := rfl
@[simp] theorem State.setCore_srv : (s.setCore c k).srv = s.srv := rfl
@[simp] theorem State.setCore_decs : (s.setCore c k).decs = s.decs := rfl
@[simp] theorem State.setCore_boot : (s.setCore c k).boot = s.boot := rfl
@[simp] theorem State.setCore_binds : (s.setCore c k).binds = s.binds := rfl
@[simp] theorem State.setCore_lostAt : (s.setCore c k).lostAt = s.lostAt := rfl
@[simp] theorem State.setCore_lostReqs : (s.setCore c k).lostReqs = s.lostReqs := rfl
@[simp] theorem State.setCore_capStale : (s.setCore c k).capStale = s.capStale := rfl

end

/-! `modCore` writes `cores`. -/

section
variable (s : State) (c : Nat) (f : Core → Core)

@[simp] theorem State.modCore_pending : (s.modCore c f).pending = s.pending := rfl
@[simp] theorem State.modCore_freeCtr : (s.modCore c f).freeCtr = s.freeCtr := rfl
@[simp] theorem State.modCore_regs : (s.modCore c f).regs = s.regs := rfl
@[simp] theorem State.modCore_written : (s.modCore c f).written = s.written := rfl
@[simp] theorem State.modCore_mem : (s.modCore c f).mem = s.mem := rfl
@[simp] theorem State.modCore_unpowered : (s.modCore c f).unpowered = s.unpowered := rfl
@[simp] theorem State.modCore_lastPost : (s.modCore c f).lastPost = s.lastPost := rfl
@[simp] theorem State.modCore_evSeq : (s.modCore c f).evSeq = s.evSeq := rfl
@[simp] theorem State.modCore_events : (s.modCore c f).events = s.events := rfl
@[simp] theorem State.modCore_partial_ : (s.modCore c f).partial_ = s.partial_ := rfl
@[simp] theorem State.modCore_bad : (s.modCore c f).bad = s.bad := rfl
@[simp] theorem State.modCore_tlb : (s.modCore c f).tlb = s.tlb := rfl
@[simp] theorem State.modCore_pageReqs : (s.modCore c f).pageReqs = s.pageReqs := rfl
@[simp] theorem State.modCore_iommuFaults : (s.modCore c f).iommuFaults = s.iommuFaults := rfl
@[simp] theorem State.modCore_net : (s.modCore c f).net = s.net := rfl
@[simp] theorem State.modCore_out : (s.modCore c f).out = s.out := rfl
@[simp] theorem State.modCore_imsic : (s.modCore c f).imsic = s.imsic := rfl
@[simp] theorem State.modCore_hostFns : (s.modCore c f).hostFns = s.hostFns := rfl
@[simp] theorem State.modCore_numVfs : (s.modCore c f).numVfs = s.numVfs := rfl
@[simp] theorem State.modCore_buckets : (s.modCore c f).buckets = s.buckets := rfl
@[simp] theorem State.modCore_cache : (s.modCore c f).cache = s.cache := rfl
@[simp] theorem State.modCore_useCtr : (s.modCore c f).useCtr = s.useCtr := rfl
@[simp] theorem State.modCore_prefetch : (s.modCore c f).prefetch = s.prefetch := rfl
@[simp] theorem State.modCore_nearReqs : (s.modCore c f).nearReqs = s.nearReqs := rfl
@[simp] theorem State.modCore_agents : (s.modCore c f).agents = s.agents := rfl
@[simp] theorem State.modCore_dir : (s.modCore c f).dir = s.dir := rfl
@[simp] theorem State.modCore_txns : (s.modCore c f).txns = s.txns := rfl
@[simp] theorem State.modCore_dirQueue : (s.modCore c f).dirQueue = s.dirQueue := rfl
@[simp] theorem State.modCore_invals : (s.modCore c f).invals = s.invals := rfl
@[simp] theorem State.modCore_atc : (s.modCore c f).atc = s.atc := rfl
@[simp] theorem State.modCore_atsReqs : (s.modCore c f).atsReqs = s.atsReqs := rfl
@[simp] theorem State.modCore_srvTlb : (s.modCore c f).srvTlb = s.srvTlb := rfl
@[simp] theorem State.modCore_txChans : (s.modCore c f).txChans = s.txChans := rfl
@[simp] theorem State.modCore_rxChans : (s.modCore c f).rxChans = s.rxChans := rfl
@[simp] theorem State.modCore_colls : (s.modCore c f).colls = s.colls := rfl
@[simp] theorem State.modCore_collHigh : (s.modCore c f).collHigh = s.collHigh := rfl
@[simp] theorem State.modCore_collDone : (s.modCore c f).collDone = s.collDone := rfl
@[simp] theorem State.modCore_collNotes : (s.modCore c f).collNotes = s.collNotes := rfl
@[simp] theorem State.modCore_collLocal : (s.modCore c f).collLocal = s.collLocal := rfl
@[simp] theorem State.modCore_fabPorts : (s.modCore c f).fabPorts = s.fabPorts := rfl
@[simp] theorem State.modCore_time : (s.modCore c f).time = s.time := rfl
@[simp] theorem State.modCore_divAt : (s.modCore c f).divAt = s.divAt := rfl
@[simp] theorem State.modCore_gddr : (s.modCore c f).gddr = s.gddr := rfl
@[simp] theorem State.modCore_group : (s.modCore c f).group = s.group := rfl
@[simp] theorem State.modCore_winCache : (s.modCore c f).winCache = s.winCache := rfl
@[simp] theorem State.modCore_winDrops : (s.modCore c f).winDrops = s.winDrops := rfl
@[simp] theorem State.modCore_winFlush : (s.modCore c f).winFlush = s.winFlush := rfl
@[simp] theorem State.modCore_causes : (s.modCore c f).causes = s.causes := rfl
@[simp] theorem State.modCore_sensors : (s.modCore c f).sensors = s.sensors := rfl
@[simp] theorem State.modCore_clamps : (s.modCore c f).clamps = s.clamps := rfl
@[simp] theorem State.modCore_kept : (s.modCore c f).kept = s.kept := rfl
@[simp] theorem State.modCore_reply : (s.modCore c f).reply = s.reply := rfl
@[simp] theorem State.modCore_bays : (s.modCore c f).bays = s.bays := rfl
@[simp] theorem State.modCore_migs : (s.modCore c f).migs = s.migs := rfl
@[simp] theorem State.modCore_promos : (s.modCore c f).promos = s.promos := rfl
@[simp] theorem State.modCore_promoNext : (s.modCore c f).promoNext = s.promoNext := rfl
@[simp] theorem State.modCore_hot : (s.modCore c f).hot = s.hot := rfl
@[simp] theorem State.modCore_cmds : (s.modCore c f).cmds = s.cmds := rfl
@[simp] theorem State.modCore_queues : (s.modCore c f).queues = s.queues := rfl
@[simp] theorem State.modCore_tasks : (s.modCore c f).tasks = s.tasks := rfl
@[simp] theorem State.modCore_blends : (s.modCore c f).blends = s.blends := rfl
@[simp] theorem State.modCore_stages : (s.modCore c f).stages = s.stages := rfl
@[simp] theorem State.modCore_trellis : (s.modCore c f).trellis = s.trellis := rfl
@[simp] theorem State.modCore_evq : (s.modCore c f).evq = s.evq := rfl
@[simp] theorem State.modCore_lockAt : (s.modCore c f).lockAt = s.lockAt := rfl
@[simp] theorem State.modCore_quiesceAt : (s.modCore c f).quiesceAt = s.quiesceAt := rfl
@[simp] theorem State.modCore_srv : (s.modCore c f).srv = s.srv := rfl
@[simp] theorem State.modCore_decs : (s.modCore c f).decs = s.decs := rfl
@[simp] theorem State.modCore_boot : (s.modCore c f).boot = s.boot := rfl
@[simp] theorem State.modCore_binds : (s.modCore c f).binds = s.binds := rfl
@[simp] theorem State.modCore_lostAt : (s.modCore c f).lostAt = s.lostAt := rfl
@[simp] theorem State.modCore_lostReqs : (s.modCore c f).lostReqs = s.lostReqs := rfl
@[simp] theorem State.modCore_capStale : (s.modCore c f).capStale = s.capStale := rfl

end

/-! `setTask` writes `tasks`. -/

section
variable (s : State) (t : Nat) (x : Task)

@[simp] theorem State.setTask_pending : (s.setTask t x).pending = s.pending := rfl
@[simp] theorem State.setTask_freeCtr : (s.setTask t x).freeCtr = s.freeCtr := rfl
@[simp] theorem State.setTask_regs : (s.setTask t x).regs = s.regs := rfl
@[simp] theorem State.setTask_written : (s.setTask t x).written = s.written := rfl
@[simp] theorem State.setTask_mem : (s.setTask t x).mem = s.mem := rfl
@[simp] theorem State.setTask_unpowered : (s.setTask t x).unpowered = s.unpowered := rfl
@[simp] theorem State.setTask_lastPost : (s.setTask t x).lastPost = s.lastPost := rfl
@[simp] theorem State.setTask_evSeq : (s.setTask t x).evSeq = s.evSeq := rfl
@[simp] theorem State.setTask_events : (s.setTask t x).events = s.events := rfl
@[simp] theorem State.setTask_cores : (s.setTask t x).cores = s.cores := rfl
@[simp] theorem State.setTask_partial_ : (s.setTask t x).partial_ = s.partial_ := rfl
@[simp] theorem State.setTask_bad : (s.setTask t x).bad = s.bad := rfl
@[simp] theorem State.setTask_tlb : (s.setTask t x).tlb = s.tlb := rfl
@[simp] theorem State.setTask_pageReqs : (s.setTask t x).pageReqs = s.pageReqs := rfl
@[simp] theorem State.setTask_iommuFaults : (s.setTask t x).iommuFaults = s.iommuFaults := rfl
@[simp] theorem State.setTask_net : (s.setTask t x).net = s.net := rfl
@[simp] theorem State.setTask_out : (s.setTask t x).out = s.out := rfl
@[simp] theorem State.setTask_imsic : (s.setTask t x).imsic = s.imsic := rfl
@[simp] theorem State.setTask_hostFns : (s.setTask t x).hostFns = s.hostFns := rfl
@[simp] theorem State.setTask_numVfs : (s.setTask t x).numVfs = s.numVfs := rfl
@[simp] theorem State.setTask_buckets : (s.setTask t x).buckets = s.buckets := rfl
@[simp] theorem State.setTask_cache : (s.setTask t x).cache = s.cache := rfl
@[simp] theorem State.setTask_useCtr : (s.setTask t x).useCtr = s.useCtr := rfl
@[simp] theorem State.setTask_prefetch : (s.setTask t x).prefetch = s.prefetch := rfl
@[simp] theorem State.setTask_nearReqs : (s.setTask t x).nearReqs = s.nearReqs := rfl
@[simp] theorem State.setTask_agents : (s.setTask t x).agents = s.agents := rfl
@[simp] theorem State.setTask_dir : (s.setTask t x).dir = s.dir := rfl
@[simp] theorem State.setTask_txns : (s.setTask t x).txns = s.txns := rfl
@[simp] theorem State.setTask_dirQueue : (s.setTask t x).dirQueue = s.dirQueue := rfl
@[simp] theorem State.setTask_invals : (s.setTask t x).invals = s.invals := rfl
@[simp] theorem State.setTask_atc : (s.setTask t x).atc = s.atc := rfl
@[simp] theorem State.setTask_atsReqs : (s.setTask t x).atsReqs = s.atsReqs := rfl
@[simp] theorem State.setTask_srvTlb : (s.setTask t x).srvTlb = s.srvTlb := rfl
@[simp] theorem State.setTask_txChans : (s.setTask t x).txChans = s.txChans := rfl
@[simp] theorem State.setTask_rxChans : (s.setTask t x).rxChans = s.rxChans := rfl
@[simp] theorem State.setTask_colls : (s.setTask t x).colls = s.colls := rfl
@[simp] theorem State.setTask_collHigh : (s.setTask t x).collHigh = s.collHigh := rfl
@[simp] theorem State.setTask_collDone : (s.setTask t x).collDone = s.collDone := rfl
@[simp] theorem State.setTask_collNotes : (s.setTask t x).collNotes = s.collNotes := rfl
@[simp] theorem State.setTask_collLocal : (s.setTask t x).collLocal = s.collLocal := rfl
@[simp] theorem State.setTask_fabPorts : (s.setTask t x).fabPorts = s.fabPorts := rfl
@[simp] theorem State.setTask_time : (s.setTask t x).time = s.time := rfl
@[simp] theorem State.setTask_divAt : (s.setTask t x).divAt = s.divAt := rfl
@[simp] theorem State.setTask_gddr : (s.setTask t x).gddr = s.gddr := rfl
@[simp] theorem State.setTask_group : (s.setTask t x).group = s.group := rfl
@[simp] theorem State.setTask_winCache : (s.setTask t x).winCache = s.winCache := rfl
@[simp] theorem State.setTask_winDrops : (s.setTask t x).winDrops = s.winDrops := rfl
@[simp] theorem State.setTask_winFlush : (s.setTask t x).winFlush = s.winFlush := rfl
@[simp] theorem State.setTask_causes : (s.setTask t x).causes = s.causes := rfl
@[simp] theorem State.setTask_sensors : (s.setTask t x).sensors = s.sensors := rfl
@[simp] theorem State.setTask_clamps : (s.setTask t x).clamps = s.clamps := rfl
@[simp] theorem State.setTask_kept : (s.setTask t x).kept = s.kept := rfl
@[simp] theorem State.setTask_reply : (s.setTask t x).reply = s.reply := rfl
@[simp] theorem State.setTask_bays : (s.setTask t x).bays = s.bays := rfl
@[simp] theorem State.setTask_migs : (s.setTask t x).migs = s.migs := rfl
@[simp] theorem State.setTask_promos : (s.setTask t x).promos = s.promos := rfl
@[simp] theorem State.setTask_promoNext : (s.setTask t x).promoNext = s.promoNext := rfl
@[simp] theorem State.setTask_hot : (s.setTask t x).hot = s.hot := rfl
@[simp] theorem State.setTask_cmds : (s.setTask t x).cmds = s.cmds := rfl
@[simp] theorem State.setTask_queues : (s.setTask t x).queues = s.queues := rfl
@[simp] theorem State.setTask_blends : (s.setTask t x).blends = s.blends := rfl
@[simp] theorem State.setTask_stages : (s.setTask t x).stages = s.stages := rfl
@[simp] theorem State.setTask_trellis : (s.setTask t x).trellis = s.trellis := rfl
@[simp] theorem State.setTask_evq : (s.setTask t x).evq = s.evq := rfl
@[simp] theorem State.setTask_lockAt : (s.setTask t x).lockAt = s.lockAt := rfl
@[simp] theorem State.setTask_quiesceAt : (s.setTask t x).quiesceAt = s.quiesceAt := rfl
@[simp] theorem State.setTask_srv : (s.setTask t x).srv = s.srv := rfl
@[simp] theorem State.setTask_decs : (s.setTask t x).decs = s.decs := rfl
@[simp] theorem State.setTask_boot : (s.setTask t x).boot = s.boot := rfl
@[simp] theorem State.setTask_binds : (s.setTask t x).binds = s.binds := rfl
@[simp] theorem State.setTask_lostAt : (s.setTask t x).lostAt = s.lostAt := rfl
@[simp] theorem State.setTask_lostReqs : (s.setTask t x).lostReqs = s.lostReqs := rfl
@[simp] theorem State.setTask_capStale : (s.setTask t x).capStale = s.capStale := rfl

end

/-! `setCmd` writes `cmds`. -/

section
variable (s : State) (c : Cmd)

@[simp] theorem State.setCmd_pending : (s.setCmd c).pending = s.pending := rfl
@[simp] theorem State.setCmd_freeCtr : (s.setCmd c).freeCtr = s.freeCtr := rfl
@[simp] theorem State.setCmd_regs : (s.setCmd c).regs = s.regs := rfl
@[simp] theorem State.setCmd_written : (s.setCmd c).written = s.written := rfl
@[simp] theorem State.setCmd_mem : (s.setCmd c).mem = s.mem := rfl
@[simp] theorem State.setCmd_unpowered : (s.setCmd c).unpowered = s.unpowered := rfl
@[simp] theorem State.setCmd_lastPost : (s.setCmd c).lastPost = s.lastPost := rfl
@[simp] theorem State.setCmd_evSeq : (s.setCmd c).evSeq = s.evSeq := rfl
@[simp] theorem State.setCmd_events : (s.setCmd c).events = s.events := rfl
@[simp] theorem State.setCmd_cores : (s.setCmd c).cores = s.cores := rfl
@[simp] theorem State.setCmd_partial_ : (s.setCmd c).partial_ = s.partial_ := rfl
@[simp] theorem State.setCmd_bad : (s.setCmd c).bad = s.bad := rfl
@[simp] theorem State.setCmd_tlb : (s.setCmd c).tlb = s.tlb := rfl
@[simp] theorem State.setCmd_pageReqs : (s.setCmd c).pageReqs = s.pageReqs := rfl
@[simp] theorem State.setCmd_iommuFaults : (s.setCmd c).iommuFaults = s.iommuFaults := rfl
@[simp] theorem State.setCmd_net : (s.setCmd c).net = s.net := rfl
@[simp] theorem State.setCmd_out : (s.setCmd c).out = s.out := rfl
@[simp] theorem State.setCmd_imsic : (s.setCmd c).imsic = s.imsic := rfl
@[simp] theorem State.setCmd_hostFns : (s.setCmd c).hostFns = s.hostFns := rfl
@[simp] theorem State.setCmd_numVfs : (s.setCmd c).numVfs = s.numVfs := rfl
@[simp] theorem State.setCmd_buckets : (s.setCmd c).buckets = s.buckets := rfl
@[simp] theorem State.setCmd_cache : (s.setCmd c).cache = s.cache := rfl
@[simp] theorem State.setCmd_useCtr : (s.setCmd c).useCtr = s.useCtr := rfl
@[simp] theorem State.setCmd_prefetch : (s.setCmd c).prefetch = s.prefetch := rfl
@[simp] theorem State.setCmd_nearReqs : (s.setCmd c).nearReqs = s.nearReqs := rfl
@[simp] theorem State.setCmd_agents : (s.setCmd c).agents = s.agents := rfl
@[simp] theorem State.setCmd_dir : (s.setCmd c).dir = s.dir := rfl
@[simp] theorem State.setCmd_txns : (s.setCmd c).txns = s.txns := rfl
@[simp] theorem State.setCmd_dirQueue : (s.setCmd c).dirQueue = s.dirQueue := rfl
@[simp] theorem State.setCmd_invals : (s.setCmd c).invals = s.invals := rfl
@[simp] theorem State.setCmd_atc : (s.setCmd c).atc = s.atc := rfl
@[simp] theorem State.setCmd_atsReqs : (s.setCmd c).atsReqs = s.atsReqs := rfl
@[simp] theorem State.setCmd_srvTlb : (s.setCmd c).srvTlb = s.srvTlb := rfl
@[simp] theorem State.setCmd_txChans : (s.setCmd c).txChans = s.txChans := rfl
@[simp] theorem State.setCmd_rxChans : (s.setCmd c).rxChans = s.rxChans := rfl
@[simp] theorem State.setCmd_colls : (s.setCmd c).colls = s.colls := rfl
@[simp] theorem State.setCmd_collHigh : (s.setCmd c).collHigh = s.collHigh := rfl
@[simp] theorem State.setCmd_collDone : (s.setCmd c).collDone = s.collDone := rfl
@[simp] theorem State.setCmd_collNotes : (s.setCmd c).collNotes = s.collNotes := rfl
@[simp] theorem State.setCmd_collLocal : (s.setCmd c).collLocal = s.collLocal := rfl
@[simp] theorem State.setCmd_fabPorts : (s.setCmd c).fabPorts = s.fabPorts := rfl
@[simp] theorem State.setCmd_time : (s.setCmd c).time = s.time := rfl
@[simp] theorem State.setCmd_divAt : (s.setCmd c).divAt = s.divAt := rfl
@[simp] theorem State.setCmd_gddr : (s.setCmd c).gddr = s.gddr := rfl
@[simp] theorem State.setCmd_group : (s.setCmd c).group = s.group := rfl
@[simp] theorem State.setCmd_winCache : (s.setCmd c).winCache = s.winCache := rfl
@[simp] theorem State.setCmd_winDrops : (s.setCmd c).winDrops = s.winDrops := rfl
@[simp] theorem State.setCmd_winFlush : (s.setCmd c).winFlush = s.winFlush := rfl
@[simp] theorem State.setCmd_causes : (s.setCmd c).causes = s.causes := rfl
@[simp] theorem State.setCmd_sensors : (s.setCmd c).sensors = s.sensors := rfl
@[simp] theorem State.setCmd_clamps : (s.setCmd c).clamps = s.clamps := rfl
@[simp] theorem State.setCmd_kept : (s.setCmd c).kept = s.kept := rfl
@[simp] theorem State.setCmd_reply : (s.setCmd c).reply = s.reply := rfl
@[simp] theorem State.setCmd_bays : (s.setCmd c).bays = s.bays := rfl
@[simp] theorem State.setCmd_migs : (s.setCmd c).migs = s.migs := rfl
@[simp] theorem State.setCmd_promos : (s.setCmd c).promos = s.promos := rfl
@[simp] theorem State.setCmd_promoNext : (s.setCmd c).promoNext = s.promoNext := rfl
@[simp] theorem State.setCmd_hot : (s.setCmd c).hot = s.hot := rfl
@[simp] theorem State.setCmd_queues : (s.setCmd c).queues = s.queues := rfl
@[simp] theorem State.setCmd_tasks : (s.setCmd c).tasks = s.tasks := rfl
@[simp] theorem State.setCmd_blends : (s.setCmd c).blends = s.blends := rfl
@[simp] theorem State.setCmd_stages : (s.setCmd c).stages = s.stages := rfl
@[simp] theorem State.setCmd_trellis : (s.setCmd c).trellis = s.trellis := rfl
@[simp] theorem State.setCmd_evq : (s.setCmd c).evq = s.evq := rfl
@[simp] theorem State.setCmd_lockAt : (s.setCmd c).lockAt = s.lockAt := rfl
@[simp] theorem State.setCmd_quiesceAt : (s.setCmd c).quiesceAt = s.quiesceAt := rfl
@[simp] theorem State.setCmd_srv : (s.setCmd c).srv = s.srv := rfl
@[simp] theorem State.setCmd_decs : (s.setCmd c).decs = s.decs := rfl
@[simp] theorem State.setCmd_boot : (s.setCmd c).boot = s.boot := rfl
@[simp] theorem State.setCmd_binds : (s.setCmd c).binds = s.binds := rfl
@[simp] theorem State.setCmd_lostAt : (s.setCmd c).lostAt = s.lostAt := rfl
@[simp] theorem State.setCmd_lostReqs : (s.setCmd c).lostReqs = s.lostReqs := rfl
@[simp] theorem State.setCmd_capStale : (s.setCmd c).capStale = s.capStale := rfl

end

/-! `modQueue` writes `queues`. -/

section
variable (s : State) (q : Nat) (f : QState → QState)

@[simp] theorem State.modQueue_pending : (s.modQueue q f).pending = s.pending := rfl
@[simp] theorem State.modQueue_freeCtr : (s.modQueue q f).freeCtr = s.freeCtr := rfl
@[simp] theorem State.modQueue_regs : (s.modQueue q f).regs = s.regs := rfl
@[simp] theorem State.modQueue_written : (s.modQueue q f).written = s.written := rfl
@[simp] theorem State.modQueue_mem : (s.modQueue q f).mem = s.mem := rfl
@[simp] theorem State.modQueue_unpowered : (s.modQueue q f).unpowered = s.unpowered := rfl
@[simp] theorem State.modQueue_lastPost : (s.modQueue q f).lastPost = s.lastPost := rfl
@[simp] theorem State.modQueue_evSeq : (s.modQueue q f).evSeq = s.evSeq := rfl
@[simp] theorem State.modQueue_events : (s.modQueue q f).events = s.events := rfl
@[simp] theorem State.modQueue_cores : (s.modQueue q f).cores = s.cores := rfl
@[simp] theorem State.modQueue_partial_ : (s.modQueue q f).partial_ = s.partial_ := rfl
@[simp] theorem State.modQueue_bad : (s.modQueue q f).bad = s.bad := rfl
@[simp] theorem State.modQueue_tlb : (s.modQueue q f).tlb = s.tlb := rfl
@[simp] theorem State.modQueue_pageReqs : (s.modQueue q f).pageReqs = s.pageReqs := rfl
@[simp] theorem State.modQueue_iommuFaults : (s.modQueue q f).iommuFaults = s.iommuFaults := rfl
@[simp] theorem State.modQueue_net : (s.modQueue q f).net = s.net := rfl
@[simp] theorem State.modQueue_out : (s.modQueue q f).out = s.out := rfl
@[simp] theorem State.modQueue_imsic : (s.modQueue q f).imsic = s.imsic := rfl
@[simp] theorem State.modQueue_hostFns : (s.modQueue q f).hostFns = s.hostFns := rfl
@[simp] theorem State.modQueue_numVfs : (s.modQueue q f).numVfs = s.numVfs := rfl
@[simp] theorem State.modQueue_buckets : (s.modQueue q f).buckets = s.buckets := rfl
@[simp] theorem State.modQueue_cache : (s.modQueue q f).cache = s.cache := rfl
@[simp] theorem State.modQueue_useCtr : (s.modQueue q f).useCtr = s.useCtr := rfl
@[simp] theorem State.modQueue_prefetch : (s.modQueue q f).prefetch = s.prefetch := rfl
@[simp] theorem State.modQueue_nearReqs : (s.modQueue q f).nearReqs = s.nearReqs := rfl
@[simp] theorem State.modQueue_agents : (s.modQueue q f).agents = s.agents := rfl
@[simp] theorem State.modQueue_dir : (s.modQueue q f).dir = s.dir := rfl
@[simp] theorem State.modQueue_txns : (s.modQueue q f).txns = s.txns := rfl
@[simp] theorem State.modQueue_dirQueue : (s.modQueue q f).dirQueue = s.dirQueue := rfl
@[simp] theorem State.modQueue_invals : (s.modQueue q f).invals = s.invals := rfl
@[simp] theorem State.modQueue_atc : (s.modQueue q f).atc = s.atc := rfl
@[simp] theorem State.modQueue_atsReqs : (s.modQueue q f).atsReqs = s.atsReqs := rfl
@[simp] theorem State.modQueue_srvTlb : (s.modQueue q f).srvTlb = s.srvTlb := rfl
@[simp] theorem State.modQueue_txChans : (s.modQueue q f).txChans = s.txChans := rfl
@[simp] theorem State.modQueue_rxChans : (s.modQueue q f).rxChans = s.rxChans := rfl
@[simp] theorem State.modQueue_colls : (s.modQueue q f).colls = s.colls := rfl
@[simp] theorem State.modQueue_collHigh : (s.modQueue q f).collHigh = s.collHigh := rfl
@[simp] theorem State.modQueue_collDone : (s.modQueue q f).collDone = s.collDone := rfl
@[simp] theorem State.modQueue_collNotes : (s.modQueue q f).collNotes = s.collNotes := rfl
@[simp] theorem State.modQueue_collLocal : (s.modQueue q f).collLocal = s.collLocal := rfl
@[simp] theorem State.modQueue_fabPorts : (s.modQueue q f).fabPorts = s.fabPorts := rfl
@[simp] theorem State.modQueue_time : (s.modQueue q f).time = s.time := rfl
@[simp] theorem State.modQueue_divAt : (s.modQueue q f).divAt = s.divAt := rfl
@[simp] theorem State.modQueue_gddr : (s.modQueue q f).gddr = s.gddr := rfl
@[simp] theorem State.modQueue_group : (s.modQueue q f).group = s.group := rfl
@[simp] theorem State.modQueue_winCache : (s.modQueue q f).winCache = s.winCache := rfl
@[simp] theorem State.modQueue_winDrops : (s.modQueue q f).winDrops = s.winDrops := rfl
@[simp] theorem State.modQueue_winFlush : (s.modQueue q f).winFlush = s.winFlush := rfl
@[simp] theorem State.modQueue_causes : (s.modQueue q f).causes = s.causes := rfl
@[simp] theorem State.modQueue_sensors : (s.modQueue q f).sensors = s.sensors := rfl
@[simp] theorem State.modQueue_clamps : (s.modQueue q f).clamps = s.clamps := rfl
@[simp] theorem State.modQueue_kept : (s.modQueue q f).kept = s.kept := rfl
@[simp] theorem State.modQueue_reply : (s.modQueue q f).reply = s.reply := rfl
@[simp] theorem State.modQueue_bays : (s.modQueue q f).bays = s.bays := rfl
@[simp] theorem State.modQueue_migs : (s.modQueue q f).migs = s.migs := rfl
@[simp] theorem State.modQueue_promos : (s.modQueue q f).promos = s.promos := rfl
@[simp] theorem State.modQueue_promoNext : (s.modQueue q f).promoNext = s.promoNext := rfl
@[simp] theorem State.modQueue_hot : (s.modQueue q f).hot = s.hot := rfl
@[simp] theorem State.modQueue_cmds : (s.modQueue q f).cmds = s.cmds := rfl
@[simp] theorem State.modQueue_tasks : (s.modQueue q f).tasks = s.tasks := rfl
@[simp] theorem State.modQueue_blends : (s.modQueue q f).blends = s.blends := rfl
@[simp] theorem State.modQueue_stages : (s.modQueue q f).stages = s.stages := rfl
@[simp] theorem State.modQueue_trellis : (s.modQueue q f).trellis = s.trellis := rfl
@[simp] theorem State.modQueue_evq : (s.modQueue q f).evq = s.evq := rfl
@[simp] theorem State.modQueue_lockAt : (s.modQueue q f).lockAt = s.lockAt := rfl
@[simp] theorem State.modQueue_quiesceAt : (s.modQueue q f).quiesceAt = s.quiesceAt := rfl
@[simp] theorem State.modQueue_srv : (s.modQueue q f).srv = s.srv := rfl
@[simp] theorem State.modQueue_decs : (s.modQueue q f).decs = s.decs := rfl
@[simp] theorem State.modQueue_boot : (s.modQueue q f).boot = s.boot := rfl
@[simp] theorem State.modQueue_binds : (s.modQueue q f).binds = s.binds := rfl
@[simp] theorem State.modQueue_lostAt : (s.modQueue q f).lostAt = s.lostAt := rfl
@[simp] theorem State.modQueue_lostReqs : (s.modQueue q f).lostReqs = s.lostReqs := rfl
@[simp] theorem State.modQueue_capStale : (s.modQueue q f).capStale = s.capStale := rfl

end

/-! `modBay` writes `bays`. -/

section
variable (s : State) (b : Nat) (f : Bay → Bay)

@[simp] theorem State.modBay_pending : (s.modBay b f).pending = s.pending := rfl
@[simp] theorem State.modBay_freeCtr : (s.modBay b f).freeCtr = s.freeCtr := rfl
@[simp] theorem State.modBay_regs : (s.modBay b f).regs = s.regs := rfl
@[simp] theorem State.modBay_written : (s.modBay b f).written = s.written := rfl
@[simp] theorem State.modBay_mem : (s.modBay b f).mem = s.mem := rfl
@[simp] theorem State.modBay_unpowered : (s.modBay b f).unpowered = s.unpowered := rfl
@[simp] theorem State.modBay_lastPost : (s.modBay b f).lastPost = s.lastPost := rfl
@[simp] theorem State.modBay_evSeq : (s.modBay b f).evSeq = s.evSeq := rfl
@[simp] theorem State.modBay_events : (s.modBay b f).events = s.events := rfl
@[simp] theorem State.modBay_cores : (s.modBay b f).cores = s.cores := rfl
@[simp] theorem State.modBay_partial_ : (s.modBay b f).partial_ = s.partial_ := rfl
@[simp] theorem State.modBay_bad : (s.modBay b f).bad = s.bad := rfl
@[simp] theorem State.modBay_tlb : (s.modBay b f).tlb = s.tlb := rfl
@[simp] theorem State.modBay_pageReqs : (s.modBay b f).pageReqs = s.pageReqs := rfl
@[simp] theorem State.modBay_iommuFaults : (s.modBay b f).iommuFaults = s.iommuFaults := rfl
@[simp] theorem State.modBay_net : (s.modBay b f).net = s.net := rfl
@[simp] theorem State.modBay_out : (s.modBay b f).out = s.out := rfl
@[simp] theorem State.modBay_imsic : (s.modBay b f).imsic = s.imsic := rfl
@[simp] theorem State.modBay_hostFns : (s.modBay b f).hostFns = s.hostFns := rfl
@[simp] theorem State.modBay_numVfs : (s.modBay b f).numVfs = s.numVfs := rfl
@[simp] theorem State.modBay_buckets : (s.modBay b f).buckets = s.buckets := rfl
@[simp] theorem State.modBay_cache : (s.modBay b f).cache = s.cache := rfl
@[simp] theorem State.modBay_useCtr : (s.modBay b f).useCtr = s.useCtr := rfl
@[simp] theorem State.modBay_prefetch : (s.modBay b f).prefetch = s.prefetch := rfl
@[simp] theorem State.modBay_nearReqs : (s.modBay b f).nearReqs = s.nearReqs := rfl
@[simp] theorem State.modBay_agents : (s.modBay b f).agents = s.agents := rfl
@[simp] theorem State.modBay_dir : (s.modBay b f).dir = s.dir := rfl
@[simp] theorem State.modBay_txns : (s.modBay b f).txns = s.txns := rfl
@[simp] theorem State.modBay_dirQueue : (s.modBay b f).dirQueue = s.dirQueue := rfl
@[simp] theorem State.modBay_invals : (s.modBay b f).invals = s.invals := rfl
@[simp] theorem State.modBay_atc : (s.modBay b f).atc = s.atc := rfl
@[simp] theorem State.modBay_atsReqs : (s.modBay b f).atsReqs = s.atsReqs := rfl
@[simp] theorem State.modBay_srvTlb : (s.modBay b f).srvTlb = s.srvTlb := rfl
@[simp] theorem State.modBay_txChans : (s.modBay b f).txChans = s.txChans := rfl
@[simp] theorem State.modBay_rxChans : (s.modBay b f).rxChans = s.rxChans := rfl
@[simp] theorem State.modBay_colls : (s.modBay b f).colls = s.colls := rfl
@[simp] theorem State.modBay_collHigh : (s.modBay b f).collHigh = s.collHigh := rfl
@[simp] theorem State.modBay_collDone : (s.modBay b f).collDone = s.collDone := rfl
@[simp] theorem State.modBay_collNotes : (s.modBay b f).collNotes = s.collNotes := rfl
@[simp] theorem State.modBay_collLocal : (s.modBay b f).collLocal = s.collLocal := rfl
@[simp] theorem State.modBay_fabPorts : (s.modBay b f).fabPorts = s.fabPorts := rfl
@[simp] theorem State.modBay_time : (s.modBay b f).time = s.time := rfl
@[simp] theorem State.modBay_divAt : (s.modBay b f).divAt = s.divAt := rfl
@[simp] theorem State.modBay_gddr : (s.modBay b f).gddr = s.gddr := rfl
@[simp] theorem State.modBay_group : (s.modBay b f).group = s.group := rfl
@[simp] theorem State.modBay_winCache : (s.modBay b f).winCache = s.winCache := rfl
@[simp] theorem State.modBay_winDrops : (s.modBay b f).winDrops = s.winDrops := rfl
@[simp] theorem State.modBay_winFlush : (s.modBay b f).winFlush = s.winFlush := rfl
@[simp] theorem State.modBay_causes : (s.modBay b f).causes = s.causes := rfl
@[simp] theorem State.modBay_sensors : (s.modBay b f).sensors = s.sensors := rfl
@[simp] theorem State.modBay_clamps : (s.modBay b f).clamps = s.clamps := rfl
@[simp] theorem State.modBay_kept : (s.modBay b f).kept = s.kept := rfl
@[simp] theorem State.modBay_reply : (s.modBay b f).reply = s.reply := rfl
@[simp] theorem State.modBay_migs : (s.modBay b f).migs = s.migs := rfl
@[simp] theorem State.modBay_promos : (s.modBay b f).promos = s.promos := rfl
@[simp] theorem State.modBay_promoNext : (s.modBay b f).promoNext = s.promoNext := rfl
@[simp] theorem State.modBay_hot : (s.modBay b f).hot = s.hot := rfl
@[simp] theorem State.modBay_cmds : (s.modBay b f).cmds = s.cmds := rfl
@[simp] theorem State.modBay_queues : (s.modBay b f).queues = s.queues := rfl
@[simp] theorem State.modBay_tasks : (s.modBay b f).tasks = s.tasks := rfl
@[simp] theorem State.modBay_blends : (s.modBay b f).blends = s.blends := rfl
@[simp] theorem State.modBay_stages : (s.modBay b f).stages = s.stages := rfl
@[simp] theorem State.modBay_trellis : (s.modBay b f).trellis = s.trellis := rfl
@[simp] theorem State.modBay_evq : (s.modBay b f).evq = s.evq := rfl
@[simp] theorem State.modBay_lockAt : (s.modBay b f).lockAt = s.lockAt := rfl
@[simp] theorem State.modBay_quiesceAt : (s.modBay b f).quiesceAt = s.quiesceAt := rfl
@[simp] theorem State.modBay_srv : (s.modBay b f).srv = s.srv := rfl
@[simp] theorem State.modBay_decs : (s.modBay b f).decs = s.decs := rfl
@[simp] theorem State.modBay_boot : (s.modBay b f).boot = s.boot := rfl
@[simp] theorem State.modBay_binds : (s.modBay b f).binds = s.binds := rfl
@[simp] theorem State.modBay_lostAt : (s.modBay b f).lostAt = s.lostAt := rfl
@[simp] theorem State.modBay_lostReqs : (s.modBay b f).lostReqs = s.lostReqs := rfl
@[simp] theorem State.modBay_capStale : (s.modBay b f).capStale = s.capStale := rfl

end

/-! `modEvq` writes `evq`. -/

section
variable (s : State) (e : Nat) (f : EvQueue → EvQueue)

@[simp] theorem State.modEvq_pending : (s.modEvq e f).pending = s.pending := rfl
@[simp] theorem State.modEvq_freeCtr : (s.modEvq e f).freeCtr = s.freeCtr := rfl
@[simp] theorem State.modEvq_regs : (s.modEvq e f).regs = s.regs := rfl
@[simp] theorem State.modEvq_written : (s.modEvq e f).written = s.written := rfl
@[simp] theorem State.modEvq_mem : (s.modEvq e f).mem = s.mem := rfl
@[simp] theorem State.modEvq_unpowered : (s.modEvq e f).unpowered = s.unpowered := rfl
@[simp] theorem State.modEvq_lastPost : (s.modEvq e f).lastPost = s.lastPost := rfl
@[simp] theorem State.modEvq_evSeq : (s.modEvq e f).evSeq = s.evSeq := rfl
@[simp] theorem State.modEvq_events : (s.modEvq e f).events = s.events := rfl
@[simp] theorem State.modEvq_cores : (s.modEvq e f).cores = s.cores := rfl
@[simp] theorem State.modEvq_partial_ : (s.modEvq e f).partial_ = s.partial_ := rfl
@[simp] theorem State.modEvq_bad : (s.modEvq e f).bad = s.bad := rfl
@[simp] theorem State.modEvq_tlb : (s.modEvq e f).tlb = s.tlb := rfl
@[simp] theorem State.modEvq_pageReqs : (s.modEvq e f).pageReqs = s.pageReqs := rfl
@[simp] theorem State.modEvq_iommuFaults : (s.modEvq e f).iommuFaults = s.iommuFaults := rfl
@[simp] theorem State.modEvq_net : (s.modEvq e f).net = s.net := rfl
@[simp] theorem State.modEvq_out : (s.modEvq e f).out = s.out := rfl
@[simp] theorem State.modEvq_imsic : (s.modEvq e f).imsic = s.imsic := rfl
@[simp] theorem State.modEvq_hostFns : (s.modEvq e f).hostFns = s.hostFns := rfl
@[simp] theorem State.modEvq_numVfs : (s.modEvq e f).numVfs = s.numVfs := rfl
@[simp] theorem State.modEvq_buckets : (s.modEvq e f).buckets = s.buckets := rfl
@[simp] theorem State.modEvq_cache : (s.modEvq e f).cache = s.cache := rfl
@[simp] theorem State.modEvq_useCtr : (s.modEvq e f).useCtr = s.useCtr := rfl
@[simp] theorem State.modEvq_prefetch : (s.modEvq e f).prefetch = s.prefetch := rfl
@[simp] theorem State.modEvq_nearReqs : (s.modEvq e f).nearReqs = s.nearReqs := rfl
@[simp] theorem State.modEvq_agents : (s.modEvq e f).agents = s.agents := rfl
@[simp] theorem State.modEvq_dir : (s.modEvq e f).dir = s.dir := rfl
@[simp] theorem State.modEvq_txns : (s.modEvq e f).txns = s.txns := rfl
@[simp] theorem State.modEvq_dirQueue : (s.modEvq e f).dirQueue = s.dirQueue := rfl
@[simp] theorem State.modEvq_invals : (s.modEvq e f).invals = s.invals := rfl
@[simp] theorem State.modEvq_atc : (s.modEvq e f).atc = s.atc := rfl
@[simp] theorem State.modEvq_atsReqs : (s.modEvq e f).atsReqs = s.atsReqs := rfl
@[simp] theorem State.modEvq_srvTlb : (s.modEvq e f).srvTlb = s.srvTlb := rfl
@[simp] theorem State.modEvq_txChans : (s.modEvq e f).txChans = s.txChans := rfl
@[simp] theorem State.modEvq_rxChans : (s.modEvq e f).rxChans = s.rxChans := rfl
@[simp] theorem State.modEvq_colls : (s.modEvq e f).colls = s.colls := rfl
@[simp] theorem State.modEvq_collHigh : (s.modEvq e f).collHigh = s.collHigh := rfl
@[simp] theorem State.modEvq_collDone : (s.modEvq e f).collDone = s.collDone := rfl
@[simp] theorem State.modEvq_collNotes : (s.modEvq e f).collNotes = s.collNotes := rfl
@[simp] theorem State.modEvq_collLocal : (s.modEvq e f).collLocal = s.collLocal := rfl
@[simp] theorem State.modEvq_fabPorts : (s.modEvq e f).fabPorts = s.fabPorts := rfl
@[simp] theorem State.modEvq_time : (s.modEvq e f).time = s.time := rfl
@[simp] theorem State.modEvq_divAt : (s.modEvq e f).divAt = s.divAt := rfl
@[simp] theorem State.modEvq_gddr : (s.modEvq e f).gddr = s.gddr := rfl
@[simp] theorem State.modEvq_group : (s.modEvq e f).group = s.group := rfl
@[simp] theorem State.modEvq_winCache : (s.modEvq e f).winCache = s.winCache := rfl
@[simp] theorem State.modEvq_winDrops : (s.modEvq e f).winDrops = s.winDrops := rfl
@[simp] theorem State.modEvq_winFlush : (s.modEvq e f).winFlush = s.winFlush := rfl
@[simp] theorem State.modEvq_causes : (s.modEvq e f).causes = s.causes := rfl
@[simp] theorem State.modEvq_sensors : (s.modEvq e f).sensors = s.sensors := rfl
@[simp] theorem State.modEvq_clamps : (s.modEvq e f).clamps = s.clamps := rfl
@[simp] theorem State.modEvq_kept : (s.modEvq e f).kept = s.kept := rfl
@[simp] theorem State.modEvq_reply : (s.modEvq e f).reply = s.reply := rfl
@[simp] theorem State.modEvq_bays : (s.modEvq e f).bays = s.bays := rfl
@[simp] theorem State.modEvq_migs : (s.modEvq e f).migs = s.migs := rfl
@[simp] theorem State.modEvq_promos : (s.modEvq e f).promos = s.promos := rfl
@[simp] theorem State.modEvq_promoNext : (s.modEvq e f).promoNext = s.promoNext := rfl
@[simp] theorem State.modEvq_hot : (s.modEvq e f).hot = s.hot := rfl
@[simp] theorem State.modEvq_cmds : (s.modEvq e f).cmds = s.cmds := rfl
@[simp] theorem State.modEvq_queues : (s.modEvq e f).queues = s.queues := rfl
@[simp] theorem State.modEvq_tasks : (s.modEvq e f).tasks = s.tasks := rfl
@[simp] theorem State.modEvq_blends : (s.modEvq e f).blends = s.blends := rfl
@[simp] theorem State.modEvq_stages : (s.modEvq e f).stages = s.stages := rfl
@[simp] theorem State.modEvq_trellis : (s.modEvq e f).trellis = s.trellis := rfl
@[simp] theorem State.modEvq_lockAt : (s.modEvq e f).lockAt = s.lockAt := rfl
@[simp] theorem State.modEvq_quiesceAt : (s.modEvq e f).quiesceAt = s.quiesceAt := rfl
@[simp] theorem State.modEvq_srv : (s.modEvq e f).srv = s.srv := rfl
@[simp] theorem State.modEvq_decs : (s.modEvq e f).decs = s.decs := rfl
@[simp] theorem State.modEvq_boot : (s.modEvq e f).boot = s.boot := rfl
@[simp] theorem State.modEvq_binds : (s.modEvq e f).binds = s.binds := rfl
@[simp] theorem State.modEvq_lostAt : (s.modEvq e f).lostAt = s.lostAt := rfl
@[simp] theorem State.modEvq_lostReqs : (s.modEvq e f).lostReqs = s.lostReqs := rfl
@[simp] theorem State.modEvq_capStale : (s.modEvq e f).capStale = s.capStale := rfl

end

/-! `modGddr` writes `gddr`. -/

section
variable (s : State) (st g : Nat) (f : GddrDev → GddrDev)

@[simp] theorem State.modGddr_pending : (s.modGddr st g f).pending = s.pending := rfl
@[simp] theorem State.modGddr_freeCtr : (s.modGddr st g f).freeCtr = s.freeCtr := rfl
@[simp] theorem State.modGddr_regs : (s.modGddr st g f).regs = s.regs := rfl
@[simp] theorem State.modGddr_written : (s.modGddr st g f).written = s.written := rfl
@[simp] theorem State.modGddr_mem : (s.modGddr st g f).mem = s.mem := rfl
@[simp] theorem State.modGddr_unpowered : (s.modGddr st g f).unpowered = s.unpowered := rfl
@[simp] theorem State.modGddr_lastPost : (s.modGddr st g f).lastPost = s.lastPost := rfl
@[simp] theorem State.modGddr_evSeq : (s.modGddr st g f).evSeq = s.evSeq := rfl
@[simp] theorem State.modGddr_events : (s.modGddr st g f).events = s.events := rfl
@[simp] theorem State.modGddr_cores : (s.modGddr st g f).cores = s.cores := rfl
@[simp] theorem State.modGddr_partial_ : (s.modGddr st g f).partial_ = s.partial_ := rfl
@[simp] theorem State.modGddr_bad : (s.modGddr st g f).bad = s.bad := rfl
@[simp] theorem State.modGddr_tlb : (s.modGddr st g f).tlb = s.tlb := rfl
@[simp] theorem State.modGddr_pageReqs : (s.modGddr st g f).pageReqs = s.pageReqs := rfl
@[simp] theorem State.modGddr_iommuFaults : (s.modGddr st g f).iommuFaults = s.iommuFaults := rfl
@[simp] theorem State.modGddr_net : (s.modGddr st g f).net = s.net := rfl
@[simp] theorem State.modGddr_out : (s.modGddr st g f).out = s.out := rfl
@[simp] theorem State.modGddr_imsic : (s.modGddr st g f).imsic = s.imsic := rfl
@[simp] theorem State.modGddr_hostFns : (s.modGddr st g f).hostFns = s.hostFns := rfl
@[simp] theorem State.modGddr_numVfs : (s.modGddr st g f).numVfs = s.numVfs := rfl
@[simp] theorem State.modGddr_buckets : (s.modGddr st g f).buckets = s.buckets := rfl
@[simp] theorem State.modGddr_cache : (s.modGddr st g f).cache = s.cache := rfl
@[simp] theorem State.modGddr_useCtr : (s.modGddr st g f).useCtr = s.useCtr := rfl
@[simp] theorem State.modGddr_prefetch : (s.modGddr st g f).prefetch = s.prefetch := rfl
@[simp] theorem State.modGddr_nearReqs : (s.modGddr st g f).nearReqs = s.nearReqs := rfl
@[simp] theorem State.modGddr_agents : (s.modGddr st g f).agents = s.agents := rfl
@[simp] theorem State.modGddr_dir : (s.modGddr st g f).dir = s.dir := rfl
@[simp] theorem State.modGddr_txns : (s.modGddr st g f).txns = s.txns := rfl
@[simp] theorem State.modGddr_dirQueue : (s.modGddr st g f).dirQueue = s.dirQueue := rfl
@[simp] theorem State.modGddr_invals : (s.modGddr st g f).invals = s.invals := rfl
@[simp] theorem State.modGddr_atc : (s.modGddr st g f).atc = s.atc := rfl
@[simp] theorem State.modGddr_atsReqs : (s.modGddr st g f).atsReqs = s.atsReqs := rfl
@[simp] theorem State.modGddr_srvTlb : (s.modGddr st g f).srvTlb = s.srvTlb := rfl
@[simp] theorem State.modGddr_txChans : (s.modGddr st g f).txChans = s.txChans := rfl
@[simp] theorem State.modGddr_rxChans : (s.modGddr st g f).rxChans = s.rxChans := rfl
@[simp] theorem State.modGddr_colls : (s.modGddr st g f).colls = s.colls := rfl
@[simp] theorem State.modGddr_collHigh : (s.modGddr st g f).collHigh = s.collHigh := rfl
@[simp] theorem State.modGddr_collDone : (s.modGddr st g f).collDone = s.collDone := rfl
@[simp] theorem State.modGddr_collNotes : (s.modGddr st g f).collNotes = s.collNotes := rfl
@[simp] theorem State.modGddr_collLocal : (s.modGddr st g f).collLocal = s.collLocal := rfl
@[simp] theorem State.modGddr_fabPorts : (s.modGddr st g f).fabPorts = s.fabPorts := rfl
@[simp] theorem State.modGddr_time : (s.modGddr st g f).time = s.time := rfl
@[simp] theorem State.modGddr_divAt : (s.modGddr st g f).divAt = s.divAt := rfl
@[simp] theorem State.modGddr_group : (s.modGddr st g f).group = s.group := rfl
@[simp] theorem State.modGddr_winCache : (s.modGddr st g f).winCache = s.winCache := rfl
@[simp] theorem State.modGddr_winDrops : (s.modGddr st g f).winDrops = s.winDrops := rfl
@[simp] theorem State.modGddr_winFlush : (s.modGddr st g f).winFlush = s.winFlush := rfl
@[simp] theorem State.modGddr_causes : (s.modGddr st g f).causes = s.causes := rfl
@[simp] theorem State.modGddr_sensors : (s.modGddr st g f).sensors = s.sensors := rfl
@[simp] theorem State.modGddr_clamps : (s.modGddr st g f).clamps = s.clamps := rfl
@[simp] theorem State.modGddr_kept : (s.modGddr st g f).kept = s.kept := rfl
@[simp] theorem State.modGddr_reply : (s.modGddr st g f).reply = s.reply := rfl
@[simp] theorem State.modGddr_bays : (s.modGddr st g f).bays = s.bays := rfl
@[simp] theorem State.modGddr_migs : (s.modGddr st g f).migs = s.migs := rfl
@[simp] theorem State.modGddr_promos : (s.modGddr st g f).promos = s.promos := rfl
@[simp] theorem State.modGddr_promoNext : (s.modGddr st g f).promoNext = s.promoNext := rfl
@[simp] theorem State.modGddr_hot : (s.modGddr st g f).hot = s.hot := rfl
@[simp] theorem State.modGddr_cmds : (s.modGddr st g f).cmds = s.cmds := rfl
@[simp] theorem State.modGddr_queues : (s.modGddr st g f).queues = s.queues := rfl
@[simp] theorem State.modGddr_tasks : (s.modGddr st g f).tasks = s.tasks := rfl
@[simp] theorem State.modGddr_blends : (s.modGddr st g f).blends = s.blends := rfl
@[simp] theorem State.modGddr_stages : (s.modGddr st g f).stages = s.stages := rfl
@[simp] theorem State.modGddr_trellis : (s.modGddr st g f).trellis = s.trellis := rfl
@[simp] theorem State.modGddr_evq : (s.modGddr st g f).evq = s.evq := rfl
@[simp] theorem State.modGddr_lockAt : (s.modGddr st g f).lockAt = s.lockAt := rfl
@[simp] theorem State.modGddr_quiesceAt : (s.modGddr st g f).quiesceAt = s.quiesceAt := rfl
@[simp] theorem State.modGddr_srv : (s.modGddr st g f).srv = s.srv := rfl
@[simp] theorem State.modGddr_decs : (s.modGddr st g f).decs = s.decs := rfl
@[simp] theorem State.modGddr_boot : (s.modGddr st g f).boot = s.boot := rfl
@[simp] theorem State.modGddr_binds : (s.modGddr st g f).binds = s.binds := rfl
@[simp] theorem State.modGddr_lostAt : (s.modGddr st g f).lostAt = s.lostAt := rfl
@[simp] theorem State.modGddr_lostReqs : (s.modGddr st g f).lostReqs = s.lostReqs := rfl
@[simp] theorem State.modGddr_capStale : (s.modGddr st g f).capStale = s.capStale := rfl

end

/-! `modSrv` writes `srv`. -/

section
variable (s : State) (c : Nat) (f : SrvCore → SrvCore)

@[simp] theorem State.modSrv_pending : (s.modSrv c f).pending = s.pending := rfl
@[simp] theorem State.modSrv_freeCtr : (s.modSrv c f).freeCtr = s.freeCtr := rfl
@[simp] theorem State.modSrv_regs : (s.modSrv c f).regs = s.regs := rfl
@[simp] theorem State.modSrv_written : (s.modSrv c f).written = s.written := rfl
@[simp] theorem State.modSrv_mem : (s.modSrv c f).mem = s.mem := rfl
@[simp] theorem State.modSrv_unpowered : (s.modSrv c f).unpowered = s.unpowered := rfl
@[simp] theorem State.modSrv_lastPost : (s.modSrv c f).lastPost = s.lastPost := rfl
@[simp] theorem State.modSrv_evSeq : (s.modSrv c f).evSeq = s.evSeq := rfl
@[simp] theorem State.modSrv_events : (s.modSrv c f).events = s.events := rfl
@[simp] theorem State.modSrv_cores : (s.modSrv c f).cores = s.cores := rfl
@[simp] theorem State.modSrv_partial_ : (s.modSrv c f).partial_ = s.partial_ := rfl
@[simp] theorem State.modSrv_bad : (s.modSrv c f).bad = s.bad := rfl
@[simp] theorem State.modSrv_tlb : (s.modSrv c f).tlb = s.tlb := rfl
@[simp] theorem State.modSrv_pageReqs : (s.modSrv c f).pageReqs = s.pageReqs := rfl
@[simp] theorem State.modSrv_iommuFaults : (s.modSrv c f).iommuFaults = s.iommuFaults := rfl
@[simp] theorem State.modSrv_net : (s.modSrv c f).net = s.net := rfl
@[simp] theorem State.modSrv_out : (s.modSrv c f).out = s.out := rfl
@[simp] theorem State.modSrv_imsic : (s.modSrv c f).imsic = s.imsic := rfl
@[simp] theorem State.modSrv_hostFns : (s.modSrv c f).hostFns = s.hostFns := rfl
@[simp] theorem State.modSrv_numVfs : (s.modSrv c f).numVfs = s.numVfs := rfl
@[simp] theorem State.modSrv_buckets : (s.modSrv c f).buckets = s.buckets := rfl
@[simp] theorem State.modSrv_cache : (s.modSrv c f).cache = s.cache := rfl
@[simp] theorem State.modSrv_useCtr : (s.modSrv c f).useCtr = s.useCtr := rfl
@[simp] theorem State.modSrv_prefetch : (s.modSrv c f).prefetch = s.prefetch := rfl
@[simp] theorem State.modSrv_nearReqs : (s.modSrv c f).nearReqs = s.nearReqs := rfl
@[simp] theorem State.modSrv_agents : (s.modSrv c f).agents = s.agents := rfl
@[simp] theorem State.modSrv_dir : (s.modSrv c f).dir = s.dir := rfl
@[simp] theorem State.modSrv_txns : (s.modSrv c f).txns = s.txns := rfl
@[simp] theorem State.modSrv_dirQueue : (s.modSrv c f).dirQueue = s.dirQueue := rfl
@[simp] theorem State.modSrv_invals : (s.modSrv c f).invals = s.invals := rfl
@[simp] theorem State.modSrv_atc : (s.modSrv c f).atc = s.atc := rfl
@[simp] theorem State.modSrv_atsReqs : (s.modSrv c f).atsReqs = s.atsReqs := rfl
@[simp] theorem State.modSrv_srvTlb : (s.modSrv c f).srvTlb = s.srvTlb := rfl
@[simp] theorem State.modSrv_txChans : (s.modSrv c f).txChans = s.txChans := rfl
@[simp] theorem State.modSrv_rxChans : (s.modSrv c f).rxChans = s.rxChans := rfl
@[simp] theorem State.modSrv_colls : (s.modSrv c f).colls = s.colls := rfl
@[simp] theorem State.modSrv_collHigh : (s.modSrv c f).collHigh = s.collHigh := rfl
@[simp] theorem State.modSrv_collDone : (s.modSrv c f).collDone = s.collDone := rfl
@[simp] theorem State.modSrv_collNotes : (s.modSrv c f).collNotes = s.collNotes := rfl
@[simp] theorem State.modSrv_collLocal : (s.modSrv c f).collLocal = s.collLocal := rfl
@[simp] theorem State.modSrv_fabPorts : (s.modSrv c f).fabPorts = s.fabPorts := rfl
@[simp] theorem State.modSrv_time : (s.modSrv c f).time = s.time := rfl
@[simp] theorem State.modSrv_divAt : (s.modSrv c f).divAt = s.divAt := rfl
@[simp] theorem State.modSrv_gddr : (s.modSrv c f).gddr = s.gddr := rfl
@[simp] theorem State.modSrv_group : (s.modSrv c f).group = s.group := rfl
@[simp] theorem State.modSrv_winCache : (s.modSrv c f).winCache = s.winCache := rfl
@[simp] theorem State.modSrv_winDrops : (s.modSrv c f).winDrops = s.winDrops := rfl
@[simp] theorem State.modSrv_winFlush : (s.modSrv c f).winFlush = s.winFlush := rfl
@[simp] theorem State.modSrv_causes : (s.modSrv c f).causes = s.causes := rfl
@[simp] theorem State.modSrv_sensors : (s.modSrv c f).sensors = s.sensors := rfl
@[simp] theorem State.modSrv_clamps : (s.modSrv c f).clamps = s.clamps := rfl
@[simp] theorem State.modSrv_kept : (s.modSrv c f).kept = s.kept := rfl
@[simp] theorem State.modSrv_reply : (s.modSrv c f).reply = s.reply := rfl
@[simp] theorem State.modSrv_bays : (s.modSrv c f).bays = s.bays := rfl
@[simp] theorem State.modSrv_migs : (s.modSrv c f).migs = s.migs := rfl
@[simp] theorem State.modSrv_promos : (s.modSrv c f).promos = s.promos := rfl
@[simp] theorem State.modSrv_promoNext : (s.modSrv c f).promoNext = s.promoNext := rfl
@[simp] theorem State.modSrv_hot : (s.modSrv c f).hot = s.hot := rfl
@[simp] theorem State.modSrv_cmds : (s.modSrv c f).cmds = s.cmds := rfl
@[simp] theorem State.modSrv_queues : (s.modSrv c f).queues = s.queues := rfl
@[simp] theorem State.modSrv_tasks : (s.modSrv c f).tasks = s.tasks := rfl
@[simp] theorem State.modSrv_blends : (s.modSrv c f).blends = s.blends := rfl
@[simp] theorem State.modSrv_stages : (s.modSrv c f).stages = s.stages := rfl
@[simp] theorem State.modSrv_trellis : (s.modSrv c f).trellis = s.trellis := rfl
@[simp] theorem State.modSrv_evq : (s.modSrv c f).evq = s.evq := rfl
@[simp] theorem State.modSrv_lockAt : (s.modSrv c f).lockAt = s.lockAt := rfl
@[simp] theorem State.modSrv_quiesceAt : (s.modSrv c f).quiesceAt = s.quiesceAt := rfl
@[simp] theorem State.modSrv_decs : (s.modSrv c f).decs = s.decs := rfl
@[simp] theorem State.modSrv_boot : (s.modSrv c f).boot = s.boot := rfl
@[simp] theorem State.modSrv_binds : (s.modSrv c f).binds = s.binds := rfl
@[simp] theorem State.modSrv_lostAt : (s.modSrv c f).lostAt = s.lostAt := rfl
@[simp] theorem State.modSrv_lostReqs : (s.modSrv c f).lostReqs = s.lostReqs := rfl
@[simp] theorem State.modSrv_capStale : (s.modSrv c f).capStale = s.capStale := rfl

end

/-! `setDec` writes `decs`. -/

section
variable (s : State) (n k : Nat) (x : DecStream)

@[simp] theorem State.setDec_pending : (s.setDec n k x).pending = s.pending := rfl
@[simp] theorem State.setDec_freeCtr : (s.setDec n k x).freeCtr = s.freeCtr := rfl
@[simp] theorem State.setDec_regs : (s.setDec n k x).regs = s.regs := rfl
@[simp] theorem State.setDec_written : (s.setDec n k x).written = s.written := rfl
@[simp] theorem State.setDec_mem : (s.setDec n k x).mem = s.mem := rfl
@[simp] theorem State.setDec_unpowered : (s.setDec n k x).unpowered = s.unpowered := rfl
@[simp] theorem State.setDec_lastPost : (s.setDec n k x).lastPost = s.lastPost := rfl
@[simp] theorem State.setDec_evSeq : (s.setDec n k x).evSeq = s.evSeq := rfl
@[simp] theorem State.setDec_events : (s.setDec n k x).events = s.events := rfl
@[simp] theorem State.setDec_cores : (s.setDec n k x).cores = s.cores := rfl
@[simp] theorem State.setDec_partial_ : (s.setDec n k x).partial_ = s.partial_ := rfl
@[simp] theorem State.setDec_bad : (s.setDec n k x).bad = s.bad := rfl
@[simp] theorem State.setDec_tlb : (s.setDec n k x).tlb = s.tlb := rfl
@[simp] theorem State.setDec_pageReqs : (s.setDec n k x).pageReqs = s.pageReqs := rfl
@[simp] theorem State.setDec_iommuFaults : (s.setDec n k x).iommuFaults = s.iommuFaults := rfl
@[simp] theorem State.setDec_net : (s.setDec n k x).net = s.net := rfl
@[simp] theorem State.setDec_out : (s.setDec n k x).out = s.out := rfl
@[simp] theorem State.setDec_imsic : (s.setDec n k x).imsic = s.imsic := rfl
@[simp] theorem State.setDec_hostFns : (s.setDec n k x).hostFns = s.hostFns := rfl
@[simp] theorem State.setDec_numVfs : (s.setDec n k x).numVfs = s.numVfs := rfl
@[simp] theorem State.setDec_buckets : (s.setDec n k x).buckets = s.buckets := rfl
@[simp] theorem State.setDec_cache : (s.setDec n k x).cache = s.cache := rfl
@[simp] theorem State.setDec_useCtr : (s.setDec n k x).useCtr = s.useCtr := rfl
@[simp] theorem State.setDec_prefetch : (s.setDec n k x).prefetch = s.prefetch := rfl
@[simp] theorem State.setDec_nearReqs : (s.setDec n k x).nearReqs = s.nearReqs := rfl
@[simp] theorem State.setDec_agents : (s.setDec n k x).agents = s.agents := rfl
@[simp] theorem State.setDec_dir : (s.setDec n k x).dir = s.dir := rfl
@[simp] theorem State.setDec_txns : (s.setDec n k x).txns = s.txns := rfl
@[simp] theorem State.setDec_dirQueue : (s.setDec n k x).dirQueue = s.dirQueue := rfl
@[simp] theorem State.setDec_invals : (s.setDec n k x).invals = s.invals := rfl
@[simp] theorem State.setDec_atc : (s.setDec n k x).atc = s.atc := rfl
@[simp] theorem State.setDec_atsReqs : (s.setDec n k x).atsReqs = s.atsReqs := rfl
@[simp] theorem State.setDec_srvTlb : (s.setDec n k x).srvTlb = s.srvTlb := rfl
@[simp] theorem State.setDec_txChans : (s.setDec n k x).txChans = s.txChans := rfl
@[simp] theorem State.setDec_rxChans : (s.setDec n k x).rxChans = s.rxChans := rfl
@[simp] theorem State.setDec_colls : (s.setDec n k x).colls = s.colls := rfl
@[simp] theorem State.setDec_collHigh : (s.setDec n k x).collHigh = s.collHigh := rfl
@[simp] theorem State.setDec_collDone : (s.setDec n k x).collDone = s.collDone := rfl
@[simp] theorem State.setDec_collNotes : (s.setDec n k x).collNotes = s.collNotes := rfl
@[simp] theorem State.setDec_collLocal : (s.setDec n k x).collLocal = s.collLocal := rfl
@[simp] theorem State.setDec_fabPorts : (s.setDec n k x).fabPorts = s.fabPorts := rfl
@[simp] theorem State.setDec_time : (s.setDec n k x).time = s.time := rfl
@[simp] theorem State.setDec_divAt : (s.setDec n k x).divAt = s.divAt := rfl
@[simp] theorem State.setDec_gddr : (s.setDec n k x).gddr = s.gddr := rfl
@[simp] theorem State.setDec_group : (s.setDec n k x).group = s.group := rfl
@[simp] theorem State.setDec_winCache : (s.setDec n k x).winCache = s.winCache := rfl
@[simp] theorem State.setDec_winDrops : (s.setDec n k x).winDrops = s.winDrops := rfl
@[simp] theorem State.setDec_winFlush : (s.setDec n k x).winFlush = s.winFlush := rfl
@[simp] theorem State.setDec_causes : (s.setDec n k x).causes = s.causes := rfl
@[simp] theorem State.setDec_sensors : (s.setDec n k x).sensors = s.sensors := rfl
@[simp] theorem State.setDec_clamps : (s.setDec n k x).clamps = s.clamps := rfl
@[simp] theorem State.setDec_kept : (s.setDec n k x).kept = s.kept := rfl
@[simp] theorem State.setDec_reply : (s.setDec n k x).reply = s.reply := rfl
@[simp] theorem State.setDec_bays : (s.setDec n k x).bays = s.bays := rfl
@[simp] theorem State.setDec_migs : (s.setDec n k x).migs = s.migs := rfl
@[simp] theorem State.setDec_promos : (s.setDec n k x).promos = s.promos := rfl
@[simp] theorem State.setDec_promoNext : (s.setDec n k x).promoNext = s.promoNext := rfl
@[simp] theorem State.setDec_hot : (s.setDec n k x).hot = s.hot := rfl
@[simp] theorem State.setDec_cmds : (s.setDec n k x).cmds = s.cmds := rfl
@[simp] theorem State.setDec_queues : (s.setDec n k x).queues = s.queues := rfl
@[simp] theorem State.setDec_tasks : (s.setDec n k x).tasks = s.tasks := rfl
@[simp] theorem State.setDec_blends : (s.setDec n k x).blends = s.blends := rfl
@[simp] theorem State.setDec_stages : (s.setDec n k x).stages = s.stages := rfl
@[simp] theorem State.setDec_trellis : (s.setDec n k x).trellis = s.trellis := rfl
@[simp] theorem State.setDec_evq : (s.setDec n k x).evq = s.evq := rfl
@[simp] theorem State.setDec_lockAt : (s.setDec n k x).lockAt = s.lockAt := rfl
@[simp] theorem State.setDec_quiesceAt : (s.setDec n k x).quiesceAt = s.quiesceAt := rfl
@[simp] theorem State.setDec_srv : (s.setDec n k x).srv = s.srv := rfl
@[simp] theorem State.setDec_boot : (s.setDec n k x).boot = s.boot := rfl
@[simp] theorem State.setDec_binds : (s.setDec n k x).binds = s.binds := rfl
@[simp] theorem State.setDec_lostAt : (s.setDec n k x).lostAt = s.lostAt := rfl
@[simp] theorem State.setDec_lostReqs : (s.setDec n k x).lostReqs = s.lostReqs := rfl
@[simp] theorem State.setDec_capStale : (s.setDec n k x).capStale = s.capStale := rfl

end

/-! `writeBytes` writes `mem`. -/

section
variable (s : State) (a : Nat) (bs : List Byte)

@[simp] theorem State.writeBytes_pending : (s.writeBytes a bs).pending = s.pending := rfl
@[simp] theorem State.writeBytes_freeCtr : (s.writeBytes a bs).freeCtr = s.freeCtr := rfl
@[simp] theorem State.writeBytes_regs : (s.writeBytes a bs).regs = s.regs := rfl
@[simp] theorem State.writeBytes_written : (s.writeBytes a bs).written = s.written := rfl
@[simp] theorem State.writeBytes_unpowered : (s.writeBytes a bs).unpowered = s.unpowered := rfl
@[simp] theorem State.writeBytes_lastPost : (s.writeBytes a bs).lastPost = s.lastPost := rfl
@[simp] theorem State.writeBytes_evSeq : (s.writeBytes a bs).evSeq = s.evSeq := rfl
@[simp] theorem State.writeBytes_events : (s.writeBytes a bs).events = s.events := rfl
@[simp] theorem State.writeBytes_cores : (s.writeBytes a bs).cores = s.cores := rfl
@[simp] theorem State.writeBytes_partial_ : (s.writeBytes a bs).partial_ = s.partial_ := rfl
@[simp] theorem State.writeBytes_bad : (s.writeBytes a bs).bad = s.bad := rfl
@[simp] theorem State.writeBytes_tlb : (s.writeBytes a bs).tlb = s.tlb := rfl
@[simp] theorem State.writeBytes_pageReqs : (s.writeBytes a bs).pageReqs = s.pageReqs := rfl
@[simp] theorem State.writeBytes_iommuFaults : (s.writeBytes a bs).iommuFaults = s.iommuFaults := rfl
@[simp] theorem State.writeBytes_net : (s.writeBytes a bs).net = s.net := rfl
@[simp] theorem State.writeBytes_out : (s.writeBytes a bs).out = s.out := rfl
@[simp] theorem State.writeBytes_imsic : (s.writeBytes a bs).imsic = s.imsic := rfl
@[simp] theorem State.writeBytes_hostFns : (s.writeBytes a bs).hostFns = s.hostFns := rfl
@[simp] theorem State.writeBytes_numVfs : (s.writeBytes a bs).numVfs = s.numVfs := rfl
@[simp] theorem State.writeBytes_buckets : (s.writeBytes a bs).buckets = s.buckets := rfl
@[simp] theorem State.writeBytes_cache : (s.writeBytes a bs).cache = s.cache := rfl
@[simp] theorem State.writeBytes_useCtr : (s.writeBytes a bs).useCtr = s.useCtr := rfl
@[simp] theorem State.writeBytes_prefetch : (s.writeBytes a bs).prefetch = s.prefetch := rfl
@[simp] theorem State.writeBytes_nearReqs : (s.writeBytes a bs).nearReqs = s.nearReqs := rfl
@[simp] theorem State.writeBytes_agents : (s.writeBytes a bs).agents = s.agents := rfl
@[simp] theorem State.writeBytes_dir : (s.writeBytes a bs).dir = s.dir := rfl
@[simp] theorem State.writeBytes_txns : (s.writeBytes a bs).txns = s.txns := rfl
@[simp] theorem State.writeBytes_dirQueue : (s.writeBytes a bs).dirQueue = s.dirQueue := rfl
@[simp] theorem State.writeBytes_invals : (s.writeBytes a bs).invals = s.invals := rfl
@[simp] theorem State.writeBytes_atc : (s.writeBytes a bs).atc = s.atc := rfl
@[simp] theorem State.writeBytes_atsReqs : (s.writeBytes a bs).atsReqs = s.atsReqs := rfl
@[simp] theorem State.writeBytes_srvTlb : (s.writeBytes a bs).srvTlb = s.srvTlb := rfl
@[simp] theorem State.writeBytes_txChans : (s.writeBytes a bs).txChans = s.txChans := rfl
@[simp] theorem State.writeBytes_rxChans : (s.writeBytes a bs).rxChans = s.rxChans := rfl
@[simp] theorem State.writeBytes_colls : (s.writeBytes a bs).colls = s.colls := rfl
@[simp] theorem State.writeBytes_collHigh : (s.writeBytes a bs).collHigh = s.collHigh := rfl
@[simp] theorem State.writeBytes_collDone : (s.writeBytes a bs).collDone = s.collDone := rfl
@[simp] theorem State.writeBytes_collNotes : (s.writeBytes a bs).collNotes = s.collNotes := rfl
@[simp] theorem State.writeBytes_collLocal : (s.writeBytes a bs).collLocal = s.collLocal := rfl
@[simp] theorem State.writeBytes_fabPorts : (s.writeBytes a bs).fabPorts = s.fabPorts := rfl
@[simp] theorem State.writeBytes_time : (s.writeBytes a bs).time = s.time := rfl
@[simp] theorem State.writeBytes_divAt : (s.writeBytes a bs).divAt = s.divAt := rfl
@[simp] theorem State.writeBytes_gddr : (s.writeBytes a bs).gddr = s.gddr := rfl
@[simp] theorem State.writeBytes_group : (s.writeBytes a bs).group = s.group := rfl
@[simp] theorem State.writeBytes_winCache : (s.writeBytes a bs).winCache = s.winCache := rfl
@[simp] theorem State.writeBytes_winDrops : (s.writeBytes a bs).winDrops = s.winDrops := rfl
@[simp] theorem State.writeBytes_winFlush : (s.writeBytes a bs).winFlush = s.winFlush := rfl
@[simp] theorem State.writeBytes_causes : (s.writeBytes a bs).causes = s.causes := rfl
@[simp] theorem State.writeBytes_sensors : (s.writeBytes a bs).sensors = s.sensors := rfl
@[simp] theorem State.writeBytes_clamps : (s.writeBytes a bs).clamps = s.clamps := rfl
@[simp] theorem State.writeBytes_kept : (s.writeBytes a bs).kept = s.kept := rfl
@[simp] theorem State.writeBytes_reply : (s.writeBytes a bs).reply = s.reply := rfl
@[simp] theorem State.writeBytes_bays : (s.writeBytes a bs).bays = s.bays := rfl
@[simp] theorem State.writeBytes_migs : (s.writeBytes a bs).migs = s.migs := rfl
@[simp] theorem State.writeBytes_promos : (s.writeBytes a bs).promos = s.promos := rfl
@[simp] theorem State.writeBytes_promoNext : (s.writeBytes a bs).promoNext = s.promoNext := rfl
@[simp] theorem State.writeBytes_hot : (s.writeBytes a bs).hot = s.hot := rfl
@[simp] theorem State.writeBytes_cmds : (s.writeBytes a bs).cmds = s.cmds := rfl
@[simp] theorem State.writeBytes_queues : (s.writeBytes a bs).queues = s.queues := rfl
@[simp] theorem State.writeBytes_tasks : (s.writeBytes a bs).tasks = s.tasks := rfl
@[simp] theorem State.writeBytes_blends : (s.writeBytes a bs).blends = s.blends := rfl
@[simp] theorem State.writeBytes_stages : (s.writeBytes a bs).stages = s.stages := rfl
@[simp] theorem State.writeBytes_trellis : (s.writeBytes a bs).trellis = s.trellis := rfl
@[simp] theorem State.writeBytes_evq : (s.writeBytes a bs).evq = s.evq := rfl
@[simp] theorem State.writeBytes_lockAt : (s.writeBytes a bs).lockAt = s.lockAt := rfl
@[simp] theorem State.writeBytes_quiesceAt : (s.writeBytes a bs).quiesceAt = s.quiesceAt := rfl
@[simp] theorem State.writeBytes_srv : (s.writeBytes a bs).srv = s.srv := rfl
@[simp] theorem State.writeBytes_decs : (s.writeBytes a bs).decs = s.decs := rfl
@[simp] theorem State.writeBytes_boot : (s.writeBytes a bs).boot = s.boot := rfl
@[simp] theorem State.writeBytes_binds : (s.writeBytes a bs).binds = s.binds := rfl
@[simp] theorem State.writeBytes_lostAt : (s.writeBytes a bs).lostAt = s.lostAt := rfl
@[simp] theorem State.writeBytes_lostReqs : (s.writeBytes a bs).lostReqs = s.lostReqs := rfl
@[simp] theorem State.writeBytes_capStale : (s.writeBytes a bs).capStale = s.capStale := rfl

end

/-! `answer` writes `reply`. -/

section
variable (s : State) (st : Nat) (data : List Byte)

@[simp] theorem State.answer_pending : (s.answer st data).pending = s.pending := rfl
@[simp] theorem State.answer_freeCtr : (s.answer st data).freeCtr = s.freeCtr := rfl
@[simp] theorem State.answer_regs : (s.answer st data).regs = s.regs := rfl
@[simp] theorem State.answer_written : (s.answer st data).written = s.written := rfl
@[simp] theorem State.answer_mem : (s.answer st data).mem = s.mem := rfl
@[simp] theorem State.answer_unpowered : (s.answer st data).unpowered = s.unpowered := rfl
@[simp] theorem State.answer_lastPost : (s.answer st data).lastPost = s.lastPost := rfl
@[simp] theorem State.answer_evSeq : (s.answer st data).evSeq = s.evSeq := rfl
@[simp] theorem State.answer_events : (s.answer st data).events = s.events := rfl
@[simp] theorem State.answer_cores : (s.answer st data).cores = s.cores := rfl
@[simp] theorem State.answer_partial_ : (s.answer st data).partial_ = s.partial_ := rfl
@[simp] theorem State.answer_bad : (s.answer st data).bad = s.bad := rfl
@[simp] theorem State.answer_tlb : (s.answer st data).tlb = s.tlb := rfl
@[simp] theorem State.answer_pageReqs : (s.answer st data).pageReqs = s.pageReqs := rfl
@[simp] theorem State.answer_iommuFaults : (s.answer st data).iommuFaults = s.iommuFaults := rfl
@[simp] theorem State.answer_net : (s.answer st data).net = s.net := rfl
@[simp] theorem State.answer_out : (s.answer st data).out = s.out := rfl
@[simp] theorem State.answer_imsic : (s.answer st data).imsic = s.imsic := rfl
@[simp] theorem State.answer_hostFns : (s.answer st data).hostFns = s.hostFns := rfl
@[simp] theorem State.answer_numVfs : (s.answer st data).numVfs = s.numVfs := rfl
@[simp] theorem State.answer_buckets : (s.answer st data).buckets = s.buckets := rfl
@[simp] theorem State.answer_cache : (s.answer st data).cache = s.cache := rfl
@[simp] theorem State.answer_useCtr : (s.answer st data).useCtr = s.useCtr := rfl
@[simp] theorem State.answer_prefetch : (s.answer st data).prefetch = s.prefetch := rfl
@[simp] theorem State.answer_nearReqs : (s.answer st data).nearReqs = s.nearReqs := rfl
@[simp] theorem State.answer_agents : (s.answer st data).agents = s.agents := rfl
@[simp] theorem State.answer_dir : (s.answer st data).dir = s.dir := rfl
@[simp] theorem State.answer_txns : (s.answer st data).txns = s.txns := rfl
@[simp] theorem State.answer_dirQueue : (s.answer st data).dirQueue = s.dirQueue := rfl
@[simp] theorem State.answer_invals : (s.answer st data).invals = s.invals := rfl
@[simp] theorem State.answer_atc : (s.answer st data).atc = s.atc := rfl
@[simp] theorem State.answer_atsReqs : (s.answer st data).atsReqs = s.atsReqs := rfl
@[simp] theorem State.answer_srvTlb : (s.answer st data).srvTlb = s.srvTlb := rfl
@[simp] theorem State.answer_txChans : (s.answer st data).txChans = s.txChans := rfl
@[simp] theorem State.answer_rxChans : (s.answer st data).rxChans = s.rxChans := rfl
@[simp] theorem State.answer_colls : (s.answer st data).colls = s.colls := rfl
@[simp] theorem State.answer_collHigh : (s.answer st data).collHigh = s.collHigh := rfl
@[simp] theorem State.answer_collDone : (s.answer st data).collDone = s.collDone := rfl
@[simp] theorem State.answer_collNotes : (s.answer st data).collNotes = s.collNotes := rfl
@[simp] theorem State.answer_collLocal : (s.answer st data).collLocal = s.collLocal := rfl
@[simp] theorem State.answer_fabPorts : (s.answer st data).fabPorts = s.fabPorts := rfl
@[simp] theorem State.answer_time : (s.answer st data).time = s.time := rfl
@[simp] theorem State.answer_divAt : (s.answer st data).divAt = s.divAt := rfl
@[simp] theorem State.answer_gddr : (s.answer st data).gddr = s.gddr := rfl
@[simp] theorem State.answer_group : (s.answer st data).group = s.group := rfl
@[simp] theorem State.answer_winCache : (s.answer st data).winCache = s.winCache := rfl
@[simp] theorem State.answer_winDrops : (s.answer st data).winDrops = s.winDrops := rfl
@[simp] theorem State.answer_winFlush : (s.answer st data).winFlush = s.winFlush := rfl
@[simp] theorem State.answer_causes : (s.answer st data).causes = s.causes := rfl
@[simp] theorem State.answer_sensors : (s.answer st data).sensors = s.sensors := rfl
@[simp] theorem State.answer_clamps : (s.answer st data).clamps = s.clamps := rfl
@[simp] theorem State.answer_kept : (s.answer st data).kept = s.kept := rfl
@[simp] theorem State.answer_bays : (s.answer st data).bays = s.bays := rfl
@[simp] theorem State.answer_migs : (s.answer st data).migs = s.migs := rfl
@[simp] theorem State.answer_promos : (s.answer st data).promos = s.promos := rfl
@[simp] theorem State.answer_promoNext : (s.answer st data).promoNext = s.promoNext := rfl
@[simp] theorem State.answer_hot : (s.answer st data).hot = s.hot := rfl
@[simp] theorem State.answer_cmds : (s.answer st data).cmds = s.cmds := rfl
@[simp] theorem State.answer_queues : (s.answer st data).queues = s.queues := rfl
@[simp] theorem State.answer_tasks : (s.answer st data).tasks = s.tasks := rfl
@[simp] theorem State.answer_blends : (s.answer st data).blends = s.blends := rfl
@[simp] theorem State.answer_stages : (s.answer st data).stages = s.stages := rfl
@[simp] theorem State.answer_trellis : (s.answer st data).trellis = s.trellis := rfl
@[simp] theorem State.answer_evq : (s.answer st data).evq = s.evq := rfl
@[simp] theorem State.answer_lockAt : (s.answer st data).lockAt = s.lockAt := rfl
@[simp] theorem State.answer_quiesceAt : (s.answer st data).quiesceAt = s.quiesceAt := rfl
@[simp] theorem State.answer_srv : (s.answer st data).srv = s.srv := rfl
@[simp] theorem State.answer_decs : (s.answer st data).decs = s.decs := rfl
@[simp] theorem State.answer_boot : (s.answer st data).boot = s.boot := rfl
@[simp] theorem State.answer_binds : (s.answer st data).binds = s.binds := rfl
@[simp] theorem State.answer_lostAt : (s.answer st data).lostAt = s.lostAt := rfl
@[simp] theorem State.answer_lostReqs : (s.answer st data).lostReqs = s.lostReqs := rfl
@[simp] theorem State.answer_capStale : (s.answer st data).capStale = s.capStale := rfl

end

/-! `post` writes `net`. -/

section
variable (s : State) (m : Msg)

@[simp] theorem State.post_pending : (s.post m).pending = s.pending := rfl
@[simp] theorem State.post_freeCtr : (s.post m).freeCtr = s.freeCtr := rfl
@[simp] theorem State.post_regs : (s.post m).regs = s.regs := rfl
@[simp] theorem State.post_written : (s.post m).written = s.written := rfl
@[simp] theorem State.post_mem : (s.post m).mem = s.mem := rfl
@[simp] theorem State.post_unpowered : (s.post m).unpowered = s.unpowered := rfl
@[simp] theorem State.post_lastPost : (s.post m).lastPost = s.lastPost := rfl
@[simp] theorem State.post_evSeq : (s.post m).evSeq = s.evSeq := rfl
@[simp] theorem State.post_events : (s.post m).events = s.events := rfl
@[simp] theorem State.post_cores : (s.post m).cores = s.cores := rfl
@[simp] theorem State.post_partial_ : (s.post m).partial_ = s.partial_ := rfl
@[simp] theorem State.post_bad : (s.post m).bad = s.bad := rfl
@[simp] theorem State.post_tlb : (s.post m).tlb = s.tlb := rfl
@[simp] theorem State.post_pageReqs : (s.post m).pageReqs = s.pageReqs := rfl
@[simp] theorem State.post_iommuFaults : (s.post m).iommuFaults = s.iommuFaults := rfl
@[simp] theorem State.post_out : (s.post m).out = s.out := rfl
@[simp] theorem State.post_imsic : (s.post m).imsic = s.imsic := rfl
@[simp] theorem State.post_hostFns : (s.post m).hostFns = s.hostFns := rfl
@[simp] theorem State.post_numVfs : (s.post m).numVfs = s.numVfs := rfl
@[simp] theorem State.post_buckets : (s.post m).buckets = s.buckets := rfl
@[simp] theorem State.post_cache : (s.post m).cache = s.cache := rfl
@[simp] theorem State.post_useCtr : (s.post m).useCtr = s.useCtr := rfl
@[simp] theorem State.post_prefetch : (s.post m).prefetch = s.prefetch := rfl
@[simp] theorem State.post_nearReqs : (s.post m).nearReqs = s.nearReqs := rfl
@[simp] theorem State.post_agents : (s.post m).agents = s.agents := rfl
@[simp] theorem State.post_dir : (s.post m).dir = s.dir := rfl
@[simp] theorem State.post_txns : (s.post m).txns = s.txns := rfl
@[simp] theorem State.post_dirQueue : (s.post m).dirQueue = s.dirQueue := rfl
@[simp] theorem State.post_invals : (s.post m).invals = s.invals := rfl
@[simp] theorem State.post_atc : (s.post m).atc = s.atc := rfl
@[simp] theorem State.post_atsReqs : (s.post m).atsReqs = s.atsReqs := rfl
@[simp] theorem State.post_srvTlb : (s.post m).srvTlb = s.srvTlb := rfl
@[simp] theorem State.post_txChans : (s.post m).txChans = s.txChans := rfl
@[simp] theorem State.post_rxChans : (s.post m).rxChans = s.rxChans := rfl
@[simp] theorem State.post_colls : (s.post m).colls = s.colls := rfl
@[simp] theorem State.post_collHigh : (s.post m).collHigh = s.collHigh := rfl
@[simp] theorem State.post_collDone : (s.post m).collDone = s.collDone := rfl
@[simp] theorem State.post_collNotes : (s.post m).collNotes = s.collNotes := rfl
@[simp] theorem State.post_collLocal : (s.post m).collLocal = s.collLocal := rfl
@[simp] theorem State.post_fabPorts : (s.post m).fabPorts = s.fabPorts := rfl
@[simp] theorem State.post_time : (s.post m).time = s.time := rfl
@[simp] theorem State.post_divAt : (s.post m).divAt = s.divAt := rfl
@[simp] theorem State.post_gddr : (s.post m).gddr = s.gddr := rfl
@[simp] theorem State.post_group : (s.post m).group = s.group := rfl
@[simp] theorem State.post_winCache : (s.post m).winCache = s.winCache := rfl
@[simp] theorem State.post_winDrops : (s.post m).winDrops = s.winDrops := rfl
@[simp] theorem State.post_winFlush : (s.post m).winFlush = s.winFlush := rfl
@[simp] theorem State.post_causes : (s.post m).causes = s.causes := rfl
@[simp] theorem State.post_sensors : (s.post m).sensors = s.sensors := rfl
@[simp] theorem State.post_clamps : (s.post m).clamps = s.clamps := rfl
@[simp] theorem State.post_kept : (s.post m).kept = s.kept := rfl
@[simp] theorem State.post_reply : (s.post m).reply = s.reply := rfl
@[simp] theorem State.post_bays : (s.post m).bays = s.bays := rfl
@[simp] theorem State.post_migs : (s.post m).migs = s.migs := rfl
@[simp] theorem State.post_promos : (s.post m).promos = s.promos := rfl
@[simp] theorem State.post_promoNext : (s.post m).promoNext = s.promoNext := rfl
@[simp] theorem State.post_hot : (s.post m).hot = s.hot := rfl
@[simp] theorem State.post_cmds : (s.post m).cmds = s.cmds := rfl
@[simp] theorem State.post_queues : (s.post m).queues = s.queues := rfl
@[simp] theorem State.post_tasks : (s.post m).tasks = s.tasks := rfl
@[simp] theorem State.post_blends : (s.post m).blends = s.blends := rfl
@[simp] theorem State.post_stages : (s.post m).stages = s.stages := rfl
@[simp] theorem State.post_trellis : (s.post m).trellis = s.trellis := rfl
@[simp] theorem State.post_evq : (s.post m).evq = s.evq := rfl
@[simp] theorem State.post_lockAt : (s.post m).lockAt = s.lockAt := rfl
@[simp] theorem State.post_quiesceAt : (s.post m).quiesceAt = s.quiesceAt := rfl
@[simp] theorem State.post_srv : (s.post m).srv = s.srv := rfl
@[simp] theorem State.post_decs : (s.post m).decs = s.decs := rfl
@[simp] theorem State.post_boot : (s.post m).boot = s.boot := rfl
@[simp] theorem State.post_binds : (s.post m).binds = s.binds := rfl
@[simp] theorem State.post_lostAt : (s.post m).lostAt = s.lostAt := rfl
@[simp] theorem State.post_lostReqs : (s.post m).lostReqs = s.lostReqs := rfl
@[simp] theorem State.post_capStale : (s.post m).capStale = s.capStale := rfl

end

/-! `putColl` writes `colls`. -/

section
variable (s : State) (c : Coll)

@[simp] theorem State.putColl_pending : (s.putColl c).pending = s.pending := rfl
@[simp] theorem State.putColl_freeCtr : (s.putColl c).freeCtr = s.freeCtr := rfl
@[simp] theorem State.putColl_regs : (s.putColl c).regs = s.regs := rfl
@[simp] theorem State.putColl_written : (s.putColl c).written = s.written := rfl
@[simp] theorem State.putColl_mem : (s.putColl c).mem = s.mem := rfl
@[simp] theorem State.putColl_unpowered : (s.putColl c).unpowered = s.unpowered := rfl
@[simp] theorem State.putColl_lastPost : (s.putColl c).lastPost = s.lastPost := rfl
@[simp] theorem State.putColl_evSeq : (s.putColl c).evSeq = s.evSeq := rfl
@[simp] theorem State.putColl_events : (s.putColl c).events = s.events := rfl
@[simp] theorem State.putColl_cores : (s.putColl c).cores = s.cores := rfl
@[simp] theorem State.putColl_partial_ : (s.putColl c).partial_ = s.partial_ := rfl
@[simp] theorem State.putColl_bad : (s.putColl c).bad = s.bad := rfl
@[simp] theorem State.putColl_tlb : (s.putColl c).tlb = s.tlb := rfl
@[simp] theorem State.putColl_pageReqs : (s.putColl c).pageReqs = s.pageReqs := rfl
@[simp] theorem State.putColl_iommuFaults : (s.putColl c).iommuFaults = s.iommuFaults := rfl
@[simp] theorem State.putColl_net : (s.putColl c).net = s.net := rfl
@[simp] theorem State.putColl_out : (s.putColl c).out = s.out := rfl
@[simp] theorem State.putColl_imsic : (s.putColl c).imsic = s.imsic := rfl
@[simp] theorem State.putColl_hostFns : (s.putColl c).hostFns = s.hostFns := rfl
@[simp] theorem State.putColl_numVfs : (s.putColl c).numVfs = s.numVfs := rfl
@[simp] theorem State.putColl_buckets : (s.putColl c).buckets = s.buckets := rfl
@[simp] theorem State.putColl_cache : (s.putColl c).cache = s.cache := rfl
@[simp] theorem State.putColl_useCtr : (s.putColl c).useCtr = s.useCtr := rfl
@[simp] theorem State.putColl_prefetch : (s.putColl c).prefetch = s.prefetch := rfl
@[simp] theorem State.putColl_nearReqs : (s.putColl c).nearReqs = s.nearReqs := rfl
@[simp] theorem State.putColl_agents : (s.putColl c).agents = s.agents := rfl
@[simp] theorem State.putColl_dir : (s.putColl c).dir = s.dir := rfl
@[simp] theorem State.putColl_txns : (s.putColl c).txns = s.txns := rfl
@[simp] theorem State.putColl_dirQueue : (s.putColl c).dirQueue = s.dirQueue := rfl
@[simp] theorem State.putColl_invals : (s.putColl c).invals = s.invals := rfl
@[simp] theorem State.putColl_atc : (s.putColl c).atc = s.atc := rfl
@[simp] theorem State.putColl_atsReqs : (s.putColl c).atsReqs = s.atsReqs := rfl
@[simp] theorem State.putColl_srvTlb : (s.putColl c).srvTlb = s.srvTlb := rfl
@[simp] theorem State.putColl_txChans : (s.putColl c).txChans = s.txChans := rfl
@[simp] theorem State.putColl_rxChans : (s.putColl c).rxChans = s.rxChans := rfl
@[simp] theorem State.putColl_collHigh : (s.putColl c).collHigh = s.collHigh := rfl
@[simp] theorem State.putColl_collDone : (s.putColl c).collDone = s.collDone := rfl
@[simp] theorem State.putColl_collNotes : (s.putColl c).collNotes = s.collNotes := rfl
@[simp] theorem State.putColl_collLocal : (s.putColl c).collLocal = s.collLocal := rfl
@[simp] theorem State.putColl_fabPorts : (s.putColl c).fabPorts = s.fabPorts := rfl
@[simp] theorem State.putColl_time : (s.putColl c).time = s.time := rfl
@[simp] theorem State.putColl_divAt : (s.putColl c).divAt = s.divAt := rfl
@[simp] theorem State.putColl_gddr : (s.putColl c).gddr = s.gddr := rfl
@[simp] theorem State.putColl_group : (s.putColl c).group = s.group := rfl
@[simp] theorem State.putColl_winCache : (s.putColl c).winCache = s.winCache := rfl
@[simp] theorem State.putColl_winDrops : (s.putColl c).winDrops = s.winDrops := rfl
@[simp] theorem State.putColl_winFlush : (s.putColl c).winFlush = s.winFlush := rfl
@[simp] theorem State.putColl_causes : (s.putColl c).causes = s.causes := rfl
@[simp] theorem State.putColl_sensors : (s.putColl c).sensors = s.sensors := rfl
@[simp] theorem State.putColl_clamps : (s.putColl c).clamps = s.clamps := rfl
@[simp] theorem State.putColl_kept : (s.putColl c).kept = s.kept := rfl
@[simp] theorem State.putColl_reply : (s.putColl c).reply = s.reply := rfl
@[simp] theorem State.putColl_bays : (s.putColl c).bays = s.bays := rfl
@[simp] theorem State.putColl_migs : (s.putColl c).migs = s.migs := rfl
@[simp] theorem State.putColl_promos : (s.putColl c).promos = s.promos := rfl
@[simp] theorem State.putColl_promoNext : (s.putColl c).promoNext = s.promoNext := rfl
@[simp] theorem State.putColl_hot : (s.putColl c).hot = s.hot := rfl
@[simp] theorem State.putColl_cmds : (s.putColl c).cmds = s.cmds := rfl
@[simp] theorem State.putColl_queues : (s.putColl c).queues = s.queues := rfl
@[simp] theorem State.putColl_tasks : (s.putColl c).tasks = s.tasks := rfl
@[simp] theorem State.putColl_blends : (s.putColl c).blends = s.blends := rfl
@[simp] theorem State.putColl_stages : (s.putColl c).stages = s.stages := rfl
@[simp] theorem State.putColl_trellis : (s.putColl c).trellis = s.trellis := rfl
@[simp] theorem State.putColl_evq : (s.putColl c).evq = s.evq := rfl
@[simp] theorem State.putColl_lockAt : (s.putColl c).lockAt = s.lockAt := rfl
@[simp] theorem State.putColl_quiesceAt : (s.putColl c).quiesceAt = s.quiesceAt := rfl
@[simp] theorem State.putColl_srv : (s.putColl c).srv = s.srv := rfl
@[simp] theorem State.putColl_decs : (s.putColl c).decs = s.decs := rfl
@[simp] theorem State.putColl_boot : (s.putColl c).boot = s.boot := rfl
@[simp] theorem State.putColl_binds : (s.putColl c).binds = s.binds := rfl
@[simp] theorem State.putColl_lostAt : (s.putColl c).lostAt = s.lostAt := rfl
@[simp] theorem State.putColl_lostReqs : (s.putColl c).lostReqs = s.lostReqs := rfl
@[simp] theorem State.putColl_capStale : (s.putColl c).capStale = s.capStale := rfl

end

/-! `modFabPort` writes `fabPorts`. -/

section
variable (s : State) (f : Nat) (g : FabPort → FabPort)

@[simp] theorem State.modFabPort_pending : (s.modFabPort f g).pending = s.pending := rfl
@[simp] theorem State.modFabPort_freeCtr : (s.modFabPort f g).freeCtr = s.freeCtr := rfl
@[simp] theorem State.modFabPort_regs : (s.modFabPort f g).regs = s.regs := rfl
@[simp] theorem State.modFabPort_written : (s.modFabPort f g).written = s.written := rfl
@[simp] theorem State.modFabPort_mem : (s.modFabPort f g).mem = s.mem := rfl
@[simp] theorem State.modFabPort_unpowered : (s.modFabPort f g).unpowered = s.unpowered := rfl
@[simp] theorem State.modFabPort_lastPost : (s.modFabPort f g).lastPost = s.lastPost := rfl
@[simp] theorem State.modFabPort_evSeq : (s.modFabPort f g).evSeq = s.evSeq := rfl
@[simp] theorem State.modFabPort_events : (s.modFabPort f g).events = s.events := rfl
@[simp] theorem State.modFabPort_cores : (s.modFabPort f g).cores = s.cores := rfl
@[simp] theorem State.modFabPort_partial_ : (s.modFabPort f g).partial_ = s.partial_ := rfl
@[simp] theorem State.modFabPort_bad : (s.modFabPort f g).bad = s.bad := rfl
@[simp] theorem State.modFabPort_tlb : (s.modFabPort f g).tlb = s.tlb := rfl
@[simp] theorem State.modFabPort_pageReqs : (s.modFabPort f g).pageReqs = s.pageReqs := rfl
@[simp] theorem State.modFabPort_iommuFaults : (s.modFabPort f g).iommuFaults = s.iommuFaults := rfl
@[simp] theorem State.modFabPort_net : (s.modFabPort f g).net = s.net := rfl
@[simp] theorem State.modFabPort_out : (s.modFabPort f g).out = s.out := rfl
@[simp] theorem State.modFabPort_imsic : (s.modFabPort f g).imsic = s.imsic := rfl
@[simp] theorem State.modFabPort_hostFns : (s.modFabPort f g).hostFns = s.hostFns := rfl
@[simp] theorem State.modFabPort_numVfs : (s.modFabPort f g).numVfs = s.numVfs := rfl
@[simp] theorem State.modFabPort_buckets : (s.modFabPort f g).buckets = s.buckets := rfl
@[simp] theorem State.modFabPort_cache : (s.modFabPort f g).cache = s.cache := rfl
@[simp] theorem State.modFabPort_useCtr : (s.modFabPort f g).useCtr = s.useCtr := rfl
@[simp] theorem State.modFabPort_prefetch : (s.modFabPort f g).prefetch = s.prefetch := rfl
@[simp] theorem State.modFabPort_nearReqs : (s.modFabPort f g).nearReqs = s.nearReqs := rfl
@[simp] theorem State.modFabPort_agents : (s.modFabPort f g).agents = s.agents := rfl
@[simp] theorem State.modFabPort_dir : (s.modFabPort f g).dir = s.dir := rfl
@[simp] theorem State.modFabPort_txns : (s.modFabPort f g).txns = s.txns := rfl
@[simp] theorem State.modFabPort_dirQueue : (s.modFabPort f g).dirQueue = s.dirQueue := rfl
@[simp] theorem State.modFabPort_invals : (s.modFabPort f g).invals = s.invals := rfl
@[simp] theorem State.modFabPort_atc : (s.modFabPort f g).atc = s.atc := rfl
@[simp] theorem State.modFabPort_atsReqs : (s.modFabPort f g).atsReqs = s.atsReqs := rfl
@[simp] theorem State.modFabPort_srvTlb : (s.modFabPort f g).srvTlb = s.srvTlb := rfl
@[simp] theorem State.modFabPort_txChans : (s.modFabPort f g).txChans = s.txChans := rfl
@[simp] theorem State.modFabPort_rxChans : (s.modFabPort f g).rxChans = s.rxChans := rfl
@[simp] theorem State.modFabPort_colls : (s.modFabPort f g).colls = s.colls := rfl
@[simp] theorem State.modFabPort_collHigh : (s.modFabPort f g).collHigh = s.collHigh := rfl
@[simp] theorem State.modFabPort_collDone : (s.modFabPort f g).collDone = s.collDone := rfl
@[simp] theorem State.modFabPort_collNotes : (s.modFabPort f g).collNotes = s.collNotes := rfl
@[simp] theorem State.modFabPort_collLocal : (s.modFabPort f g).collLocal = s.collLocal := rfl
@[simp] theorem State.modFabPort_time : (s.modFabPort f g).time = s.time := rfl
@[simp] theorem State.modFabPort_divAt : (s.modFabPort f g).divAt = s.divAt := rfl
@[simp] theorem State.modFabPort_gddr : (s.modFabPort f g).gddr = s.gddr := rfl
@[simp] theorem State.modFabPort_group : (s.modFabPort f g).group = s.group := rfl
@[simp] theorem State.modFabPort_winCache : (s.modFabPort f g).winCache = s.winCache := rfl
@[simp] theorem State.modFabPort_winDrops : (s.modFabPort f g).winDrops = s.winDrops := rfl
@[simp] theorem State.modFabPort_winFlush : (s.modFabPort f g).winFlush = s.winFlush := rfl
@[simp] theorem State.modFabPort_causes : (s.modFabPort f g).causes = s.causes := rfl
@[simp] theorem State.modFabPort_sensors : (s.modFabPort f g).sensors = s.sensors := rfl
@[simp] theorem State.modFabPort_clamps : (s.modFabPort f g).clamps = s.clamps := rfl
@[simp] theorem State.modFabPort_kept : (s.modFabPort f g).kept = s.kept := rfl
@[simp] theorem State.modFabPort_reply : (s.modFabPort f g).reply = s.reply := rfl
@[simp] theorem State.modFabPort_bays : (s.modFabPort f g).bays = s.bays := rfl
@[simp] theorem State.modFabPort_migs : (s.modFabPort f g).migs = s.migs := rfl
@[simp] theorem State.modFabPort_promos : (s.modFabPort f g).promos = s.promos := rfl
@[simp] theorem State.modFabPort_promoNext : (s.modFabPort f g).promoNext = s.promoNext := rfl
@[simp] theorem State.modFabPort_hot : (s.modFabPort f g).hot = s.hot := rfl
@[simp] theorem State.modFabPort_cmds : (s.modFabPort f g).cmds = s.cmds := rfl
@[simp] theorem State.modFabPort_queues : (s.modFabPort f g).queues = s.queues := rfl
@[simp] theorem State.modFabPort_tasks : (s.modFabPort f g).tasks = s.tasks := rfl
@[simp] theorem State.modFabPort_blends : (s.modFabPort f g).blends = s.blends := rfl
@[simp] theorem State.modFabPort_stages : (s.modFabPort f g).stages = s.stages := rfl
@[simp] theorem State.modFabPort_trellis : (s.modFabPort f g).trellis = s.trellis := rfl
@[simp] theorem State.modFabPort_evq : (s.modFabPort f g).evq = s.evq := rfl
@[simp] theorem State.modFabPort_lockAt : (s.modFabPort f g).lockAt = s.lockAt := rfl
@[simp] theorem State.modFabPort_quiesceAt : (s.modFabPort f g).quiesceAt = s.quiesceAt := rfl
@[simp] theorem State.modFabPort_srv : (s.modFabPort f g).srv = s.srv := rfl
@[simp] theorem State.modFabPort_decs : (s.modFabPort f g).decs = s.decs := rfl
@[simp] theorem State.modFabPort_boot : (s.modFabPort f g).boot = s.boot := rfl
@[simp] theorem State.modFabPort_binds : (s.modFabPort f g).binds = s.binds := rfl
@[simp] theorem State.modFabPort_lostAt : (s.modFabPort f g).lostAt = s.lostAt := rfl
@[simp] theorem State.modFabPort_lostReqs : (s.modFabPort f g).lostReqs = s.lostReqs := rfl
@[simp] theorem State.modFabPort_capStale : (s.modFabPort f g).capStale = s.capStale := rfl

end

/-! `modCause` writes `causes`. -/

section
variable (s : State) (c i : Nat) (f : Cause → Cause)

@[simp] theorem State.modCause_pending : (s.modCause c i f).pending = s.pending := rfl
@[simp] theorem State.modCause_freeCtr : (s.modCause c i f).freeCtr = s.freeCtr := rfl
@[simp] theorem State.modCause_regs : (s.modCause c i f).regs = s.regs := rfl
@[simp] theorem State.modCause_written : (s.modCause c i f).written = s.written := rfl
@[simp] theorem State.modCause_mem : (s.modCause c i f).mem = s.mem := rfl
@[simp] theorem State.modCause_unpowered : (s.modCause c i f).unpowered = s.unpowered := rfl
@[simp] theorem State.modCause_lastPost : (s.modCause c i f).lastPost = s.lastPost := rfl
@[simp] theorem State.modCause_evSeq : (s.modCause c i f).evSeq = s.evSeq := rfl
@[simp] theorem State.modCause_events : (s.modCause c i f).events = s.events := rfl
@[simp] theorem State.modCause_cores : (s.modCause c i f).cores = s.cores := rfl
@[simp] theorem State.modCause_partial_ : (s.modCause c i f).partial_ = s.partial_ := rfl
@[simp] theorem State.modCause_bad : (s.modCause c i f).bad = s.bad := rfl
@[simp] theorem State.modCause_tlb : (s.modCause c i f).tlb = s.tlb := rfl
@[simp] theorem State.modCause_pageReqs : (s.modCause c i f).pageReqs = s.pageReqs := rfl
@[simp] theorem State.modCause_iommuFaults : (s.modCause c i f).iommuFaults = s.iommuFaults := rfl
@[simp] theorem State.modCause_net : (s.modCause c i f).net = s.net := rfl
@[simp] theorem State.modCause_out : (s.modCause c i f).out = s.out := rfl
@[simp] theorem State.modCause_imsic : (s.modCause c i f).imsic = s.imsic := rfl
@[simp] theorem State.modCause_hostFns : (s.modCause c i f).hostFns = s.hostFns := rfl
@[simp] theorem State.modCause_numVfs : (s.modCause c i f).numVfs = s.numVfs := rfl
@[simp] theorem State.modCause_buckets : (s.modCause c i f).buckets = s.buckets := rfl
@[simp] theorem State.modCause_cache : (s.modCause c i f).cache = s.cache := rfl
@[simp] theorem State.modCause_useCtr : (s.modCause c i f).useCtr = s.useCtr := rfl
@[simp] theorem State.modCause_prefetch : (s.modCause c i f).prefetch = s.prefetch := rfl
@[simp] theorem State.modCause_nearReqs : (s.modCause c i f).nearReqs = s.nearReqs := rfl
@[simp] theorem State.modCause_agents : (s.modCause c i f).agents = s.agents := rfl
@[simp] theorem State.modCause_dir : (s.modCause c i f).dir = s.dir := rfl
@[simp] theorem State.modCause_txns : (s.modCause c i f).txns = s.txns := rfl
@[simp] theorem State.modCause_dirQueue : (s.modCause c i f).dirQueue = s.dirQueue := rfl
@[simp] theorem State.modCause_invals : (s.modCause c i f).invals = s.invals := rfl
@[simp] theorem State.modCause_atc : (s.modCause c i f).atc = s.atc := rfl
@[simp] theorem State.modCause_atsReqs : (s.modCause c i f).atsReqs = s.atsReqs := rfl
@[simp] theorem State.modCause_srvTlb : (s.modCause c i f).srvTlb = s.srvTlb := rfl
@[simp] theorem State.modCause_txChans : (s.modCause c i f).txChans = s.txChans := rfl
@[simp] theorem State.modCause_rxChans : (s.modCause c i f).rxChans = s.rxChans := rfl
@[simp] theorem State.modCause_colls : (s.modCause c i f).colls = s.colls := rfl
@[simp] theorem State.modCause_collHigh : (s.modCause c i f).collHigh = s.collHigh := rfl
@[simp] theorem State.modCause_collDone : (s.modCause c i f).collDone = s.collDone := rfl
@[simp] theorem State.modCause_collNotes : (s.modCause c i f).collNotes = s.collNotes := rfl
@[simp] theorem State.modCause_collLocal : (s.modCause c i f).collLocal = s.collLocal := rfl
@[simp] theorem State.modCause_fabPorts : (s.modCause c i f).fabPorts = s.fabPorts := rfl
@[simp] theorem State.modCause_time : (s.modCause c i f).time = s.time := rfl
@[simp] theorem State.modCause_divAt : (s.modCause c i f).divAt = s.divAt := rfl
@[simp] theorem State.modCause_gddr : (s.modCause c i f).gddr = s.gddr := rfl
@[simp] theorem State.modCause_group : (s.modCause c i f).group = s.group := rfl
@[simp] theorem State.modCause_winCache : (s.modCause c i f).winCache = s.winCache := rfl
@[simp] theorem State.modCause_winDrops : (s.modCause c i f).winDrops = s.winDrops := rfl
@[simp] theorem State.modCause_winFlush : (s.modCause c i f).winFlush = s.winFlush := rfl
@[simp] theorem State.modCause_sensors : (s.modCause c i f).sensors = s.sensors := rfl
@[simp] theorem State.modCause_clamps : (s.modCause c i f).clamps = s.clamps := rfl
@[simp] theorem State.modCause_kept : (s.modCause c i f).kept = s.kept := rfl
@[simp] theorem State.modCause_reply : (s.modCause c i f).reply = s.reply := rfl
@[simp] theorem State.modCause_bays : (s.modCause c i f).bays = s.bays := rfl
@[simp] theorem State.modCause_migs : (s.modCause c i f).migs = s.migs := rfl
@[simp] theorem State.modCause_promos : (s.modCause c i f).promos = s.promos := rfl
@[simp] theorem State.modCause_promoNext : (s.modCause c i f).promoNext = s.promoNext := rfl
@[simp] theorem State.modCause_hot : (s.modCause c i f).hot = s.hot := rfl
@[simp] theorem State.modCause_cmds : (s.modCause c i f).cmds = s.cmds := rfl
@[simp] theorem State.modCause_queues : (s.modCause c i f).queues = s.queues := rfl
@[simp] theorem State.modCause_tasks : (s.modCause c i f).tasks = s.tasks := rfl
@[simp] theorem State.modCause_blends : (s.modCause c i f).blends = s.blends := rfl
@[simp] theorem State.modCause_stages : (s.modCause c i f).stages = s.stages := rfl
@[simp] theorem State.modCause_trellis : (s.modCause c i f).trellis = s.trellis := rfl
@[simp] theorem State.modCause_evq : (s.modCause c i f).evq = s.evq := rfl
@[simp] theorem State.modCause_lockAt : (s.modCause c i f).lockAt = s.lockAt := rfl
@[simp] theorem State.modCause_quiesceAt : (s.modCause c i f).quiesceAt = s.quiesceAt := rfl
@[simp] theorem State.modCause_srv : (s.modCause c i f).srv = s.srv := rfl
@[simp] theorem State.modCause_decs : (s.modCause c i f).decs = s.decs := rfl
@[simp] theorem State.modCause_boot : (s.modCause c i f).boot = s.boot := rfl
@[simp] theorem State.modCause_binds : (s.modCause c i f).binds = s.binds := rfl
@[simp] theorem State.modCause_lostAt : (s.modCause c i f).lostAt = s.lostAt := rfl
@[simp] theorem State.modCause_lostReqs : (s.modCause c i f).lostReqs = s.lostReqs := rfl
@[simp] theorem State.modCause_capStale : (s.modCause c i f).capStale = s.capStale := rfl

end

/-! `setStackState` writes `regs`. -/

section
variable (s : State) (p st : Nat)

@[simp] theorem State.setStackState_pending : (s.setStackState p st).pending = s.pending := rfl
@[simp] theorem State.setStackState_freeCtr : (s.setStackState p st).freeCtr = s.freeCtr := rfl
@[simp] theorem State.setStackState_written : (s.setStackState p st).written = s.written := rfl
@[simp] theorem State.setStackState_mem : (s.setStackState p st).mem = s.mem := rfl
@[simp] theorem State.setStackState_unpowered : (s.setStackState p st).unpowered = s.unpowered := rfl
@[simp] theorem State.setStackState_lastPost : (s.setStackState p st).lastPost = s.lastPost := rfl
@[simp] theorem State.setStackState_evSeq : (s.setStackState p st).evSeq = s.evSeq := rfl
@[simp] theorem State.setStackState_events : (s.setStackState p st).events = s.events := rfl
@[simp] theorem State.setStackState_cores : (s.setStackState p st).cores = s.cores := rfl
@[simp] theorem State.setStackState_partial_ : (s.setStackState p st).partial_ = s.partial_ := rfl
@[simp] theorem State.setStackState_bad : (s.setStackState p st).bad = s.bad := rfl
@[simp] theorem State.setStackState_tlb : (s.setStackState p st).tlb = s.tlb := rfl
@[simp] theorem State.setStackState_pageReqs : (s.setStackState p st).pageReqs = s.pageReqs := rfl
@[simp] theorem State.setStackState_iommuFaults : (s.setStackState p st).iommuFaults = s.iommuFaults := rfl
@[simp] theorem State.setStackState_net : (s.setStackState p st).net = s.net := rfl
@[simp] theorem State.setStackState_out : (s.setStackState p st).out = s.out := rfl
@[simp] theorem State.setStackState_imsic : (s.setStackState p st).imsic = s.imsic := rfl
@[simp] theorem State.setStackState_hostFns : (s.setStackState p st).hostFns = s.hostFns := rfl
@[simp] theorem State.setStackState_numVfs : (s.setStackState p st).numVfs = s.numVfs := rfl
@[simp] theorem State.setStackState_buckets : (s.setStackState p st).buckets = s.buckets := rfl
@[simp] theorem State.setStackState_cache : (s.setStackState p st).cache = s.cache := rfl
@[simp] theorem State.setStackState_useCtr : (s.setStackState p st).useCtr = s.useCtr := rfl
@[simp] theorem State.setStackState_prefetch : (s.setStackState p st).prefetch = s.prefetch := rfl
@[simp] theorem State.setStackState_nearReqs : (s.setStackState p st).nearReqs = s.nearReqs := rfl
@[simp] theorem State.setStackState_agents : (s.setStackState p st).agents = s.agents := rfl
@[simp] theorem State.setStackState_dir : (s.setStackState p st).dir = s.dir := rfl
@[simp] theorem State.setStackState_txns : (s.setStackState p st).txns = s.txns := rfl
@[simp] theorem State.setStackState_dirQueue : (s.setStackState p st).dirQueue = s.dirQueue := rfl
@[simp] theorem State.setStackState_invals : (s.setStackState p st).invals = s.invals := rfl
@[simp] theorem State.setStackState_atc : (s.setStackState p st).atc = s.atc := rfl
@[simp] theorem State.setStackState_atsReqs : (s.setStackState p st).atsReqs = s.atsReqs := rfl
@[simp] theorem State.setStackState_srvTlb : (s.setStackState p st).srvTlb = s.srvTlb := rfl
@[simp] theorem State.setStackState_txChans : (s.setStackState p st).txChans = s.txChans := rfl
@[simp] theorem State.setStackState_rxChans : (s.setStackState p st).rxChans = s.rxChans := rfl
@[simp] theorem State.setStackState_colls : (s.setStackState p st).colls = s.colls := rfl
@[simp] theorem State.setStackState_collHigh : (s.setStackState p st).collHigh = s.collHigh := rfl
@[simp] theorem State.setStackState_collDone : (s.setStackState p st).collDone = s.collDone := rfl
@[simp] theorem State.setStackState_collNotes : (s.setStackState p st).collNotes = s.collNotes := rfl
@[simp] theorem State.setStackState_collLocal : (s.setStackState p st).collLocal = s.collLocal := rfl
@[simp] theorem State.setStackState_fabPorts : (s.setStackState p st).fabPorts = s.fabPorts := rfl
@[simp] theorem State.setStackState_time : (s.setStackState p st).time = s.time := rfl
@[simp] theorem State.setStackState_divAt : (s.setStackState p st).divAt = s.divAt := rfl
@[simp] theorem State.setStackState_gddr : (s.setStackState p st).gddr = s.gddr := rfl
@[simp] theorem State.setStackState_group : (s.setStackState p st).group = s.group := rfl
@[simp] theorem State.setStackState_winCache : (s.setStackState p st).winCache = s.winCache := rfl
@[simp] theorem State.setStackState_winDrops : (s.setStackState p st).winDrops = s.winDrops := rfl
@[simp] theorem State.setStackState_winFlush : (s.setStackState p st).winFlush = s.winFlush := rfl
@[simp] theorem State.setStackState_causes : (s.setStackState p st).causes = s.causes := rfl
@[simp] theorem State.setStackState_sensors : (s.setStackState p st).sensors = s.sensors := rfl
@[simp] theorem State.setStackState_clamps : (s.setStackState p st).clamps = s.clamps := rfl
@[simp] theorem State.setStackState_kept : (s.setStackState p st).kept = s.kept := rfl
@[simp] theorem State.setStackState_reply : (s.setStackState p st).reply = s.reply := rfl
@[simp] theorem State.setStackState_bays : (s.setStackState p st).bays = s.bays := rfl
@[simp] theorem State.setStackState_migs : (s.setStackState p st).migs = s.migs := rfl
@[simp] theorem State.setStackState_promos : (s.setStackState p st).promos = s.promos := rfl
@[simp] theorem State.setStackState_promoNext : (s.setStackState p st).promoNext = s.promoNext := rfl
@[simp] theorem State.setStackState_hot : (s.setStackState p st).hot = s.hot := rfl
@[simp] theorem State.setStackState_cmds : (s.setStackState p st).cmds = s.cmds := rfl
@[simp] theorem State.setStackState_queues : (s.setStackState p st).queues = s.queues := rfl
@[simp] theorem State.setStackState_tasks : (s.setStackState p st).tasks = s.tasks := rfl
@[simp] theorem State.setStackState_blends : (s.setStackState p st).blends = s.blends := rfl
@[simp] theorem State.setStackState_stages : (s.setStackState p st).stages = s.stages := rfl
@[simp] theorem State.setStackState_trellis : (s.setStackState p st).trellis = s.trellis := rfl
@[simp] theorem State.setStackState_evq : (s.setStackState p st).evq = s.evq := rfl
@[simp] theorem State.setStackState_lockAt : (s.setStackState p st).lockAt = s.lockAt := rfl
@[simp] theorem State.setStackState_quiesceAt : (s.setStackState p st).quiesceAt = s.quiesceAt := rfl
@[simp] theorem State.setStackState_srv : (s.setStackState p st).srv = s.srv := rfl
@[simp] theorem State.setStackState_decs : (s.setStackState p st).decs = s.decs := rfl
@[simp] theorem State.setStackState_boot : (s.setStackState p st).boot = s.boot := rfl
@[simp] theorem State.setStackState_binds : (s.setStackState p st).binds = s.binds := rfl
@[simp] theorem State.setStackState_lostAt : (s.setStackState p st).lostAt = s.lostAt := rfl
@[simp] theorem State.setStackState_lostReqs : (s.setStackState p st).lostReqs = s.lostReqs := rfl
@[simp] theorem State.setStackState_capStale : (s.setStackState p st).capStale = s.capStale := rfl

end

/-! `withPending` writes `pending`. -/

section
variable (s : State) (q : List Instr)

@[simp] theorem State.withPending_freeCtr : (s.withPending q).freeCtr = s.freeCtr := rfl
@[simp] theorem State.withPending_regs : (s.withPending q).regs = s.regs := rfl
@[simp] theorem State.withPending_written : (s.withPending q).written = s.written := rfl
@[simp] theorem State.withPending_mem : (s.withPending q).mem = s.mem := rfl
@[simp] theorem State.withPending_unpowered : (s.withPending q).unpowered = s.unpowered := rfl
@[simp] theorem State.withPending_lastPost : (s.withPending q).lastPost = s.lastPost := rfl
@[simp] theorem State.withPending_evSeq : (s.withPending q).evSeq = s.evSeq := rfl
@[simp] theorem State.withPending_events : (s.withPending q).events = s.events := rfl
@[simp] theorem State.withPending_cores : (s.withPending q).cores = s.cores := rfl
@[simp] theorem State.withPending_partial_ : (s.withPending q).partial_ = s.partial_ := rfl
@[simp] theorem State.withPending_bad : (s.withPending q).bad = s.bad := rfl
@[simp] theorem State.withPending_tlb : (s.withPending q).tlb = s.tlb := rfl
@[simp] theorem State.withPending_pageReqs : (s.withPending q).pageReqs = s.pageReqs := rfl
@[simp] theorem State.withPending_iommuFaults : (s.withPending q).iommuFaults = s.iommuFaults := rfl
@[simp] theorem State.withPending_net : (s.withPending q).net = s.net := rfl
@[simp] theorem State.withPending_out : (s.withPending q).out = s.out := rfl
@[simp] theorem State.withPending_imsic : (s.withPending q).imsic = s.imsic := rfl
@[simp] theorem State.withPending_hostFns : (s.withPending q).hostFns = s.hostFns := rfl
@[simp] theorem State.withPending_numVfs : (s.withPending q).numVfs = s.numVfs := rfl
@[simp] theorem State.withPending_buckets : (s.withPending q).buckets = s.buckets := rfl
@[simp] theorem State.withPending_cache : (s.withPending q).cache = s.cache := rfl
@[simp] theorem State.withPending_useCtr : (s.withPending q).useCtr = s.useCtr := rfl
@[simp] theorem State.withPending_prefetch : (s.withPending q).prefetch = s.prefetch := rfl
@[simp] theorem State.withPending_nearReqs : (s.withPending q).nearReqs = s.nearReqs := rfl
@[simp] theorem State.withPending_agents : (s.withPending q).agents = s.agents := rfl
@[simp] theorem State.withPending_dir : (s.withPending q).dir = s.dir := rfl
@[simp] theorem State.withPending_txns : (s.withPending q).txns = s.txns := rfl
@[simp] theorem State.withPending_dirQueue : (s.withPending q).dirQueue = s.dirQueue := rfl
@[simp] theorem State.withPending_invals : (s.withPending q).invals = s.invals := rfl
@[simp] theorem State.withPending_atc : (s.withPending q).atc = s.atc := rfl
@[simp] theorem State.withPending_atsReqs : (s.withPending q).atsReqs = s.atsReqs := rfl
@[simp] theorem State.withPending_srvTlb : (s.withPending q).srvTlb = s.srvTlb := rfl
@[simp] theorem State.withPending_txChans : (s.withPending q).txChans = s.txChans := rfl
@[simp] theorem State.withPending_rxChans : (s.withPending q).rxChans = s.rxChans := rfl
@[simp] theorem State.withPending_colls : (s.withPending q).colls = s.colls := rfl
@[simp] theorem State.withPending_collHigh : (s.withPending q).collHigh = s.collHigh := rfl
@[simp] theorem State.withPending_collDone : (s.withPending q).collDone = s.collDone := rfl
@[simp] theorem State.withPending_collNotes : (s.withPending q).collNotes = s.collNotes := rfl
@[simp] theorem State.withPending_collLocal : (s.withPending q).collLocal = s.collLocal := rfl
@[simp] theorem State.withPending_fabPorts : (s.withPending q).fabPorts = s.fabPorts := rfl
@[simp] theorem State.withPending_time : (s.withPending q).time = s.time := rfl
@[simp] theorem State.withPending_divAt : (s.withPending q).divAt = s.divAt := rfl
@[simp] theorem State.withPending_gddr : (s.withPending q).gddr = s.gddr := rfl
@[simp] theorem State.withPending_group : (s.withPending q).group = s.group := rfl
@[simp] theorem State.withPending_winCache : (s.withPending q).winCache = s.winCache := rfl
@[simp] theorem State.withPending_winDrops : (s.withPending q).winDrops = s.winDrops := rfl
@[simp] theorem State.withPending_winFlush : (s.withPending q).winFlush = s.winFlush := rfl
@[simp] theorem State.withPending_causes : (s.withPending q).causes = s.causes := rfl
@[simp] theorem State.withPending_sensors : (s.withPending q).sensors = s.sensors := rfl
@[simp] theorem State.withPending_clamps : (s.withPending q).clamps = s.clamps := rfl
@[simp] theorem State.withPending_kept : (s.withPending q).kept = s.kept := rfl
@[simp] theorem State.withPending_reply : (s.withPending q).reply = s.reply := rfl
@[simp] theorem State.withPending_bays : (s.withPending q).bays = s.bays := rfl
@[simp] theorem State.withPending_migs : (s.withPending q).migs = s.migs := rfl
@[simp] theorem State.withPending_promos : (s.withPending q).promos = s.promos := rfl
@[simp] theorem State.withPending_promoNext : (s.withPending q).promoNext = s.promoNext := rfl
@[simp] theorem State.withPending_hot : (s.withPending q).hot = s.hot := rfl
@[simp] theorem State.withPending_cmds : (s.withPending q).cmds = s.cmds := rfl
@[simp] theorem State.withPending_queues : (s.withPending q).queues = s.queues := rfl
@[simp] theorem State.withPending_tasks : (s.withPending q).tasks = s.tasks := rfl
@[simp] theorem State.withPending_blends : (s.withPending q).blends = s.blends := rfl
@[simp] theorem State.withPending_stages : (s.withPending q).stages = s.stages := rfl
@[simp] theorem State.withPending_trellis : (s.withPending q).trellis = s.trellis := rfl
@[simp] theorem State.withPending_evq : (s.withPending q).evq = s.evq := rfl
@[simp] theorem State.withPending_lockAt : (s.withPending q).lockAt = s.lockAt := rfl
@[simp] theorem State.withPending_quiesceAt : (s.withPending q).quiesceAt = s.quiesceAt := rfl
@[simp] theorem State.withPending_srv : (s.withPending q).srv = s.srv := rfl
@[simp] theorem State.withPending_decs : (s.withPending q).decs = s.decs := rfl
@[simp] theorem State.withPending_boot : (s.withPending q).boot = s.boot := rfl
@[simp] theorem State.withPending_binds : (s.withPending q).binds = s.binds := rfl
@[simp] theorem State.withPending_lostAt : (s.withPending q).lostAt = s.lostAt := rfl
@[simp] theorem State.withPending_lostReqs : (s.withPending q).lostReqs = s.lostReqs := rfl
@[simp] theorem State.withPending_capStale : (s.withPending q).capStale = s.capStale := rfl

end

/-! `setAgent` writes `agents`. -/

section
variable (s : State) (agent line : Nat) (x : LineState)

@[simp] theorem State.setAgent_pending : (s.setAgent agent line x).pending = s.pending := rfl
@[simp] theorem State.setAgent_freeCtr : (s.setAgent agent line x).freeCtr = s.freeCtr := rfl
@[simp] theorem State.setAgent_regs : (s.setAgent agent line x).regs = s.regs := rfl
@[simp] theorem State.setAgent_written : (s.setAgent agent line x).written = s.written := rfl
@[simp] theorem State.setAgent_mem : (s.setAgent agent line x).mem = s.mem := rfl
@[simp] theorem State.setAgent_unpowered : (s.setAgent agent line x).unpowered = s.unpowered := rfl
@[simp] theorem State.setAgent_lastPost : (s.setAgent agent line x).lastPost = s.lastPost := rfl
@[simp] theorem State.setAgent_evSeq : (s.setAgent agent line x).evSeq = s.evSeq := rfl
@[simp] theorem State.setAgent_events : (s.setAgent agent line x).events = s.events := rfl
@[simp] theorem State.setAgent_cores : (s.setAgent agent line x).cores = s.cores := rfl
@[simp] theorem State.setAgent_partial_ : (s.setAgent agent line x).partial_ = s.partial_ := rfl
@[simp] theorem State.setAgent_bad : (s.setAgent agent line x).bad = s.bad := rfl
@[simp] theorem State.setAgent_tlb : (s.setAgent agent line x).tlb = s.tlb := rfl
@[simp] theorem State.setAgent_pageReqs : (s.setAgent agent line x).pageReqs = s.pageReqs := rfl
@[simp] theorem State.setAgent_iommuFaults : (s.setAgent agent line x).iommuFaults = s.iommuFaults := rfl
@[simp] theorem State.setAgent_net : (s.setAgent agent line x).net = s.net := rfl
@[simp] theorem State.setAgent_out : (s.setAgent agent line x).out = s.out := rfl
@[simp] theorem State.setAgent_imsic : (s.setAgent agent line x).imsic = s.imsic := rfl
@[simp] theorem State.setAgent_hostFns : (s.setAgent agent line x).hostFns = s.hostFns := rfl
@[simp] theorem State.setAgent_numVfs : (s.setAgent agent line x).numVfs = s.numVfs := rfl
@[simp] theorem State.setAgent_buckets : (s.setAgent agent line x).buckets = s.buckets := rfl
@[simp] theorem State.setAgent_cache : (s.setAgent agent line x).cache = s.cache := rfl
@[simp] theorem State.setAgent_useCtr : (s.setAgent agent line x).useCtr = s.useCtr := rfl
@[simp] theorem State.setAgent_prefetch : (s.setAgent agent line x).prefetch = s.prefetch := rfl
@[simp] theorem State.setAgent_nearReqs : (s.setAgent agent line x).nearReqs = s.nearReqs := rfl
@[simp] theorem State.setAgent_dir : (s.setAgent agent line x).dir = s.dir := rfl
@[simp] theorem State.setAgent_txns : (s.setAgent agent line x).txns = s.txns := rfl
@[simp] theorem State.setAgent_dirQueue : (s.setAgent agent line x).dirQueue = s.dirQueue := rfl
@[simp] theorem State.setAgent_invals : (s.setAgent agent line x).invals = s.invals := rfl
@[simp] theorem State.setAgent_atc : (s.setAgent agent line x).atc = s.atc := rfl
@[simp] theorem State.setAgent_atsReqs : (s.setAgent agent line x).atsReqs = s.atsReqs := rfl
@[simp] theorem State.setAgent_srvTlb : (s.setAgent agent line x).srvTlb = s.srvTlb := rfl
@[simp] theorem State.setAgent_txChans : (s.setAgent agent line x).txChans = s.txChans := rfl
@[simp] theorem State.setAgent_rxChans : (s.setAgent agent line x).rxChans = s.rxChans := rfl
@[simp] theorem State.setAgent_colls : (s.setAgent agent line x).colls = s.colls := rfl
@[simp] theorem State.setAgent_collHigh : (s.setAgent agent line x).collHigh = s.collHigh := rfl
@[simp] theorem State.setAgent_collDone : (s.setAgent agent line x).collDone = s.collDone := rfl
@[simp] theorem State.setAgent_collNotes : (s.setAgent agent line x).collNotes = s.collNotes := rfl
@[simp] theorem State.setAgent_collLocal : (s.setAgent agent line x).collLocal = s.collLocal := rfl
@[simp] theorem State.setAgent_fabPorts : (s.setAgent agent line x).fabPorts = s.fabPorts := rfl
@[simp] theorem State.setAgent_time : (s.setAgent agent line x).time = s.time := rfl
@[simp] theorem State.setAgent_divAt : (s.setAgent agent line x).divAt = s.divAt := rfl
@[simp] theorem State.setAgent_gddr : (s.setAgent agent line x).gddr = s.gddr := rfl
@[simp] theorem State.setAgent_group : (s.setAgent agent line x).group = s.group := rfl
@[simp] theorem State.setAgent_winCache : (s.setAgent agent line x).winCache = s.winCache := rfl
@[simp] theorem State.setAgent_winDrops : (s.setAgent agent line x).winDrops = s.winDrops := rfl
@[simp] theorem State.setAgent_winFlush : (s.setAgent agent line x).winFlush = s.winFlush := rfl
@[simp] theorem State.setAgent_causes : (s.setAgent agent line x).causes = s.causes := rfl
@[simp] theorem State.setAgent_sensors : (s.setAgent agent line x).sensors = s.sensors := rfl
@[simp] theorem State.setAgent_clamps : (s.setAgent agent line x).clamps = s.clamps := rfl
@[simp] theorem State.setAgent_kept : (s.setAgent agent line x).kept = s.kept := rfl
@[simp] theorem State.setAgent_reply : (s.setAgent agent line x).reply = s.reply := rfl
@[simp] theorem State.setAgent_bays : (s.setAgent agent line x).bays = s.bays := rfl
@[simp] theorem State.setAgent_migs : (s.setAgent agent line x).migs = s.migs := rfl
@[simp] theorem State.setAgent_promos : (s.setAgent agent line x).promos = s.promos := rfl
@[simp] theorem State.setAgent_promoNext : (s.setAgent agent line x).promoNext = s.promoNext := rfl
@[simp] theorem State.setAgent_hot : (s.setAgent agent line x).hot = s.hot := rfl
@[simp] theorem State.setAgent_cmds : (s.setAgent agent line x).cmds = s.cmds := rfl
@[simp] theorem State.setAgent_queues : (s.setAgent agent line x).queues = s.queues := rfl
@[simp] theorem State.setAgent_tasks : (s.setAgent agent line x).tasks = s.tasks := rfl
@[simp] theorem State.setAgent_blends : (s.setAgent agent line x).blends = s.blends := rfl
@[simp] theorem State.setAgent_stages : (s.setAgent agent line x).stages = s.stages := rfl
@[simp] theorem State.setAgent_trellis : (s.setAgent agent line x).trellis = s.trellis := rfl
@[simp] theorem State.setAgent_evq : (s.setAgent agent line x).evq = s.evq := rfl
@[simp] theorem State.setAgent_lockAt : (s.setAgent agent line x).lockAt = s.lockAt := rfl
@[simp] theorem State.setAgent_quiesceAt : (s.setAgent agent line x).quiesceAt = s.quiesceAt := rfl
@[simp] theorem State.setAgent_srv : (s.setAgent agent line x).srv = s.srv := rfl
@[simp] theorem State.setAgent_decs : (s.setAgent agent line x).decs = s.decs := rfl
@[simp] theorem State.setAgent_boot : (s.setAgent agent line x).boot = s.boot := rfl
@[simp] theorem State.setAgent_binds : (s.setAgent agent line x).binds = s.binds := rfl
@[simp] theorem State.setAgent_lostAt : (s.setAgent agent line x).lostAt = s.lostAt := rfl
@[simp] theorem State.setAgent_lostReqs : (s.setAgent agent line x).lostReqs = s.lostReqs := rfl
@[simp] theorem State.setAgent_capStale : (s.setAgent agent line x).capStale = s.capStale := rfl

end

end Sys2Proof.Machine
end

