-- ==== Sys2Proof/WellFormed.lean ====
section
/-!
DEFINITION. Well-formed commands: every operand names something that the module has. The meanings are total, and a command that
is not well-formed has an effect that no rule of the spec speaks of.
-/
namespace Sys2Proof

open Machine

/-- A port identity names a function or partition that exists (Table 21-7). -/
def Ident.wf : Ident → Bool
  | .hostVf p => decide (p < 64)
  | .server p => decide (p < 64)
  | .coreTask p => decide (p < 64)
  | _ => true

/-- The operands of a command are in the ranges that the spec gives them. -/
def Instr.wf : Instr → Bool
  | .aluReg c => decide (c < coreCount)
  | .aluImm c => decide (c < coreCount)
  | .mul c => decide (c < coreCount)
  | .li c => decide (c < coreCount)
  | .lih c => decide (c < coreCount)
  | .branch c => decide (c < coreCount)
  | .jal c => decide (c < coreCount)
  | .jalr c => decide (c < coreCount)
  | .vsetvl c => decide (c < coreCount)
  | .vaddVsubVmul c => decide (c < coreCount)
  | .vandVorVxor c => decide (c < coreCount)
  | .vshift c => decide (c < coreCount)
  | .vcmp c => decide (c < coreCount)
  | .vfcmp c => decide (c < coreCount)
  | .klogic c => decide (c < coreCount)
  | .vfaddVfsubVfmulVfma c => decide (c < coreCount)
  | .vfminVfmax c => decide (c < coreCount)
  | .vapprox c => decide (c < coreCount)
  | .vcvt c => decide (c < coreCount)
  | .vqMx c => decide (c < coreCount)
  | .vqTs4 c => decide (c < coreCount)
  | .vqG8 c => decide (c < coreCount)
  | .vqG8l c => decide (c < coreCount)
  | .vdq c => decide (c < coreCount)
  | .vred c => decide (c < coreCount)
  | .vperm c => decide (c < coreCount)
  | .vslide c => decide (c < coreCount)
  | .vbcast c => decide (c < coreCount)
  | .vext c => decide (c < coreCount)
  | .compress c => decide (c < coreCount)
  | .expand c => decide (c < coreCount)
  | .maskSummary c => decide (c < coreCount)
  | .maxidxMinidx c => decide (c < coreCount)
  | .mmaK16n128 c => decide (c < coreCount)
  | .mmaK16n128T c => decide (c < coreCount)
  | .mmaK32n64 c => decide (c < coreCount)
  | .mmaK16n64 c => decide (c < coreCount)
  | .mmaK8n64 c => decide (c < coreCount)
  | .mmaK16n32 c => decide (c < coreCount)
  | .mlw c => decide (c < coreCount)
  | .msw c => decide (c < coreCount)
  | .mrd c => decide (c < coreCount)
  | .ldL c _ => decide (c < coreCount)
  | .stL c => decide (c < coreCount)
  | .vld c _ => decide (c < coreCount)
  | .vst c => decide (c < coreCount)
  | .ldG c => decide (c < coreCount)
  | .stG c => decide (c < coreCount)
  | .amoG c => decide (c < coreCount)
  | .gatherG c => decide (c < coreCount)
  | .scatterG c => decide (c < coreCount)
  | .xferL c => decide (c < coreCount)
  | .xferS c => decide (c < coreCount)
  | .send c => decide (c < coreCount)
  | .recv c => decide (c < coreCount)
  | .sendH c => decide (c < coreCount)
  | .arm c => decide (c < coreCount)
  | .nop c => decide (c < coreCount)
  | .bar c => decide (c < coreCount)
  | .twait c => decide (c < coreCount)
  | .syncI c => decide (c < coreCount)
  | .evt c => decide (c < coreCount)
  | .crd c => decide (c < coreCount)
  | .cwr c => decide (c < coreCount)
  | .endProg c => decide (c < coreCount)
  | .barRelease c => decide (c < coreCount)
  | .instrFetch c line _ => decide (c < coreCount) && decide (line < 4096)
  | .mmaStart c _ => decide (c < coreCount)
  | .mlwLoadDone c _ => decide (c < coreCount)
  | .portRowWaitEnd c => decide (c < coreCount)
  | .streamUnitArrive c port _ => decide (c < coreCount) && decide (1 ≤ port ∧ port ≤ 4)
  | .creditReturn c port => decide (c < coreCount) && decide (1 ≤ port ∧ port ≤ 4)
  | .sendHArrival c _ => decide (c < coreCount)
  | .transferBlockDone c t _ _ => decide (c < coreCount) && decide (t < 16)
  | .globalAccessDone c _ epoch => decide (c < coreCount) && decide (epoch < 65536)
  | .hubProxyRetry c => decide (c < coreCount)
  | .portStall c _ => decide (c < coreCount)
  | .coreDrainDone c => decide (c < coreCount)
  | .keepLevelFall c a => decide (c < coreCount) && decide (a < 2)
  | .keepRampStep c a => decide (c < coreCount) && decide (a < 2)
  | .keepCtlWrite i st d _ => i.wf && decide (st < 72) && decide (d < 4)
  | .kernel q seq => decide (q < 1024) && decide (seq < 2 ^ 32)
  | .kernelLaunch q seq => decide (q < 1024) && decide (seq < 2 ^ 32)
  | .taskPreempt q seq => decide (q < 1024) && decide (seq < 2 ^ 32)
  | .cheapWindowExpiry q seq => decide (q < 1024) && decide (seq < 2 ^ 32)
  | .sliceExpiry q seq => decide (q < 1024) && decide (seq < 2 ^ 32)
  | .coreSave c => decide (c < coreCount)
  | .taskRestore q seq => decide (q < 1024) && decide (seq < 2 ^ 32)
  | .taskFail c _ => decide (c < coreCount)
  | .preemptReqGo i stack _ => i.wf && decide (stack < 72)
  | .rtReserveWrite i stack _ => i.wf && decide (stack < 72)
  | .move q seq _ _ _ => decide (q < 1024) && decide (seq < 2 ^ 32)
  | .inlineWrite q seq _ _ => decide (q < 1024) && decide (seq < 2 ^ 32)
  | .event q seq => decide (q < 1024) && decide (seq < 2 ^ 32)
  | .query q seq => decide (q < 1024) && decide (seq < 2 ^ 32)
  | .fence q seq => decide (q < 1024) && decide (seq < 2 ^ 32)
  | .barrier q seq => decide (q < 1024) && decide (seq < 2 ^ 32)
  | .collective q seq => decide (q < 1024) && decide (seq < 2 ^ 32)
  | .blendUpdate q seq => decide (q < 1024) && decide (seq < 2 ^ 32)
  | .blendCommit q seq => decide (q < 1024) && decide (seq < 2 ^ 32)
  | .rack q seq => decide (q < 1024) && decide (seq < 2 ^ 32)
  | .commandFetch q => decide (q < 1024)
  | .engineCmdActivate q seq => decide (q < 1024) && decide (seq < 2 ^ 32)
  | .refusedRetry q seq => decide (q < 1024) && decide (seq < 2 ^ 32)
  | .sqTail i q _ => i.wf && decide (q < 1024)
  | .cqHead i q _ => i.wf && decide (q < 1024)
  | .qcfgEnableSet i q _ => i.wf && decide (q < 1024)
  | .qcfgEnableClear i q _ => i.wf && decide (q < 1024)
  | .qbindWrite i q _ => i.wf && decide (q < 1024)
  | .partCtlWrite i p _ => i.wf && decide (p < 64)
  | .partStacksWrite i p _ => i.wf && decide (p < 64)
  | .partSrvWrite i p j _ => i.wf && decide (p < 64) && decide (j < 4)
  | .manifestEntryDone q seq stack _ _ => decide (q < 1024) && decide (seq < 2 ^ 32) && decide (stack < 72)
  | .roundFailed q seq stack _ status => decide (q < 1024) && decide (seq < 2 ^ 32) && decide (stack < 72) && decide (status < 256)
  | .roundStallCycle q seq stack _ => decide (q < 1024) && decide (seq < 2 ^ 32) && decide (stack < 72)
  | .roundStall q seq stack _ => decide (q < 1024) && decide (seq < 2 ^ 32) && decide (stack < 72)
  | .collCompletionNotify stack jobTag seq => decide (stack < 72) && decide (jobTag < 4096) && decide (seq < 2 ^ 32)
  | .blendOpRun stack _ => decide (stack < 72)
  | .progReturn stack _ _ _ => decide (stack < 72)
  | .progTimeout stack _ => decide (stack < 72)
  | .cacheAccess stack _ _ _ _ _ part _ _ pasid va _ => decide (stack < 72) && decide (part < 64) && decide (pasid < 2 ^ 20) && decide (va < 2 ^ 64)
  | .keepReleaseGo i stack _ => i.wf && decide (stack < 72)
  | .keepSweepDone stack => decide (stack < 72)
  | .nearWaysWrite i stack _ => i.wf && decide (stack < 72)
  | .prefetchIssue stack _ => decide (stack < 72)
  | .streamEntryExpire stack _ _ => decide (stack < 72)
  | .prefetchDepthAdjust stack => decide (stack < 72)
  | .gddrAccess st off _ _ _ _ _ => decide (st < 72) && decide (off < 0x600000000)
  | .gddrRetryAttempt st g _ _ => decide (st < 72) && decide (g < 6)
  | .gddrRetrain st g => decide (st < 72) && decide (g < 6)
  | .gddrTempReading st g _ => decide (st < 72) && decide (g < 6)
  | .gddrRefresh st g => decide (st < 72) && decide (g < 6)
  | .gddrScrub st off _ => decide (st < 72) && decide (off < 0x600000000)
  | .lineRewrite st g => decide (st < 72) && decide (g < 6)
  | .regRefill page _ => (pageKind page).isSome
  | .regIndexWrite i page _ => i.wf && (pageKind page).isSome
  | .regDataWrite i page _ => i.wf && (pageKind page).isSome
  | .cellarAccess b _ _ _ part _ pasid va _ _ => decide (b < 16) && decide (part < 64) && decide (pasid < 2 ^ 20) && decide (va < 2 ^ 64)
  | .bayReqTimeout b => decide (b < 16)
  | .mbxOlmIdentify i b _ => i.wf && decide (b < 16)
  | .mbxHealth i b _ => i.wf && decide (b < 16)
  | .mbxWear i b _ => i.wf && decide (b < 16)
  | .mbxTemperature i b _ => i.wf && decide (b < 16)
  | .mbxEvacBegin i b _ => i.wf && decide (b < 16)
  | .mbxEvacEnd i b _ => i.wf && decide (b < 16)
  | .mbxRemovalReady i b _ => i.wf && decide (b < 16)
  | .mbxReservedOpcode i b _ _ => i.wf && decide (b < 16)
  | .mbxResponse b _ _ => decide (b < 16)
  | .bayHealthPoll b => decide (b < 16)
  | .bayAdmit i b epoch => i.wf && decide (b < 16) && decide (epoch < 65536)
  | .bayEvac i b epoch => i.wf && decide (b < 16) && decide (epoch < 65536)
  | .bayEvacCancel i b epoch => i.wf && decide (b < 16) && decide (epoch < 65536)
  | .evacCopyDone b => decide (b < 16)
  | .poolGive i page _ => i.wf && (pageKind page).isSome
  | .pageMigrate stack _ _ _ => decide (stack < 72)
  | .migrateDeferRetry stack _ => decide (stack < 72)
  | .hotWindowRestart stack => decide (stack < 72)
  | .mirrorResync i b j _ => i.wf && decide (b < 16) && decide (j < 8)
  | .mirrorResyncDone b j => decide (b < 16) && decide (j < 8)
  | .baySurpriseRemoval b _ => decide (b < 16)
  | .rdShared agent line => decide (agent < 384) && decide (line < 2 ^ 45)
  | .rdPf agent line => decide (agent < 384) && decide (line < 2 ^ 45)
  | .rdUnique agent line => decide (agent < 384) && decide (line < 2 ^ 45)
  | .upgrade agent line => decide (agent < 384) && decide (line < 2 ^ 45)
  | .rdOnce agent line _ _ => decide (agent < 384) && decide (line < 2 ^ 45)
  | .wrFull agent line _ => decide (agent < 384) && decide (line < 2 ^ 45)
  | .wrPtl agent line _ _ => decide (agent < 384) && decide (line < 2 ^ 45)
  | .atomic agent line _ _ _ _ _ => decide (agent < 384) && decide (line < 2 ^ 45)
  | .snpFwdS agent line _ => decide (agent < 384) && decide (line < 2 ^ 45)
  | .snpFwdU agent line _ => decide (agent < 384) && decide (line < 2 ^ 45)
  | .snpInv agent line => decide (agent < 384) && decide (line < 2 ^ 45)
  | .snpRecall agent line => decide (agent < 384) && decide (line < 2 ^ 45)
  | .invAck agent line => decide (agent < 384) && decide (line < 2 ^ 45)
  | .fwdAck agent line => decide (agent < 384) && decide (line < 2 ^ 45)
  | .rspMiss agent line => decide (agent < 384) && decide (line < 2 ^ 45)
  | .evictClean agent line => decide (agent < 384) && decide (line < 2 ^ 45)
  | .datWb agent line _ => decide (agent < 384) && decide (line < 2 ^ 45)
  | .grant agent line => decide (agent < 384) && decide (line < 2 ^ 45)
  | .comp agent line status => decide (agent < 384) && decide (line < 2 ^ 45) && decide (status < 256)
  | .pfDrop agent line => decide (agent < 384) && decide (line < 2 ^ 45)
  | .compAck agent line => decide (agent < 384) && decide (line < 2 ^ 45)
  | .datS agent line status => decide (agent < 384) && decide (line < 2 ^ 45) && decide (status < 256)
  | .datE agent line status => decide (agent < 384) && decide (line < 2 ^ 45) && decide (status < 256)
  | .datM agent line status => decide (agent < 384) && decide (line < 2 ^ 45) && decide (status < 256)
  | .datIo agent line status => decide (agent < 384) && decide (line < 2 ^ 45) && decide (status < 256)
  | .translationRequest stack dev pasid va _ => decide (stack < 72) && decide (dev < 64) && decide (pasid < 2 ^ 20) && decide (va < 2 ^ 64)
  | .translationReply stack dev pasid vpage => decide (stack < 72) && decide (dev < 64) && decide (pasid < 2 ^ 20) && decide (vpage < 2 ^ 52)
  | .atsPrgr dev pasid vpage _ => decide (dev < 64) && decide (pasid < 2 ^ 20) && decide (vpage < 2 ^ 52)
  | .iotinval _ _ _ _ _ _ => true
  | .iofenceC _ _ _ => true
  | .invSlow _ => true
  | .translationPrefetch stack dev pasid va _ _ => decide (stack < 72) && decide (dev < 64) && decide (pasid < 2 ^ 20) && decide (va < 2 ^ 64)
  | .atsTranslationRequest part _ _ => decide (part < 64)
  | .translationCompletion fn _ _ _ _ _ => decide (fn < 65)
  | .prgResponse fn _ _ => decide (fn < 65)
  | .atsInvalidateRequest fn _ _ => decide (fn < 65)
  | .shootdown part vpage => decide (part < 64) && decide (vpage < 2 ^ 52)
  | .flitReceive stack d _ => decide (stack < 72) && decide (d < 4)
  | .trellisLinkDown stack d => decide (stack < 72) && decide (d < 4)
  | .packetRoute node _ _ _ => decide (node < 80)
  | .arbitration page _ _ _ => (pageKind page).isSome
  | .prioWrite i page _ _ => i.wf && (pageKind page).isSome
  | .arbShareWrite i page _ _ => i.wf && (pageKind page).isSome
  | .arbStarved page _ _ => (pageKind page).isSome
  | .routeRebuild _ => true
  | .injectHoldSet i stack => i.wf && decide (stack < 72)
  | .injectHoldClear i stack => i.wf && decide (stack < 72)
  | .routerLoss p _ => decide (p < 72)
  | .bar0Access fn _ _ _ => decide (fn < 65)
  | .bar4Doorbell fn _ _ _ _ => decide (fn < 65)
  | .windowWrite p _ _ => decide (p < 64)
  | .windowFlush p slot => decide (p < 64) && decide (slot < 64)
  | .msixSend fn _ => decide (fn < 65)
  | .msixUnmask fn _ => decide (fn < 65)
  | .hostReadCompletion _ _ _ _ _ => true
  | .hostCompletionTimeout _ _ _ => true
  | .hostStall q seq => decide (q < 1024) && decide (seq < 2 ^ 32)
  | .hostLoss _ => true
  | .p7HostLoss _ _ => true
  | .hostLinkUp _ _ _ _ _ => true
  | .vfFlr p => decide (p < 64)
  | .linkRecovery => true
  | .hostAttach i _ => i.wf
  | .hostDetach i _ => i.wf
  | .winReload i _ => i.wf
  | .numvfsSetP7 _ _ => true
  | .fabricFlitReceive f _ _ _ => decide (f < 32)
  | .fabricAckTimer f => decide (f < 32)
  | .fabricSilence f => decide (f < 32)
  | .laneSignalLoss f => decide (f < 32)
  | .bringupRestart f => decide (f < 32)
  | .bringupStageDone f => decide (f < 32)
  | .bringupTimeout f => decide (f < 32)
  | .vintageMessage f _ => decide (f < 32)
  | .vintageResend f => decide (f < 32)
  | .write f _ => decide (f < 32)
  | .readReq f _ => decide (f < 32)
  | .readRsp f _ => decide (f < 32)
  | .fabricAtomic f _ => decide (f < 32)
  | .atomicRsp f _ => decide (f < 32)
  | .eventPost f _ => decide (f < 32)
  | .collStep f _ => decide (f < 32)
  | .ack f _ => decide (f < 32)
  | .nak f _ => decide (f < 32)
  | .straggle f _ => decide (f < 32)
  | .abort f _ => decide (f < 32)
  | .groupCmd f _ => decide (f < 32)
  | .groupCpl f _ => decide (f < 32)
  | .groupCmdResend q seq => decide (q < 1024) && decide (seq < 2 ^ 32)
  | .hostFwdReq f _ => decide (f < 32)
  | .hostFwdRsp f _ => decide (f < 32)
  | .winWrite f _ => decide (f < 32)
  | .winFlush f _ => decide (f < 32)
  | .groupHello f _ => decide (f < 32)
  | .groupHelloTimer => true
  | .groupFormTimeout => true
  | .groupForm i _ => i.wf
  | .retxTimer _ _ port => decide (port < 32)
  | .collStepResend q seq => decide (q < 1024) && decide (seq < 2 ^ 32)
  | .collTimeout q seq => decide (q < 1024) && decide (seq < 2 ^ 32)
  | .moduleCfgWrite i _ => i.wf
  | .streamStart i n k => i.wf && decide (n < 4) && decide (k < 16)
  | .streamStop i n k => i.wf && decide (n < 4) && decide (k < 16)
  | .streamRestart i n k epoch _ => i.wf && decide (n < 4) && decide (k < 16) && decide (epoch < 65536)
  | .reqTail i n k _ => i.wf && decide (n < 4) && decide (k < 16)
  | .recordProcess n k => decide (n < 4) && decide (k < 16)
  | .srvLoadError c _ va status => decide (c < 256) && decide (va < 2 ^ 64) && decide (status < 256)
  | .srvStoreLost c _ status => decide (c < 256) && decide (status < 256)
  | .cbo c _ va _ => decide (c < 256) && decide (va < 2 ^ 64)
  | .srvFenceIo c _ _ => decide (c < 256)
  | .imsicWrite _ _ _ _ => true
  | .msiUnmask part _ => decide (part < 64)
  | .divStep st d => decide (st < 72) && decide (d < 4)
  | .voltageRampDone st d => decide (st < 72) && decide (d < 4)
  | .powerGate c => decide (c < coreCount)
  | .sensorReading c _ _ _ => decide (c < 10)
  | .warnEnd c _ => decide (c < 10)
  | .ceilStep c _ => decide (c < 11)
  | .feedLoss f _ => decide (f < 2)
  | .feedRestore f _ => decide (f < 2)
  | .feedOverVoltage f _ => decide (f < 2)
  | .panelTimeTick _ _ => true
  | .timeExchange f _ _ _ _ _ _ => decide (f < 32)
  | .timeLockLoss => true
  | .diePwrBoundWrite i st d _ => i.wf && decide (st < 72) && decide (d < 4)
  | .eventPosting => true
  | .evqHead i e _ => i.wf && decide (e < 256)
  | .evqCfgWrite i e _ => i.wf && decide (e < 256)
  | .evqStatRead i e _ _ => i.wf && decide (e < 256)
  | .evForce i page _ => i.wf && (pageKind page).isSome
  | .quiesceReq i page epoch => i.wf && (pageKind page).isSome && decide (epoch < 65536)
  | .quiesceDone page => (pageKind page).isSome
  | .quiesceExpired page => (pageKind page).isSome
  | .quiesceClear i page epoch => i.wf && (pageKind page).isSome && decide (epoch < 65536)
  | .resetReq i page epoch => i.wf && (pageKind page).isSome && decide (epoch < 65536)
  | .updateReq i page epoch => i.wf && (pageKind page).isSome && decide (epoch < 65536)
  | .updateDone stack status _ => decide (stack < 72) && decide (status < 256)
  | .enableClear i page epoch => i.wf && (pageKind page).isSome && decide (epoch < 65536)
  | .enableSet i page epoch => i.wf && (pageKind page).isSome && decide (epoch < 65536)
  | .cntClear i page epoch => i.wf && (pageKind page).isSome && decide (epoch < 65536)
  | .pageLockAcquire i page => i.wf && (pageKind page).isSome
  | .pageLockRelease i page => i.wf && (pageKind page).isSome
  | .pageLockIdleExpiry page => (pageKind page).isSome
  | .rowSkipWrite i st d r _ => i.wf && decide (st < 72) && decide (d < 4) && decide (r < 30)
  | .spareBind i l p epoch _ => i.wf && decide (l < 64) && decide (p < 72) && decide (epoch < 65536)
  | .spareRelease i p epoch _ => i.wf && decide (p < 72) && decide (epoch < 65536)
  | .dieFailed st d => decide (st < 72) && decide (d < 4)
  | .stackFailed p => decide (p < 72)
  | .lostTimeout p => decide (p < 72)
  | .capChanged => true
  | .unavailTick => true
  | .cwDataAccess i st _ _ _ => i.wf && decide (st < 72)
  | .clearFault i st _ => i.wf && decide (st < 72)
  | .feedPresent f _ => decide (f < 2)
  | .phaseComplete _ _ _ _ => true
  | .phaseTimeout _ _ => true
  | .stackGroupPower _ _ _ => true
  | .flashPersist => true
  | .moduleReset i epoch _ => i.wf && decide (epoch < 65536)
  | .attentionPress _ => true
  | .attentionHold => true
  | .identifyWrite i _ => i.wf
  | .displayAck _ _ => true
  | .bayButtonPress b _ => decide (b < 16)
  | .removeAnswer i _ => i.wf
  | .consentTimeout b => decide (b < 16)
  | .evacQueueStart b => decide (b < 16)
  | .latchOpen b _ => decide (b < 16)
  | .cartridgeInsert b _ _ _ _ _ _ => decide (b < 16)
  | .cablePresence f _ => decide (f < 32)
  | .vintageFailRetry f => decide (f < 32)
  | .pldmRequest _ _ _ => true
  | .pldmFirmwareUpdate _ _ _ => true
  | .registerWrite i page off _ => i.wf && (pageKind page).isSome && decide (off < 4096 ∧ off % 8 = 0)
  | .pageInitDone page _ _ => (pageKind page).isSome
  | .gddrRetrainDone st g => decide (st < 72) && decide (g < 6)
  | .srvMemoryAccess a => decide (a.core < 256 ∧ a.op ≤ 5 ∧ 0 < a.n)
  | .srvAccessRetry c => decide (c < 256)

end Sys2Proof
end

