-- ==== Sys2Proof/Tests/Slice0.lean ====
section
/-!
SUPPORT. The tests: terms that the well-formedness check refuses, the worked examples of the spec, and for every obligation with
hypotheses values that meet them, clause by clause.
-/
namespace Sys2Proof.Tests

open Sys2Proof Sys2Proof.Machine

/-! ### Well-formedness -/

/-- The check refuses each of these, which fails one of its checks alone. -/
theorem test_wf_refuses :
  ([.aluReg coreCount, .instrFetch 0 4096 .ok, .streamUnitArrive 0 5 .ok, .transferBlockDone 0 16 .ok 0,
   .globalAccessDone 0 0 65536, .keepLevelFall 0 2, .keepCtlWrite (.hostVf 64) 0 0 0, .keepCtlWrite .mgmt 72 0 0,
   .keepCtlWrite .mgmt 0 4 0, .kernel 1024 0, .kernel 0 (2 ^ 32), .preemptReqGo .mgmt 72 0, .partCtlWrite .mgmt 64 0,
   .partSrvWrite .mgmt 0 4 0, .roundFailed 0 0 0 0 256, .collCompletionNotify 0 4096 0,
   .cacheAccess 0 0 0 [] 0 0 64 .ok 0 0 0 0, .cacheAccess 0 0 0 [] 0 0 0 .ok 0 (2 ^ 20) 0 0,
   .cacheAccess 0 0 0 [] 0 0 0 .ok 0 0 (2 ^ 64) 0, .gddrAccess 0 0x600000000 0 [] false 0 .ok,
   .gddrRetryAttempt 0 6 false .ok, .regRefill 5 0, .cellarAccess 16 0 0 [] 0 none 0 0 false 0, .mirrorResync .mgmt 0 8 0,
   .rdShared 384 0, .rdShared 0 (2 ^ 45), .translationRequest 0 64 0 0 false, .translationReply 0 0 0 (2 ^ 52),
   .translationCompletion 65 0 0 false false false, .packetRoute 80 0 0 none, .routerLoss 72 false, .windowFlush 0 64,
   .fabricFlitReceive 32 [] 0 0, .retxTimer 0 0 32, .streamStart .mgmt 4 0, .streamStart .mgmt 0 16,
   .srvLoadError 256 0 0 0, .sensorReading 10 0 0 0, .ceilStep 11 0, .feedLoss 2 0, .evqHead .mgmt 256 0,
   .rowSkipWrite .mgmt 0 0 30 0, .spareBind .mgmt 64 0 0 false, .registerWrite .mgmt Page.device 4 0,
   .srvMemoryAccess ⟨256, 0, 0, 0, 1, [], 0, 0, 0, false, false⟩, .evqHead (.server 64) 0 0, .evqHead (.coreTask 64) 0 0,
   .creditReturn 0 0, .registerWrite .mgmt Page.device 4096 0, .srvMemoryAccess ⟨0, 6, 0, 0, 1, [], 0, 0, 0, false, false⟩,
   .srvMemoryAccess ⟨0, 0, 0, 0, 0, [], 0, 0, 0, false, false⟩] : List Instr).all (fun c => !c.wf) = true := by
  decide +kernel

/-- It takes a command whose operands are at the ends of their ranges. -/
theorem test_wf_accepts :
    (Instr.aluReg (coreCount - 1)).wf = true ∧ (Instr.registerWrite (.hostVf 63) Page.device 4088 0).wf = true ∧
      (Instr.evqHead .mgmt 255 0).wf = true := by decide +kernel

/-! ### States -/

/-- A pair is its components. -/
theorem pair_of_fst {α β : Type} {x : α × β} {a : α} (h : x.1 = a) : x = (a, x.2) := by
  cases x; cases h; rfl

/-- A triple is its components. -/
theorem triple_of_fst {α β γ : Type} {x : α × β × γ} {a : α} (h : x.1 = a) : x = (a, x.2.1, x.2.2) := by
  cases x; cases h; rfl

/-- A triple is its components, two of them known. -/
theorem triple_of_two {α β γ : Type} {x : α × β × γ} {a : α} {b : β} (h : x.1 = a) (g : x.2.1 = b) : x = (a, b, x.2.2) := by
  cases x; cases h; cases g; rfl

/-- A quadruple is its components. -/
theorem quadruple_of_fst {α β γ δ : Type} {x : α × β × γ × δ} {a : α} (h : x.1 = a) : x = (a, x.2.1, x.2.2.1, x.2.2.2) := by
  cases x; cases h; rfl

/-- A state in which core 0 has the registers of k and runs the word w at its PC. -/
def coreRuns (k : Core) (w : Word) : State :=
  { State.reset with cores := [(0, { k with
      status := .running, ibuf := [(k.pc / 64, BitVec.ofNat 512 (w.toNat <<< (8 * (k.pc % 64))))] })] }

/-- A core that is ready for MMAs of the shape: 256 rows of FP8 at 0x3E000, with banks of the format and layout. -/
def matrixCore (sh : Shape) : Core :=
  { x := [(1, 0x3E000), (2, 0x10000)]
    wbank := [(0, { active := true, wfmt := 1, transposed := decide (sh = .k16n128t) }),
      (2, { active := true, wfmt := 1, transposed := decide (sh = .k16n128t) })] }

/-- Words of the six MMA shapes (Table 6-7): FP8 E4M3 weights and activations, OPA x1, OPB x2. -/
def mmaWords : List (CoreRow × Shape × Word) :=
  [(.mmaK16n128, .k16n128, 0x6008821000000000#64),
   (.mmaK16n128T, .k16n128t, 0x6108821000000000#64),
   (.mmaK32n64, .k32n64, 0x6208821000000000#64),
   (.mmaK16n64, .k16n64, 0x6308821000000000#64),
   (.mmaK8n64, .k8n64, 0x6408821000000000#64),
   (.mmaK16n32, .k16n32, 0x6508821000000000#64)]

/-- A state with the given registers. -/
def withRegs (l : List (Nat × Nat × Word)) (s : State) : State := l.foldl (fun s e => s.setReg e.1 e.2.1 e.2.2) s

/-- A module at work: stack 0 is READY with its pages and belongs to partition 0, and the device translation is bare. -/
def work : State :=
  withRegs (((List.range 6).map fun d => (Page.gddr 0 d, Reg.PAGE_STATE, (3 : Word))) ++
    [(Page.device, Reg.STACK_STATE, 3), (0x102, 0x10, 1), (Page.cache 0, Reg.PAGE_STATE, 3),
     (Page.scheduler 0, Reg.PAGE_STATE, 3), (Page.computeDie 0 0, Reg.PAGE_STATE, 3), (Page.hubTlb 0, Reg.PAGE_STATE, 3),
     (Page.mover 0, Reg.PAGE_STATE, 3), (Page.collective 0, Reg.PAGE_STATE, 3), (Page.device, partOff 0 0, 0x8000000000000000),
     (Page.device, partOff 0 8, 1)]) State.reset

/-- A program in stack 0's GDDR at 0x2000: a header whose CRC is right, and eight bytes of code (Table 6-18); and a table at 0x1000 whose entry is 0x10000. -/
def imageMem : Memory :=
  [(0x1002, 1), (0x2000, 0x50), (0x2001, 0x5A), (0x2002, 0x4B), (0x2003, 0x49), (0x2005, 0x11), (0x2008, 0x40), (0x200C, 0x08),
   (0x2018, 0x01), (0x203C, 0xDF), (0x203D, 0x1A), (0x203E, 0x79), (0x203F, 0x8C), (0x2047, 0xC0)]

/-- A task of one core, that of KERNEL 7 of queue 3, at core 0 of stack 0. -/
def taskIs (x : Task) (k : Core) (s : State) : State :=
  { s with
    tasks := [(cmdKey 3 7, { x with queue := 3, seq := 7, stackBits := 1, dieMask := 1 })]
    cores := [(0, { k with task := some (cmdKey 3 7) })] }

/-- A command of queue 3 with sequence number 7. -/
def cmdIs (c : Cmd) (s : State) : State := { s with cmds := [(cmdKey 3 7, { c with queue := 3, seq := 7 })] }

/-- A descriptor of an ALL_REDUCE of one rank at 0x6000, whose CRC is right; its rank table at 0x7000 names module 0 (R474). -/
def collMem : Memory :=
  [(0x6000, 0x50), (0x6001, 0x5A), (0x6002, 0x43), (0x6003, 0x44), (0x6005, 0x11), (0x6006, 0x01), (0x6007, 0x01),
   (0x600C, 0x01), (0x6018, 0x20), (0x6021, 0x70), (0x607C, 0x10), (0x607D, 0x0E), (0x607E, 0xF7), (0x607F, 0x76)]

/-- A collective of one rank, of command 7 of queue 3. -/
def coll : Coll :=
  { queue := 3, seq := 7, stack := 0, part := 0, pasid := 0, jobTag := 5, collSeq := 6, op := 1, algo := 1, inFmt := 0
    wireFmt := 0, outFmt := 0, redop := 0, nranks := 2, myrank := 0, root := 0, inner := 0, timeoutUs := 50, count := 32
    ranks := [(0, 0), (0, 0)], src := 0, srcSide := 0, dst := 0, dstSide := 0, peer := (0, 0), rpasid := 0, operand := 0
    compare := 0, sig := 0 }

/-- A step of that collective to this module. -/
def stepPkt : Packet :=
  { type := 8, step := 1, op := 1 }

/-- A descriptor of an SGDM slice of 64 parameters with STEP scope at 0x6000, whose CRC is right (Table 8-3), after a list at
0x5000 that names it. -/
def blendMem : Memory :=
  (0x5001, 0x60) ::
  [(0x6000, 0x50), (0x6001, 0x5A), (0x6002, 0x4C), (0x6003, 0x47), (0x6005, 0x11), (0x6006, 0x01), (0x6007, 0x02),
   (0x6008, 0x01), (0x600C, 0x06), (0x6010, 0x40), (0x60BC, 0xA2), (0x60BD, 0xF6), (0x60BE, 0x3D), (0x60BF, 0x23)]

/-- The bytes of that descriptor, with another KIND. -/
def blendDesc (kind : Byte) : List Byte := listSet (blendMem.readBytes 0x6000 192) 6 kind

/-- An armed and ready BLEND of that group, of command 7 of queue 3. -/
def blendIs : BlendOp :=
  { queue := 3, seq := 7, stack := 0, part := 0, pasid := 0, jobTag := 5, jobSeed := 0, step := 1, commit := true
    descs := [blendDesc 1], maps := [[]], ready := some 0 }

/-- A module whose blend engine of stack 0 holds an armed command. -/
def blendAt (o : BlendOp) : State := { work with mem := blendMem, blends := [o] }

/-- Device and page tables of partition 0 whose page at 0x5000 lies in bay 0, a placement entry that covers it, and a pool of
one free frame of stack 0. -/
def tables : Memory :=
  [(0x9001, 0x91), (0x9008, 0x08), (0x900C, 0x01), (0x9101, 0xA0), (0x9201, 0x50), (0x9208, 0x01), (0x920C, 0x01),
   (0x920D, 0x01), (0x9210, 0x01), (0x100000, 0x01), (0x100001, 0x04), (0x100002, 0x04), (0x101000, 0x01), (0x101001,
   0x08), (0x101002, 0x04), (0x102000, 0x01), (0x102008, 0x08), (0x102009, 0x01), (0x10200F, 0x80), (0x108000, 0x01),
   (0x108001, 0x30), (0x108002, 0x04), (0x10C000, 0x01), (0x10C001, 0x34), (0x10C002, 0x04), (0x10D028, 0xD7), (0x10D02D,
   0x04)]

/-- A module with those tables. -/
def racks : State :=
  { withRegs [(0x102, 0x10, 0x40004), (Page.racking 0, 0x110, 0x9000), (Page.racking 0, 0x200, 0x9200), (Page.racking 0, 0x208, 1),
      (Page.racking 0, Reg.PAGE_STATE, 3), (Page.bay 0, Reg.PAGE_STATE, 3)] work with
    written := [regKey (Page.racking 0) 0x110, regKey (Page.racking 0) 0x200], mem := tables
    bays := [(0, { capacity := 0x20000000000 })] }

/-- Bay 15 in service, with mailbox commands in its queue. -/
def mailboxAt (q : List (Nat × Bool)) : State :=
  { withRegs [(Page.bay 15, Reg.PAGE_STATE, 3), (Page.bay 15, Reg.EV_ENABLE, 0xFFFF), (Page.bay 15, bayStatOff, 0x18)] work with
    bays := [(15, { capacity := 0x20000000000, mbxQueue := q })] }

/-- Without a placement table the counting pass of an evacuation finds no page. -/
theorem evacCount_none (s : State) (b : Nat) (h : s.written.all (fun k => decide (k < 0x1000 * 512)) = true) :
    s.evacCount b = ([], s) := by
  have e : ∀ st l p, s.evacScan b st l p = ([], s) := by
    intro st l p
    have w : s.isWritten (Page.racking st) (0x200 + 16 * p) = false := by
      unfold State.isWritten
      rw [List.contains_eq_any_beq, List.any_eq_false]
      intro k hk
      have := of_decide_eq_true (List.all_eq_true.mp h k hk)
      simp only [regKey, beq_iff_eq]
      unfold Page.racking Page.hub
      omega
    simp [State.evacScan, State.placeScan, State.placeTable, State.addrReg, w]
  unfold State.evacCount
  generalize List.range 4096 = ks
  induction ks with
  | nil => rfl
  | cons k ks ih =>
    rw [List.foldl_cons]
    cases hb : s.boundStack (k / 64) with
    | none => exact ih
    | some st => simp only [e, List.append_nil]; exact ih

/-- A host link that is up, with a window of slot 63 of partition 63 onto 0x4000. -/
def windowed : State :=
  { withRegs [(Page.hostPort, Reg.EV_ENABLE, 0xFFFF), (Page.hostPort, 0x108, 0x81FB), (Page.hostPort, Reg.PAGE_STATE, 3)] work with hostFns := [(64, { busMaster := true, msixEnable := true })], numVfs := 64, winCache := [(winKey 63 63, ⟨true, 0x4000, 0⟩)] }

/-- A flit with FSEQ 5 on virtual channel 2, whose CRC is right (Table 15-4). -/
def flit : List Byte := leBytes 8 0x800000000005 ++ List.replicate 240 0 ++ leBytes 8 0xb07bdb7899581c7e

/-- The CRC of that flit, piece by piece. -/
theorem flit_crc : leAt flit 248 8 = crc64 (flit.take 248) := by
  have h : flit.take 248 = leBytes 8 0x800000000005 ++ (List.replicate 48 0 ++ (List.replicate 48 0 ++ (List.replicate 48 0 ++
      (List.replicate 48 0 ++ List.replicate 48 0)))) := by decide +kernel
  let f := fun (c : Nat) (b : Byte) => crc64Bits 8 (c ^^^ (b.toNat <<< 56))
  have h0 : (leBytes 8 0x800000000005).foldl f 0 = 0x463f705f1b8bb2c7 := by decide +kernel
  have h1 : (List.replicate 48 (0 : Byte)).foldl f 0x463f705f1b8bb2c7 = 0xa0007980a0fdc67e := by decide +kernel
  have h2 : (List.replicate 48 (0 : Byte)).foldl f 0xa0007980a0fdc67e = 0xc5b7f0d736da5af5 := by decide +kernel
  have h3 : (List.replicate 48 (0 : Byte)).foldl f 0xc5b7f0d736da5af5 = 0xcfa4338bb3f17822 := by decide +kernel
  have h4 : (List.replicate 48 (0 : Byte)).foldl f 0xcfa4338bb3f17822 = 0x8ebdb429f4afaebd := by decide +kernel
  have h5 : (List.replicate 48 (0 : Byte)).foldl f 0x8ebdb429f4afaebd = 0xb07bdb7899581c7e := by decide +kernel
  rw [h, crc64, List.foldl_append, h0, List.foldl_append, h1, List.foldl_append, h2, List.foldl_append, h3, List.foldl_append,
    h4, h5]
  decide +kernel

/-- The state that a handled packet leaves. -/
def doneOf : Handled → State
  | .done u => u
  | _ => work

/-- A module of two in a group whose port 31 is up: virtual channel 2 belongs to partition 0, and module 7 is the other. -/
def linked : State :=
  withRegs [(Page.fabricPort 31, 0x108, 4), (Page.fabricPort 31, 0x110, 0x80), (Page.fabricPort 31, 0x100, 1),
    (Page.portDie 0, 0x200, 0x80078000), (Page.fabricPort 31, Reg.EV_ENABLE, 0xFFFF)] work

/-- A SLOTS stream's descriptor of four samples at 0x3000, its index at 0x4000, its file table at 0x5000 and a file at 0x6000
with one record of a FLOATS field, whose CRCs are right (R490, R495 to R498); and a request entry at 0x7000. -/
def streamMem : Memory :=
  [(0x3000, 0x50), (0x3001, 0x5A), (0x3002, 0x44), (0x3003, 0x53), (0x3005, 0x11), (0x3006, 0x02), (0x300E, 0x01),
   (0x3010, 0x04), (0x3019, 0x40), (0x3021, 0x50), (0x3036, 0x01), (0x3038, 0x10), (0x303C, 0x01), (0x3048, 0x80), (0x3054,
   0x01), (0x3056, 0x01), (0x3058, 0x01), (0x30FC, 0x6F), (0x30FD, 0x4A), (0x30FE, 0xEA), (0x30FF, 0x10), (0x4000, 0x40),
   (0x5001, 0x60), (0x6000, 0x50), (0x6001, 0x5A), (0x6002, 0x52), (0x6003, 0x43), (0x6005, 0x11), (0x6009, 0x01), (0x603C,
   0x43), (0x603D, 0x8B), (0x603E, 0xC8), (0x603F, 0xA4), (0x6040, 0x18), (0x6045, 0x01), (0x6047, 0x01), (0x6048, 0xC4),
   (0x6049, 0x2A), (0x604A, 0xC1), (0x604B, 0xAB), (0x604E, 0xA3), (0x604F, 0x87), (0x6050, 0x04), (0x6051, 0x12), (0x6054,
   0x04), (0x6058, 0x01), (0x6060, 0x01), (0x6061, 0x02), (0x6062, 0x03), (0x6063, 0x04), (0x7008, 0x02)]

/-- That descriptor. -/
def streamDesc : List Byte := streamMem.readBytes 0x3000 256

/-- Decanter 0 with stream 0 set up over that memory, and loaded with x. -/
def streamAt (st : Word) (x : DecStream) : State :=
  (withRegs [(Page.decanter 0, Reg.PAGE_STATE, 3), (Page.decanter 0, Reg.EV_ENABLE, 0xFFFF), (Page.decanter 0, decOff 0 8, 0x8000000000000000),
    (Page.decanter 0, decOff 0 0, 0x3000), (Page.decanter 0, decOff 0 0x10, 0x7000), (Page.decanter 0, decOff 0 0x28, st)]
    { work with
      mem := streamMem, written := [regKey (Page.decanter 0) (decOff 0 0), regKey (Page.decanter 0) (decOff 0 0x10)] }).setDec 0 0 x

/-- The result of a piece of a stream's work. -/
def gotVal {α : Type} (d : α) : DecGot α → α
  | .ok x _ => x
  | _ => d

/-- The state after a piece of a stream's work. -/
def gotState {α : Type} : DecGot α → State
  | .ok _ s => s
  | .page _ s => s
  | .wait s => s
  | .stop _ _ s => s

/-- An event of the mover of stack 0. -/
def moved : GenEvent :=
  { page := Page.mover 0, seq := 1, code := 0x01FF, cls := 3, sev := 1, part := 0, payload := 7, epoch := 0, time := 0 }

/-- Event queue 255, set up at 0x9000 with 64 records and with the given HEAD, takes the events of the mover of stack 0. -/
def evqAt (cfg head : Word) : State :=
  { withRegs [(evqPage 255, evqOff 255 0, 0x9000), (evqPage 255, evqOff 255 8, cfg), (evqPage 255, evqOff 255 0x10, 63),
      (evqPage 255, evqOff 255 0x18, head), (evqPage 255, evqOff 255 0x20, 0xFFFFFFFF00000007), (Page.mover 0, Reg.EV_ROUTE, 255)] work with
    written := [regKey (evqPage 255) (evqOff 255 0)], events := [moved, moved], evq := [(255, { raised := true, lost := true })] }

/-- Stack 71 is lost, and a request for one of its lines waits. -/
def lostAt71 : State :=
  { withRegs [(Page.clock, Reg.PANEL_TIME, 100000000)] work with lostAt := [(71, 0)], lostReqs := [(71, ⟨.rdUnique, 3, 0, 0x40, 0, []⟩)] }

/-- That request is refused. -/
def lostDone : State := ({ lostAt71 with lostReqs := [] } : State).refuseRequest ⟨.rdUnique, 3, 0, 0x40, 0, []⟩ St.dataLost

/-- A field above bit 0 leaves bit 0 clear. -/
theorem place_even (hi lo x : Nat) (h : 0 < lo) : (place hi lo x).getLsbD 0 = false := by
  unfold place
  rw [BitVec.getLsbD_ofNat, Nat.testBit_shiftLeft]
  simp; omega

/-- CAP_DECLARED is never odd. -/
theorem capacityNow_even (s : State) : s.capacityNow % 2 = 0 := by
  have h : ∀ a b c d, (place 42 32 a ||| place 29 24 b ||| place 20 16 c ||| place 14 8 d).toNat % 2 = 0 := by
    intro a b c d
    have : (place 42 32 a ||| place 29 24 b ||| place 20 16 c ||| place 14 8 d).getLsbD 0 = false := by
      simp only [BitVec.getLsbD_or, place_even, Bool.or_false, Nat.ofNat_pos]
    rw [BitVec.getLsbD, Nat.testBit_zero] at this
    have := of_decide_eq_false this
    omega
  exact h _ _ _ _

/-! ### Worked examples and single steps -/

/-- The next state of an outcome. -/
def ran : Host.Outcome State Fault Refusal → State
  | .next t => t
  | _ => State.reset

/-- Core 0 after it has run the word w from the registers of k. -/
def coreAfter (f : Nat → State → Out) (k : Core) (w : Word) : Core := (ran (f 0 (coreRuns k w))).core 0

/-- ADD wraps (R147): 2^64 − 1 plus 1. -/
theorem test_alu_reg_add_wraps :
    (coreAfter execAluReg { x := [(1, 0xFFFFFFFFFFFFFFFF), (2, 1)] } 0x0118220000000000).rx 3 = 0 := by decide +kernel

/-- The second operand of SUB is the subtrahend: 5 − 9 is −4, and the PC advances by 8. -/
theorem test_alu_reg_sub_order :
    (coreAfter execAluReg { x := [(1, 5), (2, 9)] } 0x0118440100000000).rx 3 = 0xFFFFFFFFFFFFFFFC ∧
      (coreAfter execAluReg { x := [(1, 5), (2, 9)] } 0x0118440100000000).pc = 8 := by decide +kernel

/-- A write of x0 is discarded (R56). -/
theorem test_li_x0 : (coreAfter execLi {} 0x0400000000000005).rx 0 = 0 := by decide +kernel

/-- LI sign-extends its immediate. -/
theorem test_li_sign : (coreAfter execLi {} 0x04180000FFFFFFFF).rx 3 = 0xFFFFFFFFFFFFFFFF := by decide +kernel

/-- The local store of S05.C1.(12,35) begins at 0x0000_0402_A86C_0000 (the worked example of R12). -/
theorem test_local_store_address : lsBase (coreKey 5 1 (12 * 42 + 35)) = 0x00000402A86C0000 := by decide +kernel

/-- GDDR_STAT of S22.G4 (the worked example of R606): page index 0x1587, PAGE_ID 0x0000_0011_1604_0013, and the page of the
address 0x000E_0000_0158_7108. -/
theorem test_gddr_stat_place :
    Page.gddr 22 4 = 0x1587 ∧ State.reset.reg (Page.gddr 22 4) Reg.PAGE_ID = 0x0000001116040013 ∧
      regionOf 0x000E000001587108 = .register 0x1587 0x108 := by decide +kernel

/-- Row 12 of S05.C1 with skips 20 and 40 (the worked example of R104): logical 35 runs on physical 36, logical 39 on 41 and
logical 19 on 19. -/
theorem test_row_remap :
    let t := ran (execRowSkipWrite .mgmt 5 1 12 0x2814 work)
    t.logicalCol (coreKey 5 1 (12 * 42 + 36)) = some 35 ∧ t.logicalCol (coreKey 5 1 (12 * 42 + 41)) = some 39 ∧
      t.logicalCol (coreKey 5 1 (12 * 42 + 19)) = some 19 ∧ t.logicalCol (coreKey 5 1 (12 * 42 + 20)) = none := by decide +kernel

/-- The block of Table 2-3: zero but for eight elements. -/
def ts4Block : List FVal :=
  (List.range 64).map fun i => match i with
    | 0 => .fin false 5 1
    | 5 => .fin true 13 10
    | 16 => .fin false 22 10
    | 20 => .fin false 7 10
    | 33 => .fin true 9 10
    | 40 => .fin false 1 4
    | 50 => .fin false 31 10
    | 63 => .fin true 24 10
    | _ => .fin false 0 1

/-- The worked example of R45: scale code 0x7E, refinements 11, 0, 0 and 1, and the codes of Table 2-3. -/
theorem test_ts4_example :
    let q := quantBlock .e2m1 .ts4 .rne (fun _ => 0) ts4Block
    q.scale = 0x7E ∧ q.refine = [11, 0, 0, 1] ∧
      [0, 5, 16, 20, 33, 40, 50, 63].map (q.codes.getD · 9) = [0x7, 0xB, 0x6, 0x3, 0xC, 0x1, 0x7, 0xE] := by decide +kernel

/-- The worked example of R46 and R47: scale code 0x78, the codes 0x7D, 0xEC and 0x55, and the residuals 0xBDC0, 0x3C80 and 0. -/
theorem test_g8_example :
    let t : List FVal := [.fin false 101 32, .fin true 47 64, .fin false 13 128]
    let q := quantBlock .e4m3 .g8 .rne (fun _ => 0) (t ++ List.replicate 29 (.fin false 0 1))
    q.scale = 0x78 ∧ q.codes.take 3 = [0x7D, 0xEC, 0x55] ∧
      (List.range 3).map (fun i => (residual q.scale (q.codes.getD i 0) (t.getD i .nan)).code) = [0xBDC0, 0x3C80, 0] := by
  decide +kernel

/-- The word of the worked example of Table 6-7, 0x6029_8212_0000_0000: an MMA over 32 rows from 0x8000 into rows 0 to 31. -/
theorem test_mma_word :
    rowOf 0x6029821200000000 = .mmaK16n128 ∧ Ins.d 0x6029821200000000 = 5 ∧ Ins.a 0x6029821200000000 = 6 ∧
      bits (0x6029821200000000 : Word) 45 41 = 1 ∧ bits (0x6029821200000000 : Word) 40 36 = 1 ∧
      bit (0x6029821200000000 : Word) 33 = true ∧ Mma.m 0x2000 = 32 ∧ Mma.row0 0x2000 = 0 := by decide +kernel

/-- The check value of CRC-32C over the nine digits. -/
theorem test_crc32c_check : crc32c [0x31, 0x32, 0x33, 0x34, 0x35, 0x36, 0x37, 0x38, 0x39] = 0xE3069283 := by decide +kernel

/-- Packing six samples (the worked example of R509): nine tokens go to row B, and two more find room in neither row. -/
theorem test_packing :
    let a := (List.range 3).map fun i => (i, List.replicate ([7, 5, 3].getD i 0) 0)
    rowFor 16 9 [a, [(2, List.replicate 6 0)]] = some 1 ∧
      rowFor 16 2 [a, [(2, List.replicate 6 0), (4, List.replicate 9 0)]] = none := by decide +kernel

/-- PANEL_TIME counts five nanoseconds a tick (R547). -/
theorem test_panel_time : (ran (execPanelTimeTick 3 0 State.reset)).panelTime = 15 := by decide +kernel

/-- The table gives its rows no bits, so no word spells a command and a word leaves the queue as it is. -/
theorem test_no_words : decodeTableWord 16 0x1234 = none ∧ State.reset.withFetchWord 16 0x1234 = State.reset := by decide +kernel

/-- The front of the queue runs, and the rest stays. -/
theorem test_step_front :
    (ran (step { State.reset with pending := [.panelTimeTick 1 0, .unavailTick] })).pending = [.unavailTick] ∧
      (ran (step { State.reset with pending := [.panelTimeTick 1 0, .unavailTick] })).panelTime = 5 := by decide +kernel

/-- A CELLAR_BAY page of a module without cartridges is OFF after reset, and a core is IDLE. -/
theorem test_reset_pages :
    State.reset.pageState (Page.bay 0) = PS.off ∧ (State.reset.core 0).status = .idle ∧ State.reset.pending = [] := by
  decide +kernel

/-! ### Witnesses -/

set_option Elab.async false

/-- A value of clause 1 of ScalarCompletes. -/
def scalarS1 : State :=
  coreRuns { x := [(1, 5), (2, 9)], pc := 0x3FFF0 } 0x0118440100000000#64

/-- A value of clause 3 of ScalarCompletes. -/
def scalarS3 : State :=
  coreRuns { x := [(1, 7), (2, 8)] } 0x0318440200000000#64

/-- A value of clause 5 of ScalarCompletes. -/
def scalarS5 : State :=
  coreRuns { x := [(3, 7)] } 0x0518000080000000#64

/-- Values that meet the hypotheses of ScalarCompletes, clause by clause. -/
theorem witness_scalar_completes :
    (∃ (s : State) (c : Nat) (w : Word), Issues s c .aluReg w ∧ bits w 40 40 = 0 ∧ bits w 31 0 = 0) ∧
    (∃ (s : State) (c : Nat) (w : Word), Issues s c .aluImm w ∧ bits w 45 40 = 0) ∧
    (∃ (s : State) (c : Nat) (w : Word), Issues s c .mul w ∧ bits w 40 40 = 0 ∧ bits w 31 0 = 0) ∧
    (∃ (s : State) (c : Nat) (w : Word), Issues s c .li w ∧ bits w 50 40 = 0) ∧
    (∃ (s : State) (c : Nat) (w : Word), Issues s c .lih w ∧ bits w 50 40 = 0) :=
  ⟨⟨scalarS1, 0, 0x0118440100000000#64, by decide +kernel⟩,
   ⟨coreRuns {} 0x02f84000ffffffff#64, 0, 0x02f84000ffffffff#64, by decide +kernel⟩,
   ⟨scalarS3, 0, 0x0318440200000000#64, by decide +kernel⟩,
   ⟨coreRuns {} 0x0400000000000005#64, 0, 0x0400000000000005#64, by decide +kernel⟩,
   ⟨scalarS5, 0, 0x0518000080000000#64, by decide +kernel⟩⟩

/-- A value of clause 1 of JumpCompletes. -/
def jumpS1 : State :=
  coreRuns { pc := 8 } 0x08004400fffffff8#64

/-- A value of clause 2 of JumpCompletes. -/
def jumpS2 : State :=
  coreRuns { pc := 8 } 0x08004401fffffff0#64

/-- A value of clause 4 of JumpCompletes. -/
def jumpS4 : State :=
  coreRuns { x := [(1, 16)] } 0x0a08400000000008#64

/-- A value of clause 5 of JumpCompletes. -/
def jumpS5 : State :=
  coreRuns { pc := 8 } 0x08004400fffffff0#64

/-- A value of clause 10 of JumpCompletes. -/
def jumpS10 : State :=
  coreRuns { x := [(1, 16)] } 0x0a08400000000001#64

/-- Values that meet the hypotheses of JumpCompletes, clause by clause. -/
theorem witness_jump_completes :
    (∃ (s : State) (c : Nat) (w t : Word), Issues s c .branch w ∧ Ins.d w = 0 ∧ branchTaken (Ins.fnS w)
      ((s.core c).rx (Ins.a w)) ((s.core c).rx (Ins.b w)) = true ∧ t = BitVec.ofNat 64 (s.core c).pc + sext 32 w.toNat ∧
      t.toNat ≤ 0x3FFF8 ∧ t.toNat % 8 = 0) ∧
    (∃ (s : State) (c : Nat) (w : Word), Issues s c .branch w ∧ Ins.d w = 0 ∧ branchTaken (Ins.fnS w)
      ((s.core c).rx (Ins.a w)) ((s.core c).rx (Ins.b w)) = false) ∧
    (∃ (s : State) (c : Nat) (w t : Word), Issues s c .jal w ∧ bits w 50 40 = 0 ∧ t = BitVec.ofNat 64 (s.core c).pc + sext
      32 w.toNat ∧ t.toNat ≤ 0x3FFF8 ∧ t.toNat % 8 = 0) ∧
    (∃ (s : State) (c : Nat) (w t : Word), Issues s c .jalr w ∧ bits w 45 40 = 0 ∧ t = (s.core c).rx (Ins.a w) + sext 32
      w.toNat ∧ t.toNat ≤ 0x3FFF8 ∧ t.toNat % 8 = 0) ∧
    (∃ (s : State) (c : Nat) (w t : Word), Issues s c .branch w ∧ Ins.d w = 0 ∧ branchTaken (Ins.fnS w)
      ((s.core c).rx (Ins.a w)) ((s.core c).rx (Ins.b w)) = true ∧ t = BitVec.ofNat 64 (s.core c).pc + sext 32 w.toNat ∧
      0x3FFF8 < t.toNat) ∧
    (∃ (s : State) (c : Nat) (w t : Word), Issues s c .branch w ∧ Ins.d w = 0 ∧ branchTaken (Ins.fnS w)
      ((s.core c).rx (Ins.a w)) ((s.core c).rx (Ins.b w)) = true ∧ t = BitVec.ofNat 64 (s.core c).pc + sext 32 w.toNat ∧
      t.toNat ≤ 0x3FFF8 ∧ t.toNat % 8 ≠ 0) ∧
    (∃ (s : State) (c : Nat) (w t : Word), Issues s c .jal w ∧ bits w 50 40 = 0 ∧ t = BitVec.ofNat 64 (s.core c).pc + sext
      32 w.toNat ∧ 0x3FFF8 < t.toNat) ∧
    (∃ (s : State) (c : Nat) (w t : Word), Issues s c .jal w ∧ bits w 50 40 = 0 ∧ t = BitVec.ofNat 64 (s.core c).pc + sext
      32 w.toNat ∧ t.toNat ≤ 0x3FFF8 ∧ t.toNat % 8 ≠ 0) ∧
    (∃ (s : State) (c : Nat) (w t : Word), Issues s c .jalr w ∧ bits w 45 40 = 0 ∧ t = (s.core c).rx (Ins.a w) + sext 32
      w.toNat ∧ 0x3FFF8 < t.toNat) ∧
    (∃ (s : State) (c : Nat) (w t : Word), Issues s c .jalr w ∧ bits w 45 40 = 0 ∧ t = (s.core c).rx (Ins.a w) + sext 32
      w.toNat ∧ t.toNat ≤ 0x3FFF8 ∧ t.toNat % 8 ≠ 0) :=
  ⟨⟨jumpS1, 0, 0x08004400fffffff8#64, BitVec.ofNat 64 (jumpS1.core 0).pc + sext 32 (0x08004400fffffff8#64).toNat,
     by decide +kernel⟩,
   ⟨jumpS2, 0, 0x08004401fffffff0#64, by decide +kernel⟩,
   ⟨coreRuns {} 0x090800000003fff8#64, 0, 0x090800000003fff8#64, BitVec.ofNat 64
     ((coreRuns {} 0x090800000003fff8#64).core 0).pc + sext 32 (0x090800000003fff8#64).toNat, by decide +kernel⟩,
   ⟨jumpS4, 0, 0x0a08400000000008#64, (jumpS4.core 0).rx (Ins.a (0x0a08400000000008#64)) + sext 32
     (0x0a08400000000008#64).toNat, by decide +kernel⟩,
   ⟨jumpS5, 0, 0x08004400fffffff0#64, BitVec.ofNat 64 (jumpS5.core 0).pc + sext 32 (0x08004400fffffff0#64).toNat,
     by decide +kernel⟩,
   ⟨coreRuns {} 0x0800440000000004#64, 0, 0x0800440000000004#64, BitVec.ofNat 64
     ((coreRuns {} 0x0800440000000004#64).core 0).pc + sext 32 (0x0800440000000004#64).toNat, by decide +kernel⟩,
   ⟨coreRuns {} 0x0908000000040000#64, 0, 0x0908000000040000#64, BitVec.ofNat 64
     ((coreRuns {} 0x0908000000040000#64).core 0).pc + sext 32 (0x0908000000040000#64).toNat, by decide +kernel⟩,
   ⟨coreRuns {} 0x090800000003fff7#64, 0, 0x090800000003fff7#64, BitVec.ofNat 64
     ((coreRuns {} 0x090800000003fff7#64).core 0).pc + sext 32 (0x090800000003fff7#64).toNat, by decide +kernel⟩,
   ⟨coreRuns {} 0x0a084000fffffff8#64, 0, 0x0a084000fffffff8#64, ((coreRuns {} 0x0a084000fffffff8#64).core 0).rx
     (Ins.a (0x0a084000fffffff8#64)) + sext 32 (0x0a084000fffffff8#64).toNat, by decide +kernel⟩,
   ⟨jumpS10, 0, 0x0a08400000000001#64, (jumpS10.core 0).rx (Ins.a (0x0a08400000000001#64)) + sext 32
     (0x0a08400000000001#64).toNat, by decide +kernel⟩⟩

/-- A value of clause 1 of VectorIntCompletes. -/
def vectorIntS1 : State :=
  coreRuns { vl := 64, x := [(1, 100), (2, 3)], v := [(1, 0x12345678), (2, 5)], k := [(0, 5), (1, 6)] }
    0x2018400000000002#64

/-- A value of clause 2 of VectorIntCompletes. -/
def vectorIntS2 : State :=
  coreRuns { vl := 64, x := [(1, 100), (2, 3)], v := [(1, 0x12345678), (2, 5)], k := [(0, 5), (1, 6)] }
    0x2118440000000800#64

/-- A value of clause 3 of VectorIntCompletes. -/
def vectorIntS3 : State :=
  coreRuns { vl := 64, x := [(1, 100), (2, 3)], v := [(1, 0x12345678), (2, 5)], k := [(0, 5), (1, 6)] }
    0x2218440004000000#64

/-- A value of clause 4 of VectorIntCompletes. -/
def vectorIntS4 : State :=
  coreRuns { vl := 64, x := [(1, 100), (2, 3)], v := [(1, 0x12345678), (2, 5)], k := [(0, 5), (1, 6)] }
    0x2318440800000000#64

/-- A value of clause 5 of VectorIntCompletes. -/
def vectorIntS5 : State :=
  coreRuns { vl := 64, x := [(1, 100), (2, 3)], v := [(1, 0x12345678), (2, 5)], k := [(0, 5), (1, 6)] }
    0x3118440880000000#64

/-- A value of clause 6 of VectorIntCompletes. -/
def vectorIntS6 : State :=
  coreRuns { vl := 64, x := [(1, 100), (2, 3)], v := [(1, 0x12345678), (2, 5)], k := [(0, 5), (1, 6)] }
    0x3118400000000201#64

/-- A value of clause 7 of VectorIntCompletes. -/
def vectorIntS7 : State :=
  coreRuns { vl := 64, x := [(1, 100), (2, 3)], v := [(1, 0x12345678), (2, 5)], k := [(0, 5), (1, 6)] }
    0x3118040004000300#64

/-- A value of clause 8 of VectorIntCompletes. -/
def vectorIntS8 : State :=
  coreRuns { vl := 64, x := [(1, 100), (2, 3)], v := [(1, 0x12345678), (2, 5)], k := [(0, 5), (1, 6)] }
    0x3118400000000301#64

/-- A value of clause 9 of VectorIntCompletes. -/
def vectorIntS9 : State :=
  coreRuns { vl := 64, x := [(1, 100), (2, 3)], v := [(1, 0x12345678), (2, 5)], k := [(0, 5), (1, 6)] }
    0x3218400800000100#64

/-- Values that meet the hypotheses of VectorIntCompletes, clause by clause. -/
theorem witness_vector_int_completes :
    (∃ (s : State) (c : Nat) (w : Word), Issues s c .vsetvl w ∧ (s.core c).vstart = 0 ∧ bits w 1 0 ≠ 3 ∧ bits w 45 2 = 0) ∧
    (∃ (s : State) (c : Nat) (w : Word), Issues s c .vaddVsubVmul w ∧ (s.core c).vstart = 0 ∧ maskPolicy w = true ∧ bits w
      40 36 = 0 ∧ bits w 30 27 = 0 ∧ bits w 25 16 = 0 ∧ bits w 7 2 = 0 ∧ bits w 1 0 ≠ 3 ∧ (2 < Ins.fnV w → bits w 1 0 = 0)) ∧
    (∃ (s : State) (c : Nat) (w : Word), Issues s c .vandVorVxor w ∧ (s.core c).vstart = 0 ∧ maskPolicy w = true ∧ bits w 40
      36 = 0 ∧ bits w 30 27 = 0 ∧ bits w 25 16 = 0 ∧ bits w 7 0 = 0) ∧
    (∃ (s : State) (c : Nat) (w : Word), Issues s c .vshift w ∧ (s.core c).vstart = 0 ∧ maskPolicy w = true ∧ bits w 40 36 =
      0 ∧ bits w 30 27 = 0 ∧ bits w 25 16 = 0 ∧ bits w 7 0 = 0) ∧
    (∃ (s : State) (c : Nat) (w : Word), Issues s c .vperm w ∧ (s.core c).vstart = 0 ∧ maskPolicy w = true ∧ bits w 40 36 =
      0 ∧ bits w 30 16 = 0 ∧ bits w 7 0 = 0) ∧
    (∃ (s : State) (c n : Nat) (w : Word), Issues s c .vslide w ∧ (s.core c).vstart = 0 ∧ maskPolicy w = true ∧ bits w 40 36
      = 0 ∧ bits w 30 27 = 0 ∧ bits w 25 16 = 0 ∧ immOrX (s.core c) w = some n ∧ Ins.fnV w = 2) ∧
    (∃ (s : State) (c : Nat) (w : Word), Issues s c .vbcast w ∧ (s.core c).vstart = 0 ∧ maskPolicy w = true ∧ bits w 40 36 =
      0 ∧ bits w 30 27 = 0 ∧ bits w 25 16 = 0 ∧ Ins.vs w = true ∧ Ins.a w = 0 ∧ Ins.imm8 w = 0) ∧
    (∃ (s : State) (c : Nat) (w : Word), Issues s c .vbcast w ∧ (s.core c).vstart = 0 ∧ maskPolicy w = true ∧ bits w 40 36 =
      0 ∧ bits w 30 27 = 0 ∧ bits w 25 16 = 0 ∧ Ins.vs w = false ∧ Ins.b w = 0) ∧
    (∃ (s : State) (c : Nat) (w : Word), Issues s c .expand w ∧ (s.core c).vstart = 0 ∧ 8 ≤ Ins.msel w ∧ bits w 45 36 = 0 ∧
      bits w 30 16 = 0 ∧ bits w 7 0 = 0) :=
  ⟨⟨vectorIntS1, 0, 0x2018400000000002#64, by decide +kernel⟩,
   ⟨vectorIntS2, 0, 0x2118440000000800#64, by decide +kernel⟩,
   ⟨vectorIntS3, 0, 0x2218440004000000#64, by decide +kernel⟩,
   ⟨vectorIntS4, 0, 0x2318440800000000#64, by decide +kernel⟩,
   ⟨vectorIntS5, 0, 0x3118440880000000#64, by decide +kernel⟩,
   ⟨vectorIntS6, 0, 1, 0x3118400000000201#64, by decide +kernel⟩,
   ⟨vectorIntS7, 0, 0x3118040004000300#64, by decide +kernel⟩,
   ⟨vectorIntS8, 0, 0x3118400000000301#64, by decide +kernel⟩,
   ⟨vectorIntS9, 0, 0x3218400800000100#64, by decide +kernel⟩⟩

/-- A value of clause 1 of MaskCompletes. -/
def maskS1 : State :=
  coreRuns { vl := 64, x := [(1, 100), (2, 3)], v := [(1, 0x12345678), (2, 5)], k := [(0, 5), (1, 6)] }
    0x2438440000000301#64

/-- A value of clause 2 of MaskCompletes. -/
def maskS2 : State :=
  coreRuns { vl := 64, x := [(1, 100), (2, 3)], v := [(1, 0x12345678), (2, 5)], k := [(0, 5), (1, 6)] }
    0x2538440002400600#64

/-- A value of clause 3 of MaskCompletes. -/
def maskS3 : State :=
  coreRuns { vl := 64, x := [(1, 100), (2, 3)], v := [(1, 0x12345678), (2, 5)], k := [(0, 5), (1, 6)] }
    0x2638020000000300#64

/-- Values that meet the hypotheses of MaskCompletes, clause by clause. -/
theorem witness_mask_completes :
    (∃ (s : State) (c : Nat) (w : Word), Issues s c .vcmp w ∧ (s.core c).vstart = 0 ∧ maskPolicy w = true ∧ bits w 55 54 = 0
      ∧ bits w 40 36 = 0 ∧ bits w 30 27 = 0 ∧ bits w 25 16 = 0 ∧ bits w 7 1 = 0) ∧
    (∃ (s : State) (c : Nat) (w : Word) (f : Fmt), Issues s c .vfcmp w ∧ vecFmt (s.core c) w = some f ∧ (s.core c).vstart =
      0 ∧ maskPolicy w = true ∧ bits w 55 54 = 0 ∧ bits w 40 36 = 0 ∧ bits w 30 27 = 0 ∧ bits w 20 16 = 0 ∧ bits w 7 0 = 0) ∧
    (∃ (s : State) (c : Nat) (w : Word), Issues s c .klogic w ∧ (s.core c).vstart = 0 ∧ maskNone w = true ∧ bits w 55 54 = 0
      ∧ bits w 50 49 = 0 ∧ bits w 45 44 = 0 ∧ bits w 40 36 = 0 ∧ bits w 30 16 = 0 ∧ bits w 7 0 = 0 ∧
      (Ins.fnV w = 4 → Ins.b w = 0)) :=
  ⟨⟨maskS1, 0, 0x2438440000000301#64, by decide +kernel⟩,
   ⟨maskS2, 0, 0x2538440002400600#64, Fmt.fp32, by decide +kernel⟩,
   ⟨maskS3, 0, 0x2638020000000300#64, by decide +kernel⟩⟩

/-- A value of clause 1 of VectorFloatCompletes. -/
def vectorFloatS1 : State :=
  coreRuns { vl := 64, x := [(1, 100), (2, 3)], v := [(1, 0x12345678), (2, 5)], k := [(0, 5), (1, 6)] }
    0x2818444042400300#64

/-- A value of clause 2 of VectorFloatCompletes. -/
def vectorFloatS2 : State :=
  coreRuns { vl := 64, x := [(1, 100), (2, 3)], v := [(1, 0x12345678), (2, 5)], k := [(0, 5), (1, 6)] }
    0x2818440002400500#64

/-- A value of clause 3 of VectorFloatCompletes. -/
def vectorFloatS3 : State :=
  coreRuns { vl := 64, x := [(1, 100), (2, 3)], v := [(1, 0x12345678), (2, 5)], k := [(0, 5), (1, 6)] }
    0x2918400002400300#64

/-- A value of clause 4 of VectorFloatCompletes. -/
def vectorFloatS4 : State :=
  coreRuns { vl := 64, x := [(1, 100), (2, 3)], v := [(1, 0x12345678), (2, 5)], k := [(0, 5), (1, 6)] }
    0x2a18400002120001#64

/-- Values that meet the hypotheses of VectorFloatCompletes, clause by clause. -/
theorem witness_vector_float_completes :
    (∃ (s : State) (c : Nat) (w : Word) (f : Fmt) (m : Rnd), Issues s c .vfaddVfsubVfmulVfma w ∧ vecFmt (s.core c) w = some
      f ∧ Rnd.ofField (Ins.rnd w) = some m ∧ (s.core c).vstart = 0 ∧ maskPolicy w = true ∧ (Ins.fnV w ≠ 3 → Ins.c w = 0) ∧
      bits w 27 27 = 0 ∧ bits w 20 16 = 0 ∧ bits w 7 0 = 0) ∧
    (∃ (s : State) (c : Nat) (w : Word) (f : Fmt), Issues s c .vfminVfmax w ∧ vecFmt (s.core c) w = some f ∧
      (s.core c).vstart = 0 ∧ maskPolicy w = true ∧ bits w 40 36 = 0 ∧ bits w 30 27 = 0 ∧ bits w 20 16 = 0 ∧ bits w 7 0 = 0) ∧
    (∃ (s : State) (c : Nat) (w : Word) (f : Fmt), Issues s c .vapprox w ∧ vecFmt (s.core c) w = some f ∧ (s.core c).vstart
      = 0 ∧ maskPolicy w = true ∧ bits w 45 36 = 0 ∧ bits w 30 26 = 0 ∧ bits w 20 16 = 0 ∧ bits w 7 0 = 0) ∧
    (∃ (s : State) (c : Nat) (w : Word) (m : Rnd), Issues s c .vcvt w ∧ Rnd.ofField (Ins.rnd w) = some m ∧ (s.core c).vstart
      = 0 ∧ maskPolicy w = true ∧ bits w 45 36 = 0 ∧ bits w 26 26 = 0 ∧ bits w 7 3 = 0 ∧ cvtCode (Ins.fs w) = true ∧ cvtCode
      (Ins.fd w) = true ∧ Ins.fs w ≠ Ins.fd w ∧ ((intOfCode (Ins.fs w)).isSome → intOfCode (Ins.fd w) = none) ∧
      (codeWidth (Ins.fd w) = 4 → m ≠ .sr) ∧ codeWidth (Ins.fs w) < codeWidth (Ins.fd w) ∧ bits w 2 0 < codeWidth (Ins.fd w)
      / codeWidth (Ins.fs w)) :=
  ⟨⟨vectorFloatS1, 0, 0x2818444042400300#64, Fmt.fp32, Rnd.sr, by decide +kernel⟩,
   ⟨vectorFloatS2, 0, 0x2818440002400500#64, Fmt.fp32, by decide +kernel⟩,
   ⟨vectorFloatS3, 0, 0x2918400002400300#64, Fmt.fp32, by decide +kernel⟩,
   ⟨vectorFloatS4, 0, 0x2a18400002120001#64, Rnd.rne, by decide +kernel⟩⟩

/-- A value of clause 1 of QuantCompletes. -/
def quantS1 : State :=
  coreRuns { vl := 64, x := [(1, 100), (2, 3)], v := [(1, 0x12345678), (2, 5)], k := [(0, 5), (1, 6)] }
    0x2c18440002480007#64

/-- A value of clause 2 of QuantCompletes. -/
def quantS2 : State :=
  coreRuns { vl := 64, x := [(1, 100), (2, 3)], v := [(1, 0x12345678), (2, 5)], k := [(0, 5), (1, 6)] }
    0x2c18440002090100#64

/-- A value of clause 3 of QuantCompletes. -/
def quantS3 : State :=
  coreRuns { vl := 64, x := [(1, 100), (2, 3)], v := [(1, 0x12345678), (2, 5)], k := [(0, 5), (1, 6)] }
    0x2c18440042410200#64

/-- A value of clause 4 of QuantCompletes. -/
def quantS4 : State :=
  coreRuns { vl := 64, x := [(1, 100), (2, 3)], v := [(1, 0x12345678), (2, 5)], k := [(0, 5), (1, 6)] }
    0x2c18444002410300#64

/-- A value of clause 5 of QuantCompletes. -/
def quantS5 : State :=
  coreRuns { vl := 64, x := [(1, 100), (2, 3)], v := [(1, 0x12345678), (2, 5)], k := [(0, 5), (1, 6)] }
    0x2d18440000320000#64

/-- Values that meet the hypotheses of QuantCompletes, clause by clause. -/
theorem witness_quant_completes :
    (∃ (s : State) (c : Nat) (w : Word) (m : Rnd), Issues s c .vqMx w ∧ Rnd.ofField (Ins.rnd w) = some m ∧ quantOk
      (s.core c) w ([0x01, 0x02, 0x03, 0x04, 0x08].contains (Ins.fd w)) = true ∧ Ins.c w = 0 ∧ (Ins.fd w = 0x08 → m ≠ .sr)) ∧
    (∃ (s : State) (c : Nat) (w : Word) (m : Rnd), Issues s c .vqTs4 w ∧ Rnd.ofField (Ins.rnd w) = some m ∧ quantOk
      (s.core c) w (Ins.fd w = 0x09) = true ∧ Ins.c w = 0 ∧ m ≠ .sr) ∧
    (∃ (s : State) (c : Nat) (w : Word) (m : Rnd), Issues s c .vqG8 w ∧ Rnd.ofField (Ins.rnd w) = some m ∧ quantOk
      (s.core c) w (Ins.fd w = 0x01) = true ∧ Ins.c w = 0 ∧ (m = .rne ∨ m = .sr)) ∧
    (∃ (s : State) (c : Nat) (w : Word) (m : Rnd), Issues s c .vqG8l w ∧ Rnd.ofField (Ins.rnd w) = some m ∧ quantOk
      (s.core c) w (Ins.fd w = 0x01) = true ∧ Ins.fs w = 0x12 ∧ (m = .rne ∨ m = .sr) ∧ Ins.c w ≠ Ins.d w ∧ Ins.c w ≠ Ins.b
      w) ∧
    (∃ (s : State) (c : Nat) (w : Word) (m : Rnd), Issues s c .vdq w ∧ Rnd.ofField (Ins.rnd w) = some m ∧ (s.core c).vstart
      = 0 ∧ maskNone w = true ∧ bits w 40 36 = 0 ∧ bits w 27 26 = 0 ∧ bits w 7 3 = 0 ∧ Ins.fs w ∈
      [0x01, 0x02, 0x03, 0x04, 0x08] ∧ Ins.fd w ∈ [0x10, 0x11, 0x12] ∧ bits w 2 0 < 2048 /
      (2048 / codeWidth (Ins.fd w) * codeWidth (Ins.fs w))) :=
  ⟨⟨quantS1, 0, 0x2c18440002480007#64, Rnd.rne, by decide +kernel⟩,
   ⟨quantS2, 0, 0x2c18440002090100#64, Rnd.rne, by decide +kernel⟩,
   ⟨quantS3, 0, 0x2c18440042410200#64, Rnd.sr, by decide +kernel⟩,
   ⟨quantS4, 0, 0x2c18444002410300#64, Rnd.rne, by decide +kernel⟩,
   ⟨quantS5, 0, 0x2d18440000320000#64, Rnd.rne, by decide +kernel⟩⟩

/-- A value of clause 1 of PermuteCompletes. -/
def permuteS1 : State :=
  coreRuns { vl := 64, x := [(1, 100), (2, 3)], v := [(1, 0x12345678), (2, 5)], k := [(0, 5), (1, 6)] }
    0x3018400000000001#64

/-- A value of clause 2 of PermuteCompletes. -/
def permuteS2 : State :=
  coreRuns { vl := 64, x := [(1, 100), (2, 3)], v := [(1, 0x12345678), (2, 5)], k := [(0, 5), (1, 6)] }
    0x3018400002400002#64

/-- A value of clause 3 of PermuteCompletes. -/
def permuteS3 : State :=
  coreRuns { vl := 64, x := [(1, 100), (2, 3)], v := [(1, 0x12345678), (2, 5)], k := [(0, 5), (1, 6)] }
    0x3118400000000102#64

/-- A value of clause 4 of PermuteCompletes. -/
def permuteS4 : State :=
  coreRuns { vl := 64, x := [(1, 100), (2, 3)], v := [(1, 0x12345678), (2, 5)], k := [(0, 5), (1, 6)] }
    0x3118400000000401#64

/-- A value of clause 5 of PermuteCompletes. -/
def permuteS5 : State :=
  coreRuns { vl := 64, x := [(1, 100), (2, 3)], v := [(1, 0x12345678), (2, 5)], k := [(0, 5), (1, 6)] }
    0x3218400800000000#64

/-- A value of clause 6 of PermuteCompletes. -/
def permuteS6 : State :=
  coreRuns { vl := 64, x := [(1, 100), (2, 3)], v := [(1, 0x12345678), (2, 5)], k := [(0, 5), (1, 6)] }
    0x3318000900000300#64

/-- A value of clause 7 of PermuteCompletes. -/
def permuteS7 : State :=
  coreRuns { vl := 64, x := [(1, 100), (2, 3)], v := [(1, 0x12345678), (2, 5)], k := [(0, 5), (1, 6)] }
    0x3318400000000401#64

/-- Values that meet the hypotheses of PermuteCompletes, clause by clause. -/
theorem witness_permute_completes :
    (∃ (s : State) (c : Nat) (w : Word), Issues s c .vred w ∧ (s.core c).vstart = 0 ∧ maskSelects w = true ∧ bits w 45 36 =
      0 ∧ bits w 27 26 = 0 ∧ bits w 20 16 = 0 ∧ bits w 7 2 = 0 ∧ bits w 1 0 < 2 ∧ Ins.fs w = 0 ∧ Ins.rnd w = 0) ∧
    (∃ (s : State) (c : Nat) (w : Word) (f : Fmt) (m : Rnd), Issues s c .vred w ∧ (s.core c).vstart = 0 ∧ maskSelects w =
      true ∧ bits w 45 36 = 0 ∧ bits w 27 26 = 0 ∧ bits w 20 16 = 0 ∧ bits w 7 2 = 0 ∧ bits w 1 0 = 2 ∧ vecFmt (s.core c) w
      = some f ∧ Rnd.ofField (Ins.rnd w) = some m ∧ Ins.fnV w = 0 ∧ m ≠ .sr) ∧
    (∃ (s : State) (c n : Nat) (w : Word), Issues s c .vslide w ∧ (s.core c).vstart = 0 ∧ maskPolicy w = true ∧ bits w 40 36
      = 0 ∧ bits w 30 27 = 0 ∧ bits w 25 16 = 0 ∧ immOrX (s.core c) w = some n ∧ Ins.fnV w = 1) ∧
    (∃ (s : State) (c j : Nat) (w : Word), Issues s c .vext w ∧ immOrX (s.core c) w = some j ∧ (s.core c).vstart = 0 ∧
      maskNone w = true ∧ bits w 40 36 = 0 ∧ bits w 30 27 = 0 ∧ bits w 25 16 = 0) ∧
    (∃ (s : State) (c : Nat) (w : Word), Issues s c .compress w ∧ (s.core c).vstart = 0 ∧ 8 ≤ Ins.msel w ∧ bits w 45 36 = 0
      ∧ bits w 30 16 = 0 ∧ bits w 7 0 = 0) ∧
    (∃ (s : State) (c : Nat) (w : Word), Issues s c .maskSummary w ∧ (s.core c).vstart = 0 ∧ 8 ≤ Ins.msel w ∧ Ins.pol w =
      false ∧ bits w 50 36 = 0 ∧ bits w 30 16 = 0 ∧ bits w 7 0 = 0) ∧
    (∃ (s : State) (c : Nat) (w : Word), Issues s c .maxidxMinidx w ∧ (s.core c).vstart = 0 ∧ maskSelects w = true ∧ bits w
      45 36 = 0 ∧ bits w 30 26 = 0 ∧ bits w 20 16 = 0 ∧ bits w 7 2 = 0 ∧ bits w 1 0 ≠ 3 ∧ (bits w 1 0 < 2 → Ins.fs w = 0) ∧
      (bits w 1 0 = 2 → (vecFmt (s.core c) w).isSome)) :=
  ⟨⟨permuteS1, 0, 0x3018400000000001#64, by decide +kernel⟩,
   ⟨permuteS2, 0, 0x3018400002400002#64, Fmt.fp32, Rnd.rne, by decide +kernel⟩,
   ⟨permuteS3, 0, 2, 0x3118400000000102#64, by decide +kernel⟩,
   ⟨permuteS4, 0, 1, 0x3118400000000401#64, by decide +kernel⟩,
   ⟨permuteS5, 0, 0x3218400800000000#64, by decide +kernel⟩,
   ⟨permuteS6, 0, 0x3318000900000300#64, by decide +kernel⟩,
   ⟨permuteS7, 0, 0x3318400000000401#64, by decide +kernel⟩⟩

/-- A value of clause 2 of MatrixCompletes. -/
def matrixS2 : State :=
  coreRuns { x := [(1, 0x3F800), (2, 0)] } 0x6808801380000000#64

/-- A value of clause 4 of MatrixCompletes. -/
def matrixS4 : State :=
  coreRuns { mq := [⟨0, 0, 0, 0, 0, false, 0⟩, ⟨0, 0, 0, 0, 0, false, 0⟩, ⟨0, 0, 0, 0, 0, false, 0⟩] } 0x6900000100000000#64

/-- A value of clause 5 of MatrixCompletes. -/
def matrixS5 : State :=
  coreRuns { x := [(1, 200)], acc := [(511, 0x3F800000)] } 0x6a18410808000037#64

/-- Values that meet the hypotheses of MatrixCompletes, clause by clause. -/
theorem witness_matrix_completes :
    (∀ p ∈ mmaWords, let k := matrixCore p.2.1; let s := coreRuns k p.2.2; Issues s 0 p.1 p.2.2 ∧ (s.core 0).mq.length < 4 ∧
      ((arraysOf p.2.1 p.2.2).any fun a => (s.core 0).banksLoading.contains
      (bankKey a ((s.core 0).bankAfter (s.core 0).mq a))) = false ∧
      (mmaRanges p.2.2 ((s.core 0).rx (Ins.d p.2.2)) ((s.core 0).rx (Ins.a p.2.2)) 0).any (s.core 0).readHeld = false ∧
      mmaCheck s 0 (s.core 0) (s.core 0).mq p.2.1 p.2.2 ((s.core 0).rx (Ins.d p.2.2)) ((s.core 0).rx (Ins.a p.2.2)) = none) ∧
    (∃ (s : State) (c : Nat) (w : Word), Issues s c .mlw w ∧ (mlwBanks w).any (s.core c).banksInUse.contains = false ∧
      (mlwBanks w).any (s.core c).banksLoading.contains = false ∧
      (mlwRanges w ((s.core c).rx (Ins.d w)) ((s.core c).rx (Ins.a w))).any (s.core c).readHeld = false ∧ mlwOk w
      ((s.core c).rx (Ins.a w)) = true ∧ lsCheckAll (mlwRanges w ((s.core c).rx (Ins.d w)) ((s.core c).rx (Ins.a w))) =
      none) ∧
    (∃ (s : State) (c : Nat) (w : Word), Issues s c .msw w ∧ amask w ≠ 0 ∧ bits w 55 34 = 0 ∧ bits w 31 0 = 0 ∧
      (s.core c).mq = []) ∧
    (∃ (s : State) (c : Nat) (w : Word), Issues s c .msw w ∧ amask w ≠ 0 ∧ bits w 55 34 = 0 ∧ bits w 31 0 = 0 ∧
      (s.core c).mq ≠ [] ∧ (s.core c).mq.length < 4) ∧
    (∃ (s : State) (c row : Nat) (w : Word) (m : Rnd), Issues s c .mrd w ∧ Rnd.ofField (bits w 32 30) = some m ∧ bits w 45
      41 = 0 ∧ bits w 26 8 = 0 ∧ bits w 40 36 ∈ [1, 2, 3, 4, 5, 0x10, 0x11, 0x12] ∧ bits w 29 27 < 32 / codeWidth
      (bits w 40 36) ∧ row = ((s.core c).rx (Ins.a w) + BitVec.ofNat 64 (bits w 7 0)).toNat ∧ row ≤ 255 ∧
      (s.core c).rowPending (bits w 35 35) row = false) :=
  ⟨by decide +kernel,
   ⟨matrixS2, 0, 0x6808801380000000#64, by decide +kernel⟩,
   ⟨coreRuns {} 0x6900000300000000#64, 0, 0x6900000300000000#64, by decide +kernel⟩,
   ⟨matrixS4, 0, 0x6900000100000000#64, by decide +kernel⟩,
   ⟨matrixS5, 0, ((matrixS5.core 0).rx (Ins.a (0x6a18410808000037#64)) + BitVec.ofNat 64
     (bits (0x6a18410808000037#64) 7 0)).toNat, 0x6a18410808000037#64, Rnd.rne, by decide +kernel⟩⟩

/-- A value of clause 1 of LocalAccessCompletes. -/
def localAccessS1 : State :=
  coreRuns { x := [(1, 0x40000)] } 0x801840000700fff8#64

/-- A value of clause 2 of LocalAccessCompletes. -/
def localAccessS2 : State :=
  coreRuns { x := [(1, 0x3FFF8)] } 0x8108400004000004#64

/-- A value of clause 3 of LocalAccessCompletes. -/
def localAccessS3 : State :=
  coreRuns { vl := 64, x := [(1, 0x3FF00), (2, 3)], v := [(3, 0x12345678)], k := [(0, 5)] } 0x8218400880000000#64

/-- A value of clause 4 of LocalAccessCompletes. -/
def localAccessS4 : State :=
  coreRuns { vl := 64, x := [(1, 0x3FF00), (2, 3)], v := [(3, 0x12345678)], k := [(0, 5)] } 0x8318400800000000#64

/-- A value of clause 5 of LocalAccessCompletes. -/
def localAccessS5 : State :=
  coreRuns { x := [(1, 0x40000)] } 0x8018400006000000#64

/-- A value of clause 6 of LocalAccessCompletes. -/
def localAccessS6 : State :=
  coreRuns { x := [(1, 0x3FFF0)] } 0x8018400006000004#64

/-- A value of clause 7 of LocalAccessCompletes. -/
def localAccessS7 : State :=
  coreRuns { x := [(1, 0x40000)] } 0x811840000200ffff#64

/-- A value of clause 8 of LocalAccessCompletes. -/
def localAccessS8 : State :=
  coreRuns { x := [(1, 8)] } 0x8118400002000001#64

/-- A value of clause 9 of LocalAccessCompletes. -/
def localAccessS9 : State :=
  coreRuns { vl := 64, x := [(1, 0x3FF00), (2, 3)], v := [(3, 0x12345678)], k := [(0, 5)] } 0x8218400000000020#64

/-- A value of clause 10 of LocalAccessCompletes. -/
def localAccessS10 : State :=
  coreRuns { vl := 64, x := [(1, 0x3FF00), (2, 3)], v := [(3, 0x12345678)], k := [(0, 5)] } 0x821840000000fff0#64

/-- A value of clause 11 of LocalAccessCompletes. -/
def localAccessS11 : State :=
  coreRuns { vl := 64, x := [(1, 0x3FF00), (2, 3)], v := [(3, 0x12345678)], k := [(0, 5)] } 0x8318400000000020#64

/-- A value of clause 12 of LocalAccessCompletes. -/
def localAccessS12 : State :=
  coreRuns { vl := 64, x := [(1, 0x3FF00), (2, 3)], v := [(3, 0x12345678)], k := [(0, 5)] } 0x831840000000fff0#64

/-- Values that meet the hypotheses of LocalAccessCompletes, clause by clause. -/
theorem witness_local_access_completes :
    (∃ (s : State) (c a n : Nat) (w : Word), Issues s c .ldL w ∧ a = ((s.core c).rx (Ins.a w) + Ins.imm16 w).toNat ∧ n = 2 ^
      Ins.size w ∧ (s.core c).readHeld (a, n) = false ∧ bits w 45 27 = 0 ∧ bits w 23 16 = 0 ∧ a + n ≤ 0x40000 ∧ a % n = 0) ∧
    (∃ (s : State) (c a n : Nat) (w : Word), Issues s c .stL w ∧ a = ((s.core c).rx (Ins.a w) + Ins.imm16 w).toNat ∧ n = 2 ^
      Ins.size w ∧ (s.core c).writeHeld (a, n) = false ∧ bits w 45 27 = 0 ∧ bits w 24 16 = 0 ∧ a + n ≤ 0x40000 ∧ a % n = 0) ∧
    (∃ (s : State) (c a n : Nat) (w : Word), Issues s c .vld w ∧ a = ((s.core c).rx (Ins.a w) + Ins.imm16 w).toNat ∧ n =
      (s.core c).vl * (s.core c).ew / 8 ∧ (s.core c).readHeld (a, n) = false ∧ bits w 45 36 = 0 ∧ bits w 30 16 = 0 ∧
      maskPolicy w = true ∧ (s.core c).vstart = 0 ∧ a < 0x40000 ∧ a + n ≤ 0x40000 ∧ a % 32 = 0) ∧
    (∃ (s : State) (c a n : Nat) (w : Word), Issues s c .vst w ∧ a = ((s.core c).rx (Ins.a w) + Ins.imm16 w).toNat ∧ n =
      (s.core c).vl * (s.core c).ew / 8 ∧ (s.core c).writeHeld (a, n) = false ∧ bits w 45 36 = 0 ∧ bits w 30 16 = 0 ∧
      maskSelects w = true ∧ (s.core c).vstart = 0 ∧ (s.core c).vl ≤ (s.core c).vlmax ∧ a < 0x40000 ∧ a + n ≤ 0x40000 ∧ a %
      32 = 0) ∧
    (∃ (s : State) (c a n : Nat) (w : Word), Issues s c .ldL w ∧ a = ((s.core c).rx (Ins.a w) + Ins.imm16 w).toNat ∧ n = 2 ^
      Ins.size w ∧ (s.core c).readHeld (a, n) = false ∧ bits w 45 27 = 0 ∧ bits w 23 16 = 0 ∧ 0x40000 < a + n) ∧
    (∃ (s : State) (c a n : Nat) (w : Word), Issues s c .ldL w ∧ a = ((s.core c).rx (Ins.a w) + Ins.imm16 w).toNat ∧ n = 2 ^
      Ins.size w ∧ (s.core c).readHeld (a, n) = false ∧ bits w 45 27 = 0 ∧ bits w 23 16 = 0 ∧ a + n ≤ 0x40000 ∧ a % n ≠ 0) ∧
    (∃ (s : State) (c a n : Nat) (w : Word), Issues s c .stL w ∧ a = ((s.core c).rx (Ins.a w) + Ins.imm16 w).toNat ∧ n = 2 ^
      Ins.size w ∧ (s.core c).writeHeld (a, n) = false ∧ bits w 45 27 = 0 ∧ bits w 24 16 = 0 ∧ 0x40000 < a + n) ∧
    (∃ (s : State) (c a n : Nat) (w : Word), Issues s c .stL w ∧ a = ((s.core c).rx (Ins.a w) + Ins.imm16 w).toNat ∧ n = 2 ^
      Ins.size w ∧ (s.core c).writeHeld (a, n) = false ∧ bits w 45 27 = 0 ∧ bits w 24 16 = 0 ∧ a + n ≤ 0x40000 ∧ a % n ≠ 0) ∧
    (∃ (s : State) (c a n : Nat) (w : Word), Issues s c .vld w ∧ a = ((s.core c).rx (Ins.a w) + Ins.imm16 w).toNat ∧ n =
      (s.core c).vl * (s.core c).ew / 8 ∧ (s.core c).readHeld (a, n) = false ∧ bits w 45 36 = 0 ∧ bits w 30 16 = 0 ∧
      maskPolicy w = true ∧ (s.core c).vstart = 0 ∧ 0x40000 < a + n) ∧
    (∃ (s : State) (c a n : Nat) (w : Word), Issues s c .vld w ∧ a = ((s.core c).rx (Ins.a w) + Ins.imm16 w).toNat ∧ n =
      (s.core c).vl * (s.core c).ew / 8 ∧ (s.core c).readHeld (a, n) = false ∧ bits w 45 36 = 0 ∧ bits w 30 16 = 0 ∧
      maskPolicy w = true ∧ (s.core c).vstart = 0 ∧ a < 0x40000 ∧ a + n ≤ 0x40000 ∧ a % 32 ≠ 0) ∧
    (∃ (s : State) (c a n : Nat) (w : Word), Issues s c .vst w ∧ a = ((s.core c).rx (Ins.a w) + Ins.imm16 w).toNat ∧ n =
      (s.core c).vl * (s.core c).ew / 8 ∧ (s.core c).writeHeld (a, n) = false ∧ bits w 45 36 = 0 ∧ bits w 30 16 = 0 ∧
      maskSelects w = true ∧ (s.core c).vstart = 0 ∧ 0x40000 < a + n) ∧
    (∃ (s : State) (c a n : Nat) (w : Word), Issues s c .vst w ∧ a = ((s.core c).rx (Ins.a w) + Ins.imm16 w).toNat ∧ n =
      (s.core c).vl * (s.core c).ew / 8 ∧ (s.core c).writeHeld (a, n) = false ∧ bits w 45 36 = 0 ∧ bits w 30 16 = 0 ∧
      maskSelects w = true ∧ (s.core c).vstart = 0 ∧ a < 0x40000 ∧ a + n ≤ 0x40000 ∧ a % 32 ≠ 0) :=
  ⟨⟨localAccessS1, 0, ((localAccessS1.core 0).rx (Ins.a (0x801840000700fff8#64)) + Ins.imm16 (0x801840000700fff8#64)).toNat,
     2 ^ Ins.size (0x801840000700fff8#64), 0x801840000700fff8#64, by decide +kernel⟩,
   ⟨localAccessS2, 0, ((localAccessS2.core 0).rx (Ins.a (0x8108400004000004#64)) + Ins.imm16 (0x8108400004000004#64)).toNat,
     2 ^ Ins.size (0x8108400004000004#64), 0x8108400004000004#64, by decide +kernel⟩,
   ⟨localAccessS3, 0, ((localAccessS3.core 0).rx (Ins.a (0x8218400880000000#64)) + Ins.imm16 (0x8218400880000000#64)).toNat,
     (localAccessS3.core 0).vl * (localAccessS3.core 0).ew / 8, 0x8218400880000000#64, by decide +kernel⟩,
   ⟨localAccessS4, 0, ((localAccessS4.core 0).rx (Ins.a (0x8318400800000000#64)) + Ins.imm16 (0x8318400800000000#64)).toNat,
     (localAccessS4.core 0).vl * (localAccessS4.core 0).ew / 8, 0x8318400800000000#64, by decide +kernel⟩,
   ⟨localAccessS5, 0, ((localAccessS5.core 0).rx (Ins.a (0x8018400006000000#64)) + Ins.imm16 (0x8018400006000000#64)).toNat,
     2 ^ Ins.size (0x8018400006000000#64), 0x8018400006000000#64, by decide +kernel⟩,
   ⟨localAccessS6, 0, ((localAccessS6.core 0).rx (Ins.a (0x8018400006000004#64)) + Ins.imm16 (0x8018400006000004#64)).toNat,
     2 ^ Ins.size (0x8018400006000004#64), 0x8018400006000004#64, by decide +kernel⟩,
   ⟨localAccessS7, 0, ((localAccessS7.core 0).rx (Ins.a (0x811840000200ffff#64)) + Ins.imm16 (0x811840000200ffff#64)).toNat,
     2 ^ Ins.size (0x811840000200ffff#64), 0x811840000200ffff#64, by decide +kernel⟩,
   ⟨localAccessS8, 0, ((localAccessS8.core 0).rx (Ins.a (0x8118400002000001#64)) + Ins.imm16 (0x8118400002000001#64)).toNat,
     2 ^ Ins.size (0x8118400002000001#64), 0x8118400002000001#64, by decide +kernel⟩,
   ⟨localAccessS9, 0, ((localAccessS9.core 0).rx (Ins.a (0x8218400000000020#64)) + Ins.imm16 (0x8218400000000020#64)).toNat,
     (localAccessS9.core 0).vl * (localAccessS9.core 0).ew / 8, 0x8218400000000020#64, by decide +kernel⟩,
   ⟨localAccessS10, 0,
     ((localAccessS10.core 0).rx (Ins.a (0x821840000000fff0#64)) + Ins.imm16 (0x821840000000fff0#64)).toNat,
     (localAccessS10.core 0).vl * (localAccessS10.core 0).ew / 8, 0x821840000000fff0#64, by decide +kernel⟩,
   ⟨localAccessS11, 0,
     ((localAccessS11.core 0).rx (Ins.a (0x8318400000000020#64)) + Ins.imm16 (0x8318400000000020#64)).toNat,
     (localAccessS11.core 0).vl * (localAccessS11.core 0).ew / 8, 0x8318400000000020#64, by decide +kernel⟩,
   ⟨localAccessS12, 0,
     ((localAccessS12.core 0).rx (Ins.a (0x831840000000fff0#64)) + Ins.imm16 (0x831840000000fff0#64)).toNat,
     (localAccessS12.core 0).vl * (localAccessS12.core 0).ew / 8, 0x831840000000fff0#64, by decide +kernel⟩⟩

/-- A value of clause 1 of GlobalAccessCompletes. -/
def globalAccessS1 : State :=
  coreRuns { x := [(1, 0x8000001000)] } 0x881840000700fff8#64

/-- A value of clause 2 of GlobalAccessCompletes. -/
def globalAccessS2 : State :=
  coreRuns { x := [(1, 0x8000001000)] } 0x8918400000000001#64

/-- A value of clause 3 of GlobalAccessCompletes. -/
def globalAccessS3 : State :=
  coreRuns { x := [(1, 0x8000001000)] } 0x8a18440006000000#64

/-- A value of clause 4 of GlobalAccessCompletes. -/
def globalAccessS4 : State :=
  coreRuns { vl := 2, x := [(1, 0x1000)], v := [(2, 0x0000000800000004)], k := [(0, 2)], vstart := 1 } 0x8c18440800000000#64

/-- A value of clause 5 of GlobalAccessCompletes. -/
def globalAccessS5 : State :=
  coreRuns { vl := 2, x := [(1, 0x1000)], v := [(2, 0x0000000800000004)], k := [(0, 2)], vstart := 1 } 0x8d18440800000000#64

/-- Values that meet the hypotheses of GlobalAccessCompletes, clause by clause. -/
theorem witness_global_access_completes :
    (∃ (s : State) (c va : Nat) (w : Word), Issues s c .ldG w ∧ va = ((s.core c).rx (Ins.a w) + Ins.imm16 w).toNat ∧ bits w
      45 31 = 0 ∧ bits w 28 27 = 0 ∧ bits w 23 16 = 0 ∧ va % 2 ^ Ins.size w = 0) ∧
    (∃ (s : State) (c va : Nat) (w : Word), Issues s c .stG w ∧ va = ((s.core c).rx (Ins.a w) + Ins.imm16 w).toNat ∧ bits w
      45 31 = 0 ∧ bits w 28 27 = 0 ∧ bits w 24 16 = 0 ∧ va % 2 ^ Ins.size w = 0) ∧
    (∃ (s : State) (c va : Nat) (w : Word), Issues s c .amoG w ∧ va = ((s.core c).rx (Ins.a w)).toNat ∧
      (Ins.aop w ≠ 9 → bits w 40 36 = 0) ∧ bits w 35 31 = 0 ∧ bits w 28 27 = 0 ∧ bits w 24 20 = 0 ∧ bits w 15 0 = 0 ∧ 2 ≤
      Ins.size w ∧ Ins.aop w ≤ 9 ∧ va % 2 ^ Ins.size w = 0) ∧
    (∃ (s : State) (c va : Nat) (w : Word), Issues s c .gatherG w ∧ bits w 40 36 = 0 ∧ bits w 26 0 = 0 ∧ maskPolicy w = true
      ∧ (s.core c).vl ≤ 32 ∧ Ins.d w ≠ Ins.b w ∧ (s.core c).vstart < (s.core c).vl ∧ (s.core c).active (Ins.msel w)
      (s.core c).vstart = true ∧ va = elemAddr (s.core c) w (s.core c).vstart ∧ va % ((s.core c).ew / 8) = 0) ∧
    (∃ (s : State) (c va : Nat) (w : Word), Issues s c .scatterG w ∧ bits w 40 36 = 0 ∧ bits w 26 0 = 0 ∧ maskSelects w =
      true ∧ (s.core c).vl ≤ 32 ∧ (s.core c).vstart < (s.core c).vl ∧ (s.core c).active (Ins.msel w) (s.core c).vstart =
      true ∧ va = elemAddr (s.core c) w (s.core c).vstart ∧ va % ((s.core c).ew / 8) = 0) :=
  ⟨⟨globalAccessS1, 0,
     ((globalAccessS1.core 0).rx (Ins.a (0x881840000700fff8#64)) + Ins.imm16 (0x881840000700fff8#64)).toNat,
     0x881840000700fff8#64, by decide +kernel⟩,
   ⟨globalAccessS2, 0,
     ((globalAccessS2.core 0).rx (Ins.a (0x8918400000000001#64)) + Ins.imm16 (0x8918400000000001#64)).toNat,
     0x8918400000000001#64, by decide +kernel⟩,
   ⟨globalAccessS3, 0, ((globalAccessS3.core 0).rx (Ins.a (0x8a18440006000000#64))).toNat, 0x8a18440006000000#64,
     by decide +kernel⟩,
   ⟨globalAccessS4, 0, elemAddr (globalAccessS4.core 0) (0x8c18440800000000#64) (globalAccessS4.core 0).vstart,
     0x8c18440800000000#64, by decide +kernel⟩,
   ⟨globalAccessS5, 0, elemAddr (globalAccessS5.core 0) (0x8d18440800000000#64) (globalAccessS5.core 0).vstart,
     0x8d18440800000000#64, by decide +kernel⟩⟩

/-- A value of clause 1 of TokenCompletes. -/
def tokenS1 : State :=
  coreRuns { x := [(1, 0x8000001000), (2, 0x000000200003FFE0)] } 0x9000440000f00000#64

/-- A value of clause 2 of TokenCompletes. -/
def tokenS2 : State :=
  coreRuns { x := [(1, 0x8000001000), (2, 0x000000200003FFE0)] } 0x9100440000300000#64

/-- A value of clause 3 of TokenCompletes. -/
def tokenS3 : State :=
  coreRuns { x := [(1, 0x000000200003FFE0), (2, 0x0000000000020000)] } 0xa00041e800000000#64

/-- A value of clause 4 of TokenCompletes. -/
def tokenS4 : State :=
  coreRuns { x := [(1, 0x000000200003FFE0), (2, 0x0000000000020000)] } 0xa10041ec00000000#64

/-- A value of clause 5 of TokenCompletes. -/
def tokenS5 : State :=
  coreRuns { x := [(1, 0x000000200003FFE0), (2, 0x0000000000020000)] } 0xa200448000000000#64

/-- A value of clause 6 of TokenCompletes. -/
def tokenS6 : State :=
  coreRuns { x := [(1, 0x000000200003FFE0), (2, 0x0000000000020000)] } 0xa30041e000000000#64

/-- Values that meet the hypotheses of TokenCompletes, clause by clause. -/
theorem witness_token_completes :
    (∃ (s : State) (c : Nat) (w r : Word), Issues s c .xferL w ∧ r = (s.core c).rx (Ins.b w) ∧ (s.core c).tokenBusy
      (Ins.tk w) = false ∧ (s.core c).writeHeld (rangeAddr r, rangeLen r) = false ∧ bits w 55 51 = 0 ∧ bits w 40 31 = 0 ∧
      bits w 28 24 = 0 ∧ bits w 19 0 = 0 ∧ rangeOk r = true ∧ rangeAddr r + rangeLen r ≤ 0x40000 ∧ rangeAddr r % 32 = 0 ∧
      ((s.core c).rx (Ins.a w)).toNat % 32 = 0) ∧
    (∃ (s : State) (c : Nat) (w r : Word), Issues s c .xferS w ∧ r = (s.core c).rx (Ins.b w) ∧ (s.core c).tokenBusy
      (Ins.tk w) = false ∧ (s.core c).readHeld (rangeAddr r, rangeLen r) = false ∧ bits w 55 51 = 0 ∧ bits w 40 31 = 0 ∧
      bits w 28 24 = 0 ∧ bits w 19 0 = 0 ∧ rangeOk r = true ∧ rangeAddr r + rangeLen r ≤ 0x40000 ∧ rangeAddr r % 32 = 0 ∧
      ((s.core c).rx (Ins.a w)).toNat % 32 = 0) ∧
    (∃ (s : State) (c : Nat) (w r : Word), Issues s c .send w ∧ r = (s.core c).rx (Ins.a w) ∧ (s.core c).tokenBusy
      (Ins.tkT w) = false ∧ (s.core c).readHeld (rangeAddr r, rangeLen r) = false ∧ streamEncOk w = true ∧ rangeOk r = true
      ∧ rangeAddr r + rangeLen r ≤ 0x40000 ∧ rangeAddr r % 32 = 0 ∧ (s.neighbour c (Ins.port w)).isSome) ∧
    (∃ (s : State) (c : Nat) (w r : Word), Issues s c .recv w ∧ r = (s.core c).rx (Ins.a w) ∧ (s.core c).tokenBusy
      (Ins.tkT w) = false ∧ (s.core c).writeHeld (rangeAddr r, rangeLen r) = false ∧ streamEncOk w = true ∧ rangeOk r = true
      ∧ rangeAddr r + rangeLen r ≤ 0x40000 ∧ rangeAddr r % 32 = 0 ∧ (s.neighbour c (Ins.port w)).isSome ∧
      (s.core c).fifo.get [] (Ins.port w) = []) ∧
    (∃ (s : State) (c : Nat) (w r d : Word), Issues s c .sendH w ∧ r = (s.core c).rx (Ins.a w) ∧ d = (s.core c).rx (Ins.b w)
      ∧ (s.core c).tokenBusy (Ins.tkT w) = false ∧ (s.core c).readHeld (rangeAddr r, rangeLen r) = false ∧ bits w 55 51 = 0
      ∧ bits w 36 0 = 0 ∧ rangeOk r = true ∧ destOk d = true ∧ rangeAddr r + rangeLen r ≤ 0x40000 ∧ rangeAddr r % 32 = 0 ∧
      Dest.lsaddr d + rangeLen r ≤ 0x40000 ∧ Dest.lsaddr d % 32 = 0) ∧
    (∃ (s : State) (c : Nat) (w r : Word), Issues s c .arm w ∧ r = (s.core c).rx (Ins.a w) ∧ (s.core c).tokenBusy
      (Ins.tkT w) = false ∧ (s.core c).writeHeld (rangeAddr r, rangeLen r) = false ∧ bits w 55 51 = 0 ∧ bits w 45 41 = 0 ∧
      bits w 36 0 = 0 ∧ rangeOk r = true ∧ rangeAddr r + rangeLen r ≤ 0x40000 ∧ rangeAddr r % 32 = 0) :=
  ⟨⟨tokenS1, 0, 0x9000440000f00000#64, (tokenS1.core 0).rx (Ins.b (0x9000440000f00000#64)), by decide +kernel⟩,
   ⟨tokenS2, 0, 0x9100440000300000#64, (tokenS2.core 0).rx (Ins.b (0x9100440000300000#64)), by decide +kernel⟩,
   ⟨tokenS3, 0, 0xa00041e800000000#64, (tokenS3.core 0).rx (Ins.a (0xa00041e800000000#64)), by decide +kernel⟩,
   ⟨tokenS4, 0, 0xa10041ec00000000#64, (tokenS4.core 0).rx (Ins.a (0xa10041ec00000000#64)), by decide +kernel⟩,
   ⟨tokenS5, 0, 0xa200448000000000#64, (tokenS5.core 0).rx (Ins.a (0xa200448000000000#64)), (tokenS5.core 0).rx
     (Ins.b (0xa200448000000000#64)), by decide +kernel⟩,
   ⟨tokenS6, 0, 0xa30041e000000000#64, (tokenS6.core 0).rx (Ins.a (0xa30041e000000000#64)), by decide +kernel⟩⟩

/-- A value of clause 5 of ControlCompletes. -/
def controlS5 : State :=
  coreRuns { vl := 3 } 0xc518000000000004#64

/-- A value of clause 6 of ControlCompletes. -/
def controlS6 : State :=
  coreRuns { x := [(1, 31)] } 0xc600400000000000#64

/-- A value of clause 7 of ControlCompletes. -/
def controlS7 : State :=
  coreRuns { x := [(1, 31)], srseq := 4 } 0xc600400000000001#64

/-- A value of clause 8 of ControlCompletes. -/
def controlS8 : State :=
  coreRuns { x := [(1, 0x3F)], srseq := 4 } 0xc600400000000005#64

/-- A value of clause 9 of ControlCompletes. -/
def controlS9 : State :=
  (coreRuns { x := [(1, 31)] } 0xc400400000007fff).setReg (corePage 0) Reg.EV_ENABLE 0x200

/-- Values that meet the hypotheses of ControlCompletes, clause by clause. -/
theorem witness_control_completes :
    (∃ (s : State) (c : Nat) (w : Word), Issues s c .nop w ∧ bits w 55 0 = 0) ∧
    (∃ (s : State) (c : Nat) (w : Word), Issues s c .bar w ∧ bits w 55 5 = 0 ∧
      (∀ t ∈ (s.core c).tokens, t.2.kind ≠ 2 ∧ ¬ (t.2.kind = 4 ∧ t.2.port = 0))) ∧
    (∃ (s : State) (c : Nat) (w : Word), Issues s c .twait w ∧ bits w 55 16 = 0 ∧ bits w 15 0 ≠ 0 ∧ (s.core c).tokensIdle
      (bits w 15 0) = true) ∧
    (∃ (s : State) (c : Nat) (w : Word), Issues s c .syncI w ∧ bits w 55 0 = 0 ∧
      (∀ t ∈ (s.core c).tokens, t.2.kind ≠ 1 ∧ t.2.kind ≠ 5)) ∧
    (∃ (s : State) (c : Nat) (w v : Word), Issues s c .crd w ∧ bits w 50 8 = 0 ∧ s.controlReg c (s.core c) (bits w 7 0) =
      some v) ∧
    (∃ (s : State) (c : Nat) (w : Word), Issues s c .cwr w ∧ bits w 55 51 = 0 ∧ bits w 45 8 = 0 ∧ bits w 7 0 = 0) ∧
    (∃ (s : State) (c : Nat) (w : Word), Issues s c .cwr w ∧ bits w 55 51 = 0 ∧ bits w 45 8 = 0 ∧ bits w 7 0 = 1) ∧
    (∃ (s : State) (c : Nat) (w : Word), Issues s c .cwr w ∧ bits w 55 51 = 0 ∧ bits w 45 8 = 0 ∧ bits w 7 0 = 5) ∧
    (∃ (s : State) (c : Nat) (w : Word), Issues s c .evt w ∧ bits w 55 51 = 0 ∧ bits w 45 15 = 0 ∧ bit
      (s.reg (corePage c) Reg.EV_ENABLE) 9 = true) ∧
    (∃ (s : State) (c : Nat) (w : Word), Issues s c .endProg w ∧ bits w 55 0 = 0 ∧ (s.core c).mq = [] ∧ (s.core c).loads =
      [] ∧ (s.core c).tokensIdle 0xFFFF = true ∧ (∀ k x, s.coreTask c = some (k, x) → x.status = .running → ∃ q ∈ x.logical,
      lcidOf q ≠ s.lcid c ∧ x.ended.contains (lcidOf q) = false)) :=
  ⟨⟨coreRuns {} 0xc000000000000000#64, 0, 0xc000000000000000#64, by decide +kernel⟩,
   ⟨coreRuns {} 0xc100000000000013#64, 0, 0xc100000000000013#64, by decide +kernel⟩,
   ⟨coreRuns {} 0xc200000000008001#64, 0, 0xc200000000008001#64, by decide +kernel⟩,
   ⟨coreRuns {} 0xc300000000000000#64, 0, 0xc300000000000000#64, by decide +kernel⟩,
   ⟨controlS5, 0, 0xc518000000000004#64, 2#64, by decide +kernel⟩,
   ⟨controlS6, 0, 0xc600400000000000#64, by decide +kernel⟩,
   ⟨controlS7, 0, 0xc600400000000001#64, by decide +kernel⟩,
   ⟨controlS8, 0, 0xc600400000000005#64, by decide +kernel⟩,
   ⟨controlS9, 0, 0xc400400000007fff#64, by decide +kernel⟩,
   ⟨coreRuns {} 0xc700000000000000#64, 0, 0xc700000000000000#64, by decide +kernel, by decide +kernel, by decide +kernel,
     by decide +kernel, by decide +kernel, fun _ _ h => nomatch (show (none : Option (Nat × Task)) = some _ from h)⟩⟩

/-- A value of clause 1 of CoreUnitsComplete. -/
def coreUnitsS1 : State :=
  { work with cores := [(0, { status := .running })] }

/-- A value of clause 2 of CoreUnitsComplete. -/
def coreUnitsS2 : State :=
  { work with cores := [(0, { status := .running, mq := [⟨0x6308001000000000, 0, 0x100, 0, 0, false, 0⟩], keep :=
                                [(0, ⟨4, false⟩), (1, ⟨4, false⟩)], x := [(1, 5)], wbank :=
                                [(0, { active := true, wfmt := 1 })] })] }

/-- A value of clause 2 of CoreUnitsComplete. -/
def coreUnitsE2 : MqEntry :=
  ⟨0x6308001000000000, 0, 0x100, 0, 0, false, 0⟩

/-- A value of clause 3 of CoreUnitsComplete. -/
def coreUnitsS3 : State :=
  { work with cores := [(0, { status := .running, mq := [⟨0x6308001000000000, 0, 0x100, 0, 0, true, 0⟩], keep :=
                                [(0, ⟨4, false⟩), (1, ⟨4, false⟩)], x := [(1, 5)], wbank :=
                                [(0, { active := true, wfmt := 1 })] })] }

/-- A value of clause 3 of CoreUnitsComplete. -/
def coreUnitsE3 : MqEntry :=
  ⟨0x6308001000000000, 0, 0x100, 0, 0, true, 0⟩

/-- A value of clause 4 of CoreUnitsComplete. -/
def coreUnitsS4 : State :=
  { work with cores := [(0, { loads := [⟨0x6808801180000000, 0x1000, 0, 0⟩] })] }

/-- A value of clause 5 of CoreUnitsComplete. -/
def coreUnitsS5 : State :=
  { work with cores := [(0, { status := .running, pc := 0x3FFF8 })] }

/-- A value of clause 8 of CoreUnitsComplete. -/
def coreUnitsS8 : State :=
  { work with cores := [(0, { mq := [⟨0x6308001000000000, 0, 0x100, 0, 0, false, 0⟩], keep := [(0, ⟨2, true⟩)] })] }

/-- A value of clause 9 of CoreUnitsComplete. -/
def coreUnitsS9 : State :=
  { work with cores := [(0, { keep := [(1, ⟨1, false⟩)] })] }

/-- Values that meet the hypotheses of CoreUnitsComplete, clause by clause. -/
theorem witness_core_units_complete :
    (∃ (s : State) (c line : Nat), (s.core c).status = .running ∧ (s.core c).ended = false ∧ line < 4096) ∧
    (∃ (s : State) (c : Nat) (e : MqEntry) (q : List MqEntry), (s.core c).mq = e :: q ∧ (s.core c).headArrays ≠ [] ∧
      e.started = false ∧ (s.core c).status = .running ∧ (s.core c).drained = false ∧
      (∀ a ∈ (s.core c).headArrays, (s.core c).keeper a = ⟨4, false⟩)) ∧
    (∃ (s : State) (c : Nat) (e : MqEntry) (q : List MqEntry), (s.core c).mq = e :: q ∧ e.started = true ∧
      (s.core c).drained = false ∧ (s.core c).status ≠ .faulted) ∧
    (∃ (s : State) (c : Nat) (l : MlwLoad) (q : List MlwLoad), (s.core c).loads = l :: q) ∧
    (∃ (s : State) (c : Nat), (s.core c).status = .running ∧ (s.core c).ended = false ∧ (s.core c).pc / 64 < 4096) ∧
    (∃ (s : State) (c : Nat) (e : MqEntry) (q : List MqEntry), (s.core c).mq = e :: q ∧ (s.core c).headArrays ≠ [] ∧
      e.started = false ∧ (s.core c).status = .running ∧ (s.core c).drained = false ∧
      (∀ a ∈ (s.core c).headArrays, (s.core c).keeper a = ⟨4, false⟩)) ∧
    (∃ (s : State) (c : Nat) (l : MlwLoad) (q : List MlwLoad), (s.core c).loads = l :: q) ∧
    (∃ (s : State) (c a : Nat), ((s.core c).keeper a).ramping = true ∧ ((s.core c).keeper a).level < 3 ∧ a ∈
      (s.core c).headArrays) ∧
    (∃ (s : State) (c a : Nat), ((s.core c).keeper a).ramping = false ∧ ((s.core c).keeper a).level ≠ 0) ∧
    (∃ (s : State) (i : Ident) (st d : Nat) (v : Word), st < 72 ∧ d < 4 ∧ Admitted s i (Page.computeDie st d) keepCtl v) :=
  ⟨⟨coreUnitsS1, 0, 4095, by decide +kernel⟩,
   ⟨coreUnitsS2, 0, coreUnitsE2, ([] : List MqEntry), by decide +kernel⟩,
   ⟨coreUnitsS3, 0, coreUnitsE3, ([] : List MqEntry), by decide +kernel⟩,
   ⟨coreUnitsS4, 0, (⟨0x6808801180000000, 0x1000, 0, 0⟩ : MlwLoad), ([] : List MlwLoad), by decide +kernel⟩,
   ⟨coreUnitsS5, 0, by decide +kernel⟩,
   ⟨coreUnitsS2, 0, coreUnitsE2, ([] : List MqEntry), by decide +kernel⟩,
   ⟨coreUnitsS4, 0, (⟨0x6808801180000000, 0x1000, 0, 0⟩ : MlwLoad), ([] : List MlwLoad), by decide +kernel⟩,
   ⟨coreUnitsS8, 0, 0, by decide +kernel⟩,
   ⟨coreUnitsS9, 0, 1, by decide +kernel⟩,
   ⟨work, (.mgmt : Ident), 71, 3, 0x81#64, by decide +kernel⟩⟩

/-- A value of clause 1 of StreamsComplete. -/
def streamsS1 : State :=
  { work with cores := [(0, { tokens := [(2, { kind := 4, lsaddr := 64, length := 64, port := 2 })], credits := [(2, 1)] })]
                }

/-- A value of clause 1 of StreamsComplete. -/
def streamsX1 : Token :=
  { kind := 4, lsaddr := 64, length := 64, port := 2 }

/-- A value of clause 2 of StreamsComplete. -/
def streamsS2 : State :=
  { work with cores := [(0, { owed := [(2, 1)] })] }

/-- A value of clause 3 of StreamsComplete. -/
def streamsS3 : State :=
  { work with cores := [(0, { task := some 9, tokens :=
                                [(2, { kind := 4, lsaddr := 64, length := 64, done := 32, dest := 0x0000000100500200 })] }),
                (1, { task := some 9, tokens := [(5, { kind := 3, lsaddr := 0x200, length := 64 })] })] }

/-- A value of clause 3 of StreamsComplete. -/
def streamsX3 : Token :=
  { kind := 4, lsaddr := 64, length := 64, done := 32, dest := 0x0000000100500200 }

/-- A value of clause 4 of StreamsComplete. -/
def streamsS4 : State :=
  ({ work with cores := [(0, { status := .running, tokens := [(15, { kind := 5, port := 2, length := 32, seq := 4 })] })] }
    : State).setReg (corePage 0) Reg.EV_ENABLE 0x80

/-- Values that meet the hypotheses of StreamsComplete, clause by clause. -/
theorem witness_streams_complete :
    (∃ (s : State) (c n port t : Nat) (x : Token), s.neighbour c port = some n ∧ n ≠ c ∧ (s.core c).sendTurn port = some
      (t, x) ∧ (s.core c).credit port ≠ 0 ∧ (s.core c).drained = false ∧ (s.core n).recvTurn (oppositePort port) = none) ∧
    (∃ (s : State) (c n port : Nat), s.neighbour c port = some n ∧ n ≠ c ∧ (s.core c).owed.get 0 port ≠ 0) ∧
    (∃ (s : State) (c d t : Nat) (x : Token), (s.core c).sendHTurn = some (t, x) ∧ (s.core c).drained = false ∧ s.destCore
      x.dest = some d ∧ d ≠ c ∧ (s.core d).task.isSome ∧ s.corePart d = s.corePart c ∧ s.lsStatus d = 0 ∧
      ((s.core d).tokens.get {} (Dest.tok x.dest)).kind = 3 ∧ ((s.core d).tokens.get {} (Dest.tok x.dest)).lsaddr ≤
      Dest.lsaddr x.dest + x.done ∧ Dest.lsaddr x.dest + x.done + 32 ≤ ((s.core d).tokens.get {} (Dest.tok x.dest)).lsaddr +
      ((s.core d).tokens.get {} (Dest.tok x.dest)).length) ∧
    (∃ (s : State) (c op col : Nat), op < 16 ∧ s.logicalCol c = some col ∧ (s.core c).status = .running ∧ s.fld (corePage c)
      Reg.PORT_STALL_LIMIT 15 0 ≠ 0 ∧ ((s.core c).tokens.get {} op).kind = 5 ∧ ((s.core c).tokens.get {} op).faulted = false
      ∧ (s.core c).stalls.contains ((s.core c).tokens.get {} op).seq = false ∧ bit (s.reg (corePage c) Reg.EV_ENABLE) 7 =
      true) :=
  ⟨⟨streamsS1, 0, 1, 2, 2, streamsX1, by decide +kernel⟩,
   ⟨streamsS2, 0, 1, 2, by decide +kernel⟩,
   ⟨streamsS3, 0, 1, 2, streamsX3, by decide +kernel⟩,
   ⟨streamsS4, 0, 15, 0, by decide +kernel⟩⟩

/-- A value of clause 1 of CoreMemoryCompletes. -/
def coreMemoryS1 : State :=
  { work with mem := imageMem, cores := [(0, { wait := .access 0x8818000006000000#64 0x2038 0 false })] }

/-- A value of clause 2 of CoreMemoryCompletes. -/
def coreMemoryS2 : State :=
  { work with mem := imageMem, cores := [(0, { wait := .access 0x8818000006000000#64 0x2038 0 true })] }

/-- A value of clause 3 of CoreMemoryCompletes. -/
def coreMemoryS3 : State :=
  { work with mem := imageMem, cores := [(0, { status := .running, tokens := [(15, { kind := 1, gaddr := 0x1F80, lsaddr :=
                                                                                       0x1000, length := 256, done := 128
                                                                                       })] })] }

/-- A value of clause 3 of CoreMemoryCompletes. -/
def coreMemoryX3 : Token :=
  { kind := 1, gaddr := 0x1F80, lsaddr := 0x1000, length := 256, done := 128 }

/-- A value of clause 4 of CoreMemoryCompletes. -/
def coreMemoryS4 : State :=
  { work with cores := [(0, { status := .stopped })] }

/-- A value of clause 5 of CoreMemoryCompletes. -/
def coreMemoryS5 : State :=
  taskIs { queue := 3, seq := 7, part := 0, status := .running } { wait := .barrier 3 false } work

/-- A value of clause 5 of CoreMemoryCompletes. -/
def coreMemoryX5 : Task :=
  { queue := 3, seq := 7, part := 0, stackBits := 1, dieMask := 1, status := .running }

/-- Values that meet the hypotheses of CoreMemoryCompletes, clause by clause. -/
theorem witness_core_memory_completes :
    (∃ (s : State) (c unit epoch va e : Nat) (w : Word) (bs : List Byte) (u : State), c < coreCount ∧ Ins.opc w = 0x88 ∧
      (s.core c).wait = .access w va e false ∧ s.kept.find (corePage c * 65536 + unit) = none ∧
      (s.keepEpoch (corePage c * 65536 + unit) epoch).coreVirt (s.coreCtxt c) va (.read (2 ^ Ins.size w)) =
      (.status 0, bs, u)) ∧
    (∃ (s : State) (c va e : Nat) (w : Word) (bs : List Byte) (u : State), Ins.opc w = 0x88 ∧ (s.core c).wait = .access w va
      e true ∧ s.coreVirt (s.coreCtxt c) va (.read (2 ^ Ins.size w)) = (.status 0, bs, u)) ∧
    (∃ (s : State) (c t va n : Nat) (x : Token) (bs : List Byte) (u : State), t < 16 ∧ (s.core c).tokens.get {} t = x ∧
      x.kind = 1 ∧ (s.core c).transferOpen x = true ∧ va = (x.gaddr + x.done) % 2 ^ 64 ∧ n = min (inLine va 128)
      (x.length - x.done) ∧ s.vread (s.coreCtxt c) va n = (.status 0, bs, u)) ∧
    (∃ (s : State) (c : Nat), (s.core c).status = .stopped ∧ (s.core c).wait = .none ∧ (s.core c).atBoundary = true ∧
      (s.core c).drained = false ∧ (∀ p, (s.core c).owed.get 0 p = 0) ∧ (s.core c).mq = [] ∧ (s.core c).loads = []) ∧
    (∃ (s : State) (c idx key : Nat) (x : Task), (s.core c).wait = .barrier idx false ∧ s.coreTask c = some (key, x) ∧
      (s.barMembers x c idx false).Nodup ∧ (∀ m ∈ s.barMembers x c idx false, (s.core m).wait = .barrier idx false)) :=
  ⟨⟨coreMemoryS1, 0, 0x1001, 5, 0x2038, 0, 0x8818000006000000#64,
     ((coreMemoryS1.keepEpoch (corePage 0 * 65536 + 0x1001) 5).coreVirt (coreMemoryS1.coreCtxt 0) 0x2038
     (.read (2 ^ Ins.size (0x8818000006000000#64)))).2.1,
     ((coreMemoryS1.keepEpoch (corePage 0 * 65536 + 0x1001) 5).coreVirt (coreMemoryS1.coreCtxt 0) 0x2038
     (.read (2 ^ Ins.size (0x8818000006000000#64)))).2.2, by decide +kernel, by decide +kernel, by decide +kernel,
     by decide +kernel, triple_of_fst (by decide +kernel)⟩,
   ⟨coreMemoryS2, 0, 0x2038, 0, 0x8818000006000000#64,
     (coreMemoryS2.coreVirt (coreMemoryS2.coreCtxt 0) 0x2038 (.read (2 ^ Ins.size (0x8818000006000000#64)))).2.1,
     (coreMemoryS2.coreVirt (coreMemoryS2.coreCtxt 0) 0x2038 (.read (2 ^ Ins.size (0x8818000006000000#64)))).2.2,
     by decide +kernel, by decide +kernel, triple_of_fst (by decide +kernel)⟩,
   ⟨coreMemoryS3, 0, 15, (coreMemoryX3.gaddr + coreMemoryX3.done) % 2 ^ 64, min
     (inLine ((coreMemoryX3.gaddr + coreMemoryX3.done) % 2 ^ 64) 128) (coreMemoryX3.length - coreMemoryX3.done),
     coreMemoryX3, (coreMemoryS3.vread (coreMemoryS3.coreCtxt 0) ((coreMemoryX3.gaddr + coreMemoryX3.done) % 2 ^ 64)
     (min (inLine ((coreMemoryX3.gaddr + coreMemoryX3.done) % 2 ^ 64) 128) (coreMemoryX3.length - coreMemoryX3.done))).2.1,
     (coreMemoryS3.vread (coreMemoryS3.coreCtxt 0) ((coreMemoryX3.gaddr + coreMemoryX3.done) % 2 ^ 64)
     (min (inLine ((coreMemoryX3.gaddr + coreMemoryX3.done) % 2 ^ 64) 128) (coreMemoryX3.length - coreMemoryX3.done))).2.2,
     by decide +kernel, by decide +kernel, by decide +kernel, by decide +kernel, by decide +kernel, by decide +kernel,
     triple_of_fst (by decide +kernel)⟩,
   ⟨coreMemoryS4, 0, by decide +kernel, by decide +kernel, by decide +kernel, by decide +kernel, fun _ => rfl,
     by decide +kernel⟩,
   ⟨coreMemoryS5, 0, 3, cmdKey 3 7, coreMemoryX5, by decide +kernel⟩⟩

/-- A value of clause 1 of KernelCompletes. -/
def kernelS1 : State :=
  withRegs [(Page.interrupt, 0, 0)]
    (cmdIs { queue := 3, seq := 7, kind := 1, cs := [0x2000, 1, 1], payload := [0, 0x10] } { work with
    mem := imageMem })

/-- A value of clause 1 of KernelCompletes. -/
def kernelC1 : Cmd :=
  { queue := 3, seq := 7, kind := 1, cs := [0x2000, 1, 1], payload := [0, 0x10] }

/-- A value of clause 2 of KernelCompletes. -/
def kernelS2 : State :=
  cmdIs { queue := 3, seq := 7, kind := 1, cs := [0x2000, 1, 1], payload := [0, 0x10] }
    { work with mem := imageMem, tasks := [(cmdKey 3 7,
                  { queue := 3, seq := 7, part := 0, stackBits := 1, dieMask := 1, image := 0x2000, status := .ready })] }

/-- A value of clause 2 of KernelCompletes. -/
def kernelX2 : Task :=
  { queue := 3, seq := 7, part := 0, stackBits := 1, dieMask := 1, image := 0x2000, status := .ready }

/-- A value of clause 3 of KernelCompletes. -/
def kernelS3 : State :=
  taskIs { queue := 3, seq := 7, part := 0, status := .running } {}
    { work with stages := [{ task := cmdKey 3 7, stack := 0, round := 0, addr := 0x3000, entries :=
                               [{ src := 0x2000, dst := 0, len := 256, kind := 2 }] }] }

/-- A value of clause 3 of KernelCompletes. -/
def kernelX3 : Task :=
  { queue := 3, seq := 7, part := 0, stackBits := 1, dieMask := 1, status := .running }

/-- A value of clause 3 of KernelCompletes. -/
def kernelG3 : Stage :=
  { task := cmdKey 3 7, stack := 0, round := 0, addr := 0x3000, entries :=
      [{ src := 0x2000, dst := 0, len := 256, kind := 2 }] }

/-- A value of clause 3 of KernelCompletes. -/
def kernelE3 : StageEntry :=
  { src := 0x2000, dst := 0, len := 256, kind := 2 }

/-- A value of clause 4 of KernelCompletes. -/
def kernelS4 : State :=
  taskIs { queue := 3, seq := 7, part := 0, status := .running } { wait := .barrier 0 true }
    { work with stages := [{ task := cmdKey 3 7, stack := 0, round := 0, addr := 0x3000, entries :=
                               [{ src := 0x2000, dst := 0, len := 256, kind := 2 }] }] }

/-- A value of clause 5 of KernelCompletes. -/
def kernelS5 : State :=
  taskIs { queue := 3, seq := 7, part := 0, status := .running } {}
    (withRegs [(Page.scheduler 0, Reg.ROUND_STALL_CTL, 10), (Page.scheduler 0, Reg.EV_ENABLE, 2)]
    { work with stages := [{ task := cmdKey 3 7, stack := 0, round := 0, stallCycles := 16, addr := 0x3000, entries :=
                               [{ src := 0x2000, dst := 0, len := 256, kind := 2 }] }] })

/-- A value of clause 5 of KernelCompletes. -/
def kernelG5 : Stage :=
  { task := cmdKey 3 7, stack := 0, round := 0, stallCycles := 16, addr := 0x3000, entries :=
      [{ src := 0x2000, dst := 0, len := 256, kind := 2 }] }

/-- Values that meet the hypotheses of KernelCompletes, clause by clause. -/
theorem witness_kernel_completes :
    (∃ (s u : State) (q seq : Nat) (c : Cmd) (m : Image), s.cmd q seq = some c ∧ s.task (cmdKey q seq) = none ∧ c.kind = 1 ∧
      c.held = 0 ∧ c.sent = false ∧ s.kernelStatus (taskOf c) = 0 ∧ s.mayStart c = true ∧ (taskOf c).slot = none ∧
      s.readImage ((taskOf c).ctxt ((s.leadStack (taskOf c)).getD 0)) (taskOf c).image = (.status 0, m, u) ∧ m.check = 0) ∧
    (∃ (s u r : State) (q seq : Nat) (c : Cmd) (x : Task) (m : Image) (code : List Byte), s.cmd q seq = some c ∧ s.task
      (cmdKey q seq) = some x ∧ x.status = .ready ∧ s.mayStart c = true ∧ c.held = 0 ∧ s.coresFree x = true ∧ s.heldOff x =
      false ∧ s.coresFaulted x = false ∧ s.taskBound x = true ∧ s.taskDiesReady x = true ∧ x.slot = none ∧ x.resume = false
      ∧ x.manifestTable = 0 ∧ s.readImage (x.ctxt ((s.leadStack x).getD 0)) x.image = (.status 0, m, u) ∧ u.vread
      (x.ctxt ((s.leadStack x).getD 0)) (x.image + m.codeOff) m.codeSize = (.status 0, code, r)) ∧
    (∃ (s u : State) (q seq stack i n k : Nat) (x : Task) (g g' : Stage) (e : StageEntry), s.task (cmdKey q seq) = some x ∧
      ((s.stages.find? fun g => decide (g.task = cmdKey q seq ∧ g.stack = stack) && !g.complete) = some g) ∧ g.entries[i]? =
      some e ∧ e.done = false ∧ g.hdrWait = false ∧ g.pageWait = none ∧ e.kind = 2 ∧ State.touchLines (x.ctxt stack)
      (min n (e.len / 128 - e.pos)) s g (e.src + 128 * e.pos) = (.status 0, k, g', u)) ∧
    (∃ (s : State) (q seq stack cause : Nat) (x : Task) (g : Stage), s.task (cmdKey q seq) = some x ∧
      ((s.stages.find? fun g => decide (g.task = cmdKey q seq ∧ g.stack = stack ∧ g.round = x.rounds) && !g.complete) = some
      g) ∧ s.roundArrived (cmdKey q seq) x = true ∧ 1 ≤ cause ∧ cause ≤ 6) ∧
    (∃ (s : State) (q seq stack : Nat) (x : Task) (g : Stage), s.task (cmdKey q seq) = some x ∧
      ((s.stages.find? fun g => decide (g.task = cmdKey q seq ∧ g.stack = stack ∧ g.round = x.rounds) && !g.complete) = some
      g) ∧ s.fld (Page.scheduler stack) Reg.ROUND_STALL_CTL 31 0 ≠ 0 ∧ g.stallPosted = false ∧ s.fld (Page.scheduler stack)
      Reg.ROUND_STALL_CTL 31 0 * 8 ≤ g.stallCycles * 5 ∧ bit (s.reg (Page.scheduler stack) Reg.EV_ENABLE) 1 = true) :=
  ⟨⟨kernelS1, (kernelS1.readImage ((taskOf kernelC1).ctxt ((kernelS1.leadStack (taskOf kernelC1)).getD 0))
     (taskOf kernelC1).image).2.2, 3, 7, kernelC1, (kernelS1.readImage
     ((taskOf kernelC1).ctxt ((kernelS1.leadStack (taskOf kernelC1)).getD 0)) (taskOf kernelC1).image).2.1,
     by decide +kernel, by decide +kernel, by decide +kernel, by decide +kernel, by decide +kernel, by decide +kernel,
     by decide +kernel, by decide +kernel, triple_of_fst (by decide +kernel), by decide +kernel⟩,
   ⟨kernelS2, (kernelS2.readImage (kernelX2.ctxt ((kernelS2.leadStack kernelX2).getD 0)) kernelX2.image).2.2,
     (((kernelS2.readImage (kernelX2.ctxt ((kernelS2.leadStack kernelX2).getD 0)) kernelX2.image).2.2).vread
     (kernelX2.ctxt ((kernelS2.leadStack kernelX2).getD 0))
     (kernelX2.image +
     ((kernelS2.readImage (kernelX2.ctxt ((kernelS2.leadStack kernelX2).getD 0)) kernelX2.image).2.1).codeOff)
     ((kernelS2.readImage (kernelX2.ctxt ((kernelS2.leadStack kernelX2).getD 0)) kernelX2.image).2.1).codeSize).2.2, 3, 7,
     kernelC1, kernelX2, (kernelS2.readImage (kernelX2.ctxt ((kernelS2.leadStack kernelX2).getD 0)) kernelX2.image).2.1,
     (((kernelS2.readImage (kernelX2.ctxt ((kernelS2.leadStack kernelX2).getD 0)) kernelX2.image).2.2).vread
     (kernelX2.ctxt ((kernelS2.leadStack kernelX2).getD 0))
     (kernelX2.image +
     ((kernelS2.readImage (kernelX2.ctxt ((kernelS2.leadStack kernelX2).getD 0)) kernelX2.image).2.1).codeOff)
     ((kernelS2.readImage (kernelX2.ctxt ((kernelS2.leadStack kernelX2).getD 0)) kernelX2.image).2.1).codeSize).2.1,
     by decide +kernel, by decide +kernel, by decide +kernel, by decide +kernel, by decide +kernel, by decide +kernel,
     by decide +kernel, by decide +kernel, by decide +kernel, by decide +kernel, by decide +kernel, by decide +kernel,
     by decide +kernel, triple_of_fst (by decide +kernel), triple_of_fst (by decide +kernel)⟩,
   ⟨kernelS3, (State.touchLines (kernelX3.ctxt 0) (min 2 (kernelE3.len / 128 - kernelE3.pos)) kernelS3 kernelG3
     (kernelE3.src + 128 * kernelE3.pos)).2.2.2, 3, 7, 0, 0, 2,
     (State.touchLines (kernelX3.ctxt 0) (min 2 (kernelE3.len / 128 - kernelE3.pos)) kernelS3 kernelG3
     (kernelE3.src + 128 * kernelE3.pos)).2.1, kernelX3, kernelG3,
     (State.touchLines (kernelX3.ctxt 0) (min 2 (kernelE3.len / 128 - kernelE3.pos)) kernelS3 kernelG3
     (kernelE3.src + 128 * kernelE3.pos)).2.2.1, kernelE3, by decide +kernel, by decide +kernel, by decide +kernel,
     by decide +kernel, by decide +kernel, by decide +kernel, by decide +kernel, quadruple_of_fst (by decide +kernel)⟩,
   ⟨kernelS4, 3, 7, 0, 6, kernelX3, kernelG3, by decide +kernel⟩,
   ⟨kernelS5, 3, 7, 0, kernelX3, kernelG5, by decide +kernel⟩⟩

/-- A value of clause 1 of PreemptionCompletes. -/
def preemptionS1 : State :=
  taskIs { queue := 3, seq := 7, part := 0, status := .running, request := 1 } { status := .running } work

/-- A value of clause 1 of PreemptionCompletes. -/
def preemptionX1 : Task :=
  { queue := 3, seq := 7, part := 0, stackBits := 1, dieMask := 1, status := .running, request := 1 }

/-- A value of clause 2 of PreemptionCompletes. -/
def preemptionS2 : State :=
  taskIs { queue := 3, seq := 7, part := 0, status := .stopping, wantCheap := true } { status := .running }
    (withRegs [(Page.clock, Reg.PANEL_TIME, 65535000)] work)

/-- A value of clause 2 of PreemptionCompletes. -/
def preemptionX2 : Task :=
  { queue := 3, seq := 7, part := 0, stackBits := 1, dieMask := 1, status := .stopping, wantCheap := true }

/-- A value of clause 3 of PreemptionCompletes. -/
def preemptionS3 : State :=
  withRegs [(Page.scheduler 0, Reg.SCHED_CTL, 0x100000000), (Page.clock, Reg.PANEL_TIME, 1000)]
    { taskIs { queue := 3, seq := 7, part := 0, status := .running } {} work with
    tasks := [(cmdKey 3 7, { queue := 3, seq := 7, part := 0, stackBits := 1, dieMask := 1, status := .running }),
      (cmdKey 3 8, { queue := 3, seq := 8, part := 0, stackBits := 1, dieMask := 1, status := .ready })] }

/-- A value of clause 3 of PreemptionCompletes. -/
def preemptionX3 : Task :=
  { queue := 3, seq := 7, part := 0, stackBits := 1, dieMask := 1, status := .running }

/-- A value of clause 3 of PreemptionCompletes. -/
def preemptionY3 : Task :=
  { queue := 3, seq := 8, part := 0, stackBits := 1, dieMask := 1, status := .ready }

/-- A value of clause 4 of PreemptionCompletes. -/
def preemptionS4 : State :=
  taskIs { queue := 3, seq := 7, part := 0, status := .running, jobTag := 0xFFF } {} work

/-- A value of clause 4 of PreemptionCompletes. -/
def preemptionX4 : Task :=
  { queue := 3, seq := 7, part := 0, stackBits := 1, dieMask := 1, status := .running, jobTag := 0xFFF }

/-- Values that meet the hypotheses of PreemptionCompletes, clause by clause. -/
theorem witness_preemption_completes :
    (∃ (s : State) (q seq : Nat) (x : Task), s.task (cmdKey q seq) = some x ∧ x.status = .running ∧ s.pageStopped x = false
      ∧ x.request = 1 ∧ x.cheap = false) ∧
    (∃ (s : State) (q seq : Nat) (x : Task), s.task (cmdKey q seq) = some x ∧ x.status = .stopping ∧ x.wantCheap = true ∧
      x.stopAt + s.cheapWindow x ≤ s.panelTime.toNat) ∧
    (∃ (s : State) (q seq rival : Nat) (x y : Task), s.task (cmdKey q seq) = some x ∧ x.status = .running ∧ x.cheap = false
      ∧ s.fld (Page.scheduler ((s.leadStack x).getD 0)) Reg.SCHED_CTL 47 32 ≠ 0 ∧ x.since + 1000 * s.fld
      (Page.scheduler ((s.leadStack x).getD 0)) Reg.SCHED_CTL 47 32 ≤ s.panelTime.toNat ∧ (rival, y) ∈ s.tasks ∧ rival ≠
      cmdKey q seq ∧ y.prio = x.prio ∧ y.overlaps x = true ∧ y.waitsPage = false ∧ y.status = .ready) ∧
    (∃ (s : State) (i : Ident) (stack key : Nat) (v : Word) (x : Task), stack < 72 ∧ Admitted s i (Page.scheduler stack)
      Reg.PREEMPT_REQ v ∧ bit v 0 = true ∧ s.fld (Page.scheduler stack) Reg.PREEMPT_REQ 1 1 = 0 ∧
      ((s.tasks.find? fun e => decide (e.2.jobTag = bits v 31 20 ∧ e.2.status = .running ∧ s.leadStack e.2 = some stack) &&
      (match identPart i with | some p => decide (e.2.part = p) | none => true)) = some (key, x))) ∧
    (∃ (s : State) (i : Ident) (stack l : Nat) (v : Word), stack < 72 ∧ Admitted s i (Page.scheduler stack) Reg.RT_RESERVE v
      ∧ s.logicalStack stack = some l ∧ s.ownsStack (bits v 53 48) l = true ∧ s.reserveBusy stack v = false) :=
  ⟨⟨preemptionS1, 3, 7, preemptionX1, by decide +kernel⟩,
   ⟨preemptionS2, 3, 7, preemptionX2, by decide +kernel⟩,
   ⟨preemptionS3, 3, 7, cmdKey 3 8, preemptionX3, preemptionY3, by decide +kernel⟩,
   ⟨preemptionS4, (.hostVf 0 : Ident), 0, cmdKey 3 7, 0xFFF10001#64, preemptionX4, by decide +kernel⟩,
   ⟨work, (.mgmt : Ident), 0, 0, 0x8000000F00001D00#64, by decide +kernel⟩⟩

/-- A value of clause 1 of SaveAndFailComplete. -/
def saveAndFailS1 : State :=
  { work with mem := imageMem, cores :=
                [(0, { task := some (cmdKey 3 7), drained := true, pc := 64 }), (1, { task := some (cmdKey 3 7) })], tasks
                := [(cmdKey 3 7, { queue := 3, seq := 7, part := 0, stackBits := 1, dieMask := 1, colLast := 1, cheapPoints
                                     := [⟨64, 0, 0, 0, 0, true⟩], status := .stopping, saveTable := 0x1000 })] }

/-- A value of clause 1 of SaveAndFailComplete. -/
def saveAndFailX1 : Task :=
  { queue := 3, seq := 7, part := 0, stackBits := 1, dieMask := 1, colLast := 1, cheapPoints := [⟨64, 0, 0, 0, 0, true⟩],
      status := .stopping, saveTable := 0x1000 }

/-- A value of clause 2 of SaveAndFailComplete. -/
def saveAndFailS2 : State :=
  { work with tasks := [(cmdKey 3 7, { queue := 3, seq := 7, part := 0, stackBits := 1, dieMask := 1, rowFirst := 1,
                                         saveTable := 0x1000, status := .switchedOut })] }

/-- A value of clause 2 of SaveAndFailComplete. -/
def saveAndFailX2 : Task :=
  { queue := 3, seq := 7, part := 0, stackBits := 1, dieMask := 1, rowFirst := 1, saveTable := 0x1000, status :=
      .switchedOut }

/-- A value of clause 3 of SaveAndFailComplete. -/
def saveAndFailS3 : State :=
  taskIs { queue := 3, seq := 7, part := 0, status := .running } { fault := ⟨2, 0x31, 0xFFFF, 64, 0x40000, 0⟩ } work

/-- A value of clause 3 of SaveAndFailComplete. -/
def saveAndFailX3 : Task :=
  { queue := 3, seq := 7, part := 0, stackBits := 1, dieMask := 1, status := .running }

/-- A value of clause 4 of SaveAndFailComplete. -/
def saveAndFailS4 : State :=
  taskIs { queue := 3, seq := 7, part := 0, status := .running } {}
    (withRegs [(Page.scheduler 0, Reg.EV_ENABLE, 0x80)]
    { work with stages := [{ task := cmdKey 3 7, stack := 0, round := 0, addr := 0x3000, entries :=
                               [{ src := 0x2000, dst := 0, len := 256, kind := 2 }] }] })

/-- A value of clause 4 of SaveAndFailComplete. -/
def saveAndFailG4 : Stage :=
  { task := cmdKey 3 7, stack := 0, round := 0, addr := 0x3000, entries :=
      [{ src := 0x2000, dst := 0, len := 256, kind := 2 }] }

/-- Values that meet the hypotheses of SaveAndFailComplete, clause by clause. -/
theorem witness_save_and_fail_complete :
    (∃ (s u : State) (c key a other : Nat) (x : Task), s.coreTask c = some (key, x) ∧ (s.core c).drained = true ∧
      (s.core c).saved = false ∧ x.status = .stopping ∧ (s.logicalPlace c).bind (s.recordAddr x x.saveTable) = some a ∧
      State.writeChunks (x.ctxt (coreStack c)) a c (saveInfo (s.cheapSave c x))
      (saveChunks ((s.cheapSave c x).map Prod.snd)) s = (.status 0, u) ∧ u.task key = some x ∧ other ≠ c ∧ other ∈
      u.taskCores x ∧ (u.core other).task = some key ∧ (u.core other).saved = false) ∧
    (∃ (s u : State) (q seq : Nat) (x : Task), s.task (cmdKey q seq) = some x ∧ x.status = .switchedOut ∧ x.waitsPage =
      false ∧ s.taskDiesReady x = true ∧ s.coresFree x = true ∧ s.notFirst (cmdKey q seq) x = false ∧ s.coresFaulted x =
      false ∧ s.saveHomed x = true ∧ State.loadAll x (cmdKey q seq) x.saveTable false x.logical s = (.status 0, u)) ∧
    (∃ (s : State) (c key : Nat) (x : Task), s.coreTask c = some (key, x) ∧ x.status = .running ∧ (s.core c).fault.cause ≠ 0
      ∧ (s.core c).pageStop = false) ∧
    (∃ (s : State) (q seq stack entry status : Nat) (g : Stage) (x : Task),
      ((s.stages.find? fun g => decide (g.task = cmdKey q seq ∧ g.stack = stack) && !g.complete) = some g) ∧ 2 ≤ status ∧
      entry < g.entries.length ∧ s.task (cmdKey q seq) = some x ∧ x.status = .running ∧ bit
      (s.reg (Page.scheduler stack) Reg.EV_ENABLE) 7 = true) :=
  ⟨⟨saveAndFailS1, (State.writeChunks (saveAndFailX1.ctxt (coreStack 0)) 0x10000 0
     (saveInfo (saveAndFailS1.cheapSave 0 saveAndFailX1))
     (saveChunks ((saveAndFailS1.cheapSave 0 saveAndFailX1).map Prod.snd)) saveAndFailS1).2, 0, cmdKey 3 7, 0x10000, 1,
     saveAndFailX1, by decide +kernel, by decide +kernel, by decide +kernel, by decide +kernel, by decide +kernel,
     pair_of_fst (by decide +kernel), by decide +kernel⟩,
   ⟨saveAndFailS2,
     (State.loadAll saveAndFailX2 (cmdKey 3 7) saveAndFailX2.saveTable false saveAndFailX2.logical saveAndFailS2).2, 3, 7,
     saveAndFailX2, by decide +kernel, by decide +kernel, by decide +kernel, by decide +kernel, by decide +kernel,
     by decide +kernel, by decide +kernel, by decide +kernel, pair_of_fst (by decide +kernel)⟩,
   ⟨saveAndFailS3, 0, cmdKey 3 7, saveAndFailX3, by decide +kernel⟩,
   ⟨saveAndFailS4, 3, 7, 0, 0, 0x40, saveAndFailG4, saveAndFailX3, by decide +kernel⟩⟩

/-- A value of clause 1 of CommandsComplete. -/
def commandsS1 : State :=
  cmdIs { queue := 3, seq := 7, kind := 9 } { withRegs [(Page.queueBlock 3, qOff 3 8, 0x3000),
                                                (Page.queueBlock 3, qOff 3 Q.bind, 0x8500000000000200),
                                                (Page.queueBlock 3, qOff 3 Q.cfg, 0x8000000000000000)] work with
    written := [regKey (Page.queueBlock 3) (qOff 3 8)] }

/-- A value of clause 1 of CommandsComplete. -/
def commandsC1 : Cmd :=
  { queue := 3, seq := 7, kind := 9 }

/-- A value of clause 2 of CommandsComplete. -/
def commandsS2 : State :=
  cmdIs { queue := 3, seq := 7, kind := 6 } work

/-- A value of clause 2 of CommandsComplete. -/
def commandsC2 : Cmd :=
  { queue := 3, seq := 7, kind := 6 }

/-- A value of clause 3 of CommandsComplete. -/
def commandsS3 : State :=
  cmdIs { queue := 3, seq := 7, kind := 7, cs := [0xFFFF, 5] } (withRegs [(Page.queueBlock 3, Reg.EV_ENABLE, 0xFFFF)] work)

/-- A value of clause 3 of CommandsComplete. -/
def commandsC3 : Cmd :=
  { queue := 3, seq := 7, kind := 7, cs := [0xFFFF, 5] }

/-- A value of clause 4 of CommandsComplete. -/
def commandsS4 : State :=
  cmdIs { queue := 3, seq := 7, kind := 10, cs := [3, 0x1000028] } work

/-- A value of clause 4 of CommandsComplete. -/
def commandsC4 : Cmd :=
  { queue := 3, seq := 7, kind := 10, cs := [3, 0x1000028] }

/-- A value of clause 5 of CommandsComplete. -/
def commandsS5 : State :=
  { withRegs [(Page.queueBlock 3, qOff 3 0, 0x3000), (Page.queueBlock 3, qOff 3 Q.tail, 1),
      (Page.queueBlock 3, qOff 3 Q.bind, 0x8500000000000200), (Page.queueBlock 3, qOff 3 Q.cfg, 0x8000000000000001)] work
      with written := [regKey (Page.queueBlock 3) (qOff 3 0)], mem := [(0x3000, 9)] }

/-- Values that meet the hypotheses of CommandsComplete, clause by clause. -/
theorem witness_commands_complete :
    (∃ (s r : State) (q seq base n : Nat) (c : Cmd), s.cmd q seq = some c ∧ c.kind = 9 ∧ s.mayStart c = true ∧ c.fwd = none
      ∧ c.flags.testBit 1 = false ∧ (s.queue q).stalled = [] ∧ s.queuePort q ≠ Q.hostVf ∧ s.addrReg (Page.queueBlock q)
      (qOff q 8) = some base ∧ s.vwrite (s.queueCtxt q) (base + 32 * (s.queue q).cqTail)
      (listSet (entryBytes c.cmdId 0 0 9 q []) 5 (BitVec.ofNat 8 (9 + if (s.queue q).phase then 128 else 0))) =
      (.status 0, n, r)) ∧
    (∃ (s : State) (q seq : Nat) (c : Cmd), s.cmd q seq = some c ∧ c.kind = 6 ∧ s.mayStart c = true ∧
      (∀ e ∈ barrierEntries c, seqLe e.2 (bits (s.qreg e.1 Q.stat) 31 0) = true)) ∧
    (∃ (s : State) (q seq : Nat) (c : Cmd), s.cmd q seq = some c ∧ c.kind = 7 ∧ s.mayStart c = true) ∧
    (∃ (s a b : State) (q seq page : Nat) (c : Cmd) (k : PageKind) (v0 v1 : Word), s.cmd q seq = some c ∧ c.kind = 10 ∧
      s.mayStart c = true ∧ page = c.cs.getD 0 0 % 2 ^ 14 ∧ pageKind page = some k ∧ page ≠ 0x102 ∧ s.unreached page = false
      ∧ s.mayRead (s.queueIdent q) page (natBits (c.cs.getD 1 0) 11 0) = true ∧ s.mayRead (s.queueIdent q) page
      (natBits (c.cs.getD 1 0) 27 16) = true ∧ s.queryValue (s.queueIdent q) page (natBits (c.cs.getD 1 0) 11 0) = (v0, a) ∧
      a.queryValue (s.queueIdent q) page (natBits (c.cs.getD 1 0) 27 16) = (v1, b)) ∧
    (∃ (s u : State) (q base : Nat) (b : List Byte), bits (s.qreg q Q.cfg) 63 63 = 1 ∧ bits (s.qreg q Q.bind) 63 63 = 1 ∧
      bits (s.qreg q Q.stat) 59 48 ≠ bits (s.qreg q Q.tail) 11 0 ∧ s.inFlight q + (s.queue q).unread < s.ringSize q ∧
      (s.queue q).fetchWait = none ∧ s.forwardEntry q = none ∧ s.addrReg (Page.queueBlock q) (qOff q 0) = some base ∧
      s.vread (s.queueCtxt q) (base + 512 * bits (s.qreg q Q.stat) 59 48) 512 = (.status 0, b, u)) ∧
    (∃ (s : State) (q : Nat) (b : List Byte), s.queuePort q ≠ Q.hostVf ∧ s.forwardEntry q = none ∧ headSound b = true ∧ leAt
      b 0 1 = 9 ∧ (∀ i, i < 4 → leAt b (32 + 8 * i) 8 = 0) ∧ leAt b 2 1 = 0 ∧ leAt b 4 2 = 0 ∧ bit (s.qreg q Q.bind) 9 =
      true) :=
  ⟨⟨commandsS1, (commandsS1.vwrite (commandsS1.queueCtxt 3) (0x3000 + 32 * (commandsS1.queue 3).cqTail)
     (listSet (entryBytes commandsC1.cmdId 0 0 9 3 []) 5
     (BitVec.ofNat 8 (9 + if (commandsS1.queue 3).phase then 128 else 0)))).2.2, 3, 7, 0x3000,
     (commandsS1.vwrite (commandsS1.queueCtxt 3) (0x3000 + 32 * (commandsS1.queue 3).cqTail)
     (listSet (entryBytes commandsC1.cmdId 0 0 9 3 []) 5
     (BitVec.ofNat 8 (9 + if (commandsS1.queue 3).phase then 128 else 0)))).2.1, commandsC1, by decide +kernel,
     by decide +kernel, by decide +kernel, by decide +kernel, by decide +kernel, by decide +kernel, by decide +kernel,
     by decide +kernel, triple_of_fst (by decide +kernel)⟩,
   ⟨commandsS2, 3, 7, commandsC2, by decide +kernel⟩,
   ⟨commandsS3, 3, 7, commandsC3, by decide +kernel⟩,
   ⟨commandsS4, (commandsS4.queryValue (commandsS4.queueIdent 3) (commandsC4.cs.getD 0 0 % 2 ^ 14)
     (natBits (commandsC4.cs.getD 1 0) 11 0)).2, (((commandsS4.queryValue (commandsS4.queueIdent 3)
     (commandsC4.cs.getD 0 0 % 2 ^ 14) (natBits (commandsC4.cs.getD 1 0) 11 0)).2).queryValue (commandsS4.queueIdent 3)
     (commandsC4.cs.getD 0 0 % 2 ^ 14) (natBits (commandsC4.cs.getD 1 0) 27 16)).2, 3, 7, commandsC4.cs.getD 0 0 % 2 ^ 14,
     commandsC4, (.clock : PageKind), (commandsS4.queryValue (commandsS4.queueIdent 3) (commandsC4.cs.getD 0 0 % 2 ^ 14)
     (natBits (commandsC4.cs.getD 1 0) 11 0)).1, (((commandsS4.queryValue (commandsS4.queueIdent 3)
     (commandsC4.cs.getD 0 0 % 2 ^ 14) (natBits (commandsC4.cs.getD 1 0) 11 0)).2).queryValue (commandsS4.queueIdent 3)
     (commandsC4.cs.getD 0 0 % 2 ^ 14) (natBits (commandsC4.cs.getD 1 0) 27 16)).1, by decide +kernel⟩,
   ⟨commandsS5, (commandsS5.vread (commandsS5.queueCtxt 3) (0x3000 + 512 * bits (commandsS5.qreg 3 Q.stat) 59 48) 512).2.2,
     3, 0x3000, (commandsS5.vread (commandsS5.queueCtxt 3) (0x3000 + 512 * bits (commandsS5.qreg 3 Q.stat) 59 48) 512).2.1,
     by decide +kernel, by decide +kernel, by decide +kernel, by decide +kernel, by decide +kernel, by decide +kernel,
     by decide +kernel, triple_of_fst (by decide +kernel)⟩,
   ⟨commandsS5, 3, (9 : Byte) :: List.replicate 511 0, by decide +kernel, by decide +kernel, by decide +kernel,
     by decide +kernel, by intro i hi; interval_cases i <;> decide +kernel, by decide +kernel⟩⟩

/-- A value of clause 1 of EngineCommandsComplete. -/
def engineCommandsS1 : State :=
  cmdIs { queue := 3, seq := 7, kind := 2, cs := [0x2000, 0x4000, 256], progress := 128, active := true }
    { work with mem := imageMem }

/-- A value of clause 1 of EngineCommandsComplete. -/
def engineCommandsC1 : Cmd :=
  { queue := 3, seq := 7, kind := 2, cs := [0x2000, 0x4000, 256], progress := 128, active := true }

/-- A value of clause 2 of EngineCommandsComplete. -/
def engineCommandsS2 : State :=
  cmdIs { queue := 3, seq := 7, kind := 2, cs := [0x2000, 0x4000, 256], active := true } { work with
    mem := imageMem }

/-- A value of clause 2 of EngineCommandsComplete. -/
def engineCommandsC2 : Cmd :=
  { queue := 3, seq := 7, kind := 2, cs := [0x2000, 0x4000, 256], active := true }

/-- A value of clause 3 of EngineCommandsComplete. -/
def engineCommandsS3 : State :=
  cmdIs { queue := 3, seq := 7, kind := 8, cs := [0x4000], payload := [1, 2, 3], active := true } work

/-- A value of clause 3 of EngineCommandsComplete. -/
def engineCommandsC3 : Cmd :=
  { queue := 3, seq := 7, kind := 8, cs := [0x4000], payload := [1, 2, 3], active := true }

/-- A value of clause 4 of EngineCommandsComplete. -/
def engineCommandsS4 : State :=
  cmdIs { queue := 3, seq := 7, kind := 2 } work

/-- A value of clause 4 of EngineCommandsComplete. -/
def engineCommandsC4 : Cmd :=
  { queue := 3, seq := 7, kind := 2 }

/-- A value of clause 5 of EngineCommandsComplete. -/
def engineCommandsS5 : State :=
  cmdIs { queue := 3, seq := 7, kind := 2, held := 1 } work

/-- A value of clause 5 of EngineCommandsComplete. -/
def engineCommandsC5 : Cmd :=
  { queue := 3, seq := 7, kind := 2, held := 1 }

/-- A value of clause 6 of EngineCommandsComplete. -/
def engineCommandsS6 : State :=
  cmdIs { queue := 3, seq := 7, kind := 3, cs := [0x6000], active := true } { work with
    mem := collMem }

/-- A value of clause 6 of EngineCommandsComplete. -/
def engineCommandsC6 : Cmd :=
  { queue := 3, seq := 7, kind := 3, cs := [0x6000], active := true }

/-- A value of clause 7 of EngineCommandsComplete. -/
def engineCommandsS7 : State :=
  withRegs [(Page.clock, Reg.PANEL_TIME, 1001)] { work with
    colls := [(cmdKey 3 7, { coll with timeoutUs := 1 })] }

/-- A value of clause 8 of EngineCommandsComplete. -/
def engineCommandsS8 : State :=
  { work with colls := [(cmdKey 3 7, { coll with
                resend := [stepPkt] })] }

/-- Values that meet the hypotheses of EngineCommandsComplete, clause by clause. -/
theorem witness_engine_commands_complete :
    (∃ (s u : State) (q seq n m : Nat) (c : Cmd), s.cmd q seq = some c ∧ c.kind = 2 ∧ s.mayIssue c = true ∧ m = min n
      (c.cs.getD 2 0 - c.progress) ∧ c.progress + m = c.cs.getD 2 0 ∧ State.moveLines (s.cmdCtxt c .mover)
      (2 * (m / 128) + 4) s (c.cs.getD 0 0 + c.progress) (c.cs.getD 1 0 + c.progress) m = (.status 0, m, u)) ∧
    (∃ (s u : State) (q seq n m : Nat) (c : Cmd), s.cmd q seq = some c ∧ c.kind = 2 ∧ s.mayIssue c = true ∧ m = min n
      (c.cs.getD 2 0 - c.progress) ∧ c.progress + m ≠ c.cs.getD 2 0 ∧ State.moveLines (s.cmdCtxt c .mover)
      (2 * (m / 128) + 4) s (c.cs.getD 0 0 + c.progress) (c.cs.getD 1 0 + c.progress) m = (.status 0, m, u)) ∧
    (∃ (s u : State) (q seq m : Nat) (c : Cmd), s.cmd q seq = some c ∧ c.kind = 8 ∧ s.mayIssue c = true ∧ m =
      c.payload.length - c.progress ∧ c.progress ≤ c.payload.length ∧ State.inlineLines (s.cmdCtxt c .mover) 8 s
      (c.cs.getD 0 0 + c.progress) (c.payload.drop c.progress) = (.status 0, m, u)) ∧
    (∃ (s : State) (q seq : Nat) (c : Cmd), s.cmd q seq = some c ∧ c.queue = q ∧ c.seq = seq ∧ s.nextActive c = true) ∧
    (∃ (s : State) (q seq : Nat) (c : Cmd), s.cmd q seq = some c ∧ c.queue = q ∧ c.seq = seq ∧ c.held = 1) ∧
    (∃ (s u r : State) (q seq p : Nat) (c : Cmd) (d ranks : List Byte), s.cmd q seq = some c ∧ c.kind = 3 ∧ s.mayIssue c =
      true ∧ s.boundStack c.target = some p ∧ s.colls.find (cmdKey q seq) = none ∧ c.cs.getD 0 0 % 64 = 0 ∧ s.vread
      ⟨some p, c.part, c.pasid, .engine⟩ (c.cs.getD 0 0) 128 = (.status 0, d, u) ∧ descStatus d = 0 ∧ u.vread
      ⟨some p, c.part, c.pasid, .engine⟩ (leAt d 32 8) (4 * leAt d 12 2) = (.status 0, ranks, r) ∧
      (∀ k, k < leAt d 12 2 → leAt ranks (4 * k) 4 < 2 ^ 18)) ∧
    (∃ (s : State) (q seq : Nat) (c : Coll), s.colls.find (cmdKey q seq) = some c ∧ c.armedAt + 1000 * (c.timeoutUs + c.ext)
      < s.panelTime.toNat) ∧
    (∃ (s : State) (q seq : Nat) (c : Coll) (p : Packet), s.colls.find (cmdKey q seq) = some c ∧ c.key = cmdKey q seq ∧
      c.resend = [p] ∧ p.dst = s.moduleId ∧ ({ c with
      resend := [] } : Coll).finished = false) :=
  ⟨⟨engineCommandsS1, (State.moveLines (engineCommandsS1.cmdCtxt engineCommandsC1 .mover)
     (2 * ((min 1000 (engineCommandsC1.cs.getD 2 0 - engineCommandsC1.progress)) / 128) + 4) engineCommandsS1
     (engineCommandsC1.cs.getD 0 0 + engineCommandsC1.progress) (engineCommandsC1.cs.getD 1 0 + engineCommandsC1.progress)
     (min 1000 (engineCommandsC1.cs.getD 2 0 - engineCommandsC1.progress))).2.2, 3, 7, 1000, min 1000
     (engineCommandsC1.cs.getD 2 0 - engineCommandsC1.progress), engineCommandsC1, by decide +kernel, by decide +kernel,
     by decide +kernel, by decide +kernel, by decide +kernel, triple_of_two (by decide +kernel) (by decide +kernel)⟩,
   ⟨engineCommandsS2, (State.moveLines (engineCommandsS2.cmdCtxt engineCommandsC2 .mover)
     (2 * ((min 128 (engineCommandsC2.cs.getD 2 0 - engineCommandsC2.progress)) / 128) + 4) engineCommandsS2
     (engineCommandsC2.cs.getD 0 0 + engineCommandsC2.progress) (engineCommandsC2.cs.getD 1 0 + engineCommandsC2.progress)
     (min 128 (engineCommandsC2.cs.getD 2 0 - engineCommandsC2.progress))).2.2, 3, 7, 128, min 128
     (engineCommandsC2.cs.getD 2 0 - engineCommandsC2.progress), engineCommandsC2, by decide +kernel, by decide +kernel,
     by decide +kernel, by decide +kernel, by decide +kernel, triple_of_two (by decide +kernel) (by decide +kernel)⟩,
   ⟨engineCommandsS3, (State.inlineLines (engineCommandsS3.cmdCtxt engineCommandsC3 .mover) 8 engineCommandsS3
     (engineCommandsC3.cs.getD 0 0 + engineCommandsC3.progress)
     (engineCommandsC3.payload.drop engineCommandsC3.progress)).2.2, 3, 7, engineCommandsC3.payload.length -
     engineCommandsC3.progress, engineCommandsC3, by decide +kernel, by decide +kernel, by decide +kernel,
     by decide +kernel, by decide +kernel, triple_of_two (by decide +kernel) (by decide +kernel)⟩,
   ⟨engineCommandsS4, 3, 7, engineCommandsC4, by decide +kernel⟩,
   ⟨engineCommandsS5, 3, 7, engineCommandsC5, by decide +kernel⟩,
   ⟨engineCommandsS6, (engineCommandsS6.vread ⟨some 0, engineCommandsC6.part, engineCommandsC6.pasid, .engine⟩
     (engineCommandsC6.cs.getD 0 0) 128).2.2, (((engineCommandsS6.vread
     ⟨some 0, engineCommandsC6.part, engineCommandsC6.pasid, .engine⟩ (engineCommandsC6.cs.getD 0 0) 128).2.2).vread
     ⟨some 0, engineCommandsC6.part, engineCommandsC6.pasid, .engine⟩
     (leAt ((engineCommandsS6.vread ⟨some 0, engineCommandsC6.part, engineCommandsC6.pasid, .engine⟩
     (engineCommandsC6.cs.getD 0 0) 128).2.1) 32 8) (4 * leAt
     ((engineCommandsS6.vread ⟨some 0, engineCommandsC6.part, engineCommandsC6.pasid, .engine⟩
     (engineCommandsC6.cs.getD 0 0) 128).2.1) 12 2)).2.2, 3, 7, 0, engineCommandsC6,
     (engineCommandsS6.vread ⟨some 0, engineCommandsC6.part, engineCommandsC6.pasid, .engine⟩ (engineCommandsC6.cs.getD 0 0)
     128).2.1, (((engineCommandsS6.vread ⟨some 0, engineCommandsC6.part, engineCommandsC6.pasid, .engine⟩
     (engineCommandsC6.cs.getD 0 0) 128).2.2).vread ⟨some 0, engineCommandsC6.part, engineCommandsC6.pasid, .engine⟩
     (leAt ((engineCommandsS6.vread ⟨some 0, engineCommandsC6.part, engineCommandsC6.pasid, .engine⟩
     (engineCommandsC6.cs.getD 0 0) 128).2.1) 32 8) (4 * leAt
     ((engineCommandsS6.vread ⟨some 0, engineCommandsC6.part, engineCommandsC6.pasid, .engine⟩
     (engineCommandsC6.cs.getD 0 0) 128).2.1) 12 2)).2.1, by decide +kernel, by decide +kernel, by decide +kernel,
     by decide +kernel, by decide +kernel, by decide +kernel, triple_of_fst (by decide +kernel), by decide +kernel,
     triple_of_fst (by decide +kernel), by decide +kernel⟩,
   ⟨engineCommandsS7, 3, 7, ({ coll with timeoutUs := 1 } : Coll), by decide +kernel⟩,
   ⟨engineCommandsS8, 3, 7, ({ coll with resend := [stepPkt] } : Coll), stepPkt, by decide +kernel⟩⟩

/-- A value of clause 1 of BlendCompletes. -/
def blendS1 : State :=
  cmdIs { queue := 3, seq := 7, kind := 4, cs := [1, 0x6000] } { work with
    mem := blendMem }

/-- A value of clause 1 of BlendCompletes. -/
def blendC1 : Cmd :=
  { queue := 3, seq := 7, kind := 4, cs := [1, 0x6000] }

/-- A value of clause 2 of BlendCompletes. -/
def blendS2 : State :=
  cmdIs { queue := 3, seq := 7, kind := 4, cs := [2, 0x5000, 1, 9] } { work with
    mem := blendMem }

/-- A value of clause 2 of BlendCompletes. -/
def blendC2 : Cmd :=
  { queue := 3, seq := 7, kind := 4, cs := [2, 0x5000, 1, 9] }

/-- A value of clause 3 of BlendCompletes. -/
def blendS3 : State :=
  { blendAt { blendIs with commit := false, ready := none } with
    collDone := [(5, [(6, 0x60, 3)])] }

/-- A value of clause 3 of BlendCompletes. -/
def blendO3 : BlendOp :=
  { blendIs with commit := false, ready := none }

/-- A value of clause 4 of BlendCompletes. -/
def blendS4 : State :=
  blendAt { blendIs with progs := [{ core := 2, tile := 0, input := [] }] }

/-- A value of clause 4 of BlendCompletes. -/
def blendO4 : BlendOp :=
  { blendIs with progs := [{ core := 2, tile := 0, input := [] }] }

/-- A value of clause 4 of BlendCompletes. -/
def blendP4 : ProgCall :=
  { core := 2, tile := 0, input := [] }

/-- A value of clause 5 of BlendCompletes. -/
def blendS5 : State :=
  blendAt { blendIs with started := true, writes := [⟨none, 0x8000, [1, 2]⟩] }

/-- A value of clause 5 of BlendCompletes. -/
def blendO5 : BlendOp :=
  { blendIs with started := true, writes := [⟨none, 0x8000, [1, 2]⟩] }

/-- A value of clause 7 of BlendCompletes. -/
def blendS7 : State :=
  blendAt { blendIs with commit := false }

/-- A value of clause 8 of BlendCompletes. -/
def blendS8 : State :=
  blendAt { blendIs with started := true }

/-- A value of clause 9 of BlendCompletes. -/
def blendS9 : State :=
  blendAt { blendIs with started := true, descs := [blendDesc 4] }

/-- A value of clause 9 of BlendCompletes. -/
def blendO9 : BlendOp :=
  { blendIs with started := true, descs := [blendDesc 4] }

/-- A value of clause 10 of BlendCompletes. -/
def blendS10 : State :=
  blendAt { blendIs with started := true, tile := 1 }

/-- A value of clause 10 of BlendCompletes. -/
def blendO10 : BlendOp :=
  { blendIs with started := true, tile := 1 }

/-- A value of clause 12 of BlendCompletes. -/
def blendS12 : State :=
  (blendAt { blendIs with progs := [{ core := 2, tile := 0, input := [] }] }).setReg (Page.blend 0) 0x100 5

/-- Values that meet the hypotheses of BlendCompletes, clause by clause. -/
theorem witness_blend_completes :
    (∃ (s u r : State) (q seq stack : Nat) (c : Cmd) (d m : List Byte), s.cmd q seq = some c ∧ s.blendReady c 1 = some stack
      ∧ c.queue = q ∧ c.seq = seq ∧ (s.armed stack).length < 16 ∧ c.cs.getD 1 0 % 64 = 0 ∧ s.vread (s.cmdCtxt c .engine)
      (c.cs.getD 1 0) 192 = (.status 0, d, u) ∧ u.lgStatus c stack d = 0 ∧ u.vread (s.cmdCtxt c .engine)
      (Lg.addr d Lg.resmap) (32 * Lg.nres d) = (.status 0, m, r) ∧ mapSound d m = true ∧
      (r.collDone.get [] ((if Lg.collSel d then (r.boundStack (Lg.collStack d)).getD stack else stack) * 4096 + c.jobTag)) =
      []) ∧
    (∃ (s u r : State) (q seq stack n : Nat) (c : Cmd) (l : List Byte) (g : List (List Byte × List Byte)), s.cmd q seq =
      some c ∧ s.blendReady c 2 = some stack ∧ c.queue = q ∧ c.seq = seq ∧ (s.armed stack).length < 16 ∧ n = c.cs.getD 2 0 ∧
      1 ≤ n ∧ n ≤ 4096 ∧ s.vread (s.cmdCtxt c .engine) (c.cs.getD 1 0) (8 * n) = (.status 0, l, u) ∧ State.readGroups c
      (s.cmdCtxt c .engine) stack ((List.range n).map fun i => leAt l (8 * i) 8) u = (.status 0, g, r)) ∧
    (∃ (s : State) (stack jobTag seq : Nat) (r : Nat × Nat × Nat) (o : BlendOp), s.collRecord stack jobTag seq = some r ∧ o
      ∈ s.blends ∧ o.commit = false ∧ o.ready = none ∧ o.watch = stack ∧ o.jobTag = jobTag ∧ Lg.collSeq (o.descs.headD []) =
      seq) ∧
    (∃ (s : State) (stack core : Nat) (o : BlendOp) (p : ProgCall), s.progOf stack core = some (o, p)) ∧
    (∃ (s : State) (stack : Nat) (o : BlendOp), s.blendNext stack = some o ∧ o.pageWait = none ∧ o.writes ≠ []) ∧
    (∃ (s : State) (stack : Nat) (o : BlendOp), s.blendNext stack = some o ∧ o.pageWait = none ∧ o.writes = [] ∧ o.started =
      false ∧ o.commit = true) ∧
    (∃ (s : State) (stack : Nat) (o : BlendOp), s.blendNext stack = some o ∧ o.pageWait = none ∧ o.writes = [] ∧ o.started =
      false ∧ o.commit = false) ∧
    (∃ (s : State) (stack : Nat) (o : BlendOp), s.blendNext stack = some o ∧ o.pageWait = none ∧ o.writes = [] ∧ o.started =
      true ∧ o.tile < Lg.tiles o.desc ∧ Lg.kind o.desc ≠ 4) ∧
    (∃ (s : State) (stack : Nat) (o : BlendOp), s.blendNext stack = some o ∧ o.pageWait = none ∧ o.writes = [] ∧ o.started =
      true ∧ o.tile < Lg.tiles o.desc ∧ Lg.kind o.desc = 4) ∧
    (∃ (s : State) (stack : Nat) (o : BlendOp), s.blendNext stack = some o ∧ o.pageWait = none ∧ o.writes = [] ∧ o.started =
      true ∧ Lg.tiles o.desc ≤ o.tile) ∧
    (∃ (s u : State) (stack core a0 : Nat) (o : BlendOp) (p : ProgCall), s.progOf stack core = some (o, p) ∧ u = s.genEvent
      (Page.blend o.stack) 0x0241 o.part (place 31 0 (Lg.groupId o.desc) ||| place 55 32 o.tile ||| place 63 56 St.internal)
      ∧ o.commit = true ∧ a0 ≠ 0) ∧
    (∃ (s u : State) (stack core : Nat) (o : BlendOp) (p : ProgCall), s.progOf stack core = some (o, p) ∧ u = s.genEvent
      (Page.blend o.stack) 0x0241 o.part (place 31 0 (Lg.groupId o.desc) ||| place 55 32 o.tile ||| place 63 56 St.internal)
      ∧ o.commit = true ∧ s.fld (Page.blend stack) 0x100 15 0 ≠ 0) :=
  ⟨⟨blendS1, (blendS1.vread (blendS1.cmdCtxt blendC1 .engine) (blendC1.cs.getD 1 0) 192).2.2,
     (((blendS1.vread (blendS1.cmdCtxt blendC1 .engine) (blendC1.cs.getD 1 0) 192).2.2).vread
     (blendS1.cmdCtxt blendC1 .engine)
     (Lg.addr ((blendS1.vread (blendS1.cmdCtxt blendC1 .engine) (blendC1.cs.getD 1 0) 192).2.1) Lg.resmap)
     (32 * Lg.nres ((blendS1.vread (blendS1.cmdCtxt blendC1 .engine) (blendC1.cs.getD 1 0) 192).2.1))).2.2, 3, 7, 0,
     blendC1, (blendS1.vread (blendS1.cmdCtxt blendC1 .engine) (blendC1.cs.getD 1 0) 192).2.1,
     (((blendS1.vread (blendS1.cmdCtxt blendC1 .engine) (blendC1.cs.getD 1 0) 192).2.2).vread
     (blendS1.cmdCtxt blendC1 .engine)
     (Lg.addr ((blendS1.vread (blendS1.cmdCtxt blendC1 .engine) (blendC1.cs.getD 1 0) 192).2.1) Lg.resmap)
     (32 * Lg.nres ((blendS1.vread (blendS1.cmdCtxt blendC1 .engine) (blendC1.cs.getD 1 0) 192).2.1))).2.1,
     by decide +kernel, by decide +kernel, by decide +kernel, by decide +kernel, by decide +kernel, by decide +kernel,
     triple_of_fst (by decide +kernel), by decide +kernel, triple_of_fst (by decide +kernel), by decide +kernel⟩,
   ⟨blendS2, (blendS2.vread (blendS2.cmdCtxt blendC2 .engine) (blendC2.cs.getD 1 0) (8 * (blendC2.cs.getD 2 0))).2.2,
     (State.readGroups blendC2 (blendS2.cmdCtxt blendC2 .engine) 0
     ((List.range (blendC2.cs.getD 2 0)).map fun i => leAt
     ((blendS2.vread (blendS2.cmdCtxt blendC2 .engine) (blendC2.cs.getD 1 0) (8 * (blendC2.cs.getD 2 0))).2.1) (8 * i) 8)
     ((blendS2.vread (blendS2.cmdCtxt blendC2 .engine) (blendC2.cs.getD 1 0) (8 * (blendC2.cs.getD 2 0))).2.2)).2.2, 3, 7,
     0, blendC2.cs.getD 2 0, blendC2,
     (blendS2.vread (blendS2.cmdCtxt blendC2 .engine) (blendC2.cs.getD 1 0) (8 * (blendC2.cs.getD 2 0))).2.1,
     (State.readGroups blendC2 (blendS2.cmdCtxt blendC2 .engine) 0
     ((List.range (blendC2.cs.getD 2 0)).map fun i => leAt
     ((blendS2.vread (blendS2.cmdCtxt blendC2 .engine) (blendC2.cs.getD 1 0) (8 * (blendC2.cs.getD 2 0))).2.1) (8 * i) 8)
     ((blendS2.vread (blendS2.cmdCtxt blendC2 .engine) (blendC2.cs.getD 1 0) (8 * (blendC2.cs.getD 2 0))).2.2)).2.1,
     by decide +kernel, by decide +kernel, by decide +kernel, by decide +kernel, by decide +kernel, by decide +kernel,
     by decide +kernel, by decide +kernel, triple_of_fst (by decide +kernel), triple_of_fst (by decide +kernel)⟩,
   ⟨blendS3, 0, 5, 6, (6, 0x60, 3), blendO3, by decide +kernel⟩,
   ⟨blendS4, 0, 2, blendO4, blendP4, by decide +kernel⟩,
   ⟨blendS5, 0, blendO5, by decide +kernel⟩,
   ⟨blendAt blendIs, 0, blendIs, by decide +kernel⟩,
   ⟨blendS7, 0, ({ blendIs with commit := false } : BlendOp), by decide +kernel⟩,
   ⟨blendS8, 0, ({ blendIs with started := true } : BlendOp), by decide +kernel⟩,
   ⟨blendS9, 0, blendO9, by decide +kernel⟩,
   ⟨blendS10, 0, blendO10, by decide +kernel⟩,
   ⟨blendS4, blendS4.genEvent (Page.blend blendO4.stack) 0x0241 blendO4.part
     (place 31 0 (Lg.groupId blendO4.desc) ||| place 55 32 blendO4.tile ||| place 63 56 St.internal), 0, 2, 1, blendO4,
     blendP4, by decide +kernel, rfl, by decide +kernel⟩,
   ⟨blendS12, blendS12.genEvent (Page.blend blendO4.stack) 0x0241 blendO4.part
     (place 31 0 (Lg.groupId blendO4.desc) ||| place 55 32 blendO4.tile ||| place 63 56 St.internal), 0, 2, blendO4,
     blendP4, by decide +kernel, rfl, by decide +kernel⟩⟩

/-- A value of clause 1 of RackCompletes. -/
def rackS1 : State :=
  cmdIs { queue := 3, seq := 7, kind := 5, cs := [0x5000, 1, 0], active := true } racks

/-- A value of clause 1 of RackCompletes. -/
def rackC1 : Cmd :=
  { queue := 3, seq := 7, kind := 5, cs := [0x5000, 1, 0], active := true }

/-- A value of clause 1 of RackCompletes. -/
def rackM1 : Mig :=
  { stack := 0, part := 0, pasid := 0, va := 0x5000, why := .command (cmdKey 3 7), frame := some 0xA000, leaf := 0x10D028,
      warm := true, mask := 1, gddrOk := true }

/-- A value of clause 2 of RackCompletes. -/
def rackS2 : State :=
  { racks with migs := [{ stack := 0, part := 0, pasid := 0, va := 0x5000, why := .command (cmdKey 3 7), frame := some
                            0xA000 }] }

/-- A value of clause 2 of RackCompletes. -/
def rackM2 : Mig :=
  { stack := 0, part := 0, pasid := 0, va := 0x5000, why := .command (cmdKey 3 7), frame := some 0xA000 }

/-- A value of clause 3 of RackCompletes. -/
def rackS3 : State :=
  { racks with migs := [{ stack := 0, part := 0, pasid := 0, va := 0x5000, why := .command (cmdKey 3 7), frame := some
                            0xA000, state := 1, old := 0x400000000d7 }] }

/-- A value of clause 3 of RackCompletes. -/
def rackM3 : Mig :=
  { stack := 0, part := 0, pasid := 0, va := 0x5000, why := .command (cmdKey 3 7), frame := some 0xA000, state := 1, old :=
      0x400000000d7 }

/-- A value of clause 4 of RackCompletes. -/
def rackS4 : State :=
  { racks with migs := [{ stack := 0, part := 0, pasid := 0, va := 0x5000, why := .command (cmdKey 3 7), frame := some
                            0xA000, state := 2 }] }

/-- A value of clause 4 of RackCompletes. -/
def rackM4 : Mig :=
  { stack := 0, part := 0, pasid := 0, va := 0x5000, why := .command (cmdKey 3 7), frame := some 0xA000, state := 2 }

/-- Values that meet the hypotheses of RackCompletes, clause by clause. -/
theorem witness_rack_completes :
    (∃ (s u : State) (q seq engine : Nat) (c : Cmd) (m : Mig), s.cmd q seq = some c ∧ c.kind = 5 ∧ s.mayIssue c = true ∧
      s.boundStack c.target = some engine ∧ c.progress ≠ c.cs.getD 1 0 ∧ (s.engineMigs engine).length < 32 ∧ s.rackDecide
      engine c.part c.pasid (c.cs.getD 0 0 + 4096 * c.progress) (.command (cmdKey q seq))
      (if (c.cs.getD 2 0).testBit 7 then some (natBits (c.cs.getD 2 0) 31 16) else none) (s.boundStack (c.cs.getD 2 0 % 64))
      = (.go m, u)) ∧
    (∃ (s u : State) (stack idx f frame : Nat) (m : Mig) (lf : Leaf), (s.engineMigs stack)[idx]? = some m ∧ m.state = 0 ∧
      m.frame = some f ∧ (∃ key, m.why = .command key) ∧ s.leafOf m.part m.pasid m.va = .found (lf, frame) ∧ u =
      ({ s with mem := s.mem.writeNat lf.addr 8 (setBits (setBit lf.pte 0 false) 9 8 3).toNat } : State).shootdown m.part
      (m.va / 4096)) ∧
    (∃ (s u : State) (stack idx f : Nat) (m : Mig), (s.engineMigs stack)[idx]? = some m ∧ m.state = 1 ∧ m.frame = some f ∧
      s.copyPage m.part (ptePage m.old) f = (0, u)) ∧
    (∃ (s : State) (stack idx : Nat) (m : Mig), (s.engineMigs stack)[idx]? = some m ∧ m.state = 2) :=
  ⟨⟨rackS1, (rackS1.rackDecide 0 rackC1.part rackC1.pasid (rackC1.cs.getD 0 0 + 4096 * rackC1.progress)
     (.command (cmdKey 3 7)) (if (rackC1.cs.getD 2 0).testBit 7 then some (natBits (rackC1.cs.getD 2 0) 31 16) else none)
     (rackS1.boundStack (rackC1.cs.getD 2 0 % 64))).2, 3, 7, 0, rackC1, rackM1, by decide +kernel, by decide +kernel,
     by decide +kernel, by decide +kernel, by decide +kernel, by decide +kernel, pair_of_fst (by decide +kernel)⟩,
   ⟨rackS2, ({ rackS2 with mem := rackS2.mem.writeNat ((⟨0x10D028, 0x400000000d7⟩ : Leaf)).addr 8
                             (setBits (setBit ((⟨0x10D028, 0x400000000d7⟩ : Leaf)).pte 0 false) 9 8 3).toNat } :
     State).shootdown rackM2.part (rackM2.va / 4096), 0, 0, 0xA000, 0x100000000000, rackM2,
     (⟨0x10D028, 0x400000000d7⟩ : Leaf), by decide +kernel, by decide +kernel, by decide +kernel, ⟨_, rfl⟩,
     by decide +kernel, rfl⟩,
   ⟨rackS3, (rackS3.copyPage rackM3.part (ptePage rackM3.old) 0xA000).2, 0, 0, 0xA000, rackM3, by decide +kernel,
     by decide +kernel, by decide +kernel, pair_of_fst (by decide +kernel)⟩,
   ⟨rackS4, 0, 0, rackM4, by decide +kernel⟩⟩

/-- A value of clause 1 of CacheCompletes. -/
def cacheS1 : State :=
  { work with cache := [{ stack := 0, slice := 0, set := 0, way := 0, line := 0x40 }], mem := imageMem }

/-- A value of clause 1 of CacheCompletes. -/
def cacheL1 : CacheLine :=
  { stack := 0, slice := 0, set := 0, way := 0, line := 0x40 }

/-- A value of clause 2 of CacheCompletes. -/
def cacheS2 : State :=
  withRegs [(Page.cache 0, Reg.CACHE_CTL, 0)] { work with
    mem := imageMem }

/-- A value of clause 3 of CacheCompletes. -/
def cacheS3 : State :=
  { work with prefetch := [(0, { streams := [(3, ⟨4, 0, 0, 1, 0x1F00, 0x2000, false, 0⟩)] })] }

/-- A value of clause 3 of CacheCompletes. -/
def cacheE3 : Stream :=
  ⟨4, 0, 0, 1, 0x1F00, 0x2000, false, 0⟩

/-- A value of clause 5 of CacheCompletes. -/
def cacheS5 : State :=
  { withRegs [(Page.cache 0, Reg.CACHE_CTL, 0x100), (Page.cache 0, Reg.PREFETCH_CTL, 0x404)] work with
    prefetch := [(0, { streams := [(3, ⟨4, 0, 0, 1, 0x1F00, 0x2000, false, 0⟩)] })] }

/-- A value of clause 6 of CacheCompletes. -/
def cacheS6 : State :=
  { work with cache := [{ stack := 0, slice := 0, set := 0, way := 0, line := 0x40, cls := .keep, tag := 9 }] }

/-- A value of clause 6 of CacheCompletes. -/
def cacheL6 : CacheLine :=
  { stack := 0, slice := 0, set := 0, way := 0, line := 0x40, cls := .keep, tag := 9 }

/-- Values that meet the hypotheses of CacheCompletes, clause by clause. -/
theorem witness_cache_completes :
    (∃ (s : State) (stack a goff hint : Nat) (l : CacheLine), regionOf a = .gddr stack goff ∧ s.gddrStatus stack goff = 0 ∧
      s.cacheFind stack (a / 128) = some l ∧ hint < 2 ∧ l.prefetched = false) ∧
    (∃ (s r : State) (stack a goff part req va cycle : Nat), regionOf a = .gddr stack goff ∧ s.gddrStatus stack goff = 0 ∧
      s.cacheFind stack (a / 128) = none ∧ s.bad.get 0 (a / 128) = 0 ∧ s.fld (Page.cache stack) Reg.CACHE_CTL 8 8 = 0 ∧
      ((s.pfFollow stack req (va / 128 * 128) cycle).bumpUnits (Page.cache stack) 1 1 1024).regulate (Page.regulator stack)
      (gddrDev (a / 128 * 128 % 0x800000000)) part 128 = (.inBudget, r)) ∧
    (∃ (s : State) (stack entry cycle : Nat) (e : Stream), (s.pf stack).streams.find entry = some e ∧ e.used + 65536 ≤
      cycle) ∧
    (∃ (s : State) (stack un us eff : Nat), s.hubWarn stack = false ∧ un = (s.reg (Page.cache stack) (Reg.CNT + 64)).toNat -
      (s.pf stack).lastUnused ∧ us = (s.reg (Page.cache stack) (Reg.CNT + 56)).toNat - (s.pf stack).lastUseful ∧ eff = s.fld
      (Page.cache stack) Reg.PREFETCH_CTL 14 8) ∧
    (∃ (s u : State) (stack entry pa off : Nat) (e : Stream), (s.pf stack).streams.find entry = some e ∧ s.fld
      (Page.cache stack) Reg.CACHE_CTL 8 8 ≠ 0 ∧ 1 ≤ ((e.nextVa : Int) - e.lastVa) / (128 * e.stride) ∧
      ((e.nextVa : Int) - e.lastVa) / (128 * e.stride) ≤ ((s.fld (Page.cache stack) Reg.PREFETCH_CTL 14 8 : Nat) : Int) ∧ u
      = s.modPf stack
      (fun p => { p with streams := p.streams.set entry { e with
                           nextVa := (strideFrom e.nextVa e.stride 1).toNat } }) ∧ u.peekTranslate e.part e.pasid e.nextVa
      false = some pa ∧ regionOf pa = .gddr stack off ∧ (u.readStatus e.part .core pa).2 = 0 ∧ u.cacheFind stack (pa / 128)
      = none ∧ (u.bucket (Page.regulator stack) (gddrDev off) e.part).inBudget 128 = true) ∧
    (∃ (s : State) (i : Ident) (stack : Nat) (v : Word) (l : CacheLine), stack < 72 ∧ Admitted s i (Page.cache stack)
      Reg.KEEP_RELEASE v ∧ s.fld (Page.cache stack) Reg.KEEP_RELEASE 1 1 = 0 ∧ bit v 0 = true ∧ l ∈ s.cache ∧ l.stack =
      stack ∧ l.part = bits v 21 16 ∧ l.tag = bits v 11 8 ∧ l.cls = .keep) ∧
    (∃ (s : State) (i : Ident) (stack : Nat) (v : Word), stack < 72 ∧ Admitted s i (Page.cache stack) Reg.CACHE_CTL v ∧
      s.pageState (Page.cache stack) = PS.quiesced ∧ bits v 2 0 ≤ 4) :=
  ⟨⟨cacheS1, 0, 0x2038, 0x2038, 1, cacheL1, by decide +kernel⟩,
   ⟨cacheS2, (((cacheS2.pfFollow 0 4 (0x2038 / 128 * 128) 7).bumpUnits (Page.cache 0) 1 1 1024).regulate (Page.regulator 0)
     (gddrDev (0x2038 / 128 * 128 % 0x800000000)) 0 128).2, 0, 0x2038, 0x2038, 0, 4, 0x2038, 7, by decide +kernel,
     by decide +kernel, by decide +kernel, by decide +kernel, by decide +kernel, pair_of_fst (by decide +kernel)⟩,
   ⟨cacheS3, 0, 3, 65536, cacheE3, by decide +kernel⟩,
   ⟨work, 0, (work.reg (Page.cache 0) (Reg.CNT + 64)).toNat - (work.pf 0).lastUnused,
     (work.reg (Page.cache 0) (Reg.CNT + 56)).toNat - (work.pf 0).lastUseful, work.fld (Page.cache 0) Reg.PREFETCH_CTL 14 8,
     by decide +kernel⟩,
   ⟨cacheS5, cacheS5.modPf 0 (fun p =>
     { p with streams := p.streams.set 3 { cacheE3 with
                nextVa := (strideFrom cacheE3.nextVa cacheE3.stride 1).toNat } }), 0, 3, 0x2000, 0x2000, cacheE3,
     by decide +kernel, by decide +kernel, by decide +kernel, by decide +kernel, rfl, by decide +kernel⟩,
   ⟨cacheS6, (.mgmt : Ident), 0, 0x901#64, cacheL6, by decide +kernel⟩,
   ⟨withRegs [(Page.cache 0, Reg.PAGE_STATE, 5)] work, (.mgmt : Ident), 0, 4#64, by decide +kernel⟩⟩

/-- A value of clause 3 of GddrCompletes. -/
def gddrS3 : State :=
  { work with mem := imageMem, gddr := [(5, { held := some (0x2000, 8, []), attempts := 3 })] }

/-- A value of clause 4 of GddrCompletes. -/
def gddrS4 : State :=
  withRegs [(Page.gddr 0 5, 0x100, 0x10000)] { work with
    gddr := [(5, { held := some (0x2000, 8, []), attempts := 4 })] }

/-- A value of clause 5 of GddrCompletes. -/
def gddrS5 : State :=
  withRegs [(Page.gddr 0 5, gddrStatOff, 0x4000)]
    { work with gddr := [(5, { held := some (0x2000, 8, []), attempts := 4 })] }

/-- Values that meet the hypotheses of GddrCompletes, clause by clause. -/
theorem witness_gddr_completes :
    (∃ (s : State) (st off n : Nat), st < 72 ∧ off < 0x600000000 ∧ off % 128 + n ≤ 128 ∧ s.gddrStatus st off = 0 ∧ s.fld
      (Page.gddr st (gddrDev off)) gddrStatOff 14 14 = 0 ∧ (s.gddrCtl st (gddrDev off)).held = none ∧ s.fld
      (Page.gddr st (gddrDev off)) gddrStatOff 9 8 ≠ 2 ∧ s.badStatus (gddrBase st + off) = 0) ∧
    (∃ (s : State) (st off : Nat) (data : List Byte), st < 72 ∧ off < 0x600000000 ∧ off % 128 = 0 ∧ data.length = 128 ∧
      s.gddrStatus st off = 0 ∧ s.fld (Page.gddr st (gddrDev off)) gddrStatOff 14 14 = 0 ∧ (s.gddrCtl st (gddrDev off)).held
      = none ∧ s.fld (Page.gddr st (gddrDev off)) gddrStatOff 9 8 ≠ 2 ∧ s.cacheFind st ((gddrBase st + off) / 128) = none) ∧
    (∃ (s : State) (st g off n : Nat), st < 72 ∧ g < 6 ∧ (s.gddrCtl st g).held = some (off, n, []) ∧
      (s.gddrCtl st g).attempts < 4 ∧ s.fld (Page.gddr st g) gddrStatOff 14 14 = 0 ∧ s.badStatus (gddrBase st + off) = 0) ∧
    (∃ (s : State) (st g : Nat), st < 72 ∧ g < 6 ∧ (s.gddrCtl st g).held ≠ none ∧ 4 ≤ (s.gddrCtl st g).attempts ∧
      (s.gddrCtl st g).again = false ∧ s.fld (Page.gddr st g) gddrStatOff 14 14 = 0 ∧ (s.gddrCtl st g).retrains = [] ∧ 1 ≤
      s.fld (Page.gddr st g) 0x100 23 16) ∧
    (∃ (s : State) (st g : Nat), st < 72 ∧ g < 6 ∧ s.fld (Page.gddr st g) gddrStatOff 14 14 = 1) ∧
    (∃ (s : State) (st g t : Nat), st < 72 ∧ g < 6 ∧ t ≤ 85 ∧ s.fld (Page.gddr st g) gddrStatOff 9 8 = 0) ∧
    (∃ (st g : Nat), st < 72 ∧ g < 6) ∧
    (∃ (s : State) (st off : Nat), st < 72 ∧ off < 0x600000000 ∧ s.fld (Page.gddr st (gddrDev off)) 0x100 31 24 ≠ 0 ∧
      s.gddrStatus st off = 0 ∧ s.fld (Page.gddr st (gddrDev off)) gddrStatOff 14 14 = 0 ∧ s.badStatus
      ((gddrBase st + off) / 128 * 128) = 0) ∧
    (∃ (st g : Nat), st < 72 ∧ g < 6) :=
  ⟨⟨({ work with mem := imageMem } : State), 0, 0x2000, 128, by decide +kernel⟩,
   ⟨work, 0, 0x5FFFFFF80, List.replicate 128 7, by decide +kernel⟩,
   ⟨gddrS3, 0, 5, 0x2000, 8, by decide +kernel⟩,
   ⟨gddrS4, 0, 5, by decide +kernel⟩,
   ⟨gddrS5, 0, 5, by decide +kernel⟩,
   ⟨work, 0, 5, 85, by decide +kernel⟩,
   ⟨71, 5, by decide +kernel⟩,
   ⟨withRegs [(Page.gddr 0 2, 0x100, 0x1000000)] work, 0, 0x2000, by decide +kernel⟩,
   ⟨0, 0, by decide +kernel⟩⟩

/-- A value of clause 1 of RegulatorsComplete. -/
def regulatorsS1 : State :=
  { work with buckets := [(bucketKey (Page.regulator 0) 15 63, { enable := true, rate := 1600 })] }

/-- Values that meet the hypotheses of RegulatorsComplete, clause by clause. -/
theorem witness_regulators_complete :
    (∃ (point part : Nat), point < 16 ∧ part < 64) ∧
    (∃ (s : State) (i : Ident) (stack : Nat) (v : Word), stack < 72 ∧ Admitted s i (Page.regulator stack) 0x108 v ∧ bits v
      11 8 < 10) ∧
    (∃ (s : State) (i : Ident) (stack : Nat) (v : Word), stack < 72 ∧ Admitted s i (Page.regulator stack) 0x110 v ∧ bits v
      47 32 ≠ 0 ∧ bit v 63 = true ∧ (s.bucket (Page.regulator stack) (s.regSelected (Page.regulator stack)).1
      (s.regSelected (Page.regulator stack)).2).enable = false) :=
  ⟨⟨15, 63, by decide +kernel⟩,
   ⟨work, (.mgmt : Ident), 71, 0x93F#64, by decide +kernel⟩,
   ⟨work, (.mgmt : Ident), 71, 0xBFFFFFFF00FFFFFF#64, by decide +kernel⟩⟩

/-- A value of clause 1 of CellarCompletes. -/
def cellarS1 : State :=
  { withRegs [(Page.bay 15, Reg.PAGE_STATE, 3), (Page.bay 14, Reg.PAGE_STATE, 3), (Page.bay 15, Reg.EV_ENABLE, 0xFFFF)] work
      with bays := [(15, { capacity := 0x20000000000 })] }

/-- A value of clause 3 of CellarCompletes. -/
def cellarS3 : State :=
  { withRegs [(Page.bay 15, Reg.PAGE_STATE, 3), (Page.bay 14, Reg.PAGE_STATE, 3), (Page.bay 15, Reg.EV_ENABLE, 0xFFFF)] work
      with bays := [(15, { capacity := 0x20000000000, retrained := true })] }

/-- A value of clause 5 of CellarCompletes. -/
def cellarS5 : State :=
  { withRegs [(Page.bay 15, Reg.PAGE_STATE, 3), (Page.bay 14, Reg.PAGE_STATE, 3), (Page.bay 15, Reg.EV_ENABLE, 0xFFFF),
      (Page.bay 15, 0x470, 1), (Page.bay 15, 0x478, 0xE10)] work with
    bays := [(15, { capacity := 0x20000000000 })] }

/-- A value of clause 6 of CellarCompletes. -/
def cellarS6 : State :=
  { withRegs [(Page.bay 15, Reg.PAGE_STATE, 3), (Page.bay 14, Reg.PAGE_STATE, 3), (Page.bay 15, Reg.EV_ENABLE, 0xFFFF),
      (Page.bay 15, 0x470, 1), (Page.bay 15, 0x478, 0xE20)] work with
    bays := [(15, { capacity := 0x20000000000, lostCopy := [(7, 2)] })] }

/-- Values that meet the hypotheses of CellarCompletes, clause by clause. -/
theorem witness_cellar_completes :
    (∃ (s : State) (b off n part : Nat), b < 16 ∧ off < 0x20000000000 ∧ (s.bucket (Page.bay b) 0 part).inBudget
      (64 * ((off % 64 + n + 63) / 64)) = true ∧ s.mirrorOf b off = none ∧ s.copyStatus b off = 0) ∧
    (∃ (s : State) (b : Nat), b < 16 ∧ s.pageState (Page.bay b) = PS.ready ∧ (s.bay b).retrained = false) ∧
    (∃ (s : State) (b : Nat), b < 16 ∧ s.pageState (Page.bay b) = PS.ready ∧ (s.bay b).retrained = true) ∧
    (∃ (s : State) (i : Ident) (b j : Nat) (v : Word), b < 16 ∧ j < 8 ∧ Admitted s i (Page.bay b) (0x408 + 16 * j)
      (setBit v 0 true) ∧ s.fld (Page.bay b) (0x400 + 16 * j) 0 0 = 1 ∧ s.fld (Page.bay b) (0x408 + 16 * j) 5 4 = 1 ∧
      s.ready (Page.bay b) = true ∧ s.ready (Page.bay (bits v 11 8)) = true ∧ s.lostCopy b j ≠ 3) ∧
    (∃ (s : State) (b j lo n p : Nat), b < 16 ∧ j < 8 ∧ s.fld (Page.bay b) (0x408 + 16 * j) 5 4 = 2 ∧ s.lostCopy b j = 2 ∧
      lo = s.fld (Page.bay b) (0x400 + 16 * j) 40 12 * 4096 ∧ n = s.fld (Page.bay b) (0x408 + 16 * j) 40 12 * 4096 + 4096 -
      lo ∧ p = s.fld (Page.bay b) (0x408 + 16 * j) 11 8) ∧
    (∃ (s : State) (b : Nat), b < 16 ∧ s.pageState (Page.bay b) = PS.ready) :=
  ⟨⟨cellarS1, 15, 0x1FFFFFFFF80, 128, 0, by decide +kernel⟩,
   ⟨cellarS1, 15, by decide +kernel⟩,
   ⟨cellarS3, 15, by decide +kernel⟩,
   ⟨cellarS5, (.mgmt : Ident), 15, 7, 0xE00#64, by decide +kernel⟩,
   ⟨cellarS6, 15, 7, cellarS6.fld (Page.bay 15) (0x400 + 16 * 7) 40 12 * 4096, cellarS6.fld (Page.bay 15) (0x408 + 16 * 7)
     40 12 * 4096 + 4096 - (cellarS6.fld (Page.bay 15) (0x400 + 16 * 7) 40 12 * 4096), cellarS6.fld (Page.bay 15)
     (0x408 + 16 * 7) 11 8, by decide +kernel⟩,
   ⟨cellarS1, 15, by decide +kernel⟩⟩

/-- Values that meet the hypotheses of MailboxCompletes, clause by clause. -/
theorem witness_mailbox_completes :
    (∀ op ∈ [1, 2, 3, 4, 0x10, 0x11, 0x12], Admitted (mailboxAt []) .mgmt (Page.bay 15) mbxCmd
      (place 16 16 1 ||| place 11 8 15 ||| place 7 0 op) ∧ (mailboxAt []).fld (Page.bay 15) mbxCmd 17 17 = 0 ∧
      (mailboxAt []).bayStat 15 3 3 = 1 ∧ (∀ e ∈ ((mailboxAt []).bay 15).mbxQueue, e.2 = false)) ∧
    (∃ (s : State) (i : Ident) (b op len : Nat), b < 16 ∧ len < 16 ∧ op < 256 ∧ mbxKnown op = false ∧ Admitted s i
      (Page.bay b) mbxCmd (place 16 16 1 ||| place 11 8 len ||| place 7 0 op) ∧ s.fld (Page.bay b) mbxCmd 17 17 = 0 ∧
      s.bayStat b 3 3 = 1 ∧ (s.bay b).mbxQueue = []) ∧
    (∃ (s : State) (b op result : Nat), b < 16 ∧ result < 256 ∧ (s.bay b).mbxQueue = [(op, true)]) ∧
    (∃ (s : State) (b : Nat), b < 16 ∧ (s.bay b).mbxQueue = [(3, false)]) ∧
    (∃ (s : State) (b : Nat), b < 16 ∧ s.bayStat b 4 4 = 1 ∧ (s.bay b).mbxQueue = []) :=
  ⟨by decide +kernel,
   ⟨mailboxAt [], (.mgmt : Ident), 15, 0xFF, 15, by decide +kernel⟩,
   ⟨mailboxAt [(3, true)], 15, 3, 255, by decide +kernel⟩,
   ⟨mailboxAt [(3, false)], 15, by decide +kernel⟩,
   ⟨mailboxAt [], 15, by decide +kernel⟩⟩

/-- A value of clause 1 of BaysComplete. -/
def baysS1 : State :=
  { withRegs [(Page.bay 15, Reg.EV_ENABLE, 0xFFFF), (Page.bay 15, Reg.PAGE_STATE, 2)] work with
    bays := [(15, { reported := 0x30000000000 })], mem := [(0x2E0000000000, 7)] }

/-- A value of clause 2 of BaysComplete. -/
def baysS2 : State :=
  { withRegs [(Page.bay 15, Reg.EV_ENABLE, 0xFFFF), (Page.bay 15, Reg.PAGE_STATE, 3)] work with
    bays := [(15, { capacity := 0x2000 })] }

/-- A value of clause 2 of BaysComplete. -/
def baysU2 : State :=
  (({ withRegs [(Page.bay 15, Reg.EV_ENABLE, 0xFFFF), (Page.bay 15, Reg.PAGE_STATE, 3)] work with
    bays := [(15, { capacity := 0x2000 })] } : State).admittedState .mgmt (Page.bay 15) 0x100).storeWrite (Page.bay 15)
    0x100 2

/-- A value of clause 3 of BaysComplete. -/
def baysS3 : State :=
  { withRegs [(Page.bay 15, Reg.EV_ENABLE, 0xFFFF), (Page.bay 15, bayStatOff, 0x20)] work with
    bays := [(15, { capacity := 0x2000 })] }

/-- A value of clause 4 of BaysComplete. -/
def baysS4 : State :=
  { withRegs [(Page.bay 15, Reg.EV_ENABLE, 0xFFFF), (Page.bay 15, bayStatOff, 0x20), (Page.bay 15, Reg.PAGE_STATE, 3)] work
      with bays := [(15, { capacity := 0x2000 })] }

/-- Values that meet the hypotheses of BaysComplete, clause by clause. -/
theorem witness_bays_complete :
    (∃ (s : State) (i : Ident) (b : Nat), b < 16 ∧ Admitted s i (Page.bay b) 0x100
      (place 63 48 (s.epoch (Page.bay b)) ||| place 2 0 1) ∧ s.pageState (Page.bay b) = PS.init ∧ (s.bay b).fit = true ∧
      (s.bay b).sane = true) ∧
    (∃ (s r u : State) (i : Ident) (b : Nat) (v : Word) (xs : List EvacPage), b < 16 ∧ v = place 63 48
      (s.epoch (Page.bay b)) ||| place 2 0 2 ∧ Admitted s i (Page.bay b) 0x100 v ∧ s.ready (Page.bay b) = true ∧ s.bayStat b
      5 5 = 0 ∧ r = (s.admittedState i (Page.bay b) 0x100).storeWrite (Page.bay b) 0x100 v ∧ r.evacCount b = (xs, u) ∧
      u.evacCovers b xs = true) ∧
    (∃ (s : State) (i : Ident) (b epoch : Nat), b < 16 ∧ epoch < 65536 ∧ Admitted s i (Page.bay b) 0x100
      (place 63 48 epoch ||| place 2 0 4) ∧ s.bayStat b 5 5 = 1 ∧ (∀ m ∈ s.migs, m.why ≠ .evac b) ∧ s.removal b ≠ 3) ∧
    (∃ (s u : State) (b : Nat), b < 16 ∧ s.bayStat b 5 5 = 1 ∧ (s.bay b).evacLeft = [] ∧ (s.bay b).evacStuck = [] ∧
      (∀ m ∈ s.migs, m.why ≠ .evac b) ∧ u = (s.mbxAsk b 0x11 false).genEvent (Page.bay b) 0x0263 0
      (place 31 0 (s.bay b).evacFrames.length ||| place 63 32 (s.evacUnaccounted b))) ∧
    (∃ (s : State) (i : Ident) (stack a : Nat) (v : Word), stack < 72 ∧ Admitted s i (Page.racking stack) 0x118 v ∧
      s.poolAddr (Page.racking stack) (bits v 63 58) = some a ∧ s.mem.readNat (a + 12) 4 < s.mem.readNat (a + 8) 4) :=
  ⟨⟨baysS1, (.mgmt : Ident), 15, by decide +kernel⟩,
   ⟨baysS2, baysU2, baysU2, (.mgmt : Ident), 15, 2#64, ([] : List EvacPage), by decide +kernel, by decide +kernel,
     by decide +kernel, by decide +kernel, by decide +kernel, rfl, evacCount_none _ 15 (by decide +kernel),
     by decide +kernel⟩,
   ⟨baysS3, (.mgmt : Ident), 15, 0, by decide +kernel⟩,
   ⟨baysS4, (baysS4.mbxAsk 15 0x11 false).genEvent (Page.bay 15) 0x0263 0
     (place 31 0 (baysS4.bay 15).evacFrames.length ||| place 63 32 (baysS4.evacUnaccounted 15)), 15, by decide +kernel,
     by decide +kernel, by decide +kernel, by decide +kernel, by decide +kernel, rfl⟩,
   ⟨racks, (.mgmt : Ident), 0, 0x9000, 0xb000#64, by decide +kernel⟩⟩

/-- A value of clause 1 of RemovalCompletes. -/
def removalS1 : State :=
  { withRegs [(Page.servicePanel, Reg.EV_ENABLE, 0xFFFFFFFF), (Page.servicePanel, Reg.SP_STAT, 0xFFFFFFFF00000000)] work
      with bays := [(15, {  })] }

/-- A value of clause 5 of RemovalCompletes. -/
def removalS5 : State :=
  { withRegs [(Page.servicePanel, Reg.EV_ENABLE, 0xFFFFFFFF), (Page.bay 15, bayStatOff, 2),
      (Page.bay 15, Reg.PAGE_STATE, 3)] work with
    bays := [(15, {  })] }

/-- A value of clause 6 of RemovalCompletes. -/
def removalS6 : State :=
  { withRegs [(Page.servicePanel, Reg.EV_ENABLE, 0xFFFFFFFF), (Page.servicePanel, Reg.REMOVE_STATE + 240, 1)] work with
    bays := [(15, {  })] }

/-- A value of clause 8 of RemovalCompletes. -/
def removalS8 : State :=
  { withRegs [(Page.servicePanel, Reg.EV_ENABLE, 0xFFFFFFFF), (Page.servicePanel, Reg.REMOVE_STATE + 240, 1),
      (Page.clock, Reg.PANEL_TIME, 30000000000)] work with
    bays := [(15, {  })] }

/-- A value of clause 9 of RemovalCompletes. -/
def removalS9 : State :=
  { withRegs [(Page.servicePanel, Reg.EV_ENABLE, 0xFFFFFFFF), (Page.servicePanel, Reg.REMOVE_STATE + 240, 2)] work with
    bays := [(15, {  })] }

/-- A value of clause 10 of RemovalCompletes. -/
def removalS10 : State :=
  { withRegs [(Page.servicePanel, Reg.EV_ENABLE, 0xFFFFFFFF), (Page.bay 15, Reg.PAGE_STATE, 5)] work with
    bays := [(15, { evacDone := true })] }

/-- Values that meet the hypotheses of RemovalCompletes, clause by clause. -/
theorem witness_removal_completes :
    (∃ (ms : Nat), 50 ≤ ms ∧ ms ≤ 2000) ∧
    (∃ (s : State) (i : Ident) (v : Word), Admitted s i Page.servicePanel Reg.SP_STAT v) ∧
    (∃ (s : State) (b ms : Nat), b < 16 ∧ 50 ≤ ms ∧ s.bayStat b 1 1 = 1 ∧ s.removal b = 0 ∧ s.pageState (Page.bay b) =
      PS.ready) ∧
    (∃ (s : State) (v : Word) (b : Nat), Admitted s .mgmt Page.servicePanel Reg.REMOVE_ANSWER v ∧ b = bits v 11 8 ∧
      s.removal b = 1 ∧ bits v 63 48 = s.epoch (Page.bay b) ∧ bits v 1 0 = 1) ∧
    (∃ (s : State) (v : Word) (b : Nat), Admitted s .mgmt Page.servicePanel Reg.REMOVE_ANSWER v ∧ b = bits v 11 8 ∧
      s.removal b = 1 ∧ bits v 63 48 = s.epoch (Page.bay b) ∧ bits v 1 0 = 2) ∧
    (∃ (s : State) (b : Nat), b < 16 ∧ s.removal b = 1 ∧ (s.bay b).askedAt + 30000000000 ≤ s.panelTime.toNat) ∧
    (∃ (s : State) (b : Nat), b < 16 ∧ s.removal b = 2 ∧
      (∀ c, c < 16 → s.removal c = 2 → (s.bay b).queued ≤ (s.bay c).queued) ∧ (∀ c, c < 16 → s.bayStat c 5 5 = 0)) ∧
    (∃ (s : State) (b : Nat), b < 16 ∧ s.pageState (Page.bay b) = PS.quiesced ∧ (s.bay b).evacDone = true) ∧
    (∃ (s : State) (b width version : Nat) (advert : Word), b < 16 ∧ 1 ≤ width ∧ width < 32 ∧ s.pageState (Page.bay b) =
      PS.off ∧ s.boot.running = false ∧ s.unpowered.contains (Page.portDie (b / 4)) = false ∧ version = negotiate
      (sideOf (s.reg (Page.bay b) Reg.VER_SUPPORT).toNat) (sideOf advert.toNat) ∧ version ≠ 0 ∧ s.fld Page.pmc Reg.BOOT_STAT
      3 0 ≠ 6) :=
  ⟨⟨2000, by decide +kernel⟩,
   ⟨work, (.mgmt : Ident), 1#64, by decide +kernel⟩,
   ⟨removalS5, 15, 50, by decide +kernel⟩,
   ⟨removalS6, 0xF01#64, bits (0xF01#64) 11 8, by decide +kernel⟩,
   ⟨removalS6, 0xF02#64, bits (0xF02#64) 11 8, by decide +kernel⟩,
   ⟨removalS8, 15, by decide +kernel⟩,
   ⟨removalS9, 15, by decide +kernel⟩,
   ⟨removalS10, 15, by decide +kernel⟩,
   ⟨work, 15, 8, 0x1100, 0x0002000011001100#64, by decide +kernel⟩⟩

/-- A value of clause 2 of HomeCompletes. -/
def homeS2 : State :=
  { work with dir := [(0x40, ⟨0, 0, [4], none, 0⟩)] }

/-- Values that meet the hypotheses of HomeCompletes, clause by clause. -/
theorem witness_home_completes :
    (∃ (s : State) (agent line home off : Nat) (c : Instr), isCaching agent = true ∧
      (c = .rdShared agent line ∨ c = .rdUnique agent line) ∧ regionOf (line * 128) = .gddr home off ∧ s.gddrStatus home off
      = 0 ∧ s.dirQueue = [] ∧ s.busy line = false ∧ s.dir.find line = none ∧ s.dirUsed home (dirSet line) < 20) ∧
    (∃ (s : State) (agent line home off : Nat), isCaching agent = true ∧ regionOf (line * 128) = .gddr home off ∧
      s.gddrStatus home off = 0 ∧ s.dirQueue = [] ∧ s.busy line = false ∧ s.dir.find line = some (s.dirEntry line) ∧
      (s.dirEntry line).owner = none ∧ (s.dirEntry line).sharers = [agent]) ∧
    (∃ (s : State) (agent line home off : Nat), isCaching agent = true ∧ regionOf (line * 128) = .gddr home off ∧
      s.gddrStatus home off = 0 ∧ s.badStatus (line * 128) = 0 ∧ s.busy line = false ∧ s.dir.find line = none ∧ s.dirUsed
      home (dirSet line) < 20) ∧
    (∃ (s : State) (line home off n : Nat), regionOf (line * 128) = .gddr home off ∧ s.gddrStatus home off = 0 ∧ s.badStatus
      (line * 128) = 0 ∧ s.dirQueue = [] ∧ s.busy line = false ∧ s.dir.find line = none ∧ s.cacheFind home line = none ∧ n <
      65536) ∧
    (∃ (s : State) (line home off : Nat) (data : List Byte), regionOf (line * 128) = .gddr home off ∧ s.gddrStatus home off
      = 0 ∧ s.badStatus (line * 128) = 0 ∧ s.dirQueue = [] ∧ s.busy line = false ∧ s.dir.find line = none ∧ s.cacheFind home
      line = none ∧ data.length = 128) ∧
    (∃ (s : State) (line home off : Nat) (data : List Byte), regionOf (line * 128) = .gddr home off ∧ s.gddrStatus home off
      = 0 ∧ s.badStatus (line * 128) = 0 ∧ s.dirQueue = [] ∧ s.busy line = false ∧ s.dir.find line = none ∧ s.cacheFind home
      line = none ∧ data.length = 128) ∧
    (∃ (s : State) (line home off o aop size b c : Nat), regionOf (line * 128) = .gddr home off ∧ s.gddrStatus home off = 0
      ∧ s.badStatus (line * 128) = 0 ∧ s.dirQueue = [] ∧ s.busy line = false ∧ s.dir.find line = none ∧ s.cacheFind home
      line = none ∧ aop < 256 ∧ size < 4 ∧ o + 2 ^ size ≤ 128 ∧ b < 2 ^ 64 ∧ c < 2 ^ 64 ∧ regionOf (line * 128 + o) = .gddr
      home (off + o) ∧ s.gddrStatus home (off + o) = 0) :=
  ⟨⟨work, 327, 0x40, 0, 0x2000, (.rdShared 327 0x40 : Instr), by decide +kernel⟩,
   ⟨homeS2, 4, 0x40, 0, 0x2000, by decide +kernel⟩,
   ⟨work, 4, 0x40, 0, 0x2000, by decide +kernel⟩,
   ⟨({ work with mem := imageMem } : State), 0x40, 0, 0x2000, 4, by decide +kernel⟩,
   ⟨({ work with mem := imageMem } : State), 0x40, 0, 0x2000, List.replicate 128 7, by decide +kernel⟩,
   ⟨({ work with mem := imageMem } : State), 0x40, 0, 0x2000, List.replicate 128 7, by decide +kernel⟩,
   ⟨({ work with mem := imageMem } : State), 0x40, 0, 0x2000, 120, 0, 3, 0xFFFFFFFFFFFFFFFF, 0, by decide +kernel⟩⟩

/-- A value of clause 1 of AgentsComplete. -/
def agentsS1 : State :=
  { work with agents := [(agentKey 4 0x40, .m)], mem := imageMem }

/-- A value of clause 2 of AgentsComplete. -/
def agentsS2 : State :=
  { work with agents := [(agentKey 4 0x40, .m)] }

/-- A value of clause 3 of AgentsComplete. -/
def agentsS3 : State :=
  { work with agents := [(agentKey 4 0x40, .s)] }

/-- A value of clause 5 of AgentsComplete. -/
def agentsS5 : State :=
  { work with txns := [(0x40, { req := ⟨.rdShared, 4, 0, 0x40, 0, []⟩, needAck := true })] }

/-- A value of clause 5 of AgentsComplete. -/
def agentsX5 : DirTxn :=
  { req := ⟨.rdShared, 4, 0, 0x40, 0, []⟩, needAck := true }

/-- A value of clause 7 of AgentsComplete. -/
def agentsS7 : State :=
  { work with net := [⟨.datIo, 0, 400, 0x40, 0, [1, 2]⟩] }

/-- A value of clause 8 of AgentsComplete. -/
def agentsS8 : State :=
  { work with nearReqs := [⟨2, 0x40, 0, 8, [], true⟩] }

/-- Values that meet the hypotheses of AgentsComplete, clause by clause. -/
theorem witness_agents_complete :
    (∃ (s : State) (agent line req : Nat), isCaching agent = true ∧ s.agentState agent line = .m ∧ isCaching (req % 512) =
      true) ∧
    (∃ (s : State) (agent line : Nat), isCaching agent = true ∧ s.agentState agent line = .m) ∧
    (∃ (s : State) (agent line : Nat), isCaching agent = true ∧ s.agentState agent line = .s) ∧
    (∃ (s : State) (agent line : Nat), isCaching agent = true ∧ s.agentState agent line = .m) ∧
    (∃ (s : State) (agent line : Nat) (x : DirTxn) (c : Instr) (st : LineState), agent < 256 ∧ s.txns.find line = some x ∧
      x.needAck = true ∧ x.req.src = agent ∧ (c, st) ∈ [(Instr.datS agent line 0, LineState.s), (.datE agent line 0, .e),
      (.datM agent line 0, .m), (.grant agent line, .e)]) ∧
    (∃ (s : State) (agent line : Nat) (m : Msg),
      ((s.net.find? fun m => decide (m.kind = .datIo ∧ m.dst = agent ∧ m.a = line)) = some m)) :=
  ⟨⟨agentsS1, 4, 0x40, 5, by decide +kernel⟩,
   ⟨agentsS2, 4, 0x40, by decide +kernel⟩,
   ⟨agentsS3, 4, 0x40, by decide +kernel⟩,
   ⟨agentsS2, 4, 0x40, by decide +kernel⟩,
   ⟨agentsS5, 4, 0x40, agentsX5, (.datM 4 0x40 0 : Instr), (.m : LineState), by decide +kernel⟩,
   ⟨agentsS7, 400, 0x40, (⟨.datIo, 0, 400, 0x40, 0, [1, 2]⟩ : Msg), by decide +kernel⟩⟩

/-- A value of clause 1 of AnswersComplete. -/
def answersS1 : State :=
  { work with txns := [(0x40, { req := ⟨.rdUnique, 9, 0, 0x40, 0, []⟩, waits := [4, 5], needAck := false })], dir :=
                [(0x40, ⟨0, 0, [4, 5], none, 0⟩)] }

/-- A value of clause 1 of AnswersComplete. -/
def answersX1 : DirTxn :=
  { req := ⟨.rdUnique, 9, 0, 0x40, 0, []⟩, waits := [4, 5], needAck := false }

/-- A value of clause 3 of AnswersComplete. -/
def answersS3 : State :=
  { work with txns := [(0x40, { req := ⟨.rdUnique, 9, 0, 0x40, 0, []⟩, waits := [4], needAck := true })], dir :=
                [(0x40, ⟨0, 0, [], some 4, 0⟩)] }

/-- A value of clause 3 of AnswersComplete. -/
def answersX3 : DirTxn :=
  { req := ⟨.rdUnique, 9, 0, 0x40, 0, []⟩, waits := [4], needAck := true }

/-- A value of clause 4 of AnswersComplete. -/
def answersS4 : State :=
  { work with dir := [(0x40, ⟨0, 0, [4, 5], none, 0⟩)], agents := [(agentKey 4 0x40, .s)] }

/-- A value of clause 5 of AnswersComplete. -/
def answersS5 : State :=
  { work with txns := [(0x40, { req := ⟨.rdUnique, 4, 0, 0x40, 0, []⟩, waits := [], needAck := true })], dir :=
                [(0x40, ⟨0, 0, [], some 4, 0⟩)] }

/-- A value of clause 5 of AnswersComplete. -/
def answersX5 : DirTxn :=
  { req := ⟨.rdUnique, 4, 0, 0x40, 0, []⟩, waits := [], needAck := true }

/-- Values that meet the hypotheses of AnswersComplete, clause by clause. -/
theorem witness_answers_complete :
    (∃ (s : State) (agent other line home : Nat) (x : DirTxn), s.homeOf (line * 128) = some home ∧ s.txns.find line = some x
      ∧ agent ∈ x.waits ∧ other ∈ x.waits ∧ other ≠ agent ∧ s.evicting agent line = false) ∧
    (∃ (s : State) (agent other line home : Nat) (x : DirTxn), s.homeOf (line * 128) = some home ∧ s.txns.find line = some x
      ∧ agent ∈ x.waits ∧ other ∈ x.waits ∧ other ≠ agent ∧ s.dirNames line agent = true) ∧
    (∃ (s : State) (agent line home : Nat) (x : DirTxn), s.homeOf (line * 128) = some home ∧ s.txns.find line = some x ∧
      x.waits = [agent] ∧ x.req.kind = .rdUnique ∧ x.needAck = true ∧ x.acked = false) ∧
    (∃ (s : State) (agent line home off : Nat) (c : Instr), (c = .evictClean agent line ∨ c = .datWb agent line true) ∧
      s.homeOf (line * 128) = some home ∧ regionOf (line * 128) = .gddr home off ∧ s.txns.find line = none) ∧
    (∃ (s : State) (agent line home : Nat) (x : DirTxn), s.homeOf (line * 128) = some home ∧ s.txns.find line = some x ∧
      x.needAck = true ∧ x.req.src = agent ∧ x.waits = [] ∧ x.missed = [] ∧ s.dirQueue = []) :=
  ⟨⟨answersS1, 4, 5, 0x40, 0, answersX1, by decide +kernel⟩,
   ⟨answersS1, 4, 5, 0x40, 0, answersX1, by decide +kernel⟩,
   ⟨answersS3, 4, 0x40, 0, answersX3, by decide +kernel⟩,
   ⟨answersS4, 4, 0x40, 0, 0x2000, (.evictClean 4 0x40 : Instr), by decide +kernel⟩,
   ⟨answersS5, 4, 0x40, 0, answersX5, by decide +kernel⟩⟩

/-- A value of clause 2 of TranslationCompletes. -/
def translationS2 : State :=
  { work with net := [⟨.xlat, 0, 0, 2, 0xB, leBytes 4 5⟩] }

/-- A value of clause 4 of TranslationCompletes. -/
def translationS4 : State :=
  { work with cmds := [(cmdKey 3 7, { queue := 3, seq := 7, kind := 2, held := 2, heldPage := 5 })], pageReqs :=
                [⟨0, 0, 5, .engine⟩] }

/-- A value of clause 4 of TranslationCompletes. -/
def translationC4 : Cmd :=
  { queue := 3, seq := 7, kind := 2, held := 2, heldPage := 5 }

/-- A value of clause 5 of TranslationCompletes. -/
def translationS5 : State :=
  { work with tlb := [⟨0, 0, 0, 1, 1, true, false⟩] }

/-- Values that meet the hypotheses of TranslationCompletes, clause by clause. -/
theorem witness_translation_completes :
    (∃ (s u : State) (stack dev pasid va pa : Nat) (write w : Bool), s.tlbFind stack dev pasid (va / 4096) = none ∧
      (s.bump (Page.hubTlb stack) 1).iommu dev pasid va write = (.ok pa, w, u)) ∧
    (∃ (s : State) (stack dev pasid vpage b : Nat), s.net = [⟨.xlat, stack, dev, vpage, b, leBytes 4 pasid⟩] ∧ s.tlbFind
      stack dev pasid vpage = none ∧ s.ready (Page.hubTlb stack) = true ∧ s.tlb.length < 262144) ∧
    (∃ (s : State) (stack dev pasid va ahead pa : Nat) (write : Bool) (ls : List Leaf), s.fld (Page.hubTlb stack) 0x100 8 8
      = 1 ∧ 1 ≤ ahead ∧ ahead ≤ s.fld (Page.hubTlb stack) 0x100 4 0 ∧ s.tlbFind stack dev pasid (va / 4096) = none ∧ s.walk
      dev pasid va = .found (ls, pa) ∧ leavesPermit ls write = true ∧ s.ready (Page.hubTlb stack) = true ∧ s.tlb.length <
      262144) ∧
    (∃ (s : State) (dev pasid vpage key : Nat) (c : Cmd), s.cmds = [(key, c)] ∧ cmdKey c.queue c.seq = key ∧ c.held = 2 ∧
      c.heldPage = vpage ∧ c.part = dev ∧ c.pasid = pasid ∧ s.queues = [] ∧ s.stages = [] ∧ s.blends = [] ∧ s.decs = [] ∧
      s.migs = [] ∧ s.pageReqs = [⟨dev, pasid, vpage, .engine⟩]) :=
  ⟨⟨work, ((work.bump (Page.hubTlb 0) 1).iommu 0 0 0x2038 true).2.2, 0, 0, 0, 0x2038, 0x2038, true, true, by decide +kernel⟩,
   ⟨translationS2, 0, 0, 5, 2, 0xB, by decide +kernel⟩,
   ⟨withRegs [(Page.hubTlb 0, 0x100, 0x104)] racks, 0, 0, 0, 0x5008, 4, 0x100000000008, false,
     ([⟨0x10D028, 0x400000000d7⟩] : List Leaf), by decide +kernel⟩,
   ⟨translationS4, 0, 0, 5, cmdKey 3 7, translationC4, by decide +kernel⟩⟩

/-- A value of clause 1 of InvalidationCompletes. -/
def invalidationS1 : State :=
  { work with tlb := [⟨0, 0, 0, 1, 1, true, false⟩] }

/-- A value of clause 3 of InvalidationCompletes. -/
def invalidationS3 : State :=
  withRegs [(Page.clock, Reg.PANEL_TIME, 100000)] { work with
    invals := [⟨5, [1], 0, false⟩] }

/-- A value of clause 4 of InvalidationCompletes. -/
def invalidationS4 : State :=
  withRegs [(Page.hostPort, Reg.PAGE_STATE, 3), (Page.hostPort, Reg.VER_ACTIVE, 0x1100)]
    { work with numVfs := 1, hostFns := [(1, { busMaster := true })] }

/-- A value of clause 5 of InvalidationCompletes. -/
def invalidationS5 : State :=
  { work with atsReqs := [⟨1, 0x201000, true, false⟩] }

/-- A value of clause 6 of InvalidationCompletes. -/
def invalidationS6 : State :=
  { work with atsReqs := [⟨1, 0x1000, true, true⟩] }

/-- A value of clause 7 of InvalidationCompletes. -/
def invalidationS7 : State :=
  { work with atc := [⟨1, 0x1000, 0x1000, true⟩] }

/-- Values that meet the hypotheses of InvalidationCompletes, clause by clause. -/
theorem witness_invalidation_completes :
    (∃ (s : State) (v : Inval), s.invals = [v] ∧ v.slow = false ∧ v.issued + 100000 ≤ s.panelTime.toNat) ∧
    (∃ (s : State) (part off : Nat), s.hostStatus part .engine = 0 ∧ s.fld Page.hostPort Reg.VER_ACTIVE 15 0 ≠ 0x0300 ∧
      s.atcFind (part + 1) off = none) ∧
    (∃ (s : State) (fn off : Nat) (read write : Bool) (r : AtsReq),
      ((s.atsReqs.find? fun r => decide (r.fn = fn ∧ r.off = off) && !r.pri) = some r) ∧ (if r.write then write else read) =
      true ∧ s.atc.length < 16384) ∧
    (∃ (s : State) (fn off : Nat) (r : AtsReq),
      ((s.atsReqs.find? fun r => decide (r.fn = fn ∧ r.off = off) && r.pri) = some r)) :=
  ⟨⟨invalidationS3, (⟨5, [1], 0, false⟩ : Inval), by decide +kernel⟩,
   ⟨invalidationS4, 0, 0x1000, by decide +kernel⟩,
   ⟨invalidationS5, 1, 0x201000, true, true, (⟨1, 0x201000, true, false⟩ : AtsReq), by decide +kernel⟩,
   ⟨invalidationS6, 1, 0x1000, (⟨1, 0x1000, true, true⟩ : AtsReq), by decide +kernel⟩⟩

/-- A value of clause 3 of TrellisCompletes. -/
def trellisP3 : TrellisPkt :=
  ⟨9, 3, 7, 64, 0, 2000, false, none⟩

/-- Values that meet the hypotheses of TrellisCompletes, clause by clause. -/
theorem witness_trellis_completes :
    (∃ (s : State) (stack d : Nat), stack < 72 ∧ d < 4 ∧ s.linkUp stack d = true ∧
      (s.trellis.replays.get [] (stack * 4 + d)).length < 256) ∧
    (∃ (s : State) (stack d : Nat), stack < 72 ∧ d < 4 ∧ s.linkUp stack d = true) ∧
    (∃ (s : State) (node src o : Nat) (p q : TrellisPkt), node < 72 ∧ s.routerAlive node = true ∧ s.fld (Page.router node)
      Reg.ROUTER_CTL 0 0 = 0 ∧ s.routeOf node p.dst = some o ∧ o < 4 ∧ s.linkUp node o = true ∧ q =
      { p with src := node, cls := p.cls % 6, part := p.part % 64, bytes := min p.bytes 1024 }) ∧
    (∃ (s : State) (i : Ident) (stack : Nat), stack < 72 ∧ Admitted s i (Page.router stack) Reg.ROUTER_CTL 1) ∧
    (∃ (s : State) (i : Ident) (stack : Nat), stack < 72 ∧ Admitted s i (Page.router stack) Reg.ROUTER_CTL 0 ∧
      (∀ h ∈ s.trellis.held, h.1 ≠ stack) ∧ (∀ w ∈ s.trellis.waits, w.1 ≠ stack)) ∧
    (∃ (s : State) (n d : Nat), n < 72 ∧ d < 80 ∧ s.trellis.flight = [] ∧ s.trellis.held = [] ∧ s.trellis.waits = [] ∧
      s.binds = [] ∧ (∀ st, st < 72 → s.fld (Page.router st) Reg.ROUTER_STAT 15 0 = 0)) ∧
    (∃ (s : State) (p : Nat), p < 72 ∧ s.pageState (Page.router p) = PS.ready) :=
  ⟨⟨withRegs [(Page.router 71, Reg.ROUTER_STAT, 0xF0000)] work, 71, 3, by decide +kernel⟩,
   ⟨withRegs [(Page.router 71, Reg.ROUTER_STAT, 0xF0000)] work, 71, 3, by decide +kernel⟩,
   ⟨withRegs [(Page.router 71, Reg.ROUTER_STAT, 0xF0000), (Page.router 71, Reg.PAGE_STATE, 3),
     (Page.router 71, Reg.ROUTE + 24, 0x83)] work, 71, 71, 3, trellisP3,
     { trellisP3 with src := 71, cls := trellisP3.cls % 6, part := trellisP3.part % 64, bytes := min trellisP3.bytes 1024 },
     by decide +kernel, by decide +kernel, by decide +kernel, by decide +kernel, by decide +kernel, by decide +kernel, rfl⟩,
   ⟨work, (.mgmt : Ident), 71, by decide +kernel⟩,
   ⟨work, (.mgmt : Ident), 71, by decide +kernel⟩,
   ⟨work, 71, 79, by decide +kernel⟩,
   ⟨withRegs [(Page.router 71, Reg.PAGE_STATE, 3)] work, 71, by decide +kernel⟩⟩

/-- A value of clause 1 of ArbitersComplete. -/
def arbitersS1 : State :=
  { work with buckets := [(bucketKey (Page.regulator 0) 5 0, { enable := true })] }

/-- A value of clause 2 of ArbitersComplete. -/
def arbitersS2 : State :=
  withRegs [(Page.gddr 0 5, 0x600, 1), (Page.gddr 0 5, Reg.EV_ENABLE, 0xFFFF)]
    { work with trellis := { entries := [(arbKey (Page.gddr 0 5) 0,
                               [{ req := ⟨3, 0, .fill, 128⟩, age := 63, tried := true }])] } }

/-- A value of clause 2 of ArbitersComplete. -/
def arbitersE2 : ArbEntry :=
  { req := ⟨3, 0, .fill, 128⟩, age := 63, tried := true }

/-- Values that meet the hypotheses of ArbitersComplete, clause by clause. -/
theorem witness_arbiters_complete :
    (∃ (s : State) (st g : Nat) (r : ArbReq), st < 72 ∧ g < 6 ∧ s.arb (Page.gddr st g) 0 = [] ∧ r.kind = .fill ∧
      (s.bucket (Page.regulator st) g r.part).inBudget r.size = true) ∧
    (∃ (s : State) (st g cycles : Nat) (e : ArbEntry), st < 72 ∧ g < 6 ∧ s.arb (Page.gddr st g) 0 = [e] ∧ e.tried = true ∧
      e.posted = false ∧ s.fld (Page.gddr st g) 0x600 15 0 ≠ 0 ∧ s.fld (Page.gddr st g) 0x600 15 0 * 64 < e.age + cycles) ∧
    (∃ (s : State) (i : Ident) (st g : Nat) (v : Word), st < 72 ∧ g < 6 ∧ Admitted s i (Page.gddr st g) 0x608 v ∧ bit v 31 =
      true ∧ bits v 5 0 ≤ 48) ∧
    (∃ (s : State) (i : Ident) (st point part : Nat) (v : Word), st < 72 ∧ Admitted s i (Page.regulator st) 0x110 v ∧
      s.regSelected (Page.regulator st) = (point, part)) :=
  ⟨⟨arbitersS1, 0, 5, (⟨3, 0, .fill, 128⟩ : ArbReq), by decide +kernel⟩,
   ⟨arbitersS2, 0, 5, 2, arbitersE2, by decide +kernel⟩,
   ⟨work, (.mgmt : Ident), 71, 5, 0x803F0030#64, by decide +kernel⟩,
   ⟨withRegs [(Page.regulator 71, 0x108, 0x53F)] work, (.mgmt : Ident), 71, 5, 63, 0x6040000000000001#64, by decide +kernel⟩⟩

/-- A value of clause 4 of HostAccessesComplete. -/
def hostAccessesS4 : State :=
  { withRegs [(Page.hostPort, Reg.EV_ENABLE, 0xFFFF), (Page.hostPort, 0x108, 1)] work with
    hostFns := [(64, { busMaster := true, msixEnable := true, table := [(31, ⟨0x1000, 5, false, false⟩)] })], numVfs := 64 }

/-- A value of clause 5 of HostAccessesComplete. -/
def hostAccessesS5 : State :=
  { withRegs [(Page.hostPort, Reg.EV_ENABLE, 0xFFFF), (Page.hostPort, 0x108, 1)] work with
    hostFns := [(64, { busMaster := true, msixEnable := true })], numVfs := 64 }

/-- A value of clause 6 of HostAccessesComplete. -/
def hostAccessesS6 : State :=
  { withRegs [(Page.hostPort, Reg.EV_ENABLE, 0xFFFF), (Page.hostPort, 0x108, 1)] work with
    hostFns := [(64, { busMaster := true, msixEnable := true, table := [(31, ⟨0x1000, 5, true, true⟩)] })], numVfs := 64 }

/-- A value of clause 7 of HostAccessesComplete. -/
def hostAccessesU7 : State :=
  ((windowed.bumpUnits Page.hostPort 1 3 1024).vwrite ⟨none, 63, 0, .engine⟩ 0x4100 [1, 2, 3]).2.2

/-- A value of clause 8 of HostAccessesComplete. -/
def hostAccessesS8 : State :=
  { withRegs [(Page.hostPort, Reg.EV_ENABLE, 0xFFFF), (Page.hostPort, 0x108, 0x81FB), (Page.hostPort, Reg.PAGE_STATE, 3)]
      work with hostFns := [(64, { busMaster := true, msixEnable := true })], numVfs := 64, winDrops :=
                  [(winKey 63 63, (0x31, 2))] }

/-- A value of clause 9 of HostAccessesComplete. -/
def hostAccessesS9 : State :=
  { work with winCache := [(winKey 63 63, ⟨true, 0x4000, 0⟩)] }

/-- A value of clause 10 of HostAccessesComplete. -/
def hostAccessesS10 : State :=
  cmdIs { queue := 3, seq := 7, kind := 2, cs := [0x8000000000FF0, 0x4000, 256], active := true } work

/-- A value of clause 10 of HostAccessesComplete. -/
def hostAccessesC10 : Cmd :=
  { queue := 3, seq := 7, kind := 2, cs := [0x8000000000FF0, 0x4000, 256], active := true }

/-- A value of clause 12 of HostAccessesComplete. -/
def hostAccessesS12 : State :=
  cmdIs { queue := 3, seq := 7, kind := 2, cs := [0x4000, 0x8000000000FF0, 256], active := true }
    (withRegs [(Page.hostPort, 0x108, 1)] work)

/-- A value of clause 12 of HostAccessesComplete. -/
def hostAccessesC12 : Cmd :=
  { queue := 3, seq := 7, kind := 2, cs := [0x4000, 0x8000000000FF0, 256], active := true }

/-- Values that meet the hypotheses of HostAccessesComplete, clause by clause. -/
theorem witness_host_accesses_complete :
    (∃ (fn off : Nat), fn ≤ 64 ∧ off < 0x4000000) ∧
    (∃ (fn off : Nat), fn ≤ 64 ∧ off < 0x4000000 ∧ off % 8 = 0) ∧
    (∃ (s : State) (fn q : Nat) (v : Word), fn ≤ 64 ∧ q < 1024 ∧ s.boundTo q (s.fnIdent fn) = true ∧ bits v 11 0 <
      s.ringSize q) ∧
    (∃ (s : State) (fn entry : Nat), fn < 65 ∧ entry < 32 ∧ s.fld Page.hostPort 0x108 0 0 = 1 ∧ (s.hostFn fn).busMaster =
      true ∧ (s.hostFn fn).msixEnable = true ∧ ((s.hostFn fn).table.get {} entry).masked = false) ∧
    (∃ (s : State) (fn entry : Nat), fn < 65 ∧ entry < 32 ∧ s.fld Page.hostPort 0x108 0 0 = 1 ∧ (s.hostFn fn).busMaster =
      true ∧ (s.hostFn fn).msixEnable = true ∧ ((s.hostFn fn).table.get {} entry).masked = true) ∧
    (∃ (s : State) (fn entry : Nat), fn < 65 ∧ entry < 32 ∧ s.fld Page.hostPort 0x108 0 0 = 1 ∧ (s.hostFn fn).busMaster =
      true ∧ (s.hostFn fn).msixEnable = true ∧ ((s.hostFn fn).table.get {} entry).pend = true) ∧
    (∃ (s r u : State) (p slot o : Nat) (e : WinEntry) (bytes : List Byte), p < 64 ∧ slot < 64 ∧ o < 0x400000 ∧ bytes.length
      ≤ 4096 ∧ s.fld Page.hostPort 0x108 0 0 = 1 ∧ s.fld Page.hostPort 0x108 1 1 = 1 ∧ slot < s.fld Page.hostPort 0x108 15 9
      ∧ slot = s.fld Page.hostPort 0x108 8 3 ∧ s.pageState Page.hostPort = PS.ready ∧
      (s.bumpUnits Page.hostPort 1 bytes.length 1024).winEntry p slot = (e, r) ∧ e.sound = true ∧ r.remoteWrite p e.pasid
      (e.target + o) bytes = some (0, u)) ∧
    (∃ (s : State) (p slot : Nat), p < 64 ∧ slot < 64 ∧ s.fld Page.hostPort 0x108 0 0 = 1 ∧ s.fld Page.hostPort 0x108 1 1 =
      1 ∧ slot < s.fld Page.hostPort 0x108 15 9 ∧ slot = s.fld Page.hostPort 0x108 8 3) ∧
    (∃ (s : State) (i : Ident) (v : Word), Admitted s i Page.hostPort Reg.WIN_CTL v ∧ bit v 0 = true) ∧
    (∃ (s : State) (x y a : Nat) (c : Cmd), s.cmd x y = some c ∧ (s.hostMove c).1 = true ∧ s.peekTranslate c.part c.pasid
      (c.cs.getD 0 0 + c.progress) false = some a) ∧
    (∃ (s : State) (x y : Nat) (c : Cmd), s.cmd x y = some c ∧ (s.hostMove c).1 = true) ∧
    (∃ (s : State) (q seq : Nat) (c : Cmd), s.cmd q seq = some c ∧ (s.hostMove c).2 = true ∧ s.fld Page.hostPort 0x108 0 0 =
      1) :=
  ⟨⟨64, 0x3FFFFF8, by decide +kernel⟩,
   ⟨0, 0x3FFFFF8, by decide +kernel⟩,
   ⟨withRegs [(Page.queueBlock 1023, qOff 1023 Q.bind, 0x8000003f00000000), (Page.queueBlock 1023, qOff 1023 Q.cfg, 0x3)]
     work, 64, 1023, 7#64, by decide +kernel⟩,
   ⟨hostAccessesS4, 64, 31, by decide +kernel⟩,
   ⟨hostAccessesS5, 64, 31, by decide +kernel⟩,
   ⟨hostAccessesS6, 64, 31, by decide +kernel⟩,
   ⟨windowed, windowed.bumpUnits Page.hostPort 1 3 1024, hostAccessesU7, 63, 63, 0x100, (⟨true, 0x4000, 0⟩ : WinEntry),
     ([1, 2, 3] : List Byte), by decide +kernel⟩,
   ⟨hostAccessesS8, 63, 63, by decide +kernel⟩,
   ⟨hostAccessesS9, (.mgmt : Ident), 0x3F01#64, by decide +kernel⟩,
   ⟨hostAccessesS10, 3, 7, 0x8000000000FF0, hostAccessesC10, by decide +kernel⟩,
   ⟨hostAccessesS10, 3, 7, hostAccessesC10, by decide +kernel⟩,
   ⟨hostAccessesS12, 3, 7, hostAccessesC12, by decide +kernel⟩⟩

/-- A value of clause 1 of HostLinkCompletes. -/
def hostLinkS1 : State :=
  withRegs [(Page.hostPort, Reg.EV_ENABLE, 0xFFFF)] { work with
    group := { linked := true } }

/-- A value of clause 6 of HostLinkCompletes. -/
def hostLinkS6 : State :=
  { work with hostFns := [(64, { busMaster := true })], atc := [⟨64, 0x1000, 0x1000, true⟩], winFlush := [winKey 63 63] }

/-- Values that meet the hypotheses of HostLinkCompletes, clause by clause. -/
theorem witness_host_link_completes :
    (∃ (s : State) (width rate : Nat), width < 32 ∧ rate < 8 ∧ s.fld Page.hostPort 0x108 0 0 = 0 ∧ s.pageState Page.hostPort
      ≠ PS.quiescing ∧ s.pageState Page.hostPort ≠ PS.quiesced ∧ s.group.forming = false ∧ s.group.linked = true) ∧
    (∃ (s : State), s.fld Page.hostPort 0x108 0 0 = 1) ∧
    (∃ (s : State) (cause : Nat), s.p7 = false ∧ 1 ≤ cause ∧ cause ≤ 5 ∧ s.fld Page.hostPort 0x108 0 0 = 1) ∧
    (∃ (s : State) (cause n : Nat), s.p7 = true ∧ 1 ≤ cause ∧ cause ≤ 5 ∧ n ≠ 0) ∧
    (∃ (s : State) (cause n : Nat), s.p7 = true ∧ 1 ≤ cause ∧ cause ≤ 5 ∧ n ≠ 0) ∧
    (∃ (s : State) (p : Nat), p < 64 ∧ s.cmds = [] ∧ (∀ q, q < 1024 → bit (s.qreg q Q.bind) 63 = true → bits
      (s.qreg q Q.bind) 59 56 = Q.hostVf → bits (s.qreg q Q.bind) 43 32 ≠ p)) ∧
    (∃ (s : State) (i : Ident) (v : Word), Admitted s i Page.hostPort Reg.HOST_ATTACH (setBit v 16 true) ∧ bit v 17 = false
      ∧ bits v 15 0 = s.fld Page.hostPort Reg.HOST_STAT 47 32 ∧ s.hostQueues = [] ∧ s.hostVersion ≠ 0) ∧
    (∃ (s : State) (i : Ident) (v : Word), Admitted s i Page.hostPort Reg.HOST_ATTACH (setBit (setBit v 16 false) 17 true) ∧
      bits v 15 0 = s.fld Page.hostPort Reg.HOST_STAT 47 32 ∧ s.hostQueues = []) :=
  ⟨⟨hostLinkS1, 31, 7, by decide +kernel⟩,
   ⟨withRegs [(Page.hostPort, 0x108, 1)] work, by decide +kernel⟩,
   ⟨withRegs [(Page.hostPort, 0x108, 1), (Page.hostPort, Reg.PAGE_STATE, 3)] work, 5, by decide +kernel⟩,
   ⟨withRegs [(Page.hostPort, Reg.VER_ACTIVE, 0x300)] work, 5, 1, by decide +kernel⟩,
   ⟨withRegs [(Page.hostPort, Reg.VER_ACTIVE, 0x300)] work, 5, 1, by decide +kernel⟩,
   ⟨hostLinkS6, 63, by decide +kernel, by decide +kernel,
     fun q hq h => absurd h (by rw [qbind_unwritten _ q 1024 hq (by decide) (by decide +kernel)]; decide)⟩,
   ⟨withRegs [(Page.hostPort, Reg.HOST_PROTO_REQ, 0x0002000011001100), (Page.hostPort, 0x108, 1),
     (Page.hostPort, Reg.PAGE_STATE, 3)] work, (.hostPf : Ident), 0#64, by decide +kernel, by decide +kernel,
     by decide +kernel, hostQueues_none _ fun q hq => qbind_unwritten _ q 1024 hq (by decide) (by decide +kernel),
     by decide +kernel⟩,
   ⟨withRegs [(Page.hostPort, Reg.HOST_PROTO_REQ, 0x0002000011001100), (Page.hostPort, 0x108, 1),
     (Page.hostPort, Reg.PAGE_STATE, 3), (Page.hostPort, Reg.VER_ACTIVE, 0x1100)] work, (.hostPf : Ident), 0#64,
     by decide +kernel, by decide +kernel, hostQueues_none _ fun q hq => qbind_unwritten _ q 1024 hq (by decide)
     (by decide +kernel)⟩⟩

/-- A value of clause 1 of PortsComplete. -/
def portsS1 : State :=
  { withRegs [(Page.fabricPort 31, Reg.EV_ENABLE, 0xFFFF), (Page.fabricPort 31, 0x108, 3)] work with
    fabPorts := [(31, { rxNext := 5 })] }

/-- A value of clause 2 of PortsComplete. -/
def portsS2 : State :=
  { withRegs [(Page.fabricPort 31, Reg.EV_ENABLE, 0xFFFF), (Page.fabricPort 31, 0x108, 4)] work with
    fabPorts := [(31, { unackedRx := 3 })] }

/-- A value of clause 3 of PortsComplete. -/
def portsS3 : State :=
  { withRegs [(Page.fabricPort 31, Reg.EV_ENABLE, 0xFFFF), (Page.fabricPort 31, 0x108, 3)] work with
    fabPorts := [(31, {  })] }

/-- A value of clause 4 of PortsComplete. -/
def portsS4 : State :=
  { withRegs [(Page.fabricPort 31, Reg.EV_ENABLE, 0xFFFF), (Page.fabricPort 31, 0x108, 4)] work with
    fabPorts := [(31, {  })] }

/-- A value of clause 5 of PortsComplete. -/
def portsS5 : State :=
  { withRegs [(Page.fabricPort 31, Reg.EV_ENABLE, 0xFFFF), (Page.fabricPort 31, 0x108, 0), (Page.portDie 0, 0x100, 0x10000),
      (Page.fabricPort 31, Reg.PAGE_STATE, 3), (Page.pmc, Reg.BOOT_STAT, 10), (Page.clock, Reg.PANEL_TIME, 10000000000)]
      work with fabPorts := [(31, { downAt := some 9000000000 })] }

/-- A value of clause 6 of PortsComplete. -/
def portsS6 : State :=
  { withRegs [(Page.fabricPort 31, Reg.EV_ENABLE, 0xFFFF), (Page.fabricPort 31, 0x108, 0x8000000000000000),
      (Page.portDie 0, 0x100, 0x10000), (Page.fabricPort 31, Reg.PAGE_STATE, 3), (Page.pmc, Reg.BOOT_STAT, 10),
      (Page.clock, Reg.PANEL_TIME, 10000000000)] work with
    fabPorts := [(31, { downAt := some 0 })] }

/-- A value of clause 7 of PortsComplete. -/
def portsS7 : State :=
  { withRegs [(Page.fabricPort 31, Reg.EV_ENABLE, 0xFFFF), (Page.fabricPort 31, 0x108, 1)] work with
    fabPorts := [(31, {  })] }

/-- A value of clause 8 of PortsComplete. -/
def portsS8 : State :=
  { withRegs [(Page.fabricPort 31, Reg.EV_ENABLE, 0xFFFF), (Page.fabricPort 31, 0x108, 2)] work with
    fabPorts := [(31, {  })] }

/-- A value of clause 12 of PortsComplete. -/
def portsS12 : State :=
  { withRegs [(Page.fabricPort 31, Reg.EV_ENABLE, 0xFFFF)] work with
    fabPorts := [(31, { cable := false })] }

/-- Values that meet the hypotheses of PortsComplete, clause by clause. -/
theorem witness_ports_complete :
    (∃ (s : State) (f : Nat) (b : List Byte) (h : Word), f < 32 ∧ 3 ≤ s.lstate f ∧ b.length = 256 ∧ leAt b 248 8 = crc64
      (b.take 248) ∧ h = BitVec.ofNat 64 (leAt b 0 8) ∧ bit h 28 = false ∧ bit h 29 = false ∧ bit h 30 = false ∧ bits h 45
      34 = 0 ∧ (s.fabPort f).waiting = [] ∧ bits h 13 0 = (s.fabPort f).rxNext ∧ (s.fabPort f).unackedRx < 255) ∧
    (∃ (s : State) (f : Nat), f < 32 ∧ 3 ≤ s.lstate f) ∧
    (∃ (s : State) (f : Nat), f < 32 ∧ 3 ≤ s.lstate f ∧ (∀ e ∈ s.txChans, e.2.bound = true → e.2.port ≠ f)) ∧
    (∃ (s : State) (f : Nat), f < 32 ∧ 3 ≤ s.lstate f ∧ (∀ e ∈ s.txChans, e.2.bound = true → e.2.port ≠ f)) ∧
    (∃ (s : State) (f : Nat), f < 32 ∧ s.mayBringUp f = true ∧ s.downFor f 1000000000 = true ∧ s.vintageFailed f = false) ∧
    (∃ (s : State) (f : Nat), f < 32 ∧ s.mayBringUp f = true ∧ s.downFor f 10000000000 = true ∧ s.vintageFailed f = true) ∧
    (∃ (s : State) (f : Nat), f < 32 ∧ s.lstate f = 1) ∧
    (∃ (s : State) (f : Nat), f < 32 ∧ s.lstate f = 2) ∧
    (∃ (s : State) (f : Nat), f < 32 ∧ 1 ≤ s.lstate f ∧ s.lstate f ≤ 3) ∧
    (∃ (s : State) (f : Nat), f < 32 ∧ s.lstate f = 3) ∧
    (∃ (s : State) (f v : Nat) (b : List Byte), f < 32 ∧ s.lstate f = 3 ∧ v = negotiate
      (sideOf (s.reg (Page.fabricPort f) Reg.VER_SUPPORT).toNat) (sideOf (ofLeBytes (b.take 8))) ∧ v ≠ 0 ∧ leAt b 8 2 % 4096
      ≠ s.moduleId) ∧
    (∃ (s : State) (f : Nat), f < 32 ∧ (s.fabPort f).cable = false) ∧
    (∃ (s : State) (i : Ident) (v : Word), Admitted s i (Page.portDie 0) 0x100 v ∧ (∀ f, f < 32 → s.lstate f = 0)) :=
  ⟨⟨portsS1, 31, flit, BitVec.ofNat 64 (leAt flit 0 8), by decide +kernel, by decide +kernel, by decide +kernel, flit_crc,
     by decide +kernel⟩,
   ⟨portsS2, 31, by decide +kernel⟩,
   ⟨portsS3, 31, by decide +kernel⟩,
   ⟨portsS4, 31, by decide +kernel⟩,
   ⟨portsS5, 31, by decide +kernel⟩,
   ⟨portsS6, 31, by decide +kernel⟩,
   ⟨portsS7, 31, by decide +kernel⟩,
   ⟨portsS8, 31, by decide +kernel⟩,
   ⟨portsS3, 31, by decide +kernel⟩,
   ⟨portsS3, 31, by decide +kernel⟩,
   ⟨portsS3, 31, negotiate (sideOf (portsS3.reg (Page.fabricPort 31) Reg.VER_SUPPORT).toNat)
     (sideOf (ofLeBytes ((leBytes 8 0x0002000011001100 ++ leBytes 2 7 ++ List.replicate 22 0).take 8))), leBytes 8
     0x0002000011001100 ++ leBytes 2 7 ++ List.replicate 22 0, by decide +kernel⟩,
   ⟨portsS12, 31, by decide +kernel⟩,
   ⟨work, (.mgmt : Ident), 0x31FFF#64, by decide +kernel⟩⟩

/-- A value of clause 1 of PacketsComplete. -/
def packetsP1 : Packet :=
  { type := 0, src := 7, vc := 2, chseq := 1, addr := 0x4000, payload := [1, 2, 3] }

/-- A value of clause 1 of PacketsComplete. -/
def packetsQ1 : Packet :=
  { type := 0x01, src := 7, vc := 2, chseq := 1, addr := 0x4000, payload := [1, 2, 3] }

/-- A value of clause 1 of PacketsComplete. -/
def packetsU1 : State :=
  ((linked).bumpUnits (Page.fabricPort 31) 1 51 1024).vwrite ⟨none, 0, 0, .engine⟩ 0x4000 [1, 2, 3] |>.2.2

/-- A value of clause 2 of PacketsComplete. -/
def packetsP2 : Packet :=
  { type := 0, src := 7, vc := 2, chseq := 1, addr := 0x4000, aux := 16 }

/-- A value of clause 2 of PacketsComplete. -/
def packetsQ2 : Packet :=
  { type := 0x02, src := 7, vc := 2, chseq := 1, addr := 0x4000, aux := 16 }

/-- A value of clause 2 of PacketsComplete. -/
def packetsU2 : State :=
  (((linked).bumpUnits (Page.fabricPort 31) 1 48 1024).vread ⟨none, 0, 0, .engine⟩ 0x4000 16).2.2

/-- A value of clause 3 of PacketsComplete. -/
def packetsS3 : State :=
  { linked with colls := [(cmdKey 3 7, { coll with
                  op := 7, open_ := 2, peer := (7, 0), dst := 0x4000, src := 0x5000 })] }

/-- A value of clause 3 of PacketsComplete. -/
def packetsP3 : Packet :=
  { type := 0, src := 7, vc := 2, chseq := 1, jobTag := 5, collSeq := 6, addr := 0x5010, payload := [1, 2, 3] }

/-- A value of clause 3 of PacketsComplete. -/
def packetsQ3 : Packet :=
  { type := 0x03, src := 7, vc := 2, chseq := 1, jobTag := 5, collSeq := 6, addr := 0x5010, payload := [1, 2, 3] }

/-- A value of clause 3 of PacketsComplete. -/
def packetsR3 : State :=
  ({ linked with colls := [(cmdKey 3 7, { coll with
                   op := 7, open_ := 2, peer := (7, 0), dst := 0x4000, src := 0x5000 })] } : State).bumpUnits
    (Page.fabricPort 31) 1 51 1024

/-- A value of clause 3 of PacketsComplete. -/
def packetsC3 : Coll :=
  { coll with op := 7, open_ := 2, peer := (7, 0), dst := 0x4000, src := 0x5000 }

/-- A value of clause 4 of PacketsComplete. -/
def packetsP4 : Packet :=
  { type := 0, src := 7, vc := 2, chseq := 1, addr := 0x4000, op := 0, payload := [1] }

/-- A value of clause 4 of PacketsComplete. -/
def packetsQ4 : Packet :=
  { type := 0x04, src := 7, vc := 2, chseq := 1, addr := 0x4000, op := 0, payload := [1] }

/-- A value of clause 5 of PacketsComplete. -/
def packetsS5 : State :=
  { linked with colls := [(cmdKey 3 7, { coll with
                  op := 8, open_ := 2, peer := (7, 0) })] }

/-- A value of clause 5 of PacketsComplete. -/
def packetsP5 : Packet :=
  { type := 0, src := 7, vc := 2, chseq := 1, jobTag := 5, collSeq := 6 }

/-- A value of clause 5 of PacketsComplete. -/
def packetsQ5 : Packet :=
  { type := 0x05, src := 7, vc := 2, chseq := 1, jobTag := 5, collSeq := 6 }

/-- A value of clause 5 of PacketsComplete. -/
def packetsR5 : State :=
  ({ linked with colls := [(cmdKey 3 7, { coll with
                   op := 8, open_ := 2, peer := (7, 0) })] } : State).bumpUnits (Page.fabricPort 31) 1 48 1024

/-- A value of clause 5 of PacketsComplete. -/
def packetsC5 : Coll :=
  { coll with op := 8, open_ := 2, peer := (7, 0) }

/-- A value of clause 6 of PacketsComplete. -/
def packetsP6 : Packet :=
  { type := 0, src := 7, vc := 2, chseq := 1, payload := [0xFF, 0xFF] }

/-- A value of clause 6 of PacketsComplete. -/
def packetsQ6 : Packet :=
  { type := 0x06, src := 7, vc := 2, chseq := 1, payload := [0xFF, 0xFF] }

/-- A value of clause 7 of PacketsComplete. -/
def packetsS7 : State :=
  { linked with colls := [(cmdKey 3 7, { coll with
                  op := 5, dst := 0x4000 })] }

/-- A value of clause 7 of PacketsComplete. -/
def packetsP7 : Packet :=
  { type := 0, src := 7, vc := 2, chseq := 1, jobTag := 5, collSeq := 6, payload := [1, 2] }

/-- A value of clause 7 of PacketsComplete. -/
def packetsQ7 : Packet :=
  { type := 0x07, src := 7, vc := 2, chseq := 1, jobTag := 5, collSeq := 6, payload := [1, 2] }

/-- A value of clause 7 of PacketsComplete. -/
def packetsR7 : State :=
  ({ linked with colls := [(cmdKey 3 7, { coll with
                   op := 5, dst := 0x4000 })] } : State).bumpUnits (Page.fabricPort 31) 1 50 1024

/-- A value of clause 7 of PacketsComplete. -/
def packetsC7 : Coll :=
  { coll with op := 5, dst := 0x4000 }

/-- A value of clause 7 of PacketsComplete. -/
def packetsU7 : State :=
  ((({ linked with colls := [(cmdKey 3 7, { coll with
                     op := 5, dst := 0x4000 })] } : State).bumpUnits (Page.fabricPort 31) 1 50 1024).collStep
    ({ coll with op := 5, dst := 0x4000 })
    ({ type := 0x07, src := 7, vc := 2, chseq := 1, jobTag := 5, collSeq := 6, payload := [1, 2] })).2

/-- A value of clause 8 of PacketsComplete. -/
def packetsS8 : State :=
  { linked with txChans := [((7 * 8 + 2) * 64, { unacked := [⟨{ type := 1, chseq := 5 }, .none⟩] })] }

/-- A value of clause 8 of PacketsComplete. -/
def packetsP8 : Packet :=
  { type := 0, src := 7, vc := 2, chseq := 1, aux := 2, ackseq := 5 }

/-- A value of clause 8 of PacketsComplete. -/
def packetsQ8 : Packet :=
  { type := 0x08, src := 7, vc := 0, chseq := 1, aux := 2, ackseq := 5 }

/-- A value of clause 8 of PacketsComplete. -/
def packetsR8 : State :=
  ({ linked with txChans := [((7 * 8 + 2) * 64, { unacked := [⟨{ type := 1, chseq := 5 }, .none⟩] })] } : State).bumpUnits
    (Page.fabricPort 31) 1 48 1024

/-- A value of clause 9 of PacketsComplete. -/
def packetsP9 : Packet :=
  { type := 0, src := 7, vc := 2, chseq := 1, aux := 2, ackseq := 5, status := 0x63 }

/-- A value of clause 9 of PacketsComplete. -/
def packetsQ9 : Packet :=
  { type := 0x09, src := 7, vc := 0, chseq := 1, aux := 2, ackseq := 5, status := 0x63 }

/-- A value of clause 10 of PacketsComplete. -/
def packetsS10 : State :=
  { linked with txChans := [((7 * 8 + 2) * 64, { unacked := [⟨{ type := 1, chseq := 5 }, .none⟩], tries := 7 })] }

/-- A value of clause 11 of PacketsComplete. -/
def packetsS11 : State :=
  { linked with txChans := [((7 * 8 + 2) * 64, { unacked := [⟨{ type := 1, chseq := 5 }, .none⟩], tries := 8 })] }

/-- A value of clause 12 of PacketsComplete. -/
def packetsS12 : State :=
  { linked with colls := [(cmdKey 3 7, coll)] }

/-- A value of clause 12 of PacketsComplete. -/
def packetsP12 : Packet :=
  { type := 0, src := 7, vc := 2, chseq := 1, jobTag := 5, collSeq := 6, aux := 100 }

/-- A value of clause 12 of PacketsComplete. -/
def packetsQ12 : Packet :=
  { type := 0x0A, src := 7, vc := 0, chseq := 1, jobTag := 5, collSeq := 6, aux := 100 }

/-- A value of clause 12 of PacketsComplete. -/
def packetsR12 : State :=
  ({ linked with colls := [(cmdKey 3 7, coll)] } : State).bumpUnits (Page.fabricPort 31) 1 48 1024

/-- A value of clause 13 of PacketsComplete. -/
def packetsP13 : Packet :=
  { type := 0, src := 7, vc := 2, chseq := 1, jobTag := 5, collSeq := 6, aux := 100, status := 0x60 }

/-- A value of clause 13 of PacketsComplete. -/
def packetsQ13 : Packet :=
  { type := 0x0B, src := 7, vc := 0, chseq := 1, jobTag := 5, collSeq := 6, aux := 100, status := 0x60 }

/-- Values that meet the hypotheses of PacketsComplete, clause by clause. -/
theorem witness_packets_complete :
    (∃ (s r u : State) (f : Nat) (p q : Packet), q = typed p 0x01 none ∧ InOrder s f q r ∧ r.remoteWrite q.part q.pasid
      q.addr q.payload = some (0, u)) ∧
    (∃ (s r u : State) (f : Nat) (p q : Packet) (b : List Byte), q = typed p 0x02 none ∧ InOrder s f q r ∧ r.remoteRead
      q.part q.pasid q.addr (min 4096 q.aux) = some (0, b, u)) ∧
    (∃ (s r u : State) (f n : Nat) (p q : Packet) (c : Coll), q = typed p 0x03 none ∧ InOrder s f q r ∧ r.directOp q 7 =
      some c ∧ r.vwrite c.ctxt (c.dst + (q.addr - c.src)) q.payload = (.status 0, n, u) ∧
      ({ c with open_ := c.open_ - 1 } : Coll).finished = false) ∧
    (∃ (s r u : State) (f old : Nat) (p q : Packet), q = typed p 0x04 none ∧ InOrder s f q r ∧ r.remoteAtomic q.part q.pasid
      q.addr q.op (leAt q.payload 0 8) (leAt q.payload 8 8) = some (0, old, u)) ∧
    (∃ (s r : State) (f : Nat) (p q : Packet) (c : Coll), q = typed p 0x05 none ∧ InOrder s f q r ∧ r.directOp q 8 = some c
      ∧ ({ c with open_ := c.open_ - 1 } : Coll).finished = false) ∧
    (∃ (s r : State) (f : Nat) (p q : Packet), q = typed p 0x06 none ∧ InOrder s f q r) ∧
    (∃ (s r u : State) (f st : Nat) (p q : Packet) (c : Coll), q = typed p 0x07 none ∧ InOrder s f q r ∧ r.boundStack q.op =
      some st ∧ r.collFind st q.jobTag q.collSeq = some c ∧ r.collStep c q = (true, u)) ∧
    (∃ (s r : State) (f key : Nat) (p q : Packet) (x : TxPkt), q = typed p 0x08 (some 0) ∧ Accepted s f q r ∧ key =
      ackedChannel f q ∧ (s.txChan key).unacked = [x] ∧ x.owner = .none ∧ seqLe x.pkt.chseq q.ackseq = true) ∧
    (∃ (s r : State) (f key : Nat) (p q : Packet) (x : TxPkt), q = typed p 0x09 (some 0) ∧ Accepted s f q r ∧ key =
      ackedChannel f q ∧ (s.txChan key).unacked = [x] ∧ x.pkt.chseq = q.ackseq) ∧
    (∃ (s : State) (dst vc port key : Nat), vc < 8 ∧ port < 33 ∧ key = (dst * 8 + vc) * 64 + port ∧ (s.txChan key).unacked ≠
      [] ∧ (s.txChan key).tries < 8) ∧
    (∃ (s : State) (dst vc port key : Nat), vc < 8 ∧ port < 33 ∧ key = (dst * 8 + vc) * 64 + port ∧ (s.txChan key).unacked ≠
      [] ∧ 8 ≤ (s.txChan key).tries) ∧
    (∃ (s r : State) (f st : Nat) (p q : Packet) (c : Coll), q = typed p 0x0A (some 0) ∧ Accepted s f q r ∧ s.boundStack
      q.op = some st ∧ s.collFind st q.jobTag q.collSeq = some c) ∧
    (∃ (s r : State) (f st : Nat) (p q : Packet) (c : Coll), q = typed p 0x0B (some 0) ∧ Accepted s f q r ∧ s.boundStack
      q.op = some st ∧ r.collFind st q.jobTag q.collSeq = some c) :=
  ⟨⟨linked, (linked).bumpUnits (Page.fabricPort 31) 1 51 1024, packetsU1, 31, packetsP1, packetsQ1, by decide +kernel⟩,
   ⟨linked, (linked).bumpUnits (Page.fabricPort 31) 1 48 1024, packetsU2, 31, packetsP2, packetsQ2, List.replicate 16 0,
     by decide +kernel⟩,
   ⟨packetsS3, packetsR3,
     (packetsR3.vwrite packetsC3.ctxt (packetsC3.dst + (packetsQ3.addr - packetsC3.src)) packetsQ3.payload).2.2, 31,
     (packetsR3.vwrite packetsC3.ctxt (packetsC3.dst + (packetsQ3.addr - packetsC3.src)) packetsQ3.payload).2.1, packetsP3,
     packetsQ3, packetsC3, by decide +kernel, by decide +kernel, by decide +kernel, triple_of_fst (by decide +kernel),
     by decide +kernel⟩,
   ⟨linked, (linked).bumpUnits (Page.fabricPort 31) 1 49 1024,
     ((((linked).bumpUnits (Page.fabricPort 31) 1 49 1024).remoteAtomic 0 0 0x4000 0 1 0).getD (0, 0, work)).2.2, 31, 0,
     packetsP4, packetsQ4, by decide +kernel⟩,
   ⟨packetsS5, packetsR5, 31, packetsP5, packetsQ5, packetsC5, by decide +kernel⟩,
   ⟨linked, (linked).bumpUnits (Page.fabricPort 31) 1 50 1024, 31, packetsP6, packetsQ6, by decide +kernel⟩,
   ⟨packetsS7, packetsR7, packetsU7, 31, 0, packetsP7, packetsQ7, packetsC7, by decide +kernel⟩,
   ⟨packetsS8, packetsR8, 31, ackedChannel 31 packetsQ8, packetsP8, packetsQ8, (⟨{ type := 1, chseq := 5 }, .none⟩ : TxPkt),
     by decide +kernel⟩,
   ⟨packetsS8, packetsR8, 31, ackedChannel 31 packetsQ9, packetsP9, packetsQ9, (⟨{ type := 1, chseq := 5 }, .none⟩ : TxPkt),
     by decide +kernel⟩,
   ⟨packetsS10, 7, 2, 0, (7 * 8 + 2) * 64 + 0, by decide +kernel⟩,
   ⟨packetsS11, 7, 2, 0, (7 * 8 + 2) * 64 + 0, by decide +kernel⟩,
   ⟨packetsS12, packetsR12, 31, 0, packetsP12, packetsQ12, coll, by decide +kernel⟩,
   ⟨packetsS12, packetsR12, 31, 0, packetsP13, packetsQ13, coll, by decide +kernel⟩⟩

/-- A value of clause 1 of GroupsComplete. -/
def groupsS1 : State :=
  { withRegs [(Page.queueBlock 1023, qOff 1023 Q.bind, 0x8300101f00000000),
      (Page.queueBlock 1023, qOff 1023 Q.cfg, 0x8000000000000003), (Page.queueBlock 1023, qOff 1023 0, 0x4000)] linked with
    written := [regKey (Page.queueBlock 1023) (qOff 1023 0)] }

/-- A value of clause 1 of GroupsComplete. -/
def groupsP1 : Packet :=
  { type := 0, src := 7, vc := 2, chseq := 1, payload := [9] }

/-- A value of clause 1 of GroupsComplete. -/
def groupsQ1 : Packet :=
  { type := 0x10, src := 7, vc := 1, chseq := 1, payload := [9] }

/-- A value of clause 1 of GroupsComplete. -/
def groupsR1 : State :=
  ({ withRegs [(Page.queueBlock 1023, qOff 1023 Q.bind, 0x8300101f00000000),
       (Page.queueBlock 1023, qOff 1023 Q.cfg, 0x8000000000000003), (Page.queueBlock 1023, qOff 1023 0, 0x4000)] linked with
    written := [regKey (Page.queueBlock 1023) (qOff 1023 0)] } : State).bumpUnits (Page.fabricPort 31) 1 49 1024

/-- A value of clause 1 of GroupsComplete. -/
def groupsU1 : State :=
  doneOf ((({ withRegs [(Page.queueBlock 1023, qOff 1023 Q.bind, 0x8300101f00000000),
                (Page.queueBlock 1023, qOff 1023 Q.cfg, 0x8000000000000003), (Page.queueBlock 1023, qOff 1023 0, 0x4000)]
                linked with written := [regKey (Page.queueBlock 1023) (qOff 1023 0)] } : State).bumpUnits
    (Page.fabricPort 31) 1 49 1024).deliver 31 1023 { type := 0x10, src := 7, vc := 1, chseq := 1, payload := [9] })

/-- A value of clause 2 of GroupsComplete. -/
def groupsS2 : State :=
  cmdIs { queue := 3, seq := 7, kind := 9, sent := true } linked

/-- A value of clause 2 of GroupsComplete. -/
def groupsP2 : Packet :=
  { type := 0, src := 7, vc := 2, chseq := 1, addr := 3, collSeq := 7, payload := List.replicate 32 1 }

/-- A value of clause 2 of GroupsComplete. -/
def groupsQ2 : Packet :=
  { type := 0x11, src := 7, vc := 1, chseq := 1, addr := 3, collSeq := 7, payload := List.replicate 32 1 }

/-- A value of clause 2 of GroupsComplete. -/
def groupsR2 : State :=
  (cmdIs { queue := 3, seq := 7, kind := 9, sent := true } linked).bumpUnits (Page.fabricPort 31) 1 80 1024

/-- A value of clause 2 of GroupsComplete. -/
def groupsC2 : Cmd :=
  { queue := 3, seq := 7, kind := 9, sent := true }

/-- A value of clause 3 of GroupsComplete. -/
def groupsS3 : State :=
  cmdIs { queue := 3, seq := 7, kind := 9, sent := true, held := 3, fwdPkt := some (31, { type := 0x10, dst := 7 }) } linked

/-- A value of clause 3 of GroupsComplete. -/
def groupsC3 : Cmd :=
  { queue := 3, seq := 7, kind := 9, sent := true, held := 3, fwdPkt := some (31, { type := 0x10, dst := 7 }) }

/-- A value of clause 4 of GroupsComplete. -/
def groupsS4 : State :=
  { withRegs [(Page.hostPort, 0x108, 5), (Page.hostPort, Reg.PAGE_STATE, 3)] linked with
    hostFns := [(1, { busMaster := true })], numVfs := 1 }

/-- A value of clause 4 of GroupsComplete. -/
def groupsP4 : Packet :=
  { type := 0, src := 7, vc := 2, chseq := 1, addr := 0x1000, aux := 16 }

/-- A value of clause 4 of GroupsComplete. -/
def groupsQ4 : Packet :=
  { type := 0x12, src := 7, vc := 1, chseq := 1, addr := 0x1000, aux := 16 }

/-- A value of clause 4 of GroupsComplete. -/
def groupsR4 : State :=
  ({ withRegs [(Page.hostPort, 0x108, 5), (Page.hostPort, Reg.PAGE_STATE, 3)] linked with
    hostFns := [(1, { busMaster := true })], numVfs := 1 } : State).bumpUnits (Page.fabricPort 31) 1 48 1024

/-- A value of clause 4 of GroupsComplete. -/
def groupsA4 : Packet :=
  { type := 0x13, dst := 7, addr := 0x1000, aux := 16, status := 0, payload := List.replicate 16 0 }

/-- A value of clause 5 of GroupsComplete. -/
def groupsP5 : Packet :=
  { type := 0, src := 7, vc := 2, chseq := 1, status := 0x60, payload := [1] }

/-- A value of clause 5 of GroupsComplete. -/
def groupsQ5 : Packet :=
  { type := 0x13, src := 7, vc := 1, chseq := 1, status := 0x60, payload := [1] }

/-- A value of clause 6 of GroupsComplete. -/
def groupsP6 : Packet :=
  { type := 0, src := 7, vc := 2, chseq := 1, addr := 0x4000, payload := [1, 2, 3] }

/-- A value of clause 6 of GroupsComplete. -/
def groupsQ6 : Packet :=
  { type := 0x14, src := 7, vc := 1, chseq := 1, addr := 0x4000, payload := [1, 2, 3] }

/-- A value of clause 6 of GroupsComplete. -/
def groupsU6 : State :=
  ((linked).bumpUnits (Page.fabricPort 31) 1 51 1024).vwrite ⟨none, 0, 0, .engine⟩ 0x4000 [1, 2, 3] |>.2.2

/-- A value of clause 7 of GroupsComplete. -/
def groupsP7 : Packet :=
  { type := 0, src := 7, vc := 2, chseq := 1 }

/-- A value of clause 7 of GroupsComplete. -/
def groupsQ7 : Packet :=
  { type := 0x15, src := 7, vc := 1, chseq := 1 }

/-- A value of clause 8 of GroupsComplete. -/
def groupsS8 : State :=
  { linked with group := { forming := true, limitFrom := some 0 } }

/-- A value of clause 8 of GroupsComplete. -/
def groupsP8 : Packet :=
  { type := 0, src := 7, vc := 2, chseq := 1, aux := 2 }

/-- A value of clause 8 of GroupsComplete. -/
def groupsQ8 : Packet :=
  { type := 0x16, src := 7, vc := 0, chseq := 1, aux := 2 }

/-- A value of clause 8 of GroupsComplete. -/
def groupsR8 : State :=
  ({ linked with group := { forming := true, limitFrom := some 0 } } : State).bumpUnits (Page.fabricPort 31) 1 48 1024

/-- A value of clause 9 of GroupsComplete. -/
def groupsS9 : State :=
  { linked with group := { forming := true } }

/-- A value of clause 10 of GroupsComplete. -/
def groupsS10 : State :=
  withRegs [(Page.clock, Reg.PANEL_TIME, 30000000000)]
    { linked with group := { forming := true, limitFrom := some 0, heard := [(0, 3), (1, 0)] } }

/-- Values that meet the hypotheses of GroupsComplete, clause by clause. -/
theorem witness_groups_complete :
    (∃ (s r u : State) (f k : Nat) (p q : Packet), q = typed p 0x10 (some 1) ∧ InOrder s f q r ∧ r.groupQueues f q.src = [k]
      ∧ r.deliver f k q = .done u) ∧
    (∃ (s r : State) (f k : Nat) (p q : Packet) (c : Cmd), q = typed p 0x11 (some 1) ∧ InOrder s f q r ∧ k = q.addr % 1024 ∧
      r.cmd k q.collSeq = some c ∧ c.sent = true ∧ (r.queue k).stalled = [] ∧ q.payload.length = 32) ∧
    (∃ (s : State) (k seq port : Nat) (c : Cmd) (p : Packet), s.cmd k seq = some c ∧ c.held = 3 ∧ c.fwdPkt = some (port, p)
      ∧ s.portUp port = true ∧ s.groupPort port = true) ∧
    (∃ (s r u : State) (f : Nat) (p q a : Packet) (b : List Byte) (st : Nat), q = typed p 0x12 (some 1) ∧ InOrder s f q r ∧
      r.hostAccess q = (st, b, u) ∧ a =
      { type := 0x13, dst := q.src, part := q.part, op := q.op, addr := q.addr, aux := q.aux, status := st, payload := b }) ∧
    (∃ (s r : State) (f : Nat) (p q : Packet), q = typed p 0x13 (some 1) ∧ InOrder s f q r) ∧
    (∃ (s r u : State) (f : Nat) (p q : Packet), q = typed p 0x14 (some 1) ∧ InOrder s f q r ∧ r.remoteWrite q.part q.pasid
      q.addr q.payload = some (0, u)) ∧
    (∃ (s r : State) (f : Nat) (p q : Packet), q = typed p 0x15 (some 1) ∧ InOrder s f q r) ∧
    (∃ (s r : State) (f m me : Nat) (p q : Packet), q = typed p 0x16 (some 0) ∧ InOrder s f q r ∧ r.memberOf q.src = some m
      ∧ r.memberOf r.moduleId = some me ∧ r.group.forming = true) ∧
    (∃ (s : State), s.group.forming = true) ∧
    (∃ (s : State) (since m : Nat), s.group.limitFrom = some since ∧ since + 30000000000 ≤ s.panelTime.toNat ∧
      s.group.forming = true ∧ (s.group.withBit 0).length ≤ 1 ∧ s.masterOf = some m) ∧
    (∃ (s : State) (i : Ident) (v : Word), Admitted s i (Page.portDie 0) 0x108 v ∧ bit v 0 = true) :=
  ⟨⟨groupsS1, groupsR1, groupsU1, 31, 1023, groupsP1, groupsQ1, by decide +kernel, by decide +kernel, groupQueues_last _ _ _
     (fun q hq => qbind_unwritten _ q 1023 hq (by decide) (by decide +kernel)) (by decide +kernel), by decide +kernel⟩,
   ⟨groupsS2, groupsR2, 31, groupsQ2.addr % 1024, groupsP2, groupsQ2, groupsC2, by decide +kernel⟩,
   ⟨groupsS3, 3, 7, 31, groupsC3, ({ type := 0x10, dst := 7 } : Packet), by decide +kernel⟩,
   ⟨groupsS4, groupsR4, (groupsR4.hostAccess groupsQ4).2.2, 31, groupsP4, groupsQ4, groupsA4, List.replicate 16 0, 0,
     by decide +kernel⟩,
   ⟨linked, (linked).bumpUnits (Page.fabricPort 31) 1 49 1024, 31, groupsP5, groupsQ5, by decide +kernel⟩,
   ⟨linked, (linked).bumpUnits (Page.fabricPort 31) 1 51 1024, groupsU6, 31, groupsP6, groupsQ6, by decide +kernel⟩,
   ⟨linked, (linked).bumpUnits (Page.fabricPort 31) 1 48 1024, 31, groupsP7, groupsQ7, by decide +kernel⟩,
   ⟨groupsS8, groupsR8, 31, 1, 0, groupsP8, groupsQ8, by decide +kernel⟩,
   ⟨groupsS9, by decide +kernel⟩,
   ⟨groupsS10, 0, 0, by decide +kernel⟩,
   ⟨linked, (.mgmt : Ident), 1#64, by decide +kernel⟩⟩

/-- A value of clause 3 of QueueRegistersComplete. -/
def queueRegistersS3 : State :=
  { withRegs [(Page.queueBlock 1023, qOff 1023 Q.bind, 0x8000003f00000000),
      (Page.queueBlock 1023, qOff 1023 Q.cfg, 0x8000000000000003)] work with
    queues := [(1023, { unread := 7 })] }

/-- Values that meet the hypotheses of QueueRegistersComplete, clause by clause. -/
theorem witness_queue_registers_complete :
    (∃ (s : State) (i : Ident) (q : Nat) (v : Word), q < 1024 ∧ Admitted s i (Page.queueBlock q) (qOff q Q.tail) v ∧
      s.boundTo q i = true ∧ bits v 11 0 < s.ringSize q) ∧
    (∃ (s : State) (i : Ident) (q : Nat) (v : Word), q < 1024 ∧ Admitted s i (Page.queueBlock q) (qOff q Q.tail) v ∧
      (s.boundTo q i = false ∨ s.ringSize q ≤ bits v 11 0)) ∧
    (∃ (s : State) (i : Ident) (q : Nat) (v : Word), q < 1024 ∧ Admitted s i (Page.queueBlock q) (qOff q Q.head) v ∧
      s.boundTo q i = true ∧ bits v 11 0 < s.ringSize q) ∧
    (∃ (s : State) (i : Ident) (q : Nat) (v : Word), q < 1024 ∧ Admitted s i (Page.queueBlock q) (qOff q Q.head) v ∧
      (s.boundTo q i = false ∨ s.ringSize q ≤ bits v 11 0)) ∧
    (∃ (s : State) (i : Ident) (q : Nat) (v : Word), q < 1024 ∧ Admitted s i (Page.queueBlock q) (qOff q Q.cfg)
      (setBit v 63 true) ∧ bits (s.qreg q Q.cfg) 63 63 = 0 ∧
      (s.queuePort q ≠ Q.hostVf ∨ s.fld Page.hostPort Reg.VER_ACTIVE 15 0 ≠ 0)) ∧
    (∃ (s : State) (i : Ident) (q : Nat) (v : Word), q < 1024 ∧ Admitted s i (Page.queueBlock q) (qOff q Q.cfg)
      (setBit v 63 false) ∧ bits (s.qreg q Q.cfg) 63 63 = 1 ∧ bits (s.qreg q Q.stat) 63 63 = 0) ∧
    (∃ (s : State) (i : Ident) (q : Nat) (v : Word), q < 1024 ∧ Admitted s i (Page.queueBlock q) (qOff q Q.cfg)
      (setBit v 63 false) ∧ bits (s.qreg q Q.cfg) 63 63 = 1 ∧ (∀ e ∈ s.cmds, e.2.queue = q → s.unstarted e.2 = false)) ∧
    (∃ (s : State) (i : Ident) (q : Nat) (v : Word), q < 1024 ∧ Admitted s i (Page.queueBlock q) (qOff q Q.bind) v ∧ i =
      .mgmt ∧ bits (s.qreg q Q.stat) 63 63 = 1) ∧
    (∃ (s : State) (i : Ident) (q : Nat) (v : Word), q < 1024 ∧ Admitted s i (Page.queueBlock q) (qOff q Q.bind) v ∧
      (i ≠ .mgmt ∨ bits (s.qreg q Q.stat) 63 63 = 0)) ∧
    (∃ (s : State) (i : Ident) (p : Nat) (v : Word), p < 64 ∧ Admitted s i Page.device (partOff p 0) v ∧ s.fld Page.device
      (partOff p 0) 47 32 = bits v 15 0 ∧ s.partIdle p = true ∧
      (bit v 63 && s.partClash p (s.reg Page.device (partOff p 8)).toNat (s.partSrvRegs p)) = false) ∧
    (∃ (s : State) (i : Ident) (p : Nat) (v : Word), p < 64 ∧ Admitted s i Page.device (partOff p 0) v ∧ s.fld Page.device
      (partOff p 0) 47 32 ≠ bits v 15 0) ∧
    (∃ (s : State) (i : Ident) (p : Nat) (v : Word), p < 64 ∧ Admitted s i Page.device (partOff p 8) v ∧ s.fld Page.device
      (partOff p 0) 47 32 = s.fld Page.device (partOff p 0) 15 0 ∧ s.partIdle p = true ∧
      (s.fld Page.device (partOff p 0) 63 63 = 0 ∨ s.partClash p v.toNat [] = false)) ∧
    (∃ (s : State) (i : Ident) (p j : Nat) (v : Word), p < 64 ∧ j < 4 ∧ Admitted s i Page.device (partOff p (0x10 + 8 * j))
      v ∧ s.fld Page.device (partOff p 0) 47 32 = s.fld Page.device (partOff p 0) 15 0 ∧ s.partIdle p = true ∧
      (s.fld Page.device (partOff p 0) 63 63 = 0 ∨ s.partClash p 0 (listSet [0, 0, 0, 0] j v.toNat) = false)) :=
  ⟨⟨withRegs [(Page.queueBlock 1023, qOff 1023 Q.bind, 0x8000003f00000000),
     (Page.queueBlock 1023, qOff 1023 Q.cfg, 0x8000000000000003)] work, (.hostVf 63 : Ident), 1023, 7#64, by decide +kernel⟩,
   ⟨withRegs [(Page.queueBlock 1023, qOff 1023 Q.bind, 0x8000003f00000000),
     (Page.queueBlock 1023, qOff 1023 Q.cfg, 0x8000000000000003)] work, (.hostVf 63 : Ident), 1023, 8#64, by decide +kernel⟩,
   ⟨queueRegistersS3, (.hostVf 63 : Ident), 1023, 7#64, by decide +kernel⟩,
   ⟨withRegs [(Page.queueBlock 1023, qOff 1023 Q.bind, 0x8000003f00000000),
     (Page.queueBlock 1023, qOff 1023 Q.cfg, 0x8000000000000003)] work, (.hostVf 62 : Ident), 1023, 7#64, by decide +kernel⟩,
   ⟨withRegs [(Page.queueBlock 1023, qOff 1023 Q.bind, 0x8100000000000000), (Page.queueBlock 1023, qOff 1023 Q.cfg, 0x3)]
     work, (.mgmt : Ident), 1023, 3#64, by decide +kernel⟩,
   ⟨withRegs [(Page.queueBlock 1023, qOff 1023 Q.bind, 0x8000003f00000000),
     (Page.queueBlock 1023, qOff 1023 Q.cfg, 0x8000000000000003), (Page.queueBlock 1023, qOff 1023 Q.stat, 0)] work,
     (.mgmt : Ident), 1023, 3#64, by decide +kernel⟩,
   ⟨withRegs [(Page.queueBlock 1023, qOff 1023 Q.bind, 0x8000003f00000000),
     (Page.queueBlock 1023, qOff 1023 Q.cfg, 0x8000000000000003)] work, (.mgmt : Ident), 1023, 3#64, by decide +kernel⟩,
   ⟨withRegs [(Page.queueBlock 1023, qOff 1023 Q.stat, 0x8000000000000000)] work, (.mgmt : Ident), 1023,
     0x843F03FF00000000#64, by decide +kernel⟩,
   ⟨withRegs [(Page.queueBlock 1023, qOff 1023 Q.stat, 0x8000000000000000)] work, (.service : Ident), 1023,
     0x843F03FF00000000#64, by decide +kernel⟩,
   ⟨work, (.mgmt : Ident), 63, 0x8000000000000000#64, by decide +kernel, by decide +kernel, by decide +kernel,
     partIdle_of_unbound _ _ (by decide +kernel) fun q hq => qbind_unwritten _ q 1024 hq (by decide) (by decide +kernel),
     by decide +kernel⟩,
   ⟨work, (.mgmt : Ident), 63, 0x8000000000000001#64, by decide +kernel⟩,
   ⟨withRegs [(Page.device, partOff 63 0, 0x8000000000000000)] work, (.mgmt : Ident), 63, 0x8000000000000002#64,
     by decide +kernel, by decide +kernel, by decide +kernel, partIdle_of_unbound _ _ (by decide +kernel) fun q hq =>
     qbind_unwritten _ q 1024 hq (by decide) (by decide +kernel), by decide +kernel⟩,
   ⟨work, (.mgmt : Ident), 63, 3, 0xFFFFFFFFFFFFFFFF#64, by decide +kernel, by decide +kernel, by decide +kernel,
     by decide +kernel, partIdle_of_unbound _ _ (by decide +kernel) fun q hq => qbind_unwritten _ q 1024 hq (by decide)
     (by decide +kernel), by decide +kernel⟩⟩

/-- A value of clause 1 of DecantersComplete. -/
def decantersA1 : State :=
  (streamAt 0 {}).admittedState .mgmt (Page.decanter 0) (decOff 0 0x18)

/-- A value of clause 1 of DecantersComplete. -/
def decantersB1 : State :=
  ((streamAt 0 {}).admittedState .mgmt (Page.decanter 0) (decOff 0 0x18)).setDec 0 0
    { starting := true, req := (((streamAt 0 {}).admittedState .mgmt (Page.decanter 0) (decOff 0 0x18)).dec 0 0).req }

/-- A value of clause 1 of DecantersComplete. -/
def decantersU1 : State :=
  gotState (decRead ((((streamAt 0 {}).admittedState .mgmt (Page.decanter 0) (decOff 0 0x18)).setDec 0 0
    { starting := true, req := (((streamAt 0 {}).admittedState .mgmt (Page.decanter 0) (decOff 0 0x18)).dec 0 0).req
        }).decCtxt 0 0) (((streamAt 0 {}).admittedState .mgmt (Page.decanter 0) (decOff 0 0x18)).setDec 0 0
    { starting := true, req := (((streamAt 0 {}).admittedState .mgmt (Page.decanter 0) (decOff 0 0x18)).dec 0 0).req })
    0x3000 256)

/-- A value of clause 4 of DecantersComplete. -/
def decantersS4 : State :=
  streamAt 0x8000000000003 { desc := streamDesc }

/-- A value of clause 6 of DecantersComplete. -/
def decantersS6 : State :=
  (streamAt 1 { desc := streamDesc }).setReg (Page.decanter 0) (decOff 0 0x30) 1

/-- A value of clause 7 of DecantersComplete. -/
def decantersS7 : State :=
  streamAt 1 { desc := streamDesc, req := some { index := 0, dst := 0x8000, nslots := 2, irq := true } }

/-- A value of clause 7 of DecantersComplete. -/
def decantersQ7 : DecReq :=
  { index := 0, dst := 0x8000, nslots := 2, irq := true }

/-- A value of clause 7 of DecantersComplete. -/
def decantersR17 : State :=
  gotState (decIndex 0 0 0
    (streamAt 1 { desc := streamDesc, req := some { index := 0, dst := 0x8000, nslots := 2, irq := true } }))

/-- A value of clause 7 of DecantersComplete. -/
def decantersR7 : DecRecord :=
  gotVal ⟨0, 0, 0, []⟩ (decRecord 0 0 0 0 64 (gotState (decIndex 0 0 0
    (streamAt 1 { desc := streamDesc, req := some { index := 0, dst := 0x8000, nslots := 2, irq := true } }))))

/-- A value of clause 7 of DecantersComplete. -/
def decantersR27 : State :=
  gotState (decRecord 0 0 0 0 64 (gotState (decIndex 0 0 0
    (streamAt 1 { desc := streamDesc, req := some { index := 0, dst := 0x8000, nslots := 2, irq := true } }))))

/-- A value of clause 7 of DecantersComplete. -/
def decantersR37 : State :=
  gotState (decPlace 0 0 0 (gotVal ⟨0, 0, 0, []⟩ (decRecord 0 0 0 0 64
    (gotState (decIndex 0 0 0
    (streamAt 1 { desc := streamDesc, req := some { index := 0, dst := 0x8000, nslots := 2, irq := true } })))))
    (gotState (decRecord 0 0 0 0 64 (gotState (decIndex 0 0 0
    (streamAt 1 { desc := streamDesc, req := some { index := 0, dst := 0x8000, nslots := 2, irq := true } }))))))

/-- A value of clause 8 of DecantersComplete. -/
def decantersS8 : State :=
  (streamAt 1 { desc := (listSet (listSet streamDesc 12 1) 16 1), req := some
                  { index := 0, dst := 0x8000, nslots := 2, irq := true }, frames := [(0, [⟨5, [7], 0, 0, 64, 0⟩])]
                  }).setDecPos 0 0 1

/-- A value of clause 8 of DecantersComplete. -/
def decantersU8 : State :=
  gotState (decFuse 0 0 ⟨5, [7], 0, 0, 64, 0⟩ ((streamAt 1
    { desc := (listSet (listSet streamDesc 12 1) 16 1), req := some { index := 0, dst := 0x8000, nslots := 2, irq := true },
        frames := [(0, [⟨5, [7], 0, 0, 64, 0⟩])] }).setDecPos 0 0 1))

/-- Values that meet the hypotheses of DecantersComplete, clause by clause. -/
theorem witness_decanters_complete :
    (∃ (s a b u : State) (i : Ident) (n k : Nat) (d : List Byte), n < 4 ∧ k < 16 ∧ Admitted s i (Page.decanter n)
      (decOff k 0x18) 1 ∧ a = s.admittedState i (Page.decanter n) (decOff k 0x18) ∧ a.ready (Page.decanter n) = true ∧ bit
      (a.decReg n k 8) 63 = true ∧ a.isWritten (Page.decanter n) (decOff k 0) = true ∧ b = a.setDec n k
      { starting := true, req := (a.dec n k).req } ∧ decRead (b.decCtxt n k) b (b.decReg n k 0).toNat 256 = .ok d u ∧
      streamDescStatus d = St.ok) ∧
    (∃ (s : State) (i : Ident) (n k : Nat), n < 4 ∧ k < 16 ∧ Admitted s i (Page.decanter n) (decOff k 0x18) 4) ∧
    (∃ (s : State) (i : Ident) (n k : Nat), n < 4 ∧ k < 16 ∧ Admitted s i (Page.decanter n) (decOff k 0x18) 4 ∧
      (s.decState n k = 1 ∨ s.decState n k = 2) ∧ (s.dec n k).req = none) ∧
    (∃ (s : State) (i : Ident) (n k epoch : Nat) (discard : Bool), n < 4 ∧ k < 16 ∧ Admitted s i (Page.decanter n)
      (decOff k 0x18) (place 63 48 epoch ||| place 4 4 discard.toNat ||| 2) ∧ s.decState n k = 3 ∧ s.ready (Page.decanter n)
      = true ∧ bits (s.decReg n k 0x28) 63 48 = epoch) ∧
    (∃ (s : State) (i : Ident) (n k : Nat) (v : Word), n < 4 ∧ k < 16 ∧ Admitted s i (Page.decanter n) (decOff k 0x30) v ∧
      s.decState n k ≠ 1 ∧
      (¬ (bits v 3 0 = bits (s.decReg n k 0x28) 7 4 ∧ bits (s.decReg n k 0x30) 3 0 ≠ bits (s.decReg n k 0x28) 7 4))) ∧
    (∃ (s : State) (n k : Nat), n < 4 ∧ k < 16 ∧ s.decState n k = 1 ∧ s.ready (Page.decanter n) = true ∧
      (s.dec n k).pageWait = none ∧ (s.dec n k).starting = false ∧ (s.dec n k).req = none ∧ s.decRingEmpty n k = false) ∧
    (∃ (s r1 r2 r3 : State) (n k i file off : Nat) (p : Nat × Nat) (q : DecReq) (r : DecRecord), n < 4 ∧ k < 16 ∧ s.decState
      n k = 1 ∧ s.ready (Page.decanter n) = true ∧ (s.dec n k).pageWait = none ∧ (s.dec n k).starting = false ∧
      (s.dec n k).req = some q ∧ q.closing = none ∧ (leAt (s.dec n k).desc 12 1).testBit 0 = false ∧ positionOf
      (s.dec n k).desc (s.decPos n k) = some i ∧ p = sampleIndex (s.dec n k).desc i ∧ decIndex n k p.1 s = .ok (file, off)
      r1 ∧ decRecord n k p.1 file off r1 = .ok r r2 ∧ decPlace n k (s.decPos n k) r r2 = .ok () r3) ∧
    (∃ (s u : State) (n k : Nat) (q : DecReq) (f : DecFrame), n < 4 ∧ k < 16 ∧ s.decState n k = 1 ∧ s.ready
      (Page.decanter n) = true ∧ (s.dec n k).pageWait = none ∧ (s.dec n k).starting = false ∧ (s.dec n k).req = some q ∧
      q.closing = none ∧ (leAt (s.dec n k).desc 12 1).testBit 0 = true ∧ (s.dec n k).ref = some f ∧ (s.dec n k).decidable f
      (positionOf (s.dec n k).desc (s.decPos n k)).isNone = true ∧ decFuse n k f s = .ok () u) :=
  ⟨⟨streamAt 0 {}, decantersA1, decantersB1, decantersU1, (.mgmt : Ident), 0, 0, streamDesc, by decide +kernel⟩,
   ⟨streamAt 1 { desc := streamDesc }, (.mgmt : Ident), 0, 0, by decide +kernel⟩,
   ⟨streamAt 1 { desc := streamDesc }, (.mgmt : Ident), 0, 0, by decide +kernel⟩,
   ⟨decantersS4, (.mgmt : Ident), 0, 0, 8, true, by decide +kernel⟩,
   ⟨streamAt 2 {}, (.mgmt : Ident), 0, 0, 0x11#64, by decide +kernel⟩,
   ⟨decantersS6, 0, 0, by decide +kernel⟩,
   ⟨decantersS7, decantersR17, decantersR27, decantersR37, 0, 0, 0, 0, 64, (0, 0), decantersQ7, decantersR7,
     by decide +kernel⟩,
   ⟨decantersS8, decantersU8, 0, 0, decantersQ7, (⟨5, [7], 0, 0, 64, 0⟩ : DecFrame), by decide +kernel⟩⟩

/-- A value of clause 2 of EventQueuesComplete. -/
def eventQueuesW2 : State :=
  (({ evqAt 0xC000000000000000 1 with events := [moved] } : State).physWrite
    (bits ((evqAt 0xC000000000000000 1).evqReg 255 8) 61 56) .engine 0x97E0 (recordBytes moved true true)).2

/-- Values that meet the hypotheses of EventQueuesComplete, clause by clause. -/
theorem witness_event_queues_complete :
    (∃ (s : State) (g : GenEvent) (rest : List GenEvent), s.events = g :: rest) ∧
    (∃ (s w : State) (e a tail size : Nat) (g : GenEvent) (rest : List GenEvent), s.events = g :: rest ∧ s.ertMatch g = none
      ∧ e = s.fld g.page Reg.EV_ROUTE 7 0 ∧ s.evqAccepts e g.part = true ∧ tail = bits (s.evqReg e 0x10) 19 0 ∧ size =
      evqSize (s.evqReg e 8) ∧ (tail + 1) % size ≠ bits (s.evqReg e 0x18) 19 0 % size ∧ (s.evq.get {} e).raised = true ∧
      s.evqPlace e tail = some a ∧ ({ s with events := rest } : State).physWrite (bits (s.evqReg e 8) 61 56) .engine a
      (recordBytes g (s.evq.get {} e).phase (s.evq.get {} e).lost) = (St.ok, w)) ∧
    (∃ (s : State) (e tail size : Nat) (g : GenEvent) (rest : List GenEvent), s.events = g :: rest ∧ s.ertMatch g = none ∧ e
      = s.fld g.page Reg.EV_ROUTE 7 0 ∧ s.evqAccepts e g.part = true ∧ tail = bits (s.evqReg e 0x10) 19 0 ∧ size = evqSize
      (s.evqReg e 8) ∧ (tail + 1) % size = bits (s.evqReg e 0x18) 19 0 % size) ∧
    (∃ (s : State) (i : Ident) (e : Nat) (v : Word), e < 256 ∧ Admitted s i (evqPage e) (evqOff e 0x18) v) ∧
    (∃ (s : State) (i : Ident) (e : Nat) (v : Word), e < 256 ∧ Admitted s i (evqPage e) (evqOff e 8) v ∧ bit (s.evqReg e 8)
      63 = false ∧ bit v 63 = true) ∧
    (∃ (s : State) (i : Ident) (e : Nat) (v : Word), e < 256 ∧ Admitted s i (evqPage e) (evqOff e 8) v ∧ bit v 63 = false) ∧
    (∃ (s : State) (i : Ident) (e : Nat) (v : Word), e < 256 ∧ Admitted s i (evqPage e) (evqOff e 8) v ∧ bit (s.evqReg e 8)
      63 = true ∧ bit v 63 = true) ∧
    (∃ (s : State) (i : Ident) (e at_ n : Nat), e < 256 ∧ ((n = 8 ∧ at_ = 0) ∨ (n = 4 ∧ (at_ = 0 ∨ at_ = 4))) ∧ s.unreached
      (evqPage e) = false ∧ s.mayRead i (evqPage e) (evqOff e 0x20) = true ∧ s.unpowered.contains (evqPage e) = false) ∧
    (Page.mover 0 ≠ 0x102 ∧ Admitted work .mgmt (Page.mover 0) Reg.EV_FORCE 0x8000 ∧
      (15 < 16 ∧ (0x8000 : Word) = place 15 15 1)) :=
  ⟨⟨evqAt 0xC000000000000000 1, moved, ([moved] : List GenEvent), by decide +kernel⟩,
   ⟨evqAt 0xC000000000000000 1, eventQueuesW2, 255, 0x97E0, bits ((evqAt 0xC000000000000000 1).evqReg 255 0x10) 19 0,
     evqSize ((evqAt 0xC000000000000000 1).evqReg 255 8), moved, ([moved] : List GenEvent), by decide +kernel⟩,
   ⟨evqAt 0xC000000000000000 0, 255, bits ((evqAt 0xC000000000000000 0).evqReg 255 0x10) 19 0, evqSize
     ((evqAt 0xC000000000000000 0).evqReg 255 8), moved, ([moved] : List GenEvent), by decide +kernel⟩,
   ⟨evqAt 0xC000000000000000 1, (.mgmt : Ident), 255, 0xFFFFF#64, by decide +kernel⟩,
   ⟨evqAt 0x4000000000000000 1, (.mgmt : Ident), 255, 0xC000000000000000#64, by decide +kernel⟩,
   ⟨evqAt 0x4000000000000000 1, (.mgmt : Ident), 255, 0x4000000000000001#64, by decide +kernel⟩,
   ⟨evqAt 0xC000000000000000 1, (.mgmt : Ident), 255, 0xC000000000000001#64, by decide +kernel⟩,
   ⟨evqAt 0xC000000000000000 1, (.mgmt : Ident), 255, 4, 4, by decide +kernel⟩,
   by decide +kernel⟩

/-- A value of clause 3 of ServersComplete. -/
def serversU3 : State :=
  (({ work with mem := imageMem } : State).physWrite 0 .engine 0x2000 (List.replicate 64 0)).2

/-- A value of clause 4 of ServersComplete. -/
def serversS4 : State :=
  { work with agents := [(agentKey 255 0x80, .m)] }

/-- A value of clause 5 of ServersComplete. -/
def serversS5 : State :=
  { work with agents := [(agentKey 255 0x80, .s)] }

/-- A value of clause 6 of ServersComplete. -/
def serversS6 : State :=
  { work with agents := [(agentKey 255 0x80, .e)] }

/-- A value of clause 10 of ServersComplete. -/
def serversS10 : State :=
  withRegs [(Page.interrupt, 0x100, 0x4001)] { work with
    mem := [(0x4078, 9), (0x407C, 0)] }

/-- A value of clause 11 of ServersComplete. -/
def serversS11 : State :=
  withRegs [(Page.interrupt, 0x100, 0x4001)] { work with
    mem := [(0x4078, 9), (0x407C, 1)] }

/-- A value of clause 12 of ServersComplete. -/
def serversS12 : State :=
  withRegs [(Page.interrupt, 0x100, 0x4001)] { work with
    mem := [(0x4078, 9), (0x407C, 3)] }

/-- A value of clause 13 of ServersComplete. -/
def serversA13 : SrvAccess :=
  { core := 255, op := 0, va := 0x40, pa := 0x4040, n := 8, data := [1, 2, 3, 4, 5, 6, 7, 8], aop := 0, b := 0, c := 0,
      pageFault := false, scFail := false }

/-- A value of clause 14 of ServersComplete. -/
def serversA14 : SrvAccess :=
  { core := 255, op := 1, va := 0x40, pa := 0x4040, n := 8, data := [1, 2, 3, 4, 5, 6, 7, 8], aop := 0, b := 0, c := 0,
      pageFault := false, scFail := false }

/-- A value of clause 14 of ServersComplete. -/
def serversV14 : State :=
  (((work.srvSeen { core := 255, op := 1, va := 0x40, pa := 0x4040, n := 8, data := [1, 2, 3, 4, 5, 6, 7, 8], aop := 0, b :=
                      0, c := 0, pageFault := false, scFail := false }).answer St.ok []).physWrite 0 .engine 0x4040
    [1, 2, 3, 4, 5, 6, 7, 8]).2

/-- A value of clause 15 of ServersComplete. -/
def serversA15 : SrvAccess :=
  { core := 255, op := 5, va := 0x40, pa := 0x4040, n := 8, data := [1, 2, 3, 4, 5, 6, 7, 8], aop := 0, b := 0, c := 0,
      pageFault := false, scFail := false }

/-- A value of clause 16 of ServersComplete. -/
def serversA16 : SrvAccess :=
  { core := 255, op := 2, va := 0x40, pa := 0x4040, n := 8, data := [1, 2, 3, 4, 5, 6, 7, 8], aop := 0, b := 0, c := 0,
      pageFault := true, scFail := false }

/-- A value of clause 17 of ServersComplete. -/
def serversS17 : State :=
  withRegs [(Page.clock, Reg.PANEL_TIME, 1000)] { work with
    srv := [(255, { retry := some ({ core := 255, op := 0, va := 0x40, pa := 0x4040, n := 8, data :=
                                       [1, 2, 3, 4, 5, 6, 7, 8], aop := 0, b := 0, c := 0, pageFault := false, scFail :=
                                       false }, 1000) })] }

/-- Values that meet the hypotheses of ServersComplete, clause by clause. -/
theorem witness_servers_complete :
    (∃ (c op status code : Nat), c < 256 ∧ ((status ∈ [St.dataUncorrectable, St.dataLost, St.poisoned] ∧ code = 19) ∨
      (status ∈ [St.permissionFault, St.timeout, St.hostLost] ∧ code = accessFault op))) ∧
    (∃ (c status : Nat), c < 256 ∧ (srvCode 1 status).isSome = true) ∧
    (∃ (s u : State) (c pa home off : Nat), c < 256 ∧ regionOf pa = .gddr home off ∧ s.physWrite 0 .engine (pa / 64 * 64)
      (List.replicate 64 0) = (St.ok, u)) ∧
    (∃ (s : State) (c op pa home off : Nat), c < 256 ∧ op < 3 ∧ regionOf pa = .gddr home off ∧ s.agentState c (pa / 128) =
      .m) ∧
    (∃ (s : State) (c op pa home off : Nat), c < 256 ∧ op < 3 ∧ regionOf pa = .gddr home off ∧
      (s.agentState c (pa / 128) = .e ∨ s.agentState c (pa / 128) = .s) ∧ op = 0) ∧
    (∃ (s : State) (c op pa home off : Nat), c < 256 ∧ op < 3 ∧ regionOf pa = .gddr home off ∧
      (s.agentState c (pa / 128) = .e ∨ s.agentState c (pa / 128) = .s) ∧ op ≠ 0) ∧
    (∃ (s : State) (c op pa home off : Nat), c < 256 ∧ op < 3 ∧ regionOf pa = .gddr home off ∧ s.agentState c (pa / 128) =
      .i) ∧
    (∃ (s : State) (c : Nat), c < 256 ∧ (s.srvCore c).retry = none ∧ (∀ m ∈ s.dirQueue, m.src ≠ c) ∧
      (∀ x ∈ s.txns, x.2.req.src ≠ c)) ∧
    (∃ (who off data f : Nat), who < 3 ∧ off % 4 = 0 ∧ imsicFile off = some f ∧ off % 0x1000 = 0 ∧ 1 ≤ data ∧ data ≤ 2047) ∧
    (∃ (s : State) (part vec a : Nat), part < 64 ∧ s.msiEntryAddr part vec = some a ∧ s.mem.readNat (a + 12) 4 % 2 = 0) ∧
    (∃ (s : State) (part vec a : Nat), part < 64 ∧ s.msiEntryAddr part vec = some a ∧ s.mem.readNat (a + 12) 4 % 4 = 1) ∧
    (∃ (s : State) (part vec a : Nat), part < 64 ∧ s.msiEntryAddr part vec = some a ∧ s.mem.readNat (a + 12) 4 % 4 = 3) ∧
    (∃ (s : State) (a : SrvAccess) (home off : Nat) (b : List Byte), a.core < 256 ∧ (a.op = 0 ∨ a.op = 2) ∧ 1 ≤ a.n ∧
      a.pageFault = false ∧ regionOf a.pa = .gddr home off ∧ off < 0x600000000 ∧ s.physBytes 0 a.pa a.n = (St.ok, b)) ∧
    (∃ (s v : State) (a : SrvAccess) (home off : Nat), a.core < 256 ∧ a.op = 1 ∧ 1 ≤ a.n ∧ a.pa % 128 + a.n ≤ 128 ∧
      a.pageFault = false ∧ regionOf a.pa = .gddr home off ∧ off < 0x600000000 ∧ ((s.srvSeen a).answer St.ok []).physWrite 0
      .engine a.pa (a.data.take a.n) = (St.ok, v)) ∧
    (∃ (a : SrvAccess), a.core < 256 ∧ a.op ≤ 5 ∧ 1 ≤ a.n ∧ a.pageFault = false) ∧
    (∃ (a : SrvAccess), a.core < 256 ∧ a.op ≤ 5 ∧ 1 ≤ a.n ∧ a.pageFault = true) ∧
    (∃ (s : State) (c due : Nat) (a : SrvAccess), (s.srvCore c).retry = some (a, due) ∧ due ≤ s.panelTime.toNat) :=
  ⟨⟨255, 4, St.permissionFault, 5, by decide +kernel⟩,
   ⟨255, St.poisoned, by decide +kernel⟩,
   ⟨({ work with mem := imageMem } : State), serversU3, 255, 0x2001, 0, 0x2001, by decide +kernel⟩,
   ⟨serversS4, 255, 2, 0x4040, 0, 0x4040, by decide +kernel⟩,
   ⟨serversS5, 255, 0, 0x4040, 0, 0x4040, by decide +kernel⟩,
   ⟨serversS6, 255, 2, 0x4040, 0, 0x4040, by decide +kernel⟩,
   ⟨work, 255, 1, 0x4040, 0, 0x4040, by decide +kernel⟩,
   ⟨work, 255, by decide +kernel⟩,
   ⟨2, 0x1000F000, 2047, 0x1000F, by decide +kernel⟩,
   ⟨serversS10, 0, 7, 0x4070, by decide +kernel⟩,
   ⟨serversS11, 0, 7, 0x4070, by decide +kernel⟩,
   ⟨serversS12, 0, 7, 0x4070, by decide +kernel⟩,
   ⟨({ work with mem := [(0x4047, 9)] } : State), serversA13, 0, 0x4040, ([0, 0, 0, 0, 0, 0, 0, 9] : List Byte),
     by decide +kernel⟩,
   ⟨work, serversV14, serversA14, 0, 0x4040, by decide +kernel⟩,
   ⟨serversA15, by decide +kernel⟩,
   ⟨serversA16, by decide +kernel⟩,
   ⟨serversS17, 255, 1000, serversA13, by decide +kernel⟩⟩

/-- A value of clause 1 of PowerCompletes. -/
def powerS1 : State :=
  { (withRegs [(Page.clock, Reg.PANEL_TIME, 1000), (Page.computeDie 71 3, diePwrBound, 0x0352000C),
      (Page.computeDie 71 3, diePwrStat, 0)] work) with
    divAt := [(dieKey 71 3, 0)] }

/-- A value of clause 2 of PowerCompletes. -/
def powerS2 : State :=
  { (withRegs [(Page.clock, Reg.PANEL_TIME, 1000), (Page.computeDie 71 3, diePwrBound, 0x03520000),
      (Page.computeDie 71 3, diePwrStat, 0x2EE00000003)] work) with
    divAt := [(dieKey 71 3, 0)] }

/-- A value of clause 5 of PowerCompletes. -/
def powerS5 : State :=
  { work with cores := [(0, { lastPart := some 3 })] }

/-- A value of clause 6 of PowerCompletes. -/
def powerS6 : State :=
  { (withRegs [(Page.clock, Reg.PANEL_TIME, 1000000)] work) with
    causes := [(causeKey 7 1, { warn := true, above := true, demand := 2 })] }

/-- A value of clause 7 of PowerCompletes. -/
def powerS7 : State :=
  { (withRegs [(Page.clock, Reg.PANEL_TIME, 10000000)] work) with
    causes := [(causeKey 10 0, { demand := 1 })] }

/-- A value of clause 8 of PowerCompletes. -/
def powerU8 : State :=
  ({ work with sensors := work.sensors.set (causeKey 0 287) 90 } : State).showReading 0 287 90

/-- A value of clause 9 of PowerCompletes. -/
def powerU9 : State :=
  ({ work with sensors := work.sensors.set (causeKey 9 0) 10 } : State).showReading 9 0 10

/-- A value of clause 11 of PowerCompletes. -/
def powerS11 : State :=
  { (withRegs [(Page.clock, Reg.PANEL_TIME, 10000000)] work) with
    causes := [(causeKey 9 0, { warn := true, demand := 2, coolSince := some 0 })] }

/-- A value of clause 13 of PowerCompletes. -/
def powerS13 : State :=
  { work with boot := { lost := [0] } }

/-- A value of clause 14 of PowerCompletes. -/
def powerS14 : State :=
  { work with boot := { lost := [1] }, causes := [(causeKey 10 0, { warn := true })] }

/-- A value of clause 18 of PowerCompletes. -/
def powerS18 : State :=
  { (withRegs [(Page.clock, Reg.PANEL_TIME, 10000), (Page.fabricPort 31, 0x108, 4)] work) with
    time := { pairs := [(31, (5, 2))] } }

/-- A value of clause 19 of PowerCompletes. -/
def powerS19 : State :=
  { (withRegs [(Page.clock, Reg.PANEL_TIME, 10000), (Page.fabricPort 31, 0x108, 4)] work) with
    time := { good := 1 } }

/-- A value of clause 20 of PowerCompletes. -/
def powerS20 : State :=
  { (withRegs [(Page.clock, Reg.PANEL_TIME, 1000000000)] work) with
    time := { good := 5 } }

/-- Values that meet the hypotheses of PowerCompletes, clause by clause. -/
theorem witness_power_completes :
    (∃ (s : State) (st d : Nat), st < 72 ∧ d < 4 ∧
      (∀ t0, s.divAt.find (dieKey st d) = some t0 → t0 + 1000 ≤ s.panelTime.toNat) ∧ s.fld (Page.computeDie st d) diePwrStat
      1 0 < s.divTarget st d) ∧
    (∃ (s : State) (st d : Nat), st < 72 ∧ d < 4 ∧
      (∀ t0, s.divAt.find (dieKey st d) = some t0 → t0 + 1000 ≤ s.panelTime.toNat) ∧ s.divTarget st d < s.fld
      (Page.computeDie st d) diePwrStat 1 0 ∧ minVolt (s.divTarget st d) ≤ s.fld (Page.computeDie st d) diePwrStat 41 32) ∧
    (∃ (s : State) (st d : Nat), st < 72 ∧ d < 4 ∧ s.fld (Page.computeDie st d) diePwrStat 1 0 = s.divTarget st d) ∧
    (∃ (s : State) (st d : Nat), st < 72 ∧ d < 4 ∧ s.divTarget st d < s.fld (Page.computeDie st d) diePwrStat 1 0 ∧ s.fld
      (Page.computeDie st d) diePwrStat 41 32 < minVolt (s.divTarget st d)) ∧
    (∃ (s : State) (c : Nat), (s.core c).status = .idle ∧ (s.core c).task = none ∧ s.fld (corePage c) diePwrBound 15 8 ≠ 0) ∧
    (∃ (s : State) (c i : Nat), (s.cause c i).warn = true ∧ (s.cause c i).moved + 1000000 ≤ s.panelTime.toNat ∧
      (s.cause c i).demand < 3 ∧ ((c ≠ 10 ∧ (s.cause c i).above = true) ∨ (c = 10 ∧ 2800 < s.lastReading 9 0))) ∧
    (∃ (s : State) (c i : Nat), (s.cause c i).warn = false ∧ (s.cause c i).moved + 10000000 ≤ s.panelTime.toNat ∧ 0 <
      (s.cause c i).demand) ∧
    (∃ (s u : State) (c i v peak : Nat), i < sensorCount c ∧ s.boot.running = false ∧ u =
      ({ s with sensors := s.sensors.set (causeKey c i) v } : State).showReading c i v ∧ s.overTrip c v peak = false) ∧
    (∃ (s u : State) (c i v peak : Nat), i < sensorCount c ∧ s.boot.running = false ∧ u =
      ({ s with sensors := s.sensors.set (causeKey c i) v } : State).showReading c i v ∧ s.overTrip c v peak = true ∧
      (c = 9 ∨ s.sensors.find (causeKey c i) = none)) ∧
    (∃ (s : State) (c i v peak : Nat), i < sensorCount c ∧ s.boot.running = false ∧ s.overTrip c v peak = false ∧ s.overWarn
      c v = true ∧ (s.cause c i).warn = false) ∧
    (∃ (s : State) (c i t0 : Nat), (s.cause c i).coolSince = some t0 ∧ (s.cause c i).warn = true ∧ c ≤ 9 ∧ t0 + 10000000 ≤
      s.panelTime.toNat) ∧
    (∃ (s : State) (f volt : Nat) (c : Instr), f < 2 ∧ (c = .feedLoss f volt ∨ c = .feedOverVoltage f volt) ∧ f ∉
      s.boot.lost ∧ 1 - f ∉ s.boot.lost) ∧
    (∃ (s : State) (f volt : Nat) (c : Instr), f < 2 ∧ (c = .feedLoss f volt ∨ c = .feedOverVoltage f volt) ∧ f ∉
      s.boot.lost ∧ 1 - f ∈ s.boot.lost) ∧
    (∃ (s : State) (f : Nat), f < 2 ∧ f ∈ s.boot.lost ∧ 1 - f ∉ s.boot.lost) ∧
    (∃ (s : State) (i : Ident) (st d : Nat) (v : Word), st < 72 ∧ d < 4 ∧ Admitted s i (Page.computeDie st d) diePwrBound v
      ∧ bits v 1 0 ≤ bits v 3 2 ∧ 600 ≤ bits v 25 16 ∧ bits v 25 16 ≤ 850) ∧
    (∃ (s : State) (i : Ident) (st d : Nat) (v : Word), st < 72 ∧ d < 4 ∧ Admitted s i (Page.computeDie st d) diePwrBound v
      ∧ (bits v 3 2 < bits v 1 0 ∨ bits v 25 16 < 600 ∨ 850 < bits v 25 16)) ∧
    (∃ (s : State) (n adj : Nat), 1 ≤ n ∧ (adj = 1 ∨ adj = 2) ∧ s.time.corrected + 10000 ≤ s.panelTime.toNat ∧
      (∃ e ∈ s.time.pairs, s.portUp e.1 = true)) ∧
    (∃ (s u : State) (f source hops t1 t2 t3 t4 h : Nat) (off : Int), f < 32 ∧ s.portUp f = true ∧ u =
      { s with time := { s.time with pairs := s.time.pairs.set f (source % 4096, hops) } } ∧ u.timeSource = some
      (f, source % 4096, h) ∧ off = (((t2 : Int) - (t1 : Int)) - ((t4 : Int) - (t3 : Int))) / 2) ∧
    (∃ (s : State), s.time.last + 1000000000 ≤ s.panelTime.toNat) :=
  ⟨⟨powerS1, 71, 3, by decide +kernel, by decide +kernel, fun t0 h => Option.some.inj h ▸ (by decide +kernel),
     by decide +kernel⟩,
   ⟨powerS2, 71, 3, by decide +kernel, by decide +kernel, fun t0 h => Option.some.inj h ▸ (by decide +kernel),
     by decide +kernel⟩,
   ⟨(withRegs [(Page.clock, Reg.PANEL_TIME, 0), (Page.computeDie 71 3, diePwrBound, 0x03520000),
     (Page.computeDie 71 3, diePwrStat, 0)] work), 71, 3, by decide +kernel⟩,
   ⟨(withRegs [(Page.clock, Reg.PANEL_TIME, 0), (Page.computeDie 71 3, diePwrBound, 0x03520000),
     (Page.computeDie 71 3, diePwrStat, 1)] work), 71, 3, by decide +kernel⟩,
   ⟨powerS5, 0, by decide +kernel⟩,
   ⟨powerS6, 7, 1, by decide +kernel⟩,
   ⟨powerS7, 10, 0, by decide +kernel⟩,
   ⟨work, powerU8, 0, 287, 90, 0, by decide +kernel⟩,
   ⟨work, powerU9, 9, 0, 10, 4801, by decide +kernel⟩,
   ⟨work, 9, 0, 4501, 0, by decide +kernel⟩,
   ⟨powerS11, 9, 0, 0, by decide +kernel⟩,
   ⟨work, 1, 0, (.feedLoss 1 0 : Instr), by decide +kernel, .inl rfl, by decide +kernel⟩,
   ⟨powerS13, 1, 900, (.feedOverVoltage 1 900 : Instr), by decide +kernel, .inr rfl, by decide +kernel⟩,
   ⟨powerS14, 1, by decide +kernel⟩,
   ⟨work, (.mgmt : Ident), 71, 3, 0x000000000352010C#64, by decide +kernel⟩,
   ⟨work, (.mgmt : Ident), 71, 3, 0x0000000003520001#64, by decide +kernel⟩,
   ⟨powerS18, 1, 2, by decide +kernel⟩,
   ⟨powerS19, { powerS19 with time := { powerS19.time with
                                pairs := powerS19.time.pairs.set 31 (0xFFF % 4096, 2) } }, 31, 0xFFF, 2, 100, 90, 95, 125,
     2, -20, by decide +kernel, by decide +kernel, rfl, by decide +kernel⟩,
   ⟨powerS20, by decide +kernel⟩⟩

/-- A value of clause 11 of PagesComplete. -/
def pagesS11 : State :=
  { (withRegs [(Page.mover 0, Reg.PAGE_STATE, 0x700000004), (Page.mover 0, Reg.PAGE_CTL, 3),
      (Page.clock, Reg.PANEL_TIME, 0xFFFFFFFFFF)] work) with
    quiesceAt := [(Page.mover 0, 0)] }

/-- A value of clause 12 of PagesComplete. -/
def pagesS12 : State :=
  { (withRegs [(Page.hubCtrl 71, Reg.PAGE_STATE, 0x700000009), (Page.hubCtrl 71, Reg.PAGE_CTL, 1)] work) with
    written := [regKey (Page.hubCtrl 71) 0x100] }

/-- A value of clause 19 of PagesComplete. -/
def pagesS19 : State :=
  { (withRegs [(Page.mover 0, Reg.PAGE_STATE, 0x700000003), (Page.mover 0, Reg.PAGE_CTL, 1),
      (Page.mover 0, Reg.PAGE_LOCK, 0x8000000000000007), (Page.clock, Reg.PANEL_TIME, 1000001)] work) with
    lockAt := [(Page.mover 0, 1)] }

/-- Values that meet the hypotheses of PagesComplete, clause by clause. -/
theorem witness_pages_complete :
    (∃ (s : State) (i : Ident) (page change e q : Nat) (v : Word) (c : Instr), page ≠ 0x102 ∧ e = s.fld page Reg.PAGE_CTL 0
      0 ∧ q = s.fld page Reg.PAGE_CTL 1 1 ∧ (c, v, change) ∈
      [(Instr.quiesceReq i page (s.epoch page), ctlWord (s.epoch page) e 1 0, if q = 1 then 0 else 2),
      (.quiesceClear i page (s.epoch page), ctlWord (s.epoch page) e 0 0, if q = 0 then 0 else 2),
      (.resetReq i page (s.epoch page), ctlWord (s.epoch page) e q 4, 3),
      (.updateReq i page (s.epoch page), ctlWord (s.epoch page) e q 8, 4),
      (.enableClear i page (s.epoch page), ctlWord (s.epoch page) 0 q 0, if e = 0 then 0 else 1),
      (.enableSet i page (s.epoch page), ctlWord (s.epoch page) 1 q 0, if e = 1 then 0 else 1)] ∧ Admitted s i page
      Reg.PAGE_CTL v ∧ s.ctlAllowed page change = true) ∧
    (∃ (s : State) (i : Ident) (page e q : Nat) (k : PageKind), e = s.fld page Reg.PAGE_CTL 0 0 ∧ q = s.fld page
      Reg.PAGE_CTL 1 1 ∧ pageKind page = some k ∧ k ∉ [.iommuFile, .decanter, .blend, .cellarBay, .hubRouter] ∧ Admitted s i
      page Reg.PAGE_CTL (ctlWord (s.epoch page) e 1 0) ∧ q = 0 ∧ s.pageState page = PS.ready ∧ bit (s.reg page Reg.PAGE_CAP)
      1 = true) ∧
    (∃ (s : State) (i : Ident) (page e q : Nat) (k : PageKind), e = s.fld page Reg.PAGE_CTL 0 0 ∧ q = s.fld page
      Reg.PAGE_CTL 1 1 ∧ pageKind page = some k ∧ k ∉ [.iommuFile, .decanter, .blend, .cellarBay, .hubRouter] ∧ Admitted s i
      page Reg.PAGE_CTL (ctlWord (s.epoch page) e 0 0) ∧ q = 1 ∧ s.pageState page = PS.quiesced) ∧
    (∃ (s : State) (i : Ident) (page e q : Nat) (k : PageKind), e = s.fld page Reg.PAGE_CTL 0 0 ∧ q = s.fld page
      Reg.PAGE_CTL 1 1 ∧ pageKind page = some k ∧ k ∉ [.iommuFile, .decanter, .blend, .cellarBay, .hubRouter] ∧ Admitted s i
      page Reg.PAGE_CTL (ctlWord (s.epoch page) 0 q 0) ∧ e = 1 ∧ s.pageState page = PS.quiesced) ∧
    (∃ (s : State) (i : Ident) (page e q : Nat) (k : PageKind), e = s.fld page Reg.PAGE_CTL 0 0 ∧ q = s.fld page
      Reg.PAGE_CTL 1 1 ∧ pageKind page = some k ∧ k ∉ [.iommuFile, .decanter, .blend, .cellarBay, .hubRouter] ∧ Admitted s i
      page Reg.PAGE_CTL (ctlWord (s.epoch page) 1 q 0) ∧ e = 0 ∧ s.pageState page = PS.off) ∧
    (∃ (s : State) (i : Ident) (page e q : Nat) (k : PageKind), e = s.fld page Reg.PAGE_CTL 0 0 ∧ q = s.fld page
      Reg.PAGE_CTL 1 1 ∧ pageKind page = some k ∧ k ∉ [.iommuFile, .decanter, .blend, .cellarBay, .hubRouter] ∧ Admitted s i
      page Reg.PAGE_CTL (ctlWord (s.epoch page) e q 4) ∧ (s.pageState page = PS.quiesced ∨ s.pageState page = PS.faulted) ∧
      bit (s.reg page Reg.PAGE_CAP) 2 = true) ∧
    (∃ (s : State) (i : Ident) (page e q : Nat) (k : PageKind), e = s.fld page Reg.PAGE_CTL 0 0 ∧ q = s.fld page
      Reg.PAGE_CTL 1 1 ∧ pageKind page = some k ∧ k ∉ [.iommuFile, .decanter, .blend, .cellarBay, .hubRouter] ∧ Admitted s i
      page Reg.PAGE_CTL (ctlWord (s.epoch page) e q 8) ∧ s.pageState page = PS.quiesced ∧ bit (s.reg page Reg.PAGE_CAP) 3 =
      true) ∧
    (∃ (s : State) (i : Ident) (page e q : Nat) (k : PageKind), e = s.fld page Reg.PAGE_CTL 0 0 ∧ q = s.fld page
      Reg.PAGE_CTL 1 1 ∧ pageKind page = some k ∧ k ∉ [.iommuFile, .decanter, .blend, .cellarBay, .hubRouter] ∧ Admitted s i
      page Reg.PAGE_CTL (ctlWord (s.epoch page) e q 16)) ∧
    (∃ (s : State) (page : Nat), s.pageState page = PS.quiescing ∧ s.workLeft page = 0) ∧
    (∃ (s : State) (page : Nat), s.pageState page = PS.quiescing ∧ s.workLeft page = 0 ∧ pageKind page ≠ some .cellarBay) ∧
    (∃ (s : State) (page t0 : Nat), s.quiesceAt.find page = some t0 ∧ s.pageState page = PS.quiescing ∧ t0 + s.quiesceLimit
      ≤ s.panelTime.toNat ∧ pageKind page ≠ some .cellarBay) ∧
    (∃ (s : State) (stack : Nat), stack < 72 ∧ s.pageState (Page.hubCtrl stack) = PS.updating ∧ s.isWritten
      (Page.hubCtrl stack) 0x100 = true) ∧
    (∃ (s : State) (stack status : Nat), stack < 72 ∧ s.pageState (Page.hubCtrl stack) = PS.updating ∧
      (status = St.inputCorrupt ∨ status = St.versionMismatch)) ∧
    (∃ (s : State) (page : Nat), s.pageState page = PS.init ∧ s.tooHot page = false ∧ s.unreached page = false ∧ pageKind
      page ≠ some .cellarBay) ∧
    (∃ (s : State) (page width b : Nat), s.pageState page = PS.init ∧ s.tooHot page = false ∧ s.unreached page = false ∧ b <
      16 ∧ page = Page.bay b ∧ s.bayStat b 1 1 = 1 ∧ s.bayStat b 3 3 = 0 ∧ width ≠ 0) ∧
    (∃ (s : State) (i : Ident) (page : Nat), page ≠ 0x102 ∧ identIndex i < 65536 ∧ Admitted s i page Reg.PAGE_LOCK 1 ∧ bit
      (s.reg page Reg.PAGE_LOCK) 63 = false) ∧
    (∃ (s : State) (i : Ident) (page : Nat), page ≠ 0x102 ∧ identIndex i < 65536 ∧ Admitted s i page Reg.PAGE_LOCK 1 ∧ bit
      (s.reg page Reg.PAGE_LOCK) 63 = true) ∧
    (∃ (s : State) (i : Ident) (page : Nat), page ≠ 0x102 ∧ identIndex i < 65536 ∧ Admitted s i page Reg.PAGE_LOCK 2 ∧ bit
      (s.reg page Reg.PAGE_LOCK) 63 = true ∧ (s.holdsLock i page = true ∨ i = .mgmt)) ∧
    (∃ (s : State) (i : Ident) (page : Nat), page ≠ 0x102 ∧ identIndex i < 65536 ∧ bit (s.reg page Reg.PAGE_LOCK) 63 = true
      ∧ s.lockAt.get 0 page + 1000000 ≤ s.panelTime.toNat) ∧
    (Admitted work .mgmt (Page.mover 0) Reg.EV_ENABLE 0xFFFF ∧ pageKind (Page.mover 0) = some .mover ∧
      (findReg .mover Reg.EV_ENABLE).isSome = true ∧ Reg.EV_ENABLE < 0x100 ∧ Reg.EV_ENABLE ∉
      [Reg.PAGE_CTL, Reg.EV_FORCE, Reg.PAGE_LOCK]) :=
  ⟨⟨(withRegs [(Page.mover 0, Reg.PAGE_STATE, 0x700000003), (Page.mover 0, Reg.PAGE_CTL, 1)] work), (.mgmt : Ident),
     Page.mover 0, 2, 1, 0, ctlWord 7 1 1 0, (.quiesceReq .mgmt (Page.mover 0) 7 : Instr), by decide +kernel⟩,
   ⟨(withRegs [(Page.mover 0, Reg.PAGE_STATE, 0x700000003), (Page.mover 0, Reg.PAGE_CTL, 1)] work), (.mgmt : Ident),
     Page.mover 0, 1, 0, (.mover : PageKind), by decide +kernel⟩,
   ⟨(withRegs [(Page.mover 0, Reg.PAGE_STATE, 0x700000005), (Page.mover 0, Reg.PAGE_CTL, 3)] work), (.mgmt : Ident),
     Page.mover 0, 1, 1, (.mover : PageKind), by decide +kernel⟩,
   ⟨(withRegs [(Page.mover 0, Reg.PAGE_STATE, 0x700000005), (Page.mover 0, Reg.PAGE_CTL, 3)] work), (.mgmt : Ident),
     Page.mover 0, 1, 1, (.mover : PageKind), by decide +kernel⟩,
   ⟨(withRegs [(Page.mover 0, Reg.PAGE_STATE, 0x700000000), (Page.mover 0, Reg.PAGE_CTL, 0)] work), (.mgmt : Ident),
     Page.mover 0, 0, 0, (.mover : PageKind), by decide +kernel⟩,
   ⟨(withRegs [(Page.mover 0, Reg.PAGE_STATE, 0x700000005), (Page.mover 0, Reg.PAGE_CTL, 3)] work), (.mgmt : Ident),
     Page.mover 0, 1, 1, (.mover : PageKind), by decide +kernel⟩,
   ⟨(withRegs [(Page.hubCtrl 71, Reg.PAGE_STATE, 0x700000005), (Page.hubCtrl 71, Reg.PAGE_CTL, 3)] work), (.mgmt : Ident),
     Page.hubCtrl 71, 1, 1, (.hubCtrlCores : PageKind), by decide +kernel⟩,
   ⟨(withRegs [(Page.mover 0, Reg.PAGE_STATE, 0x700000003), (Page.mover 0, Reg.PAGE_CTL, 1), (Page.mover 0, Reg.CNT, 9)]
     work), (.mgmt : Ident), Page.mover 0, 1, 0, (.mover : PageKind), by decide +kernel⟩,
   ⟨(withRegs [(Page.mover 0, Reg.PAGE_STATE, 0x700000004), (Page.mover 0, Reg.PAGE_CTL, 3)] work), Page.mover 0,
     by decide +kernel⟩,
   ⟨(withRegs [(Page.mover 0, Reg.PAGE_STATE, 0x700000004), (Page.mover 0, Reg.PAGE_CTL, 3)] work), Page.mover 0,
     by decide +kernel⟩,
   ⟨pagesS11, Page.mover 0, 0, by decide +kernel⟩,
   ⟨pagesS12, 71, by decide +kernel⟩,
   ⟨(withRegs [(Page.hubCtrl 71, Reg.PAGE_STATE, 0x700000009), (Page.hubCtrl 71, Reg.PAGE_CTL, 1)] work), 71,
     St.versionMismatch, by decide +kernel⟩,
   ⟨(withRegs [(Page.mover 0, Reg.PAGE_STATE, 0x700000002), (Page.mover 0, Reg.PAGE_CTL, 1)] work), Page.mover 0,
     by decide +kernel⟩,
   ⟨withRegs [(Page.bay 15, Reg.PAGE_STATE, 2), (Page.bay 15, bayStatOff, 2)] work, Page.bay 15, 16, 15, by decide +kernel⟩,
   ⟨(withRegs [(Page.mover 0, Reg.PAGE_STATE, 0x700000003), (Page.mover 0, Reg.PAGE_CTL, 1)] work), (.mgmt : Ident),
     Page.mover 0, by decide +kernel⟩,
   ⟨(withRegs [(Page.mover 0, Reg.PAGE_STATE, 0x700000003), (Page.mover 0, Reg.PAGE_CTL, 1),
     (Page.mover 0, Reg.PAGE_LOCK, 0x8000000000000000)] work), (.mgmt : Ident), Page.mover 0, by decide +kernel⟩,
   ⟨(withRegs [(Page.mover 0, Reg.PAGE_STATE, 0x700000003), (Page.mover 0, Reg.PAGE_CTL, 1),
     (Page.mover 0, Reg.PAGE_LOCK, 0x8000000000000007)] work), (.mgmt : Ident), Page.mover 0, by decide +kernel⟩,
   ⟨pagesS19, (.mgmt : Ident), Page.mover 0, by decide +kernel⟩,
   by decide +kernel⟩

/-- A value of clause 13 of SparingCompletes. -/
def sparingS13 : State :=
  { work with cores := [(coreKey 71 3 (29 * 42 + 41), { task := some 9 })] }

/-- A value of clause 15 of SparingCompletes. -/
def sparingS15 : State :=
  { withRegs [(Page.coreWindow 71, 0x100, 0xDD29), (Page.coreWindow 71, 0x108, 262136)] work with
    cores := [(coreKey 71 3 (29 * 42 + 41), {})] }

/-- A value of clause 17 of SparingCompletes. -/
def sparingS17 : State :=
  { withRegs [(Page.coreWindow 71, 0x100, 0xDD29), (Page.coreWindow 71, 0x108, 0)] work with
    cores := [(coreKey 71 3 (29 * 42 + 41), { status := .faulted })] }

/-- Values that meet the hypotheses of SparingCompletes, clause by clause. -/
theorem witness_sparing_completes :
    (∃ (s a : State) (i : Ident) (l p epoch : Nat) (auto : Bool), l < 64 ∧ p < 72 ∧ Admitted s i Page.device Reg.SPARE_CTL
      (spareWord 0 l p epoch auto) ∧ a = (s.admittedState i Page.device Reg.SPARE_CTL).storeWrite Page.device Reg.SPARE_CTL
      (spareWord 0 l p epoch auto) ∧ s.bindEpoch l = epoch ∧ s.stackState p = PS.spared ∧ s.bindBusy l p = false) ∧
    (∃ (s a : State) (i : Ident) (l p epoch : Nat) (auto : Bool), l < 64 ∧ p < 72 ∧ Admitted s i Page.device Reg.SPARE_CTL
      (spareWord 0 l p epoch auto) ∧ a = (s.admittedState i Page.device Reg.SPARE_CTL).storeWrite Page.device Reg.SPARE_CTL
      (spareWord 0 l p epoch auto) ∧ s.bindEpoch l = epoch ∧ s.stackState p = PS.spared ∧ s.bindBusy l p = false ∧
      s.boundStack l = none) ∧
    (∃ (s a : State) (i : Ident) (p epoch : Nat) (auto : Bool), p < 72 ∧ Admitted s i Page.device Reg.SPARE_CTL
      (spareWord 1 0 p epoch auto) ∧ a = (s.admittedState i Page.device Reg.SPARE_CTL).storeWrite Page.device Reg.SPARE_CTL
      (spareWord 1 0 p epoch auto) ∧ s.epoch (Page.router p) = epoch ∧ s.stackState p = PS.memoryOnly) ∧
    (∃ (s : State) (st d : Nat), st < 72 ∧ d < 4 ∧ s.pageState (Page.computeDie st d) ≠ PS.faulted) ∧
    (∃ (s : State) (st d : Nat), st < 72 ∧ d < 4 ∧ s.pageState (Page.computeDie st d) ≠ PS.faulted ∧ s.tasks = [] ∧
      s.autoSpare = false) ∧
    (∃ (s : State) (p : Nat), p < 72 ∧ s.stackState p ≠ PS.faulted ∧ s.stackState p ≠ PS.off) ∧
    (∃ (s u : State) (p t0 : Nat), s.lostAt.find p = some t0 ∧ t0 + s.fld Page.device Reg.QUIESCE_CFG 31 16 * 100000 ≤
      s.panelTime.toNat ∧ u = ((s.lostReqs.filter fun e => decide (e.1 = p)).map Prod.snd).foldl
      (fun u m => u.refuseRequest m St.dataLost) { s with
      lostReqs := s.lostReqs.filter fun e => !decide (e.1 = p) } ∧ u.txns = [] ∧ u.nearReqs = [] ∧
      (∀ e ∈ u.cmds, e.2.held ≠ 4)) ∧
    (∃ (s : State), bits (s.reg Page.device Reg.CAP_DECLARED) 42 0 = s.capacityNow) ∧
    (∃ (s : State), bits (s.reg Page.device Reg.CAP_DECLARED) 42 0 ≠ s.capacityNow) ∧
    (∃ (s : State), s.unavailable = true) ∧
    (∃ (s : State), s.unavailable = false) ∧
    (∃ (s : State) (i : Ident) (st d r n0 n1 : Nat) (v : Word), st < 72 ∧ d < 4 ∧ r < 30 ∧ n0 = bits v 5 0 ∧ n1 = bits v 13
      8 ∧ n0 < n1 ∧ n1 ≤ 41 ∧ Admitted s i (Page.computeDie st d) (Reg.ROW_SKIP + 8 * r) v ∧
      (∀ p, p < 42 → (s.core (coreKey st d (r * 42 + p))).task = none)) ∧
    (∃ (s : State) (i : Ident) (st d r n0 n1 : Nat) (v : Word) (p : Nat), st < 72 ∧ d < 4 ∧ r < 30 ∧ n0 = bits v 5 0 ∧ n1 =
      bits v 13 8 ∧ n0 < n1 ∧ n1 ≤ 41 ∧ Admitted s i (Page.computeDie st d) (Reg.ROW_SKIP + 8 * r) v ∧ p < 42 ∧
      (s.core (coreKey st d (r * 42 + p))).task ≠ none) ∧
    (∃ (s : State) (i : Ident) (st o : Nat) (v : Word), st < 72 ∧ o = s.fld (Page.coreWindow st) 0x108 18 0 / 8 * 8 ∧
      Admitted s i (Page.coreWindow st) 0x110 v) ∧
    (∃ (s : State) (i : Ident) (st o : Nat) (v : Word), st < 72 ∧ o = s.fld (Page.coreWindow st) 0x108 18 0 / 8 * 8 ∧
      Admitted s i (Page.coreWindow st) 0x110 v ∧ s.cwReaches st = true ∧ o < 0x40000) ∧
    (∃ (s : State) (i : Ident) (st o : Nat), st < 72 ∧ o = s.fld (Page.coreWindow st) 0x108 18 0 / 8 * 8 ∧ s.unreached
      (Page.coreWindow st) = false ∧ s.mayRead i (Page.coreWindow st) 0x110 = true ∧ s.unpowered.contains
      (Page.coreWindow st) = false) ∧
    (∃ (s : State) (i : Ident) (st : Nat), st < 72 ∧ Admitted s i (Page.coreWindow st) 0x120 1 ∧
      (s.core (s.cwCore st)).status = .faulted) ∧
    (∃ (s : State) (i : Ident) (st : Nat), st < 72 ∧ Admitted s i (Page.coreWindow st) 0x120 1 ∧
      (s.core (s.cwCore st)).status = .faulted) :=
  ⟨⟨withRegs [(Page.device, Reg.STACK_STATE + 64, 0x0700000000000000), (Page.device, Reg.SPARE_MAP + 504, 0x50000000000bf)]
     work, ((withRegs
     [(Page.device, Reg.STACK_STATE + 64, 0x0700000000000000), (Page.device, Reg.SPARE_MAP + 504, 0x50000000000bf)]
     work).admittedState ((.mgmt : Ident)) Page.device Reg.SPARE_CTL).storeWrite Page.device Reg.SPARE_CTL
     (spareWord 0 63 71 5 true), (.mgmt : Ident), 63, 71, 5, true, by decide +kernel, by decide +kernel, by decide +kernel,
     rfl, by decide +kernel⟩,
   ⟨withRegs [(Page.device, Reg.STACK_STATE + 64, 0x0700000000000000), (Page.device, Reg.SPARE_MAP + 504, 0x5000000000000)]
     work, ((withRegs
     [(Page.device, Reg.STACK_STATE + 64, 0x0700000000000000), (Page.device, Reg.SPARE_MAP + 504, 0x5000000000000)]
     work).admittedState ((.mgmt : Ident)) Page.device Reg.SPARE_CTL).storeWrite Page.device Reg.SPARE_CTL
     (spareWord 0 63 71 5 true), (.mgmt : Ident), 63, 71, 5, true, by decide +kernel, by decide +kernel, by decide +kernel,
     rfl, by decide +kernel⟩,
   ⟨withRegs [(Page.device, Reg.STACK_STATE + 64, 0x0800000000000000), (Page.router 71, Reg.PAGE_STATE, 0x500000003)] work,
     ((withRegs [(Page.device, Reg.STACK_STATE + 64, 0x0800000000000000), (Page.router 71, Reg.PAGE_STATE, 0x500000003)]
     work).admittedState ((.mgmt : Ident)) Page.device Reg.SPARE_CTL).storeWrite Page.device Reg.SPARE_CTL
     (spareWord 1 0 71 5 false), (.mgmt : Ident), 71, 5, false, by decide +kernel, by decide +kernel, rfl,
     by decide +kernel⟩,
   ⟨work, 71, 3, by decide +kernel⟩,
   ⟨withRegs [(Page.computeDie 71 3, Reg.EV_ENABLE, 0xFFFF), (Page.device, Reg.SPARE_CTL, 0)] work, 71, 3,
     by decide +kernel⟩,
   ⟨withRegs [(Page.device, Reg.STACK_STATE + 64, 0x0300000000000000)] work, 71, by decide +kernel⟩,
   ⟨lostAt71, lostDone, 71, 0, by decide +kernel⟩,
   ⟨withRegs [(Page.device, Reg.CAP_DECLARED, 5875515277312)] work, by decide +kernel⟩,
   ⟨withRegs [(Page.device, Reg.CAP_DECLARED, 0xFFFF000000000001), (Page.device, Reg.EV_ENABLE, 0xFFFF)] work,
     fun h => absurd (capacityNow_even _) (by rw [← h]; decide +kernel)⟩,
   ⟨({ work with capStale := true } : State), by decide +kernel⟩,
   ⟨State.reset, by decide +kernel⟩,
   ⟨work, (.mgmt : Ident), 71, 3, 29, bits (0x2928#64) 5 0, bits (0x2928#64) 13 8, 0x2928#64, by decide +kernel⟩,
   ⟨sparingS13, (.mgmt : Ident), 71, 3, 29, bits (0x2928#64) 5 0, bits (0x2928#64) 13 8, 0x2928#64, 41, by decide +kernel⟩,
   ⟨withRegs [(Page.coreWindow 71, 0x100, 0xDD29), (Page.coreWindow 71, 0x108, 262144)] work, (.mgmt : Ident), 71,
     (withRegs [(Page.coreWindow 71, 0x100, 0xDD29), (Page.coreWindow 71, 0x108, 262144)] work).fld (Page.coreWindow 71)
     0x108 18 0 / 8 * 8, 0x1122334455667788#64, by decide +kernel⟩,
   ⟨sparingS15, (.mgmt : Ident), 71, sparingS15.fld (Page.coreWindow 71) 0x108 18 0 / 8 * 8, 0x1122334455667788#64,
     by decide +kernel⟩,
   ⟨withRegs [(Page.coreWindow 71, 0x100, 0xDD29), (Page.coreWindow 71, 0x108, 524280)] work, (.mgmt : Ident), 71,
     (withRegs [(Page.coreWindow 71, 0x100, 0xDD29), (Page.coreWindow 71, 0x108, 524280)] work).fld (Page.coreWindow 71)
     0x108 18 0 / 8 * 8, by decide +kernel⟩,
   ⟨sparingS17, (.mgmt : Ident), 71, by decide +kernel⟩,
   ⟨sparingS17, (.mgmt : Ident), 71, by decide +kernel⟩⟩

/-- A value of clause 1 of StartupCompletes. -/
def startupS1 : State :=
  { withRegs [(Page.pmc, Reg.BOOT_STAT, 1), (Page.clock, Reg.PANEL_TIME, 0)] work with
    boot := { running := true, lost := [0] } }

/-- A value of clause 2 of StartupCompletes. -/
def startupS2 : State :=
  { withRegs [(Page.pmc, Reg.BOOT_STAT, 2), (Page.clock, Reg.PANEL_TIME, 0)] work with
    boot := { active := 1 } }

/-- A value of clause 3 of StartupCompletes. -/
def startupS3 : State :=
  { withRegs [(Page.pmc, Reg.BOOT_STAT, 3), (Page.clock, Reg.PANEL_TIME, 0)] work with
    boot := { running := true } }

/-- A value of clause 5 of StartupCompletes. -/
def startupS5 : State :=
  { withRegs [(Page.pmc, Reg.BOOT_STAT, 4), (Page.clock, Reg.PANEL_TIME, 0)] work with
    boot := { running := true } }

/-- A value of clause 6 of StartupCompletes. -/
def startupS6 : State :=
  { withRegs [(Page.pmc, Reg.BOOT_STAT, 5), (Page.clock, Reg.PANEL_TIME, 0)] work with
    boot := { running := true } }

/-- A value of clause 7 of StartupCompletes. -/
def startupS7 : State :=
  { withRegs [(Page.pmc, Reg.BOOT_STAT, 6), (Page.clock, Reg.PANEL_TIME, 0)] work with
    boot := { running := true } }

/-- A value of clause 8 of StartupCompletes. -/
def startupS8 : State :=
  { withRegs [(Page.pmc, Reg.BOOT_STAT, 7), (Page.clock, Reg.PANEL_TIME, 0)] work with
    boot := { running := true } }

/-- A value of clause 9 of StartupCompletes. -/
def startupS9 : State :=
  { withRegs [(Page.pmc, Reg.BOOT_STAT, 8), (Page.clock, Reg.PANEL_TIME, 0)] work with
    boot := { running := true } }

/-- A value of clause 10 of StartupCompletes. -/
def startupS10 : State :=
  { withRegs [(Page.pmc, Reg.BOOT_STAT, 9), (Page.clock, Reg.PANEL_TIME, 0)] work with
    boot := { running := true } }

/-- A value of clause 11 of StartupCompletes. -/
def startupS11 : State :=
  { withRegs [(Page.pmc, Reg.BOOT_STAT, 3), (Page.clock, Reg.PANEL_TIME, 15000000000)] work with
    boot := { running := true } }

/-- A value of clause 12 of StartupCompletes. -/
def startupS12 : State :=
  { withRegs [(Page.pmc, Reg.BOOT_STAT, 4), (Page.clock, Reg.PANEL_TIME, 5000000000)] work with
    boot := { running := true } }

/-- A value of clause 13 of StartupCompletes. -/
def startupS13 : State :=
  { withRegs [(Page.pmc, Reg.BOOT_STAT, 5), (Page.clock, Reg.PANEL_TIME, 10000000000)] work with
    boot := { running := true } }

/-- A value of clause 14 of StartupCompletes. -/
def startupS14 : State :=
  { withRegs [(Page.pmc, Reg.BOOT_STAT, 6), (Page.clock, Reg.PANEL_TIME, 20000000000)] work with
    boot := { running := true } }

/-- A value of clause 15 of StartupCompletes. -/
def startupS15 : State :=
  { withRegs [(Page.pmc, Reg.BOOT_STAT, 7), (Page.clock, Reg.PANEL_TIME, 1000000000)] work with
    boot := { running := true } }

/-- A value of clause 16 of StartupCompletes. -/
def startupS16 : State :=
  { withRegs [(Page.pmc, Reg.BOOT_STAT, 8), (Page.clock, Reg.PANEL_TIME, 5000000000)] work with
    boot := { running := true } }

/-- A value of clause 17 of StartupCompletes. -/
def startupS17 : State :=
  { withRegs [(Page.pmc, Reg.BOOT_STAT, 9), (Page.clock, Reg.PANEL_TIME, 500000000)] work with
    boot := { running := true } }

/-- A value of clause 18 of StartupCompletes. -/
def startupS18 : State :=
  { withRegs [(Page.pmc, Reg.BOOT_STAT, 4), (Page.clock, Reg.PANEL_TIME, 4000000000)] work with
    boot := { running := true, groups := 8 } }

/-- A value of clause 19 of StartupCompletes. -/
def startupS19 : State :=
  { withRegs [(Page.pmc, Reg.BOOT_STAT, 15), (Page.clock, Reg.PANEL_TIME, 0)] work with
    boot := { running := true } }

/-- A value of clause 20 of StartupCompletes. -/
def startupS20 : State :=
  { withRegs [(Page.pmc, Reg.BOOT_STAT, 10), (Page.clock, Reg.PANEL_TIME, 0)] work with
    boot := {  } }

/-- A value of clause 22 of StartupCompletes. -/
def startupS22 : State :=
  { withRegs [(Page.device, Reg.PAGE_STATE, 0x500000003)] work with
    pending := [.flashPersist] }

/-- A value of clause 25 of StartupCompletes. -/
def startupS25 : State :=
  { withRegs [(Page.pmc, Reg.BOOT_STAT, 10), (Page.clock, Reg.PANEL_TIME, 0)] work with
    boot := { update := true } }

/-- Values that meet the hypotheses of StartupCompletes, clause by clause. -/
theorem witness_startup_completes :
    (∃ (s : State), s.phase = 1 ∧ s.boot.lost.length < 2) ∧
    (∃ (s : State), s.phase = 2 ∧ s.slotGood s.boot.active = true ∧ s.boot.active < 2) ∧
    (∃ (s : State) (ok : Bool), s.phase = 3 ∧ ok = true ∧ s.coolantBad = false ∧ s.boot.lost = []) ∧
    (∃ (s : State) (ok : Bool), s.phase = 3 ∧ (ok = false ∨ s.coolantBad = true)) ∧
    (∃ (s : State), s.phase = 4 ∧ s.boot.groups = 9) ∧
    (∃ (s : State), s.phase = 5) ∧
    (∃ (s : State), s.phase = 6) ∧
    (∃ (s : State), s.phase = 7) ∧
    (∃ (s : State), s.phase = 8) ∧
    (∃ (s : State), s.phase = 9) ∧
    (∃ (s : State), s.boot.running = true ∧ s.boot.phaseAt + phaseBound s.phase ≤ s.panelTime.toNat ∧
      (s.phase = 2 ∨ s.phase = 3)) ∧
    (∃ (s : State), s.boot.running = true ∧ s.boot.phaseAt + phaseBound s.phase ≤ s.panelTime.toNat ∧ s.phase = 4) ∧
    (∃ (s : State), s.boot.running = true ∧ s.boot.phaseAt + phaseBound s.phase ≤ s.panelTime.toNat ∧ s.phase = 5) ∧
    (∃ (s : State), s.boot.running = true ∧ s.boot.phaseAt + phaseBound s.phase ≤ s.panelTime.toNat ∧ s.phase = 6) ∧
    (∃ (s : State), s.boot.running = true ∧ s.boot.phaseAt + phaseBound s.phase ≤ s.panelTime.toNat ∧ s.phase = 7) ∧
    (∃ (s : State), s.boot.running = true ∧ s.boot.phaseAt + phaseBound s.phase ≤ s.panelTime.toNat ∧ s.phase = 8) ∧
    (∃ (s : State), s.boot.running = true ∧ s.boot.phaseAt + phaseBound s.phase ≤ s.panelTime.toNat ∧ s.phase = 9) ∧
    (∃ (s : State), s.boot.running = true ∧ s.phase = 4 ∧ s.boot.groups < 9 ∧ s.boot.phaseAt + 500000000 * s.boot.groups ≤
      s.panelTime.toNat) ∧
    (∃ (s : State) (f volt : Nat), f < 2 ∧ 760 ≤ volt ∧ s.boot.running = true ∧ (s.phase = 1 ∨ s.phase = 15)) ∧
    (∃ (s : State) (f volt : Nat), f < 2 ∧ 760 ≤ volt ∧ s.boot.running = false ∧ f ∉ s.boot.lost) ∧
    (∃ (s : State) (i : Ident) (epoch : Nat), Admitted s i Page.pmc Reg.BOOT_CTL (place 63 63 1 ||| place 15 0 epoch) ∧
      epoch = s.epoch Page.device) ∧
    (∃ (s : State) (i : Ident) (epoch : Nat), Admitted s i Page.pmc Reg.BOOT_CTL (place 63 63 1 ||| place 15 0 epoch) ∧
      epoch < 65536 ∧ epoch ≠ s.epoch Page.device) ∧
    (∃ (s : State), s.boot.update = true) ∧
    (∃ (s : State), s.boot.update = false) ∧
    (∃ (s : State), s.boot.update = true) ∧
    (∃ (s : State) (step : Nat), s.boot.update = true ∧ 2 ≤ step) :=
  ⟨⟨startupS1, by decide +kernel⟩,
   ⟨startupS2, by decide +kernel⟩,
   ⟨startupS3, true, by decide +kernel⟩,
   ⟨startupS3, false, by decide +kernel⟩,
   ⟨startupS5, by decide +kernel⟩,
   ⟨startupS6, by decide +kernel⟩,
   ⟨startupS7, by decide +kernel⟩,
   ⟨startupS8, by decide +kernel⟩,
   ⟨startupS9, by decide +kernel⟩,
   ⟨startupS10, by decide +kernel⟩,
   ⟨startupS11, by decide +kernel⟩,
   ⟨startupS12, by decide +kernel⟩,
   ⟨startupS13, by decide +kernel⟩,
   ⟨startupS14, by decide +kernel⟩,
   ⟨startupS15, by decide +kernel⟩,
   ⟨startupS16, by decide +kernel⟩,
   ⟨startupS17, by decide +kernel⟩,
   ⟨startupS18, by decide +kernel⟩,
   ⟨startupS19, 1, 760, by decide +kernel⟩,
   ⟨startupS20, 1, 800, by decide +kernel⟩,
   ⟨startupS22, (.mgmt : Ident), 5, by decide +kernel⟩,
   ⟨withRegs [(Page.device, Reg.PAGE_STATE, 0x500000003)] work, (.mgmt : Ident), 65535, by decide +kernel⟩,
   ⟨startupS25, by decide +kernel⟩,
   ⟨work, by decide +kernel⟩,
   ⟨startupS25, by decide +kernel⟩,
   ⟨startupS25, 2, by decide +kernel⟩⟩

/-- Values that meet the hypotheses of StepRunsFront, clause by clause. -/
theorem witness_step_runs_front :
    (({ work with pending := [.flashPersist, .capChanged] } : State).pending = .flashPersist :: [.capChanged]) ∧
    (∃ (s : State), s.pending = []) :=
  ⟨rfl,
   ⟨work, by decide +kernel⟩⟩

/-- Values that meet the hypotheses of StepKeepsMemory, clause by clause. -/
theorem witness_step_keeps_memory :
    (∃ s t : State, Safe s ∧ step s = .next t) :=
  ⟨{ work with mem := imageMem, pending := [.flashPersist] }, _, (by decide +kernel : Memory.wf imageMem = true), rfl⟩

/-- Values that meet the hypotheses of ZeroRegister, clause by clause. -/
theorem witness_zero_register :
    ((31 : Nat) ≠ 0 ∧ ∃ f g : Nat → Word, f ≠ g ∧ ∀ o, o ≠ 0x64000 → f o = g o) :=
  ⟨by decide, fun _ => 0, fun o => if o = 0x64000 then 1 else 0, fun h => absurd (congrFun h 0x64000) (by decide),
    fun
     o h => by simp [h]⟩

/-- A value of clause 1 of VsetvlSets. -/
def vsetvlSetsS1 : State :=
  coreRuns { x := [(1, 65)] } 0x2018400000000002#64

/-- Values that meet the hypotheses of VsetvlSets, clause by clause. -/
theorem witness_vsetvl_sets :
    (∃ (s : State) (c ew vl : Nat) (w : Word), Issues s c .vsetvl w ∧ (s.core c).vstart = 0 ∧ ew = bits w 1 0 ∧ ew < 3 ∧
      bits w 45 2 = 0 ∧ vl = min ((s.core c).rx (Ins.a w)).toNat (2048 / ewBits ew)) ∧
    (∃ (s : State) (c : Nat) (w : Word), Issues s c .vsetvl w ∧ bits w 1 0 = 3) :=
  ⟨⟨vsetvlSetsS1, 0, bits (0x2018400000000002#64) 1 0, min ((vsetvlSetsS1.core 0).rx (Ins.a (0x2018400000000002#64))).toNat
     (2048 / ewBits (bits (0x2018400000000002#64) 1 0)), 0x2018400000000002#64, by decide +kernel⟩,
   ⟨coreRuns {} 0x2018400000000003#64, 0, 0x2018400000000003#64, by decide +kernel⟩⟩

/-- Values that meet the hypotheses of CoreFrame, clause by clause. -/
theorem witness_core_frame :
    (∃ (s t : State) (c : Nat) (e : Ecc) (p : CoreRow × Instr), p ∈ ownRows c e ∧ exec p.2 s = .next t) :=
  ⟨coreRuns {} 0x0400000000000005, _, 0, .ok, (.li, .li 0), by decide +kernel, rfl⟩

/-- A value of clause 2 of IllegalFaults. -/
def illegalFaultsS2 : State :=
  coreRuns { vstart := 1 } 0x2638020000000300#64

/-- Values that meet the hypotheses of IllegalFaults, clause by clause. -/
theorem witness_illegal_faults :
    (∃ (s : State) (c : Nat) (e : Ecc) (w : Word) (p : CoreRow × Instr), p ∈ issueRows c e ∧ (s.core c).fetched = some w ∧
      (s.core c).canIssue = true ∧ rowOf w = p.1 ∧ fnAssigned w = false) ∧
    (∃ (s : State) (c : Nat) (w : Word) (p : CoreRow × Instr), p ∈ vectorRows c ∧ Issues s c p.1 w ∧ (s.core c).vstart ≠ 0) :=
  ⟨⟨coreRuns {} 0#64, 0, (.ok : Ecc), 0#64, ((CoreRow.aluReg, Instr.aluReg 0) : CoreRow × Instr), by decide +kernel⟩,
   ⟨illegalFaultsS2, 0, 0x2638020000000300#64, ((CoreRow.klogic, Instr.klogic 0) : CoreRow × Instr), by decide +kernel⟩⟩

/-- Values that meet the hypotheses of HeldCores, clause by clause. -/
theorem witness_held_cores :
    (∃ (s : State) (c : Nat) (e : Ecc) (p : CoreRow × Instr), p ∈ issueRows c e ∧
      ((s.core c).status ≠ .running ∨ (s.core c).ended = true ∨ (s.core c).wait ≠ .none ∨ (s.core c).fetched = none ∨
      (∃ w, (s.core c).fetched = some w ∧ rowOf w ≠ p.1))) :=
  ⟨State.reset, 0, (.ok : Ecc), ((CoreRow.evt, Instr.evt 0) : CoreRow × Instr), by decide +kernel, .inl
     (by decide +kernel)⟩

/-- A value of clause 1 of WriteRights. -/
def writeRightsS1 : State :=
  { work with boot := { running := true } }

/-- Values that meet the hypotheses of WriteRights, clause by clause. -/
theorem witness_write_rights :
    (∃ (s : State) (page off : Nat) (k : PageKind), off < 0x1000 ∧ off % 8 = 0 ∧ pageKind page = some k ∧ k ≠ .iommuFile ∧
      s.unreached page = true) ∧
    (∃ (s : State) (page off : Nat) (k : PageKind), off < 0x1000 ∧ off % 8 = 0 ∧ pageKind page = some k ∧ k ≠ .iommuFile ∧
      s.unreached page = false ∧ findReg k off = none) ∧
    (∃ (s : State) (i : Ident) (page off : Nat) (v : Word) (k : PageKind), off < 0x1000 ∧ off % 8 = 0 ∧ pageKind page = some
      k ∧ k ≠ .iommuFile ∧ s.unreached page = false ∧ (findReg k off).isSome = true ∧ isDoorbell page off = false ∧
      s.mayWrite i page off v = false) :=
  ⟨⟨writeRightsS1, Page.mover 0, 0x88, (.mover : PageKind), by decide +kernel⟩,
   ⟨work, Page.mover 0, 0xFF8, (.mover : PageKind), by decide +kernel⟩,
   ⟨work, (.hostVf 3 : Ident), Page.mover 0, Reg.EV_ENABLE, 1#64, (.mover : PageKind), by decide +kernel⟩⟩

/-- Values that meet the hypotheses of RegisterFrame, clause by clause. -/
theorem witness_register_frame :
    (∃ t, exec .unavailTick work = .next t) :=
  ⟨_, rfl⟩

end Sys2Proof.Tests
end

/-!
What reset leaves (O51). An unwritten register reads its reset value, and on the register pages of the compute dies and of the
queue blocks that value is what the field table of the register gives.
-/
namespace Sys2Proof.Machine

/-- At reset every register holds its reset value (R3). -/
@[simp] theorem State.reg_reset (page off : Nat) : State.reset.reg page off = resetValue page off := rfl

/-- The pages of the compute dies (Table 21-2). -/
theorem pageKind_computeDie {st d : Nat} (hs : st < 72) (hd : d < 4) : pageKind (Page.computeDie st d) = some .computeDie := by
  have hp : (Page.computeDie st d - 0x1000) % 0x40 = 17 + d := by simp only [Page.computeDie, Page.hub]; omega
  have hr : 0x1000 ≤ Page.computeDie st d ∧ Page.computeDie st d < 0x1000 + 0x40 * 72 := by
    simp only [Page.computeDie, Page.hub]; omega
  have hk : ∀ d, d < 4 → hubPageKind (17 + d) = some .computeDie := by decide
  unfold pageKind
  rw [if_neg (by omega), if_neg (by omega), if_neg (by omega), if_neg (by omega), if_neg (by omega), if_neg (by omega),
    if_neg (by omega), if_neg (by omega), if_pos hr, hp, hk d hd]

/-- The pages of the queue blocks (Table 21-1). -/
theorem pageKind_queueBlock {q : Nat} (hq : q < 1024) : pageKind (Page.queueBlock q) = some .queueBlock := by
  have hr : 0x410 ≤ Page.queueBlock q ∧ Page.queueBlock q < 0x430 := by simp only [Page.queueBlock]; omega
  unfold pageKind
  rw [if_neg (by omega), if_neg (by omega), if_neg (by omega), if_neg (by omega), if_neg (by omega), if_neg (by omega),
    if_pos hr]

/-- Where the reset value of a page kind's own registers is that of their field tables. -/
theorem resetValue_of_findReg {page off : Nat} {k : PageKind} {r : RegSpec} (hk : pageKind page = some k)
    (hr : findReg k off = some r) (hb : 0x100 ≤ r.base) (hf : k = .queueBlock ∨ k = .computeDie ∧ 0x1F0 ≤ off) :
    resetValue page off = resetOfFields r.fields := by
  have h1 : r.base ≠ Reg.PAGE_ID := by simp only [Reg.PAGE_ID]; omega
  have h2 : r.base ≠ Reg.PAGE_CAP := by simp only [Reg.PAGE_CAP]; omega
  have h3 : r.base ≠ Reg.VER_SUPPORT := by simp only [Reg.VER_SUPPORT]; omega
  have h4 : r.base ≠ Reg.VER_ACTIVE := by simp only [Reg.VER_ACTIVE]; omega
  rcases hf with rfl | ⟨rfl, ho⟩
  · simp [resetValue, hk, hr, h1, h2, h3, h4]
  · simp [resetValue, hk, hr, h1, h2, h3, h4, Nat.not_lt.mpr ho]

/-- The registers of a compute die from KEEP_CTL on are the entries of its table from the third, in order. -/
theorem findReg_computeDie : ∀ i, i < 4 → findReg .computeDie (keepCtl + 8 * i) = computeDieRegs[2 + i]? := by decide +kernel

/-- The registers of queue b of a queue block are the entries of its table, in order (Table 13-2). -/
theorem findReg_queueBlock :
    ∀ b, b < 32 → ∀ i, i < 7 → findReg .queueBlock (0x800 + 0x40 * b + 8 * i) = queueBlockRegs[i]? := by decide +kernel

/-- KEEP_CTL, KEEP_STAT, DIE_PWR_BOUND and DIE_PWR_STAT reset to their tables' values (Tables 4-15, 4-16, 18-5 and 18-6). -/
theorem resetValue_computeDie {st d : Nat} (i : Nat) {r : RegSpec} (hs : st < 72) (hd : d < 4) (hi : i < 4)
    (hr : computeDieRegs[2 + i]? = some r) : resetValue (Page.computeDie st d) (keepCtl + 8 * i) = resetOfFields r.fields := by
  have hb : ∀ r ∈ computeDieRegs, 0x100 ≤ r.base := by decide
  exact resetValue_of_findReg (pageKind_computeDie hs hd) ((findReg_computeDie i hi).trans hr)
    (hb r (List.mem_of_getElem? hr)) (.inr ⟨rfl, by simp only [keepCtl]; omega⟩)

/-- The registers of a queue reset to the values of Table 13-2. -/
theorem resetValue_queueBlock {q : Nat} (i : Nat) {r : RegSpec} (hq : q < 1024) (hi : i < 7)
    (hr : queueBlockRegs[i]? = some r) : resetValue (Page.queueBlock q) (qOff q (8 * i)) = resetOfFields r.fields := by
  have hb : ∀ r ∈ queueBlockRegs, 0x100 ≤ r.base := by decide
  exact resetValue_of_findReg (pageKind_queueBlock hq) ((findReg_queueBlock _ (Nat.mod_lt _ (by decide)) i hi).trans hr)
    (hb r (List.mem_of_getElem? hr)) (.inl rfl)

/-- The power and keeper registers of every compute die at reset. -/
theorem reset_computeDie {st d : Nat} (hs : st < 72) (hd : d < 4) :
    State.reset.fld (Page.computeDie st d) diePwrStat 1 0 = 3 ∧
    State.reset.fld (Page.computeDie st d) diePwrStat 41 32 = 600 ∧ State.reset.fld (Page.computeDie st d) diePwrBound 3 2 = 3 ∧
    State.reset.fld (Page.computeDie st d) diePwrBound 15 8 = 100 ∧ State.reset.fld (Page.computeDie st d) keepCtl 7 0 = 48 := by
  have hk : State.reset.reg (Page.computeDie st d) keepCtl = _ := resetValue_computeDie 0 hs hd (by decide) rfl
  have hb : State.reset.reg (Page.computeDie st d) diePwrBound = _ := resetValue_computeDie 2 hs hd (by decide) rfl
  have hp : State.reset.reg (Page.computeDie st d) diePwrStat = _ := resetValue_computeDie 3 hs hd (by decide) rfl
  simp only [State.fld, hk, hb, hp]
  decide

/-- Every queue at reset is disabled, unbound and idle (R395). -/
theorem reset_queueBlock {q : Nat} (hq : q < 1024) :
    bits (State.reset.qreg q Q.cfg) 63 63 = 0 ∧ State.reset.qreg q Q.bind = 0 ∧ bits (State.reset.qreg q Q.stat) 63 63 = 1 := by
  have hc : State.reset.qreg q Q.cfg = _ := resetValue_queueBlock 2 hq (by decide) rfl
  have hb : State.reset.qreg q Q.bind = 0 := resetValue_qbind q hq
  have hs : State.reset.qreg q Q.stat = _ := resetValue_queueBlock 6 hq (by decide) rfl
  rw [hc, hb, hs]
  decide

/-- Settles O51: nothing is listed at reset, so every register reads its reset value, which its table gives. -/
theorem resetState : Obligations.ResetState := by
  refine ⟨State.reg_reset, ?_, ?_, ?_, fun st d => reset_computeDie, fun q => reset_queueBlock, rfl, rfl, rfl, rfl, rfl,
    fun _ => rfl⟩
  · decide
  · decide
  · decide

end Sys2Proof.Machine

/-!
What a register command leaves alone (O60). The parts of the state that such a command keeps are taken together as its content;
every register operation keeps the content, hence so does every effect made of them, and a register access keeps what its effect
keeps.
-/
namespace Sys2Proof.Machine

/-- The parts of the state that a register command leaves alone: the bytes of memory, the cores, the tasks, the commands, the
lines of the caching agents and of the hub caches, and the damaged lines. -/
def State.content (s : State) : Memory × Map Core × Map Task × Map Cmd × Map LineState × List CacheLine × Map Nat :=
  (s.mem, s.cores, s.tasks, s.cmds, s.agents, s.cache, s.bad)

section
variable (s : State)

@[simp] theorem State.content_setReg (page off : Nat) (v : Word) : (s.setReg page off v).content = s.content := rfl
@[simp] theorem State.content_setFld (page off hi lo n : Nat) : (s.setFld page off hi lo n).content = s.content := rfl
@[simp] theorem State.content_markWritten (page off : Nat) : (s.markWritten page off).content = s.content := rfl
@[simp] theorem State.content_modQueue (q : Nat) (f : QState → QState) : (s.modQueue q f).content = s.content := rfl
@[simp] theorem State.content_modCause (c i : Nat) (f : Cause → Cause) : (s.modCause c i f).content = s.content := rfl
@[simp] theorem State.content_setDec (n k : Nat) (x : DecStream) : (s.setDec n k x).content = s.content := rfl

end

/-- A choice of states with the same content has it. -/
theorem State.content_ite {p : Prop} [Decidable p] {s a b : State} (ha : a.content = s.content) (hb : b.content = s.content) :
    (if p then a else b).content = s.content := by
  split
  · exact ha
  · exact hb

/-- A fold of steps that keep the content keeps it. -/
theorem State.content_foldl {α : Type} {f : State → α → State} (hf : ∀ s x, (f s x).content = s.content) (l : List α)
    (s : State) : (l.foldl f s).content = s.content := by
  induction l generalizing s with
  | nil => rfl
  | cons x xs ih => exact (ih (f s x)).trans (hf s x)

/-! Register writes of a state, events and derived registers. -/

section
variable (s : State)

@[simp] theorem State.content_lockTouch (i : Ident) (page : Nat) : (s.lockTouch i page).content = s.content := by
  obtain ⟨l, h⟩ := State.lockTouch_eq s i page
  rw [h]; rfl

@[simp] theorem State.content_denied (i : Ident) : (s.denied i).content = s.content := by
  unfold State.denied; split <;> rfl

@[simp] theorem State.content_plainWrite (page off : Nat) (v : Word) : (s.plainWrite page off v).content = s.content := by
  unfold State.plainWrite
  split
  · rfl
  · split
    · rfl
    · split
      · rfl
      · dsimp only; split <;> rfl

@[simp] theorem State.content_storeWrite (page off : Nat) (v : Word) : (s.storeWrite page off v).content = s.content := by
  unfold State.storeWrite
  split
  · rfl
  · split
    · rfl
    · dsimp only; split <;> rfl

@[simp] theorem State.content_enterState (page st : Nat) : (s.enterState page st).content = s.content := by
  unfold State.enterState
  split
  · dsimp only; split <;> rfl
  · rfl

@[simp] theorem State.content_genEventAs (page code cls sev part : Nat) (payload : Word) (forced : Bool) :
    (s.genEventAs page code cls sev part payload forced).content = s.content := by
  unfold State.genEventAs
  dsimp only; split <;> rfl

@[simp] theorem State.content_clampLoop (page loop off bitAt : Nat) (holds : Bool) (bound val : Nat) :
    (s.clampLoop page loop off bitAt holds bound val).content = s.content := by
  unfold State.clampLoop
  split
  · dsimp only; split
    · rfl
    · exact State.content_genEventAs ..
  · rfl

@[simp] theorem State.content_refreshDie (st d : Nat) : (s.refreshDie st d).content = s.content :=
  State.content_clampLoop ..

@[simp] theorem State.content_refreshKeeper (st d : Nat) : (s.refreshKeeper st d).content = s.content :=
  State.content_clampLoop ..

@[simp] theorem State.content_refreshCause (c i : Nat) : (s.refreshCause c i).content = s.content := by
  have dies := State.content_foldl (fun s (p : Nat × Nat) => s.content_refreshDie p.1 p.2) (causeDies c i) s
  unfold State.refreshCause
  dsimp only; split
  · exact (State.content_foldl (fun s k => s.content_refreshKeeper (k / 4) (k % 4)) _ _).trans dies
  · exact dies

@[simp] theorem State.content_refreshOwners : s.refreshOwners.content = s.content := by
  refine State.content_foldl (fun s st => ?_) _ s
  refine State.content_foldl (fun s j => ?_) _ s
  simp only [apply_ite State.content, State.content_setFld, ite_self]

end

/-! Accesses of an identity. -/

/-- A register write keeps the content where its effect on an admitted state does. -/
theorem State.content_writeVia {s : State} {i : Ident} {page off : Nat} {v : Word} {eff : State → State}
    (h : ∀ l w, (eff { s with lockAt := l, written := w }).content = s.content) :
    (s.writeVia i page off v eff).content = s.content := by
  obtain ⟨l, w, ha⟩ := State.admittedState_eq s i page off
  rcases State.writeVia_cases s i page off v eff with e | e | e | e | e <;> rw [e]
  · rfl
  · exact State.content_lockTouch ..
  · simp
  · simp [State.lastStatus]
  · rw [ha]; exact h l w

/-- A register read keeps the content where the clearing of its register does. -/
theorem State.content_readVia {s : State} {i : Ident} {page off n : Nat} {val : Word} {clear : Bool → Bool → State → State}
    (h : ∀ lo hi s, (clear lo hi s).content = s.content) : (s.readVia i page off n val clear).content = s.content := by
  have hl := State.content_lockTouch s i page
  unfold State.readVia
  extract_lets zero base known s' lo hi
  clear_value known
  split
  · rfl
  · split
    · exact hl
    · split
      · exact (State.content_denied s' i).trans hl
      · split
        · exact hl
        · exact (h lo hi _).trans hl

/-! The effects of register writes. -/

section
variable (s : State)

theorem State.content_sqTailEff (i : Ident) (q : Nat) (v : Word) : (sqTailEff i q v s).content = s.content := by
  unfold sqTailEff; split <;> rfl

theorem State.content_cqHeadEff (i : Ident) (q : Nat) (v : Word) : (cqHeadEff i q v s).content = s.content := by
  unfold cqHeadEff; dsimp only; split <;> rfl

theorem State.content_enableQueue (q : Nat) : (s.enableQueue q).content = s.content := by
  unfold State.enableQueue; split <;> rfl

/-- A write of QCFG with ENABLE set does not disable the queue, which would drop commands (R398). -/
theorem State.content_qcfgEff {q : Nat} {v : Word} (hv : bit v 63 = true) : (qcfgEff q v s).content = s.content := by
  unfold qcfgEff
  extract_lets page off en s'
  have hs : s'.content = s.content := by
    show (ite _ _ _ : State).content = _
    split
    · simp
    · rfl
  rw [if_neg (by simp [hv])]
  split
  · exact hs
  · exact (s'.content_enableQueue q).trans hs

theorem State.content_qbindEff (i : Ident) (q : Nat) (v : Word) : (qbindEff i q v s).content = s.content := by
  unfold qbindEff
  split
  · exact State.content_plainWrite ..
  · rfl

theorem State.content_partWrite {p expected : Nat} {clash : Bool} {eff : State → State}
    (h : ∀ s, (eff s).content = s.content) : (s.partWrite p expected clash eff).content = s.content := by
  unfold State.partWrite
  split
  · rfl
  · split
    · rfl
    · split
      · rfl
      · exact h _

theorem State.content_partCtlEff (p : Nat) (v : Word) : (partCtlEff p v s).content = s.content := by
  unfold partCtlEff
  refine State.content_partWrite _ fun s => ?_
  rw [State.content_refreshOwners, State.content_setFld]
  split <;> rfl

theorem State.content_partStacksEff (p : Nat) (v : Word) : (partStacksEff p v s).content = s.content := by
  unfold partStacksEff
  exact State.content_partWrite _ fun s => State.content_refreshOwners _

theorem State.content_partSrvEff (p j : Nat) (v : Word) : (partSrvEff p j v s).content = s.content := by
  unfold partSrvEff
  exact State.content_partWrite _ fun _ => rfl

theorem State.content_evqHeadEff (e : Nat) (v : Word) : (evqHeadEff e v s).content = s.content :=
  State.content_storeWrite ..

theorem State.content_evqCfgEff (e : Nat) (v : Word) : (evqCfgEff e v s).content = s.content := by
  have hs := State.content_storeWrite s (evqPage e) (evqOff e 8) v
  unfold evqCfgEff
  dsimp only; split
  · rfl
  · split <;> exact hs

theorem State.content_evqStatClear (e : Nat) (lo hi : Bool) : (evqStatClear e lo hi s).content = s.content := by
  unfold evqStatClear; split <;> rfl

theorem State.content_evForceEff (page : Nat) (v : Word) : (evForceEff page v s).content = s.content := by
  refine State.content_foldl (fun s c => ?_) _ s
  split
  · exact State.content_genEventAs ..
  · rfl

theorem State.content_reqTailEff (n k : Nat) (v : Word) : (reqTailEff n k v s).content = s.content := by
  unfold reqTailEff
  dsimp only; split
  · rfl
  · split
    · rfl
    · split <;> rfl

theorem State.content_decRestart (n k epoch : Nat) (discard : Bool) : (s.decRestart n k epoch discard).content = s.content := by
  unfold State.decRestart
  dsimp only; split
  · rfl
  · split <;> rfl

/-- A write of STREAM_CTL without STOP and START restarts the stream at most (Table 16-10). -/
theorem State.content_streamCtlEff {n k : Nat} {v : Word} (h0 : bit v 0 = false) (h2 : bit v 2 = false) :
    (streamCtlEff n k v s).content = s.content := by
  unfold streamCtlEff
  simp only [h0, h2, Bool.false_eq_true, if_false]
  split
  · exact State.content_decRestart ..
  · rfl

theorem State.content_diePwrBoundEff (page : Nat) (v : Word) : (diePwrBoundEff page v s).content = s.content := by
  unfold diePwrBoundEff
  split
  · rfl
  · dsimp only; split <;> simp

theorem State.content_keepCtlEff (page : Nat) (v : Word) : (keepCtlEff page v s).content = s.content := by
  unfold keepCtlEff
  dsimp only; split <;> simp

theorem State.content_pageLockEff (i : Ident) (page : Nat) (v : Word) : (pageLockEff i page v s).content = s.content := by
  unfold pageLockEff
  dsimp only; split
  · rfl
  · split
    · rfl
    · split <;> rfl

/-- A write of PAGE_CTL that changes nothing or asks for an update keeps the content; the other changes reset, quiesce or switch
off the page's block (R566). -/
theorem State.content_pageCtlEff {page : Nat} {v : Word} (h : s.ctlChange page v = 0 ∨ s.ctlChange page v = 4) :
    (pageCtlEff page v s).content = s.content := by
  unfold pageCtlEff
  extract_lets change s'
  have hs : s'.content = s.content := by
    show (ite _ _ _ : State).content = _
    split <;> rfl
  have hm : (s'.ctlMake page change).content = s'.content := by
    rcases h with h | h
    · rw [show change = 0 from h]; rfl
    · rw [show change = 4 from h]; exact s'.content_enterState page _
  split
  · rfl
  · split
    · rfl
    · split
      · rfl
      · exact hm.trans hs

end
end Sys2Proof.Machine

/-!
The commands of O60: the words that UPDATE_REQ, CNT_CLEAR and STREAM_RESTART write ask for no other change, and every command
is the register access, clock step or answer whose effect keeps the content.
-/
namespace Sys2Proof.Machine

/-- A bit of a disjunction of words. -/
@[simp] theorem bit_or (v w : Word) (i : Nat) : bit (v ||| w) i = (bit v i || bit w i) := by
  simp [bit]

/-- A bit of a placed field is a bit of the number placed. -/
theorem bit_place {hi lo i : Nat} (n : Nat) (hl : lo ≤ i) (hh : i ≤ hi) (hw : i < 64) :
    bit (place hi lo n) i = n.testBit (i - lo) := by
  have hr : i - lo < hi + 1 - lo := by omega
  unfold bit place
  rw [BitVec.toNat_ofNat, Nat.testBit_mod_two_pow, Nat.testBit_shiftLeft, Nat.testBit_mod_two_pow]
  simp [hl, hw, hr]

/-- A bit outside a placed field is clear. -/
theorem bit_place_outside {hi lo i : Nat} (n : Nat) (h : i < lo ∨ hi < i) : bit (place hi lo n) i = false := by
  have hr : lo ≤ i → ¬ i - lo < hi + 1 - lo := by omega
  unfold bit place
  rw [BitVec.toNat_ofNat, Nat.testBit_mod_two_pow, Nat.testBit_shiftLeft, Nat.testBit_mod_two_pow]
  by_cases hl : lo ≤ i <;> simp [hl, hr]

/-- A field of one bit, placed where it was read, is that bit. -/
theorem bit_place_fld (s : State) (page off i : Nat) (hi : i < 64) :
    bit (place i i (s.fld page off i i)) i = bit (s.reg page off) i := by
  rw [bit_place _ (Nat.le_refl i) (Nat.le_refl i) hi]
  simp [State.fld, bits, natBits, bit]

/-- The word that a request through PAGE_CTL writes: the expected epoch, ENABLE and QUIESCE_REQ as they are, and the bits of the
request (R566, R611). -/
def State.requestWord (s : State) (page epoch n : Nat) : Word :=
  ctlWord epoch (s.fld page Reg.PAGE_CTL 0 0) (s.fld page Reg.PAGE_CTL 1 1) n

/-- UPDATE_REQ and CNT_CLEAR write a request word (R566, R611). -/
theorem State.pageCtlWrite_request (s : State) (u : Ident) (page epoch n : Nat) :
    s.pageCtlWrite u page epoch (s.fld page Reg.PAGE_CTL 0 0) (s.fld page Reg.PAGE_CTL 1 1) n =
      if page = 0x102 then s
      else s.writeVia u page Reg.PAGE_CTL (s.requestWord page epoch n) (pageCtlEff page (s.requestWord page epoch n)) := rfl

/-- A request without bits 0 to 2 asks for the update that its bit 3 names and for no other change (Table 21-3). -/
theorem State.ctlChange_requestWord {n : Nat} (h : ∀ i, i < 3 → bit (BitVec.ofNat 64 n) i = false) (s : State)
    (page epoch : Nat) :
    s.ctlChange page (s.requestWord page epoch n) = if bit (BitVec.ofNat 64 n) 3 then 4 else 0 := by
  have enable : bit (s.requestWord page epoch n) 0 = bit (s.reg page Reg.PAGE_CTL) 0 := by
    simp [State.requestWord, ctlWord, bit_place_fld, bit_place_outside, h]
  have quiesce : bit (s.requestWord page epoch n) 1 = bit (s.reg page Reg.PAGE_CTL) 1 := by
    simp [State.requestWord, ctlWord, bit_place_fld, bit_place_outside, h]
  have reset : bit (s.requestWord page epoch n) 2 = false := by
    simp [State.requestWord, ctlWord, bit_place_outside, h]
  have update : bit (s.requestWord page epoch n) 3 = bit (BitVec.ofNat 64 n) 3 := by
    simp [State.requestWord, ctlWord, bit_place_outside]
  unfold State.ctlChange
  rw [enable, quiesce, reset, update]
  cases bit (BitVec.ofNat 64 n) 3 <;> simp

/-- A command that answers a next state with the content of the one before. -/
def KeepsContent (c : Instr) : Prop := ∀ s t : State, exec c s = .next t → t.content = s.content

/-- A command whose meaning is a total update that keeps the content. -/
theorem keepsContent_of_next {c : Instr} {f : State → State} (he : ∀ s, exec c s = .next (f s))
    (hf : ∀ s, (f s).content = s.content) : KeepsContent c := by
  intro s t h
  rw [he] at h
  exact Host.Outcome.next.inj h ▸ hf s

/-- A command that writes a register with an effect that keeps the content. -/
theorem keepsContent_of_writeVia {c : Instr} {i : Ident} {page off : Nat} {v : Word} {eff : State → State}
    (he : ∀ s, exec c s = .next (s.writeVia i page off v eff)) (hf : ∀ s, (eff s).content = s.content) : KeepsContent c :=
  keepsContent_of_next he fun _ => State.content_writeVia fun _ _ => hf _

theorem sqTail_keepsContent (u : Ident) (q : Nat) (v : Word) : KeepsContent (.sqTail u q v) :=
  keepsContent_of_writeVia (fun _ => rfl) fun s => s.content_sqTailEff u _ v

theorem cqHead_keepsContent (u : Ident) (q : Nat) (v : Word) : KeepsContent (.cqHead u q v) :=
  keepsContent_of_writeVia (fun _ => rfl) fun s => s.content_cqHeadEff u _ v

theorem qcfgEnableSet_keepsContent (u : Ident) (q : Nat) (v : Word) : KeepsContent (.qcfgEnableSet u q v) := by
  have hv : bit (setBit v 63 true) 63 = true := by simp [setBit, setBits, bit_place]
  exact keepsContent_of_writeVia (fun _ => rfl) fun s => s.content_qcfgEff hv

theorem qbindWrite_keepsContent (u : Ident) (q : Nat) (v : Word) : KeepsContent (.qbindWrite u q v) :=
  keepsContent_of_writeVia (fun _ => rfl) fun s => s.content_qbindEff u _ v

theorem partCtlWrite_keepsContent (u : Ident) (p : Nat) (v : Word) : KeepsContent (.partCtlWrite u p v) :=
  keepsContent_of_writeVia (fun _ => rfl) fun s => s.content_partCtlEff _ v

theorem partStacksWrite_keepsContent (u : Ident) (p : Nat) (v : Word) : KeepsContent (.partStacksWrite u p v) :=
  keepsContent_of_writeVia (fun _ => rfl) fun s => s.content_partStacksEff _ v

theorem partSrvWrite_keepsContent (u : Ident) (p j : Nat) (v : Word) : KeepsContent (.partSrvWrite u p j v) :=
  keepsContent_of_writeVia (fun _ => rfl) fun s => s.content_partSrvEff _ _ v

theorem evqHead_keepsContent (u : Ident) (e : Nat) (v : Word) : KeepsContent (.evqHead u e v) :=
  keepsContent_of_next (fun _ => rfl) fun _ =>
    State.content_ite (State.content_writeVia fun _ _ => State.content_evqHeadEff _ e v) rfl

theorem evqCfgWrite_keepsContent (u : Ident) (e : Nat) (v : Word) : KeepsContent (.evqCfgWrite u e v) :=
  keepsContent_of_next (fun _ => rfl) fun _ =>
    State.content_ite (State.content_writeVia fun _ _ => State.content_evqCfgEff _ e v) rfl

theorem evqStatRead_keepsContent (u : Ident) (e at_ n : Nat) : KeepsContent (.evqStatRead u e at_ n) :=
  keepsContent_of_next (fun _ => rfl) fun _ =>
    State.content_ite (State.content_readVia fun lo hi s => s.content_evqStatClear e lo hi) rfl

theorem evForce_keepsContent (u : Ident) (page : Nat) (v : Word) : KeepsContent (.evForce u page v) :=
  keepsContent_of_next (fun _ => rfl) fun _ =>
    State.content_ite rfl (State.content_writeVia fun _ _ => State.content_evForceEff _ page v)

theorem reqTail_keepsContent (u : Ident) (n k : Nat) (v : Word) : KeepsContent (.reqTail u n k v) :=
  keepsContent_of_next (fun _ => rfl) fun _ =>
    State.content_ite (State.content_writeVia fun _ _ => State.content_reqTailEff _ n k v) rfl

theorem streamRestart_keepsContent (u : Ident) (n k epoch : Nat) (discard : Bool) :
    KeepsContent (.streamRestart u n k epoch discard) := by
  have h : ∀ i, i = 0 ∨ i = 2 → bit (place 63 48 epoch ||| place 4 4 discard.toNat ||| 2) i = false := by
    rintro i (rfl | rfl) <;> simp only [bit_or, bit_place_outside, Nat.reduceLT, true_or, Bool.false_or] <;> decide
  exact keepsContent_of_next (fun _ => rfl) fun _ =>
    State.content_ite (State.content_writeVia fun _ _ => State.content_streamCtlEff _ (h 0 (.inl rfl)) (h 2 (.inr rfl))) rfl

theorem diePwrBoundWrite_keepsContent (u : Ident) (st d : Nat) (v : Word) : KeepsContent (.diePwrBoundWrite u st d v) :=
  keepsContent_of_writeVia (fun _ => rfl) fun s => s.content_diePwrBoundEff _ v

theorem keepCtlWrite_keepsContent (u : Ident) (st d : Nat) (v : Word) : KeepsContent (.keepCtlWrite u st d v) :=
  keepsContent_of_writeVia (fun _ => rfl) fun s => s.content_keepCtlEff _ v

/-- A request through PAGE_CTL that leaves ENABLE, QUIESCE_REQ and RESET_REQ alone keeps the content. -/
theorem State.content_pageCtlWrite {n : Nat} (h : ∀ i, i < 3 → bit (BitVec.ofNat 64 n) i = false) (s : State) (u : Ident)
    (page epoch : Nat) :
    (s.pageCtlWrite u page epoch (s.fld page Reg.PAGE_CTL 0 0) (s.fld page Reg.PAGE_CTL 1 1) n).content = s.content := by
  rw [State.pageCtlWrite_request]
  split
  · rfl
  · refine State.content_writeVia fun l w => State.content_pageCtlEff _ ?_
    have change : ({ s with lockAt := l, written := w } : State).ctlChange page (s.requestWord page epoch n) = _ :=
      State.ctlChange_requestWord h { s with lockAt := l, written := w } page epoch
    rw [change]
    split
    · exact .inr rfl
    · exact .inl rfl

theorem updateReq_keepsContent (u : Ident) (page epoch : Nat) : KeepsContent (.updateReq u page epoch) :=
  keepsContent_of_next (fun _ => rfl) fun s => State.content_pageCtlWrite (by decide) s u page epoch

theorem cntClear_keepsContent (u : Ident) (page epoch : Nat) : KeepsContent (.cntClear u page epoch) :=
  keepsContent_of_next (fun _ => rfl) fun s => State.content_pageCtlWrite (by decide) s u page epoch

theorem updateDone_keepsContent (st k version : Nat) : KeepsContent (.updateDone st k version) :=
  keepsContent_of_next (fun _ => rfl) fun _ =>
    State.content_ite rfl ((State.content_enterState ..).trans ((State.content_setFld ..).trans (State.content_ite rfl rfl)))

theorem pageLockAcquire_keepsContent (u : Ident) (page : Nat) : KeepsContent (.pageLockAcquire u page) :=
  keepsContent_of_next (fun _ => rfl) fun _ =>
    State.content_ite rfl (State.content_writeVia fun _ _ => State.content_pageLockEff _ u page 1)

theorem pageLockRelease_keepsContent (u : Ident) (page : Nat) : KeepsContent (.pageLockRelease u page) :=
  keepsContent_of_next (fun _ => rfl) fun _ =>
    State.content_ite rfl (State.content_writeVia fun _ _ => State.content_pageLockEff _ u page 2)

theorem pageLockIdleExpiry_keepsContent (page : Nat) : KeepsContent (.pageLockIdleExpiry page) :=
  keepsContent_of_next (fun _ => rfl) fun _ => State.content_ite rfl rfl

theorem divStep_keepsContent (st d : Nat) : KeepsContent (.divStep st d) := by
  refine keepsContent_of_next (fun _ => rfl) fun s => ?_
  extract_lets st d page eff target now early step
  clear_value early
  split
  · rfl
  · split
    · split <;> rfl
    · split <;> rfl

theorem voltageRampDone_keepsContent (st d : Nat) : KeepsContent (.voltageRampDone st d) :=
  keepsContent_of_next (fun _ => rfl) fun _ =>
    State.content_ite (State.content_ite rfl rfl) (State.content_ite rfl rfl)

theorem ceilStep_keepsContent (cause ix : Nat) : KeepsContent (.ceilStep cause ix) := by
  refine keepsContent_of_next (fun _ => rfl) fun s => ?_
  extract_lets x now rising
  exact State.content_ite
    (State.content_ite ((State.content_refreshCause ..).trans (State.content_modCause ..)) rfl)
    (State.content_ite ((State.content_refreshCause ..).trans (State.content_modCause ..)) rfl)

theorem panelTimeTick_keepsContent (n adj : Nat) : KeepsContent (.panelTimeTick n adj) :=
  keepsContent_of_next (fun _ => rfl) fun _ => State.content_ite rfl rfl

theorem timeExchange_keepsContent (f source hops t1 t2 t3 t4 : Nat) :
    KeepsContent (.timeExchange f source hops t1 t2 t3 t4) := by
  refine keepsContent_of_next (fun _ => rfl) fun s => ?_
  extract_lets f time paired off page near
  have hp : paired.content = s.content := rfl
  clear_value paired
  split
  · rfl
  · split
    · exact hp
    · split
      · exact hp
      · extract_lets noted good time counted
        have hc : counted.content = s.content := hp
        clear_value counted
        split
        · exact hc
        · split <;> exact hc

theorem timeLockLoss_keepsContent : KeepsContent .timeLockLoss :=
  keepsContent_of_next (fun _ => rfl) fun _ => State.content_ite rfl rfl

theorem capChanged_keepsContent : KeepsContent .capChanged :=
  keepsContent_of_next (fun _ => rfl) fun _ => State.content_ite rfl (State.content_genEventAs ..)

theorem unavailTick_keepsContent : KeepsContent .unavailTick :=
  keepsContent_of_next (fun _ => rfl) fun _ => State.content_ite rfl rfl

theorem flashPersist_keepsContent : KeepsContent .flashPersist :=
  keepsContent_of_next (fun _ => rfl) fun _ => rfl

theorem pldmRequest_keepsContent (path type : Nat) (known : Bool) : KeepsContent (.pldmRequest path type known) :=
  keepsContent_of_next (fun _ => rfl) fun _ => rfl

theorem pldmFirmwareUpdate_keepsContent (path step : Nat) (sound : Bool) : KeepsContent (.pldmFirmwareUpdate path step sound) := by
  refine keepsContent_of_next (fun _ => rfl) fun s => ?_
  split <;> split <;> rfl

/-- Settles O60: every command of the list keeps the content of the state. -/
theorem registerFrame : Obligations.RegisterFrame := by
  intro s t u q p j e n k st d page epoch at_ adj f source hops t1 t2 t3 t4 version path type step cause ix v discard known sound
    c hc ht
  have keeps : KeepsContent c := by
    clear ht
    revert c
    simp only [List.forall_mem_cons]
    exact ⟨sqTail_keepsContent u q v, cqHead_keepsContent u q v, qcfgEnableSet_keepsContent u q v,
      qbindWrite_keepsContent u q v, partCtlWrite_keepsContent u p v, partStacksWrite_keepsContent u p v,
      partSrvWrite_keepsContent u p j v, evqHead_keepsContent u e v, evqCfgWrite_keepsContent u e v,
      evqStatRead_keepsContent u e at_ n, evForce_keepsContent u page v, reqTail_keepsContent u n k v,
      streamRestart_keepsContent u n k epoch discard, diePwrBoundWrite_keepsContent u st d v, keepCtlWrite_keepsContent u st d v,
      updateReq_keepsContent u page epoch, updateDone_keepsContent st k version, cntClear_keepsContent u page epoch,
      pageLockAcquire_keepsContent u page, pageLockRelease_keepsContent u page, pageLockIdleExpiry_keepsContent page,
      divStep_keepsContent st d, voltageRampDone_keepsContent st d, ceilStep_keepsContent cause ix,
      panelTimeTick_keepsContent n adj, timeExchange_keepsContent f source hops t1 t2 t3 t4, timeLockLoss_keepsContent,
      capChanged_keepsContent, unavailTick_keepsContent, flashPersist_keepsContent, pldmRequest_keepsContent path type known,
      pldmFirmwareUpdate_keepsContent path step sound, nofun⟩
  simpa only [State.content, Prod.mk.injEq] using keeps s t ht

end Sys2Proof.Machine

/-!
The block quantisations and VDQ (O6): the FN of each quantisation's row, what each instruction does once its checks hold, and
the core that VDQ leaves.
-/
namespace Sys2Proof.Machine

/-! The rows of OPC 0x2C (Table 6-6). -/

/-- A quantisation without a lees register has OPC 0x2C. -/
theorem opc_of_rowOf_quant {w : Word} (h : rowOf w ∈ [CoreRow.vqMx, .vqTs4, .vqG8]) : Ins.opc w = 0x2C := by
  by_contra hopc
  revert h
  unfold rowOf
  split
  case h_18 hquant => exact absurd hquant hopc
  all_goals grind

/-- The row of a word of OPC 0x2C is given by its FN. -/
theorem rowOf_quant {w : Word} (h : Ins.opc w = 0x2C) : rowOf w =
    if Ins.fnV w = 1 then .vqTs4 else if Ins.fnV w = 2 then .vqG8 else if Ins.fnV w = 3 then .vqG8l else .vqMx := by
  simp only [rowOf, h]

/-- The assigned FN of OPC 0x2C are 0 to 3 (R183). -/
theorem fnV_le_of_quant {w : Word} (h : Ins.opc w = 0x2C) (hf : fnAssigned w = true) : Ins.fnV w ≤ 3 := by
  simpa [fnAssigned, h, opcAssigned, maxFn, Ins.fn] using hf

theorem fnV_of_vqMx {w : Word} (h : rowOf w = .vqMx) (hf : fnAssigned w = true) : Ins.fnV w = 0 := by
  have hopc := opc_of_rowOf_quant (w := w) (by simp [h])
  have hle := fnV_le_of_quant hopc hf
  rw [rowOf_quant hopc] at h
  split_ifs at h
  omega

theorem fnV_of_vqTs4 {w : Word} (h : rowOf w = .vqTs4) : Ins.fnV w = 1 := by
  rw [rowOf_quant (opc_of_rowOf_quant (by simp [h]))] at h
  split_ifs at h
  assumption

theorem fnV_of_vqG8 {w : Word} (h : rowOf w = .vqG8) : Ins.fnV w = 2 := by
  rw [rowOf_quant (opc_of_rowOf_quant (by simp [h]))] at h
  split_ifs at h
  assumption

/-! What the quantisations do (R160 to R162). -/

section
variable {s : State} {c : Nat} {k : Core} {w : Word} {m : Rnd}

@[simp] theorem writeQuant_pc (k : Core) (w : Word) (kind : BlockKind) (n : Nat) (qs : List QBlock) :
    (writeQuant k w kind n qs).pc = k.pc := rfl

@[simp] theorem Core.quantised_pc (k : Core) (w : Word) (m : Rnd) (kind : BlockKind) : (k.quantised w m kind).pc = k.pc := by
  simp [Core.quantised]

/-- A quantisation whose checks hold leaves the quantised core and goes on. -/
theorem quantise_eq (s : State) (c : Nat) (k : Core) (w : Word) (m : Rnd) : quantise s c k w m =
    .done (s.setCore c (k.quantised w m (quantKind (Ins.fnV w) (Ins.fd w)))) (k.pc + 8) :=
  congrArg (Issue.done _) (by rw [← Core.quantised_pc k w m (quantKind (Ins.fnV w) (Ins.fd w))]; rfl)

theorem semVqMx_done (hm : Rnd.ofField (Ins.rnd w) = some m)
    (hok : quantOk k w ([0x01, 0x02, 0x03, 0x04, 0x08].contains (Ins.fd w)) = true) (hc : Ins.c w = 0)
    (hsr : Ins.fd w = 0x08 → m ≠ .sr) (hfn : Ins.fnV w = 0) :
    semVqMx s c k w = .done (s.setCore c (k.quantised w m (quantKind 0 (Ins.fd w)))) (k.pc + 8) := by
  have checks : (quantOk k w ([0x01, 0x02, 0x03, 0x04, 0x08].contains (Ins.fd w)) && Ins.c w = 0
      && !(decide (Ins.fd w = 0x08) && decide (m = .sr))) = true := by
    rw [hok]; simpa [hc, imp_iff_not_or] using hsr
  simp only [semVqMx, hm]
  rw [if_pos checks, quantise_eq, hfn]

theorem semVqTs4_done (hm : Rnd.ofField (Ins.rnd w) = some m) (hok : quantOk k w (Ins.fd w = 0x09) = true)
    (hc : Ins.c w = 0) (hsr : m ≠ .sr) (hfn : Ins.fnV w = 1) :
    semVqTs4 s c k w = .done (s.setCore c (k.quantised w m .ts4)) (k.pc + 8) := by
  simp only [semVqTs4, hm, hok, hc, hsr, decide_true, decide_false, Bool.not_false, Bool.and_true, if_true]
  rw [quantise_eq, hfn]; rfl

theorem semVqG8_done (hm : Rnd.ofField (Ins.rnd w) = some m) (hok : quantOk k w (Ins.fd w = 0x01) = true)
    (hc : Ins.c w = 0) (hr : m = .rne ∨ m = .sr) (hfn : Ins.fnV w = 2) :
    semVqG8 s c k w = .done (s.setCore c (k.quantised w m .g8)) (k.pc + 8) := by
  have rounds : (decide (m = .rne) || decide (m = .sr)) = true := by simpa using hr
  simp only [semVqG8, hm, hok, hc, rounds, decide_true, Bool.and_true, if_true]
  rw [quantise_eq, hfn]; rfl

theorem semVqG8l_done (hm : Rnd.ofField (Ins.rnd w) = some m) (hok : quantOk k w (Ins.fd w = 0x01) = true)
    (hfs : Ins.fs w = 0x12) (hr : m = .rne ∨ m = .sr) (hd : Ins.c w ≠ Ins.d w) (hb : Ins.c w ≠ Ins.b w) :
    semVqG8l s c k w = .done (s.setCore c (k.g8l w m)) (k.pc + 8) := by
  have rounds : (decide (m = .rne) || decide (m = .sr)) = true := by simpa using hr
  simp only [semVqG8l, hm, hok, hfs, rounds, hd, hb, ne_eq, not_false_eq_true, decide_true, Bool.and_true, if_true]

/-! What VDQ does (R163). -/

@[simp] theorem Core.advanceSr_v (k : Core) (m : Rnd) : (k.advanceSr m).v = k.v := by unfold Core.advanceSr; split <;> rfl
@[simp] theorem Core.advanceSr_x (k : Core) (m : Rnd) : (k.advanceSr m).x = k.x := by unfold Core.advanceSr; split <;> rfl
@[simp] theorem Core.advanceSr_k (k : Core) (m : Rnd) : (k.advanceSr m).k = k.k := by unfold Core.advanceSr; split <;> rfl
@[simp] theorem Core.advanceSr_acc (k : Core) (m : Rnd) : (k.advanceSr m).acc = k.acc := by unfold Core.advanceSr; split <;> rfl

/-- Element i of the result of VDQ from a block format with 32 elements and one side byte for each block. -/
def Core.dequantElem (k : Core) (w : Word) (m : Rnd) (i : Nat) : Conv :=
  let n := 2048 / codeWidth (Ins.fd w)
  let at_ := (bits w 2 0 * (n / 32) + i / 32) * 8
  encodeCode (Ins.fd w) m false (k.srBits i) (scaledVal (quantFmt (Ins.fs w))
    (natBits (k.rv (Ins.b w)).toNat (at_ + 8 - 1) at_ % 256) 0
    (k.elem (Ins.a w) (codeWidth (Ins.fs w)) (bits w 2 0 * n + i) % 2 ^ (quantFmt (Ins.fs w)).width))

/-- A core after VDQ from such a format: VLMAX elements of vd, their flags, and SRSEQ counted (R53, R163, R171). -/
def Core.dequantised (k : Core) (w : Word) (m : Rnd) : Core :=
  let rs := (List.range (2048 / codeWidth (Ins.fd w))).map (k.dequantElem w m)
  ((k.advanceSr m).wv (Ins.d w) (packV (codeWidth (Ins.fd w)) (rs.map Conv.code))).raise (sumFlags (rs.map Conv.flags))

theorem semVdq_done (hm : Rnd.ofField (Ins.rnd w) = some m) (hv : k.vstart = 0) (hmask : maskNone w = true)
    (h40 : bits w 40 36 = 0) (h27 : bits w 27 26 = 0) (h7 : bits w 7 3 = 0)
    (hfs : Ins.fs w ∈ [0x01, 0x02, 0x03, 0x04, 0x08]) (hfd : Ins.fd w ∈ [0x10, 0x11, 0x12])
    (hseg : bits w 2 0 < 2048 / (2048 / codeWidth (Ins.fd w) * codeWidth (Ins.fs w))) :
    semVdq s c k w = .done (s.setCore c (k.dequantised w m)) (k.pc + 8) := by
  have notTs4 : Ins.fs w ≠ 0x09 := by rintro h; simp [h] at hfs
  have source : [0x01, 0x02, 0x03, 0x04, 0x08, 0x09].contains (Ins.fs w) = true := by
    simp only [List.mem_cons, List.not_mem_nil, or_false] at hfs
    rcases hfs with h | h | h | h | h <;> rw [h] <;> rfl
  have target : [0x10, 0x11, 0x12].contains (Ins.fd w) = true := by simpa using hfd
  simp only [semVdq, hm]
  rw [if_neg (by simp only [hv, hmask, zf, h40, h27, h7, source, target]; simpa using hseg)]
  simp only [notTs4, decide_false, Bool.false_eq_true, if_false, coreDone, Core.raise_pc, Core.wv_pc, Core.advanceSr_pc]
  rfl

/-- VDQ writes the codes of its elements to vd. -/
theorem Core.dequantised_rv_same (k : Core) (w : Word) (m : Rnd) : (k.dequantised w m).rv (Ins.d w) =
    packV (codeWidth (Ins.fd w)) ((List.range (2048 / codeWidth (Ins.fd w))).map fun i => (k.dequantElem w m i).code) := by
  simp only [Core.dequantised, List.map_map]
  exact Core.rv_wv_same ..

/-- VDQ leaves every other vector register alone. -/
theorem Core.dequantised_rv_other (k : Core) (w : Word) (m : Rnd) {r : Nat} (h : r ≠ Ins.d w) :
    (k.dequantised w m).rv r = k.rv r :=
  (Core.rv_wv_other _ _ _ _ h).trans (congrArg (Map.get 0 · r) (k.advanceSr_v m))

end

/-- Settles O6: each quantisation leaves the quantised core, with the kind that its FN and FD name, and VDQ the dequantised one. -/
theorem quantCompletes : Obligations.QuantCompletes := by
  refine ⟨?_, ?_, ?_, ?_, ?_⟩
  · intro s c w m h hm hok hc hsr
    have ⟨_, _, hrow, hfn, _⟩ := h
    exact completes_of_done h rfl (semVqMx_done hm hok hc hsr (fnV_of_vqMx hrow hfn))
  · intro s c w m h hm hok hc hsr
    have ⟨_, _, hrow, _, _⟩ := h
    exact completes_of_done h rfl (semVqTs4_done hm hok hc hsr (fnV_of_vqTs4 hrow))
  · intro s c w m h hm hok hc hr
    have ⟨_, _, hrow, _, _⟩ := h
    exact completes_of_done h rfl (semVqG8_done hm hok hc hr (fnV_of_vqG8 hrow))
  · intro s c w m h hm hok hfs hr hd hb
    exact completes_of_done h rfl (semVqG8l_done hm hok hfs hr hd hb)
  · intro s c w m h hm hv hmask h40 h27 h7 hfs hfd hseg
    have hdone : Completes (.vdq c) s c ((s.core c).dequantised w m) ((s.core c).pc + 8) :=
      completes_of_done h rfl (semVdq_done hm hv hmask h40 h27 h7 hfs hfd hseg)
    exact ⟨_, hdone, Core.dequantised_rv_same .., fun _ => Core.dequantised_rv_other _ _ _, Core.advanceSr_x ..,
      Core.advanceSr_k .., Core.advanceSr_acc ..⟩

end Sys2Proof.Machine

/-!
The control instructions (O12): events of the software range, the end of a program whose task has other cores that still run,
and what each instruction does once its checks hold.
-/
namespace Sys2Proof.Machine

/-! Events of the software range (R212, R556). -/

/-- Codes from 0x8000 are of class 9. -/
theorem eventClass_software {code : Nat} (h : 0x8000 ≤ code) : eventClass code = (9, 0) := if_pos h

section
variable (s : State) (page code part : Nat) (payload : Word)

/-- An event leaves memory alone. -/
@[simp] theorem State.genEvent_mem : (s.genEvent page code part payload).mem = s.mem :=
  congrArg Prod.fst (s.content_genEventAs page code _ _ part payload false)

/-- An event leaves the cores alone. -/
@[simp] theorem State.genEvent_cores : (s.genEvent page code part payload).cores = s.cores :=
  congrArg (·.2.1) (s.content_genEventAs page code _ _ part payload false)

@[simp] theorem State.genEvent_core (c : Nat) : (s.genEvent page code part payload).core c = s.core c := by
  simp [State.core]

/-- An event whose class the page enables is posted with its code, payload and partition (R555, R556). -/
theorem State.genEvent_posts (h : bit (s.reg page Reg.EV_ENABLE) (eventClass code).1 = true) :
    ∃ e, (s.genEvent page code part payload).events = s.events ++ [e] ∧ e.page = page ∧ e.code = code ∧ e.payload = payload ∧
      e.part = part := by
  have enabled : bit ((s.setReg page Reg.EV_STATUS (setBit (s.reg page Reg.EV_STATUS) (eventClass code).1 true)).reg page
      Reg.EV_ENABLE) (eventClass code).1 = true := by
    rwa [State.reg_setReg_other _ _ _ _ _ _ (by simp [regKey, Reg.EV_ENABLE, Reg.EV_STATUS])]
  unfold State.genEvent State.genEventAs
  simp only [enabled, Bool.or_true, if_true, State.setReg_events]
  exact ⟨_, rfl, rfl, rfl, rfl, rfl⟩

end

/-! The state that an instruction leaves when it has completed. -/

/-- The state in which core c, which was `k0` when its instruction issued, has retired it with the registers of `k`. -/
def State.retired (s : State) (c : Nat) (k0 k : Core) (pc : Nat) : State :=
  (s.setCore c k).modCore c fun k => k0.retire k pc

section
variable (s : State) (c : Nat) (k0 k : Core) (pc : Nat)

@[simp] theorem State.retired_core : (s.retired c k0 k pc).core c = k0.retire k pc := by simp [State.retired, State.modCore]

theorem State.retired_core_other {d : Nat} (h : d ≠ c) : (s.retired c k0 k pc).core d = s.core d := by
  simp [State.retired, State.modCore, State.core_setCore_other, h]

/-- An instruction that leaves the core's task alone leaves it with that task. -/
theorem State.retired_coreTask (h : k.task = (s.core c).task) : (s.retired c k0 k pc).coreTask c = s.coreTask c := by
  have hcore : ((s.retired c k0 k pc).core c).task = (s.core c).task := by rw [State.retired_core]; exact h
  have htasks : (s.retired c k0 k pc).tasks = s.tasks := rfl
  simp only [State.coreTask, State.task, hcore, htasks]

end

/-- An instruction that issues and completes retires, in whatever state its effect leaves. -/
theorem State.issue_retired {s s' : State} {c : Nat} {row : CoreRow} {w : Word} {sem : Core → Word → Issue} {k : Core} {pc : Nat}
    (h : Issues s c row w) (hs : sem (s.core c) w = .done (s'.setCore c k) pc) :
    s.issue c row sem = s'.retired c (s.core c) k pc :=
  State.issue_done h hs

/-! The end of a program (R211, R404). -/

section
variable {s : State} {c t : Nat} {x : Task}

/-- A task that does not run, or has a core that still runs, does not complete. -/
theorem State.kernelCheck_waits (hx : s.task t = some x)
    (h : x.status = .running → ∃ q ∈ x.logical, x.ended.contains (lcidOf q) = false) : s.kernelCheck t = s := by
  simp only [State.kernelCheck, hx]
  refine if_neg ?_
  rintro ⟨hrun, hall⟩
  obtain ⟨q, hq, hnot⟩ := h hrun
  exact Bool.false_ne_true (hnot.symm.trans (List.all_eq_true.mp hall q hq))

/-- The end of a core whose task has other cores that still run changes at most its task's record. -/
theorem State.noteEnd_waits (h : ∀ t x, s.coreTask c = some (t, x) → x.status = .running →
      ∃ q ∈ x.logical, lcidOf q ≠ s.lcid c ∧ x.ended.contains (lcidOf q) = false) :
    s.noteEnd c = s ∨ ∃ t x, s.noteEnd c = s.setTask t x := by
  unfold State.noteEnd
  split
  next t x hx =>
    split
    · refine .inr ⟨t, _, State.kernelCheck_waits (Map.find_set_same ..) fun hrun => ?_⟩
      obtain ⟨q, hq, hother, hnot⟩ := h t x hx hrun
      exact ⟨q, hq, by simpa [hother] using hnot⟩
    · exact .inl rfl
  · exact .inl rfl

/-- Where an instruction of such a core has retired, the note of its end leaves every core, memory and register alone. -/
theorem State.noteEnd_retired {k0 k : Core} {pc : Nat} (hk : k.task = (s.core c).task)
    (h : ∀ t x, s.coreTask c = some (t, x) → x.status = .running →
      ∃ q ∈ x.logical, lcidOf q ≠ s.lcid c ∧ x.ended.contains (lcidOf q) = false) :
    ((s.retired c k0 k pc).noteEnd c).core c = k0.retire k pc ∧
      (∀ d, d ≠ c → ((s.retired c k0 k pc).noteEnd c).core d = s.core d) ∧
      ((s.retired c k0 k pc).noteEnd c).mem = s.mem ∧ ((s.retired c k0 k pc).noteEnd c).regs = s.regs := by
  have htask := s.retired_coreTask c k0 k pc hk
  have hcore := s.retired_core c k0 k pc
  have hother := fun d => s.retired_core_other c k0 k pc (d := d)
  rcases State.noteEnd_waits (s := s.retired c k0 k pc) (fun t x hx => h t x (htask ▸ hx)) with hsame | ⟨t, x, hset⟩
  · rw [hsame]
    exact ⟨hcore, hother, rfl, rfl⟩
  · rw [hset]
    exact ⟨hcore, hother, rfl, rfl⟩

end

/-! What the control instructions do (R207 to R212, Tables 6-16 and 6-17). -/

section
variable {s : State} {c : Nat} {k : Core} {w : Word}

theorem semNop_done (h : bits w 55 0 = 0) : semNop s c k w = .done (s.setCore c k) (k.pc + 8) :=
  if_pos (decide_eq_true h)

/-- BAR without a pending XFER.S or SEND.H arrives at its barrier. -/
theorem semBar_done (h : bits w 55 5 = 0) (ht : ∀ t ∈ k.tokens, t.2.kind ≠ 2 ∧ ¬ (t.2.kind = 4 ∧ t.2.port = 0)) :
    semBar s c k w = .done (s.setCore c { k with wait := .barrier (bits w 3 0) (bit w 4) }) k.pc := by
  have settled : ¬ (k.tokens.any fun t => decide (t.2.kind = 2) || t.2.isSendH) = true := by
    simpa [Token.isSendH] using ht
  rw [semBar, if_neg settled]
  exact if_pos (decide_eq_true h)

/-- TWAIT on idle tokens goes on. -/
theorem semTwait_done (h : bits w 55 16 = 0) (hmask : bits w 15 0 ≠ 0) (hidle : k.tokensIdle (bits w 15 0) = true) :
    semTwait s c k w = .done (s.setCore c k) (k.pc + 8) := by
  rw [semTwait, if_neg (by simp [hidle]), if_neg (by simp [zf, h, hmask])]
  rfl

/-- SYNC.I without a pending XFER.L or RECV discards the instruction buffer. -/
theorem semSyncI_done (h : bits w 55 0 = 0) (ht : ∀ t ∈ k.tokens, t.2.kind ≠ 1 ∧ t.2.kind ≠ 5) :
    semSyncI s c k w = .done (s.setCore c { k with ibuf := [] }) (k.pc + 8) := by
  have settled : ¬ (k.tokens.any fun t => decide (t.2.kind = 1) || decide (t.2.kind = 5)) = true := by simpa using ht
  rw [semSyncI, if_neg settled]
  exact if_pos (decide_eq_true h)

theorem semCrd_done {v : Word} (h : bits w 50 8 = 0) (hv : s.controlReg c k (bits w 7 0) = some v) :
    semCrd s c k w = .done (s.setCore c (k.wx (Ins.d w) v)) (k.pc + 8) := by
  rw [semCrd, if_neg (by simp [zf, h])]
  simp only [hv, coreDone, Core.wx_pc]

section
variable (hd : bits w 55 51 = 0) (hr : bits w 45 8 = 0)
include hd hr

theorem semCwr_fflags (hn : bits w 7 0 = 0) : semCwr s c k w =
    .done (s.setCore c { k with fflags := fflagsOf (k.rx (Ins.a w)) }) (k.pc + 8) := by
  simp [semCwr, zf, hd, hr, hn, coreDone]

theorem semCwr_srkey (hn : bits w 7 0 = 1) : semCwr s c k w =
    .done (s.setCore c { k with srkey := k.rx (Ins.a w), srseq := 0 }) (k.pc + 8) := by
  simp [semCwr, zf, hd, hr, hn, coreDone]

theorem semCwr_vstart (hn : bits w 7 0 = 5) : semCwr s c k w =
    .done (s.setCore c { k with vstart := bits (k.rx (Ins.a w)) 4 0 }) (k.pc + 8) := by
  simp [semCwr, zf, hd, hr, hn, coreDone]

end

theorem semEvt_done (hd : bits w 55 51 = 0) (hr : bits w 45 15 = 0) : semEvt s c k w =
    .done ((s.genEvent (corePage c) (0x8000 + bits w 14 0) (s.corePart c) (k.rx (Ins.a w))).setCore c k) (k.pc + 8) := by
  rw [semEvt, if_neg (by simp [zf, hd, hr])]
  rfl

/-- END with nothing outstanding ends the program. -/
theorem semEnd_done (h : bits w 55 0 = 0) (hmq : k.mq = []) (hloads : k.loads = []) (hidle : k.tokensIdle 0xFFFF = true) :
    semEnd s c k w = .done (s.setCore c { k with ended := true }) ((k.pc + 8) % 2 ^ 18) := by
  rw [semEnd, if_neg (by simp [hmq, hloads, hidle]), if_neg (by simp [zf, h])]

end

/-- An EVT whose class the page of its compute die enables posts its event and goes on (R212, R556). -/
theorem evt_completes {s : State} {c : Nat} {w : Word} (h : Issues s c .evt w) (hd : bits w 55 51 = 0) (hr : bits w 45 15 = 0)
    (hen : bit (s.reg (corePage c) Reg.EV_ENABLE) 9 = true) :
    ∃ t e, exec (.evt c) s = .next t ∧ t.events = s.events ++ [e] ∧ e.page = corePage c ∧
      e.code = 0x8000 + bits w 14 0 ∧ e.payload = (s.core c).rx (Ins.a w) ∧ e.part = s.corePart c ∧
      t.core c = (s.core c).retire (s.core c) ((s.core c).pc + 8) ∧ (∀ d, d ≠ c → t.core d = s.core d) ∧ t.mem = s.mem := by
  have hclass : eventClass (0x8000 + bits w 14 0) = (9, 0) := eventClass_software (Nat.le_add_right ..)
  obtain ⟨e, hevents, hpage, hcode, hpayload, hpart⟩ := s.genEvent_posts (corePage c) (0x8000 + bits w 14 0) (s.corePart c)
    ((s.core c).rx (Ins.a w)) (by rw [hclass]; exact hen)
  refine ⟨_, e, congrArg Host.Outcome.next (State.issue_retired h (semEvt_done hd hr)), hevents, hpage, hcode, hpayload, hpart,
    State.retired_core .., fun d hne => ?_, ?_⟩
  · rw [State.retired_core_other _ _ _ _ _ hne, State.genEvent_core]
  · exact State.genEvent_mem ..

/-- An END with nothing outstanding ends the program of its core, and the task's KERNEL waits for the other cores (R211, R404). -/
theorem endProg_completes {s : State} {c : Nat} {w : Word} (h : Issues s c .endProg w) (hz : bits w 55 0 = 0)
    (hmq : (s.core c).mq = []) (hloads : (s.core c).loads = []) (hidle : (s.core c).tokensIdle 0xFFFF = true)
    (hothers : ∀ k x, s.coreTask c = some (k, x) → x.status = .running →
      ∃ q ∈ x.logical, lcidOf q ≠ s.lcid c ∧ x.ended.contains (lcidOf q) = false) :
    ∃ t, exec (.endProg c) s = .next t ∧
      t.core c = (s.core c).retire { s.core c with ended := true } (((s.core c).pc + 8) % 2 ^ 18) ∧
      (∀ d, d ≠ c → t.core d = s.core d) ∧ t.mem = s.mem ∧ t.regs = s.regs := by
  have hexec : exec (.endProg c) s = .next ((s.retired c (s.core c) { s.core c with ended := true }
      (((s.core c).pc + 8) % 2 ^ 18)).noteEnd c) := by
    rw [← State.issue_retired h (semEnd_done hz hmq hloads hidle)]
    rfl
  exact ⟨_, hexec, State.noteEnd_retired rfl hothers⟩

/-- Settles O12: each instruction's checks hold, so that it completes with the effect of its row. -/
theorem controlCompletes : Obligations.ControlCompletes := by
  refine ⟨?_, ?_, ?_, ?_, ?_, ?_, ?_, ?_⟩
  · intro s c w h hz
    exact completes_of_done h rfl (semNop_done hz)
  · intro s c w h hz ht
    exact completes_of_done h rfl (semBar_done hz ht)
  · intro s c w h hz hmask hidle
    exact completes_of_done h rfl (semTwait_done hz hmask hidle)
  · intro s c w h hz ht
    exact completes_of_done h rfl (semSyncI_done hz ht)
  · intro s c w v h hz hv
    exact completes_of_done h rfl (semCrd_done hz hv)
  · intro s c w h hd hr
    exact ⟨fun hn => completes_of_done h rfl (semCwr_fflags hd hr hn), fun hn => completes_of_done h rfl (semCwr_srkey hd hr hn),
      fun hn => completes_of_done h rfl (semCwr_vstart hd hr hn)⟩
  · intro s c w h hd hr hen
    exact evt_completes h hd hr hen
  · intro s c w h hz hmq hloads hidle hothers
    exact endProg_completes h hz hmq hloads hidle hothers

end Sys2Proof.Machine

/-!
Cores that may not issue (O58) and the instructions of a core: every command of Table 6-1 with a row of its own is the issue of that row.
-/
namespace Sys2Proof.Machine

/-- A command that is the issue of its row on core c (R75, R182). -/
def IsIssue (c : Nat) (p : CoreRow × Instr) : Prop :=
  ∃ sem : State → Core → Word → Issue, ∀ s, exec p.2 s = .next (s.issue c p.1 (sem s))

/-- Every row's command is the issue of that row. -/
theorem isIssue_of_mem {c : Nat} {e : Ecc} : ∀ p ∈ issueRows c e, IsIssue c p := by
  simp only [issueRows, ownRows, vectorRows, List.forall_mem_append, List.forall_mem_cons, List.not_mem_nil, false_imp_iff,
    implies_true, and_true]
  and_intros
  all_goals exact ⟨_, fun _ => rfl⟩

/-- A core that may not issue, has not fetched its instruction, or stands at another row's, is as before (R80, R86, R93; log
row 5). -/
theorem State.issue_held {s : State} {c : Nat} {row : CoreRow} {sem : Core → Word → Issue}
    (h : (s.core c).status ≠ .running ∨ (s.core c).ended = true ∨ (s.core c).wait ≠ .none ∨ (s.core c).fetched = none ∨
      ∃ w, (s.core c).fetched = some w ∧ rowOf w ≠ row) : s.issue c row sem = s := by
  unfold State.issue
  dsimp only
  split
  · rfl
  next w hw =>
    refine if_neg fun hissue => ?_
    simp only [Core.canIssue, Bool.and_eq_true, Bool.not_eq_true', decide_eq_true_eq] at hissue
    obtain ⟨⟨⟨⟨hrun, hended⟩, hwait⟩, -⟩, hrow⟩ := hissue
    rcases h with h | h | h | h | ⟨w', hw', hne⟩
    · exact h hrun
    · exact Bool.false_ne_true (hended.symm.trans h)
    · exact h hwait
    · exact Option.some_ne_none w (hw.symm.trans h)
    · exact hne (Option.some.inj (hw'.symm.trans hw) ▸ hrow)

/-- Settles O58: each command is the issue of its row, and such a core does not issue. -/
theorem heldCores : Obligations.HeldCores := by
  intro s c e p hp h
  obtain ⟨sem, hexec⟩ := isIssue_of_mem p hp
  rw [hexec, State.issue_held h]

end Sys2Proof.Machine

/-!
x0 in the register file, in saves and in restores (O54).
-/
namespace Sys2Proof.Machine

/-- A save writes x0 at record offset 0x6_4000 (Tables 3-2 and 3-3), where the word is zero (R70). -/
theorem Core.recWord_x0 (k : Core) (info : Word) : k.recWord info 0x64000 = 0 := rfl

/-! What a restore reads: words that agree but for that of x0 describe the same core. -/

section
variable {f g : Nat → Word} (h : ∀ o, o ≠ 0x64000 → f o = g o)
include h

theorem recNat_congr {off n : Nat} (ho : off + 8 * n ≤ 0x64000 ∨ 0x64000 < off) : recNat f off n = recNat g off n := by
  unfold recNat
  congr 1
  refine List.map_congr_left fun i hi => ?_
  rw [h]
  have := List.mem_range.mp hi
  omega

theorem tokenOf_congr (t : Nat) : tokenOf f t = tokenOf g t := by
  simp (disch := omega) only [tokenOf, h]

theorem wbankOf_congr {b : Nat} (hb : b < 4) : wbankOf f b = wbankOf g b := by
  have elems := recNat_congr h (off := 0x62000 + 0x800 * b) (n := 128) (by omega)
  have side := recNat_congr h (off := 0x62000 + 0x800 * b + 0x400) (n := 32) (by omega)
  have tag := h (0x62000 + 0x800 * b + 0x500) (by omega)
  simp only [wbankOf, elems, side, tag]

theorem mqOf_congr (n i : Nat) : mqOf f n i = mqOf g n i := by
  induction n generalizing i with
  | zero => rfl
  | succ n ih => simp (disch := omega) only [mqOf, h, ih]

theorem faultOf_congr : faultOf f = faultOf g := by
  simp (disch := decide) only [faultOf, h]

/-- A restore ignores the saved value of x0 (R70, R74). -/
theorem coreOfRecord_congr (k : Core) : coreOfRecord k f = coreOfRecord k g := by
  have port : ∀ p, f (0x642E0 + 16 * (p - 1)) = g (0x642E0 + 16 * (p - 1)) := fun p => h _ (by omega)
  have scalars : (List.range 31).map (fun i => (i + 1, f (0x64008 + 8 * i))) =
      (List.range 31).map fun i => (i + 1, g (0x64008 + 8 * i)) :=
    List.map_congr_left fun i _ => by rw [h _ (by omega)]
  have vectors : (List.range 32).map (fun i => (i, BitVec.ofNat 2048 (recNat f (0x60000 + 256 * i) 32))) =
      (List.range 32).map fun i => (i, BitVec.ofNat 2048 (recNat g (0x60000 + 256 * i) 32)) :=
    List.map_congr_left fun i hi => by rw [recNat_congr h (.inl (by have := List.mem_range.mp hi; omega))]
  have masks : (List.range 8).map (fun i => (i, BitVec.ofNat 256 (recNat f (0x64100 + 32 * i) 4))) =
      (List.range 8).map fun i => (i, BitVec.ofNat 256 (recNat g (0x64100 + 32 * i) 4)) :=
    List.map_congr_left fun i _ => by rw [recNat_congr h (.inr (by omega))]
  have banks : (List.range 4).map (fun b => (b, wbankOf f b)) = (List.range 4).map fun b => (b, wbankOf g b) :=
    List.map_congr_left fun b hb => by rw [wbankOf_congr h (List.mem_range.mp hb)]
  have units : ∀ i j, recNat f (0x65000 + 512 * i + 32 * j) 4 = recNat g (0x65000 + 512 * i + 32 * j) 4 :=
    fun i j => recNat_congr h (.inr (by omega))
  simp (disch := decide) only [coreOfRecord, scalars, vectors, masks, banks, port, units, h, mqOf_congr h, tokenOf_congr h,
    faultOf_congr h]

end

/-- Settles O54: the file of scalar registers has no entry for x0, and no word of a record but that at 0x6_4000 stands for it. -/
theorem zeroRegister : Obligations.ZeroRegister := by
  refine ⟨Core.rx_zero, Core.wx_zero, fun k n m v hn => ?_, Core.recWord_x0, fun k f g h => coreOfRecord_congr h k⟩
  split
  next hm => rw [hm, Core.rx_wx_same k n v hn]
  next hm => exact Core.rx_wx_other k n m v hm

end Sys2Proof.Machine

/-!
The frame of a core's instructions (O56) fails: a load that meets a corrected error counts it on the page of its compute die (R85).
-/
namespace Sys2Proof.Machine

/-- Core 0 runs a word at its PC; every other unit is as reset leaves it. -/
def State.runs (w : Word) : State :=
  { State.reset with cores := [(0, { status := .running, ibuf := [(0, w.setWidth 512)] })] }

/-- LD.L of the byte at local-store address 0, into x0 (Table 6-10). -/
def ldLWord : Word := 0x8000000000000000

theorem ldLWord_issues : Issues (State.runs ldLWord) 0 .ldL ldLWord := by decide +kernel

/-- A corrected error changes the registers: its counter has risen (R85). -/
theorem State.countEcc_corrected_regs_ne (s : State) (c : Nat) : (s.countEcc c .corrected).regs ≠ s.regs := by
  intro h
  have counter : (s.countEcc c .corrected).reg (corePage c) (Reg.CNT + 8 * (Config.eccCounter % 8)) =
      s.reg (corePage c) (Reg.CNT + 8 * (Config.eccCounter % 8)) + 1 :=
    State.reg_setReg_same ..
  have same : ∀ page off, (s.countEcc c .corrected).reg page off = s.reg page off := by
    intro page off
    simp only [State.reg, h]
  rw [same] at counter
  bv_omega

/-- Refutes O56: LD.L of core 0 with a corrected error raises a counter of its compute die's page (R85), so the registers are not
as before. -/
theorem not_coreFrame : ¬ Obligations.CoreFrame := by
  intro h
  have loads : semLdL (State.runs ldLWord) 0 .corrected ((State.runs ldLWord).core 0) ldLWord =
      .done (((State.runs ldLWord).countEcc 0 .corrected).setCore 0 ((State.runs ldLWord).core 0)) 8 := by
    rfl
  have frame := (h (State.runs ldLWord) _ 0 .corrected (.ldL, .ldL 0 .corrected) (by simp [ownRows]) rfl).1
  have regs := congrArg State.regs frame
  rw [State.issue_done ldLWord_issues loads] at regs
  exact State.countEcc_corrected_regs_ne _ _ regs

end Sys2Proof.Machine

/-!
Where memory is not in canonical form (log row 4), a byte written as zero need not read as zero: an entry of the same address
that stands behind the one removed shows through. The statements about stores (O9) and about arrivals of SEND.H (O14) are about
every state, `Safe` or not, and so they fail; `StepKeepsMemory` says that no step of a module at reset leads to such a state.
-/
namespace Sys2Proof.Machine

/-- A memory that lists the byte at an address twice. -/
def Memory.doubled (a : Nat) : Memory := [(a, 1), (a, 1)]

/-- Writing zero removes one of the two entries. -/
theorem Memory.write_doubled (a : Nat) : (Memory.doubled a).write a 0 = [(a, 1)] := by
  simp [Memory.doubled, Memory.write]

/-- ST.L of the low byte of x0 to local-store address 0 (Table 6-10). -/
def stLWord : Word := 0x8100000000000000

/-- Core 0 runs that ST.L over a byte that memory lists twice. -/
def storesOverDoubled : State := { State.runs stLWord with mem := Memory.doubled (lsBase 0) }

/-- Refutes O9: ST.L of a zero byte over a byte that memory lists twice removes one entry, and the byte still reads 1. The state
is not `Safe`. -/
theorem not_localAccessCompletes : ¬ Obligations.LocalAccessCompletes := by
  rintro ⟨-, store, -⟩
  obtain ⟨m, ⟨t, ht, -, hm, -⟩, hread, -⟩ := store storesOverDoubled 0 0 1 stLWord (by decide +kernel) (by decide +kernel)
    (by decide +kernel) (by decide +kernel) (by decide +kernel) (by decide +kernel) (by decide +kernel) (by decide +kernel)
  have stored : t.mem = (Memory.doubled (lsBase 0)).write (lsBase 0) 0 := Host.Outcome.next.inj ht ▸ rfl
  rw [← hm, stored, Memory.write_doubled] at hread
  revert hread
  decide +kernel

/-- The token of a SEND.H of the 32 B at local-store address 0 to core 1, for its token 0 at local-store address 0. -/
def sendHZero : Token := { kind := 4, length := 32, dest := 0x100000000 }

/-- Core 0 sends 32 zero bytes to core 1, whose token 0 is armed over a byte that memory lists twice. -/
def sendsOverDoubled : State :=
  { State.reset with
    mem := Memory.doubled (lsBase 1)
    cores := [(0, { tokens := [(0, sendHZero)] }), (1, { task := some 0, tokens := [(0, { kind := 3, length := 32 })] })] }

/-- Refutes O14: a SEND.H of 32 zero bytes over a byte that memory lists twice removes one entry, and the byte still reads 1. The
state is not `Safe`. -/
theorem not_streamsComplete : ¬ Obligations.StreamsComplete := by
  rintro ⟨-, -, arrival, -⟩
  obtain ⟨r, hr, hread, -⟩ := arrival sendsOverDoubled 0 1 0 sendHZero (by decide +kernel) (by decide +kernel)
    (by decide +kernel) (by decide +kernel) (by decide +kernel) (by decide +kernel) (by decide +kernel) (by decide +kernel)
    (by decide +kernel) (by decide +kernel)
  have written : r.mem = (Memory.doubled (lsBase 1)).writeBytes (lsBase 1) (List.replicate 32 0) := by
    have hexec : exec (.sendHArrival 0 .ok) sendsOverDoubled = .next _ := rfl
    rw [← Host.Outcome.next.inj (hexec.symm.trans hr)]
    decide +kernel
  rw [written] at hread
  revert hread
  decide +kernel

end Sys2Proof.Machine

/-!
The transfers that tokens stand for (O11): the checks of their operands, and what each instruction does once they hold.
-/
namespace Sys2Proof.Machine

/-! Words of the memory rows (Table 6-1) and ranges of local store (R81, R198). -/

/-- Of the rows of gathers, scatters and transfers, the opcode of each. -/
theorem opc_of_rowOf_access {w : Word} {row : CoreRow} {o : Nat} (h : rowOf w = row)
    (hm : (row, o) ∈ [(CoreRow.gatherG, 0x8C), (.scatterG, 0x8D), (.xferL, 0x90), (.xferS, 0x91)]) : Ins.opc w = o := by
  subst h
  unfold rowOf at hm
  dsimp only at hm
  split at hm
  all_goals grind

/-- A range within local store that is aligned passes check 5 (R81). -/
theorem lsCheck_none {addr len align : Nat} (hlt : addr < 0x40000) (hend : addr + len ≤ 0x40000) (ha : addr % align = 0) :
    lsCheck addr len align = none := by
  rw [lsCheck, if_neg (by omega), if_neg (by simpa using ha)]

/-- A RECV whose turn it is not, or whose FIFO is empty, takes no unit (R202, R203). -/
theorem pumpRecv_waits {s : State} {c port : Nat} (n : Nat)
    (h : (s.core c).recvTurn port = none ∨ (s.core c).fifo.get [] port = []) : pumpRecv c port n s = s := by
  cases n with
  | zero => rfl
  | succ n =>
    unfold pumpRecv
    dsimp only
    split
    next t u rest hturn hunit => simp [hturn, hunit] at h
    next => rfl

/-- A range word that is sound names at least one unit. -/
theorem rangeLen_pos {r : Word} (h : rangeOk r = true) : 32 ≤ rangeLen r := by
  simp only [rangeOk, decide_eq_true_eq] at h
  obtain ⟨-, -, -, hmin, -⟩ := h
  exact hmin

section
variable {s : State} {c : Nat} {k : Core} {w r : Word} (hok : rangeOk r = true) (hend : rangeAddr r + rangeLen r ≤ 0x40000)
  (halign : rangeAddr r % 32 = 0)
include hok hend halign

theorem rangeCheck_none : rangeCheck r = none :=
  lsCheck_none (by have := rangeLen_pos hok; omega) hend halign

theorem streamCheck_none (hn : (s.neighbour c (Ins.port w)).isSome) : streamCheck s c w r = none := by
  rw [streamCheck, rangeCheck_none hok hend halign]
  exact if_neg (by rw [Option.isNone_iff_eq_none]; exact Option.isSome_iff_ne_none.mp hn)

/-! What the instructions do (R79, R199, R202, R205). -/

/-- XFER.L and XFER.S start a token of KIND 1 or 2 (R199). -/
theorem semXfer_done {load : Bool} (hr : r = k.rx (Ins.b w)) (hload : decide (Ins.opc w = 0x90) = load)
    (hbusy : k.tokenBusy (Ins.tk w) = false)
    (hheld : (if load then k.writeHeld (rangeAddr r, rangeLen r) else k.readHeld (rangeAddr r, rangeLen r)) = false)
    (h55 : bits w 55 51 = 0) (h40 : bits w 40 31 = 0) (h28 : bits w 28 24 = 0) (h19 : bits w 19 0 = 0)
    (hga : (k.rx (Ins.a w)).toNat % 32 = 0) :
    semXfer s c k w = coreDone s c (k.startToken (Ins.tk w) (if load then 1 else 2) r (k.rx (Ins.a w)).toNat 0 0) := by
  subst hr hload
  rw [semXfer, if_neg (not_or.mpr ⟨ne_true_of_eq_false hbusy, ne_true_of_eq_false hheld⟩), if_neg (by simp [zf, h55, h40, h28, h19, hok]),
    rangeCheck_none hok hend halign]
  exact if_neg (by simpa using hga)

/-- SEND starts a token of KIND 4 (R202). -/
theorem semSend_done (hr : r = k.rx (Ins.a w)) (hbusy : k.tokenBusy (Ins.tkT w) = false)
    (hheld : k.readHeld (rangeAddr r, rangeLen r) = false) (henc : streamEncOk w = true)
    (hn : (s.neighbour c (Ins.port w)).isSome) :
    semSend s c k w = coreDone s c (k.startToken (Ins.tkT w) 4 r 0 (Ins.port w) 0) := by
  subst hr
  rw [semSend, if_neg (by simp [hbusy, hheld]), if_neg (by simp [henc, hok]), streamCheck_none hok hend halign hn]
  rfl

/-- RECV starts a token of KIND 5 (R202), here while its FIFO holds nothing. -/
theorem semRecv_done (hr : r = k.rx (Ins.a w)) (hbusy : k.tokenBusy (Ins.tkT w) = false)
    (hheld : k.writeHeld (rangeAddr r, rangeLen r) = false) (henc : streamEncOk w = true)
    (hn : (s.neighbour c (Ins.port w)).isSome) (hf : k.fifo.get [] (Ins.port w) = []) :
    semRecv s c k w = coreDone s c (k.startToken (Ins.tkT w) 5 r 0 (Ins.port w) 0) := by
  subst hr
  rw [semRecv, if_neg (by simp [hbusy, hheld]), if_neg (by simp [henc, hok]), streamCheck_none hok hend halign hn]
  exact congrArg (Issue.done · (k.pc + 8)) (pumpRecv_waits 17 (.inr (by rw [State.core_setCore]; exact hf)))

/-- SEND.H starts a token of KIND 4 and PORT 0 with its destination word (R202, R204; log row 13). -/
theorem semSendH_done {d : Word} (hr : r = k.rx (Ins.a w)) (hd : d = k.rx (Ins.b w)) (hbusy : k.tokenBusy (Ins.tkT w) = false)
    (hheld : k.readHeld (rangeAddr r, rangeLen r) = false) (h55 : bits w 55 51 = 0) (h36 : bits w 36 0 = 0)
    (hdest : destOk d = true) (hdend : Dest.lsaddr d + rangeLen r ≤ 0x40000) (hdalign : Dest.lsaddr d % 32 = 0) :
    semSendH s c k w = coreDone s c (k.startToken (Ins.tkT w) 4 r 0 0 d) := by
  subst hr hd
  have hdcheck := lsCheck_none (by have := rangeLen_pos hok; omega) hdend hdalign
  rw [semSendH, if_neg (by simp [hbusy, hheld]), if_neg (by simp [zf, h55, h36, hok, hdest]), rangeCheck_none hok hend halign]
  dsimp only
  rw [hdcheck]
  rfl

/-- ARM starts a token of KIND 3 (R205). -/
theorem semArm_done (hr : r = k.rx (Ins.a w)) (hbusy : k.tokenBusy (Ins.tkT w) = false)
    (hheld : k.writeHeld (rangeAddr r, rangeLen r) = false) (h55 : bits w 55 51 = 0) (h45 : bits w 45 41 = 0)
    (h36 : bits w 36 0 = 0) : semArm s c k w = coreDone s c (k.startToken (Ins.tkT w) 3 r 0 0 0) := by
  subst hr
  rw [semArm, if_neg (by simp [hbusy, hheld]), if_neg (by simp [zf, h55, h45, h36, hok]), rangeCheck_none hok hend halign]
  rfl

end

/-- Settles O11: each instruction's checks hold, so that it starts its token. -/
theorem tokenCompletes : Obligations.TokenCompletes := by
  refine ⟨?_, ?_, ?_, ?_, ?_, ?_⟩
  · intro s c w r h hr hbusy hheld h55 h40 h28 h19 hok hend halign hga
    have ⟨_, _, hrow, _, _⟩ := h
    have hload : decide (Ins.opc w = 0x90) = true := by simp [opc_of_rowOf_access hrow]
    exact completes_of_done h rfl (semXfer_done hok hend halign hr hload hbusy hheld h55 h40 h28 h19 hga)
  · intro s c w r h hr hbusy hheld h55 h40 h28 h19 hok hend halign hga
    have ⟨_, _, hrow, _, _⟩ := h
    have hload : decide (Ins.opc w = 0x90) = false := by simp [opc_of_rowOf_access hrow]
    exact completes_of_done h rfl (semXfer_done hok hend halign hr hload hbusy hheld h55 h40 h28 h19 hga)
  · intro s c w r h hr hbusy hheld henc hok hend halign hn
    exact completes_of_done h rfl (semSend_done hok hend halign hr hbusy hheld henc hn)
  · intro s c w r h hr hbusy hheld henc hok hend halign hn hf
    exact completes_of_done h rfl (semRecv_done hok hend halign hr hbusy hheld henc hn hf)
  · intro s c w r d h hr hd hbusy hheld h55 h36 hok hdest hend halign hdend hdalign
    exact completes_of_done h rfl (semSendH_done hok hend halign hr hd hbusy hheld h55 h36 hdest hdend hdalign)
  · intro s c w r h hr hbusy hheld h55 h45 h36 hok hend halign
    exact completes_of_done h rfl (semArm_done hok hend halign hr hbusy hheld h55 h45 h36)

end Sys2Proof.Machine

/-!
Synchronous accesses to global memory (O10): what each instruction presents once its checks hold.
-/
namespace Sys2Proof.Machine

/-- A core that presents an access, with PC at its instruction (R80). -/
def Core.presents (k : Core) (w : Word) (va elem : Nat) : Core := { k with wait := .access w va elem false }

section
variable {s : State} {c va : Nat} {k : Core} {w : Word}

theorem semLdG_presents (hva : va = lsAddr k w) (h45 : bits w 45 31 = 0) (h28 : bits w 28 27 = 0) (h23 : bits w 23 16 = 0)
    (halign : va % 2 ^ Ins.size w = 0) : semLdG s c k w = .done (s.setCore c (k.presents w va 0)) k.pc := by
  subst hva
  rw [semLdG, if_neg (by simp [zf, h45, h28, h23])]
  exact if_neg (not_not.mpr halign)

theorem semStG_presents (hva : va = lsAddr k w) (h45 : bits w 45 31 = 0) (h28 : bits w 28 27 = 0) (h24 : bits w 24 16 = 0)
    (halign : va % 2 ^ Ins.size w = 0) : semStG s c k w = .done (s.setCore c (k.presents w va 0)) k.pc := by
  subst hva
  rw [semStG, if_neg (by simp [zf, h45, h28, h24])]
  exact if_neg (not_not.mpr halign)

theorem semAmoG_presents (hva : va = (k.rx (Ins.a w)).toNat) (h40 : Ins.aop w ≠ 9 → bits w 40 36 = 0) (h35 : bits w 35 31 = 0)
    (h28 : bits w 28 27 = 0) (h24 : bits w 24 20 = 0) (h15 : bits w 15 0 = 0) (hsize : 2 ≤ Ins.size w) (haop : Ins.aop w ≤ 9)
    (halign : va % 2 ^ Ins.size w = 0) : semAmoG s c k w = .done (s.setCore c (k.presents w va 0)) k.pc := by
  subst hva
  rw [semAmoG, if_neg (by simpa [zf, h35, h28, h24, h15] using h40), if_neg (by omega)]
  exact if_neg (not_not.mpr halign)

/-- The walk of a gather or scatter stops at an aligned active element, whose access it presents (R176). -/
theorem gatherFrom_presents {i : Nat} (n : Nat) (hi : i < k.vl) (hactive : k.active (Ins.msel w) i = true)
    (hva : va = elemAddr k w i) (halign : va % (k.ew / 8) = 0) : gatherFrom w (n + 1) k i = k.presents w va i := by
  subst hva
  rw [gatherFrom, if_neg (by omega), if_pos hactive]
  exact if_neg (not_not.mpr halign)

/-- A gather or scatter whose element VSTART is active presents the access of that element (R175, R176). -/
theorem semGather_presents (h40 : bits w 40 36 = 0) (h26 : bits w 26 0 = 0)
    (hmask : (if isGather w then maskPolicy w else maskSelects w) = true) (hvl : k.vl ≤ 32)
    (hindex : isGather w = true → Ins.d w ≠ Ins.b w) (hi : k.vstart < k.vl) (hactive : k.active (Ins.msel w) k.vstart = true)
    (hva : va = elemAddr k w k.vstart) (halign : va % (k.ew / 8) = 0) :
    semGather s c k w = .done (s.setCore c (k.presents w va k.vstart)) k.pc := by
  have legal : ¬ (!zf w 40 36 ∨ !zf w 26 0 ∨ !(if isGather w then maskPolicy w else maskSelects w) ∨ 32 < k.vl ∨
      (isGather w ∧ Ins.d w = Ins.b w)) := by
    simpa [zf, h40, h26, hmask, Nat.not_lt.mpr hvl] using hindex
  rw [semGather, if_neg legal, gatherFrom_presents 32 hi hactive hva halign]
  rfl

end

/-- Settles O10: each instruction's checks hold, so that it presents its access. -/
theorem globalAccessCompletes : Obligations.GlobalAccessCompletes := by
  refine ⟨?_, ?_, ?_, ?_, ?_⟩
  · intro s c va w h hva h45 h28 h23 halign
    exact completes_of_done h rfl (semLdG_presents hva h45 h28 h23 halign)
  · intro s c va w h hva h45 h28 h24 halign
    exact completes_of_done h rfl (semStG_presents hva h45 h28 h24 halign)
  · intro s c va w h hva h40 h35 h28 h24 h15 hsize haop halign
    exact completes_of_done h rfl (semAmoG_presents hva h40 h35 h28 h24 h15 hsize haop halign)
  · intro s c va w h h40 h26 hmask hvl hindex hi hactive hva halign
    have ⟨_, _, hrow, _, _⟩ := h
    have gather : isGather w = true := by simp [isGather, opc_of_rowOf_access hrow]
    exact completes_of_done h rfl (semGather_presents h40 h26 (by rwa [if_pos gather]) hvl (fun _ => hindex) hi hactive hva halign)
  · intro s c va w h h40 h26 hmask hvl hi hactive hva halign
    have ⟨_, _, hrow, _, _⟩ := h
    have scatter : isGather w = false := by simp [isGather, opc_of_rowOf_access hrow]
    exact completes_of_done h rfl (semGather_presents h40 h26 (by simpa [scatter] using hmask) hvl (by simp [scatter]) hi hactive
      hva halign)

end Sys2Proof.Machine

/-!
The matrix instructions (O8): what MMA, MLW, MSW and MRD do once their checks hold.
-/
namespace Sys2Proof.Machine

section
variable {s : State} {c : Nat} {k : Core} {w : Word}

/-- An MMA that nothing holds and that passes its checks is queued (R95, R125). -/
theorem semMma_done {sh : Shape} (hroom : k.mq.length < 4)
    (hbanks : ((arraysOf sh w).any fun a => k.banksLoading.contains (bankKey a (k.bankAfter k.mq a))) = false)
    (hread : (mmaRanges w (k.rx (Ins.d w)) (k.rx (Ins.a w)) 0).any k.readHeld = false)
    (hcheck : mmaCheck s c k k.mq sh w (k.rx (Ins.d w)) (k.rx (Ins.a w)) = none) :
    semMma s c sh k w = coreDone s c (k.enqueue w (k.rx (Ins.d w)) (k.rx (Ins.a w))) := by
  have free : ((arraysOf sh w).map fun a => bankKey a (k.bankAfter k.mq a)).any k.banksLoading.contains = false := by
    rw [List.any_map]
    exact hbanks
  unfold semMma
  extract_lets opa opb banks
  rw [if_neg (not_or.mpr ⟨Nat.not_le.mpr hroom, not_or.mpr ⟨ne_true_of_eq_false free, ne_true_of_eq_false hread⟩⟩), hcheck]
  rfl

/-- An MLW that nothing holds and that passes its checks starts its load (R124, R125). -/
theorem semMlw_done (huse : (mlwBanks w).any k.banksInUse.contains = false)
    (hload : (mlwBanks w).any k.banksLoading.contains = false)
    (hread : (mlwRanges w (k.rx (Ins.d w)) (k.rx (Ins.a w))).any k.readHeld = false) (hok : mlwOk w (k.rx (Ins.a w)) = true)
    (hcheck : lsCheckAll (mlwRanges w (k.rx (Ins.d w)) (k.rx (Ins.a w))) = none) :
    semMlw s c k w =
      coreDone s c { k with loads := k.loads ++ [⟨w, k.rx (Ins.d w), k.rx (Ins.a w), k.pc⟩] } := by
  unfold semMlw
  extract_lets opa opb banks
  rw [if_neg (not_or.mpr ⟨ne_true_of_eq_false huse, not_or.mpr ⟨ne_true_of_eq_false hload, ne_true_of_eq_false hread⟩⟩),
    if_neg (by simp [opb, hok]), hcheck]

/-! MSW (R127). -/

/-- ACTIVE of an array moves to its other bank. -/
def Core.switchBank (k : Core) (a : Nat) : Core :=
  let on := 1 - k.activeBank a
  let wb := k.wbank.mod {} (bankKey a on) fun b => { b with active := true }
  { k with wbank := wb.mod {} (bankKey a (1 - on)) fun b => { b with active := false } }

theorem Core.switchBanks_eq (k : Core) (m : Nat) : k.switchBanks m = (maskArrays m).foldl Core.switchBank k := rfl

theorem Core.activeBank_switchBank_same (k : Core) (a : Nat) : (k.switchBank a).activeBank a = 1 - k.activeBank a := by
  unfold Core.switchBank
  unfold Core.activeBank
  split <;> simp [Map.mod, Map.get_set_same, Map.get_set_other, bankKey]

theorem Core.activeBank_switchBank_other (k : Core) {a b : Nat} (h : b ≠ a) :
    (k.switchBank a).activeBank b = k.activeBank b := by
  have banks : ∀ i, i < 2 → bankKey b 1 ≠ bankKey a i := by simp only [bankKey]; omega
  unfold Core.switchBank
  generalize k.activeBank a = i
  have on := banks (1 - i) (by omega)
  have off := banks (1 - (1 - i)) (by omega)
  simp only [Core.activeBank, Map.mod, Map.get_set_other _ _ _ _ _ on, Map.get_set_other _ _ _ _ _ off]

/-- The arrays that a mask of two bits names. -/
theorem mem_maskArrays {m a : Nat} : a ∈ maskArrays m ↔ a < 2 ∧ m.testBit a = true := by
  unfold maskArrays
  constructor
  · intro h
    rcases List.mem_append.mp h with h | h <;> split at h <;> simp_all
  · rintro ⟨ha, hbit⟩
    obtain rfl | rfl : a = 0 ∨ a = 1 := by omega
    · simp [hbit]
    · simp [hbit]

theorem maskArrays_nodup (m : Nat) : (maskArrays m).Nodup := by
  unfold maskArrays
  split <;> split <;> decide

/-- Each array of a list without repeats is switched once, and no other array. -/
theorem Core.activeBank_foldl_switchBank {l : List Nat} (hl : l.Nodup) (k : Core) (a : Nat) :
    (l.foldl Core.switchBank k).activeBank a = if a ∈ l then 1 - k.activeBank a else k.activeBank a := by
  induction l generalizing k with
  | nil => rfl
  | cons b l ih =>
    obtain ⟨hb, hl⟩ := List.nodup_cons.mp hl
    rw [List.foldl_cons, ih hl]
    by_cases hab : a = b
    · subst hab
      simp [hb, Core.activeBank_switchBank_same]
    · simp [hab, Core.activeBank_switchBank_other]

/-- An MSW moves ACTIVE of each array of its mask, of both arrays at most (R127). -/
theorem Core.activeBank_switchBanks (k : Core) (m : Nat) {a : Nat} (ha : a < 2) :
    (k.switchBanks m).activeBank a = if m.testBit a then 1 - k.activeBank a else k.activeBank a := by
  rw [Core.switchBanks_eq, Core.activeBank_foldl_switchBank (maskArrays_nodup m)]
  simp only [mem_maskArrays, ha, true_and]

@[simp] theorem Core.switchBanks_acc (k : Core) (m : Nat) : (k.switchBanks m).acc = k.acc := by
  unfold Core.switchBanks maskArrays
  split <;> split <;> rfl

@[simp] theorem Core.switchBanks_v (k : Core) (m : Nat) : (k.switchBanks m).v = k.v := by
  unfold Core.switchBanks maskArrays
  split <;> split <;> rfl

@[simp] theorem Core.switchBanks_pc (k : Core) (m : Nat) : (k.switchBanks m).pc = k.pc := by
  unfold Core.switchBanks maskArrays
  split <;> split <;> rfl

section
variable (hmask : amask w ≠ 0) (h55 : bits w 55 34 = 0) (h31 : bits w 31 0 = 0)
include hmask h55 h31

/-- MSW on an empty queue takes effect at once. -/
theorem semMsw_empty (hmq : k.mq = []) : semMsw s c k w = coreDone s c (k.switchBanks (amask w)) := by
  rw [semMsw, if_neg (by simp [hmq]), if_neg (by simp [zf, hmask, h55, h31]), if_pos hmq]

/-- MSW behind other entries is queued. -/
theorem semMsw_queued (hmq : k.mq ≠ []) (hroom : k.mq.length < 4) :
    semMsw s c k w = coreDone s c (k.enqueue w 0 0) := by
  rw [semMsw, if_neg (by omega), if_neg (by simp [zf, hmask, h55, h31]), if_neg hmq]
  rfl

end

/-! MRD (R121, R196). -/

/-- What MRD makes of value n of a row of accumulators, in its format and rounding (R121). -/
def Core.mrdElem (k : Core) (w : Word) (m : Rnd) (row n : Nat) : Conv :=
  encodeCode (bits w 40 36) m (bit w 33) (k.srBits (bits w 29 27 * 64 + n))
    (Fmt.fp32.decode (Machine.elem (k.accRow (accKey (bits w 35 35) row)).toNat 32 n))

/-- Part P of vd holds the values of the row, and the rest of vd is as before (R196). -/
def Core.mrdVector (k : Core) (w : Word) (m : Rnd) (row : Nat) : BitVec 2048 :=
  packV (codeWidth (bits w 40 36)) ((List.range (2048 / codeWidth (bits w 40 36))).map fun j =>
    if bits w 29 27 * 64 ≤ j ∧ j < bits w 29 27 * 64 + 64 then (k.mrdElem w m row (j - bits w 29 27 * 64)).code
    else k.elem (Ins.d w) (codeWidth (bits w 40 36)) j)

/-- The flags of an MRD: those of its conversions, with the non-finite values that it reads counted (R62). -/
def Core.mrdFlags (k : Core) (w : Word) (m : Rnd) (row : Nat) : Flags :=
  { sumFlags ((List.range 64).map fun n => { (k.mrdElem w m row n).flags with nf := 0 }) with
    nf := ((List.range 64).filter fun n =>
      (Fmt.fp32.decode (Machine.elem (k.accRow (accKey (bits w 35 35) row)).toNat 32 n)).nonFinite).length }

/-- A core after MRD, which with CLR zeroes the row (R121). -/
def Core.mrd (k : Core) (w : Word) (m : Rnd) (row : Nat) : Core :=
  { ((k.advanceSr m).wv (Ins.d w) (k.mrdVector w m row)).raise (k.mrdFlags w m row) with
    acc := if bit w 34 then k.acc.set (accKey (bits w 35 35) row) 0 else k.acc }

section
variable {m : Rnd} {row : Nat}

theorem semMrd_done (hm : Rnd.ofField (bits w 32 30) = some m) (h45 : bits w 45 41 = 0) (h26 : bits w 26 8 = 0)
    (hfmt : bits w 40 36 ∈ [1, 2, 3, 4, 5, 0x10, 0x11, 0x12]) (hpart : bits w 29 27 < 32 / codeWidth (bits w 40 36))
    (hrow : row = (k.rx (Ins.a w) + BitVec.ofNat 64 (bits w 7 0)).toNat) (hle : row ≤ 255)
    (hpend : k.rowPending (bits w 35 35) row = false) : semMrd s c k w = coreDone s c (k.mrd w m row) := by
  subst hrow
  have listed : [1, 2, 3, 4, 5, 0x10, 0x11, 0x12].contains (bits w 40 36) = true := List.contains_iff_mem.mpr hfmt
  have legal : ¬ (!zf w 45 41 ∨ !zf w 26 8 ∨ ! [1, 2, 3, 4, 5, 0x10, 0x11, 0x12].contains (bits w 40 36) ∨
      32 / codeWidth (bits w 40 36) ≤ bits w 29 27 ∨ 255 < (k.rx (Ins.a w) + BitVec.ofNat 64 (bits w 7 0)).toNat) := by
    simp only [zf, h45, h26, listed, decide_true, Bool.not_true, Bool.false_eq_true, false_or, not_or, not_le, not_lt]
    exact ⟨hpart, hle⟩
  simp only [semMrd, hm]
  rw [if_neg legal, if_neg (ne_true_of_eq_false hpend)]
  unfold Core.mrd
  rw [← k.advanceSr_acc m]
  split <;> rfl

end
end

/-! The fields of a core after MRD. -/

section
variable (k : Core) (w : Word) (m : Rnd) (row : Nat)

theorem Core.mrd_rv_same : (k.mrd w m row).rv (Ins.d w) = k.mrdVector w m row := Core.rv_wv_same ..

theorem Core.mrd_rv_other {r : Nat} (h : r ≠ Ins.d w) : (k.mrd w m row).rv r = k.rv r :=
  (Core.rv_wv_other _ _ _ _ h).trans (congrArg (Map.get 0 · r) (k.advanceSr_v m))

theorem Core.mrd_pc : (k.mrd w m row).pc = k.pc := Core.advanceSr_pc ..

end

/-- Settles O8: each instruction's checks hold, so that it queues, starts its load, switches its banks or reads its row. -/
theorem matrixCompletes : Obligations.MatrixCompletes := by
  refine ⟨?_, ?_, ?_, ?_, ?_⟩
  · intro queued s c
    have queues : ∀ {i : Instr} {row : CoreRow} {sh : Shape},
        (∀ s, exec i s = .next (s.issue c row (semMma s c sh))) → queued i row sh s c := by
      intro i row sh hexec w h hroom hbanks hread hcheck
      exact completes_of_done h (hexec s) (semMma_done hroom hbanks hread hcheck)
    exact ⟨queues fun _ => rfl, queues fun _ => rfl, queues fun _ => rfl, queues fun _ => rfl, queues fun _ => rfl,
      queues fun _ => rfl⟩
  · intro s c w h huse hload hread hok hcheck
    exact completes_of_done h rfl (semMlw_done huse hload hread hok hcheck)
  · intro s c w h hmask h55 h31 hmq
    have hdone := semMsw_empty (s := s) (c := c) hmask h55 h31 hmq
    rw [coreDone, Core.switchBanks_pc] at hdone
    exact ⟨_, completes_of_done h rfl hdone, Core.switchBanks_acc .., Core.switchBanks_v .., fun _ =>
      Core.activeBank_switchBanks _ _⟩
  · intro s c w h hmask h55 h31 hmq hroom
    exact completes_of_done h rfl (semMsw_queued hmask h55 h31 hmq hroom)
  · intro s c row w m h hm h45 h26 hfmt hpart hrow hle hpend
    have hdone := semMrd_done (s := s) (c := c) hm h45 h26 hfmt hpart hrow hle hpend
    rw [coreDone, Core.mrd_pc] at hdone
    exact ⟨_, completes_of_done h rfl hdone, Core.mrd_rv_same .., fun _ => Core.mrd_rv_other _ _ _ _, Core.advanceSr_x ..,
      Core.advanceSr_k .., rfl⟩

end Sys2Proof.Machine

/-!
Fields of words and registers: what a field reads after it, or another field or register, has been loaded.
-/
namespace Sys2Proof.Machine

/-- A bit of a field's mask. -/
theorem bit_fieldMask {hi lo i : Nat} (h : i < 64) : bit (fieldMask hi lo) i = decide (lo ≤ i ∧ i ≤ hi) := by
  unfold bit fieldMask
  rw [BitVec.toNat_ofNat, Nat.testBit_mod_two_pow, Nat.testBit_shiftLeft, Nat.testBit_two_pow_sub_one]
  simp only [h, decide_true, Bool.true_and, ← Bool.decide_and]
  exact decide_eq_decide.mpr (by omega)

/-- A bit of a word whose field has been replaced. -/
theorem bit_setBits (v : Word) {hi lo i : Nat} (n : Nat) (h : i < 64) :
    bit (setBits v hi lo n) i = if lo ≤ i ∧ i ≤ hi then n.testBit (i - lo) else bit v i := by
  have masked : bit (v &&& ~~~ fieldMask hi lo) i = (bit v i && !decide (lo ≤ i ∧ i ≤ hi)) := by
    rw [← bit_fieldMask h]
    simp only [bit, BitVec.testBit_toNat, BitVec.getLsbD_and, BitVec.getLsbD_not, h, decide_true, Bool.true_and]
  rw [setBits, bit_or, masked]
  split
  next hf => rw [bit_place n hf.1 hf.2 h]; simp [hf]
  next hf => rw [bit_place_outside n (by omega)]; simp [hf]

/-- A bit of a field's value. -/
theorem testBit_bits (v : Word) (hi lo j : Nat) : (bits v hi lo).testBit j = (decide (j < hi + 1 - lo) && bit v (lo + j)) := by
  simp [bits, natBits, bit, Nat.testBit_mod_two_pow, Nat.testBit_shiftRight]

/-- A field that has been replaced reads as the number placed, truncated to the field. -/
theorem bits_setBits_same (v : Word) {hi lo : Nat} (n : Nat) (h : hi < 64) :
    bits (setBits v hi lo n) hi lo = n % 2 ^ (hi + 1 - lo) := by
  refine Nat.eq_of_testBit_eq fun j => ?_
  rw [testBit_bits, Nat.testBit_mod_two_pow]
  by_cases hj : j < hi + 1 - lo
  · rw [bit_setBits v n (by omega), if_pos (by omega), Nat.add_sub_cancel_left]
  · simp [hj]

/-- Replacing a field leaves the others alone. -/
theorem bits_setBits_other (v : Word) {hi lo hi' lo' : Nat} (n : Nat) (h : hi' < 64) (hd : hi' < lo ∨ hi < lo') :
    bits (setBits v hi lo n) hi' lo' = bits v hi' lo' := by
  refine Nat.eq_of_testBit_eq fun j => ?_
  rw [testBit_bits, testBit_bits]
  by_cases hj : j < hi' + 1 - lo'
  · rw [bit_setBits v n (by omega), if_neg (by omega)]
  · simp [hj]

/-- A field's value fits the field. -/
theorem bits_lt (v : Word) (hi lo : Nat) : bits v hi lo < 2 ^ (hi + 1 - lo) := Nat.mod_lt _ (Nat.two_pow_pos _)

/-- Copying a field of another word into a word gives that field. -/
theorem bits_setBits_bits (v u : Word) {hi lo : Nat} (h : hi < 64) : bits (setBits v hi lo (bits u hi lo)) hi lo = bits u hi lo := by
  rw [bits_setBits_same v _ h, Nat.mod_eq_of_lt (bits_lt u hi lo)]

section
variable (s : State) (page off : Nat)

/-- A field that has been loaded reads as the number loaded. -/
theorem State.fld_setFld_same {hi lo : Nat} (n : Nat) (h : hi < 64) :
    (s.setFld page off hi lo n).fld page off hi lo = n % 2 ^ (hi + 1 - lo) := by
  rw [State.fld, State.reg_setFld_same, bits_setBits_same _ _ h]

/-- Loading a field leaves the other fields of its register alone. -/
theorem State.fld_setFld_other {hi lo hi' lo' : Nat} (n : Nat) (h : hi' < 64) (hd : hi' < lo ∨ hi < lo') :
    (s.setFld page off hi lo n).fld page off hi' lo' = s.fld page off hi' lo' := by
  rw [State.fld, State.reg_setFld_same, bits_setBits_other _ _ h hd, State.fld]

/-- Loading a field leaves the fields of every other register alone. -/
theorem State.fld_setFld_key {p o : Nat} (hi lo n hi' lo' : Nat) (h : regKey p o ≠ regKey page off) :
    (s.setFld page off hi lo n).fld p o hi' lo' = s.fld p o hi' lo' := by
  rw [State.fld, State.reg_setFld_other _ _ _ _ _ _ _ _ h, State.fld]

/-- An event writes at most EV_STATUS of its page (R555). -/
theorem State.reg_genEvent_other {p o : Nat} (code part : Nat) (payload : Word) (h : regKey p o ≠ regKey page Reg.EV_STATUS) :
    (s.genEvent page code part payload).reg p o = s.reg p o := by
  unfold State.genEvent State.genEventAs
  dsimp only
  split <;> exact State.reg_setReg_other _ _ _ _ _ _ h

end

/-- An admitted write is its effect in a state that differs at most in the use of locks and the X fields written (R4, R614). -/
theorem State.writeVia_effect {s : State} {i : Ident} {page off : Nat} {v : Word} (eff : State → State)
    (h : Admitted s i page off v) : ∃ l w, s.writeVia i page off v eff = eff { s with lockAt := l, written := w } := by
  obtain ⟨l, w, ha⟩ := State.admittedState_eq s i page off
  exact ⟨l, w, (State.writeVia_admitted eff h).trans (congrArg eff ha)⟩

end Sys2Proof.Machine

/-!
The units inside a core (O13): instruction fetch, the matrix queue, weight loads, CORE_DATA faults and the current keeper.
-/
namespace Sys2Proof.Machine

/-- A command that writes its own core completes. -/
theorem completesMem_of_setCore {i : Instr} {s : State} {c : Nat} {k : Core} (h : exec i s = .next (s.setCore c k)) :
    CompletesMem i s c k s.mem :=
  ⟨_, h, State.core_setCore .., rfl, fun d hd => State.core_setCore_other _ _ d _ hd, rfl⟩

/-- Only a corrected error is counted (R85). -/
@[simp] theorem State.countEcc_ok (s : State) (c : Nat) : s.countEcc c .ok = s := rfl

/-! CORE_DATA faults (R85, R98, R101). -/

section
variable (s : State) (c : Nat)

/-- A core that becomes FAULTED keeps all but its status (R575). -/
theorem State.enterFaulted_core (cause : Nat) : (s.enterFaulted c cause).core c = { s.core c with status := .faulted } := by
  unfold State.enterFaulted
  extract_lets s1 s2 skips at_
  have hcore : s2.core c = { s.core c with status := .faulted } := by simp [s2, s1, State.modCore]
  split
  · rw [State.genEvent_core, hcore]
  · exact hcore

@[simp] theorem State.enterFaulted_mem (cause : Nat) : (s.enterFaulted c cause).mem = s.mem := by
  unfold State.enterFaulted
  extract_lets s1 s2 skips at_
  have hmem : s2.mem = s.mem := by simp [s2, s1]
  split
  · rw [State.genEvent_mem, hmem]
  · exact hmem

variable (fpc faddr : Nat) (finstr : Word)

/-- A CORE_DATA fault outside the arrays stops the core with its record. -/
theorem State.coreData_stops : s.coreData c fpc faddr finstr false = s.setCore c
    { (s.core c).stopWith ⟨0x07, St.dataUncorrectable, 0xFFFF, fpc, faddr, finstr⟩ with drained := false } := rfl

/-- A CORE_DATA fault in the arrays also makes the core FAULTED. -/
theorem State.coreData_faulted_core : (s.coreData c fpc faddr finstr true).core c =
    { (s.core c).stopWith ⟨0x07, St.dataUncorrectable, 0xFFFF, fpc, faddr, finstr⟩ with
      drained := false, status := .faulted } := by
  rw [State.coreData, if_pos rfl, State.enterFaulted_core]
  simp [State.modCore]

theorem State.coreData_faulted_mem : (s.coreData c fpc faddr finstr true).mem = s.mem := by
  rw [State.coreData, if_pos rfl, State.enterFaulted_mem]
  rfl

end

/-! Instruction fetch (R86). -/

section
variable {s : State} {c line : Nat} (hrun : (s.core c).status = .running) (hended : (s.core c).ended = false)
  (hline : line < 4096)
include hrun hended hline

/-- A core that runs fetches the lines of its local store. -/
theorem fetch_allowed : ¬ (!(s.core c).active_ ∨ 4096 ≤ line) := by
  simp [Core.active_, hrun, hended, Nat.not_le.mpr hline]

theorem execInstrFetch_ok : exec (.instrFetch c line .ok) s = .next (s.setCore c { s.core c with
    ibuf := ((line, BitVec.ofNat 512 (s.mem.readNat (lsBase c + 64 * line) 64))
      :: (s.core c).ibuf.filter fun l => decide (l.1 ≠ line)).take 64 }) :=
  congrArg Host.Outcome.next (if_neg (fetch_allowed hrun hended hline))

/-- An uncorrectable error in the line of PC is a CORE_DATA fault (R85). -/
theorem execInstrFetch_uncorrectable (hpc : line = (s.core c).pc / 64) :
    exec (.instrFetch c line .uncorrectable) s = .next (s.coreData c (s.core c).pc (64 * line) 0 false) :=
  congrArg Host.Outcome.next ((if_neg (fetch_allowed hrun hended hline)).trans (if_pos hpc))

end

/-! The matrix queue and the weight loads (R94, R118, R125, R134). -/

section
variable {s : State} {c : Nat}

/-- Where every array carries full current, so does the least of them. -/
theorem foldl_min_level {k : Core} {l : List Nat} (h : ∀ a ∈ l, k.keeper a = ⟨4, false⟩) :
    l.foldl (fun m a => min m (k.keeper a).level) 4 = 4 := by
  induction l with
  | nil => rfl
  | cons a l ih =>
    rw [List.foldl_cons, h a (List.mem_cons_self ..)]
    exact ih fun b hb => h b (List.mem_cons_of_mem _ hb)

/-- The head MMA starts where every array that it uses carries full current and the core may stream. -/
theorem execMmaStart_starts {e : MqEntry} {q : List MqEntry} (ecc : Ecc) (hmq : (s.core c).mq = e :: q)
    (harrays : (s.core c).headArrays ≠ []) (hfresh : e.started = false) (hrun : (s.core c).status = .running)
    (hdrained : (s.core c).drained = false) (hfull : ∀ a ∈ (s.core c).headArrays, (s.core c).keeper a = ⟨4, false⟩) :
    exec (.mmaStart c ecc) s = .next (s.startHead c ecc) := by
  have level := foldl_min_level hfull
  have rampless : ((s.core c).headArrays.any fun a => ((s.core c).keeper a).ramping) = false := by
    rw [List.any_eq_false]
    intro a ha
    simp [hfull a ha]
  show execMmaStart c ecc s = _
  unfold execMmaStart
  extract_lets k arrays full waiting fresh
  have hfresh' : fresh = true := by simp only [fresh, k, hmq, hfresh]; rfl
  rw [if_neg (by simp [arrays, k, waiting, harrays, hfresh', rampless, hrun, hdrained]), if_pos level]

theorem startHead_ok {e : MqEntry} {q : List MqEntry} (hmq : (s.core c).mq = e :: q) :
    s.startHead c .ok = s.setCore c (runHead s c (s.core c)) := by
  simp only [State.startHead, hmq]
  rfl

theorem startHead_uncorrectable {e : MqEntry} {q : List MqEntry} (hmq : (s.core c).mq = e :: q) :
    s.startHead c .uncorrectable = s.coreData c e.pc e.opa.toNat e.instr true := by
  simp only [State.startHead, hmq]
  rfl

theorem execPortRowWaitEnd_streams {e : MqEntry} {q : List MqEntry} (hmq : (s.core c).mq = e :: q) (hstarted : e.started = true)
    (hdrained : (s.core c).drained = false) (hstatus : (s.core c).status ≠ .faulted) :
    exec (.portRowWaitEnd c) s = .next (s.setCore c (runHead s c (s.core c))) := by
  show execPortRowWaitEnd c s = _
  simp only [execPortRowWaitEnd, hmq]
  rw [if_pos (by simp [hstarted, hdrained, hstatus])]

theorem execMlwLoadDone_ok {l : MlwLoad} {q : List MlwLoad} (hloads : (s.core c).loads = l :: q) :
    exec (.mlwLoadDone c .ok) s = .next (s.setCore c { finishLoad s.mem c (s.core c) l with loads := q }) := by
  show execMlwLoadDone c .ok s = _
  simp only [execMlwLoadDone, hloads]
  rfl

theorem execMlwLoadDone_uncorrectable {l : MlwLoad} {q : List MlwLoad} (hloads : (s.core c).loads = l :: q) :
    exec (.mlwLoadDone c .uncorrectable) s = .next (s.coreData c l.pc l.opa.toNat l.instr true) := by
  show execMlwLoadDone c .uncorrectable s = _
  simp only [execMlwLoadDone, hloads]
  rfl

end

/-! The current keeper (R132 to R137). -/

@[simp] theorem Core.keeper_setKeeper (k : Core) (a : Nat) (x : KeepState) : (k.setKeeper a x).keeper a = x :=
  Map.get_set_same ..

section
variable (s : State) (page i n unit : Nat)

@[simp] theorem State.bumpUnits_mem : (s.bumpUnits page i n unit).mem = s.mem := rfl
@[simp] theorem State.bumpUnits_core (c : Nat) : (s.bumpUnits page i n unit).core c = s.core c := rfl

end

/-- A ramp that has not reached 75 % gains a quarter and goes on (R134). -/
theorem execKeepRampStep_rises {s : State} {c a : Nat} (hramp : ((s.core c).keeper a).ramping = true)
    (hlevel : ((s.core c).keeper a).level < 3) (ha : a ∈ (s.core c).headArrays) :
    exec (.keepRampStep c a) s = .next ((s.bumpUnits (corePage c) 8 16 1024).setCore c
      ((s.core c).setKeeper a ⟨((s.core c).keeper a).level + 1, true⟩)) := by
  have rising : decide (((s.core c).keeper a).level + 1 < 4) = true := decide_eq_true (by omega)
  show execKeepRampStep c a s = _
  unfold execKeepRampStep
  extract_lets k x k' s'
  have waits : (k'.headArrays.all fun b => decide ((k'.keeper b).level = 4)) = false := by
    refine List.all_eq_false.mpr ⟨a, ha, ?_⟩
    simp only [k', x, k, Core.keeper_setKeeper, decide_eq_true_eq]
    omega
  rw [if_neg (by simp [x, k, hramp]), waits, Bool.and_false, if_neg Bool.false_ne_true]
  simp only [s', k', x, k, rising]

/-- An array that does not rise and carries current falls by a quarter (R132, R133). -/
theorem execKeepLevelFall_falls {s : State} {c a : Nat} (hramp : ((s.core c).keeper a).ramping = false)
    (hlevel : ((s.core c).keeper a).level ≠ 0) : ∃ n, exec (.keepLevelFall c a) s = .next
      ((s.bumpUnits (corePage c) 8 n 1024).setCore c ((s.core c).setKeeper a ⟨((s.core c).keeper a).level - 1, false⟩)) :=
  ⟨_, congrArg Host.Outcome.next (if_neg (by simp [hramp, hlevel]))⟩

/-! KEEP_CTL and EFFECTIVE_GAP (R136, R544). -/

/-- The die of a page of compute dies. -/
theorem pageStack_computeDie {st d : Nat} (hs : st < 72) (hd : d < 4) : pageStack (Page.computeDie st d) = some st := by
  have hr : 0x1000 ≤ Page.computeDie st d ∧ Page.computeDie st d < 0x1000 + 0x40 * 72 := by
    simp only [Page.computeDie, Page.hub]; omega
  rw [pageStack, if_pos hr]
  simp only [Page.computeDie, Page.hub, Option.some.injEq]
  omega

/-- KEEP_CTL takes KEEP_GAP (Table 4-15). -/
theorem State.storeWrite_keepCtl (s : State) {st d : Nat} (v : Word) (hs : st < 72) (hd : d < 4) :
    s.storeWrite (Page.computeDie st d) keepCtl v = s.setFld (Page.computeDie st d) keepCtl 7 0 (bits v 7 0) := by
  have hr : findReg .computeDie keepCtl = _ := findReg_computeDie 0 (by decide)
  simp only [State.storeWrite, pageKind_computeDie hs hd, hr]
  rfl

section
variable (s : State) (page loop off bitAt : Nat) (holds : Bool) (bound val : Nat)

/-- A clamp writes at most its bit and EV_STATUS (R544, R545). -/
theorem State.fld_clampLoop {p o hi lo : Nat} (hhi : hi < 64) (hev : regKey p o ≠ regKey page Reg.EV_STATUS)
    (h : regKey p o ≠ regKey page off ∨ (p = page ∧ o = off ∧ hi < bitAt)) :
    (s.clampLoop page loop off bitAt holds bound val).fld p o hi lo = s.fld p o hi lo := by
  have clamped : (s.setFld page off bitAt bitAt 1).fld p o hi lo = s.fld p o hi lo := by
    rcases h with h | ⟨rfl, rfl, h⟩
    · exact State.fld_setFld_key _ _ _ _ _ _ _ _ h
    · exact State.fld_setFld_other _ _ _ _ hhi (.inl h)
  unfold State.clampLoop
  extract_lets key s1
  split
  · split
    · exact clamped
    · rw [State.fld, State.reg_genEvent_other _ _ _ _ _ hev]
      exact clamped
  · rfl

end

/-- EFFECTIVE_GAP follows KEEP_GAP under the cap of Table 18-4, and KEEP_GAP stays. -/
theorem State.refreshKeeper_fields (s : State) (st d : Nat) :
    (s.refreshKeeper st d).fld (Page.computeDie st d) keepCtl 7 0 = s.fld (Page.computeDie st d) keepCtl 7 0 ∧
    (s.refreshKeeper st d).fld (Page.computeDie st d) keepStat 7 0 =
      (if s.keeperCapped then min (s.fld (Page.computeDie st d) keepCtl 7 0) 16
        else s.fld (Page.computeDie st d) keepCtl 7 0) := by
  have keys : regKey (Page.computeDie st d) keepCtl ≠ regKey (Page.computeDie st d) keepStat := by simp [regKey, keepCtl, keepStat]
  unfold State.refreshKeeper
  extract_lets page gap eff s1
  have hgap : gap < 2 ^ (7 + 1 - 0) := bits_lt ..
  have heff : eff % 2 ^ (7 + 1 - 0) = eff := Nat.mod_eq_of_lt (by grind)
  constructor
  · rw [State.fld_clampLoop _ _ _ _ _ _ _ _ (by decide) (by simp [regKey, keepCtl, Reg.EV_STATUS]) (.inl keys),
      State.fld_setFld_key _ _ _ _ _ _ _ _ keys, State.fld_setFld_key _ _ _ _ _ _ _ _ keys]
  · rw [State.fld_clampLoop _ _ _ _ _ _ _ _ (by decide) (by simp [regKey, keepStat, Reg.EV_STATUS])
      (.inr ⟨rfl, rfl, by decide⟩), State.fld_setFld_other _ _ _ _ (by decide) (.inl (by decide)),
      State.fld_setFld_same _ _ _ _ (by decide), heff]

/-- An admitted write of KEEP_CTL. -/
theorem keepCtlEff_fields (s : State) {st d : Nat} (v : Word) (hs : st < 72) (hd : d < 4) :
    (keepCtlEff (Page.computeDie st d) v s).fld (Page.computeDie st d) keepCtl 7 0 = bits v 7 0 ∧
    (keepCtlEff (Page.computeDie st d) v s).fld (Page.computeDie st d) keepStat 7 0 =
      (if s.keeperCapped then min (bits v 7 0) 16 else bits v 7 0) := by
  have die : (Page.computeDie st d - 0x1000) % 0x40 - 17 = d := by simp only [Page.computeDie, Page.hub]; omega
  have gap : (s.setFld (Page.computeDie st d) keepCtl 7 0 (bits v 7 0)).fld (Page.computeDie st d) keepCtl 7 0 = bits v 7 0 := by
    rw [State.fld_setFld_same _ _ _ _ (by decide), Nat.mod_eq_of_lt (bits_lt ..)]
  have fields := (s.setFld (Page.computeDie st d) keepCtl 7 0 (bits v 7 0)).refreshKeeper_fields st d
  rw [gap] at fields
  simp only [keepCtlEff, State.storeWrite_keepCtl s v hs hd, pageStack_computeDie hs hd, die]
  exact fields

/-- Settles O13: each unit's trigger is met, so that it does its work or stops its core. -/
theorem coreUnitsComplete : Obligations.CoreUnitsComplete := by
  refine ⟨?_, ?_, ?_, ?_, ?_, ?_, ?_, ?_, ?_, ?_⟩
  · intro s c line hrun hended hline
    exact completesMem_of_setCore (execInstrFetch_ok hrun hended hline)
  · intro s c e q hmq harrays hfresh hrun hdrained hfull
    refine completesMem_of_setCore ?_
    rw [execMmaStart_starts .ok hmq harrays hfresh hrun hdrained hfull, startHead_ok hmq]
  · intro s c e q hmq hstarted hdrained hstatus
    exact completesMem_of_setCore (execPortRowWaitEnd_streams hmq hstarted hdrained hstatus)
  · intro s c l q hloads
    exact completesMem_of_setCore (execMlwLoadDone_ok hloads)
  · intro s c hrun hended hline
    refine ⟨_, execInstrFetch_uncorrectable hrun hended hline rfl, ?_, ?_, rfl, fun d hd => ?_⟩
    · rw [State.coreData_stops, State.core_setCore]; rfl
    · rw [State.coreData_stops, State.core_setCore]; rfl
    · rw [State.coreData_stops, State.core_setCore_other _ _ _ _ hd]
  · intro s c e q hmq harrays hfresh hrun hdrained hfull
    have hexec := execMmaStart_starts .uncorrectable hmq harrays hfresh hrun hdrained hfull
    rw [startHead_uncorrectable hmq] at hexec
    refine ⟨_, hexec, ?_, ?_, State.coreData_faulted_mem ..⟩
    · rw [State.coreData_faulted_core]
    · rw [State.coreData_faulted_core]; rfl
  · intro s c l q hloads
    refine ⟨_, execMlwLoadDone_uncorrectable hloads, ?_, ?_, State.coreData_faulted_mem ..⟩
    · rw [State.coreData_faulted_core]
    · rw [State.coreData_faulted_core]; rfl
  · intro s c a hramp hlevel ha
    refine ⟨_, execKeepRampStep_rises hramp hlevel ha, ?_, rfl⟩
    rw [State.core_setCore, Core.keeper_setKeeper]
  · intro s c a hramp hlevel
    obtain ⟨n, hexec⟩ := execKeepLevelFall_falls hramp hlevel
    refine ⟨_, hexec, ?_, rfl, fun d hd => ?_⟩
    · rw [State.core_setCore, Core.keeper_setKeeper]
    · rw [State.core_setCore_other _ _ _ _ hd, State.bumpUnits_core]
  · intro s i st d v hs hd hadm
    obtain ⟨l, w, hwrite⟩ := State.writeVia_effect (keepCtlEff (Page.computeDie st d) v) hadm
    have hexec : exec (.keepCtlWrite i st d v) s = .next (s.writeVia i (Page.computeDie st d) keepCtl v
        (keepCtlEff (Page.computeDie st d) v)) := by
      show execKeepCtlWrite i st d v s = _
      rw [execKeepCtlWrite, Nat.mod_eq_of_lt hs, Nat.mod_eq_of_lt hd]
    rw [hwrite] at hexec
    obtain ⟨hctl, hstat⟩ := keepCtlEff_fields { s with lockAt := l, written := w } v hs hd
    have content := State.content_keepCtlEff { s with lockAt := l, written := w } (Page.computeDie st d) v
    exact ⟨_, hexec, hctl, hstat, congrArg Prod.fst content, congrArg (·.2.1) content⟩

end Sys2Proof.Machine

/-!
Replies, transfers, drains and barriers (O15). Folds over cores: each core of the list is updated, and the rest of the state is
what the step keeps.
-/
namespace Sys2Proof.Machine

/-! Folds over cores. -/

section
variable {step : State → Nat → State} {l : List Nat}

/-- A fold keeps what its step keeps. -/
theorem foldl_keeps {β : Type} (f : State → β) (h : ∀ s c, f (step s c) = f s) (s : State) : f (l.foldl step s) = f s := by
  induction l generalizing s with
  | nil => rfl
  | cons c l ih => exact (ih _).trans (h s c)

/-- A fold of updates of single cores updates the cores of its list, where none stands there twice or a second update changes
nothing. -/
theorem foldl_core {g : Core → Core} (hstep : ∀ s c d, (step s c).core d = if d = c then g (s.core d) else s.core d)
    (hg : l.Nodup ∨ ∀ k, g (g k) = g k) (s : State) (d : Nat) :
    (l.foldl step s).core d = if d ∈ l then g (s.core d) else s.core d := by
  induction l generalizing s with
  | nil => rfl
  | cons c l ih =>
    have hl : l.Nodup ∨ ∀ k, g (g k) = g k := hg.imp_left fun h => (List.nodup_cons.mp h).2
    rw [List.foldl_cons, ih hl, hstep]
    by_cases hdc : d = c
    · subst hdc
      rw [if_pos rfl, if_pos (List.mem_cons_self ..)]
      split
      next hd => exact hg.elim (fun h => absurd hd (List.nodup_cons.mp h).1) fun h => h _
      next => rfl
    · simp [hdc]

end

/-- An update of a core, as seen from any core. -/
theorem State.core_modCore (s : State) (c d : Nat) (f : Core → Core) :
    (s.modCore c f).core d = if d = c then f (s.core d) else s.core d := by
  split
  next h => subst h; exact State.core_setCore ..
  next h => exact State.core_setCore_other _ _ _ _ h

/-! Synchronous accesses (R80, R99, R197). -/

/-- The reply to LD.G writes its register, and the instruction completes (R197). -/
theorem Core.committed_ldG (k : Core) {w : Word} (e : Nat) (bs : List Byte) (hopc : Ins.opc w = 0x88) :
    k.committed w e bs = { k.wx (Ins.d w) (extLoad w (ofLeBytes bs)) with wait := .none, pc := (k.pc + 8) % 2 ^ 18 } := by
  simp only [Core.committed, hopc, Core.wx_pc]

/-- An access of LD.G that ends with OK completes it. -/
theorem State.coreAccess_ldG {s u : State} {c va e : Nat} {w : Word} {retry : Bool} {bs : List Byte} (hopc : Ins.opc w = 0x88)
    (hwait : (s.core c).wait = .access w va e retry)
    (hread : s.coreVirt (s.coreCtxt c) va (.read (2 ^ Ins.size w)) = (.status 0, bs, u)) :
    s.coreAccess c = u.modCore c fun k =>
      { k.wx (Ins.d w) (extLoad w (ofLeBytes bs)) with wait := .none, pc := (k.pc + 8) % 2 ^ 18 } := by
  have hop : (s.core c).pendingOp w e = .read (2 ^ Ins.size w) := by simp only [Core.pendingOp, hopc, sizeBytes]
  simp only [State.coreAccess, hwait, hop, hread, if_true, Core.committed_ldG _ _ _ hopc]

/-- A reply from a unit that its requester has not heard of performs the access (R80, R568; log row 57). -/
theorem execGlobalAccessDone_accesses {s : State} {c unit epoch va e : Nat} {w : Word} (hc : c < coreCount)
    (hwait : (s.core c).wait = .access w va e false) (hkept : s.kept.find (corePage c * 65536 + unit) = none) :
    exec (.globalAccessDone c unit epoch) s = .next ((s.keepEpoch (corePage c * 65536 + unit) epoch).coreAccess c) := by
  show execGlobalAccessDone c unit epoch s = _
  simp only [execGlobalAccessDone, hwait, hkept]
  rw [if_neg (Nat.not_le.mpr hc)]
  rfl

/-- The hub proxy presents an access that waits for it again (R99; log row 57). -/
theorem execHubProxyRetry_accesses {s : State} {c va e : Nat} {w : Word} (hwait : (s.core c).wait = .access w va e true) :
    exec (.hubProxyRetry c) s = .next (s.coreAccess c) := by
  show execHubProxyRetry c s = _
  simp only [execHubProxyRetry, hwait]

/-! Transfers (R96, R199). -/

/-- A block of an XFER.L that is read with OK is written to local store, and its token advances. -/
theorem execTransferBlockDone_loads {s u : State} {c t va n sound : Nat} {x : Token} {bs : List Byte} (ht : t < 16)
    (hx : (s.core c).tokens.get {} t = x) (hkind : x.kind = 1) (hopen : (s.core c).transferOpen x = true)
    (hva : va = (x.gaddr + x.done) % 2 ^ 64) (hn : n = min (inLine va 128) (x.length - x.done))
    (hread : s.vread (s.coreCtxt c) va n = (.status 0, bs, u)) : exec (.transferBlockDone c t .ok sound) s =
      .next ((u.writeBytes (lsBase c + x.lsaddr + x.done) bs).modCore c fun k => k.advanceToken t n) := by
  subst hx hn hva
  show execTransferBlockDone c t .ok sound s = _
  simp only [execTransferBlockDone, Nat.mod_eq_of_lt ht]
  rw [if_neg (by rw [hopen]; decide), if_pos hkind, hread]
  rfl

/-! The drain of a stopped core (R93, R94, R96). -/

/-- A core that owes no credit returns none (R88). -/
theorem State.returnCredit_none {s : State} {c port : Nat} (h : (s.core c).owed.get 0 port = 0) : s.returnCredit c port = s := by
  unfold State.returnCredit
  split
  · rfl
  · exact if_pos h

theorem State.returnCredits_none {s : State} {c : Nat} (h : ∀ p, (s.core c).owed.get 0 p = 0) (ports : List Nat) :
    ports.foldl (fun s p => (List.range 16).foldl (fun s _ => s.returnCredit c p) s) s = s :=
  List.foldl_fixed' (fun p => List.foldl_fixed' (fun _ => State.returnCredit_none (h p)) _) ports

/-- Only a running core is stopped (R93). -/
theorem Core.halt_of_not_running {k : Core} (h : k.status ≠ .running) : k.halt = k := if_neg h

/-- An empty matrix queue has nothing to run. -/
theorem drainQueue_nil {s : State} {c : Nat} {k : Core} (h : k.mq = []) (n : Nat) : drainQueue s c n k = k := by
  cases n with
  | zero => rfl
  | succ n =>
    have idle : runHead s c k = k := by
      unfold runHead
      rw [h]
    unfold drainQueue
    rw [idle]
    exact if_neg (Nat.lt_irrefl _)

/-- A stopped core with no matrix work whose transfers stand at a boundary has drained. -/
theorem execCoreDrainDone_drains {s : State} {c : Nat} (hstopped : (s.core c).status = .stopped)
    (hwait : (s.core c).wait = .none) (hboundary : (s.core c).atBoundary = true) (hdrained : (s.core c).drained = false)
    (howed : ∀ p, (s.core c).owed.get 0 p = 0) (hmq : (s.core c).mq = []) (hloads : (s.core c).loads = []) :
    exec (.coreDrainDone c) s = .next (s.setCore c { s.core c with drained := true }) := by
  have halted : (if (s.core c).atCheapStop ∧ (s.core c).wait = .none then (s.core c).halt else s.core c) = s.core c := by
    rw [Core.halt_of_not_running (k := s.core c) (by simp [hstopped]), ite_self]
  have loaded : ({ (s.core c).loads.foldl (finishLoad s.mem c) (s.core c) with loads := [] } : Core) = s.core c := by
    rw [hloads, List.foldl_nil, ← hloads]
  have notFaulted : (s.core c).status ≠ .faulted := by simp [hstopped]
  show execCoreDrainDone c s = _
  simp only [execCoreDrainDone, halted, loaded]
  rw [if_neg (by simp [hstopped, hwait, hboundary, hdrained]), hloads, List.foldl_nil, if_neg notFaulted,
    drainQueue_nil hmq, State.returnCredits_none]
  · rw [hloads]
  · rw [State.core_setCore]
    exact howed

/-! Barriers (R209). -/

/-- A barrier of BAR whose members have all arrived releases them. -/
theorem execBarRelease_releases {s : State} {c idx key : Nat} {x : Task} (hwait : (s.core c).wait = .barrier idx false)
    (htask : s.coreTask c = some (key, x)) (hall : ∀ m ∈ s.barMembers x c idx false, (s.core m).wait = .barrier idx false) :
    exec (.barRelease c) s =
      .next ((s.barMembers x c idx false).foldl (fun s m => s.modCore m Core.releaseBar) s) := by
  have arrived : ((s.barMembers x c idx false).all fun m => (s.core m).atBarrier idx false) = true :=
    List.all_eq_true.mpr fun m hm => decide_eq_true (hall m hm)
  show execBarRelease c s = _
  simp only [execBarRelease, hwait, htask]
  rw [if_pos ⟨arrived, .inl rfl⟩]
  rfl

/-- Settles O15: each command's trigger is met, so that it performs the access, moves its block, drains the core or releases the
barrier. -/
theorem coreMemoryCompletes : Obligations.CoreMemoryCompletes := by
  refine ⟨?_, ?_, ?_, ?_, ?_⟩
  · intro s c unit epoch va e w bs u hc hopc hwait hkept hread
    refine ⟨_, execGlobalAccessDone_accesses hc hwait hkept, ?_⟩
    exact State.coreAccess_ldG (s := s.keepEpoch (corePage c * 65536 + unit) epoch) hopc hwait hread
  · intro s c va e w bs u hopc hwait hread
    exact ⟨_, execHubProxyRetry_accesses hwait, State.coreAccess_ldG hopc hwait hread⟩
  · intro s c t va n sound x bs u ht hx hkind hopen hva hn hread
    exact ⟨_, execTransferBlockDone_loads ht hx hkind hopen hva hn hread, rfl⟩
  · intro s c hstopped hwait hboundary hdrained howed hmq hloads
    exact completesMem_of_setCore (execCoreDrainDone_drains hstopped hwait hboundary hdrained howed hmq hloads)
  · intro s c idx key x hwait htask hnodup hall
    have cores := foldl_core (g := Core.releaseBar) (fun s m d => s.core_modCore m d _) (.inl hnodup) s
    refine ⟨_, execBarRelease_releases hwait htask hall, fun m hm => ?_, fun m hm => ?_, foldl_keeps State.mem (fun s m => s.modCore_mem m _) s⟩
    · rw [cores, if_pos hm]
    · rw [cores, if_neg hm]

end Sys2Proof.Machine

/-!
Pre-emption (O17): the stop of a task's cores, and the writes of PREEMPT_REQ and RT_RESERVE.
-/
namespace Sys2Proof.Machine

/-! The stop of a task (R93, R415, R416). -/

/-- A core that has been stopped is stopped no further. -/
theorem Core.halt_halt (k : Core) : k.halt.halt = k.halt := by
  by_cases h : k.status = .running
  · exact Core.halt_of_not_running (by simp [Core.halt, h])
  · rw [Core.halt_of_not_running h, Core.halt_of_not_running h]

section
variable (s : State) (l : List Nat)

/-- Stopping a list of cores stops each of them and no other. -/
theorem State.haltAll_core (d : Nat) : (s.haltAll l).core d = if d ∈ l then (s.core d).halt else s.core d :=
  foldl_core (fun s c d => s.core_modCore c d _) (.inr Core.halt_halt) s d

@[simp] theorem State.haltAll_mem : (s.haltAll l).mem = s.mem := foldl_keeps State.mem (fun s c => s.modCore_mem c _) s

@[simp] theorem State.haltAll_task (key : Nat) : (s.haltAll l).task key = s.task key :=
  congrArg (Map.find · key) (foldl_keeps State.tasks (fun s c => s.modCore_tasks c _) s)

end

@[simp] theorem State.task_setTask_same (s : State) (key : Nat) (x : Task) : (s.setTask key x).task key = some x :=
  Map.find_set_same ..

/-- A task as its pre-emption begins without a preference for cheap points (R415). -/
def Task.stoppingAt (x : Task) (time : Nat) : Task := { x with status := .stopping, wantCheap := false, stopAt := time }

/-- A pre-emption without a preference for cheap points stops each of the task's cores at once (R415). -/
theorem State.beginPreempt_stops (s : State) (key : Nat) (x : Task) :
    (s.beginPreempt key x false).task key = some (x.stoppingAt s.panelTime.toNat) ∧
    (∀ d ∈ s.taskCores x, (s.core d).task = some key → (s.beginPreempt key x false).core d = (s.core d).halt) ∧
    (s.beginPreempt key x false).mem = s.mem := by
  have stops : s.beginPreempt key x false = (s.setTask key (x.stoppingAt s.panelTime.toNat)).haltAll
      ((s.taskCores x).filter fun c => decide ((s.core c).task = some key)) := rfl
  rw [stops]
  refine ⟨?_, fun d hd htask => ?_, ?_⟩
  · rw [State.haltAll_task, State.task_setTask_same]
  · rw [State.haltAll_core, if_pos (List.mem_filter.mpr ⟨hd, decide_eq_true htask⟩)]
    rfl
  · rw [State.haltAll_mem]
    rfl

/-- A request of PREEMPT_REQ without CHEAP stops a task that does not prefer cheap points at once (R415). -/
theorem execTaskPreempt_stops {s : State} {q seq : Nat} {x : Task} (hx : s.task (cmdKey q seq) = some x)
    (hrun : x.status = .running) (hpage : s.pageStopped x = false) (hreq : x.request = 1) (hcheap : x.cheap = false) :
    exec (.taskPreempt q seq) s = .next (s.beginPreempt (cmdKey q seq) x false) := by
  show execTaskPreempt q seq s = _
  simp only [execTaskPreempt, hx, hpage, hreq, hcheap]
  rw [if_neg (not_not.mpr hrun)]
  rfl

/-- The end of a slice stops a task for a rival of equal QPRIO (R412). -/
theorem execSliceExpiry_stops {s : State} {q seq rival : Nat} {x y : Task} (hx : s.task (cmdKey q seq) = some x)
    (hrun : x.status = .running) (hcheap : x.cheap = false)
    (hslice : s.fld (Page.scheduler ((s.leadStack x).getD 0)) Reg.SCHED_CTL 47 32 ≠ 0)
    (htime : x.since + 1000 * s.fld (Page.scheduler ((s.leadStack x).getD 0)) Reg.SCHED_CTL 47 32 ≤ s.panelTime.toNat)
    (hy : (rival, y) ∈ s.tasks) (hother : rival ≠ cmdKey q seq) (hprio : y.prio = x.prio) (hover : y.overlaps x = true)
    (hwaits : y.waitsPage = false) (hready : y.status = .ready) :
    exec (.sliceExpiry q seq) s = .next (s.beginPreempt (cmdKey q seq) x false) := by
  have rivals : (s.tasks.any fun e => decide (e.1 ≠ cmdKey q seq ∧ e.2.prio = x.prio) && e.2.overlaps x && !e.2.waitsPage
      && decide (e.2.status = .ready ∨ e.2.status = .switchedOut)) = true :=
    List.any_eq_true.mpr ⟨(rival, y), hy, by simp [hother, hprio, hover, hwaits, hready]⟩
  show execSliceExpiry q seq s = _
  simp only [execSliceExpiry, hx, hcheap]
  rw [if_pos ⟨hrun, by omega, htime, rivals⟩]

/-! The end of CHEAP_WINDOW (R416). -/

/-- A core as CHEAP_WINDOW ends: it stops unless it stands at a cheap point. -/
def Core.windowEnds (k : Core) : Core := if k.status = .running ∧ !(k.atCheapStop ∧ k.wait = .none) then k.halt else k

theorem Core.windowEnds_halts {k : Core} (hrun : k.status = .running) (hpoint : k.atCheapStop = false) : k.windowEnds = k.halt :=
  if_pos ⟨hrun, by simp [hpoint]⟩

theorem Core.windowEnds_windowEnds (k : Core) : k.windowEnds.windowEnds = k.windowEnds := by
  by_cases h : k.status = .running ∧ !(k.atCheapStop ∧ k.wait = .none)
  · have stopped : k.halt.status ≠ .running := by simp [Core.halt, h.1]
    rw [show k.windowEnds = k.halt from if_pos h]
    exact if_neg fun hrun => stopped hrun.1
  · rw [show k.windowEnds = k from if_neg h, show k.windowEnds = k from if_neg h]

/-- The step of one core as CHEAP_WINDOW ends, counted in counter 9 of its hub's scheduler. -/
def State.windowEnds (s : State) (c : Nat) : State :=
  let k := s.core c
  if k.status = .running ∧ !(k.atCheapStop ∧ k.wait = .none) then
    (s.setCore c k.halt).bump (Page.scheduler (coreStack c)) 9
  else s

theorem State.windowEnds_core (s : State) (c d : Nat) :
    (s.windowEnds c).core d = if d = c then (s.core d).windowEnds else s.core d := by
  unfold State.windowEnds
  dsimp only
  by_cases hd : d = c
  · subst hd
    rw [if_pos rfl, Core.windowEnds]
    split
    · exact State.core_setCore ..
    · rfl
  · rw [if_neg hd]
    split
    · exact State.core_setCore_other _ _ _ _ hd
    · rfl

theorem State.windowEnds_mem (s : State) (c : Nat) : (s.windowEnds c).mem = s.mem := by
  unfold State.windowEnds; dsimp only; split <;> rfl

theorem State.windowEnds_tasks (s : State) (c : Nat) : (s.windowEnds c).tasks = s.tasks := by
  unfold State.windowEnds; dsimp only; split <;> rfl

theorem execCheapWindowExpiry_stops {s : State} {q seq : Nat} {x : Task} (hx : s.task (cmdKey q seq) = some x)
    (hstop : x.status = .stopping) (hwant : x.wantCheap = true) (htime : x.stopAt + s.cheapWindow x ≤ s.panelTime.toNat) :
    exec (.cheapWindowExpiry q seq) s =
      .next ((s.taskCores x).foldl State.windowEnds (s.setTask (cmdKey q seq) { x with wantCheap := false })) := by
  show execCheapWindowExpiry q seq s = _
  simp only [execCheapWindowExpiry, hx]
  rw [if_pos ⟨hstop, hwant, htime⟩]
  rfl

/-! Scheduler registers (Table 13-10). -/

/-- The scheduler pages (Table 21-2). -/
theorem pageKind_scheduler {stack : Nat} (hs : stack < 72) : pageKind (Page.scheduler stack) = some .scheduler := by
  have hp : (Page.scheduler stack - 0x1000) % 0x40 = 10 := by simp only [Page.scheduler, Page.hub]; omega
  have hr : 0x1000 ≤ Page.scheduler stack ∧ Page.scheduler stack < 0x1000 + 0x40 * 72 := by
    simp only [Page.scheduler, Page.hub]; omega
  unfold pageKind
  rw [if_neg (by omega), if_neg (by omega), if_neg (by omega), if_neg (by omega), if_neg (by omega), if_neg (by omega),
    if_neg (by omega), if_neg (by omega), if_pos hr, hp]
  rfl

/-- RT_RESERVE and PREEMPT_REQ are entries of the table of the scheduler's registers. -/
theorem findReg_scheduler : findReg .scheduler Reg.RT_RESERVE = schedulerRegs[3]? ∧
    findReg .scheduler Reg.PREEMPT_REQ = schedulerRegs[4]? := by decide +kernel

/-- A stored write leaves every other register alone. -/
theorem State.reg_storeWrite_other (s : State) {page off p o : Nat} (v : Word) (h : regKey p o ≠ regKey page off) :
    (s.storeWrite page off v).reg p o = s.reg p o := by
  unfold State.storeWrite
  split
  · rfl
  · split
    · rfl
    · dsimp only
      split <;> exact State.reg_setReg_other _ _ _ _ _ _ h

/-- A stored write leaves the tasks alone. -/
theorem State.storeWrite_tasks (s : State) (page off : Nat) (v : Word) : (s.storeWrite page off v).tasks = s.tasks :=
  congrArg (fun x => x.2.2.1) (s.content_storeWrite page off v)

/-- Which stack leads a task is read from SPARE_MAP of DEVICE, which a scheduler's register does not change. -/
theorem State.leadStack_storeWrite (s : State) (stack off : Nat) (v : Word) (x : Task) :
    (s.storeWrite (Page.scheduler stack) off v).leadStack x = s.leadStack x := by
  unfold State.leadStack
  split
  next l hl =>
    have hlt : l < 64 := List.mem_range.mp (List.mem_of_find?_eq_some hl)
    have key : regKey Page.device (Reg.SPARE_MAP + 8 * l) ≠ regKey (Page.scheduler stack) off := by
      simp only [regKey, Page.device, Reg.SPARE_MAP, Page.scheduler, Page.hub]; omega
    unfold State.boundStack State.fld
    rw [State.reg_storeWrite_other _ _ key]
  next => rfl

/-- The task that a write of PREEMPT_REQ names: that of the job tag, running and led by the hub, and for a partition one of its
own (R415). -/
def State.preemptTarget (s : State) (i : Ident) (stack : Nat) (v : Word) : Option (Nat × Task) :=
  s.tasks.find? fun e => decide (e.2.jobTag = bits v 31 20 ∧ e.2.status = .running ∧ s.leadStack e.2 = some stack)
    && (match identPart i with
      | some p => decide (e.2.part = p)
      | none => true)

theorem State.preemptTarget_storeWrite (s : State) (i : Ident) (stack off : Nat) (v u : Word) :
    (s.storeWrite (Page.scheduler stack) off u).preemptTarget i stack v = s.preemptTarget i stack v := by
  simp only [State.preemptTarget, State.storeWrite_tasks, State.leadStack_storeWrite]

/-- A write of GO while BUSY is clear requests the pre-emption of the task that it names and sets BUSY (R415). -/
theorem preemptReqEff_requests {s : State} {i : Ident} {stack key : Nat} {v : Word} {x : Task} (hgo : bit v 0 = true)
    (hidle : s.fld (Page.scheduler stack) Reg.PREEMPT_REQ 1 1 = 0) (htarget : s.preemptTarget i stack v = some (key, x)) :
    preemptReqEff i stack v s = ((s.storeWrite (Page.scheduler stack) Reg.PREEMPT_REQ v).setTask key
      { x with request := if bit v 16 then 2 else 1 }).setFld (Page.scheduler stack) Reg.PREEMPT_REQ 1 1 1 := by
  rw [← State.preemptTarget_storeWrite s i stack Reg.PREEMPT_REQ v v] at htarget
  unfold preemptReqEff
  extract_lets page busy s1
  rw [if_neg (by simp [hgo, busy, page, hidle])]
  split
  next hnone => exact absurd (htarget.symm.trans hnone) (Option.some_ne_none _)
  next key' x' hsome =>
    cases htarget.symm.trans hsome
    rfl

/-- What a write of RT_RESERVE that the stack's owner makes, and that names nothing in use, stores (R413). -/
theorem rtReserveEff_stores {s : State} {stack l : Nat} {v : Word} (hl : s.logicalStack stack = some l)
    (hown : s.ownsStack (bits v 53 48) l = true) (hbusy : s.reserveBusy stack v = false) :
    rtReserveEff stack v s = s.plainWrite (Page.scheduler stack) Reg.RT_RESERVE v := by
  simp only [rtReserveEff, hl, hown, hbusy]
  rfl

/-- A word with each field of RT_RESERVE copied from another. -/
theorem State.plainWrite_rtReserve (s : State) {stack : Nat} (v : Word) (hs : stack < 72) :
    (s.plainWrite (Page.scheduler stack) Reg.RT_RESERVE v).fld (Page.scheduler stack) Reg.RT_RESERVE 63 63 = bits v 63 63 ∧
    (s.plainWrite (Page.scheduler stack) Reg.RT_RESERVE v).fld (Page.scheduler stack) Reg.RT_RESERVE 53 48 = bits v 53 48 ∧
    (s.plainWrite (Page.scheduler stack) Reg.RT_RESERVE v).fld (Page.scheduler stack) Reg.RT_RESERVE 35 32 = bits v 35 32 := by
  have other : Page.scheduler stack ≠ 0x102 := by simp only [Page.scheduler, Page.hub]; omega
  obtain ⟨hr, -⟩ := findReg_scheduler
  have stored : ∀ hi lo, (s.plainWrite (Page.scheduler stack) Reg.RT_RESERVE v).fld (Page.scheduler stack) Reg.RT_RESERVE hi lo =
      bits ([(63, 63), (53, 48), (41, 41), (40, 40), (35, 32), (12, 8), (4, 0)].foldl
        (fun u f => setBits u f.1 f.2 (bits v f.1 f.2)) (s.reg (Page.scheduler stack) Reg.RT_RESERVE)) hi lo := by
    intro hi lo
    simp only [State.plainWrite, if_neg other, pageKind_scheduler hs, hr]
    exact congrArg (bits · hi lo) (State.reg_setReg_same ..)
  simp only [stored, List.foldl_cons, List.foldl_nil]
  refine ⟨?_, ?_, ?_⟩
  all_goals simp (disch := decide) only [bits_setBits_other, bits_setBits_bits]

/-- Settles O17: each command's trigger is met, so that it stops the cores, and each register write is admitted and takes effect. -/
theorem preemptionCompletes : Obligations.PreemptionCompletes := by
  refine ⟨?_, ?_, ?_, ?_, ?_⟩
  · intro s q seq x hx hrun hpage hreq hcheap
    exact ⟨_, execTaskPreempt_stops hx hrun hpage hreq hcheap, s.beginPreempt_stops (cmdKey q seq) x⟩
  · intro s q seq x hx hstop hwant htime
    have tasks := foldl_keeps (l := s.taskCores x) State.tasks State.windowEnds_tasks
      (s.setTask (cmdKey q seq) { x with wantCheap := false })
    refine ⟨_, execCheapWindowExpiry_stops hx hstop hwant htime, ?_, fun d hd hrun hpoint => ?_,
      foldl_keeps State.mem State.windowEnds_mem _⟩
    · exact (congrArg (Map.find · (cmdKey q seq)) tasks).trans (State.task_setTask_same ..)
    · rw [foldl_core State.windowEnds_core (.inr Core.windowEnds_windowEnds), if_pos hd]
      exact Core.windowEnds_halts (k := s.core d) hrun hpoint
  · intro s q seq rival x y hx hrun hcheap hslice htime hy hother hprio hover hwaits hready
    obtain ⟨htask, hcores, -⟩ := s.beginPreempt_stops (cmdKey q seq) x
    exact ⟨_, execSliceExpiry_stops hx hrun hcheap hslice htime hy hother hprio hover hwaits hready, htask, hcores⟩
  · intro s i stack key v x hs hadm hgo hidle hfind
    obtain ⟨l, w, hwrite⟩ := State.writeVia_effect (preemptReqEff i stack v) hadm
    rw [preemptReqEff_requests (s := { s with lockAt := l, written := w }) hgo hidle hfind] at hwrite
    have hexec : exec (.preemptReqGo i stack v) s = .next (s.writeVia i (Page.scheduler stack)
        Reg.PREEMPT_REQ v (preemptReqEff i stack v)) := by
      show execPreemptReqGo i stack v s = _
      rw [execPreemptReqGo, Nat.mod_eq_of_lt hs]
    rw [hwrite] at hexec
    have content := State.content_storeWrite { s with lockAt := l, written := w } (Page.scheduler stack) Reg.PREEMPT_REQ v
    refine ⟨_, hexec, ?_, ?_, ?_, ?_⟩
    · exact State.task_setTask_same ..
    · exact State.fld_setFld_same _ _ _ 1 (by decide)
    · exact congrArg Prod.fst content
    · exact congrArg (·.2.1) content
  · intro s i stack lg v hs hadm hl hown hbusy
    obtain ⟨l, w, hwrite⟩ := State.writeVia_effect (rtReserveEff stack v) hadm
    rw [rtReserveEff_stores (s := { s with lockAt := l, written := w }) hl hown hbusy] at hwrite
    have hexec : exec (.rtReserveWrite i stack v) s = .next (s.writeVia i (Page.scheduler stack)
        Reg.RT_RESERVE v (rtReserveEff stack v)) := by
      show execRtReserveWrite i stack v s = _
      rw [execRtReserveWrite, Nat.mod_eq_of_lt hs]
    rw [hwrite] at hexec
    obtain ⟨h63, h53, h35⟩ := State.plainWrite_rtReserve { s with lockAt := l, written := w } v hs
    have content := State.content_plainWrite { s with lockAt := l, written := w } (Page.scheduler stack) Reg.RT_RESERVE v
    exact ⟨_, hexec, h63, h53, h35, congrArg Prod.fst content, congrArg (·.2.1) content⟩

end Sys2Proof.Machine

/-!
The checks on a word before its operands are used (O57): a word with an unassigned OPC or FN faults whatever its row, and every
vector instruction is refused where VSTART is not zero, wherever among its checks that one stands.
-/
namespace Sys2Proof.Machine

/-- An issued word with an unassigned OPC or FN is an ILLEGAL_INSTRUCTION, at any address (R183, R184). -/
theorem State.issue_unassigned {s : State} {c : Nat} {w : Word} {row : CoreRow} {sem : Core → Word → Issue}
    (hw : (s.core c).fetched = some w) (hissue : (s.core c).canIssue = true) (hrow : rowOf w = row)
    (hfn : fnAssigned w = false) :
    s.issue c row sem = s.setCore c ((s.core c).stopWith ⟨0x01, St.internal, 0xFFFF, (s.core c).pc, 0, w⟩) := by
  simp only [State.issue, hw, hissue, hrow, hfn]
  rfl

/-- A command whose answer is the state with its core stopped faults precisely. -/
theorem faults_of_stopped {i : Instr} {s : State} {c : Nat} {w : Word} {cause status index faddr : Nat}
    (h : exec i s = .next (s.setCore c ((s.core c).stopWith ⟨cause, status, index, (s.core c).pc, faddr, w⟩))) :
    Faults i s c w cause status index faddr :=
  ⟨_, h, State.core_setCore .., rfl, fun _ hd => State.core_setCore_other _ _ _ _ hd, rfl⟩

/-! VSTART before every vector instruction (R143, check 2 of Table 6-2). -/

/-- A command that is the issue of a row whose instruction is an ILLEGAL_INSTRUCTION where VSTART is not zero. -/
def ChecksVstart (c : Nat) (p : CoreRow × Instr) : Prop :=
  ∃ sem : State → Core → Word → Issue, (∀ s, exec p.2 s = .next (s.issue c p.1 (sem s))) ∧
    ∀ s k w, k.vstart ≠ 0 → sem s k w = .il

/-- No quantisation passes its checks with VSTART other than zero. -/
theorem quantOk_vstart {k : Core} (w : Word) (fdOk : Bool) (h : k.vstart ≠ 0) : quantOk k w fdOk = false := by
  simp [quantOk, h]

/-- Every vector row checks VSTART. Those that first decode a format, a rounding mode or an index do so whether it exists or not,
and the quantisations among the checks that they share. -/
theorem checksVstart_of_mem {c : Nat} : ∀ p ∈ vectorRows c, ChecksVstart c p := by
  simp only [vectorRows, List.forall_mem_cons, List.not_mem_nil, false_imp_iff, implies_true, and_true]
  and_intros
  all_goals refine ⟨_, fun _ => rfl, fun s k w hv => ?_⟩
  all_goals simp only [semVsetvl, semVaddVsubVmul, semVandVorVxor, semVshift, semVcmp, semVfcmp, semKlogic, semVfaddVfsubVfmulVfma,
    semVfminVfmax, semVapprox, semVcvt, semVqMx, semVqTs4, semVqG8, semVqG8l, semVdq, semVred, semVperm, semVslide, semVbcast,
    semVext, semCompress, semExpand, semMaskSummary, semMaxidxMinidx, quantOk_vstart _ _ hv, ne_eq, hv, not_false_eq_true,
    true_or, if_true, Bool.false_and, Bool.false_eq_true, if_false]
  -- Left are the rows that decode a field first, with the fault in every branch.
  all_goals split <;> rfl

/-- Settles O57: an unassigned OPC or FN is refused before the row's own checks, and VSTART other than zero by those of every
vector row. -/
theorem illegalFaults : Obligations.IllegalFaults := by
  refine ⟨?_, ?_⟩
  · intro s c e w p hp hw hissue hrow hfn
    obtain ⟨sem, hexec⟩ := isIssue_of_mem p hp
    refine faults_of_stopped ?_
    rw [hexec, State.issue_unassigned hw hissue hrow hfn]
  · intro s c w p hp h hv
    obtain ⟨sem, hexec, hil⟩ := checksVstart_of_mem p hp
    exact faults_of_fault h (hexec s) (hil s (s.core c) w hv)

end Sys2Proof.Machine

/-!
The element-wise instructions, VSETVL, the compares and the mask logic (O3, O4, O55): what each does once its checks hold, as a
write of its lanes or of its mask register.
-/
namespace Sys2Proof.Machine

section
variable {i : Instr} {s : State} {c : Nat} {row : CoreRow} {k : Core} {w : Word} {sem : Core → Word → Issue}

/-- A command whose instruction works element by element writes its lanes and their flags, and goes on (R142, R145, R171). -/
theorem completes_of_elementwise {f : Nat → Conv} (h : Issues s c row w) (he : exec i s = .next (s.issue c row sem))
    (hs : sem (s.core c) w = elementwise s c (s.core c) w f) :
    Completes i s c ((s.core c).lanes (Ins.d w) (Ins.msel w) (Ins.pol w) f) ((s.core c).pc + 8) :=
  completes_of_done h he hs

/-- A command whose instruction compares writes its mask register alone, and goes on (R151). -/
theorem completes_of_compareInto {f : Nat → Bool} (h : Issues s c row w) (he : exec i s = .next (s.issue c row sem))
    (hs : sem (s.core c) w = compareInto s c (s.core c) w f) :
    Completes i s c ((s.core c).wk (Ins.d w) ((s.core c).mapK (Ins.d w) (s.core c).vl (Ins.msel w) (Ins.pol w) f))
      ((s.core c).pc + 8) :=
  completes_of_done h he hs

/-! VSETVL (R141). -/

/-- A core with an element width and vector length set. -/
def Core.configured (k : Core) (ew vl : Nat) : Core := { k with vtype := ew, vl := vl }

/-- The vector length that VSETVL gives (R141). -/
def Core.requestedVl (k : Core) (w : Word) : Nat := min (k.rx (Ins.a w)).toNat (2048 / ewBits (bits w 1 0))

theorem semVsetvl_done (hv : k.vstart = 0) (hew : bits w 1 0 ≠ 3) (h45 : bits w 45 2 = 0) : semVsetvl s c k w =
    .done (s.setCore c ((k.configured (bits w 1 0) (k.requestedVl w)).wx (Ins.d w) (BitVec.ofNat 64 (k.requestedVl w))))
      (k.pc + 8) := by
  rw [semVsetvl, if_neg (by simp [hv, hew, h45])]
  simp only [coreDone, Core.wx_pc]
  rfl

/-- EW 0b11 is reserved. -/
theorem semVsetvl_reserved (hew : bits w 1 0 = 3) : semVsetvl s c k w = .il :=
  if_pos (.inr (.inl hew))

/-- A write of a scalar register changes at most the scalar registers. -/
theorem Core.wx_eq (k : Core) (r : Nat) (v : Word) : ∃ x, k.wx r v = { k with x := x } := by
  unfold Core.wx
  split
  · exact ⟨k.x, rfl⟩
  · exact ⟨_, rfl⟩

theorem vsetvl_completes (h : Issues s c .vsetvl w) (hv : (s.core c).vstart = 0) (hew : bits w 1 0 ≠ 3) (h45 : bits w 45 2 = 0) :
    Completes (.vsetvl c) s c (((s.core c).configured (bits w 1 0) ((s.core c).requestedVl w)).wx (Ins.d w)
      (BitVec.ofNat 64 ((s.core c).requestedVl w))) ((s.core c).pc + 8) :=
  completes_of_done h rfl (semVsetvl_done hv hew h45)

end

/-- Settles O55: VSETVL completes with its core configured, and EW 0b11 fails its checks. -/
theorem vsetvlSets : Obligations.VsetvlSets := by
  refine ⟨?_, fun s c w h hew => faults_of_fault h rfl (semVsetvl_reserved hew)⟩
  rintro s c ew vl w h hv rfl hlt h45 rfl
  obtain ⟨t, hexec, hcore, -, -, -⟩ := vsetvl_completes h hv (by omega) h45
  obtain ⟨x, hx⟩ := Core.wx_eq ((s.core c).configured (bits w 1 0) ((s.core c).requestedVl w)) (Ins.d w)
    (BitVec.ofNat 64 ((s.core c).requestedVl w))
  have hfields := hcore.trans (congrArg (fun k => (s.core c).retire k ((s.core c).pc + 8)) hx)
  refine ⟨t, hexec, congrArg Core.vtype hfields, congrArg Core.vl hfields, congrArg Core.vlmax hfields, fun hd => ?_,
    fun m hm => ?_, (congrArg Core.v hfields :), (congrArg Core.k hfields :), (congrArg Core.fflags hfields :),
    congrArg Core.pc hfields⟩
  · rw [hcore]
    exact Core.rx_wx_same _ _ _ hd
  · rw [hcore]
    exact Core.rx_wx_other _ _ _ _ hm

/-! The lanes of the element-wise instructions (R148 to R150, R166, R168). -/

section
variable {s : State} {c : Nat} {k : Core} {w : Word} (hv : k.vstart = 0)
include hv

section
variable (hm : maskPolicy w = true) (h40 : bits w 40 36 = 0)
include hm h40

section
variable (h30 : bits w 30 27 = 0) (h25 : bits w 25 16 = 0)
include h30 h25

theorem semVaddVsubVmul_lanes (h7 : bits w 7 2 = 0) (hmode : bits w 1 0 ≠ 3) (hfn : 2 < Ins.fnV w → bits w 1 0 = 0) :
    semVaddVsubVmul s c k w = elementwise s c k w fun i =>
      intElem k.ew (Ins.fnV w) (bits w 1 0) (k.elem (Ins.a w) k.ew i) (operandB k w i) :=
  if_neg (by simpa [zf, hv, hm, h40, h30, h25, h7, hmode] using hfn)

theorem semVandVorVxor_lanes (h7 : bits w 7 0 = 0) : semVandVorVxor s c k w = elementwise s c k w fun i =>
    ⟨logicElem k.ew (Ins.fnV w) (k.elem (Ins.a w) k.ew i) (operandB k w i), {}⟩ :=
  if_neg (by simp [zf, hv, hm, h40, h30, h25, h7])

theorem semVshift_lanes (h7 : bits w 7 0 = 0) : semVshift s c k w = elementwise s c k w fun i =>
    ⟨shiftElem k.ew (Ins.fnV w) (k.elem (Ins.a w) k.ew i) (operandB k w i), {}⟩ :=
  if_neg (by simp [zf, hv, hm, h40, h30, h25, h7])

theorem semVslide_lanes {n : Nat} (hn : immOrX k w = some n) (hfn : Ins.fnV w = 2) : semVslide s c k w =
    elementwise s c k w fun i => ⟨if i + n < k.vl then k.elem (Ins.a w) k.ew (i + n) else 0, {}⟩ := by
  simp only [semVslide, hn]
  rw [if_neg (by simp [zf, hv, hm, h40, h30, h25]), if_neg (by omega)]

theorem semVbcast_scalar (hvs : Ins.vs w = true) (ha : Ins.a w = 0) (hi : Ins.imm8 w = 0) : semVbcast s c k w =
    elementwise s c k w fun _ => ⟨(k.rx (Ins.b w)).toNat % 2 ^ k.ew, {}⟩ := by
  rw [semVbcast, if_neg (by simp [zf, hv, hm, h40, h30, h25, hvs, ha, hi])]
  simp only [hvs, if_true]

theorem semVbcast_element (hvs : Ins.vs w = false) (hb : Ins.b w = 0) : semVbcast s c k w =
    elementwise s c k w fun _ => ⟨if Ins.imm8 w < k.vlmax then k.elem (Ins.a w) k.ew (Ins.imm8 w) else 0, {}⟩ := by
  rw [semVbcast, if_neg (by simp [zf, hv, hm, h40, h30, h25, hvs, hb])]
  simp only [hvs, Bool.false_eq_true, if_false]

theorem semVcmp_mask (h55 : bits w 55 54 = 0) (h7 : bits w 7 1 = 0) : semVcmp s c k w = compareInto s c k w fun i =>
    if bit w 0 then intCompare (Ins.fnV w) (k.elem (Ins.a w) k.ew i) (operandB k w i)
    else intCompare (Ins.fnV w) (signed k.ew (k.elem (Ins.a w) k.ew i)) (signed k.ew (operandB k w i)) :=
  if_neg (by simp [zf, hv, hm, h55, h40, h30, h25, h7])

end

theorem semVperm_lanes (h30 : bits w 30 16 = 0) (h7 : bits w 7 0 = 0) : semVperm s c k w = elementwise s c k w fun i =>
    let j := k.elem (Ins.b w) k.ew i
    ⟨if j < k.vlmax then k.elem (Ins.a w) k.ew j else 0, {}⟩ :=
  if_neg (by simp [zf, hv, hm, h40, h30, h7])

theorem semVfcmp_mask {f : Fmt} (hf : vecFmt k w = some f) (h55 : bits w 55 54 = 0) (h30 : bits w 30 27 = 0)
    (h20 : bits w 20 16 = 0) (h7 : bits w 7 0 = 0) : semVfcmp s c k w = compareInto s c k w fun i =>
      fpCompare (Ins.fnV w) (f.decode (k.elem (Ins.a w) k.ew i)) (f.decode (operandB k w i)) := by
  simp only [semVfcmp, hf]
  exact if_neg (by simp [zf, hv, hm, h55, h40, h30, h20, h7])

end

theorem semExpand_lanes (hm : 8 ≤ Ins.msel w) (h45 : bits w 45 36 = 0) (h30 : bits w 30 16 = 0) (h7 : bits w 7 0 = 0) :
    semExpand s c k w = elementwise s c k w fun i =>
      ⟨k.elem (Ins.a w) k.ew (k.activeIdx i (Ins.msel w)).length, {}⟩ :=
  if_neg (by simp [maskNamed, zf, hv, hm, h45, h30, h7])

theorem semKlogic_done (hm : maskNone w = true) (h55 : bits w 55 54 = 0) (h50 : bits w 50 49 = 0) (h45 : bits w 45 44 = 0)
    (h40 : bits w 40 36 = 0) (h30 : bits w 30 16 = 0) (h7 : bits w 7 0 = 0) (hnot : Ins.fnV w = 4 → Ins.b w = 0) :
    semKlogic s c k w =
      .done (s.setCore c (k.wk (Ins.d w) (kOp (Ins.fnV w) (k.rk (Ins.a w)) (k.rk (Ins.b w))))) (k.pc + 8) :=
  if_neg (by simpa [zf, hv, hm, h55, h50, h45, h40, h30, h7] using hnot)

end

/-- Settles O3: each instruction's checks hold, so that it sets the vector length or writes its lanes. -/
theorem vectorIntCompletes : Obligations.VectorIntCompletes := by
  refine ⟨?_, ?_, ?_, ?_, ?_, ?_, ?_, ?_, ?_⟩
  · intro s c w h hv hew h45
    exact vsetvl_completes h hv hew h45
  · intro s c w h hv hm h40 h30 h25 h7 hmode hfn
    exact completes_of_elementwise h rfl (semVaddVsubVmul_lanes hv hm h40 h30 h25 h7 hmode hfn)
  · intro s c w h hv hm h40 h30 h25 h7
    exact completes_of_elementwise h rfl (semVandVorVxor_lanes hv hm h40 h30 h25 h7)
  · intro s c w h hv hm h40 h30 h25 h7
    exact completes_of_elementwise h rfl (semVshift_lanes hv hm h40 h30 h25 h7)
  · intro s c w h hv hm h40 h30 h7
    exact completes_of_elementwise h rfl (semVperm_lanes hv hm h40 h30 h7)
  · intro s c n w h hv hm h40 h30 h25 hn hfn
    exact completes_of_elementwise h rfl (semVslide_lanes hv hm h40 h30 h25 hn hfn)
  · intro s c w h hv hm h40 h30 h25 hvs ha hi
    exact completes_of_elementwise h rfl (semVbcast_scalar hv hm h40 h30 h25 hvs ha hi)
  · intro s c w h hv hm h40 h30 h25 hvs hb
    exact completes_of_elementwise h rfl (semVbcast_element hv hm h40 h30 h25 hvs hb)
  · intro s c w h hv hm h45 h30 h7
    exact completes_of_elementwise h rfl (semExpand_lanes hv hm h45 h30 h7)

/-- Settles O4: each instruction's checks hold, so that it writes its mask register alone. -/
theorem maskCompletes : Obligations.MaskCompletes := by
  refine ⟨?_, ?_, ?_⟩
  · intro s c w h hv hm h55 h40 h30 h25 h7
    exact completes_of_compareInto h rfl (semVcmp_mask hv hm h40 h30 h25 h55 h7)
  · intro s c w f h hf hv hm h55 h40 h30 h20 h7
    exact completes_of_compareInto h rfl (semVfcmp_mask hv hm h40 hf h55 h30 h20 h7)
  · intro s c w h hv hm h55 h50 h45 h40 h30 h7 hnot
    exact completes_of_done h rfl (semKlogic_done hv hm h55 h50 h45 h40 h30 h7 hnot)

end Sys2Proof.Machine

/-!
The scalar instructions and the jumps (O1, O2): a scalar instruction whose reserved fields are 0 is a write of XD, and a branch that
is taken or a jump is the check of its target, which it reaches or at which it faults.
-/
namespace Sys2Proof.Machine

section
variable {i : Instr} {s : State} {c : Nat} {row : CoreRow} {w : Word} {sem : Core → Word → Issue}

/-! Writes of XD (R189). -/

/-- A command whose instruction passes its reserved fields and writes XD changes XD alone, and goes on at PC + 8 (R189). -/
theorem completes_of_scalarWrite {reservedOk : Bool} {v : Word} (h : Issues s c row w)
    (he : exec i s = .next (s.issue c row sem)) (hs : sem (s.core c) w = scalarWrite s c (s.core c) w reservedOk v)
    (hok : reservedOk = true) : Completes i s c ((s.core c).wx (Ins.d w) v) ((s.core c).pc + 8) := by
  have hdone : sem (s.core c) w = coreDone s c ((s.core c).wx (Ins.d w) v) := hs.trans (if_pos hok)
  refine completes_of_done h he (hdone.trans ?_)
  rw [coreDone, Core.wx_pc]

/-! Targets (R190). The range is checked before the alignment. -/

section
variable {t : Word}

theorem jumpTo_reaches (hrange : t.toNat ≤ 0x3FFF8) (halign : t.toNat % 8 = 0) : jumpTo s t = .done s t.toNat := by
  rw [jumpTo, if_neg (Nat.not_lt.mpr hrange), if_neg (not_not.mpr halign)]

theorem jumpTo_outside (hrange : 0x3FFF8 < t.toNat) : jumpTo s t = .lr t.toNat := if_pos hrange

theorem jumpTo_misaligned (hrange : t.toNat ≤ 0x3FFF8) (halign : t.toNat % 8 ≠ 0) : jumpTo s t = .lm t.toNat := by
  rw [jumpTo, if_neg (Nat.not_lt.mpr hrange), if_pos halign]

/-- A command whose instruction jumps faults precisely at a target outside the local store, and at one inside it that is not a
multiple of 8; what the jump would have written, in `u`, is lost (R93, R190, R191). -/
theorem faults_of_jumpTo {u : State} (h : Issues s c row w) (he : exec i s = .next (s.issue c row sem))
    (hs : sem (s.core c) w = jumpTo u t) :
    (0x3FFF8 < t.toNat → Faults i s c w 0x02 0x31 0xFFFF t.toNat) ∧
    (t.toNat ≤ 0x3FFF8 → t.toNat % 8 ≠ 0 → Faults i s c w 0x03 0x31 0xFFFF t.toNat) :=
  ⟨fun hrange => faults_of_fault h he (hs.trans (jumpTo_outside hrange)),
    fun hrange halign => faults_of_fault h he (hs.trans (jumpTo_misaligned hrange halign))⟩

end

/-! The target of each instruction, and what it writes on the way (R190, R191). -/

section
variable {k : Core}

theorem semBranch_taken (hd : Ins.d w = 0) (htaken : branchTaken (Ins.fnS w) (k.rx (Ins.a w)) (k.rx (Ins.b w)) = true) :
    semBranch s k w = jumpTo s (BitVec.ofNat 64 k.pc + sext 32 w.toNat) := by
  rw [semBranch, if_neg (not_not.mpr hd), if_pos htaken, Ins.imm32]

theorem semBranch_notTaken (hd : Ins.d w = 0) (htaken : branchTaken (Ins.fnS w) (k.rx (Ins.a w)) (k.rx (Ins.b w)) = false) :
    semBranch s k w = .done s (k.pc + 8) := by
  rw [semBranch, if_neg (not_not.mpr hd), if_neg (ne_true_of_eq_false htaken)]

theorem semJal_jumps (hreserved : bits w 50 40 = 0) : semJal s c k w =
    jumpTo (s.setCore c (k.wx (Ins.d w) (BitVec.ofNat 64 (k.pc + 8)))) (BitVec.ofNat 64 k.pc + sext 32 w.toNat) :=
  if_neg (not_not.mpr hreserved)

theorem semJalr_jumps (hreserved : bits w 45 40 = 0) : semJalr s c k w =
    jumpTo (s.setCore c (k.wx (Ins.d w) (BitVec.ofNat 64 (k.pc + 8)))) (k.rx (Ins.a w) + sext 32 w.toNat) :=
  if_neg (not_not.mpr hreserved)

end

end

/-- Settles O1: the reserved fields of each instruction are 0, so that it writes XD. -/
theorem scalarCompletes : Obligations.ScalarCompletes := by
  refine ⟨?_, ?_, ?_, ?_, ?_⟩
  · intro s c w h hhint himm
    exact completes_of_scalarWrite h rfl rfl (by simp [hhint, himm])
  · intro s c w h hreserved
    exact completes_of_scalarWrite h rfl rfl (decide_eq_true hreserved)
  · intro s c w h hhint himm
    exact completes_of_scalarWrite h rfl rfl (by simp [hhint, himm])
  · intro s c w h hreserved
    exact completes_of_scalarWrite h rfl rfl (decide_eq_true hreserved)
  · intro s c w h hreserved
    exact completes_of_scalarWrite h rfl rfl (decide_eq_true hreserved)

/-- Settles O2: a taken branch, JAL and JALR are jumps to their targets, which each reaches where it is in range and aligned and at
which it faults otherwise; a branch not taken checks no target. -/
theorem jumpCompletes : Obligations.JumpCompletes := by
  refine ⟨?_, ?_, ?_, ?_, ?_, ?_, ?_⟩
  · rintro s c w t h hd htaken rfl hrange halign
    exact completes_of_same h rfl ((semBranch_taken hd htaken).trans (jumpTo_reaches hrange halign))
  · intro s c w h hd htaken
    exact completes_of_same h rfl (semBranch_notTaken hd htaken)
  · rintro s c w t h hreserved rfl hrange halign
    exact completes_of_done h rfl ((semJal_jumps hreserved).trans (jumpTo_reaches hrange halign))
  · rintro s c w t h hreserved rfl hrange halign
    exact completes_of_done h rfl ((semJalr_jumps hreserved).trans (jumpTo_reaches hrange halign))
  · rintro s c w t h hd htaken rfl
    exact faults_of_jumpTo h rfl (semBranch_taken hd htaken)
  · rintro s c w t h hreserved rfl
    exact faults_of_jumpTo h rfl (semJal_jumps hreserved)
  · rintro s c w t h hreserved rfl
    exact faults_of_jumpTo h rfl (semJalr_jumps hreserved)

end Sys2Proof.Machine

/-!
The blend engine (O21): what arming a command, the notice of its collective, the return of its PROG routine and the next step of the
running operation do, each as an equation of its command under its trigger (R242 to R263).
-/
namespace Sys2Proof.Machine

section
variable {s : State}

/-! Arming (R242 to R247, R260). -/

section
variable (s : State) (c : Cmd) (o : BlendOp)

@[simp] theorem State.arm_blends : (s.arm c o).blends = s.blends ++ [o] := rfl
@[simp] theorem State.arm_mem : (s.arm c o).mem = s.mem := rfl
@[simp] theorem State.cmd_arm : (s.arm c o).cmd c.queue c.seq = some { c with started := true } := Map.find_set_same ..

end

/-- The operation that an UPDATE arms while its collective has not completed. -/
def Cmd.updateOp (c : Cmd) (stack watch arrival : Nat) (d m : List Byte) : BlendOp :=
  { queue := c.queue, seq := c.seq, stack := stack, part := c.part, pasid := c.pasid, jobTag := c.jobTag, jobSeed := c.jobSeed
    step := c.step, commit := false, descs := [d], maps := [m], watch := watch, arrival := arrival }

/-- The operation that a COMMIT of a list of groups arms, ready at once (R244). -/
def Cmd.commitOp (c : Cmd) (stack arrival : Nat) (g : List (List Byte × List Byte)) : BlendOp :=
  { queue := c.queue, seq := c.seq, stack := stack, part := c.part, pasid := c.pasid, jobTag := c.jobTag, jobSeed := c.jobSeed
    step := c.step, commit := true, descs := g.map Prod.fst, maps := g.map Prod.snd, verdict := c.cs.getD 3 0, arrival := arrival
    ready := some arrival }

/-- The engine whose collectives an UPDATE of a descriptor watches (R244). -/
def State.watched (s : State) (stack : Nat) (d : List Byte) : Nat :=
  if Lg.collSel d then (s.boundStack (Lg.collStack d)).getD stack else stack

/-- An engine without completed collectives of a job tag has no record of any. -/
theorem State.collRecord_none {stack jobTag : Nat} (seq : Nat) (h : s.collDone.get [] (stack * 4096 + jobTag) = []) :
    s.collRecord stack jobTag seq = none := by
  rw [State.collRecord, h, List.find?_nil]

/-- An UPDATE whose descriptor and resident map are read and pass their checks is armed (R242 to R247). -/
theorem exec_blendUpdate_arms {u r : State} {stack : Nat} {c : Cmd} {d m : List Byte} (hcmd : s.cmd c.queue c.seq = some c)
    (hready : s.blendReady c 1 = some stack) (hroom : (s.armed stack).length < 16) (halign : c.cs.getD 1 0 % 64 = 0)
    (hdesc : s.vread (s.cmdCtxt c .engine) (c.cs.getD 1 0) 192 = (.status St.ok, d, u)) (hsound : u.lgStatus c stack d = St.ok)
    (hmap : u.vread (s.cmdCtxt c .engine) (Lg.addr d Lg.resmap) (32 * Lg.nres d) = (.status St.ok, m, r))
    (hmapSound : mapSound d m = true) (hnone : r.collDone.get [] (r.watched stack d * 4096 + c.jobTag) = []) :
    exec (.blendUpdate c.queue c.seq) s = .next (({ r with useCtr := r.useCtr + 1 } : State).arm c
      (c.updateOp stack (r.watched stack d) r.useCtr d m)) := by
  have hrecord := State.collRecord_none (Lg.collSeq d) hnone
  have hsoundMap : ¬ ((!mapSound d m) = true ∨ Lg.collSeq d + 4096 ≤ 0) := by simp [hmapSound]
  rw [State.watched] at hnone hrecord
  change execBlendUpdate _ _ _ = _
  simp only [execBlendUpdate, hcmd, hready, if_neg (Nat.not_le.mpr hroom), if_neg (not_not.mpr halign), hdesc, hsound, hmap,
    hnone, hrecord, List.foldl_nil, if_neg hsoundMap, ne_eq, not_true_eq_false, if_false]
  rfl

/-- A COMMIT whose list is read and whose groups pass their checks is armed (R242, R244, R247, R260). -/
theorem exec_blendCommit_arms {u r : State} {stack : Nat} {c : Cmd} {l : List Byte} {g : List (List Byte × List Byte)}
    (hcmd : s.cmd c.queue c.seq = some c) (hready : s.blendReady c 2 = some stack) (hroom : (s.armed stack).length < 16)
    (hmin : 1 ≤ c.cs.getD 2 0) (hmax : c.cs.getD 2 0 ≤ 4096)
    (hlist : s.vread (s.cmdCtxt c .engine) (c.cs.getD 1 0) (8 * c.cs.getD 2 0) = (.status St.ok, l, u))
    (hgroups : State.readGroups c (s.cmdCtxt c .engine) stack ((List.range (c.cs.getD 2 0)).map fun i => leAt l (8 * i) 8) u =
      (.status St.ok, g, r)) :
    exec (.blendCommit c.queue c.seq) s = .next (({ r with useCtr := r.useCtr + 1 } : State).arm c
      (c.commitOp stack r.useCtr g)) := by
  have hcount : ¬ (c.cs.getD 2 0 = 0 ∨ 4096 < c.cs.getD 2 0) := by omega
  change execBlendCommit _ _ _ = _
  simp only [execBlendCommit, hcmd, hready, if_neg (Nat.not_le.mpr hroom), if_neg hcount, hlist, hgroups, ne_eq,
    not_true_eq_false, if_false]
  rfl

/-! Readiness (R244). -/

/-- The notice of a completed collective readies an armed UPDATE that waits for it, and touches nothing but armed operations. -/
theorem exec_collCompletionNotify_readies {stack jobTag seq : Nat} {r : Nat × Nat × Nat} {o : BlendOp}
    (hrecord : s.collRecord stack jobTag seq = some r) (ho : o ∈ s.blends)
    (hwaits : o.commit = false ∧ o.ready = none ∧ o.watch = stack ∧ o.jobTag = jobTag ∧ Lg.collSeq (o.descs.headD []) = seq) :
    ∃ t, exec (.collCompletionNotify stack jobTag seq) s = .next t ∧ o.readied s.useCtr (some r) ∈ t.blends ∧
      ({ t with blends := s.blends, useCtr := s.useCtr } : State) = s := by
  change ∃ t, execCollCompletionNotify _ _ _ _ = _ ∧ _
  simp only [execCollCompletionNotify, hrecord]
  exact ⟨_, rfl, List.mem_map.mpr ⟨o, ho, if_pos hwaits⟩, rfl⟩

/-! Steps of the running operation (R252 to R260). -/

/-- A running operation that waits for no page makes the writes that are left, and otherwise starts, takes its next tile or closes;
without a PARK bucket its command stays as it is (R386). -/
theorem exec_blendOpRun_steps {stack : Nat} {o : BlendOp} (hnext : s.blendNext stack = some o) (hpage : o.pageWait = none) :
    exec (.blendOpRun stack 0) s = .next (
      if o.writes ≠ [] then s.blendFlush o
      else if !o.started then (if o.commit then s.commitStart o else s.updateStart o)
      else if o.tile < Lg.tiles o.desc then (if Lg.kind o.desc = 4 then s.progStep o else s.blendTile o)
      else s.blendClose o (s.blendOk o)) := by
  change execBlendOpRun _ _ _ = _
  cases hcmd : s.blendCmd o with
  | none => simp only [execBlendOpRun, hnext, hcmd, hpage, ne_eq, not_true_eq_false, if_false]
  | some c => simp only [execBlendOpRun, hnext, hcmd, hpage, Nat.zero_mod, ne_eq, not_true_eq_false, if_true, if_false]

/-! The PROG routine (R256, R263). -/

section
variable {stack core : Nat} {o : BlendOp} {p : ProgCall} (hcall : s.progOf stack core = some (o, p))
include hcall

theorem exec_progReturn_keeps (buf : List Byte) : exec (.progReturn stack core 0 buf) s = .next (s.putBlend { o with
    progs := o.progs.map fun x => if x.core = p.core then { x with back := some buf } else x }) := by
  change execProgReturn _ _ _ _ _ = _
  rw [execProgReturn, hcall]
  rfl

theorem exec_progReturn_fails {a0 : Nat} (buf : List Byte) (ha : a0 ≠ 0) :
    exec (.progReturn stack core a0 buf) s = .next (s.blendFail o St.internal) := by
  change execProgReturn _ _ _ _ _ = _
  rw [execProgReturn, hcall]
  exact congrArg Host.Outcome.next (if_pos ha)

theorem exec_progTimeout_fails (hlimit : s.fld (Page.blend stack) 0x100 15 0 ≠ 0) :
    exec (.progTimeout stack core) s = .next (s.blendFail o St.internal) := by
  change execProgTimeout _ _ _ = _
  rw [execProgTimeout, hcall]
  exact congrArg Host.Outcome.next (if_neg hlimit)

end

/-- A COMMIT that fails posts UPDATE_FAILED and ends with the tiles and groups that it has done (R263). -/
theorem State.blendFail_commit (s : State) {o : BlendOp} (st : Nat) (hcommit : o.commit = true) :
    s.blendFail o st = (s.genEvent (Page.blend o.stack) 0x0241 o.part
      (place 31 0 (Lg.groupId o.desc) ||| place 55 32 o.tile ||| place 63 56 st)).blendEnd o st o.tile o.group 0 0 :=
  if_pos hcommit

end

/-- Settles O21: each command's checks hold, so that it is armed; a notice readies, a routine's return hands its tile back or ends its
operation, and the running operation takes the step that its progress calls for. -/
theorem blendCompletes : Obligations.BlendCompletes := by
  refine ⟨?_, ?_, ?_, ?_, ?_, ?_⟩
  · rintro s u r q seq stack c d m hcmd hready rfl rfl hroom halign hdesc hsound hmap hmapSound hnone
    exact ⟨_, _, exec_blendUpdate_arms hcmd hready hroom halign hdesc hsound hmap hmapSound hnone, State.arm_blends .., rfl, rfl, rfl,
      rfl, rfl, rfl, rfl, rfl, rfl, State.cmd_arm .., State.arm_mem ..⟩
  · rintro s u r q seq stack n c l g hcmd hready rfl rfl hroom rfl hmin hmax hlist hgroups
    exact ⟨_, _, exec_blendCommit_arms hcmd hready hroom hmin hmax hlist hgroups, State.arm_blends .., rfl, rfl, rfl, rfl, rfl, rfl,
      rfl, State.cmd_arm .., State.arm_mem ..⟩
  · intro s stack jobTag seq r o hrecord ho hcommit hready hwatch htag hseq
    exact exec_collCompletionNotify_readies hrecord ho ⟨hcommit, hready, hwatch, htag, hseq⟩
  · intro s stack core buf o p hcall
    exact exec_progReturn_keeps hcall buf
  · intro s stack o hnext hpage
    rw [exec_blendOpRun_steps hnext hpage]
    refine ⟨fun hw => ?_, fun hw hs hc => ?_, fun hw hs hc => ?_, fun hw hs ht hk => ?_, fun hw hs ht hk => ?_, fun hw hs ht => ?_⟩
    · rw [if_pos hw]
    · simp [hw, hs, hc]
    · simp [hw, hs, hc]
    · simp [hw, hs, ht, hk]
    · simp [hw, hs, ht, hk]
    · simp [hw, hs, Nat.not_lt.mpr ht]
  · rintro s u stack core a0 buf o p hcall rfl hcommit
    rw [← State.blendFail_commit s St.internal hcommit]
    exact ⟨exec_progReturn_fails hcall buf, exec_progTimeout_fails hcall⟩

end Sys2Proof.Machine

/-!
GDDR controllers (O24): a request that is served, held, retried or retrained, the temperature and the refresh rate, the scrub and
the rewrites it queues (R287 to R295).
-/
namespace Sys2Proof.Machine

/-! Registers and counters of a page (Table 21-5). -/

/-- Registers at different places of one page. -/
theorem regKey_ne_of_offset {page o o' : Nat} (h : o / 8 ≠ o' / 8) : regKey page o ≠ regKey page o' := by
  simpa [regKey] using h

section
variable (s : State) (page i : Nat)

/-- A counter that is increased. -/
theorem State.reg_bump_same (n : Nat) :
    (s.bump page i n).reg page (Reg.CNT + 8 * i) = s.reg page (Reg.CNT + 8 * i) + BitVec.ofNat 64 n :=
  State.reg_setReg_same ..

/-- Increasing a counter leaves every other register alone. -/
theorem State.reg_bump_other {p o : Nat} (n : Nat) (h : regKey p o ≠ regKey page (Reg.CNT + 8 * i)) :
    (s.bump page i n).reg p o = s.reg p o :=
  State.reg_setReg_other _ _ _ _ _ _ h

/-- A counter of units leaves every other register alone. -/
theorem State.reg_bumpUnits_other {p o : Nat} (n unit : Nat) (h : regKey p o ≠ regKey page (Reg.CNT + 8 * i)) :
    (s.bumpUnits page i n unit).reg p o = s.reg p o :=
  State.reg_bump_other _ _ _ _ h

end

/-! The state of a controller. -/

section
variable (s : State) (st g page : Nat)

@[simp] theorem State.gddrCtl_modGddr (f : GddrDev → GddrDev) : (s.modGddr st g f).gddrCtl st g = f (s.gddrCtl st g) :=
  Map.get_set_same ..

@[simp] theorem State.gddrCtl_setFld (off hi lo n : Nat) : (s.setFld page off hi lo n).gddrCtl st g = s.gddrCtl st g := rfl

@[simp] theorem State.gddrCtl_bump (i n : Nat) : (s.bump page i n).gddrCtl st g = s.gddrCtl st g := rfl

@[simp] theorem State.gddrCtl_bumpUnits (i n unit : Nat) : (s.bumpUnits page i n unit).gddrCtl st g = s.gddrCtl st g := rfl

@[simp] theorem State.gddrCtl_genEvent (code part : Nat) (payload : Word) :
    (s.genEvent page code part payload).gddrCtl st g = s.gddrCtl st g := by
  unfold State.genEvent State.genEventAs
  dsimp only
  split <;> rfl

end

/-! Transfers (R293 to R295). -/

section
variable {s : State} {st off n : Nat} {data : List Byte}

/-- A read of a sound line without an error answers the device's bytes (R293). -/
theorem State.gddrServe_read (hsound : s.badStatus (gddrBase st + off) = St.ok) :
    s.gddrServe st off n [] .ok = s.answer St.ok (s.deviceBytes st off n) := by
  have hread : ¬ (s.badStatus (gddrBase st + off) ≠ St.ok ∨ Ecc.ok = .uncorrectable) := by simp [hsound]
  have hclean : ¬ s.badStatus (gddrBase st + off) = St.poisoned := by rw [hsound]; decide
  unfold State.gddrServe
  extract_lets g page a known s'
  rw [if_pos rfl, if_neg hclean, if_neg hread]
  rfl

/-- The address of a line's first byte. -/
theorem gddrBase_add_mod (st : Nat) (h : off % 128 = 0) : (gddrBase st + off) % 128 = 0 := by
  simp only [gddrBase]; omega

/-- A write of a whole line drops its queued rewrite and its damage, and stores its bytes (R294, R295). -/
theorem State.gddrServe_line (halign : off % 128 = 0) (hlen : data.length = 128)
    (huncached : s.cacheFind st ((gddrBase st + off) / 128) = none) : ∃ d, s.gddrServe st off n data .ok =
      ({ s with gddr := d, bad := s.bad.drop fun l => l == (gddrBase st + off) / 128
                mem := s.mem.writeBytes (gddrBase st + off) data } : State).answer St.ok [] := by
  have hdata : data ≠ [] := List.ne_nil_of_length_pos (by omega)
  unfold State.gddrServe
  extract_lets g page a known s' sw whole
  refine ⟨sw.gddr, ?_⟩
  have hwhole : whole = true := decide_eq_true ⟨gddrBase_add_mod st halign, hlen⟩
  have hnone : State.cacheFind { sw with bad := sw.bad.drop fun l => l == a / 128 } st ((gddrBase st + off) / 128) = none :=
    huncached
  rw [if_neg hdata, hwhole, if_neg (by simp), if_pos rfl, State.deviceWrite, hnone]
  rfl

/-- A key that has been dropped reads as the default. -/
theorem Map.get_drop_same {α : Type} (d : α) (m : Map α) (i : Nat) : (m.drop fun k => k == i).get d i = d := by
  induction m with
  | nil => rfl
  | cons e t ih =>
    by_cases h : e.1 = i
    · simpa [Map.drop, h] using ih
    · simpa [Map.drop, h, Map.get] using ih

/-- A controller that trains nothing, holds nothing and does not throttle serves a request within one line at once (R289, R291). -/
theorem exec_gddrAccess_serves (hst : st < 72) (hoff : off < 0x600000000) (hn : off % 128 + n ≤ 128)
    (hdata : off % 128 + data.length ≤ 128) (hstatus : s.gddrStatus st off = St.ok)
    (htrain : s.fld (Page.gddr st (gddrDev off)) gddrStatOff 14 14 = 0) (hheld : (s.gddrCtl st (gddrDev off)).held = none)
    (hcool : s.fld (Page.gddr st (gddrDev off)) gddrStatOff 9 8 ≠ 2) (ecc : Ecc) :
    exec (.gddrAccess st off n data true 0 ecc) s = .next (s.gddrServe st off n data ecc) := by
  have hlen : inLine off n = n := Nat.min_eq_left (by omega)
  have htake : data.take (inLine off data.length) = data := List.take_of_length_le (Nat.le_min.mpr ⟨le_rfl, by omega⟩)
  have hfree : ¬ (s.fld (Page.gddr st (gddrDev off)) gddrStatOff 14 14 = 1 ∨
      (s.gddrCtl st (gddrDev off)).held.isSome = true) := by simp [htrain, hheld]
  change execGddrAccess _ _ _ _ _ _ _ _ = _
  simp only [execGddrAccess, Nat.mod_eq_of_lt hst, Nat.mod_eq_of_lt hoff, hlen, htake]
  rw [if_neg (not_not.mpr hstatus), if_neg hfree, if_neg hcool, if_pos trivial]

end

/-! Temperature and refresh (R287, R288). -/

/-- A controller that has taken a reading of a device that is NORMAL, before its refresh rate follows (R287). -/
def State.withReading (s : State) (st g t : Nat) : State :=
  (((s.setFld (Page.gddr st g) gddrStatOff 7 0 (min t 255)).markWritten (Page.gddr st g) gddrStatOff).modGddr st g fun x =>
    { x with hot := if 95 < t then true else if t ≤ 92 then false else x.hot }).setFld (Page.gddr st g) gddrStatOff 9 8 0

/-- TEMP holds the reading and TSTATE is NORMAL, and GDDR_CFG stays. -/
theorem State.withReading_fields (s : State) (st g : Nat) {t : Nat} (ht : t ≤ 85) :
    (s.withReading st g t).fld (Page.gddr st g) gddrStatOff 7 0 = t ∧
    (s.withReading st g t).fld (Page.gddr st g) gddrStatOff 9 8 = 0 ∧
    (s.withReading st g t).fld (Page.gddr st g) 0x100 10 8 = s.fld (Page.gddr st g) 0x100 10 8 := by
  have config : regKey (Page.gddr st g) 0x100 ≠ regKey (Page.gddr st g) gddrStatOff := regKey_ne_of_offset (by decide)
  refine ⟨?_, State.fld_setFld_same _ _ _ 0 (by decide), ?_⟩
  · rw [State.withReading, State.fld_setFld_other _ _ _ _ (by decide) (.inl (by decide))]
    exact (s.fld_setFld_same _ _ (min t 255) (by decide)).trans (by omega)
  · rw [State.withReading, State.fld_setFld_key _ _ _ _ _ _ _ _ config]
    exact s.fld_setFld_key _ _ _ _ _ _ _ config

/-- The refresh rate in force is the greater of REF_MULT and the rate that Table 9-11 requires; TEMP and TSTATE stay (R288). -/
theorem State.gddrRefresh_fields (s : State) (st g : Nat) :
    (s.gddrRefresh st g).fld (Page.gddr st g) gddrStatOff 12 10 = max (s.fld (Page.gddr st g) 0x100 10 8)
      (requiredRefresh (s.fld (Page.gddr st g) gddrStatOff 9 8) (s.gddrCtl st g).hot) ∧
    (s.gddrRefresh st g).fld (Page.gddr st g) gddrStatOff 9 8 = s.fld (Page.gddr st g) gddrStatOff 9 8 ∧
    (s.gddrRefresh st g).fld (Page.gddr st g) gddrStatOff 7 0 = s.fld (Page.gddr st g) gddrStatOff 7 0 := by
  have events : regKey (Page.gddr st g) gddrStatOff ≠ regKey (Page.gddr st g) Reg.EV_STATUS :=
    regKey_ne_of_offset (by decide)
  unfold State.gddrRefresh
  extract_lets page need mult eff s1
  have hmult : mult < 2 ^ (10 + 1 - 8) := bits_lt ..
  have hneed : need ≤ 4 := by
    simp only [need, requiredRefresh]
    split
    · decide
    · split <;> decide
    · decide
  have heff : eff % 2 ^ (12 + 1 - 10) = eff := Nat.mod_eq_of_lt (by simp only [eff]; omega)
  refine ⟨?_, ?_, ?_⟩
  all_goals rw [State.fld_clampLoop _ _ _ _ _ _ _ _ (by decide) events (.inr ⟨rfl, rfl, by decide⟩)]
  · rw [State.fld_setFld_same _ _ _ _ (by decide), heff]
  · exact State.fld_setFld_other _ _ _ _ (by decide) (.inl (by decide))
  · exact State.fld_setFld_other _ _ _ _ (by decide) (.inl (by decide))

theorem State.gddrRefresh_mem (s : State) (st g : Nat) : (s.gddrRefresh st g).mem = s.mem :=
  congrArg Prod.fst (State.content_clampLoop ..)

section
variable {s : State} {st g : Nat} (hst : st < 72) (hg : g < 6)
include hst hg

/-- A device that stays NORMAL takes the reading, and its refresh rate follows (R287, R288). -/
theorem exec_gddrTempReading_normal {t : Nat} (ht : t ≤ 85) (hnormal : s.fld (Page.gddr st g) gddrStatOff 9 8 = 0) :
    exec (.gddrTempReading st g t) s = .next ((s.withReading st g t).gddrRefresh st g) := by
  have hstays : tstateNext 0 t = 0 := by
    have hwarm : ¬ 85 < t := Nat.not_lt.mpr ht
    have hhot : ¬ 103 ≤ t := by omega
    have htrip : ¬ 110 ≤ t := by omega
    simp [tstateNext, hwarm, hhot, htrip]
  change execGddrTempReading _ _ _ _ = _
  simp only [execGddrTempReading, Nat.mod_eq_of_lt hst, Nat.mod_eq_of_lt hg, hnormal, hstays, if_true]
  rfl

theorem exec_gddrRefresh : exec (.gddrRefresh st g) s = .next (s.gddrRefresh st g) := by
  change execGddrRefresh _ _ _ = _
  rw [execGddrRefresh, Nat.mod_eq_of_lt hst, Nat.mod_eq_of_lt hg]

end

/-! Retries and retraining (R291, R292). -/

section
variable {s : State} {st g : Nat} (hst : st < 72) (hg : g < 6)
include hst hg

/-- A retry whose transfer is without an error counts, and answers the held read of a sound line (R291, R293). -/
theorem exec_gddrRetryAttempt_answers {off n : Nat} (hheld : (s.gddrCtl st g).held = some (off, n, []))
    (hleft : (s.gddrCtl st g).attempts < 4) (htrain : s.fld (Page.gddr st g) gddrStatOff 14 14 = 0)
    (hsound : s.badStatus (gddrBase st + off) = St.ok) :
    exec (.gddrRetryAttempt st g true .ok) s = .next (((s.bump (Page.gddr st g) 0).modGddr st g fun x =>
      { x with held := none }).answer St.ok (s.deviceBytes st off n)) := by
  have hgo : ¬ (4 ≤ (s.gddrCtl st g).attempts ∨ s.fld (Page.gddr st g) gddrStatOff 14 14 = 1) := by omega
  change execGddrRetryAttempt _ _ _ _ _ = _
  simp only [execGddrRetryAttempt, Nat.mod_eq_of_lt hst, Nat.mod_eq_of_lt hg, hheld]
  rw [if_neg hgo, if_pos trivial, if_pos trivial, State.gddrServe_read (s := (s.bump (Page.gddr st g) 0).modGddr st g _) hsound]
  rfl

/-- The fifth failure retrains an interface that has not been retrained in the last second (R292). -/
theorem exec_gddrRetrain_retrains (hheld : (s.gddrCtl st g).held ≠ none) (hspent : 4 ≤ (s.gddrCtl st g).attempts)
    (hfirst : (s.gddrCtl st g).again = false) (htrain : s.fld (Page.gddr st g) gddrStatOff 14 14 = 0)
    (hrecent : (s.gddrCtl st g).retrains = []) (hmax : 1 ≤ s.fld (Page.gddr st g) 0x100 23 16) :
    exec (.gddrRetrain st g) s = .next ((((s.modGddr st g fun x => { x with retrains := [s.panelTime.toNat] }).setFld
      (Page.gddr st g) gddrStatOff 14 14 1).bump (Page.gddr st g) 2).genEvent (Page.gddr st g) 0x0251 0 (place 7 0 1)) := by
  have hgo : ¬ ((s.gddrCtl st g).held = none ∨ (s.gddrCtl st g).attempts < 4 ∨ (s.gddrCtl st g).again = true ∨
      s.fld (Page.gddr st g) gddrStatOff 14 14 = 1) := by simp [hheld, hfirst, htrain, hspent]
  change execGddrRetrain _ _ _ = _
  simp only [execGddrRetrain, Nat.mod_eq_of_lt hst, Nat.mod_eq_of_lt hg]
  rw [if_neg hgo, hrecent, List.filter_nil, List.length_nil, if_neg (Nat.not_le.mpr hmax)]
  rfl

/-- The end of a retraining gives the held request four new retries (R292). -/
theorem exec_gddrRetrainDone_ends (htrain : s.fld (Page.gddr st g) gddrStatOff 14 14 = 1) :
    exec (.gddrRetrainDone st g) s = .next ((s.setFld (Page.gddr st g) gddrStatOff 14 14 0).modGddr st g fun x =>
      { x with attempts := 0, again := true }) := by
  change execGddrRetrainDone _ _ _ = _
  simp only [execGddrRetrainDone, Nat.mod_eq_of_lt hst, Nat.mod_eq_of_lt hg]
  rw [if_neg (by omega)]

end

/-! Scrub and rewrites (R295). -/

/-- A scrub that reads a sound line with a corrected error counts and queues its rewrite (R295). -/
theorem exec_gddrScrub_queues {s : State} {st off : Nat} (hst : st < 72) (hoff : off < 0x600000000)
    (hrate : s.fld (Page.gddr st (gddrDev off)) 0x100 31 24 ≠ 0) (hstatus : s.gddrStatus st off = St.ok)
    (htrain : s.fld (Page.gddr st (gddrDev off)) gddrStatOff 14 14 = 0)
    (hsound : s.badStatus ((gddrBase st + off) / 128 * 128) = St.ok) :
    exec (.gddrScrub st off .corrected) s = .next (((s.bumpUnits (Page.gddr st (gddrDev off)) 7 1 1024).bump
      (Page.gddr st (gddrDev off)) 3).modGddr st (gddrDev off) fun x =>
        { x with rewrites := x.rewrites ++ [(gddrBase st + off) / 128] }) := by
  have hgo : ¬ (s.fld (Page.gddr st (gddrDev off)) 0x100 31 24 = 0 ∨ s.gddrStatus st off ≠ St.ok ∨
      s.fld (Page.gddr st (gddrDev off)) gddrStatOff 14 14 = 1) := by simp [hrate, hstatus, htrain]
  have hknown : (s.bumpUnits (Page.gddr st (gddrDev off)) 7 1 1024).badStatus ((gddrBase st + off) / 128 * 128) = St.ok := hsound
  change execGddrScrub _ _ _ _ = _
  simp only [execGddrScrub, Nat.mod_eq_of_lt hst, Nat.mod_eq_of_lt hoff]
  rw [if_neg hgo, hknown, if_neg (by decide), if_neg (by decide), if_pos trivial]

theorem exec_lineRewrite {s : State} {st g : Nat} (hst : st < 72) (hg : g < 6) :
    exec (.lineRewrite st g) s = .next (s.modGddr st g fun x => { x with rewrites := x.rewrites.drop 1 }) := by
  change execLineRewrite _ _ _ = _
  rw [execLineRewrite, Nat.mod_eq_of_lt hst, Nat.mod_eq_of_lt hg]

/-- Settles O24: each request meets its controller's conditions, so that it is served, retried or retrained as stated. -/
theorem gddrCompletes : Obligations.GddrCompletes := by
  refine ⟨?_, ?_, ?_, ?_, ?_, ?_, ?_, ?_, ?_⟩
  · intro s st off n hst hoff hn hstatus htrain hheld hcool hsound
    have hexec := exec_gddrAccess_serves (data := []) hst hoff hn (Nat.le_of_add_right_le hn) hstatus htrain hheld hcool .ok
    rw [State.gddrServe_read hsound] at hexec
    exact ⟨_, hexec, rfl, rfl⟩
  · intro s st off data hst hoff halign hlen hstatus htrain hheld hcool huncached
    obtain ⟨d, hserve⟩ := State.gddrServe_line (n := 0) halign hlen huncached
    have hexec := exec_gddrAccess_serves (n := 0) (data := data) hst hoff (by omega) (by omega) hstatus htrain hheld hcool .ok
    rw [hserve] at hexec
    exact ⟨_, hexec, rfl, rfl, Map.get_drop_same ..⟩
  · intro s st g off n hst hg hheld hleft htrain hsound
    exact ⟨_, exec_gddrRetryAttempt_answers hst hg hheld hleft htrain hsound, rfl,
      congrArg GddrDev.held (State.gddrCtl_modGddr (s.bump (Page.gddr st g) 0) st g fun x => { x with held := none }),
      State.reg_bump_same .., rfl⟩
  · intro s st g hst hg hheld hspent hfirst htrain hrecent hmax
    have status : regKey (Page.gddr st g) gddrStatOff ≠ regKey (Page.gddr st g) (Reg.CNT + 8 * 2) :=
      regKey_ne_of_offset (by decide)
    refine ⟨_, exec_gddrRetrain_retrains hst hg hheld hspent hfirst htrain hrecent hmax, ?_, ?_, ?_, ?_⟩
    · rw [State.fld, State.reg_genEvent_other _ _ _ _ _ (regKey_ne_of_offset (by decide)), State.reg_bump_other _ _ _ _ status]
      exact State.fld_setFld_same _ _ _ 1 (by decide)
    · simp
    · rw [State.reg_genEvent_other _ _ _ _ _ (regKey_ne_of_offset (by decide))]
      exact (State.reg_bump_same _ _ 2 1).trans (congrArg (· + 1#64) (State.reg_setFld_other _ _ _ _ _ _ _ _ status.symm))
    · exact congrArg Prod.fst (State.content_genEventAs ..)
  · intro s st g hst hg htrain
    exact ⟨_, exec_gddrRetrainDone_ends hst hg htrain, State.fld_setFld_same _ _ _ 0 (by decide), by simp, by simp, by simp, rfl⟩
  · intro s st g t hst hg ht hnormal
    obtain ⟨htemp, hstate, hmult⟩ := s.withReading_fields st g ht
    obtain ⟨hrate, hstate', htemp'⟩ := (s.withReading st g t).gddrRefresh_fields st g
    rw [hmult, hstate] at hrate
    exact ⟨_, exec_gddrTempReading_normal hst hg ht hnormal, htemp'.trans htemp, hstate'.trans hstate, State.gddrRefresh_mem ..,
      hrate⟩
  · intro s st g hst hg
    exact ⟨_, exec_gddrRefresh hst hg, (s.gddrRefresh_fields st g).1, s.gddrRefresh_mem st g⟩
  · intro s st off hst hoff hrate hstatus htrain hsound
    have corrected : regKey (Page.gddr st (gddrDev off)) (Reg.CNT + 8 * 3) ≠ regKey (Page.gddr st (gddrDev off)) (Reg.CNT + 8 * 7) :=
      regKey_ne_of_offset (by decide)
    refine ⟨_, exec_gddrScrub_queues hst hoff hrate hstatus htrain hsound, ?_, ?_, rfl⟩
    · simp
    · exact (State.reg_bump_same _ _ 3 1).trans (congrArg (· + 1#64) (State.reg_bumpUnits_other _ _ _ _ _ corrected))
  · intro s st g hst hg
    exact ⟨_, exec_lineRewrite hst hg, congrArg GddrDev.rewrites (State.gddrCtl_modGddr ..), rfl⟩

end Sys2Proof.Machine

/-!
The hub cache and its prefetchers (O23): a read that hits or misses, the stream entries and the governor of their depth, the KEEP
sweep and NEAR_WAYS (R271 to R284).
-/
namespace Sys2Proof.Machine

/-! The pages of a hub (Table 21-2). -/

section
variable {stack p : Nat} (hs : stack < 72) (hp : p < 0x40)
include hs hp

/-- A hub has 64 page indices. -/
theorem hub_range : (Page.hub stack p - 0x1000) % 0x40 = p ∧ (Page.hub stack p - 0x1000) / 0x40 = stack ∧
    0x1000 ≤ Page.hub stack p ∧ Page.hub stack p < 0x1000 + 0x40 * 72 := by
  simp only [Page.hub]; omega

theorem pageKind_hub : pageKind (Page.hub stack p) = hubPageKind p := by
  obtain ⟨hindex, -, hr⟩ := hub_range hs hp
  unfold pageKind
  rw [if_neg (by omega), if_neg (by omega), if_neg (by omega), if_neg (by omega), if_neg (by omega), if_neg (by omega),
    if_neg (by omega), if_neg (by omega), if_pos hr, hindex]

theorem pageStack_hub : pageStack (Page.hub stack p) = some stack := by
  obtain ⟨-, hstack, hr⟩ := hub_range hs hp
  rw [pageStack, if_pos hr, hstack]

end

theorem pageKind_cache {stack : Nat} (hs : stack < 72) : pageKind (Page.cache stack) = some .hubCache :=
  pageKind_hub hs (by decide)

/-! What installing a line leaves alone: CACHE_CTL, which the counters, KEEP_LIMIT and the regulators of the hub are not. -/

/-- The least line of a list is one of it. -/
theorem leastBy_mem {key : CacheLine → Nat} {ls : List CacheLine} {l : CacheLine} (h : leastBy key ls = some l) : l ∈ ls := by
  induction ls generalizing l with
  | nil => exact nomatch h
  | cons x xs ih =>
    rw [leastBy] at h
    split at h
    · exact List.mem_cons.mpr (.inl (Option.some.inj h).symm)
    next m hm =>
      split at h
      · exact List.mem_cons.mpr (.inl (Option.some.inj h).symm)
      · exact List.mem_cons_of_mem _ (Option.some.inj h ▸ ih hm)

section
variable {s : State} {stack : Nat}

/-- A line that makes way is one of its hub (R272). -/
theorem State.victim_stack {slice set w : Nat} {l : CacheLine} (h : s.victim stack slice set = some (w, some l)) :
    l.stack = stack := by
  have mine {p : CacheLine → Bool} {q : CacheLine → Prop} [DecidablePred q]
      (hl : l ∈ (s.cache.filter fun x => decide (x.stack = stack ∧ q x) && p x)) : l.stack = stack := by
    simp only [List.mem_filter, Bool.and_eq_true, decide_eq_true_eq] at hl
    exact hl.2.1.1
  unfold State.victim at h
  extract_lets ls at h
  split at h
  · cases h
  · split at h
    next hl => cases h; exact mine (List.mem_of_mem_filter (leastBy_mem hl))
    · split at h
      next hl => cases h; exact mine (List.mem_of_mem_filter (leastBy_mem hl))
      · cases h

variable (s stack)

theorem State.keepUsed_cacheCtl (part : Nat) :
    (s.keepUsed stack part).reg (Page.cache stack) Reg.CACHE_CTL = s.reg (Page.cache stack) Reg.CACHE_CTL :=
  State.reg_setFld_other _ _ _ _ _ _ _ _ (regKey_ne_of_offset (by simp only [Reg.CACHE_CTL, Reg.KEEP_LIMIT]; omega))

theorem State.bump_cacheCtl {i : Nat} (n : Nat) (hi : i < 20) :
    (s.bump (Page.cache stack) i n).reg (Page.cache stack) Reg.CACHE_CTL = s.reg (Page.cache stack) Reg.CACHE_CTL :=
  State.reg_bump_other _ _ _ _ (regKey_ne_of_offset (by simp only [Reg.CACHE_CTL, Reg.CNT]; omega))

theorem State.chargeForced_cacheCtl (point part n : Nat) :
    (s.chargeForced (Page.regulator stack) point part n).reg (Page.cache stack) Reg.CACHE_CTL =
      s.reg (Page.cache stack) Reg.CACHE_CTL := by
  have key : regKey (Page.cache stack) Reg.CACHE_CTL ≠ regKey (Page.regulator stack) (Reg.CNT + 8 * 2) := by
    simp only [regKey, Page.cache, Page.regulator, Page.hub, Reg.CACHE_CTL, Reg.CNT]; omega
  unfold State.chargeForced
  dsimp only
  split
  · exact State.reg_bump_other _ _ _ _ key
  · rfl

theorem State.writeBack_cacheCtl (l : CacheLine) :
    (s.writeBack l).reg (Page.cache l.stack) Reg.CACHE_CTL = s.reg (Page.cache l.stack) Reg.CACHE_CTL := by
  unfold State.writeBack
  split
  · exact (State.chargeForced_cacheCtl ..).trans (s.bump_cacheCtl l.stack 1 (by decide))
  · rfl

theorem State.cacheEvict_cacheCtl (l : CacheLine) :
    (s.cacheEvict l).reg (Page.cache l.stack) Reg.CACHE_CTL = s.reg (Page.cache l.stack) Reg.CACHE_CTL := by
  unfold State.cacheEvict
  refine (State.keepUsed_cacheCtl ..).trans ((State.writeBack_cacheCtl ..).trans ?_)
  split
  · exact s.bump_cacheCtl l.stack 1 (by decide)
  · rfl

theorem State.cacheInstall_cacheCtl (line : Nat) (cls : CacheClass) (tag part : Nat) (pref : Bool) :
    (s.cacheInstall stack line cls tag part pref).reg (Page.cache stack) Reg.CACHE_CTL =
      s.reg (Page.cache stack) Reg.CACHE_CTL := by
  unfold State.cacheInstall
  extract_lets off slice set
  split
  · rfl
  next w old hvictim =>
    extract_lets s1 ok s2 cls' n
    have evicted : s1.reg (Page.cache stack) Reg.CACHE_CTL = s.reg (Page.cache stack) Reg.CACHE_CTL := by
      cases old with
      | none => rfl
      | some l => exact State.victim_stack hvictim ▸ s.cacheEvict_cacheCtl l
    have counted : s2.reg (Page.cache stack) Reg.CACHE_CTL = s1.reg (Page.cache stack) Reg.CACHE_CTL := by
      simp only [s2]
      split
      · exact State.bump_cacheCtl _ _ _ (by decide)
      · rfl
    exact (State.keepUsed_cacheCtl ..).trans (counted.trans evicted)

end

/-- A request in budget changes no register (R298). -/
theorem State.regulate_inBudget_reg {s r : State} {page point part n : Nat} (h : s.regulate page point part n = (.inBudget, r))
    (p o : Nat) : r.reg p o = s.reg p o := by
  unfold State.regulate at h
  dsimp only at h
  split at h
  · cases h; rfl
  · split at h <;> cases h

/-! Requests (R271 to R273, R297). -/

@[simp] theorem State.cacheFind_cachePut (s : State) (l : CacheLine) : (s.cachePut l).cacheFind l.stack l.line = some l := by
  simp [State.cacheFind, State.cachePut]

/-- A line that is found is that of the hub and the address. -/
theorem State.cacheFind_some {s : State} {stack line : Nat} {l : CacheLine} (h : s.cacheFind stack line = some l) :
    l.stack = stack ∧ l.line = line := by
  unfold State.cacheFind at h
  simpa using List.find?_some h

section
variable {s : State} {stack a n hint tag part : Nat}

/-- A read hit without LAST_USE or KEEP makes its line the most recently used and answers its bytes (Table 9-2). -/
theorem State.cacheServe_hit {l : CacheLine} (hfind : s.cacheFind stack (a / 128) = some l) (hhint : hint < 2)
    (hused : l.prefetched = false) : s.cacheServe stack a n [] hint tag part .ok =
      (false, (({ s.bumpUnits (Page.cache stack) 0 1 1024 with useCtr := s.useCtr + 1 } : State).cachePut
        { l with used := s.useCtr + 1 }).answer St.ok (s.mem.readBytes a n)) := by
  have hkeep : hint ≠ 2 := by omega
  have hlast : hint ≠ 3 := by omega
  obtain ⟨⟩ := l
  cases hused
  simp only [State.cacheServe, hfind, State.cacheEcc, State.cacheTouch, if_neg hkeep, if_neg hlast, if_true, reduceCtorEq,
    Bool.false_eq_true, if_false]
  rfl

theorem State.cacheServe_miss (hfind : s.cacheFind stack (a / 128) = none) (data : List Byte) (ecc : Ecc) :
    s.cacheServe stack a n data hint tag part ecc =
      (true, s.cacheMiss stack (a / 128) (a % 128) n data hint tag part) := by
  rw [State.cacheServe, hfind]

/-- A read miss of a sound line in budget installs the line and answers its bytes (R271, R272, R297). -/
theorem State.cacheMiss_read {r : State} {line off : Nat} (hsound : s.bad.get St.ok line = St.ok)
    (hbudget : (s.bumpUnits (Page.cache stack) 1 1 1024).regulate (Page.regulator stack)
      (gddrDev (line * 128 % 0x800000000)) part 128 = (.inBudget, r)) :
    s.cacheMiss stack line off n [] 0 tag part = (r.cacheInstall stack line .normal tag part false).answer St.ok
      ((r.cacheInstall stack line .normal tag part false).mem.readBytes (line * 128 + off) n) := by
  have hpart : decide (off = 0 ∧ ([] : List Byte).length = 128) = false := by simp
  simp only [State.cacheMiss, hsound, hpart, hbudget]
  simp [hintClass]

variable {goff req pasid va cycle : Nat}

/-- A request to the hub's own GDDR that trains no stream is the service of its line (R269, R282). -/
theorem exec_cacheAccess_serves {miss : Bool} {t : State} (hregion : regionOf a = .gddr stack goff)
    (hstatus : s.gddrStatus stack goff = St.ok) (data : List Byte) (ecc : Ecc)
    (hserve : (s.pfFollow stack req (va / 128 * 128) cycle).cacheServe stack a n data hint tag part ecc = (miss, t))
    (htrain : miss = true → t.fld (Page.cache stack) Reg.CACHE_CTL 8 8 ≠ 1) :
    exec (.cacheAccess stack a n data hint tag part ecc req pasid va cycle) s = .next t := by
  have hidle : ¬ (miss = true ∧ t.fld (Page.cache stack) Reg.CACHE_CTL 8 8 = 1) := fun h => htrain h.1 h.2
  change execCacheAccess _ _ _ _ _ _ _ _ _ _ _ _ _ = _
  simp only [execCacheAccess, hregion, hstatus, hserve]
  rw [if_pos trivial, if_neg (not_not.mpr rfl), if_neg hidle]

end

/-! Stream prefetchers (R282 to R284). -/

@[simp] theorem State.pf_modPf (s : State) (stack : Nat) (f : Prefetch → Prefetch) : (s.modPf stack f).pf stack = f (s.pf stack) :=
  Map.get_set_same ..

/-- A key that has been dropped is not found. -/
theorem Map.find_drop_same {α : Type} (m : Map α) (i : Nat) : (m.drop fun k => k == i).find i = none :=
  Map.find_none _ _ fun e he => by simpa using (List.mem_filter.mp he).2

/-- The depth that the governor goes on with while its hub is not in WARN (R284; log row 17). -/
def State.governedDepth (s : State) (stack : Nat) : Nat :=
  let un := (s.reg (Page.cache stack) (Reg.CNT + 64)).toNat - (s.pf stack).lastUnused
  let us := (s.reg (Page.cache stack) (Reg.CNT + 56)).toNat - (s.pf stack).lastUseful
  let eff := s.fld (Page.cache stack) Reg.PREFETCH_CTL 14 8
  let depth := s.fld (Page.cache stack) Reg.PREFETCH_CTL 6 0
  if us < un then eff - 1 else if un < us then min (eff + 1) depth else min eff depth

section
variable {s : State} {stack entry : Nat} {e : Stream}

/-- EFF_DEPTH holds the governed depth. -/
theorem State.governedDepth_lt : s.governedDepth stack < 128 := by
  have heff : s.fld (Page.cache stack) Reg.PREFETCH_CTL 14 8 < 2 ^ (14 + 1 - 8) := bits_lt ..
  have hdepth : s.fld (Page.cache stack) Reg.PREFETCH_CTL 6 0 < 2 ^ (6 + 1 - 0) := bits_lt ..
  unfold State.governedDepth
  extract_lets un us eff depth
  change eff < 128 at heff
  change depth < 128 at hdepth
  split
  · omega
  · split <;> omega

theorem exec_prefetchDepthAdjust_governs (hwarn : s.hubWarn stack = false) : exec (.prefetchDepthAdjust stack) s =
    .next ((s.setFld (Page.cache stack) Reg.PREFETCH_CTL 14 8 (s.governedDepth stack)).modPf stack fun p =>
      { p with lastUnused := (s.reg (Page.cache stack) (Reg.CNT + 64)).toNat
               lastUseful := (s.reg (Page.cache stack) (Reg.CNT + 56)).toNat }) := by
  change execPrefetchDepthAdjust _ _ = _
  simp only [execPrefetchDepthAdjust, hwarn]
  rfl

theorem exec_streamEntryExpire_frees {cycle : Nat} (hentry : (s.pf stack).streams.find entry = some e)
    (hold : e.used + 65536 ≤ cycle) : exec (.streamEntryExpire stack entry cycle) s =
      .next (s.modPf stack fun p => { p with streams := p.streams.drop fun k => k == entry }) := by
  change execStreamEntryExpire _ _ _ _ = _
  simp only [execStreamEntryExpire, hentry]
  rw [if_pos hold]

/-- An entry after it has gone on to its next line (R283). -/
def State.pfAdvance (s : State) (stack entry : Nat) (e : Stream) : State :=
  s.modPf stack fun p => { p with streams := p.streams.set entry { e with nextVa := (strideFrom e.nextVa e.stride 1).toNat } }

/-- An entry that may run ahead prefetches its next line, where that is a sound line of the hub's own that it does not hold and whose
regulator has the budget (R283, R284). -/
theorem exec_prefetchIssue_fetches {pa off : Nat} (hentry : (s.pf stack).streams.find entry = some e)
    (hon : s.fld (Page.cache stack) Reg.CACHE_CTL 8 8 ≠ 0) (hfrom : 1 ≤ ((e.nextVa : Int) - e.lastVa) / (128 * e.stride))
    (hto : ((e.nextVa : Int) - e.lastVa) / (128 * e.stride) ≤ ((s.fld (Page.cache stack) Reg.PREFETCH_CTL 14 8 : Nat) : Int))
    (hpa : (s.pfAdvance stack entry e).peekTranslate e.part e.pasid e.nextVa false = some pa)
    (hregion : regionOf pa = .gddr stack off) (hstatus : ((s.pfAdvance stack entry e).readStatus e.part .core pa).2 = St.ok)
    (habsent : (s.pfAdvance stack entry e).cacheFind stack (pa / 128) = none)
    (hbudget : ((s.pfAdvance stack entry e).bucket (Page.regulator stack) (gddrDev off) e.part).inBudget 128 = true) :
    exec (.prefetchIssue stack entry) s = .next ((((s.pfAdvance stack entry e).setBucket (Page.regulator stack) (gddrDev off) e.part
      (((s.pfAdvance stack entry e).bucket (Page.regulator stack) (gddrDev off) e.part).charge 128)).bump (Page.cache stack) 6
        ).cacheInstall stack (pa / 128) (if e.stream then .stream else .normal) 0 e.part true) := by
  have hahead : ¬ (s.fld (Page.cache stack) Reg.CACHE_CTL 8 8 = 0 ∨ ((e.nextVa : Int) - e.lastVa) / (128 * e.stride) < 1 ∨
      ((s.fld (Page.cache stack) Reg.PREFETCH_CTL 14 8 : Nat) : Int) < ((e.nextVa : Int) - e.lastVa) / (128 * e.stride)) := by
    omega
  have hfetch : ¬ (((s.pfAdvance stack entry e).readStatus e.part .core pa).2 ≠ St.ok ∨
      ((s.pfAdvance stack entry e).cacheFind stack (pa / 128)).isSome = true) := by simp [hstatus, habsent]
  unfold State.pfAdvance at *
  change execPrefetchIssue _ _ _ = _
  simp only [execPrefetchIssue, hentry]
  rw [if_neg hahead]
  simp only [hpa, hregion]
  rw [if_neg (not_not.mpr rfl), if_neg hfetch, if_pos hbudget]

end

/-! KEEP_RELEASE and CACHE_CTL (R274, R280, R285). -/

section
variable {s : State} {stack : Nat} {v : Word}

/-- A write of GO while BUSY is clear sets BUSY and sweeps the partition's tag (R274; log row 59). -/
theorem keepReleaseEff_sweeps (hs : stack < 72) (hidle : s.fld (Page.cache stack) Reg.KEEP_RELEASE 1 1 = 0) (hgo : bit v 0 = true) :
    keepReleaseEff (Page.cache stack) v s = (((s.storeWrite (Page.cache stack) Reg.KEEP_RELEASE v).setFld (Page.cache stack)
      Reg.KEEP_RELEASE 1 1 1).setFld (Page.cache stack) Reg.KEEP_RELEASE 0 0 1).keepSweep stack (bits v 21 16) (bits v 11 8) := by
  unfold keepReleaseEff
  rw [if_neg (by omega)]
  simp only [hgo, if_true, pageStack_hub hs (p := 1) (by decide), Option.getD_some]

/-- A sweep changes lines and KEEP_LIMIT.USED, and no field of KEEP_RELEASE (Table 9-7). -/
theorem State.keepSweep_keepRelease (s : State) (stack part tag hi lo : Nat) :
    (s.keepSweep stack part tag).fld (Page.cache stack) Reg.KEEP_RELEASE hi lo = s.fld (Page.cache stack) Reg.KEEP_RELEASE hi lo :=
  State.fld_setFld_key _ _ _ _ _ _ _ _ (regKey_ne_of_offset (by simp only [Reg.KEEP_RELEASE, Reg.KEEP_LIMIT]; omega))

/-- A KEEP line of the partition and tag becomes NORMAL (R274). -/
theorem State.keepSweep_lowers {part tag : Nat} {l : CacheLine} (hl : l ∈ s.cache)
    (hmatch : l.stack = stack ∧ l.part = part ∧ l.tag = tag ∧ l.cls = .keep) :
    { l with cls := .normal } ∈ (s.keepSweep stack part tag).cache :=
  List.mem_map.mpr ⟨l, hl, if_pos hmatch⟩

/-- A stored write leaves the lines of the hub caches alone. -/
theorem State.storeWrite_cache (s : State) (page off : Nat) (v : Word) : (s.storeWrite page off v).cache = s.cache :=
  congrArg (·.2.2.2.2.2.1) (s.content_storeWrite page off v)

/-- A field that software writes takes an encoding that is not reserved (R6). -/
theorem writeField_rw {old : Word} {f : FieldSpec} (hacc : f.acc = .rw) (hok : f.isReserved (bits v f.hi f.lo) = false) :
    writeField v old f = setBits old f.hi f.lo (bits v f.hi f.lo) := by
  simp [writeField, hacc, hok]

theorem findReg_cacheCtl : findReg .hubCache Reg.CACHE_CTL = hubCacheRegs[0]? := by decide +kernel

/-- CACHE_CTL takes NEAR_WAYS of 0 to 4 (Table 9-4). -/
theorem State.storeWrite_nearWays (s : State) (hs : stack < 72) (hv : bits v 2 0 ≤ 4) :
    (s.storeWrite (Page.cache stack) Reg.CACHE_CTL v).fld (Page.cache stack) Reg.CACHE_CTL 2 0 = bits v 2 0 := by
  have hold : FieldSpec.isReserved (fldR 2 0 .rw 0x0 [(5, 7)]) (bits v 2 0) = false := by
    simp [FieldSpec.isReserved]
    omega
  have stored : (s.storeWrite (Page.cache stack) Reg.CACHE_CTL v).reg (Page.cache stack) Reg.CACHE_CTL =
      writeField v (writeField v (s.reg (Page.cache stack) Reg.CACHE_CTL) (Machine.fld 8 8 .rw 0x1)) (fldR 2 0 .rw 0x0 [(5, 7)]) := by
    simp only [State.storeWrite, pageKind_cache hs, findReg_cacheCtl]
    exact State.reg_setReg_same ..
  rw [State.fld, stored, writeField_rw rfl hold]
  exact bits_setBits_bits _ _ (by decide)

end

/-- Settles O23: each request, entry, sweep and register write meets its conditions, so that it takes effect. -/
theorem cacheCompletes : Obligations.CacheCompletes := by
  refine ⟨?_, ?_, ?_, ?_, ?_, ?_, ?_, ?_⟩
  · intro s stack a goff n hint tag part req pasid va cycle l hregion hstatus hfind hhint hused
    obtain ⟨hstack, hline⟩ := State.cacheFind_some hfind
    have hserve := State.cacheServe_hit (s := s.pfFollow stack req (va / 128 * 128) cycle) (n := n) (tag := tag) (part := part)
      hfind hhint hused
    refine ⟨_, exec_cacheAccess_serves hregion hstatus [] .ok hserve (by simp), rfl, ?_, rfl, rfl⟩
    rw [← hstack, ← hline]
    exact State.cacheFind_cachePut ..
  · intro s r stack a goff n tag part req pasid va cycle hregion hstatus hfind hsound hoff hbudget
    have hserve := (State.cacheServe_miss (s := s.pfFollow stack req (va / 128 * 128) cycle) (n := n) (hint := 0) (tag := tag)
      (part := part) hfind [] .ok).trans (congrArg (Prod.mk true) (State.cacheMiss_read hsound hbudget))
    refine exec_cacheAccess_serves hregion hstatus [] .ok hserve fun _ => ?_
    have installed : (r.cacheInstall stack (a / 128) .normal tag part false).reg (Page.cache stack) Reg.CACHE_CTL =
        s.reg (Page.cache stack) Reg.CACHE_CTL :=
      (State.cacheInstall_cacheCtl ..).trans ((State.regulate_inBudget_reg hbudget ..).trans
        (State.reg_bumpUnits_other _ _ _ _ _ (regKey_ne_of_offset (by decide))))
    have off : (r.cacheInstall stack (a / 128) .normal tag part false).fld (Page.cache stack) Reg.CACHE_CTL 8 8 = 0 :=
      (congrArg (bits · 8 8) installed).trans hoff
    exact fun h => absurd (h.symm.trans off) (by decide)
  · intro s stack entry cycle e hentry hold
    refine ⟨_, exec_streamEntryExpire_frees hentry hold, ?_, rfl⟩
    rw [State.pf_modPf]
    exact Map.find_drop_same ..
  · rintro s stack un us eff hwarn rfl rfl rfl
    refine ⟨_, exec_prefetchDepthAdjust_governs hwarn, ?_, ?_, rfl⟩
    · exact (State.fld_setFld_same _ _ _ _ (by decide)).trans (Nat.mod_eq_of_lt State.governedDepth_lt)
    · exact State.fld_setFld_other _ _ _ _ (by decide) (.inl (by decide))
  · rintro s u stack entry pa off e hentry hon hfrom hto rfl hpa hregion hstatus habsent hbudget
    exact exec_prefetchIssue_fetches hentry hon hfrom hto hpa hregion hstatus habsent hbudget
  · rintro s i stack v l hs hadm hidle hgo hl rfl hpart htag hcls
    obtain ⟨k, w, hwrite⟩ := State.writeVia_effect (keepReleaseEff (Page.cache l.stack) v) hadm
    rw [keepReleaseEff_sweeps (s := { s with lockAt := k, written := w }) hs hidle hgo] at hwrite
    have content := State.content_storeWrite { s with lockAt := k, written := w } (Page.cache l.stack) Reg.KEEP_RELEASE v
    refine ⟨_, congrArg Host.Outcome.next hwrite, ?_, ?_, congrArg Prod.fst content, congrArg (·.2.1) content⟩
    · exact State.keepSweep_lowers ((State.storeWrite_cache ..).symm ▸ hl) ⟨rfl, hpart, htag, hcls⟩
    · rw [State.keepSweep_keepRelease, State.fld_setFld_other _ _ _ _ (by decide) (.inr (by decide))]
      exact State.fld_setFld_same _ _ _ 1 (by decide)
  · intro s stack
    refine ⟨_, rfl, ?_, State.fld_setFld_same _ _ _ 0 (by decide), rfl⟩
    rw [State.fld_setFld_other _ _ _ _ (by decide) (.inr (by decide))]
    exact State.fld_setFld_same _ _ _ 0 (by decide)
  · intro s i stack v hs hadm hquiesced hv
    obtain ⟨k, w, hwrite⟩ := State.writeVia_effect (cacheCtlEff (Page.cache stack) v) hadm
    have heff : cacheCtlEff (Page.cache stack) v { s with lockAt := k, written := w } = _ := if_pos hquiesced
    rw [heff] at hwrite
    exact ⟨_, congrArg Host.Outcome.next hwrite, State.storeWrite_nearWays _ hs hv,
      congrArg Prod.fst (State.content_storeWrite ..), State.storeWrite_cache ..⟩

end Sys2Proof.Machine

/-!
The bays (O26): a page of a bay and its registers, what stored writes and events leave alone, accesses and their timeouts, hotness
counts, resyncs of mirrored ranges and the loss of a cartridge (R306, R307, R321, R325, R332).
-/
namespace Sys2Proof.Machine

/-! What stored writes, page states and events leave alone. -/

section
variable (s : State) (page : Nat)

/-- A stored write changes registers and which X fields count as written, and nothing else. -/
theorem State.storeWrite_eq (off : Nat) (v : Word) : ∃ r w, s.storeWrite page off v = { s with regs := r, written := w } := by
  unfold State.storeWrite
  split
  · exact ⟨s.regs, s.written, rfl⟩
  · split
    · exact ⟨s.regs, s.written, rfl⟩
    · dsimp only
      split
      · exact ⟨_, _, rfl⟩
      · exact ⟨_, s.written, rfl⟩

/-- An event changes EV_STATUS, the sequence numbers and the list of events, and nothing else (R555). -/
theorem State.genEvent_eq (code part : Nat) (payload : Word) :
    ∃ r q e, s.genEvent page code part payload = { s with regs := r, evSeq := q, events := e } := by
  unfold State.genEvent State.genEventAs
  dsimp only
  split
  · exact ⟨_, _, _, rfl⟩
  · exact ⟨_, s.evSeq, s.events, rfl⟩

variable (b : Nat)

@[simp] theorem State.bay_storeWrite (off : Nat) (v : Word) : (s.storeWrite page off v).bay b = s.bay b := by
  obtain ⟨r, w, h⟩ := s.storeWrite_eq page off v
  rw [h]; rfl

@[simp] theorem State.bay_genEvent (code part : Nat) (payload : Word) : (s.genEvent page code part payload).bay b = s.bay b := by
  obtain ⟨r, q, e, h⟩ := s.genEvent_eq page code part payload
  rw [h]; rfl

@[simp] theorem State.bay_setFld (off hi lo n : Nat) : (s.setFld page off hi lo n).bay b = s.bay b := rfl

@[simp] theorem State.bay_bump (i n : Nat) : (s.bump page i n).bay b = s.bay b := rfl

@[simp] theorem State.bay_bumpUnits (i n unit : Nat) : (s.bumpUnits page i n unit).bay b = s.bay b := rfl

@[simp] theorem State.bay_answer (st : Nat) (data : List Byte) : (s.answer st data).bay b = s.bay b := rfl

@[simp] theorem State.bay_setMirror (p j st : Nat) : (s.setMirror p j st).bay b = s.bay b := rfl

@[simp] theorem State.bay_modBay (f : Bay → Bay) : (s.modBay b f).bay b = f (s.bay b) := Map.get_set_same ..

end

/-- An event is posted in a state with the events and the EV_ENABLE of an earlier one (R555, R556). -/
theorem State.posts_genEvent {s r : State} {page code : Nat} (part : Nat) (payload : Word) (hevents : r.events = s.events)
    (henable : r.reg page Reg.EV_ENABLE = s.reg page Reg.EV_ENABLE) : Posts s (r.genEvent page code part payload) page code := by
  intro h
  have enabled : bit ((r.setReg page Reg.EV_STATUS (setBit (r.reg page Reg.EV_STATUS) (eventClass code).1 true)).reg page
      Reg.EV_ENABLE) (eventClass code).1 = true := by
    rwa [State.reg_setReg_other _ _ _ _ _ _ (regKey_ne_of_offset (by decide)), henable]
  unfold State.genEvent State.genEventAs
  simp only [enabled, Bool.or_true, if_true, State.setReg_events, hevents]
  exact ⟨_, rfl, rfl, rfl, rfl, rfl⟩

/-! The pages of the bays (Table 21-1). -/

theorem pageKind_bay {b : Nat} (hb : b < 16) : pageKind (Page.bay b) = some .cellarBay := by
  have hr : 0x300 ≤ Page.bay b ∧ Page.bay b < 0x400 := by simp only [Page.bay]; omega
  have hp : Page.bay b % 0x10 = 0 := by simp only [Page.bay]; omega
  unfold pageKind
  rw [if_neg (by omega), if_neg (by omega), if_neg (by omega), if_neg (by omega), if_pos hr, if_pos hp]

/-- MIRRORj_LIMIT is the last entry of the table of a bay's registers (Table 10-8). -/
theorem findReg_mirrorLimit : ∀ j, j < 8 → findReg .cellarBay (0x408 + 16 * j) = cellarBayRegs[11]? := by decide +kernel

/-- What a stored write makes of its register (R3, R6). -/
theorem State.reg_storeWrite_same (s : State) {page off : Nat} {k : PageKind} {r : RegSpec} (v : Word)
    (hk : pageKind page = some k) (hr : findReg k off = some r) : (s.storeWrite page off v).reg page off =
      (r.fields.filter fun f => decide (f.acc ≠ .w1s)).foldl (writeField v) (s.reg page off) := by
  simp only [State.storeWrite, hk, hr]
  split <;> exact State.reg_setReg_same ..

/-- Stored writes leave the fields of other registers alone. -/
theorem State.fld_storeWrite_other (s : State) {page off p o : Nat} (v : Word) (hi lo : Nat) (h : regKey p o ≠ regKey page off) :
    (s.storeWrite page off v).fld p o hi lo = s.fld p o hi lo := by
  rw [State.fld, State.reg_storeWrite_other _ _ h, State.fld]

/-! Accesses and their timeouts (R306, R307, R308). -/

/-- The state in which a bay serves a request of n bytes that is in budget: it is charged, and no timeout of its link is
remembered (R298, R307, R308). -/
def State.charged (s : State) (b part n : Nat) : State :=
  (s.setBucket (Page.bay b) 0 part ((s.bucket (Page.bay b) 0 part).charge n)).modBay b fun x => { x with retrained := false }

@[simp] theorem State.bay_charged (s : State) (b part n : Nat) : (s.charged b part n).bay b = { s.bay b with retrained := false } :=
  State.bay_modBay (s.setBucket ..) ..

/-- A charge changes no status of a copy. -/
theorem State.copyStatus_charged (s : State) (b part n off : Nat) : (s.charged b part n).copyStatus b off = s.copyStatus b off := by
  rw [State.copyStatus, State.bayCopyStatus, State.bay_charged]
  rfl

section
variable {s : State} {b : Nat} (hb : b < 16)
include hb

/-- The bay of an address of a bay's window (R303). -/
theorem frameBay_bayBase {off : Nat} (hoff : off < 0x20000000000) : frameBay (bayBase b + off) = some b := by
  have hlow : ¬ bayBase b + off < 0x24000000000 := by simp only [bayBase]; omega
  have hstore : ¬ (0x40000000000 ≤ bayBase b + off ∧ bayBase b + off < 0x42400000000) := by simp only [bayBase]; omega
  have hcellar : 0x100000000000 ≤ bayBase b + off ∧ bayBase b + off < 0x300000000000 := by simp only [bayBase]; omega
  have hbay : (bayBase b + off - 0x100000000000) / 0x20000000000 = b := by simp only [bayBase]; omega
  rw [frameBay, regionOf, if_neg hlow, if_neg hstore, if_pos hcellar, hbay]

/-- A read that no mirror serves, of a sound line, answers the line's bytes and is counted at its bay (R306). -/
theorem State.bayRead_sound {off : Nat} (n : Nat) (hoff : off < 0x20000000000) (hmirror : s.mirrorOf b off = none)
    (hcopy : s.copyStatus b off = St.ok) : s.bayRead b off n =
      (s.bumpUnits (Page.bay b) 0 n 1024).answer St.ok (s.mem.readBytes (bayBase b + off) n) := by
  have hserved : s.cellarRead b off = (bayBase b + off, St.ok, false) := by rw [State.cellarRead, hmirror, hcopy]
  simp only [State.bayRead, hserved, frameBay_bayBase hb hoff]
  rfl

/-- A read in budget of a sound line is charged and served (R306 to R308). -/
theorem exec_cellarAccess_reads {off n part pasid va units : Nat} (hoff : off < 0x20000000000)
    (hunits : units = 64 * ((off % 64 + n + 63) / 64)) (hbudget : (s.bucket (Page.bay b) 0 part).inBudget units = true)
    (hmirror : s.mirrorOf b off = none) (hcopy : s.copyStatus b off = St.ok) :
    exec (.cellarAccess b off n [] part none pasid va false 0) s = .next (((s.charged b part units).bumpUnits (Page.bay b) 0 n
      1024).answer St.ok (s.mem.readBytes (bayBase b + off) n)) := by
  have hregulate : s.regulate (Page.bay b) 0 part units = (.inBudget, s.setBucket (Page.bay b) 0 part
      ((s.bucket (Page.bay b) 0 part).charge units)) := by
    rw [State.regulate, if_pos hbudget]
  have hread : (s.charged b part units).bayRead b off n = _ :=
    State.bayRead_sound hb n hoff hmirror ((s.copyStatus_charged b part units off).trans hcopy)
  have hsound : (s.charged b part units).mediaError b off 0 = s.charged b part units := ite_self _
  change execCellarAccess b off n [] part none pasid va false 0 s = _
  subst hunits
  simp only [execCellarAccess, Nat.mod_eq_of_lt hb, if_true, Bool.false_eq_true, if_false, hregulate]
  exact congrArg Host.Outcome.next ((congrArg (·.bayRead b off n) hsound).trans hread)

/-- A bay that serves retrains its link at the first timeout of a request (R307). -/
theorem exec_bayReqTimeout_retrains (hready : s.pageState (Page.bay b) = PS.ready) (hfirst : (s.bay b).retrained = false) :
    exec (.bayReqTimeout b) s = .next (((s.modBay b fun x => { x with retrained := true }).bump (Page.bay b) 6).genEvent
      (Page.bay b) 0x0262 0 0) := by
  change execBayReqTimeout _ _ = _
  simp only [execBayReqTimeout, Nat.mod_eq_of_lt hb, hready, hfirst]
  rfl

/-- The timeout of a request after a retraining loses the bay (R307). -/
theorem exec_bayReqTimeout_loses (hready : s.pageState (Page.bay b) = PS.ready) (hagain : (s.bay b).retrained = true) :
    exec (.bayReqTimeout b) s = .next ((s.genEvent (Page.bay b) 0x0262 0 1).bayLost b false) := by
  change execBayReqTimeout _ _ = _
  simp only [execBayReqTimeout, Nat.mod_eq_of_lt hb, hready, hagain]
  rfl

/-- A cartridge that vanishes from a bay that serves is lost (R332, R600). -/
theorem exec_baySurpriseRemoval_loses (absent : Bool) (hready : s.pageState (Page.bay b) = PS.ready) :
    exec (.baySurpriseRemoval b absent) s = .next (s.bayLost b absent) := by
  change execBaySurpriseRemoval _ _ _ = _
  simp only [execBaySurpriseRemoval, State.bayGone, Nat.mod_eq_of_lt hb, hready]
  rfl

end

/-! Resyncs (R325). -/

section
variable {s : State} {b j : Nat} (hb : b < 16) (hj : j < 8)
include hb hj

/-- MIRRORj_LIMIT takes PARTNER and keeps STATE (Table 10-8). -/
theorem State.storeWrite_mirrorLimit (s : State) (v : Word) :
    (s.storeWrite (Page.bay b) (0x408 + 16 * j) v).fld (Page.bay b) (0x408 + 16 * j) 11 8 = bits v 11 8 ∧
    (s.storeWrite (Page.bay b) (0x408 + 16 * j) v).fld (Page.bay b) (0x408 + 16 * j) 5 4 =
      s.fld (Page.bay b) (0x408 + 16 * j) 5 4 := by
  have stored : (s.storeWrite (Page.bay b) (0x408 + 16 * j) v).reg (Page.bay b) (0x408 + 16 * j) =
      setBits (setBits (s.reg (Page.bay b) (0x408 + 16 * j)) 40 12 (bits v 40 12)) 11 8 (bits v 11 8) :=
    State.reg_storeWrite_same s v (pageKind_bay hb) (findReg_mirrorLimit j hj)
  rw [State.fld, State.fld, stored, State.fld]
  simp (disch := decide) only [bits_setBits_other, bits_setBits_bits, and_self]

/-- RESYNC starts a resync of a DEGRADED range with one copy left whose bays are both READY (R325). -/
theorem mirrorLimitEff_resyncs {v : Word} (hgo : bit v 0 = true) (hvalid : s.fld (Page.bay b) (0x400 + 16 * j) 0 0 = 1)
    (hdegraded : s.fld (Page.bay b) (0x408 + 16 * j) 5 4 = 1) (hready : s.ready (Page.bay b) = true)
    (hpartner : s.ready (Page.bay (bits v 11 8)) = true) (hleft : s.lostCopy b j ≠ 3) :
    mirrorLimitEff b j v s =
      ((s.storeWrite (Page.bay b) (0x408 + 16 * j) v).setMirror b j 2).setFld (Page.bay b) (0x408 + 16 * j) 0 0 1 := by
  obtain ⟨hto, hstate⟩ := State.storeWrite_mirrorLimit hb hj s v
  have hentry : (s.storeWrite (Page.bay b) (0x408 + 16 * j) v).fld (Page.bay b) (0x400 + 16 * j) 0 0 = 1 :=
    (s.fld_storeWrite_other v 0 0 (regKey_ne_of_offset (by omega))).trans hvalid
  have hup (p : Nat) : (s.storeWrite (Page.bay b) (0x408 + 16 * j) v).ready (Page.bay p) = s.ready (Page.bay p) := by
    have key : regKey (Page.bay p) Reg.PAGE_STATE ≠ regKey (Page.bay b) (0x408 + 16 * j) := by
      simp only [regKey, Page.bay, Reg.PAGE_STATE]; omega
    rw [State.ready, State.pageState, s.fld_storeWrite_other v 3 0 key, State.ready, State.pageState]
  have hcopy : (s.storeWrite (Page.bay b) (0x408 + 16 * j) v).lostCopy b j ≠ 3 := by
    rwa [State.lostCopy, State.bay_storeWrite]
  unfold mirrorLimitEff
  extract_lets page off s' both
  have hboth : both = true := by simp only [both, s', page, off, hto, hup, hready, hpartner, Bool.and_self]
  exact if_pos ⟨hgo, hentry, hstate.trans hdegraded, hboth, hcopy⟩

/-- The end of a resync whose partner's copy was stale copies the bay's own range over it (R325). -/
theorem exec_mirrorResyncDone_copies {lo n p : Nat} (hresync : s.fld (Page.bay b) (0x408 + 16 * j) 5 4 = 2)
    (hlost : s.lostCopy b j = 2) (hlo : lo = s.fld (Page.bay b) (0x400 + 16 * j) 40 12 * 4096)
    (hn : n = s.fld (Page.bay b) (0x408 + 16 * j) 40 12 * 4096 + 4096 - lo)
    (hp : p = s.fld (Page.bay b) (0x408 + 16 * j) 11 8) : ∃ d, exec (.mirrorResyncDone b j) s = .next
      ((((({ s with mem := s.mem.copyRange (bayBase b + lo) (bayBase p + lo) n, bad := d } : State).modBay b fun x =>
        { x with lostCopy := x.lostCopy.drop fun k => k == j }).setMirror b j 0).setFld (Page.bay b) (0x408 + 16 * j) 0 0
          0).genEvent (Page.bay b) 0x0267 0 (place 2 0 j)) := by
  subst hlo hn hp
  change ∃ d, execMirrorResyncDone _ _ _ = _
  simp only [execMirrorResyncDone, Nat.mod_eq_of_lt hb, Nat.mod_eq_of_lt hj, hlost]
  rw [if_neg (not_not.mpr hresync)]
  exact ⟨_, rfl⟩

end

/-- Settles O26: each access, timeout and register write meets its conditions, so that it is served, retrains, loses its bay or
resyncs as stated. -/
theorem cellarCompletes : Obligations.CellarCompletes := by
  refine ⟨?_, ?_, ?_, ?_, ?_, ?_, ?_⟩
  · intro s b off n part pasid va hb hoff hbudget hmirror hcopy
    exact ⟨_, exec_cellarAccess_reads hb hoff rfl hbudget hmirror hcopy, rfl, rfl, by simp, Map.get_set_same ..⟩
  · intro s b hb hready hfirst
    refine ⟨_, exec_bayReqTimeout_retrains hb hready hfirst, by simp, State.posts_genEvent _ _ rfl ?_, ?_,
      State.genEvent_mem ..⟩
    · exact State.reg_bump_other _ _ _ _ (regKey_ne_of_offset (by decide))
    · rw [State.reg_genEvent_other _ _ _ _ _ (regKey_ne_of_offset (by decide))]
      exact State.reg_bump_same _ _ 6 1
  · exact fun s b hb hready hagain => exec_bayReqTimeout_loses hb hready hagain
  · intro s stack
    refine ⟨_, rfl, fun frame hframe => Map.find_none _ _ fun e he hkey => ?_, rfl⟩
    have hkept : e.1 / 2 ^ 45 ≠ stack := by simpa using (List.mem_filter.mp he).2
    exact hkept (by omega)
  · intro s i b j v hb hj hadm hvalid hdegraded hready hpartner hleft
    have hgo : bit (setBit v 0 true) 0 = true := by simp [setBit, bit_setBits]
    have hto : bits (setBit v 0 true) 11 8 = bits v 11 8 := bits_setBits_other _ _ (by decide) (.inr (by decide))
    obtain ⟨k, w, hwrite⟩ := State.writeVia_effect (mirrorLimitEff b j (setBit v 0 true)) hadm
    rw [mirrorLimitEff_resyncs (s := { s with lockAt := k, written := w }) hb hj hgo hvalid hdegraded hready (hto ▸ hpartner)
      hleft] at hwrite
    have hexec : exec (.mirrorResync i b j v) s = .next (s.writeVia i (Page.bay b) (0x408 + 16 * j) (setBit v 0 true)
        (mirrorLimitEff b j (setBit v 0 true))) := by
      change execMirrorResync _ _ _ _ _ = _
      rw [execMirrorResync, Nat.mod_eq_of_lt hb, Nat.mod_eq_of_lt hj]
    rw [hwrite] at hexec
    refine ⟨_, hexec, ?_, congrArg Prod.fst (State.content_storeWrite ..)⟩
    rw [State.fld_setFld_other _ _ _ _ (by decide) (.inr (by decide))]
    exact State.fld_setFld_same _ _ _ 2 (by decide)
  · intro s b j lo n p hb hj hresync hlost hlo hn hp
    obtain ⟨d, hexec⟩ := exec_mirrorResyncDone_copies hb hj hresync hlost hlo hn hp
    refine ⟨_, hexec, ?_, ?_, ?_, State.posts_genEvent _ _ rfl ?_⟩
    · rw [State.fld, State.reg_genEvent_other _ _ _ _ _ (regKey_ne_of_offset (by simp only [Reg.EV_STATUS]; omega)), ← State.fld,
        State.fld_setFld_other _ _ _ _ (by decide) (.inr (by decide))]
      exact State.fld_setFld_same _ _ _ 0 (by decide)
    · exact State.genEvent_mem ..
    · simp only [State.lostCopy, State.bay_genEvent, State.bay_setFld, State.bay_setMirror, State.bay_modBay, Map.get_drop_same]
    · have key : regKey (Page.bay b) Reg.EV_ENABLE ≠ regKey (Page.bay b) (0x408 + 16 * j) :=
        regKey_ne_of_offset (by simp only [Reg.EV_ENABLE]; omega)
      rw [State.reg_setFld_other _ _ _ _ _ _ _ _ key]
      exact State.reg_setFld_other _ _ _ _ _ _ _ _ key
  · exact fun s b absent hb hready => exec_baySurpriseRemoval_loses hb absent hready

end Sys2Proof.Machine

/-!
The mailbox of a bay (O27): the word that issues a command, the queue of the commands that wait, and what the cartridge's answers do
(R309, R310).
-/
namespace Sys2Proof.Machine

/-! Fields of words with several fields placed. -/

theorem bits_or (v w : Word) (hi lo : Nat) : bits (v ||| w) hi lo = bits v hi lo ||| bits w hi lo := by
  refine Nat.eq_of_testBit_eq fun j => ?_
  rw [Nat.testBit_or, testBit_bits, testBit_bits, testBit_bits, bit_or, Bool.and_or_distrib_left]

theorem place_eq_setBits (hi lo n : Nat) : place hi lo n = setBits 0 hi lo n := by simp [setBits]

theorem bits_place_same {hi lo : Nat} (n : Nat) (h : hi < 64) : bits (place hi lo n) hi lo = n % 2 ^ (hi + 1 - lo) := by
  rw [place_eq_setBits, bits_setBits_same _ _ h]

theorem bits_place_other {hi lo hi' lo' : Nat} (n : Nat) (h : hi' < 64) (hd : hi' < lo ∨ hi < lo') :
    bits (place hi lo n) hi' lo' = 0 := by
  rw [place_eq_setBits, bits_setBits_other _ _ h hd]
  simp [bits, natBits]

/-- The word that issues a command with an opcode and a length (Table 10-8). -/
def mbxWord (op len : Nat) : Word := place 16 16 1 ||| place 11 8 len ||| place 7 0 op

theorem mbxWord_fields {op len : Nat} (hop : op < 256) (hlen : len < 16) :
    bit (mbxWord op len) 16 = true ∧ bits (mbxWord op len) 11 8 = len ∧ bits (mbxWord op len) 7 0 = op := by
  refine ⟨?_, ?_, ?_⟩
  · simp [mbxWord, bit_place]
  · simp (disch := decide) only [mbxWord, bits_or, bits_place_same, bits_place_other, Nat.zero_or, Nat.or_zero]
    omega
  · simp (disch := decide) only [mbxWord, bits_or, bits_place_same, bits_place_other, Nat.zero_or]
    omega

/-! The queue (R309; Table 10-3). -/

section
variable {s : State} {b : Nat}

/-- Nothing ends at once unless a reserved opcode of software is at the head. -/
theorem State.mbxPump_self (h : ∀ op rest, (s.bay b).mbxQueue = (op, true) :: rest → mbxKnown op = true) : s.mbxPump b = s := by
  unfold State.mbxPump
  split
  next op rest hqueue => rw [if_pos (h op rest hqueue)]
  · rfl

theorem State.mbxPump_empty (h : (s.bay b).mbxQueue = []) : s.mbxPump b = s :=
  State.mbxPump_self fun _ _ hqueue => nomatch h.symm.trans hqueue

/-- A command waits where its opcode is not a reserved one of software at the head of the queue. -/
theorem State.mbxAsk_waits {op : Nat} {soft : Bool} (hown : ∀ e ∈ (s.bay b).mbxQueue, e.2 = false)
    (hop : soft = true → mbxKnown op = true) :
    s.mbxAsk b op soft = s.modBay b fun x => { x with mbxQueue := x.mbxQueue ++ [(op, soft)] } := by
  refine State.mbxPump_self fun op' rest hqueue => ?_
  rw [State.bay_modBay] at hqueue
  cases hold : (s.bay b).mbxQueue with
  | nil =>
    rw [hold, List.nil_append] at hqueue
    cases hqueue
    exact hop rfl
  | cons e es =>
    rw [hold, List.cons_append] at hqueue
    cases hqueue
    exact absurd (hown (op', true) (by simp [hold])) (by simp)

/-- The state in which a reserved opcode of software has ended: its mailbox is empty, with RESULT at VERSION_MISMATCH. -/
def State.mbxRefused (s : State) (b op : Nat) : State :=
  ((s.modBay b fun x => { x with mbxQueue := x.mbxQueue ++ [(op, true)] }).modBay b fun x => { x with mbxQueue := [] }).mbxEnd b
    St.versionMismatch

/-- A reserved opcode of software that finds the mailbox free ends with VERSION_MISMATCH. -/
theorem State.mbxAsk_reserved {op : Nat} (hfree : (s.bay b).mbxQueue = []) (hop : mbxKnown op = false) :
    s.mbxAsk b op true = s.mbxRefused b op := by
  have hqueue : ((s.modBay b fun x => { x with mbxQueue := x.mbxQueue ++ [(op, true)] }).bay b).mbxQueue = [(op, true)] := by
    rw [State.bay_modBay, hfree, List.nil_append]
  simp only [State.mbxAsk, State.mbxPump, hqueue, hop]
  rfl

variable (s b)

/-- The end of a software command gives RESULT and clears BUSY and GO (R309). -/
theorem State.mbxEnd_fields {result : Nat} (h : result < 256) :
    (s.mbxEnd b result).fld (Page.bay b) mbxCmd 31 24 = result ∧ (s.mbxEnd b result).fld (Page.bay b) mbxCmd 17 17 = 0 ∧
      (s.mbxEnd b result).fld (Page.bay b) mbxCmd 16 16 = 0 := by
  simp (disch := decide) only [State.mbxEnd, State.fld_setFld_other, State.fld_setFld_same]
  omega

theorem State.reg_mbxEnd_other {p o : Nat} (result : Nat) (h : regKey p o ≠ regKey (Page.bay b) mbxCmd) :
    (s.mbxEnd b result).reg p o = s.reg p o := by
  simp only [State.mbxEnd, State.reg_setFld_other _ _ _ _ _ _ _ _ h]

@[simp] theorem State.bay_mbxEnd (result d : Nat) : (s.mbxEnd b result).bay d = s.bay d := rfl

@[simp] theorem State.mbxEnd_mem (result : Nat) : (s.mbxEnd b result).mem = s.mem := rfl

@[simp] theorem State.bay_mbxRefused (op : Nat) : (s.mbxRefused b op).bay b = { s.bay b with mbxQueue := [] } := by
  simp [State.mbxRefused]

theorem State.mbxRefused_fields (op : Nat) : (s.mbxRefused b op).fld (Page.bay b) mbxCmd 31 24 = St.versionMismatch ∧
    (s.mbxRefused b op).fld (Page.bay b) mbxCmd 17 17 = 0 ∧ (s.mbxRefused b op).fld (Page.bay b) mbxCmd 16 16 = 0 :=
  State.mbxEnd_fields _ b (by decide)

@[simp] theorem State.mbxRefused_mem (op : Nat) : (s.mbxRefused b op).mem = s.mem := by
  simp [State.mbxRefused]

end

/-! Software's commands (R309). -/

/-- The state in which a command that software issues joins the queue: MBX_CMD holds it, with BUSY and GO set (R309). -/
def State.mbxIssued (s : State) (b : Nat) (v : Word) : State :=
  ((s.storeWrite (Page.bay b) mbxCmd v).setFld (Page.bay b) mbxCmd 17 17 1).setFld (Page.bay b) mbxCmd 16 16 1

@[simp] theorem State.bay_mbxIssued (s : State) (b d : Nat) (v : Word) : (s.mbxIssued b v).bay d = s.bay d := by
  simp [State.mbxIssued]

@[simp] theorem State.mbxIssued_mem (s : State) (b : Nat) (v : Word) : (s.mbxIssued b v).mem = s.mem :=
  congrArg Prod.fst (s.content_storeWrite (Page.bay b) mbxCmd v)

theorem findReg_mbxCmd : findReg .cellarBay mbxCmd = cellarBayRegs[8]? := by decide +kernel

section
variable {s : State} {b : Nat} (hb : b < 16)
include hb

/-- MBX_CMD takes OPCODE and LEN (Table 10-8). -/
theorem State.storeWrite_mbxCmd (s : State) (v : Word) :
    (s.storeWrite (Page.bay b) mbxCmd v).fld (Page.bay b) mbxCmd 7 0 = bits v 7 0 ∧
    (s.storeWrite (Page.bay b) mbxCmd v).fld (Page.bay b) mbxCmd 11 8 = bits v 11 8 := by
  have stored : (s.storeWrite (Page.bay b) mbxCmd v).reg (Page.bay b) mbxCmd =
      setBits (setBits (s.reg (Page.bay b) mbxCmd) 11 8 (bits v 11 8)) 7 0 (bits v 7 0) :=
    State.reg_storeWrite_same s v (pageKind_bay hb) findReg_mbxCmd
  rw [State.fld, State.fld, stored]
  simp (disch := decide) only [bits_setBits_other, bits_setBits_bits, and_self]

/-- A command that has been issued has BUSY set, with its opcode and length in MBX_CMD. -/
theorem State.mbxIssued_fields (s : State) (v : Word) :
    (s.mbxIssued b v).fld (Page.bay b) mbxCmd 17 17 = 1 ∧ (s.mbxIssued b v).fld (Page.bay b) mbxCmd 7 0 = bits v 7 0 ∧
    (s.mbxIssued b v).fld (Page.bay b) mbxCmd 11 8 = bits v 11 8 := by
  obtain ⟨hopcode, hlength⟩ := State.storeWrite_mbxCmd hb s v
  simp (disch := decide) only [State.mbxIssued, State.fld_setFld_other, State.fld_setFld_same, hopcode, hlength, and_self,
    and_true]
  decide

end

/-- What a write of MBX_CMD with GO does to an idle mailbox whose link is trained: the command joins the queue, with BUSY and GO set
(R309). -/
theorem mbxCmdEff_issues {s : State} {b : Nat} {v : Word} (hgo : bit v 16 = true) (hidle : s.fld (Page.bay b) mbxCmd 17 17 = 0)
    (hlink : s.bayStat b 3 3 = 1) : mbxCmdEff b v s = (s.mbxIssued b v).mbxAsk b (bits v 7 0) true := by
  have htrained : (s.storeWrite (Page.bay b) mbxCmd v).bayStat b 3 3 = 1 :=
    (s.fld_storeWrite_other v 3 3 (regKey_ne_of_offset (by decide))).trans hlink
  simp only [mbxCmdEff, hidle, hgo, htrained]
  rfl

/-- A command that software issues, in the state in which its opcode joins the queue. -/
theorem State.mbxWrite_issues {s : State} {i : Ident} {b op len : Nat} (hb : b < 16) (hop : op < 256) (hlen : len < 16)
    (hadm : Admitted s i (Page.bay b) mbxCmd (mbxWord op len)) (hidle : s.fld (Page.bay b) mbxCmd 17 17 = 0)
    (hlink : s.bayStat b 3 3 = 1) : ∃ l w, s.mbxWrite i b op len =
      (({ s with lockAt := l, written := w } : State).mbxIssued b (mbxWord op len)).mbxAsk b op true := by
  obtain ⟨hgo, -, hopcode⟩ := mbxWord_fields hop hlen
  obtain ⟨l, w, hwrite⟩ := State.writeVia_effect (mbxCmdEff b (mbxWord op len)) hadm
  rw [mbxCmdEff_issues (s := { s with lockAt := l, written := w }) hgo hidle hlink, hopcode] at hwrite
  rw [State.mbxWrite, Nat.mod_eq_of_lt hb]
  exact ⟨l, w, hwrite⟩

/-- Each command of an opcode of Table 10-3 is the write of MBX_CMD that issues it. -/
theorem exec_mbxCommand (s : State) (i : Ident) (b len : Nat) :
    ∀ p ∈ [(0x01, Instr.mbxOlmIdentify i b len), (0x02, .mbxHealth i b len), (0x03, .mbxWear i b len),
      (0x04, .mbxTemperature i b len), (0x10, .mbxEvacBegin i b len), (0x11, .mbxEvacEnd i b len),
      (0x12, .mbxRemovalReady i b len)],
      p.1 < 256 ∧ mbxKnown p.1 = true ∧ exec p.2 s = .next (s.mbxWrite i b p.1 len) := by
  simp only [List.forall_mem_cons]
  refine ⟨⟨?_, ?_, rfl⟩, ⟨?_, ?_, rfl⟩, ⟨?_, ?_, rfl⟩, ⟨?_, ?_, rfl⟩, ⟨?_, ?_, rfl⟩, ⟨?_, ?_, rfl⟩, ⟨?_, ?_, rfl⟩,
    List.forall_mem_nil _⟩
  all_goals decide

/-! The cartridge's answers (R309, R310). -/

/-- One word of an answer stored in MBX_DATA. -/
def State.mbxStore (b : Nat) (data : List Word) (s : State) (k : Nat) : State :=
  (s.setReg (Page.bay b) (0x308 + 8 * k) (data.getD k 0)).markWritten (Page.bay b) (0x308 + 8 * k)

/-- Each word of an answer that is stored reads back. -/
theorem State.reg_mbxStore (s : State) (b : Nat) (data : List Word) {n k : Nat} (hk : k < n) :
    ((List.range n).foldl (State.mbxStore b data) s).reg (Page.bay b) (0x308 + 8 * k) = data.getD k 0 := by
  induction n with
  | zero => exact absurd hk (Nat.not_lt_zero k)
  | succ n ih =>
    rw [List.range_succ, List.foldl_append]
    rcases Nat.lt_succ_iff_lt_or_eq.mp hk with h | rfl
    · exact (State.reg_setReg_other _ _ _ _ _ _ (regKey_ne_of_offset (by omega))).trans (ih h)
    · exact State.reg_setReg_same ..

/-- The state in which the answer to the only command of a mailbox has been stored. -/
def State.mbxAnswered (s : State) (b : Nat) (data : List Word) : State :=
  (List.range (min data.length 8)).foldl (State.mbxStore b data) (s.modBay b fun x => { x with mbxQueue := [] })

@[simp] theorem State.bay_mbxAnswered (s : State) (b : Nat) (data : List Word) :
    (s.mbxAnswered b data).bay b = { s.bay b with mbxQueue := [] } :=
  (foldl_keeps (step := State.mbxStore b data) (State.bay · b) (fun _ _ => rfl) _).trans (State.bay_modBay ..)

@[simp] theorem State.mbxAnswered_mem (s : State) (b : Nat) (data : List Word) : (s.mbxAnswered b data).mem = s.mem :=
  foldl_keeps (step := State.mbxStore b data) State.mem (fun _ _ => rfl) _

section
variable {s : State} {b : Nat} (hb : b < 16)
include hb

/-- The answer to a software command is stored, and the command ends with its result (R309). -/
theorem exec_mbxResponse_soft {op result : Nat} {data : List Word} (hqueue : (s.bay b).mbxQueue = [(op, true)]) :
    exec (.mbxResponse b result data) s = .next ((s.mbxAnswered b data).mbxEnd b result) := by
  have hpump : ((s.mbxAnswered b data).mbxEnd b result).mbxPump b = (s.mbxAnswered b data).mbxEnd b result :=
    State.mbxPump_empty (by simp)
  change execMbxResponse _ _ _ _ = _
  simp only [execMbxResponse, Nat.mod_eq_of_lt hb, hqueue]
  exact congrArg Host.Outcome.next hpump

/-- The answer to the root port's own WEAR gives BAY_STAT its first byte (R310; log row 37). -/
theorem exec_mbxResponse_wear {w : Word} {l : List Word} (hqueue : (s.bay b).mbxQueue = [(3, false)]) :
    exec (.mbxResponse b 0 (w :: l)) s =
      .next ((s.modBay b fun x => { x with mbxQueue := [] }).setBayStat b 55 48 (bits w 7 0)) := by
  have hpump := State.mbxPump_empty (s := (s.modBay b fun x => { x with mbxQueue := [] }).setBayStat b 55 48 (bits w 7 0)) (b := b)
    (by simp [State.setBayStat])
  change execMbxResponse _ _ _ _ = _
  simp only [execMbxResponse, Nat.mod_eq_of_lt hb, hqueue]
  exact congrArg Host.Outcome.next hpump

/-- Every second the root port asks an admitted cartridge for HEALTH, WEAR and TEMPERATURE (R310). -/
theorem exec_bayHealthPoll_asks (hadmitted : s.bayStat b 4 4 = 1) (hqueue : (s.bay b).mbxQueue = []) :
    exec (.bayHealthPoll b) s = .next (((s.modBay b fun x => { x with mbxQueue := x.mbxQueue ++ [(2, false)] }).modBay b fun x =>
      { x with mbxQueue := x.mbxQueue ++ [(3, false)] }).modBay b fun x => { x with mbxQueue := x.mbxQueue ++ [(4, false)] }) := by
  have hfree : s.bayStat b 4 4 = 1 ∧ (!(s.bay b).mbxQueue.contains (2, false)) = true := by simp [hadmitted, hqueue]
  change execBayHealthPoll _ _ = _
  simp only [execBayHealthPoll, Nat.mod_eq_of_lt hb, if_pos hfree]
  rw [State.mbxAsk_waits (op := 2) (by simp [hqueue]) (by simp), State.mbxAsk_waits (op := 3) (by simp [hqueue]) (by simp),
    State.mbxAsk_waits (op := 4) (by simp [hqueue]) (by simp)]

end

/-- Settles O27: each command is the write of MBX_CMD that issues its opcode, which waits or, where reserved, ends; and each answer
and poll finds the queue it takes effect on. -/
theorem mailboxCompletes : Obligations.MailboxCompletes := by
  refine ⟨?_, ?_, ?_, ?_, ?_⟩
  · intro s i b op len c hb hlen hc hadm hidle hlink hown
    obtain ⟨hop, hknown, hexec⟩ := exec_mbxCommand s i b len (op, c) hc
    obtain ⟨l, w, hwrite⟩ := State.mbxWrite_issues hb hop hlen hadm hidle hlink
    obtain ⟨hbusy, hopcode, hlength⟩ := State.mbxIssued_fields hb { s with lockAt := l, written := w } (mbxWord op len)
    rw [State.mbxAsk_waits (by rwa [State.bay_mbxIssued]) fun _ => hknown] at hwrite
    obtain ⟨-, hlenField, hopField⟩ := mbxWord_fields hop hlen
    refine ⟨_, hexec.trans (congrArg Host.Outcome.next hwrite), ?_, hbusy, hopcode.trans hopField, hlength.trans hlenField,
      by simp⟩
    rw [State.bay_modBay, State.bay_mbxIssued]
    rfl
  · intro s i b op len hb hlen hop hreserved hadm hidle hlink hqueue
    have hexec : exec (.mbxReservedOpcode i b op len) s = .next (s.mbxWrite i b op len) := by
      change execMbxReservedOpcode _ _ _ _ _ = _
      rw [execMbxReservedOpcode, Nat.mod_eq_of_lt hop, hreserved, if_neg Bool.false_ne_true]
    obtain ⟨l, w, hwrite⟩ := State.mbxWrite_issues hb hop hlen hadm hidle hlink
    rw [State.mbxAsk_reserved (by rwa [State.bay_mbxIssued]) hreserved] at hwrite
    obtain ⟨hresult, hbusy, hgo⟩ :=
      (State.mbxIssued { s with lockAt := l, written := w } b (mbxWord op len)).mbxRefused_fields b op
    exact ⟨_, hexec.trans (congrArg Host.Outcome.next hwrite), by simp, hbusy, hgo, hresult, by simp⟩
  · intro s b op result data hb hresult hqueue
    obtain ⟨hend, hbusy, -⟩ := (s.mbxAnswered b data).mbxEnd_fields b hresult
    refine ⟨_, exec_mbxResponse_soft hb hqueue, by simp, hend, hbusy, fun k w hk hw => ?_, by simp⟩
    obtain ⟨hlength, hword⟩ := List.getElem?_eq_some_iff.mp hw
    rw [State.reg_mbxEnd_other _ _ _ (regKey_ne_of_offset (by simp only [mbxCmd]; omega)), State.mbxAnswered,
      State.reg_mbxStore _ _ _ (Nat.lt_min.mpr ⟨hlength, hk⟩), List.getD_eq_getElem?_getD, hw, Option.getD_some]
  · intro s b w l hb hqueue
    refine ⟨_, exec_mbxResponse_wear hb hqueue, ?_, by simp [State.setBayStat], by simp [State.setBayStat]⟩
    exact (State.fld_setFld_same _ _ _ _ (by decide)).trans (Nat.mod_eq_of_lt (bits_lt w 7 0))
  · intro s b hb hadmitted hqueue
    exact ⟨_, exec_bayHealthPoll_asks hb hadmitted hqueue, by simp [hqueue], by simp, by simp⟩

end Sys2Proof.Machine

/-!
Admission, evacuation and pool frames of a bay (O28): the word that a write of BAY_CTL carries, what each of its actions does, the
end of an evacuation, and a frame that is given to a pool (R312, R318, R328 to R331).
-/
namespace Sys2Proof.Machine

/-- A byte of a range that has been cleared reads zero, and every other byte as before. -/
theorem Memory.read_clear (m : Memory) (lo hi a : Nat) :
    (m.clear lo hi).read a = if lo ≤ a ∧ a < hi then 0 else m.read a := by
  induction m with
  | nil => exact (ite_self _).symm
  | cons c m ih =>
    obtain ⟨k, x⟩ := c
    unfold Memory.clear at ih ⊢
    by_cases hk : lo ≤ k ∧ k < hi
    · rw [List.filter_cons_of_neg (by simpa using hk), ih]
      split
      · rfl
      next ha => rw [Memory.read, if_neg (by rintro rfl; exact ha hk)]
    · rw [List.filter_cons_of_pos (by simp; omega), Memory.read, Memory.read, ih]
      split
      next hka => subst hka; rw [if_neg hk]
      · rfl

/-! Writes of BAY_CTL (Table 10-8). -/

/-- The word of one action of BAY_CTL: 1 ADMIT, 2 EVAC, 4 EVAC_CANCEL. -/
def bayCtlWord (epoch action : Nat) : Word := place 63 48 epoch ||| place 2 0 action

theorem bayCtlWord_epoch {epoch : Nat} (action : Nat) (h : epoch < 65536) : bits (bayCtlWord epoch action) 63 48 = epoch := by
  simp (disch := decide) only [bayCtlWord, bits_or, bits_place_same, bits_place_other, Nat.or_zero]
  omega

theorem bit_bayCtlWord (epoch action : Nat) {i : Nat} (hi : i < 3) : bit (bayCtlWord epoch action) i = action.testBit i := by
  rw [bayCtlWord, bit_or, bit_place_outside _ (by omega), bit_place _ (Nat.zero_le i) (by omega) (by omega), Bool.false_or,
    Nat.sub_zero]

/-- The state in which an admitted write of BAY_CTL acts. -/
def State.bayCtlStored (s : State) (i : Ident) (b : Nat) (v : Word) : State :=
  (s.admittedState i (Page.bay b) 0x100).storeWrite (Page.bay b) 0x100 v

section
variable (s : State) (i : Ident) (b : Nat) (v : Word)

/-- Storing BAY_CTL changes registers, the use of locks and which X fields count as written, and nothing else. -/
theorem State.bayCtlStored_eq : ∃ l r w, s.bayCtlStored i b v = { s with lockAt := l, regs := r, written := w } := by
  obtain ⟨l, w, ha⟩ := s.admittedState_eq i (Page.bay b) 0x100
  obtain ⟨r, w', hs⟩ := (s.admittedState i (Page.bay b) 0x100).storeWrite_eq (Page.bay b) 0x100 v
  exact ⟨l, r, w', by rw [State.bayCtlStored, hs, ha]⟩

@[simp] theorem State.bayCtlStored_mem : (s.bayCtlStored i b v).mem = s.mem := by
  obtain ⟨l, r, w, h⟩ := s.bayCtlStored_eq i b v
  rw [h]

@[simp] theorem State.bayCtlStored_migs : (s.bayCtlStored i b v).migs = s.migs := by
  obtain ⟨l, r, w, h⟩ := s.bayCtlStored_eq i b v
  rw [h]

@[simp] theorem State.bay_bayCtlStored (d : Nat) : (s.bayCtlStored i b v).bay d = s.bay d := by
  obtain ⟨l, r, w, h⟩ := s.bayCtlStored_eq i b v
  rw [h]; rfl

theorem State.fld_bayCtlStored {p o : Nat} (hi lo : Nat) (h : regKey p o ≠ regKey (Page.bay b) 0x100) :
    (s.bayCtlStored i b v).fld p o hi lo = s.fld p o hi lo := by
  obtain ⟨l, w, ha⟩ := s.admittedState_eq i (Page.bay b) 0x100
  rw [State.bayCtlStored, State.fld_storeWrite_other _ _ _ _ h, ha]
  rfl

theorem State.pageState_bayCtlStored : (s.bayCtlStored i b v).pageState (Page.bay b) = s.pageState (Page.bay b) :=
  s.fld_bayCtlStored i b v _ _ (regKey_ne_of_offset (by decide))

theorem State.ready_bayCtlStored : (s.bayCtlStored i b v).ready (Page.bay b) = s.ready (Page.bay b) := by
  simp only [State.ready, State.pageState_bayCtlStored]

theorem State.epoch_bayCtlStored : (s.bayCtlStored i b v).epoch (Page.bay b) = s.epoch (Page.bay b) :=
  s.fld_bayCtlStored i b v _ _ (regKey_ne_of_offset (by decide))

theorem State.bayStat_bayCtlStored (hi lo : Nat) : (s.bayCtlStored i b v).bayStat b hi lo = s.bayStat b hi lo :=
  s.fld_bayCtlStored i b v _ _ (regKey_ne_of_offset (by decide))

theorem State.removal_bayCtlStored : (s.bayCtlStored i b v).removal b = s.removal b :=
  s.fld_bayCtlStored i b v _ _ (by simp only [regKey, Page.servicePanel, Page.bay, Reg.REMOVE_STATE]; omega)

end

/-- An admitted write of BAY_CTL does its actions in the order ADMIT, EVAC, EVAC_CANCEL, of which the first two are refused where
the epoch that it expects is not the bay's (Table 10-8). -/
theorem State.bayCtlWrite_acts {s : State} {i : Ident} {b epoch action : Nat} (hb : b < 16) (hepoch : epoch < 65536)
    (hadm : Admitted s i (Page.bay b) 0x100 (bayCtlWord epoch action)) : s.bayCtlWrite i b epoch action =
      let stale := decide (epoch ≠ s.epoch (Page.bay b))
      let r := s.bayCtlStored i b (bayCtlWord epoch action)
      let admitted := if action.testBit 0 then r.bayAdmit b stale else r
      let evacuated := if action.testBit 1 then admitted.bayEvac b stale else admitted
      if action.testBit 2 then evacuated.bayEvacCancel b else evacuated := by
  have hstale := s.epoch_bayCtlStored i b (bayCtlWord epoch action)
  have hwrite : s.bayCtlWrite i b epoch action =
      bayCtlEff b (bayCtlWord epoch action) (s.admittedState i (Page.bay b) 0x100) := by
    rw [State.bayCtlWrite, Nat.mod_eq_of_lt hb]
    exact State.writeVia_admitted _ hadm
  unfold State.bayCtlStored at hstale ⊢
  simp only [hwrite, bayCtlEff, bit_bayCtlWord _ _ (show 0 < 3 by decide), bit_bayCtlWord _ _ (show 1 < 3 by decide),
    bit_bayCtlWord _ _ (show 2 < 3 by decide), bayCtlWord_epoch action hepoch, hstale]

/-- Which bits of BAY_CTL the actions ADMIT, EVAC and EVAC_CANCEL are. -/
theorem bayCtl_actions : Nat.testBit 1 0 = true ∧ Nat.testBit 1 1 = false ∧ Nat.testBit 1 2 = false ∧
    Nat.testBit 2 0 = false ∧ Nat.testBit 2 1 = true ∧ Nat.testBit 2 2 = false ∧
    Nat.testBit 4 0 = false ∧ Nat.testBit 4 1 = false ∧ Nat.testBit 4 2 = true := by decide

section
variable {s : State} {i : Ident} {b : Nat} (hb : b < 16)
include hb

/-- ADMIT of a write that expects the bay's epoch. -/
theorem exec_bayAdmit_current (hadm : Admitted s i (Page.bay b) 0x100 (bayCtlWord (s.epoch (Page.bay b)) 1)) :
    exec (.bayAdmit i b (s.epoch (Page.bay b))) s =
      .next ((s.bayCtlStored i b (bayCtlWord (s.epoch (Page.bay b)) 1)).bayAdmit b false) := by
  have hwrite := State.bayCtlWrite_acts hb (bits_lt ..) hadm
  simp only [bayCtl_actions, ne_eq, not_true_eq_false, decide_false, if_true, if_false, Bool.false_eq_true] at hwrite
  exact congrArg Host.Outcome.next hwrite

/-- EVAC of a write that expects the bay's epoch. -/
theorem exec_bayEvac_current (hadm : Admitted s i (Page.bay b) 0x100 (bayCtlWord (s.epoch (Page.bay b)) 2)) :
    exec (.bayEvac i b (s.epoch (Page.bay b))) s =
      .next ((s.bayCtlStored i b (bayCtlWord (s.epoch (Page.bay b)) 2)).bayEvac b false) := by
  have hwrite := State.bayCtlWrite_acts hb (bits_lt ..) hadm
  simp only [bayCtl_actions, ne_eq, not_true_eq_false, decide_false, if_true, if_false, Bool.false_eq_true] at hwrite
  exact congrArg Host.Outcome.next hwrite

/-- EVAC_CANCEL, whatever epoch its write expects. -/
theorem exec_bayEvacCancel_any {epoch : Nat} (hepoch : epoch < 65536)
    (hadm : Admitted s i (Page.bay b) 0x100 (bayCtlWord epoch 4)) :
    exec (.bayEvacCancel i b epoch) s = .next ((s.bayCtlStored i b (bayCtlWord epoch 4)).bayEvacCancel b) := by
  have hwrite := State.bayCtlWrite_acts hb hepoch hadm
  simp only [bayCtl_actions, if_true, if_false, Bool.false_eq_true] at hwrite
  exact congrArg Host.Outcome.next hwrite

end

/-! Admission (R312, R566). -/

/-- A page of a block other than the host port that is not READY enters READY with the next epoch (R566). -/
theorem State.enterState_ready {s : State} {page : Nat} (hpage : page ≠ Page.hostPort) (hstate : s.pageState page ≠ PS.ready) :
    s.enterState page PS.ready = (s.setFld page Reg.PAGE_STATE 47 32 ((s.epoch page + 1) % 65536)).setFld page Reg.PAGE_STATE 3 0
      PS.ready := by
  rw [State.enterState, if_pos ⟨rfl, hstate⟩]
  simp only [if_neg hpage]

/-- The state in which Sanitize and OLM_IDENTIFY have run, with `d` the damaged lines that are left (R312). -/
def State.sanitized (s : State) (b : Nat) (d : Map Nat) : State :=
  ({ s with mem := s.mem.clear (bayBase b) (bayBase b + 0x20000000000), bad := d } : State).modBay b fun x =>
    { x with capacity := min x.reported 0x20000000000 }

@[simp] theorem State.bay_sanitized (s : State) (b : Nat) (d : Map Nat) :
    (s.sanitized b d).bay b = { s.bay b with capacity := min (s.bay b).reported 0x20000000000 } :=
  State.bay_modBay { s with mem := s.mem.clear (bayBase b) (bayBase b + 0x20000000000), bad := d } ..

@[simp] theorem State.pageState_sanitized (s : State) (b page : Nat) (d : Map Nat) :
    (s.sanitized b d).pageState page = s.pageState page := rfl

@[simp] theorem State.epoch_sanitized (s : State) (b page : Nat) (d : Map Nat) : (s.sanitized b d).epoch page = s.epoch page := rfl

/-- The state in which a cartridge has been admitted. -/
def State.bayAdmitted (s : State) (b : Nat) (d : Map Nat) : State :=
  (((s.sanitized b d).enterState (Page.bay b) PS.ready).setBayStat b 4 4 1).setBayStat b 63 56 St.ok

/-- Sanitize leaves the bay's bytes zero and its lines sound, and the bay enters READY (R312). -/
theorem State.bayAdmit_admits {s : State} {b : Nat} (hinit : s.pageState (Page.bay b) = PS.init) (hfit : (s.bay b).fit = true)
    (hsane : (s.bay b).sane = true) : ∃ d, s.bayAdmit b false = s.bayAdmitted b d := by
  have hgo : ¬ (s.pageState (Page.bay b) ≠ PS.init ∨ (!(s.bay b).fit) = true) := by simp [hinit, hfit]
  unfold State.bayAdmit
  simp only [hsane]
  rw [if_neg Bool.false_ne_true, if_neg hgo]
  exact ⟨_, rfl⟩

/-- The registers of an admitted bay are its own page state, with the next epoch, and BAY_STAT. -/
theorem State.bayAdmitted_eq {s : State} {b : Nat} (hb : b < 16) (d : Map Nat) (hinit : s.pageState (Page.bay b) = PS.init) :
    s.bayAdmitted b d = ((((s.sanitized b d).setFld (Page.bay b) Reg.PAGE_STATE 47 32 ((s.epoch (Page.bay b) + 1) % 65536)).setFld
      (Page.bay b) Reg.PAGE_STATE 3 0 PS.ready).setBayStat b 4 4 1).setBayStat b 63 56 St.ok := by
  have hother : Page.bay b ≠ Page.hostPort := by simp only [Page.bay, Page.hostPort]; omega
  have hstate : (s.sanitized b d).pageState (Page.bay b) ≠ PS.ready := by
    rw [State.pageState_sanitized, hinit]
    decide
  rw [State.bayAdmitted, State.enterState_ready hother hstate, State.epoch_sanitized]

theorem State.bayAdmitted_fields {s : State} {b : Nat} (hb : b < 16) (d : Map Nat)
    (hinit : s.pageState (Page.bay b) = PS.init) : (s.bayAdmitted b d).pageState (Page.bay b) = PS.ready ∧
      (s.bayAdmitted b d).epoch (Page.bay b) = (s.epoch (Page.bay b) + 1) % 65536 ∧
      (s.bayAdmitted b d).bayStat b 4 4 = 1 ∧ (s.bayAdmitted b d).bayStat b 63 56 = St.ok := by
  have hkey : regKey (Page.bay b) Reg.PAGE_STATE ≠ regKey (Page.bay b) bayStatOff := regKey_ne_of_offset (by decide)
  rw [State.bayAdmitted_eq hb d hinit]
  simp (disch := decide) only [State.pageState, State.epoch, State.bayStat, State.setBayStat,
    State.fld_setFld_key _ _ _ _ _ _ _ _ hkey, State.fld_setFld_other, State.fld_setFld_same]
  exact ⟨rfl, Nat.mod_mod .., rfl, rfl⟩

theorem State.bay_bayAdmitted {s : State} {b : Nat} (hb : b < 16) (d : Map Nat) (hinit : s.pageState (Page.bay b) = PS.init) :
    (s.bayAdmitted b d).bay b = { s.bay b with capacity := min (s.bay b).reported 0x20000000000 } := by
  simp [State.bayAdmitted_eq hb d hinit, State.setBayStat]

theorem State.bayAdmitted_mem {s : State} {b : Nat} (hb : b < 16) (d : Map Nat) (hinit : s.pageState (Page.bay b) = PS.init) :
    (s.bayAdmitted b d).mem = s.mem.clear (bayBase b) (bayBase b + 0x20000000000) := by
  simp [State.bayAdmitted_eq hb d hinit, State.setBayStat, State.sanitized]

/-! Evacuation (R328, R330). -/

section
variable {s : State} {b : Nat}

/-- EVAC of a bay that is READY and not being evacuated starts the copying pass where the free frames cover the counted pages
(R328, R329). -/
theorem State.bayEvac_starts {u : State} {xs : List EvacPage} (hready : s.ready (Page.bay b) = true) (hidle : s.bayStat b 5 5 = 0)
    (hcount : s.evacCount b = (xs, u)) (hcovers : u.evacCovers b xs = true) : s.bayEvac b false =
      ((((u.setBayStat b 63 56 0).setBayStat b 5 5 1).modBay b (fun x =>
        { x with evacLeft := xs, evacCounted := xs.length, evacFrames := [], evacStuck := [], evacDone := false })).mbxAsk b
          0x10 false).evacFill b := by
  have hgo : ¬ ((!s.ready (Page.bay b)) = true ∨ s.bayStat b 5 5 = 1) := by simp [hready, hidle]
  unfold State.bayEvac
  simp only [hcount]
  rw [if_neg Bool.false_ne_true, if_neg hgo, if_pos hcovers]

/-- EVAC_CANCEL ends a copying pass that moves no page (R330). -/
theorem State.bayEvacCancel_ends (hruns : s.bayStat b 5 5 = 1) (hnone : ∀ m ∈ s.migs, m.why ≠ .evac b)
    (hask : s.removal b ≠ 3) : s.bayEvacCancel b =
      ((s.modBay b fun x => { x with evacLeft := [], evacStuck := [] }).setBayStat b 5 5 0).setBayStat b 63 56 St.ok := by
  have hmine : (s.migs.filter fun m => decide (m.why = .evac b)) = [] := List.filter_eq_nil_iff.mpr (by simpa using hnone)
  have hremoval : (((s.modBay b fun x => { x with evacLeft := [], evacStuck := [] }).setBayStat b 5 5 0).setBayStat b 63 56
      St.ok).removal b = s.removal b := by
    have key : regKey Page.servicePanel (Reg.REMOVE_STATE + 16 * b) ≠ regKey (Page.bay b) bayStatOff := by
      simp only [regKey, Page.servicePanel, Page.bay, Reg.REMOVE_STATE, bayStatOff]; omega
    exact (State.fld_setFld_key _ _ _ _ _ _ _ _ key).trans (State.fld_setFld_key _ _ _ _ _ _ _ _ key)
  unfold State.bayEvacCancel
  rw [if_neg (by omega), hmine]
  exact if_neg (hremoval ▸ hask)

end

/-- The end of an evacuation whose counted pages have all moved, `u` being the state in which EVAC_END has been asked for and
EVAC_DONE has been posted (R330, R331). -/
theorem exec_evacCopyDone_ends {s u : State} {b : Nat} (hb : b < 16) (hruns : s.bayStat b 5 5 = 1)
    (hleft : (s.bay b).evacLeft = []) (hstuck : (s.bay b).evacStuck = []) (hnone : ∀ m ∈ s.migs, m.why ≠ .evac b)
    (hu : u = (s.mbxAsk b 0x11 false).genEvent (Page.bay b) 0x0263 0
      (place 31 0 (s.bay b).evacFrames.length ||| place 63 32 (s.evacUnaccounted b))) :
    exec (.evacCopyDone b) s = .next ((((((u.modBay b (fun x => { x with evacDone := true, evacStuck := [] })).setBayStat b 5 5
      0).setFld (Page.bay b) Reg.PAGE_CTL 1 1 1).enterState (Page.bay b) PS.quiescing).mirrorsDegrade b false).mbxAsk b 0x12
        false) := by
  have hmoves : (s.migs.any fun m => decide (m.why = .evac b)) = false := by simpa using hnone
  have hgo : ¬ (s.bayStat b 5 5 = 0 ∨ (s.bay b).evacLeft ≠ [] ∨ (s.migs.any fun m => decide (m.why = .evac b)) = true ∨
      ((s.bay b).evacStuck.any fun e => s.pageInBay b e.1 e.2) = true) := by simp [hruns, hleft, hstuck, hmoves]
  change execEvacCopyDone _ _ = _
  simp only [execEvacCopyDone, Nat.mod_eq_of_lt hb]
  rw [if_neg hgo, ← hu]

/-! Pools (R318). -/

theorem pageKind_racking {stack : Nat} (hs : stack < 72) : pageKind (Page.racking stack) = some .racking :=
  pageKind_hub hs (by decide)

theorem findReg_poolGive : findReg .racking 0x118 = rackingRegs[3]? := by decide +kernel

/-- POOL_GIVE has no field that starts as X, so that its write changes at most when the lock was last used. -/
theorem State.admittedState_poolGive (s : State) (i : Ident) {stack : Nat} (hs : stack < 72) :
    ∃ l, s.admittedState i (Page.racking stack) 0x118 = { s with lockAt := l } := by
  have hx : hasX (Page.racking stack) 0x118 = false := by
    simp only [hasX, pageKind_racking hs, findReg_poolGive]
    decide
  obtain ⟨l, hl⟩ := s.lockTouch_eq i (Page.racking stack)
  refine ⟨l, ?_⟩
  rw [State.admittedState, if_neg (by simp [hx]), hl]

/-- A frame that is given to a pool with room is its last (R318; log row 38). -/
theorem State.poolGive_room {s : State} {page p frame a : Nat} (ha : s.poolAddr page p = some a)
    (hroom : s.mem.readNat (a + 12) 4 < s.mem.readNat (a + 8) 4) : s.poolGive page p frame = { s with
      mem := (s.mem.writeNat (s.mem.readNat a 8 + 8 * s.mem.readNat (a + 12) 4) 8 frame).writeNat (a + 12) 4
        (s.mem.readNat (a + 12) 4 + 1) } := by
  simp only [State.poolGive, ha]
  exact if_neg (Nat.not_le.mpr hroom)

/-- Settles O28: each write of BAY_CTL and of POOL_GIVE is admitted and meets its conditions, so that it takes effect; and an
evacuation that has nothing left to move ends. -/
theorem baysComplete : Obligations.BaysComplete := by
  refine ⟨?_, ?_, ?_, ?_, ?_⟩
  · intro s i b hb hadm hinit hfit hsane
    have hexec := exec_bayAdmit_current hb hadm
    have hinit' := (s.pageState_bayCtlStored i b (bayCtlWord (s.epoch (Page.bay b)) 1)).trans hinit
    have hepoch' := s.epoch_bayCtlStored i b (bayCtlWord (s.epoch (Page.bay b)) 1)
    have hbay := s.bay_bayCtlStored i b (bayCtlWord (s.epoch (Page.bay b)) 1) b
    have hmem := s.bayCtlStored_mem i b (bayCtlWord (s.epoch (Page.bay b)) 1)
    generalize s.bayCtlStored i b (bayCtlWord (s.epoch (Page.bay b)) 1) = r at hexec hinit' hepoch' hbay hmem
    obtain ⟨d, hadmit⟩ := State.bayAdmit_admits hinit' (hbay ▸ hfit) (hbay ▸ hsane)
    rw [hadmit] at hexec
    obtain ⟨hready, hepoch, hadmitted, hstatus⟩ := State.bayAdmitted_fields hb d hinit'
    rw [hepoch'] at hepoch
    refine ⟨_, hexec, hready, hepoch, hadmitted, hstatus, ?_, fun a hlo hhi => ?_, fun a ha => ?_⟩
    · rw [State.bay_bayAdmitted hb d hinit', hbay]
    · rw [State.bayAdmitted_mem hb d hinit', Memory.read_clear, if_pos ⟨hlo, hhi⟩]
    · rw [State.bayAdmitted_mem hb d hinit', Memory.read_clear, if_neg (by omega), hmem]
  · rintro s r u i b v xs hb rfl hadm hready hidle rfl hcount hcovers
    have hstart := State.bayEvac_starts (s := s.bayCtlStored i b (bayCtlWord (s.epoch (Page.bay b)) 2))
      ((State.ready_bayCtlStored ..).trans hready) ((State.bayStat_bayCtlStored ..).trans hidle) hcount hcovers
    rw [exec_bayEvac_current hb hadm, hstart]
  · intro s i b epoch hb hepoch hadm hruns hnone hask
    have hexec := exec_bayEvacCancel_any hb hepoch hadm
    rw [State.bayEvacCancel_ends ((State.bayStat_bayCtlStored ..).trans hruns) (by simpa using hnone)
      (by rwa [State.removal_bayCtlStored])] at hexec
    refine ⟨_, hexec, ?_, State.fld_setFld_same _ _ _ 0 (by decide), ?_, ?_, ?_⟩
    · exact (State.fld_setFld_other _ _ _ _ (by decide) (.inl (by decide))).trans (State.fld_setFld_same _ _ _ 0 (by decide))
    all_goals simp [State.setBayStat]
  · exact fun s u b hb hruns hleft hstuck hnone hu => exec_evacCopyDone_ends hb hruns hleft hstuck hnone hu
  · intro s i stack a v hs hadm ha hroom
    obtain ⟨l, hl⟩ := s.admittedState_poolGive i hs
    have hwrite := State.writeVia_admitted (poolGiveEff (Page.racking stack) v) hadm
    rw [hl, poolGiveEff, State.poolGive_room (s := { s with lockAt := l }) ha hroom] at hwrite
    have hexec : exec (.poolGive i (Page.racking stack) v) s = .next (s.writeVia i (Page.racking stack) 0x118 v
        (poolGiveEff (Page.racking stack) v)) := by
      change execPoolGive _ _ _ _ = _
      simp only [execPoolGive, pageKind_racking hs]
      rfl
    exact ⟨_, hexec.trans (congrArg Host.Outcome.next hwrite), rfl, rfl⟩

end Sys2Proof.Machine

/-!
The directory protocol (O30, O31, O32): messages in flight, directory entries and the lines that agents hold, as each update
leaves them (R335 to R346).
-/
namespace Sys2Proof.Machine

/-! Maps. -/

/-- What a key reads is its entry, or the default where it has none. -/
theorem Map.get_eq_find {α : Type} (d : α) (m : Map α) (i : Nat) : m.get d i = (m.find i).getD d := by
  induction m with
  | nil => rfl
  | cons e t ih =>
    by_cases h : e.1 = i
    · simp [Map.get, Map.find, h]
    · simpa [Map.get, Map.find, h] using ih

theorem mem_setInsert_self (l : List Nat) (i : Nat) : i ∈ setInsert l i := by
  induction l with
  | nil => simp [setInsert]
  | cons k t ih =>
    unfold setInsert
    split
    · simp
    · split
      next h => simp [h]
      next => simp [ih]

/-! Messages in flight. -/

section
variable (s : State)

theorem State.mem_post (m : Msg) : m ∈ (s.post m).net := by simp [State.post]

theorem State.mem_post_of_mem {m : Msg} (x : Msg) (h : m ∈ s.net) : m ∈ (s.post x).net := by simp [State.post, h]

/-- A message that arrives leaves only messages that were in flight, and the rest of the state as it is. -/
theorem State.arrived_eq (k : MsgKind) (src line : Nat) : ∃ n, n ⊆ s.net ∧ s.arrived k src line = { s with net := n } := by
  unfold State.arrived
  split
  · exact ⟨_, List.eraseIdx_subset, rfl⟩
  · exact ⟨s.net, List.Subset.refl _, rfl⟩

/-- A message that is delivered leaves the messages in flight, and the rest of the state as it is. -/
theorem State.delivered_eq (k : MsgKind) (dst line : Nat) : ∃ n, s.delivered k dst line = { s with net := n } := by
  unfold State.delivered
  split
  · exact ⟨_, rfl⟩
  · exact ⟨s.net, rfl⟩

/-- An agent none of whose evictions of a line is in flight has none among fewer messages. -/
theorem State.evicting_of_subset {agent line : Nat} {n : List Msg} (hsub : n ⊆ s.net) (h : s.evicting agent line = false) :
    ({ s with net := n } : State).evicting agent line = false :=
  List.any_eq_false.mpr fun m hm => List.any_eq_false.mp h m (hsub hm)

end

/-! The lines that agents hold (Table 11-2). -/

section
variable (s : State) (agent line : Nat)

theorem State.agentState_setAgent_same (x : LineState) : (s.setAgent agent line x).agentState agent line = x := by
  unfold State.setAgent
  split
  next h => subst h; exact Map.get_drop_same ..
  next => exact Map.get_set_same ..

/-- An agent that takes a line leaves what the other agents hold of it alone. -/
theorem State.agentState_setAgent_other {a : Nat} {x : LineState} (hx : x ≠ .i) (h : a ≠ agent) :
    (s.setAgent agent line x).agentState a line = s.agentState a line := by
  unfold State.setAgent State.agentState
  rw [if_neg hx]
  exact Map.get_set_other _ _ _ _ _ (by simp only [agentKey]; omega)

/-- A copy that goes takes the near-cache's line and the server core's reservation with it, and nothing else (R523). -/
theorem State.dropCopy_eq :
    ∃ v c, s.dropCopy agent line = { s.setAgent agent line .i with srv := v, cache := c } := by
  unfold State.dropCopy
  dsimp only
  split <;> split <;> exact ⟨_, _, rfl⟩

@[simp] theorem State.agentState_dropCopy : (s.dropCopy agent line).agentState agent line = .i := by
  obtain ⟨v, c, h⟩ := s.dropCopy_eq agent line
  rw [h]
  exact s.agentState_setAgent_same agent line .i

@[simp] theorem State.dropCopy_mem : (s.dropCopy agent line).mem = s.mem := by
  obtain ⟨v, c, h⟩ := s.dropCopy_eq agent line
  rw [h]; rfl

end

/-! Directory entries (R338, R339). -/

section
variable (s : State) (line : Nat) (e : DirEntry)

/-- A line without an entry has no agents. -/
theorem State.dirEntry_none {line : Nat} (h : s.dir.find line = none) : s.dirEntry line = { home := 0, set := 0 } := by
  rw [State.dirEntry, Map.get_eq_find, h]; rfl

/-- The agents that an entry names are those it was set to, whether the directory keeps it or frees it. -/
theorem State.dirEntry_dirSetEntry : ((s.dirSetEntry line e).dirEntry line).sharers = e.sharers ∧
    ((s.dirSetEntry line e).dirEntry line).owner = e.owner := by
  have key : (s.dirSetEntry line e).dirEntry line = if e.sharers = [] ∧ e.owner = none then { home := 0, set := 0 }
      else { e with used := s.useCtr + 1 } := by
    unfold State.dirSetEntry
    split
    · exact Map.get_drop_same ..
    · exact Map.get_set_same ..
  rw [key]
  split
  next h => exact ⟨h.1.symm, h.2.symm⟩
  next => exact ⟨rfl, rfl⟩

/-- Setting an entry changes the directory, its count of entries and the stamp of the last use, and nothing else. -/
theorem State.dirSetEntry_eq : ∃ d u r, s.dirSetEntry line e = { s with dir := d, useCtr := u, regs := r } := by
  unfold State.dirSetEntry
  split
  · exact ⟨_, s.useCtr, _, rfl⟩
  · exact ⟨_, _, _, rfl⟩

@[simp] theorem State.dirSetEntry_mem : (s.dirSetEntry line e).mem = s.mem := by
  obtain ⟨d, u, r, h⟩ := s.dirSetEntry_eq line e
  rw [h]

@[simp] theorem State.dirSetEntry_txns : (s.dirSetEntry line e).txns = s.txns := by
  obtain ⟨d, u, r, h⟩ := s.dirSetEntry_eq line e
  rw [h]

variable (agent : Nat)

/-- Taking an agent out of an entry changes what setting the entry changes. -/
theorem State.dirRemove_eq : ∃ d u r, s.dirRemove line agent = { s with dir := d, useCtr := u, regs := r } := by
  unfold State.dirRemove
  split
  · exact ⟨s.dir, s.useCtr, s.regs, rfl⟩
  · exact State.dirSetEntry_eq ..

@[simp] theorem State.dirRemove_mem : (s.dirRemove line agent).mem = s.mem := by
  obtain ⟨d, u, r, h⟩ := s.dirRemove_eq line agent
  rw [h]

@[simp] theorem State.dirRemove_txns : (s.dirRemove line agent).txns = s.txns := by
  obtain ⟨d, u, r, h⟩ := s.dirRemove_eq line agent
  rw [h]

@[simp] theorem State.dirRemove_agents : (s.dirRemove line agent).agents = s.agents := by
  obtain ⟨d, u, r, h⟩ := s.dirRemove_eq line agent
  rw [h]

/-- An agent that has been taken out of an entry is not named. -/
@[simp] theorem State.dirNames_dirRemove : (s.dirRemove line agent).dirNames line agent = false := by
  unfold State.dirRemove
  split
  next h => simp [State.dirNames, s.dirEntry_none h]
  next e h =>
    obtain ⟨hsharers, howner⟩ := s.dirEntry_dirSetEntry line
      { e with sharers := e.sharers.filter (· ≠ agent), owner := if e.owner = some agent then none else e.owner }
    simp only [State.dirNames, hsharers, howner]
    by_cases hown : e.owner = some agent <;> simp [hown]

end

/-- A home at which no request waits has none to serve. -/
theorem State.serve_idle {s : State} (home : Nat) (h : s.dirQueue = []) : s.serve home = s := by
  unfold State.serve
  rw [h, serveList, ← h]

end Sys2Proof.Machine


/-!
What a home does with requests for lines that no other agent holds (O30; Table 11-5, R201, R339, R342, R345, R360).
-/
namespace Sys2Proof.Machine

/-! Statuses at a home do not depend on its directory page (Table 21-13). -/

/-- Registers of different pages. -/
theorem regKey_ne_of_page {p page o off : Nat} (hpage : p ≠ page) (ho : o < 4096) (hoff : off < 4096) :
    regKey p o ≠ regKey page off := by
  simp only [regKey]; omega

/-- The GDDR windows are those of the 72 stacks (Table 21-12). -/
theorem stack_lt_of_regionOf {a st off : Nat} (h : regionOf a = .gddr st off) : st < 72 := by
  unfold regionOf at h
  dsimp only at h
  repeat' split at h
  all_goals simp only [Region.gddr.injEq, reduceCtorEq] at h
  omega

/-- States whose registers are those of one state outside a directory page have its GDDR statuses. -/
theorem State.gddrStatus_of_regs {s t : State} {home st : Nat} (off : Nat) (hst : st < 72)
    (h : ∀ p o, p ≠ Page.directory home → o < 4096 → t.reg p o = s.reg p o) : t.gddrStatus st off = s.gddrStatus st off := by
  have hdev : gddrDev off < 6 := Nat.mod_lt _ (by decide)
  have hstack : t.stackState st = s.stackState st := by
    rw [State.stackState, State.fld, h _ _ (by simp only [Page.device, Page.directory, Page.hub]; omega)
      (by simp only [Reg.STACK_STATE]; omega)]
    rfl
  have hcache : t.pageState (Page.cache st) = s.pageState (Page.cache st) := by
    rw [State.pageState, State.fld, h _ _ (by simp only [Page.cache, Page.directory, Page.hub]; omega) (by decide)]
    rfl
  have hctl (o hi lo : Nat) (ho : o < 4096) :
      t.fld (Page.gddr st (gddrDev off)) o hi lo = s.fld (Page.gddr st (gddrDev off)) o hi lo := by
    rw [State.fld, h _ _ (by simp only [Page.gddr, Page.directory, Page.hub]; omega) ho]
    rfl
  have hstate : t.pageState (Page.gddr st (gddrDev off)) = s.pageState (Page.gddr st (gddrDev off)) := hctl _ _ _ (by decide)
  simp only [State.gddrStatus, hstack, hcache, hstate, hctl 0x108 15 15 (by decide)]

/-- A GDDR window whose status is OK belongs to a stack that has not failed. -/
theorem State.stackState_of_gddrStatus {s : State} {st off : Nat} (h : s.gddrStatus st off = 0) :
    s.stackState st ≠ PS.faulted := by
  intro hfaulted
  simp only [State.gddrStatus, hfaulted] at h
  split at h <;> simp at h

section
variable {s : State} {a st off : Nat} (hregion : regionOf a = .gddr st off) (hstatus : s.gddrStatus st off = 0)
include hregion hstatus

/-- A read of a GDDR line whose window is OK has the status of the line. -/
theorem State.readStatus_gddr (part : Nat) (who : Who) : s.readStatus part who a = (a, s.badStatus a) := by
  simp [State.readStatus, hregion, hstatus]

/-- A sound line that the hub cache does not hold is written in GDDR (R342). -/
theorem State.homeWrite_uncached (bs : List Byte) (hsound : s.badStatus a = 0) (huncached : s.cacheFind st (a / 128) = none) :
    (s.homeWrite a bs).1 = 0 ∧ (s.homeWrite a bs).2.mem = s.mem.writeBytes a bs := by
  have hwrite (whole : Bool) : s.writeStatus 0 .engine a whole = ([a], St.ok) := by
    simp [State.writeStatus, hregion, hstatus, hsound]
  have hresv (r : State) (line : Nat) : (r.endResv line).mem = r.mem := by
    unfold State.endResv
    split <;> rfl
  have hphys : s.homeWrite a bs = (St.ok, (s.physWrite 0 .engine a bs).2) := by
    simp [State.homeWrite, hregion, hwrite, huncached]
  rw [hphys]
  refine ⟨rfl, ?_⟩
  simp only [State.physWrite, hwrite, if_true, List.foldl_cons, List.foldl_nil]
  split
  · exact hresv ..
  · exact hresv ..

end

/-! Requests that a home performs in memory (R201, R342). -/

/-- A number that fits is that of its bytes. -/
theorem ofLeBytes_leBytes (k : Nat) {n : Nat} (h : n < 256 ^ k) : ofLeBytes (leBytes k n) = n := by
  induction k generalizing n with
  | zero => rw [Nat.pow_zero] at h; exact (Nat.lt_one_iff.mp h).symm
  | succ k ih =>
    have hn : n >>> 8 < 256 ^ k := by
      rw [Nat.shiftRight_eq_div_pow]
      exact Nat.div_lt_of_lt_mul (by rw [Nat.pow_succ] at h; omega)
    rw [leBytes, ofLeBytes, ih hn, BitVec.toNat_ofNat, Nat.shiftLeft_eq, Nat.shiftRight_eq_div_pow]
    omega

theorem length_leBytes (k n : Nat) : (leBytes k n).length = k := by
  induction k generalizing n with
  | zero => rfl
  | succ k ih => rw [leBytes, List.length_cons, ih]

/-- The message of an ATOMIC carries its operation, size and operands. -/
def atomicMsg (agent line o aop size b c : Nat) : Msg :=
  ⟨.atomic, agent, 0, line, o, [BitVec.ofNat 8 aop, BitVec.ofNat 8 size] ++ leBytes 8 b ++ leBytes 8 c⟩

theorem atomicMsg_operands (agent line o : Nat) {aop size b c : Nat} (haop : aop < 256) (hsize : size < 4) (hb : b < 2 ^ 64)
    (hc : c < 2 ^ 64) :
    ((atomicMsg agent line o aop size b c).data.getD 0 0).toNat = aop ∧
    ((atomicMsg agent line o aop size b c).data.getD 1 0).toNat = size ∧
    ofLeBytes (((atomicMsg agent line o aop size b c).data.drop 2).take 8) = b ∧
    ofLeBytes (((atomicMsg agent line o aop size b c).data.drop 10).take 8) = c := by
  have hdrop : (leBytes 8 b ++ leBytes 8 c).drop 8 = leBytes 8 c := List.drop_left' (length_leBytes 8 b)
  refine ⟨Nat.mod_eq_of_lt haop, Nat.mod_eq_of_lt (by omega), ?_, ?_⟩
  · change ofLeBytes ((leBytes 8 b ++ leBytes 8 c).take 8) = b
    rw [List.take_left' (length_leBytes 8 b), ofLeBytes_leBytes 8 hb]
  · change ofLeBytes (((leBytes 8 b ++ leBytes 8 c).drop 8).take 8) = c
    rw [hdrop, List.take_of_length_le (length_leBytes 8 c).le, ofLeBytes_leBytes 8 hc]

section
variable {s : State} {line home off : Nat} (hregion : regionOf (line * 128) = .gddr home off)
  (hstatus : s.gddrStatus home off = 0)
include hregion hstatus

/-- A grant of a GDDR line brings its status, and its bytes where it is sound. -/
theorem State.grantLine_sends (k : MsgKind) {m : Msg} (hline : m.a = line) : s.grantLine k m = s.post
    ⟨k, 0, m.src, line, s.badStatus (line * 128), if s.badStatus (line * 128) = 0 then s.lineBytes line else []⟩ := by
  subst hline
  simp only [State.grantLine, State.readStatus_gddr hregion hstatus]

variable (hsound : s.badStatus (line * 128) = 0)
include hsound

/-- RD_ONCE answers the bytes. -/
theorem State.perform_rdOnce (agent o : Nat) {n : Nat} (hn : n < 65536) :
    s.perform ⟨.rdOnce, agent, 0, line, o, leBytes 2 n⟩ =
      s.post ⟨.datIo, 0, agent, line, 0, s.mem.readBytes (line * 128 + o) n⟩ := by
  simp only [State.perform, State.readStatus_gddr hregion hstatus, hsound, ofLeBytes_leBytes 2 hn, if_true]

variable (huncached : s.cacheFind home line = none)
include huncached

/-- WR_FULL stores the line. -/
theorem State.perform_wrFull (agent : Nat) (data : List Byte) :
    (s.perform ⟨.wrFull, agent, 0, line, 0, data⟩).mem = s.mem.writeBytes (line * 128) data ∧
    ⟨.comp, 0, agent, line, 0, []⟩ ∈ (s.perform ⟨.wrFull, agent, 0, line, 0, data⟩).net := by
  obtain ⟨hok, hmem⟩ := State.homeWrite_uncached hregion hstatus data hsound
    (by rwa [Nat.mul_div_cancel _ (by decide)])
  have hperform : s.perform ⟨.wrFull, agent, 0, line, 0, data⟩ =
      (s.homeWrite (line * 128) data).2.post ⟨.comp, 0, agent, line, 0, []⟩ := by
    simp only [State.perform, hok]
  rw [hperform]
  exact ⟨hmem, State.mem_post ..⟩

/-- WR_PTL stores the bytes of its mask. -/
theorem State.perform_wrPtl (agent mask : Nat) (data : List Byte) :
    (s.perform ⟨.wrPtl, agent, 0, line, mask, data⟩).mem =
      s.mem.writeBytes (line * 128) (maskBytes mask data (s.lineBytes line)) ∧
    ⟨.comp, 0, agent, line, 0, []⟩ ∈ (s.perform ⟨.wrPtl, agent, 0, line, mask, data⟩).net := by
  obtain ⟨hok, hmem⟩ := State.homeWrite_uncached hregion hstatus (maskBytes mask data (s.lineBytes line)) hsound
    (by rwa [Nat.mul_div_cancel _ (by decide)])
  have hperform : s.perform ⟨.wrPtl, agent, 0, line, mask, data⟩ = (s.homeWrite (line * 128)
      (maskBytes mask data (s.lineBytes line))).2.post ⟨.comp, 0, agent, line, 0, []⟩ := by
    simp only [State.perform, State.readStatus_gddr hregion hstatus, hsound, hok]
    simp
  rw [hperform]
  exact ⟨hmem, State.mem_post ..⟩

/-- ATOMIC stores the operation's value and answers the old one (R201). -/
theorem State.perform_atomic (agent : Nat) {o aop size b c : Nat} (haop : aop < 256) (hsize : size < 4)
    (hin : o + 2 ^ size ≤ 128) (hb : b < 2 ^ 64) (hc : c < 2 ^ 64)
    (hregion' : regionOf (line * 128 + o) = .gddr home (off + o)) (hstatus' : s.gddrStatus home (off + o) = 0) :
    (s.perform (atomicMsg agent line o aop size b c)).mem = s.mem.writeBytes (line * 128 + o)
      (leBytes (2 ^ size) (amoValue aop (8 * 2 ^ size) (s.mem.readNat (line * 128 + o) (2 ^ size)) b c)) ∧
    ⟨.datIo, 0, agent, line, 0, leBytes (2 ^ size) (s.mem.readNat (line * 128 + o) (2 ^ size))⟩ ∈
      (s.perform (atomicMsg agent line o aop size b c)).net := by
  have hline : (line * 128 + o) / 128 = line := by
    have := Nat.two_pow_pos size
    omega
  have hsound' : s.badStatus (line * 128 + o) = 0 := by
    rwa [State.badStatus, hline, ← Nat.mul_div_cancel line (show 0 < 128 by decide)]
  obtain ⟨hok, hmem⟩ := State.homeWrite_uncached hregion' hstatus'
    (leBytes (2 ^ size) (amoValue aop (8 * 2 ^ size) (s.mem.readNat (line * 128 + o) (2 ^ size)) b c)) hsound'
    (by rwa [hline])
  obtain ⟨eaop, esize, eb, ec⟩ := atomicMsg_operands agent line o haop hsize hb hc
  have hperform : s.perform (atomicMsg agent line o aop size b c) = (s.homeWrite (line * 128 + o)
      (leBytes (2 ^ size) (amoValue aop (8 * 2 ^ size) (s.mem.readNat (line * 128 + o) (2 ^ size)) b c))).2.post
      ⟨.datIo, 0, agent, line, 0, leBytes (2 ^ size) (s.mem.readNat (line * 128 + o) (2 ^ size))⟩ := by
    have hkind : (atomicMsg agent line o aop size b c).kind = .atomic := rfl
    have hread : s.readStatus 0 .engine ((atomicMsg agent line o aop size b c).a * 128) = (line * 128, 0) := by
      rw [show (atomicMsg agent line o aop size b c).a = line from rfl, State.readStatus_gddr hregion hstatus, hsound]
    unfold State.perform
    simp only [hkind, hread, eaop, esize, eb, ec]
    rw [if_neg (by simp)]
    exact congrArg (fun st => (State.homeWrite s (line * 128 + o) _).2.post ⟨.datIo, 0, agent, line, st, _⟩) hok
  rw [hperform]
  exact ⟨hmem, State.mem_post ..⟩

end

/-! The request of a line that its home accepts at once (R339). -/

/-- The state in which a home starts on the only request that has reached it, with `n` the messages that remain in flight. -/
def State.taken (s : State) (home : Nat) (m : Msg) (n : List Msg) : State :=
  ({ s with net := n, dirQueue := [m] } : State).bumpUnits (Page.directory home) 0 1 1024

/-- The state in which the home has recorded the agents of the line. -/
def State.recorded (s : State) (home : Nat) (m : Msg) (n : List Msg) (sharers : List Nat) (owner : Option Nat) : State :=
  (s.taken home m n).dirSetEntry m.a
    { s.dirEntry m.a with home := home, set := dirSet m.a, sharers := sharers, owner := owner }

section
variable (s : State) (home : Nat) (m : Msg) (n : List Msg) (sharers : List Nat) (owner : Option Nat)

theorem State.dirSetEntry_reg {e : DirEntry} {line p o : Nat} (hpage : p ≠ Page.directory e.home) (ho : o < 4096) :
    (s.dirSetEntry line e).reg p o = s.reg p o := by
  have hkey : regKey p o ≠ regKey (Page.directory e.home) 0x100 := regKey_ne_of_page hpage ho (by decide)
  unfold State.dirSetEntry
  split
  all_goals exact State.reg_setFld_other _ _ _ _ _ _ _ _ hkey

theorem State.taken_reg {p o : Nat} (hpage : p ≠ Page.directory home) (ho : o < 4096) :
    (s.taken home m n).reg p o = s.reg p o :=
  State.reg_bumpUnits_other { s with net := n, dirQueue := [m] } _ _ _ _ (regKey_ne_of_page hpage ho (by decide))

theorem State.gddrStatus_taken {st off : Nat} (hst : st < 72) : (s.taken home m n).gddrStatus st off = s.gddrStatus st off :=
  State.gddrStatus_of_regs off hst fun _ _ hpage ho => s.taken_reg home m n hpage ho

theorem State.gddrStatus_recorded {st off : Nat} (hst : st < 72) :
    (s.recorded home m n sharers owner).gddrStatus st off = s.gddrStatus st off :=
  State.gddrStatus_of_regs (home := home) off hst fun _ _ hpage ho =>
    (State.dirSetEntry_reg _ hpage ho).trans (s.taken_reg home m n hpage ho)

/-- Recording the agents of a line changes the directory, registers, and what is in flight and waits. -/
theorem State.recorded_eq : ∃ d u r p q, s.recorded home m n sharers owner =
    { s with dir := d, useCtr := u, regs := r, partial_ := p, net := n, dirQueue := q } := by
  obtain ⟨d, u, r, h⟩ := (s.taken home m n).dirSetEntry_eq m.a
    { s.dirEntry m.a with home := home, set := dirSet m.a, sharers := sharers, owner := owner }
  exact ⟨d, u, r, _, _, h⟩

@[simp] theorem State.recorded_mem : (s.recorded home m n sharers owner).mem = s.mem := by
  obtain ⟨d, u, r, p, q, h⟩ := s.recorded_eq home m n sharers owner
  rw [h]

@[simp] theorem State.badStatus_recorded (a : Nat) : (s.recorded home m n sharers owner).badStatus a = s.badStatus a := by
  obtain ⟨d, u, r, p, q, h⟩ := s.recorded_eq home m n sharers owner
  rw [h]; rfl

@[simp] theorem State.lineBytes_recorded (line : Nat) :
    (s.recorded home m n sharers owner).lineBytes line = s.lineBytes line := by
  obtain ⟨d, u, r, p, q, h⟩ := s.recorded_eq home m n sharers owner
  rw [h]; rfl

@[simp] theorem State.cacheFind_recorded (stack line : Nat) :
    (s.recorded home m n sharers owner).cacheFind stack line = s.cacheFind stack line := by
  obtain ⟨d, u, r, p, q, h⟩ := s.recorded_eq home m n sharers owner
  rw [h]; rfl

theorem State.dirEntry_recorded : ((s.recorded home m n sharers owner).dirEntry m.a).sharers = sharers ∧
    ((s.recorded home m n sharers owner).dirEntry m.a).owner = owner :=
  State.dirEntry_dirSetEntry ..

end

section
variable {s : State} {home off : Nat} {m : Msg}

/-- A request of a line that no other agent holds is finished at once (R342, Table 11-5). -/
theorem State.accept_finishes {r : State}
    (hway : r.dir.find m.a = none → allocates m.kind = true → r.dirUsed home (dirSet m.a) < 20)
    (howner : (r.dirEntry m.a).owner = none)
    (hsharers : (r.dirEntry m.a).sharers = [] ∨ m.kind = .upgrade ∧ (r.dirEntry m.a).sharers = [m.src]) :
    r.accept home m = some ((r.bumpUnits (Page.directory home) 0 1 1024).finish home m) := by
  have hroom : ¬ ((!(r.dir.find m.a).isSome) = true ∧ allocates m.kind = true ∧ 20 ≤ r.dirUsed home (dirSet m.a)) := by
    rintro ⟨hnone, halloc, hfull⟩
    exact absurd (hway (by simpa using hnone) halloc) (Nat.not_lt.mpr hfull)
  have howner' : ((r.bumpUnits (Page.directory home) 0 1 1024).dirEntry m.a).owner = none := howner
  have hothers : ((r.bumpUnits (Page.directory home) 0 1 1024).dirEntry m.a).sharers.filter (· ≠ m.src) = [] := by
    change (r.dirEntry m.a).sharers.filter (· ≠ m.src) = []
    rcases hsharers with h | ⟨-, h⟩ <;> simp [h]
  unfold State.accept
  rw [if_neg hroom]
  simp only [howner', hothers, if_true]
  rcases hsharers with h | ⟨h, -⟩
  · have hnone : ((r.bumpUnits (Page.directory home) 0 1 1024).dirEntry m.a).sharers = [] := h
    simp only [hnone, if_true]
    generalize m.kind = k
    cases k <;> rfl
  · simp only [h]

/-- A request that reaches an idle home of a line that no other agent holds is finished at once (R338, R339, R342). -/
theorem State.request_finishes (hregion : regionOf (m.a * 128) = .gddr home off) (hstatus : s.gddrStatus home off = 0)
    (hqueue : s.dirQueue = []) (hbusy : s.busy m.a = false)
    (hway : s.dir.find m.a = none → allocates m.kind = true → s.dirUsed home (dirSet m.a) < 20)
    (howner : (s.dirEntry m.a).owner = none)
    (hsharers : (s.dirEntry m.a).sharers = [] ∨ m.kind = .upgrade ∧ (s.dirEntry m.a).sharers = [m.src]) :
    ∃ n, s.request m = { (s.taken home m n).finish home m with dirQueue := [] } := by
  obtain ⟨n, -, hn⟩ := s.arrived_eq m.kind m.src m.a
  have hhome : ∀ r : State, r.homeOf (m.a * 128) = some home := fun r => by simp only [State.homeOf, hregion]
  have hlive : ({ s with net := n } : State).stackState home ≠ PS.faulted := State.stackState_of_gddrStatus hstatus
  have haccept : ({ s with net := n, dirQueue := [m] } : State).accept home m = some ((s.taken home m n).finish home m) :=
    State.accept_finishes hway howner hsharers
  have hbusy' : ({ s with net := n, dirQueue := [m] } : State).busy m.a = false := hbusy
  refine ⟨n, ?_⟩
  unfold State.request
  simp only [hn, hhome, hqueue, List.nil_append]
  refine (if_neg hlive).trans ?_
  simp [State.serve, serveList, hhome, hbusy', haccept]

/-- RD_SHARED and RD_UNIQUE of a line without sharers: the requester owns it, and gets it in E (Table 11-5). -/
theorem State.finish_grants (n : List Msg) (hkind : m.kind = .rdShared ∨ m.kind = .rdUnique)
    (hsharers : (s.dirEntry m.a).sharers = []) : (s.taken home m n).finish home m =
      ((s.recorded home m n [] (some m.src)).grantLine .datE m).openTxn m [] true := by
  have hsharers' : ((s.taken home m n).dirEntry m.a).sharers = [] := hsharers
  unfold State.finish
  rcases hkind with hkind | hkind <;> simp only [hkind, hsharers', if_true] <;> rfl

/-- UPGRADE of the only sharer brings ownership alone (R345). -/
theorem State.finish_upgrade (n : List Msg) (hkind : m.kind = .upgrade) (hsharers : (s.dirEntry m.a).sharers = [m.src]) :
    (s.taken home m n).finish home m =
      ((s.recorded home m n [] (some m.src)).post ⟨.grant, home, m.src, m.a, 0, []⟩).openTxn m [] true := by
  have hsharer : ((s.taken home m n).dirEntry m.a).sharers.contains m.src = true := by
    rw [show ((s.taken home m n).dirEntry m.a).sharers = [m.src] from hsharers]
    simp
  unfold State.finish
  simp only [hkind, hsharer, if_true]
  rfl

/-- A write or ATOMIC of a line without copies is performed in memory, and no agent is recorded (Table 11-5). -/
theorem State.finish_performs (n : List Msg) (hkind : m.kind = .wrFull ∨ m.kind = .wrPtl ∨ m.kind = .atomic) :
    (s.taken home m n).finish home m = (s.recorded home m n [] none).perform m := by
  unfold State.finish
  rcases hkind with hkind | hkind | hkind <;> simp only [hkind] <;> rfl

end

section
variable {s : State} {agent line home off : Nat} (hregion : regionOf (line * 128) = .gddr home off)
  (hstatus : s.gddrStatus home off = 0) (hbusy : s.busy line = false)
include hregion hstatus hbusy

/-- RD_PF of a line that is not owned, whose home has an entry or a way for it, brings a shared copy (R360). -/
theorem exec_rdPf_shares (hcaching : isCaching agent = true) (hsound : s.badStatus (line * 128) = 0)
    (hfind : s.dir.find line = none) (hway : s.dirUsed home (dirSet line) < 20) : ∃ n, exec (.rdPf agent line) s = .next
      (((({ s with net := n } : State).bumpUnits (Page.directory home) 0 1 1024).dirSetEntry line
        { home := home, set := dirSet line, sharers := [agent] }).post ⟨.datS, home, agent, line, 0, s.lineBytes line⟩) := by
  obtain ⟨n, -, hn⟩ := s.arrived_eq .rdPf agent line
  have hhome : ({ s with net := n } : State).homeOf (line * 128) = some home := by simp only [State.homeOf, hregion]
  have hstatus' : ({ s with net := n } : State).gddrStatus home off = 0 := hstatus
  have hsound' : ({ s with net := n } : State).badStatus (line * 128) = 0 := hsound
  have hread := State.readStatus_gddr hregion hstatus' 0 .engine
  have hentry : ({ s with net := n } : State).dirEntry line = { home := 0, set := 0 } := s.dirEntry_none hfind
  have hbusy' : ({ s with net := n } : State).busy line = false := hbusy
  have hway' : ({ s with net := n } : State).dirUsed home (dirSet line) < 20 := hway
  refine ⟨n, ?_⟩
  change execRdPf _ _ _ = _
  simp only [execRdPf, hn, hhome, hread, hsound', hentry, hbusy', hcaching, decide_eq_true hway']
  simp [setInsert]
  rfl

variable (hqueue : s.dirQueue = [])
include hqueue

section
variable (hfind : s.dir.find line = none)
include hfind

/-- The request of an agent for a line without an entry is finished at once. -/
theorem State.request_unheld {m : Msg} (hline : m.a = line) (hway : allocates m.kind = true → s.dirUsed home (dirSet line) < 20) :
    ∃ n, s.request m = { (s.taken home m n).finish home m with dirQueue := [] } := by
  subst hline
  have hentry := s.dirEntry_none hfind
  exact State.request_finishes hregion hstatus hqueue hbusy (fun _ => hway) (by rw [hentry]) (.inl (by rw [hentry]))

/-- RD_SHARED and RD_UNIQUE of a line that no agent holds. -/
theorem State.request_grants {m : Msg} (hline : m.a = line) (hkind : m.kind = .rdShared ∨ m.kind = .rdUnique)
    (hway : s.dirUsed home (dirSet line) < 20) : ∃ n, s.request m =
      { (((s.recorded home m n [] (some m.src)).post ⟨.datE, 0, m.src, line, s.badStatus (line * 128),
        if s.badStatus (line * 128) = 0 then s.lineBytes line else []⟩).openTxn m [] true) with dirQueue := [] } := by
  obtain ⟨n, hrequest⟩ := State.request_unheld hregion hstatus hbusy hqueue hfind hline fun _ => hway
  subst hline
  have hstatus' : (s.recorded home m n [] (some m.src)).gddrStatus home off = 0 :=
    (s.gddrStatus_recorded home m n _ _ (stack_lt_of_regionOf hregion)).trans hstatus
  refine ⟨n, hrequest.trans ?_⟩
  rw [State.finish_grants n hkind (by rw [s.dirEntry_none hfind]), State.grantLine_sends hregion hstatus' .datE rfl,
    State.badStatus_recorded, State.lineBytes_recorded]

/-- A write or ATOMIC of a line that no agent holds is performed in a state `r` with the same memory and statuses. -/
theorem State.request_performs {m : Msg} (hline : m.a = line) (hkind : m.kind = .wrFull ∨ m.kind = .wrPtl ∨ m.kind = .atomic) :
    ∃ r : State, (∀ o, r.gddrStatus home o = s.gddrStatus home o) ∧ (∀ a, r.badStatus a = s.badStatus a) ∧
      r.cacheFind home line = s.cacheFind home line ∧ r.mem = s.mem ∧ s.request m = { r.perform m with dirQueue := [] } := by
  obtain ⟨n, hrequest⟩ := State.request_unheld hregion hstatus hbusy hqueue hfind hline
    fun halloc => by rcases hkind with h | h | h <;> simp [h, allocates] at halloc
  exact ⟨s.recorded home m n [] none, fun _ => State.gddrStatus_recorded _ _ _ _ _ _ (stack_lt_of_regionOf hregion),
    fun _ => State.badStatus_recorded .., State.cacheFind_recorded .., State.recorded_mem ..,
    hrequest.trans (by rw [State.finish_performs n hkind])⟩

end

end

/-- Settles O30: each request finds its home idle and the line held by no other agent, so that it is finished at once. -/
theorem homeCompletes : Obligations.HomeCompletes := by
  refine ⟨?_, ?_, ?_, ?_⟩
  · intro s agent line home off c hcaching hc hregion hstatus hqueue hbusy hfind hway
    have hexec : ∃ k : MsgKind, (k = .rdShared ∨ k = .rdUnique) ∧ exec c s = .next (s.request ⟨k, agent, 0, line, 0, []⟩) := by
      rcases hc with rfl | rfl
      · exact ⟨_, .inl rfl, congrArg Host.Outcome.next (if_pos hcaching)⟩
      · exact ⟨_, .inr rfl, congrArg Host.Outcome.next (if_pos hcaching)⟩
    obtain ⟨k, hkind, hexec⟩ := hexec
    obtain ⟨n, hrequest⟩ := State.request_grants hregion hstatus hbusy hqueue hfind (m := ⟨k, agent, 0, line, 0, []⟩) rfl hkind hway
    obtain ⟨hsharers, howner⟩ := s.dirEntry_recorded home ⟨k, agent, 0, line, 0, []⟩ n [] (some agent)
    rw [hrequest] at hexec
    refine ⟨_, hexec, howner, hsharers, ?_, State.mem_post .., State.recorded_mem ..⟩
    exact congrArg Option.isSome (Map.find_set_same ..)
  · intro s agent line home off hcaching hregion hstatus hqueue hbusy hfind howner hsharers
    obtain ⟨n, hrequest⟩ := State.request_finishes (m := ⟨.upgrade, agent, 0, line, 0, []⟩) hregion hstatus hqueue hbusy
      (fun hnone => nomatch hfind.symm.trans hnone) howner (.inr ⟨rfl, hsharers⟩)
    obtain ⟨hnone, hown⟩ := s.dirEntry_recorded home ⟨.upgrade, agent, 0, line, 0, []⟩ n [] (some agent)
    rw [State.finish_upgrade n rfl hsharers] at hrequest
    refine ⟨_, congrArg Host.Outcome.next ((if_pos hcaching).trans hrequest), hown, hnone, ?_, State.mem_post ..,
      State.recorded_mem ..⟩
    exact congrArg Option.isSome (Map.find_set_same ..)
  · intro s agent line home off hcaching hregion hstatus hsound hbusy hfind hway
    obtain ⟨n, hexec⟩ := exec_rdPf_shares hregion hstatus hbusy hcaching hsound hfind hway
    obtain ⟨hsharers, howner⟩ := State.dirEntry_dirSetEntry
      (({ s with net := n } : State).bumpUnits (Page.directory home) 0 1 1024) line
      { home := home, set := dirSet line, sharers := [agent] }
    exact ⟨_, hexec, hsharers, howner, State.mem_post .., State.dirSetEntry_mem ..⟩
  · intro s agent line home off hregion hstatus hsound hqueue hbusy hfind huncached
    refine ⟨fun o n hn => ?_, fun data hdata => ?_, fun mask data hdata => ?_, ?_⟩
    · obtain ⟨q, hrequest⟩ := State.request_unheld hregion hstatus hbusy hqueue hfind
        (m := ⟨.rdOnce, agent, 0, line, o, leBytes 2 n⟩) rfl (fun halloc => nomatch halloc)
      have hstatus' := (s.gddrStatus_taken home ⟨.rdOnce, agent, 0, line, o, leBytes 2 n⟩ q
        (stack_lt_of_regionOf hregion)).trans hstatus
      rw [State.finish, State.perform_rdOnce hregion hstatus' hsound agent o hn] at hrequest
      exact ⟨_, congrArg Host.Outcome.next hrequest, State.mem_post .., rfl⟩
    · obtain ⟨r, hok, hbad, hcache, hsame, hrequest⟩ := State.request_performs hregion hstatus hbusy hqueue hfind
        (m := ⟨.wrFull, agent, 0, line, 0, data⟩) rfl (.inl rfl)
      obtain ⟨hmem, hcomp⟩ := State.perform_wrFull hregion ((hok off).trans hstatus) ((hbad _).trans hsound)
        (hcache.trans huncached) agent data
      rw [hsame] at hmem
      exact ⟨_, congrArg Host.Outcome.next ((if_pos hdata).trans hrequest), hmem, hcomp⟩
    · obtain ⟨r, hok, hbad, hcache, hsame, hrequest⟩ := State.request_performs hregion hstatus hbusy hqueue hfind
        (m := ⟨.wrPtl, agent, 0, line, mask, data⟩) rfl (.inr (.inl rfl))
      obtain ⟨hmem, hcomp⟩ := State.perform_wrPtl hregion ((hok off).trans hstatus) ((hbad _).trans hsound)
        (hcache.trans huncached) agent mask data
      rw [State.lineBytes, hsame] at hmem
      exact ⟨_, congrArg Host.Outcome.next ((if_pos hdata).trans hrequest), hmem, hcomp⟩
    · intro o aop size b c haop hsize hin hb hc hregion' hstatus'
      obtain ⟨r, hok, hbad, hcache, hsame, hrequest⟩ := State.request_performs hregion hstatus hbusy hqueue hfind
        (m := atomicMsg agent line o aop size b c) rfl (.inr (.inr rfl))
      obtain ⟨hmem, hold⟩ := State.perform_atomic hregion ((hok off).trans hstatus) ((hbad _).trans hsound)
        (hcache.trans huncached) agent haop hsize hin hb hc hregion' ((hok _).trans hstatus')
      rw [hsame] at hmem hold
      exact ⟨_, congrArg Host.Outcome.next hrequest, hmem, hold⟩

end Sys2Proof.Machine

/-!
What agents do with snoops, and requesters with what they receive (O31; Table 11-6, R341 to R345, R360).
-/
namespace Sys2Proof.Machine

section
variable {s : State} {agent line req : Nat}

/-- SNP_FWD_S of a line in M (Table 11-6). -/
theorem exec_snpFwdS_modified (hstate : s.agentState agent line = .m) (hreq : isCaching (req % 512) = true) :
    ∃ n, exec (.snpFwdS agent line req) s = .next
      (((({ s with net := n } : State).setAgent agent line .s).post ⟨.datS, agent, req, line, 0, s.lineBytes line⟩).post
        ⟨.datWb, agent, 0, line, 0, s.lineBytes line⟩) := by
  obtain ⟨n, hn⟩ := s.delivered_eq .snpFwdS agent line
  have hstate' : ({ s with net := n } : State).agentState agent line = .m := hstate
  change ∃ n, execSnpFwdS _ _ _ _ = _
  simp only [execSnpFwdS, hn, hstate', hreq]
  exact ⟨n, rfl⟩

/-- SNP_FWD_U of a line in M (Table 11-6). -/
theorem exec_snpFwdU_modified (req : Nat) (hstate : s.agentState agent line = .m) :
    ∃ n, exec (.snpFwdU agent line req) s = .next
      (((({ s with net := n } : State).dropCopy agent line).post ⟨.datM, agent, req, line, 0, s.lineBytes line⟩).post
        ⟨.fwdAck, agent, 0, line, 0, []⟩) := by
  obtain ⟨n, hn⟩ := s.delivered_eq .snpFwdU agent line
  have hstate' : ({ s with net := n } : State).agentState agent line = .m := hstate
  change ∃ n, execSnpFwdU _ _ _ _ = _
  simp only [execSnpFwdU, hn, hstate']
  exact ⟨n, rfl⟩

/-- SNP_INV of a line in S (Table 11-6). -/
theorem exec_snpInv_shared (hstate : s.agentState agent line = .s) : ∃ n, exec (.snpInv agent line) s = .next
    ((({ s with net := n } : State).dropCopy agent line).post ⟨.invAck, agent, 0, line, 0, []⟩) := by
  obtain ⟨n, hn⟩ := s.delivered_eq .snpInv agent line
  have hstate' : ({ s with net := n } : State).agentState agent line = .s := hstate
  change ∃ n, execSnpInv _ _ _ = _
  simp only [execSnpInv, hn, hstate']
  exact ⟨n, rfl⟩

/-- SNP_RECALL of a line in M (Table 11-6). -/
theorem exec_snpRecall_modified (hstate : s.agentState agent line = .m) : ∃ n, exec (.snpRecall agent line) s = .next
    ((({ s with net := n } : State).dropCopy agent line).post ⟨.datWb, agent, 0, line, 0, s.lineBytes line⟩) := by
  obtain ⟨n, hn⟩ := s.delivered_eq .snpRecall agent line
  have hstate' : ({ s with net := n } : State).agentState agent line = .m := hstate
  change ∃ n, execSnpRecall _ _ _ = _
  simp only [execSnpRecall, hn, hstate']
  exact ⟨n, rfl⟩

/-- A server core whose transaction the grant answers acknowledges it to the home and holds the line (R339, R342). -/
theorem State.granted_holds {x : DirTxn} (k : MsgKind) (st : LineState) (hagent : agent < 256)
    (htxn : s.txns.find line = some x) (hack : x.needAck = true) (hsrc : x.req.src = agent) :
    ∃ n, s.granted agent line k st St.ok =
      (({ s with net := n } : State).post ⟨.compAck, agent, 0, line, 0, []⟩).setAgent agent line st := by
  obtain ⟨n, hn⟩ := s.delivered_eq k agent line
  have hcaching : isCaching agent = true := decide_eq_true (by omega)
  have hnear : ¬ 256 ≤ agent := by omega
  refine ⟨n, ?_⟩
  unfold State.granted
  simp only [hn, htxn, hack, hsrc, hcaching, if_neg hnear]
  simp

/-- Each grant is taken in its state (R342, R343, R345). -/
theorem exec_grant_granted (s : State) {c : Instr} {st : LineState} (h : (c, st) ∈ [(Instr.datS agent line 0, LineState.s),
    (.datE agent line 0, .e), (.datM agent line 0, .m), (.grant agent line, .e)]) :
    st ≠ .i ∧ ∃ k, exec c s = .next (s.granted agent line k st St.ok) := by
  simp only [List.mem_cons, Prod.mk.injEq, List.not_mem_nil, or_false] at h
  obtain ⟨rfl, rfl⟩ | ⟨rfl, rfl⟩ | ⟨rfl, rfl⟩ | ⟨rfl, rfl⟩ := h
  all_goals exact ⟨by decide, _, rfl⟩

end

/-- Settles O31: each snoop and each message to a requester meets its conditions, so that the agent answers and takes it as
stated. -/
theorem agentsComplete : Obligations.AgentsComplete := by
  refine ⟨fun s agent line req _ => ⟨fun hstate hreq => ?_, fun hstate => ?_, fun hstate => ?_, fun hstate => ?_⟩, ?_, ?_, ?_, ?_⟩
  · obtain ⟨n, hexec⟩ := exec_snpFwdS_modified hstate hreq
    exact ⟨_, hexec, State.agentState_setAgent_same { s with net := n } agent line .s,
      State.mem_post_of_mem _ _ (State.mem_post ..), State.mem_post .., rfl⟩
  · obtain ⟨n, hexec⟩ := exec_snpFwdU_modified req hstate
    exact ⟨_, hexec, State.agentState_dropCopy .., State.mem_post_of_mem _ _ (State.mem_post ..), State.mem_post ..,
      State.dropCopy_mem ..⟩
  · obtain ⟨n, hexec⟩ := exec_snpInv_shared hstate
    exact ⟨_, hexec, State.agentState_dropCopy .., State.mem_post .., State.dropCopy_mem ..⟩
  · obtain ⟨n, hexec⟩ := exec_snpRecall_modified hstate
    exact ⟨_, hexec, State.agentState_dropCopy .., State.mem_post .., State.dropCopy_mem ..⟩
  · intro s agent line x c st hagent htxn hack hsrc hc
    obtain ⟨hst, k, hexec⟩ := exec_grant_granted s hc
    obtain ⟨n, hgranted⟩ := State.granted_holds k st hagent htxn hack hsrc
    rw [hgranted] at hexec
    exact ⟨_, hexec, State.agentState_setAgent_same .., State.mem_post .., rfl,
      fun a ha _ => State.agentState_setAgent_other _ _ _ hst ha⟩
  · intro s agent line status
    obtain ⟨n, hn⟩ := s.delivered_eq .comp agent line
    refine ⟨_, rfl, rfl, ?_⟩
    rw [hn]; rfl
  · intro s agent line status m hm
    obtain ⟨n, hn⟩ := s.delivered_eq .datIo agent line
    refine ⟨(s.delivered .datIo agent line).answer status m.data, ?_, rfl, ?_⟩
    · change execDatIo _ _ _ _ = _
      rw [execDatIo, hm]
    · rw [hn]; rfl
  · intro s agent line
    obtain ⟨n, hn⟩ := s.delivered_eq .pfDrop agent line
    refine ⟨_, rfl, fun r hr hagent hline => ?_, ?_⟩
    · simpa [hagent, hline] using (List.mem_filter.mp hr).2
    · rw [hn]

end Sys2Proof.Machine

/-!
What the answers do at the home (O32; Table 11-5, R339, R342, R344).
-/
namespace Sys2Proof.Machine

section
variable {s : State} {agent line home : Nat} {x : DirTxn}

/-- A transaction that awaits another answer goes on as it is (R339). -/
theorem State.settle_waits {other : Nat} (htxn : s.txns.find line = some x) (hother : other ∈ x.waits) :
    s.settle home line = s := by
  unfold State.settle
  rw [htxn]
  exact if_neg fun h => List.ne_nil_of_mem hother h.1

/-- An answer without a copy, while another is awaited, leaves the answers awaited and takes the agent out of the entry (R344). -/
theorem State.noCopy_answers {other : Nat} (htxn : s.txns.find line = some x) (hagent : agent ∈ x.waits)
    (hother : other ∈ x.waits) (hne : other ≠ agent) : s.noCopy home line agent false =
      ({ s with txns := s.txns.set line (x.answered agent) } : State).dirRemove line agent := by
  have hset : (({ s with txns := s.txns.set line (x.answered agent) } : State).dirRemove line agent).txns.find line =
      some (x.answered agent) := by
    rw [State.dirRemove_txns]
    exact Map.find_set_same ..
  unfold State.noCopy
  simp only [htxn, List.contains_iff_mem, hagent, if_true, Bool.false_eq_true, if_false]
  exact State.settle_waits hset (List.mem_filter.mpr ⟨hother, by simpa using hne⟩)

/-- An agent whose eviction message is still to come is awaited as one that answered without a copy (R344). -/
theorem State.noCopy_misses {other : Nat} (htxn : s.txns.find line = some x) (hagent : agent ∈ x.waits)
    (hother : other ∈ x.waits) (hne : other ≠ agent) : s.noCopy home line agent true =
      { s with txns := s.txns.set line { x.answered agent with missed := setInsert x.missed agent } } := by
  unfold State.noCopy
  simp only [htxn, List.contains_iff_mem, hagent, if_true]
  exact State.settle_waits (Map.find_set_same ..) (List.mem_filter.mpr ⟨hother, by simpa using hne⟩)

/-- A forwarding owner's answer to RD_UNIQUE makes the requester the owner (Table 11-5). -/
theorem State.forwarded_owner (home : Nat) (htxn : s.txns.find line = some x) (hwaits : x.waits = [agent])
    (hkind : x.req.kind = .rdUnique) (hack : x.needAck = true) (hacked : x.acked = false) : s.forwarded home line agent =
      { s.dirSetEntry line { s.dirEntry line with sharers := [], owner := some x.req.src } with
        txns := s.txns.set line { x with waits := [] } } := by
  unfold State.forwarded
  simp [htxn, hwaits, hkind, hack, hacked, DirTxn.answered]

/-- The eviction message of a line without a transaction takes the agent out of the entry (R344). -/
theorem State.evicted_removes (home : Nat) (htxn : s.txns.find line = none) :
    s.evicted home line agent = s.dirRemove line agent := by
  simp only [State.evicted, State.dirRemove_txns, htxn]

/-- EVICT_CLEAN and the DAT_WB of an eviction of a GDDR line (R342, R344). -/
theorem exec_eviction_removes {off : Nat} {c : Instr} (hc : c = .evictClean agent line ∨ c = .datWb agent line true)
    (hhome : s.homeOf (line * 128) = some home) (hregion : regionOf (line * 128) = .gddr home off)
    (htxn : s.txns.find line = none) : ∃ n, exec c s = .next
      ((({ s with net := n } : State).setAgent agent line .i).dirRemove line agent) := by
  rcases hc with rfl | rfl
  · obtain ⟨n, -, hn⟩ := s.arrived_eq .evictClean agent line
    have hhome' : (({ s with net := n } : State).setAgent agent line .i).homeOf (line * 128) = some home := hhome
    refine ⟨n, ?_⟩
    change execEvictClean _ _ _ = _
    simp only [execEvictClean, hn, hhome']
    exact congrArg Host.Outcome.next (State.evicted_removes home htxn)
  · obtain ⟨n, -, hn⟩ := s.arrived_eq .datWb agent line
    have hhome' : ({ s with net := n } : State).homeOf (line * 128) = some home := hhome
    refine ⟨n, ?_⟩
    change execDatWb _ _ _ _ = _
    simp only [execDatWb, hn, hhome', hregion, if_true]
    exact congrArg Host.Outcome.next (State.evicted_removes home htxn)

/-- COMP_ACK of a transaction that awaits nothing else ends it (R339). -/
theorem exec_compAck_closes (hhome : s.homeOf (line * 128) = some home) (htxn : s.txns.find line = some x)
    (hack : x.needAck = true) (hsrc : x.req.src = agent) (hwaits : x.waits = []) (hmissed : x.missed = [])
    (hqueue : s.dirQueue = []) : ∃ n, exec (.compAck agent line) s = .next
      { s with net := n, txns := s.txns.drop fun k => k == line } := by
  obtain ⟨n, -, hn⟩ := s.arrived_eq .compAck agent line
  have hhome' : ({ s with net := n } : State).homeOf (line * 128) = some home := hhome
  refine ⟨n, ?_⟩
  change execCompAck _ _ _ = _
  simp only [execCompAck, hn, hhome', htxn, hack, hsrc, hwaits, hmissed, and_self, if_true]
  exact congrArg Host.Outcome.next (State.serve_idle home hqueue)

end

/-- Settles O32: each answer meets its conditions, so that the transaction and the entry change as stated. -/
theorem answersComplete : Obligations.AnswersComplete := by
  refine ⟨?_, ?_, ?_, ?_⟩
  · refine fun s agent other line home x hhome htxn hagent hother hne => ⟨fun hevicting => ?_, fun hnames => ?_⟩
    · obtain ⟨n, hsub, hn⟩ := s.arrived_eq .invAck agent line
      have hhome' : ({ s with net := n } : State).homeOf (line * 128) = some home := hhome
      have hexec : exec (.invAck agent line) s = .next
          (({ s with net := n, txns := s.txns.set line (x.answered agent) } : State).dirRemove line agent) := by
        change execInvAck _ _ _ = _
        simp only [execInvAck, hn, hhome', s.evicting_of_subset hsub hevicting, Bool.false_and]
        exact congrArg Host.Outcome.next (State.noCopy_answers (s := { s with net := n }) htxn hagent hother hne)
      refine ⟨_, x.answered agent, hexec, ?_, rfl, rfl, State.dirNames_dirRemove .., State.dirRemove_mem ..⟩
      rw [State.dirRemove_txns]
      exact Map.find_set_same ..
    · obtain ⟨n, -, hn⟩ := s.arrived_eq .rspMiss agent line
      have hhome' : ({ s with net := n } : State).homeOf (line * 128) = some home := hhome
      have hnames' : ({ s with net := n } : State).dirNames line agent = true := hnames
      have hanswer := State.noCopy_misses (s := ({ s with net := n } : State).bump (Page.directory home) 6) (home := home)
        htxn hagent hother hne
      have hexec : exec (.rspMiss agent line) s = .next { ({ s with net := n } : State).bump (Page.directory home) 6 with
          txns := s.txns.set line { x.answered agent with missed := setInsert x.missed agent } } := by
        change execRspMiss _ _ _ = _
        simp only [execRspMiss, hn, hhome', hnames', hanswer]
        rfl
      exact ⟨_, _, hexec, Map.find_set_same .., rfl, mem_setInsert_self x.missed agent, rfl,
        State.reg_bump_same { s with net := n } (Page.directory home) 6 1⟩
  · intro s agent line home x hhome htxn hwaits hkind hack hacked
    obtain ⟨n, -, hn⟩ := s.arrived_eq .fwdAck agent line
    have hhome' : ({ s with net := n } : State).homeOf (line * 128) = some home := hhome
    obtain ⟨hsharers, howner⟩ := State.dirEntry_dirSetEntry { s with net := n } line
      { s.dirEntry line with sharers := [], owner := some x.req.src }
    have hexec : exec (.fwdAck agent line) s = .next { ({ s with net := n } : State).dirSetEntry line
        { s.dirEntry line with sharers := [], owner := some x.req.src } with txns := s.txns.set line { x with waits := [] } } := by
      change execFwdAck _ _ _ = _
      simp only [execFwdAck, hn, hhome']
      exact congrArg Host.Outcome.next (State.forwarded_owner (s := { s with net := n }) home htxn hwaits hkind hack hacked)
    exact ⟨_, hexec, howner, hsharers, Map.find_set_same .., State.dirSetEntry_mem ..⟩
  · intro s agent line home off c hc hhome hregion htxn
    obtain ⟨n, hexec⟩ := exec_eviction_removes hc hhome hregion htxn
    refine ⟨_, hexec, State.dirNames_dirRemove .., ?_, State.dirRemove_mem ..⟩
    rw [State.agentState, State.dirRemove_agents]
    exact State.agentState_setAgent_same ..
  · intro s agent line home x hhome htxn hack hsrc hwaits hmissed hqueue
    obtain ⟨n, hexec⟩ := exec_compAck_closes hhome htxn hack hsrc hwaits hmissed hqueue
    refine ⟨_, hexec, ?_, rfl, rfl⟩
    rw [State.busy, Map.find_drop_same]
    rfl

end Sys2Proof.Machine

/-!
Translation copies and their page requests (O33; R315, R351 to R361).
-/
namespace Sys2Proof.Machine

/-! Hub copies (R351, R354). -/

/-- What is left in the copies after a page has been dropped from each hub of a list. -/
theorem mem_tlb_foldl {step : State → Nat → State} {p : TlbEntry → Bool}
    (hstep : ∀ s h, (step s h).tlb = s.tlb.filter fun e => !(decide (e.stack = h) && p e)) (hubs : List Nat) (s : State)
    (e : TlbEntry) : e ∈ (hubs.foldl step s).tlb ↔ e ∈ s.tlb ∧ ¬ (e.stack ∈ hubs ∧ p e = true) := by
  induction hubs generalizing s with
  | nil => simp
  | cons h hubs ih =>
    rw [List.foldl_cons, ih, hstep, List.mem_filter, List.mem_cons]
    by_cases hhub : e.stack = h <;> by_cases hhit : p e = true <;> simp [hhub, hhit]

/-- The copy of a READY hub that is not full keeps its other entries and takes the new one (R351). -/
theorem State.tlbFill_room {s : State} {e : TlbEntry} (hready : s.ready (Page.hubTlb e.stack) = true)
    (hroom : s.tlb.length < 262144) : s.tlbFill e = ({ s with tlb := (s.tlb.filter fun x =>
      !decide (x.stack = e.stack ∧ x.dev = e.dev ∧ x.pasid = e.pasid ∧ x.vpage = e.vpage)) ++ [e] } : State).tlbCount e.stack := by
  have hfew : ∀ p q : TlbEntry → Bool, ¬ 262144 ≤ ((s.tlb.filter p).filter q).length := fun p q =>
    Nat.not_le.mpr (((List.length_filter_le ..).trans (List.length_filter_le ..)).trans_lt hroom)
  unfold State.tlbFill
  simp only [hready, if_true, if_neg (hfew _ _)]

/-- Filling a copy changes the copies and the count of their entries, and nothing else. -/
theorem State.tlbFill_eq (s : State) (e : TlbEntry) : ∃ l r, s.tlbFill e = { s with tlb := l, regs := r } := by
  unfold State.tlbFill
  split
  · exact ⟨_, _, rfl⟩
  · exact ⟨s.tlb, s.regs, rfl⟩

@[simp] theorem State.tlbFill_mem (s : State) (e : TlbEntry) : (s.tlbFill e).mem = s.mem := by
  obtain ⟨l, r, h⟩ := s.tlbFill_eq e
  rw [h]

@[simp] theorem State.tlbFill_net (s : State) (e : TlbEntry) : (s.tlbFill e).net = s.net := by
  obtain ⟨l, r, h⟩ := s.tlbFill_eq e
  rw [h]

/-- An entry that fills a copy with room is found there. -/
theorem State.tlbFind_tlbFill {s : State} {e : TlbEntry} (hready : s.ready (Page.hubTlb e.stack) = true)
    (hroom : s.tlb.length < 262144) : (s.tlbFill e).tlbFind e.stack e.dev e.pasid e.vpage = some e := by
  have hgone (p : TlbEntry → Bool) : ((s.tlb.filter fun x => !p x).find? p) = none :=
    List.find?_eq_none.mpr fun x hx => by simpa using (List.mem_filter.mp hx).2
  rw [State.tlbFill_room hready hroom]
  change List.find? _ (_ ++ [e]) = some e
  rw [List.find?_append, hgone]
  simp

section
variable {s u : State} {stack dev pasid : Nat}

/-- A demand translation that misses the copy asks the IOMMU, whose answer is on its way (R351, R352). -/
theorem exec_translationRequest_asks {va pa : Nat} {write w : Bool} (hmiss : s.tlbFind stack dev pasid (va / 4096) = none)
    (hanswer : (s.bump (Page.hubTlb stack) 1).iommu dev pasid va write = (.ok pa, w, u)) :
    exec (.translationRequest stack dev pasid va write) s = .next
      (u.post ⟨.xlat, stack, dev, va / 4096, pa / 4096 * 2 + w.toNat, leBytes 4 pasid⟩) := by
  change execTranslationRequest _ _ _ _ _ _ = _
  simp only [execTranslationRequest, hmiss, hanswer]

/-- The only answer on its way fills the copy, and the waiting access has its address (R351, R352). -/
theorem exec_translationReply_fills {vpage b : Nat} (hnet : s.net = [⟨.xlat, stack, dev, vpage, b, leBytes 4 pasid⟩])
    (hmiss : s.tlbFind stack dev pasid vpage = none) : exec (.translationReply stack dev pasid vpage) s = .next
      ((({ s with net := [] } : State).tlbFill ⟨stack, dev, pasid, vpage, b / 2, decide (b % 2 = 1), false⟩).answer St.ok
        (leBytes 8 (b / 2 * 4096))) := by
  have hfirst : (s.net.findIdx? fun m =>
      decide (m.kind = .xlat ∧ m.src = stack ∧ m.dst = dev ∧ m.a = vpage ∧ m.data = leBytes 4 pasid)) = some 0 := by
    simp [hnet]
  have hmiss' : ({ s with net := s.net.eraseIdx 0 } : State).tlbFind stack dev pasid vpage = none := hmiss
  change execTranslationReply _ _ _ _ _ = _
  simp only [execTranslationReply, hfirst, hmiss']
  rw [hnet]
  rfl

/-- A prefetched translation that ends at a permitted leaf fills the copy, and no accessed bit is set (R359, R361). -/
theorem exec_translationPrefetch_fills {va ahead pa : Nat} {write : Bool} {ls : List Leaf}
    (henabled : s.fld (Page.hubTlb stack) 0x100 8 8 = 1) (hahead : 1 ≤ ahead)
    (hdepth : ahead ≤ s.fld (Page.hubTlb stack) 0x100 4 0) (hmiss : s.tlbFind stack dev pasid (va / 4096) = none)
    (hwalk : s.walk dev pasid va = .found (ls, pa)) (hpermit : leavesPermit ls write = true) :
    exec (.translationPrefetch stack dev pasid va ahead write) s = .next ((s.bump (Page.hubTlb stack) 2).tlbFill
      ⟨stack, dev, pasid, va / 4096, pa / 4096, leavesPermit ls true && ls.all fun l => bit l.pte 7, true⟩) := by
  have hgo : ¬ (s.fld (Page.hubTlb stack) 0x100 8 8 = 0 ∨ s.fld (Page.hubTlb stack) 0x100 4 0 < ahead ∨ ahead = 0 ∨
      (s.tlbFind stack dev pasid (va / 4096)).isSome = true) := by
    simp only [hmiss, Option.isSome_none, Bool.false_eq_true, or_false]
    omega
  change execTranslationPrefetch _ _ _ _ _ _ _ = _
  simp only [execTranslationPrefetch, hwalk, hpermit, if_true]
  rw [if_neg hgo]

end

/-! Answers to page requests (R353, R407). -/

/-- The only command waits no longer for the page that it waited for (R407). -/
theorem State.cmdsPaged_resumes {s : State} {dev pasid vpage key : Nat} {c : Cmd} (hcmds : s.cmds = [(key, c)])
    (hkey : cmdKey c.queue c.seq = key) (hheld : c.held = 2) (hpage : c.heldPage = vpage) (hpart : c.part = dev)
    (hpasid : c.pasid = pasid) : s.cmdsPaged dev pasid vpage true = { s with cmds := [(key, { c with held := 0 })] } := by
  have hmine : (s.cmds.filter fun e => decide (e.2.held = 2 ∧ e.2.heldPage = vpage ∧ e.2.part = dev ∧ e.2.pasid = pasid)) =
      [(key, c)] := by simp [hcmds, hheld, hpage, hpart, hpasid]
  rw [State.cmdsPaged, hmine]
  simp [State.setCmd, hcmds, hkey, Map.set]

/-- Where there are no queues, rounds, blend operations, streams and migrations, none of them waits for a page (R353). -/
theorem State.unitsPaged_none {s : State} (dev pasid vpage : Nat) (good : Bool) (hqueues : s.queues = []) (hstages : s.stages = [])
    (hblends : s.blends = []) (hdecs : s.decs = []) (hmigs : s.migs = []) :
    (((((s.queuesPaged dev pasid vpage good).stagesPaged dev pasid vpage good).blendsPaged dev pasid vpage good).decsPaged
      dev pasid vpage good).migsPaged dev pasid vpage good) = s := by
  simp only [State.queuesPaged, hqueues, State.stagesPaged, hstages, State.blendsPaged, hblends, State.decsPaged, hdecs,
    State.migsPaged, hmigs, List.map_nil, List.foldl_nil]

/-- Software's answer to the only page request, for which no unit but the only command waits, lets that command go on (R353). -/
theorem exec_atsPrgr_resumes {s : State} {dev pasid vpage key : Nat} {c : Cmd} (hcmds : s.cmds = [(key, c)])
    (hkey : cmdKey c.queue c.seq = key) (hheld : c.held = 2) (hpage : c.heldPage = vpage) (hpart : c.part = dev)
    (hpasid : c.pasid = pasid) (hqueues : s.queues = []) (hstages : s.stages = []) (hblends : s.blends = [])
    (hdecs : s.decs = []) (hmigs : s.migs = []) (hreqs : s.pageReqs = [⟨dev, pasid, vpage, .engine⟩]) :
    exec (.atsPrgr dev pasid vpage true) s = .next { s with pageReqs := [], cmds := [(key, { c with held := 0 })] } := by
  have hresume := State.cmdsPaged_resumes (s := { s with pageReqs := [] }) hcmds hkey hheld hpage hpart hpasid
  have hmine : (s.pageReqs.filter fun r => decide (r.dev = dev ∧ r.pasid = pasid ∧ r.vpage = vpage)) =
      [⟨dev, pasid, vpage, .engine⟩] := by simp [hreqs]
  have hrest : (s.pageReqs.filter fun r => !decide (r.dev = dev ∧ r.pasid = pasid ∧ r.vpage = vpage)) = [] := by simp [hreqs]
  change execAtsPrgr _ _ _ _ _ = _
  simp only [execAtsPrgr, hmine, hrest, List.foldl_cons, List.foldl_nil, State.waiterAnswer, hresume]
  rw [if_neg (List.cons_ne_nil _ _)]
  exact congrArg Host.Outcome.next (State.unitsPaged_none dev pasid vpage true hqueues hstages hblends hdecs hmigs)

/-! Shootdowns (R315, R529). -/

/-- The hubs whose copies hold a page. -/
def State.pageHubs (s : State) (part vpage : Nat) : List Nat :=
  ((s.tlb.filter fun e => decide (e.dev = part ∧ e.vpage = vpage)).map TlbEntry.stack).eraseDups

/-- A shootdown leaves the entries of the other pages. -/
theorem State.mem_tlb_shootdown (s : State) (part vpage : Nat) (e : TlbEntry) :
    e ∈ (s.shootdown part vpage).tlb ↔ e ∈ s.tlb ∧ ¬ (e.dev = part ∧ e.vpage = vpage) := by
  have hleft : e ∈ (s.shootdown part vpage).tlb ↔ e ∈ s.tlb ∧ ¬ (e.stack ∈ s.pageHubs part vpage ∧
      decide (e.dev = part ∧ e.vpage = vpage) = true) :=
    mem_tlb_foldl (p := fun e => decide (e.dev = part ∧ e.vpage = vpage)) (fun _ _ => rfl) _ s e
  have hhub : e ∈ s.tlb → e.dev = part ∧ e.vpage = vpage → e.stack ∈ s.pageHubs part vpage := fun he hpage =>
    List.mem_eraseDups.mpr (List.mem_map_of_mem (List.mem_filter.mpr ⟨he, decide_eq_true hpage⟩))
  rw [hleft, decide_eq_true_eq]
  exact and_congr_right fun he => not_congr ⟨And.right, fun hpage => ⟨hhub he hpage, hpage⟩⟩

/-- Settles O33: each request, answer, prefetch and shootdown meets its conditions, so that the copies and the commands change as
stated. -/
theorem translationCompletes : Obligations.TranslationCompletes := by
  refine ⟨fun s u stack dev pasid va pa write w => exec_translationRequest_asks, ?_, ?_, ?_, ?_⟩
  · intro s stack dev pasid vpage b hnet hmiss hready hroom
    have hfound := State.tlbFind_tlbFill (s := { s with net := [] })
      (e := ⟨stack, dev, pasid, vpage, b / 2, decide (b % 2 = 1), false⟩) hready hroom
    exact ⟨_, exec_translationReply_fills hnet hmiss, State.tlbFill_net .., hfound, rfl, State.tlbFill_mem ..⟩
  · intro s stack dev pasid va ahead pa write ls henabled hahead hdepth hmiss hwalk hpermit hready hroom
    have hready' : (s.bump (Page.hubTlb stack) 2).ready (Page.hubTlb stack) = true := by
      rw [State.ready, State.pageState, State.fld, State.reg_bump_other _ _ _ _ (regKey_ne_of_offset (by decide))]
      exact hready
    have hfound := State.tlbFind_tlbFill (s := s.bump (Page.hubTlb stack) 2) (e := ⟨stack, dev, pasid, va / 4096, pa / 4096,
      leavesPermit ls true && ls.all fun l => bit l.pte 7, true⟩) hready' hroom
    exact ⟨_, exec_translationPrefetch_fills henabled hahead hdepth hmiss hwalk hpermit, hfound, State.tlbFill_mem ..⟩
  · intro s dev pasid vpage key c hcmds hkey hheld hpage hpart hpasid hqueues hstages hblends hdecs hmigs hreqs
    exact ⟨_, exec_atsPrgr_resumes hcmds hkey hheld hpage hpart hpasid hqueues hstages hblends hdecs hmigs hreqs, rfl, rfl, rfl⟩
  · intro s part vpage
    refine ⟨s.shootdown part vpage, rfl, fun e he => ((s.mem_tlb_shootdown ..).mp he).2, fun e he hother => ?_, fun e he => ?_, ?_⟩
    · exact (s.mem_tlb_shootdown ..).mpr ⟨he, fun hpage => hother.elim (· hpage.1) (· hpage.2)⟩
    · exact of_decide_eq_true (List.mem_filter.mp he).2
    · exact foldl_keeps (step := fun s h => s.tlbDrop h fun e => decide (e.dev = part ∧ e.vpage = vpage)) State.mem
        (fun _ _ => rfl) s

end Sys2Proof.Machine

/-!
Invalidations, fences and host translations (O34; R354 to R358).
-/
namespace Sys2Proof.Machine

/-- Whether an invalidation names an entry (R354; log row 54). -/
def invalNames (gvma : Bool) (dev pasid va : Option Nat) (e : TlbEntry) : Bool :=
  (dev.isNone || decide (dev = some e.dev)) && (gvma || ((pasid.isNone || decide (pasid = some e.pasid))
    && (va.isNone || decide (va.map (· / 4096) = some e.vpage))))

theorem invalNames_iff {gvma : Bool} {dev pasid va : Option Nat} {e : TlbEntry} : invalNames gvma dev pasid va e = true ↔
    (dev = none ∨ dev = some e.dev) ∧
      (gvma = true ∨ ((pasid = none ∨ pasid = some e.pasid) ∧ (va = none ∨ va.map (· / 4096) = some e.vpage))) := by
  simp only [invalNames, Bool.and_eq_true, Bool.or_eq_true, Option.isNone_iff_eq_none, decide_eq_true_eq]

section
variable (s : State)

/-- The state in which every READY hub has removed what an invalidation names, and has counted it. -/
def State.invalidated (p : TlbEntry → Bool) : State :=
  s.copyHubs.foldl (fun s h => (s.tlbDrop h p).bump (Page.hubTlb h) 5) s

theorem State.mem_tlb_invalidated (p : TlbEntry → Bool) (e : TlbEntry) :
    e ∈ (s.invalidated p).tlb ↔ e ∈ s.tlb ∧ ¬ (e.stack ∈ s.copyHubs ∧ p e = true) :=
  mem_tlb_foldl (fun _ _ => rfl) _ s e

@[simp] theorem State.invalidated_invals (p : TlbEntry → Bool) : (s.invalidated p).invals = s.invals :=
  foldl_keeps (step := fun s h => (s.tlbDrop h p).bump (Page.hubTlb h) 5) State.invals (fun _ _ => rfl) s

@[simp] theorem State.invalidated_mem (p : TlbEntry → Bool) : (s.invalidated p).mem = s.mem :=
  foldl_keeps (step := fun s h => (s.tlbDrop h p).bump (Page.hubTlb h) 5) State.mem (fun _ _ => rfl) s

/-- An invalidation that every hub acknowledges at once changes the copies and drops the answers on their way (R354). -/
theorem exec_iotinval_invalidates (index : Nat) (gvma : Bool) (dev pasid va : Option Nat) :
    ∃ n, exec (.iotinval index gvma dev pasid va []) s = .next { s.invalidated (invalNames gvma dev pasid va) with net := n } :=
  ⟨_, congrArg Host.Outcome.next (if_pos (List.filter_eq_nil_iff.mpr (by simp)))⟩

end

/-- The state in which a fence that asks for its interrupt has completed (R355; log row 8). -/
def State.fenced (s : State) : State :=
  let r := ({ s with invals := [] } : State).setReg 0x102 0x48 (setBit (s.reg 0x102 0x48) 11 true)
  r.setReg 0x102 0x50 (setBit (r.reg 0x102 0x50) 32 true)

theorem bit_setBit_same (v : Word) {i : Nat} (h : i < 64) : bit (setBit v i true) i = true := by
  simp [setBit, bit_setBits _ _ h]

section
variable {s : State}

/-- The only invalidation, not acknowledged 100 µs after its issue, posts INV_SLOW (R355, R365). -/
theorem exec_invSlow_posts {v : Inval} (hinvals : s.invals = [v]) (hslow : v.slow = false)
    (hlate : v.issued + 100000 ≤ s.panelTime.toNat) : exec (.invSlow v.index) s = .next
      (({ s with invals := [{ v with slow := true }] } : State).genEvent Page.iommu 0x0280 0
        (place 6 0 (v.hubs.foldl min 127) ||| place 63 32 v.index)) := by
  have hfind : (s.invals.find? fun x => decide (x.index = v.index) && !x.slow) = some v := by simp [hinvals, hslow]
  change execInvSlow _ _ = _
  simp only [execInvSlow, hfind, if_pos hlate]
  simp [hinvals]

/-- A host-aperture access that misses the ATC sends a Translation Request and is held (R356). -/
theorem exec_atsTranslationRequest_asks {part off : Nat} (write : Bool) (hstatus : s.hostStatus part .engine = 0)
    (hversion : s.fld Page.hostPort Reg.VER_ACTIVE 15 0 ≠ 0x0300) (hmiss : s.atcFind (part + 1) off = none) :
    exec (.atsTranslationRequest part off write) s = .next { s with
      atsReqs := s.atsReqs ++ [{ fn := part + 1, off := off, write := write }]
      out := ⟨.atsRequest, part + 1, 0, off, write.toNat, []⟩ :: s.out } := by
  change execAtsTranslationRequest _ _ _ _ = _
  simp only [execAtsTranslationRequest, if_neg hversion, hstatus, hmiss]
  rfl

/-- A completion with the permission that the access needs fills an ATC that is not full with its range (R356). -/
theorem exec_translationCompletion_fills {fn off : Nat} (size : Nat) {read write : Bool} {r : AtsReq}
    (hreq : (s.atsReqs.find? fun r => decide (r.fn = fn ∧ r.off = off) && !r.pri) = some r)
    (hpermit : (if r.write then write else read) = true) (hroom : s.atc.length < 16384) :
    exec (.translationCompletion fn off size true read write) s = .next (({ s.atsDrop fn off with
      atc := s.atc ++ [⟨fn, off / 2 ^ max 12 (min 21 size) * 2 ^ max 12 (min 21 size), 2 ^ max 12 (min 21 size), write⟩] } :
        State).answer St.ok []) := by
  change execTranslationCompletion _ _ _ _ _ _ _ = _
  simp only [execTranslationCompletion, hreq]
  rw [if_neg (by simp), if_pos hpermit, if_neg (Nat.not_le.mpr hroom)]

/-- A successful Page Request Group Response asks for the translation again (R357). -/
theorem exec_prgResponse_asks {fn off : Nat} {r : AtsReq}
    (hreq : (s.atsReqs.find? fun r => decide (r.fn = fn ∧ r.off = off) && r.pri) = some r) :
    exec (.prgResponse fn off true) s = .next { s with
      atsReqs := s.atsReqs.map fun (x : AtsReq) => if x.fn = fn ∧ x.off = off then { x with pri := false } else x
      out := ⟨.atsRequest, fn, 0, off, r.write.toNat, []⟩ :: s.out } := by
  change execPrgResponse _ _ _ _ = _
  simp only [execPrgResponse, hreq, if_true]

end

/-- Settles O34: each invalidation, fence and host translation meets its conditions, so that it takes effect. -/
theorem invalidationCompletes : Obligations.InvalidationCompletes := by
  refine ⟨?_, ?_, ?_, ?_, ?_, ?_, ?_⟩
  · intro s index gvma dev pasid va
    obtain ⟨n, hexec⟩ := exec_iotinval_invalidates s index gvma dev pasid va
    refine ⟨_, hexec, s.invalidated_invals _, s.invalidated_mem _, fun e he hstack hready hnamed => ?_⟩
    have hhub : e.stack ∈ s.copyHubs := List.mem_filter.mpr ⟨List.mem_range.mpr hstack, hready⟩
    exact ((s.mem_tlb_invalidated _ e).mp he).2 ⟨hhub, invalNames_iff.mpr hnamed⟩
  · intro s data
    refine ⟨s.fenced, rfl, rfl, ?_, ?_, rfl⟩
    · rw [State.fenced, State.reg_setReg_other _ _ _ _ _ _ (regKey_ne_of_offset (by decide)), State.reg_setReg_same]
      exact bit_setBit_same _ (by decide)
    · rw [State.fenced, State.reg_setReg_same]
      exact bit_setBit_same _ (by decide)
  · intro s v hinvals hslow hlate
    refine ⟨_, exec_invSlow_posts hinvals hslow hlate, ?_, State.posts_genEvent _ _ rfl rfl, State.genEvent_mem ..⟩
    obtain ⟨r, q, e, hevent⟩ := State.genEvent_eq { s with invals := [{ v with slow := true }] } Page.iommu 0x0280 0
      (place 6 0 (v.hubs.foldl min 127) ||| place 63 32 v.index)
    rw [hevent]
  · intro s part off write hstatus hversion hmiss
    exact ⟨_, exec_atsTranslationRequest_asks write hstatus hversion hmiss, rfl, rfl, rfl⟩
  · intro s fn off size read write r hreq hpermit hroom
    refine ⟨_, exec_translationCompletion_fills size hreq hpermit hroom, rfl, rfl, fun x hx => ?_, rfl⟩
    simpa [not_and_or] using (List.mem_filter.mp hx).2
  · intro s fn off r hreq
    have hnamed : r.fn = fn ∧ r.off = off := by
      have hfound := List.find?_some hreq
      simp only [Bool.and_eq_true, decide_eq_true_eq] at hfound
      exact hfound.1
    exact ⟨_, exec_prgResponse_asks hreq, rfl, List.mem_map.mpr ⟨r, List.mem_of_find?_eq_some hreq, if_pos hnamed⟩, rfl⟩
  · intro s fn base size
    exact ⟨_, rfl, fun e he hmeets => absurd (List.mem_filter.mp he).2 (by simp [hmeets]), rfl, rfl⟩

end Sys2Proof.Machine

/-!
The trellis (O35): the links of the routers, the packets at their outputs, INJECT_HOLD and the routing tables (R366 to R375).
-/
namespace Sys2Proof.Machine

/-! Arbiters and links, as the operations on a router's page leave them (Tables 12-7, 12-8). -/

/-- A field of one bit is that bit. -/
theorem bits_single (v : Word) (i : Nat) : bits v i i = (bit v i).toNat := by
  refine Nat.eq_of_testBit_eq fun j => ?_
  rw [testBit_bits, Nat.add_sub_cancel_left]
  cases j with
  | zero => cases bit v i <;> rfl
  | succ j => cases bit v i <;> simp [Nat.testBit_succ]

/-- The state with another trellis. -/
def State.withTrellis (s : State) (tr : Trellis) : State := { s with trellis := tr }

section
variable (s : State) (tr : Trellis)

@[simp] theorem State.withTrellis_trellis : (s.withTrellis tr).trellis = tr := rfl
@[simp] theorem State.withTrellis_buckets : (s.withTrellis tr).buckets = s.buckets := rfl
@[simp] theorem State.withTrellis_mem : (s.withTrellis tr).mem = s.mem := rfl
@[simp] theorem State.withTrellis_withTrellis (tr' : Trellis) : (s.withTrellis tr).withTrellis tr' = s.withTrellis tr' := rfl
@[simp] theorem State.linkUp_withTrellis (x e : Nat) : (s.withTrellis tr).linkUp x e = s.linkUp x e := rfl

end

section
variable (s : State) (page o : Nat)

@[simp] theorem State.fld_setArb (es : List ArbEntry) (p off hi lo : Nat) :
    (s.setArb page o es).fld p off hi lo = s.fld p off hi lo := rfl

theorem State.setArb_eq (es : List ArbEntry) : s.setArb page o es =
    s.withTrellis { s.trellis with entries := s.trellis.entries.set (arbKey page o) es } := rfl

@[simp] theorem State.setArb_mem (es : List ArbEntry) : (s.setArb page o es).mem = s.mem := rfl

@[simp] theorem State.arb_setArb (es : List ArbEntry) : (s.setArb page o es).arb page o = es := Map.get_set_same ..

/-- Loading an arbiter's status changes registers and nothing else (Tables 12-8, 12-11, 12-12). -/
theorem State.arbSync_eq : ∃ r, s.arbSync page o = { s with regs := r } := by
  unfold State.arbSync
  dsimp only
  split <;> exact ⟨_, rfl⟩

@[simp] theorem State.arbSync_mem : (s.arbSync page o).mem = s.mem := by
  obtain ⟨r, h⟩ := s.arbSync_eq page o
  rw [h]

@[simp] theorem State.arbSync_trellis : (s.arbSync page o).trellis = s.trellis := by
  obtain ⟨r, h⟩ := s.arbSync_eq page o
  rw [h]

@[simp] theorem State.arbSync_buckets : (s.arbSync page o).buckets = s.buckets := by
  obtain ⟨r, h⟩ := s.arbSync_eq page o
  rw [h]

@[simp] theorem State.arbSync_events : (s.arbSync page o).events = s.events := by
  obtain ⟨r, h⟩ := s.arbSync_eq page o
  rw [h]

@[simp] theorem State.arb_arbSync (p q : Nat) : (s.arbSync page o).arb p q = s.arb p q := by
  rw [State.arb, s.arbSync_trellis, State.arb]

end

section
variable (s : State) (x e : Nat)

/-- Links are as before where ROUTER_STAT of their router is. -/
theorem State.linkUp_of_reg {s t : State} {x : Nat} (e : Nat)
    (h : t.reg (Page.router x) Reg.ROUTER_STAT = s.reg (Page.router x) Reg.ROUTER_STAT) : t.linkUp x e = s.linkUp x e := by
  rw [State.linkUp, h, State.linkUp]

/-- Registers at other places of their pages than ROUTER_STAT. -/
theorem routerStat_ne {off : Nat} (page : Nat) (h : off / 8 % 512 ≠ 33) :
    regKey (Page.router x) Reg.ROUTER_STAT ≠ regKey page off := by
  simp only [regKey, Reg.ROUTER_STAT]; omega

/-- The registers of the arbiters of a page are not ROUTER_STAT (R389). -/
theorem routerStat_ne_arbOff {o k : Nat} (page : Nat) (ho : o < 5) (hk : k < 0x40) :
    regKey (Page.router x) Reg.ROUTER_STAT ≠ regKey page (arbOff o + k) :=
  routerStat_ne x page (by simp only [arbOff]; omega)

/-- Loading a field of ROUTER_STAT of a router (Table 12-8). -/
theorem State.linkUp_setFld (y hi lo n : Nat) (he : e < 4) : (s.setFld (Page.router y) Reg.ROUTER_STAT hi lo n).linkUp x e =
    if x = y ∧ lo ≤ 16 + e ∧ 16 + e ≤ hi then n.testBit (16 + e - lo) else s.linkUp x e := by
  by_cases hxy : x = y
  · subst hxy
    simp only [State.linkUp, State.reg_setFld_same, bit_setBits _ n (show 16 + e < 64 by omega), true_and]
  · rw [if_neg (fun h => hxy h.1)]
    exact State.linkUp_of_reg e (State.reg_setFld_other _ _ _ _ _ _ _ _
      (regKey_ne_of_page (by simp only [Page.router, Page.hub]; omega) (by decide) (by decide)))

/-- Setting or clearing a link's LINK_UP. -/
theorem State.linkUp_setLink (y d : Nat) (up : Bool) (he : e < 4) :
    (s.setLink y d up).linkUp x e = if x = y ∧ e = d then up else s.linkUp x e := by
  rw [State.setLink, State.linkUp_setFld _ _ _ _ _ _ _ he]
  by_cases h : x = y ∧ e = d
  · obtain ⟨rfl, rfl⟩ := h
    rw [if_pos ⟨rfl, le_rfl, le_rfl⟩, if_pos ⟨rfl, rfl⟩, Nat.sub_self]
    cases up <;> rfl
  · rw [if_neg (by omega), if_neg h]

@[simp] theorem State.linkUp_genEvent (page code part : Nat) (payload : Word) :
    (s.genEvent page code part payload).linkUp x e = s.linkUp x e :=
  State.linkUp_of_reg e (State.reg_genEvent_other _ _ _ _ _ (routerStat_ne x page (by decide)))

/-- Loading an arbiter's status leaves the links alone: of ROUTER_STAT it loads IN_TRANSIT (Table 12-8). -/
theorem State.linkUp_arbSync (stack : Nat) {o : Nat} (ho : o < 5) (he : e < 4) :
    (s.arbSync (Page.router stack) o).linkUp x e = s.linkUp x e := by
  have hctl {t : State} (k hi lo n : Nat) (hk : k < 0x40) :
      (t.setFld (Page.router stack) (arbOff o + k) hi lo n).linkUp x e = t.linkUp x e :=
    State.linkUp_of_reg e (State.reg_setFld_other _ _ _ _ _ _ _ _ (routerStat_ne_arbOff x _ ho hk))
  have hstat {t : State} (n : Nat) : (t.setFld (Page.router stack) Reg.ROUTER_STAT 15 0 n).linkUp x e = t.linkUp x e := by
    rw [State.linkUp_setFld _ _ _ _ _ _ _ he, if_neg (by omega)]
  unfold State.arbSync
  dsimp only
  split
  · rw [hstat, hctl _ _ _ _ (by decide), hctl _ _ _ _ (by decide), hctl _ _ _ _ (by decide)]
  · rw [hctl _ _ _ _ (by decide), hctl _ _ _ _ (by decide), hctl _ _ _ _ (by decide)]

end

/-! Links that fail (R367, R374). -/

section
variable (s : State) (stack : Nat) {d : Nat}

/-- What the end of a link that was up does: LINK_UP, the event, and the packets that the router takes back (R374). -/
theorem State.linkDownEnd_up (hup : s.linkUp stack d = true) : ∃ tr, s.linkDownEnd stack d =
    (((s.setLink stack d false).genEvent (Page.router stack) 0x0291 0 (place 1 0 d)).withTrellis tr).arbSync (Page.router stack)
      d :=
  ⟨_, if_neg (by simp [hup])⟩

/-- An end that is down stays as it is. -/
theorem State.linkDownEnd_down (hdown : s.linkUp stack d = false) : s.linkDownEnd stack d = s := if_pos (by simp [hdown])

@[simp] theorem State.linkDownEnd_mem : (s.linkDownEnd stack d).mem = s.mem := by
  cases hup : s.linkUp stack d with
  | false => rw [State.linkDownEnd_down s stack hup]
  | true =>
    obtain ⟨tr, h⟩ := State.linkDownEnd_up s stack hup
    rw [h, State.arbSync_mem, State.withTrellis_mem, State.genEvent_mem]
    rfl

/-- An end that goes down is down, and every other end is as before. -/
theorem State.linkUp_linkDownEnd {e : Nat} (x : Nat) (hd : d < 4) (he : e < 4) :
    (s.linkDownEnd stack d).linkUp x e = if x = stack ∧ e = d then false else s.linkUp x e := by
  cases hup : s.linkUp stack d with
  | false =>
    rw [State.linkDownEnd_down s stack hup]
    split
    · next h => rw [h.1, h.2, hup]
    · rfl
  | true =>
    obtain ⟨tr, h⟩ := State.linkDownEnd_up s stack hup
    rw [h, State.linkUp_arbSync _ _ _ _ (by omega) he, State.linkUp_withTrellis, State.linkUp_genEvent,
      State.linkUp_setLink _ _ _ _ _ _ he]

theorem State.linkDown_mem : (s.linkDown stack d).mem = s.mem := by
  unfold State.linkDown
  dsimp only
  repeat' split
  all_goals simp only [State.linkDownEnd_mem, State.genEvent_mem]

/-- A link that goes down is down at both ends (R374). -/
theorem State.linkDown_ends (hd : d < 4) (hup : s.linkUp stack d = true) : (s.linkDown stack d).linkUp stack d = false ∧
    ∀ n, neighbourNode stack d = some n → n < 72 → (s.linkDown stack d).linkUp n ((d + 2) % 4) = false := by
  have hfirst : (s.linkDownEnd stack d).linkUp stack d = false := by
    rw [State.linkUp_linkDownEnd _ _ _ hd hd, if_pos ⟨rfl, rfl⟩]
  have hfar : (d + 2) % 4 < 4 := Nat.mod_lt _ (by decide)
  unfold State.linkDown
  rw [hup, if_neg (by decide)]
  dsimp only
  cases hnode : neighbourNode stack d with
  | none => exact ⟨hfirst, fun n hn => nomatch hn⟩
  | some n =>
    simp only [Option.some.injEq]
    split
    · rw [State.linkUp_linkDownEnd _ _ _ hfar hd, hfirst, ite_self]
      refine ⟨rfl, fun m hm _ => ?_⟩
      rw [← hm, State.linkUp_linkDownEnd _ _ _ hfar hfar, if_pos ⟨rfl, rfl⟩]
    · next hdie => exact ⟨(State.linkUp_genEvent ..).trans hfirst, fun m hm hhub => absurd (hm ▸ hhub) hdie⟩

end

/-- The replays of a link within 1 ms, with the one that is made now (R367). -/
def State.replaysNow (s : State) (key : Nat) : List Nat :=
  ((s.trellis.replays.get [] key).filter fun t => decide (s.panelTime.toNat < t + 1000000)) ++ [s.panelTime.toNat]

section
variable {s : State} {stack d : Nat} (hs : stack < 72) (hd : d < 4)
include hs hd

theorem exec_trellisLinkDown : exec (.trellisLinkDown stack d) s = .next (s.linkDown stack d) :=
  congrArg Host.Outcome.next (if_pos ⟨hs, hd⟩)

/-- A flit whose CRC fails is replayed and counted, where fewer than 256 were replayed before it (R367). -/
theorem exec_flitReceive_replays (hup : s.linkUp stack d = true)
    (hfew : (s.trellis.replays.get [] (stack * 4 + d)).length < 256) :
    exec (.flitReceive stack d false) s = .next ((s.bump (Page.router stack) 5).withTrellis
      { s.trellis with replays := s.trellis.replays.set (stack * 4 + d) (s.replaysNow (stack * 4 + d)) }) := by
  have hkept := List.length_filter_le (fun t => decide (s.panelTime.toNat < t + 1000000))
    (s.trellis.replays.get [] (stack * 4 + d))
  refine congrArg Host.Outcome.next ((if_neg ?_).trans (if_neg (by omega)))
  simp [hup, hs, hd]

end

/-! Packets that a hub injects (R371, R372). -/

section
variable {s : State} {node o : Nat}

/-- A packet waits at an output whose link is up. -/
theorem State.enqueue_waits (requester : Nat) (t : Transit) (hup : s.linkUp node o = true) :
    s.enqueue node o requester t = (s.setArb (Page.router node) o (s.arb (Page.router node) o ++
      [{ req := ⟨requester, t.pkt.part, .packet, 32 + t.pkt.bytes⟩, transit := some t }])).arbSync (Page.router node) o := by
  rw [State.enqueue, hup, if_neg (by simp)]

/-- A hub's packet goes to the output that the routing table names for its destination (R372). -/
theorem State.inject_hub (requester : Nat) (p : TrellisPkt) (waited : Option Nat) (hn : node < 72)
    (hroute : s.routeOf node p.dst = some o) : s.inject node requester p waited =
      (s.bumpUnits (Page.router node) 1 1 1024).enqueue node o requester { pkt := p, injected := true, waited := waited } := by
  simp only [State.inject, hroute, if_pos hn]

/-- The packet as a node's router takes it from its source (R369, R370). -/
def injectedPkt (p : TrellisPkt) (node : Nat) : TrellisPkt :=
  { p with src := node, cls := p.cls % 6, part := p.part % 64, bytes := min p.bytes 1024 }

/-- A router that works and does not hold injection injects a packet of its hub at once (R371, R373), whose requester stands
behind the router's four inputs (log row 43). -/
theorem exec_packetRoute_injects (src requester : Nat) (p : TrellisPkt) (hn : node < 72) (halive : s.routerAlive node = true)
    (hopen : s.fld (Page.router node) Reg.ROUTER_CTL 0 0 = 0) : exec (.packetRoute node src requester (some p)) s =
      .next ((s.withTrellis { s.trellis with results := [] }).inject node (4 + requester) (injectedPkt p node) none) := by
  have hbit : bit (s.reg (Page.router node) Reg.ROUTER_CTL) 0 = false := by
    rwa [State.fld, bits_single, Bool.toNat_eq_zero] at hopen
  refine congrArg Host.Outcome.next ((if_neg (by omega)).trans ((if_neg ?_).trans (if_neg ?_)))
  · exact fun h => absurd (halive.symm.trans h.2) (by decide)
  · exact fun h => absurd (hbit.symm.trans h.2) (by decide)

end

/-! INJECT_HOLD (R373, R374). -/

section
variable (s : State) (stack : Nat)

theorem routerCtlEff_set : routerCtlEff stack 1 s = s.setFld (Page.router stack) Reg.ROUTER_CTL 0 0 1 := if_pos (by decide)

variable {s stack} (hheld : ∀ h ∈ s.trellis.held, h.1 ≠ stack) (hwaits : ∀ w ∈ s.trellis.waits, w.1 ≠ stack)
include hheld hwaits

/-- Where nothing is held at a router, its hold clears at once. -/
theorem State.holdClear_idle : s.holdClear stack = s.setFld (Page.router stack) Reg.ROUTER_CTL 0 0 0 := by
  have hnone {α : Type} (l : List (Nat × α)) (h : ∀ x ∈ l, x.1 ≠ stack) :
      l.filter (fun x => decide (x.1 = stack)) = [] := List.filter_eq_nil_iff.mpr fun x hx => by simpa using h x hx
  have hall {α : Type} (l : List (Nat × α)) (h : ∀ x ∈ l, x.1 ≠ stack) :
      l.filter (fun x => !decide (x.1 = stack)) = l := List.filter_eq_self.mpr fun x hx => by simpa using h x hx
  simp only [State.holdClear, State.setFld_trellis, hnone _ hheld, hnone _ hwaits, hall _ hheld, hall _ hwaits, List.foldl_nil]
  rfl

/-- A write that clears INJECT_HOLD of an idle router leaves it clear. -/
theorem routerCtlEff_clear : (routerCtlEff stack 0 s).fld (Page.router stack) Reg.ROUTER_CTL 0 0 = 0 ∧
    (routerCtlEff stack 0 s).mem = s.mem := by
  rw [routerCtlEff, if_neg (by decide)]
  split
  · rw [State.holdClear_idle hheld hwaits]
    exact ⟨State.fld_setFld_same _ _ _ _ (by decide), rfl⟩
  · next hclear => exact ⟨by rw [State.fld, bits_single, Bool.eq_false_iff.mpr hclear]; rfl, rfl⟩

end

/-! Rebuilding the routing tables (R373). -/

/-- Sets or clears INJECT_HOLD of a router. -/
def State.setHold (n : Nat) (s : State) (stack : Nat) : State := s.setFld (Page.router stack) Reg.ROUTER_CTL 0 0 n

/-- Sets or clears INJECT_HOLD of the routers of a list. -/
def State.setHolds (l : List Nat) (n : Nat) (s : State) : State := l.foldl (State.setHold n) s

section
variable (l : List Nat) (n : Nat) (s : State)

/-- Registers at other places of their pages than ROUTER_CTL are as before. -/
theorem State.reg_setHolds {page off : Nat} (h : off / 8 % 512 ≠ 32) : (State.setHolds l n s).reg page off = s.reg page off :=
  foldl_keeps (step := State.setHold n) (State.reg · page off) (fun s c => State.reg_setFld_other _ _ _ _ _ _ _ _
    (by simp only [regKey, Reg.ROUTER_CTL]; omega)) s

@[simp] theorem State.setHolds_trellis : (State.setHolds l n s).trellis = s.trellis :=
  foldl_keeps (step := State.setHold n) State.trellis (fun _ _ => rfl) s

@[simp] theorem State.setHolds_mem : (State.setHolds l n s).mem = s.mem :=
  foldl_keeps (step := State.setHold n) State.mem (fun _ _ => rfl) s

@[simp] theorem State.setHolds_binds : (State.setHolds l n s).binds = s.binds :=
  foldl_keeps (step := State.setHold n) State.binds (fun _ _ => rfl) s

/-- Each router of the list has its hold. -/
theorem State.fld_setHolds {st : Nat} (h : st ∈ l ∨ s.fld (Page.router st) Reg.ROUTER_CTL 0 0 = n % 2) :
    (State.setHolds l n s).fld (Page.router st) Reg.ROUTER_CTL 0 0 = n % 2 := by
  induction l generalizing s with
  | nil => exact h.resolve_left List.not_mem_nil
  | cons x l ih =>
    refine ih _ ?_
    by_cases hx : st = x
    · exact .inr (hx ▸ State.fld_setFld_same _ _ _ n (by decide))
    · rw [State.setHold, State.fld_setFld_key _ _ _ _ _ _ _ _
        (regKey_ne_of_page (by simp only [Page.router, Page.hub]; omega) (by decide) (by decide))]
      exact h.imp_left fun hm => (List.mem_cons.mp hm).resolve_left hx

/-- Clearing the holds of routers at which nothing waits. -/
theorem State.foldl_holdClear (hheld : s.trellis.held = []) (hwaits : s.trellis.waits = []) :
    l.foldl (fun s st => s.holdClear st) s = State.setHolds l 0 s := by
  induction l generalizing s with
  | nil => rfl
  | cons x l ih =>
    rw [List.foldl_cons, State.holdClear_idle (by simp [hheld]) (by simp [hwaits])]
    exact ih _ hheld hwaits

end

theorem State.holdAll_eq (s : State) : s.holdAll = State.setHolds (List.range 72) 1 s := rfl

/-- One entry of the routing table of a hub's router (Table 12-2). -/
theorem State.writeRoute_hub (s : State) {node dst : Nat} (v : Nat) (hn : node < 72) (hd : dst < 80) :
    s.writeRoute (node, dst, v) =
      s.setReg (Page.router node) (Reg.ROUTE + 8 * dst) (place 7 7 (natBits v 7 7) ||| place 2 0 (natBits v 2 0)) :=
  (if_neg (Nat.not_le.mpr hd)).trans (if_pos hn)

section
variable {s : State}

/-- With nothing between two nodes and nothing in a router, holding injection finds every router drained. -/
theorem State.trellisDrained_holdAll (hflight : s.trellis.flight = [])
    (hstat : ∀ st, st < 72 → s.fld (Page.router st) Reg.ROUTER_STAT 15 0 = 0) : s.holdAll.trellisDrained = true := by
  rw [State.holdAll_eq, State.trellisDrained, State.setHolds_trellis, hflight, List.isEmpty_nil, Bool.true_and, List.all_eq_true]
  intro st hst
  rw [decide_eq_true_eq, State.fld, State.reg_setHolds _ _ _ (by decide)]
  exact hstat st (List.mem_range.mp hst)

/-- A rebuild holds injection and, in a drained trellis, writes the tables and clears the holds (R373). -/
theorem State.rebuildRoutes_eq (tables : List (Nat × Nat × Nat)) : s.rebuildRoutes tables =
    if s.holdAll.trellisDrained then (List.range 72).foldl (fun s st => s.holdClear st) (tables.foldl State.writeRoute s.holdAll)
    else s.holdAll :=
  rfl

/-- A rebuild of a drained trellis for which no binding waits is over (R373, R577). -/
theorem exec_routeRebuild_unbound {tables : List (Nat × Nat × Nat)} {u : State} (hdrained : s.holdAll.trellisDrained = true)
    (hrebuild : s.rebuildRoutes tables = u) (hbinds : u.binds = []) : exec (.routeRebuild tables) s = .next u := by
  change execRouteRebuild _ _ = _
  simp only [execRouteRebuild, hdrained, hrebuild, hbinds, if_true, List.foldl_nil]
  rw [← hbinds]

/-- A rebuild of a drained trellis in which nothing waits writes its tables and clears every hold. -/
theorem exec_routeRebuild_drained {tables : List (Nat × Nat × Nat)} {u : State} (hdrained : s.holdAll.trellisDrained = true)
    (hu : tables.foldl State.writeRoute s.holdAll = u) (hheld : u.trellis.held = []) (hwaits : u.trellis.waits = [])
    (hbinds : u.binds = []) : exec (.routeRebuild tables) s = .next (State.setHolds (List.range 72) 0 u) := by
  refine exec_routeRebuild_unbound hdrained ?_ ((State.setHolds_binds ..).trans hbinds)
  rw [State.rebuildRoutes_eq, if_pos hdrained, hu, State.foldl_holdClear _ _ hheld hwaits]

end

/-- A router that fails is that of the hub that the command names (R375). -/
theorem exec_routerLoss_fails {s : State} {p : Nat} (hp : p < 72) (hready : s.pageState (Page.router p) = PS.ready) :
    exec (.routerLoss p false) s = .next ((s.enterState (Page.router p) PS.faulted).hubFail p false) := by
  change execRouterLoss _ _ _ = _
  simp only [execRouterLoss, Nat.mod_eq_of_lt hp, hready]
  rfl

/-- Settles O35: each event of the trellis meets its conditions, so that it takes effect. -/
theorem trellisCompletes : Obligations.TrellisCompletes := by
  refine ⟨?_, ?_, ?_, ?_, ?_, ?_, ?_⟩
  · intro s stack d hs hd hup hfew
    refine ⟨_, exec_flitReceive_replays hs hd hup hfew, ?_, State.reg_bump_same .., ?_, rfl⟩
    · rw [State.withTrellis_trellis, Map.get_set_same]
      exact List.mem_append_right _ (List.mem_singleton_self _)
    · exact (State.linkUp_of_reg d (State.reg_bump_other _ _ _ _ (routerStat_ne stack _ (by decide)))).trans hup
  · intro s stack d hs hd hup
    obtain ⟨hnear, hfar⟩ := s.linkDown_ends stack hd hup
    exact ⟨_, exec_trellisLinkDown hs hd, hnear, s.linkDown_mem stack, hfar⟩
  · intro s node src requester o p q hn halive hopen hroute ho hup hq
    have hexec := exec_packetRoute_injects src requester p hn halive hopen
    have hinject := State.inject_hub (s := s.withTrellis { s.trellis with results := [] }) (4 + requester) (injectedPkt p node)
      none hn hroute
    rw [hinject, State.enqueue_waits] at hexec
    · refine ⟨_, hexec, ?_, State.arbSync_mem ..⟩
      rw [State.arb_arbSync, State.arb_setArb, hq]
      rfl
    · exact (State.linkUp_of_reg o (State.reg_bumpUnits_other _ _ _ _ _ (routerStat_ne node _ (by decide)))).trans hup
  · intro s i stack hs hadm
    obtain ⟨l, w, hwrite⟩ := State.writeVia_effect (routerCtlEff stack 1) hadm
    rw [routerCtlEff_set] at hwrite
    exact ⟨_, congrArg Host.Outcome.next ((if_pos hs).trans hwrite), State.fld_setFld_same _ _ _ _ (by decide), rfl, rfl⟩
  · intro s i stack hs hadm hheld hwaits
    obtain ⟨l, w, hwrite⟩ := State.writeVia_effect (routerCtlEff stack 0) hadm
    obtain ⟨hclear, hmem⟩ := routerCtlEff_clear (s := { s with lockAt := l, written := w }) hheld hwaits
    exact ⟨_, congrArg Host.Outcome.next ((if_pos hs).trans hwrite), hclear, hmem⟩
  · intro s n d v hn hd hflight hheld hwaits hbinds hstat
    have hwrite : [(n, d, v)].foldl State.writeRoute s.holdAll = _ := s.holdAll.writeRoute_hub v hn hd
    have htrellis : s.holdAll.trellis = s.trellis := by rw [State.holdAll_eq, State.setHolds_trellis]
    have hexec := exec_routeRebuild_drained (State.trellisDrained_holdAll hflight hstat) hwrite
      (by rw [State.setReg_trellis, htrellis, hheld]) (by rw [State.setReg_trellis, htrellis, hwaits])
      (by rw [State.setReg_binds, State.holdAll_eq, State.setHolds_binds, hbinds])
    refine ⟨_, hexec, ?_, fun st hst => State.fld_setHolds _ 0 _ (.inl (List.mem_range.mpr hst)), ?_⟩
    · rw [State.reg_setHolds _ _ _ (by simp only [Reg.ROUTE]; omega), State.reg_setReg_same]
    · rw [State.setHolds_mem, State.setReg_mem, State.holdAll_eq, State.setHolds_mem]
  · intro s p hp hready
    exact exec_routerLoss_fails hp hready

end Sys2Proof.Machine

/-!
Arbitration (O36): one request at the arbiter of a GDDR controller, starvation, shares and priorities (R379 to R388).
-/
namespace Sys2Proof.Machine

/-! The arbiter of a GDDR controller and its regulators (Tables 9-18, 12-3). -/

section
variable {st g : Nat} (hst : st < 72) (hg : g < 6)
include hst hg

theorem pageKind_gddr : pageKind (Page.gddr st g) = some .gddrCtl := by
  rw [pageKind_hub hst (by omega), hubPageKind, if_neg (by omega), if_neg (by omega), if_neg (by omega), if_pos (by omega)]

theorem arbCount_gddr : arbCount (Page.gddr st g) = 1 := by rw [arbCount, pageKind_gddr hst hg]

/-- Point g of the stack's REGULATOR page governs the arbiter of controller g. -/
theorem arbPoint_gddr : arbPoint (Page.gddr st g) 0 = some (Page.regulator st, g) := by
  have hpoint : Page.gddr st g % 0x40 - 3 = g := by simp only [Page.gddr, Page.hub]; omega
  simp only [arbPoint, pageKind_gddr hst hg, pageStack_hub hst (show 3 + g < 0x40 by omega), hpoint]

/-- A line fill is a request of a GDDR controller, and its regulator checks and charges its bytes (R297). -/
theorem State.arbGovern_fill (s : State) {e : ArbEntry} (htransit : e.transit = none) (hkind : e.req.kind = .fill) :
    s.arbGovern (Page.gddr st g) 0 e = some (Page.regulator st, g, e.req.size) := by
  simp only [State.arbGovern, arbPoint_gddr hst hg, htransit, hkind, reduceCtorEq, if_false]

theorem arbTakes_fill {r : ArbReq} (hkind : r.kind = .fill) : arbTakes (Page.gddr st g) r = true := by
  simp only [arbTakes, pageKind_gddr hst hg, hkind]

end

theorem pageKind_regulator {st : Nat} (hst : st < 72) : pageKind (Page.regulator st) = some .regulator :=
  pageKind_hub hst (by decide)

/-! The parts of an arbitration at which one request stands (R379, R385). -/

section
variable {s : State} {page o rp pt n : Nat} {e : ArbEntry}

/-- A request in budget stands highest (R379). -/
theorem State.arbStanding_inBudget (hgovern : s.arbGovern page o e = some (rp, pt, n))
    (hbudget : (s.bucket rp pt e.req.part).inBudget n = true) : s.arbStanding page o e = 2 := by
  simp only [State.arbStanding, hgovern, hbudget, if_true]

/-- A request in budget is presented (R298). -/
theorem State.arbPresent_inBudget (hgovern : s.arbGovern page o e = some (rp, pt, n))
    (hbudget : (s.bucket rp pt e.req.part).inBudget n = true) : s.arbPresent page o e = (some e, s) := by
  simp only [State.arbPresent, hgovern, hbudget, if_true, ite_self]

theorem State.arbPresents_lone (hlone : s.arb page o = [e]) (hpresent : s.arbPresent page o e = (some e, s)) :
    s.arbPresents page o = s.setArb page o [e] := by
  simp only [State.arbPresents, hlone, List.foldl_cons, List.foldl_nil, hpresent, Option.toList_some, List.nil_append]

/-- The only request wins, unless it is over budget without BORROW (R379). -/
theorem State.arbWinner_lone (hlone : s.arb page o = [e]) (hstanding : s.arbStanding page o e ≠ 0) :
    s.arbWinner page o = some (0, e) := by
  have hcandidates : s.arbCandidates page o = [(0, e)] := by simp [State.arbCandidates, hlone, hstanding]
  simp only [State.arbWinner, hcandidates, List.foldl_cons, List.foldl_nil]

/-- A grant that fits is the only one of a data phase with room for one (R378). -/
theorem arbGrants_one (hwinner : s.arbWinner page o = some (0, e)) : arbGrants page o 1 e.wire s = s.arbGrant page o 0 e := by
  simp only [arbGrants, hwinner, lt_irrefl, if_false]

/-- A grant in budget charges the request's bytes (R298). -/
theorem State.arbCharge_inBudget (hgovern : s.arbGovern page o e = some (rp, pt, n))
    (hbudget : (s.bucket rp pt e.req.part).inBudget n = true) :
    s.arbCharge page o e = s.setBucket rp pt e.req.part ((s.bucket rp pt e.req.part).charge n) := by
  simp only [State.arbCharge, hgovern, State.regulate, hbudget, if_true]

/-- A first grant of a request that is no packet is OK (R385). -/
theorem State.arbGrant_immediate (i : Nat) (htransit : e.transit = none) (hfirst : e.tried = false) :
    s.arbGrant page o i e = (s.arbCharge page o e).withTrellis { (s.arbCharge page o e).trellis with
      entries := (s.arbCharge page o e).trellis.entries.set (arbKey page o) ((s.arb page o).eraseIdx i)
      rotate := (s.arbCharge page o e).trellis.rotate.set (arbKey page o) (e.req.requester + 1)
      results := (s.arbCharge page o e).trellis.results ++ [(e.req.requester, St.ok, 0)] } := by
  simp only [State.arbGrant, State.arbLeave, htransit, hfirst, Option.isSome_none, Bool.or_false, Bool.false_eq_true, if_false]
  rfl

end

/-! One arbitration of a page other than a router's. -/

/-- What has been presented when the data phase is granted: the requests that wait and the new ones that their regulators let
through (R379, R385). -/
def State.presented (s : State) (page o cycles : Nat) (reqs : List ArbReq) : State :=
  let aged := (s.withTrellis { s.trellis with results := [] }).arbAge page o cycles
  (aged.setArb page o (aged.arb page o ++ (reqs.filter (arbTakes page)).map fun r => { req := r })).arbPresents page o

/-- What follows the grants of a data phase (R381 to R388). -/
def State.concluded (s : State) (page o : Nat) : State :=
  (((State.arbLosers page o [] (s.arb page o) s).arbForget page o).arbStarve page o).arbSync page o

section
variable {s : State} {page o : Nat}

/-- One request is granted at a page other than a router's (R378, Table 12-3). -/
theorem State.arbitrate_grants (cycles : Nat) (reqs : List ArbReq) (hpage : pageKind page ≠ some .hubRouter) :
    s.arbitrate page o cycles reqs = (arbGrants page o 1
      (((s.presented page o cycles reqs).arb page o).foldl (fun a e => max a e.wire) 0)
      (s.presented page o cycles reqs)).concluded page o := by
  simp only [State.arbitrate, if_neg hpage]
  rfl

/-- A request that comes to an empty arbiter stands there alone. -/
theorem State.presented_lone {r : ArbReq} (cycles : Nat) (hempty : s.arb page o = []) (htakes : arbTakes page r = true)
    (hpresent : ∀ tr, (s.withTrellis tr).arbPresent page o { req := r } = (some { req := r }, s.withTrellis tr)) :
    ∃ tr, s.presented page o cycles [r] = s.withTrellis tr ∧ (s.withTrellis tr).arb page o = [{ req := r }] ∧
      tr.results = [] := by
  have haged : (s.withTrellis { s.trellis with results := [] }).arbAge page o cycles =
      (s.withTrellis { s.trellis with results := [] }).setArb page o [] := by
    have hsame : (s.withTrellis { s.trellis with results := [] }).arb page o = [] := hempty
    rw [State.arbAge, hsame, List.map_nil]
  have hnew : s.presented page o cycles [r] = (((s.withTrellis { s.trellis with results := [] }).setArb page o []).setArb page o
      [{ req := r }]).arbPresents page o := by
    simp only [State.presented, haged, State.arb_setArb, List.nil_append, List.filter_cons, htakes, if_true, List.filter_nil,
      List.map_cons, List.map_nil]
  have hpresented := State.arbPresents_lone (State.arb_setArb ((s.withTrellis { s.trellis with results := [] }).setArb page o [])
    page o [{ req := r }]) (by simp only [State.setArb_eq, State.withTrellis_withTrellis, hpresent])
  simp only [State.setArb_eq, State.withTrellis_withTrellis] at hnew hpresented
  exact ⟨_, hnew.trans hpresented, Map.get_set_same .., rfl⟩

/-- An arbitration ends old priorities only (R381). -/
theorem State.arbForget_eq (s : State) (page o : Nat) :
    ∃ p, s.arbForget page o = s.withTrellis { s.trellis with oldPrio := p } := by
  unfold State.arbForget
  split
  · exact ⟨s.trellis.oldPrio, rfl⟩
  · exact ⟨_, rfl⟩

/-- Nothing starves at an empty arbiter. -/
theorem State.arbStarve_empty (hempty : s.arb page o = []) : s.arbStarve page o = s.setArb page o [] := by
  rw [State.arbStarve, hempty, List.foldl_nil]

/-- Where the grants leave no request, what follows them changes registers and old priorities only. -/
theorem State.concluded_empty (hempty : s.arb page o = []) : (s.concluded page o).arb page o = [] ∧
    (s.concluded page o).trellis.results = s.trellis.results ∧ (s.concluded page o).buckets = s.buckets ∧
    (s.concluded page o).mem = s.mem := by
  obtain ⟨p, hp⟩ := State.arbForget_eq (s.setArb page o []) page o
  have hnone : ((s.setArb page o []).withTrellis { (s.setArb page o []).trellis with oldPrio := p }).arb page o = [] :=
    State.arb_setArb s page o []
  rw [State.concluded, hempty, State.arbLosers, hp, State.arbStarve_empty hnone]
  refine ⟨by rw [State.arb_arbSync, State.arb_setArb], ?_⟩
  simp only [State.arbSync_trellis, State.arbSync_buckets, State.arbSync_mem, State.setArb_eq, State.withTrellis_withTrellis,
    State.withTrellis_trellis, State.withTrellis_buckets, State.withTrellis_mem, and_self]

end

/-- A line fill in budget that comes alone to a GDDR controller is granted at once and charged (R379, R385). -/
theorem State.arbitrate_fill {s : State} {st g : Nat} {r : ArbReq} (cycles : Nat) (hst : st < 72) (hg : g < 6)
    (hempty : s.arb (Page.gddr st g) 0 = []) (hkind : r.kind = .fill)
    (hbudget : (s.bucket (Page.regulator st) g r.part).inBudget r.size = true) : ∃ tr,
      s.arbitrate (Page.gddr st g) 0 cycles [r] = State.concluded ((s.setBucket (Page.regulator st) g r.part
        ((s.bucket (Page.regulator st) g r.part).charge r.size)).withTrellis tr) (Page.gddr st g) 0 ∧
      tr.entries.get [] (arbKey (Page.gddr st g) 0) = [] ∧ tr.results = [(r.requester, St.ok, 0)] := by
  have hgovern (u : State) := State.arbGovern_fill hst hg u (e := { req := r }) rfl hkind
  obtain ⟨tr, hpresented, hlone, hresults⟩ := State.presented_lone cycles hempty (arbTakes_fill hst hg hkind)
    fun tr => State.arbPresent_inBudget (hgovern _) hbudget
  have hstanding := State.arbStanding_inBudget (s := s.withTrellis tr) (hgovern _) hbudget
  have hwinner := State.arbWinner_lone hlone (by rw [hstanding]; decide)
  have hcharge := State.arbCharge_inBudget (s := s.withTrellis tr) (hgovern _) hbudget
  have hpage : pageKind (Page.gddr st g) ≠ some .hubRouter := by rw [pageKind_gddr hst hg]; decide
  have hcap : [({ req := r } : ArbEntry)].foldl (fun a e => max a e.wire) 0 = ArbEntry.wire { req := r } := Nat.zero_max _
  rw [State.arbitrate_grants cycles [r] hpage, hpresented, hlone, hcap, arbGrants_one hwinner,
    State.arbGrant_immediate 0 rfl rfl, hcharge, hlone]
  refine ⟨_, rfl, Map.get_set_same .., ?_⟩
  exact congrArg (· ++ [(r.requester, St.ok, 0)]) hresults

/-! Starvation (R388). -/

/-- The state in which an arbiter's registers name a request past STARVE_LIMIT as its starving one, where none is named yet
(Table 12-13). -/
def State.starveMarked (s : State) (page o : Nat) (e : ArbEntry) : State :=
  let stat := s.reg page (arbOff o + 0x10)
  let named := if bit stat 63 then s else s.setReg page (arbOff o + 0x18) (place 21 16 e.req.part ||| place 2 0 e.cls)
  named.setReg page (arbOff o + 0x10) (setBit stat 63 true)

section
variable (s : State) (page o : Nat)

/-- Naming a starving request changes registers and nothing else. -/
theorem State.starveMarked_eq (e : ArbEntry) : ∃ r, s.starveMarked page o e = { s with regs := r } := by
  unfold State.starveMarked
  dsimp only
  split <;> exact ⟨_, rfl⟩

@[simp] theorem State.starveMarked_mem (e : ArbEntry) : (s.starveMarked page o e).mem = s.mem := by
  obtain ⟨r, h⟩ := s.starveMarked_eq page o e
  rw [h]

@[simp] theorem State.starveMarked_events (e : ArbEntry) : (s.starveMarked page o e).events = s.events := by
  obtain ⟨r, h⟩ := s.starveMarked_eq page o e
  rw [h]

/-- Naming a starving request leaves EV_ENABLE alone. -/
theorem State.reg_starveMarked (e : ArbEntry) : (s.starveMarked page o e).reg page Reg.EV_ENABLE = s.reg page Reg.EV_ENABLE := by
  have hne (k : Nat) : regKey page Reg.EV_ENABLE ≠ regKey page (arbOff o + k) :=
    regKey_ne_of_offset (by simp only [Reg.EV_ENABLE, arbOff]; omega)
  unfold State.starveMarked
  dsimp only
  rw [State.reg_setReg_other _ _ _ _ _ _ (hne _)]
  split
  · rfl
  · exact State.reg_setReg_other _ _ _ _ _ _ (hne _)

/-- ARB_STAT of an arbiter that names a starving request says so. -/
theorem State.fld_starveMarked (e : ArbEntry) : (s.starveMarked page o e).fld page (arbOff o + 0x10) 63 63 = 1 := by
  rw [State.fld, State.starveMarked, State.reg_setReg_same]
  exact bits_setBits_same _ _ (by decide)

/-- Loading an arbiter's status leaves the bit that says that a request starves alone. -/
theorem State.fld_arbSync : (s.arbSync page o).fld page (arbOff o + 0x10) 63 63 = s.fld page (arbOff o + 0x10) 63 63 := by
  have hshare : regKey page (arbOff o + 0x10) ≠ regKey page (arbOff o + 8) :=
    regKey_ne_of_offset (by simp only [arbOff]; omega)
  have hstat : regKey page (arbOff o + 0x10) ≠ regKey page Reg.ROUTER_STAT :=
    regKey_ne_of_offset (by simp only [arbOff, Reg.ROUTER_STAT]; omega)
  unfold State.arbSync
  dsimp only
  split
  · rw [State.fld_setFld_key _ _ _ _ _ _ _ _ hstat, State.fld_setFld_key _ _ _ _ _ _ _ _ hshare,
      State.fld_setFld_other _ _ _ _ (by decide) (by decide), State.fld_setFld_other _ _ _ _ (by decide) (by decide)]
  · rw [State.fld_setFld_key _ _ _ _ _ _ _ _ hshare, State.fld_setFld_other _ _ _ _ (by decide) (by decide),
      State.fld_setFld_other _ _ _ _ (by decide) (by decide)]

end

/-- An entry that has met an arbitration, some HCLK cycles later. -/
def ArbEntry.aged (e : ArbEntry) (cycles : Nat) : ArbEntry := { e with age := e.age + cycles }

section
variable {s : State} {page o : Nat} {e : ArbEntry} (hlone : s.arb page o = [e]) (htried : e.tried = true)
include hlone htried

/-- An entry that has met an arbitration ages. -/
theorem State.arbAge_lone (cycles : Nat) : s.arbAge page o cycles = s.setArb page o [e.aged cycles] := by
  simp only [State.arbAge, hlone, List.map_cons, List.map_nil, if_pos htried, ArbEntry.aged]

/-- An entry past STARVE_LIMIT is marked and its event generated. -/
theorem State.arbStarve_lone (hposted : e.posted = false) (hlimit : s.fld page (arbOff o) 15 0 ≠ 0)
    (hlate : s.fld page (arbOff o) 15 0 * 64 < e.age) : ∃ payload, s.arbStarve page o =
      ((s.starveMarked page o e).genEvent page 0x0290 e.req.part payload).setArb page o [{ e with posted := true }] := by
  have hstarves : s.fld page (arbOff o) 15 0 * 64 ≠ 0 ∧ e.tried = true ∧ e.posted = false ∧
      s.fld page (arbOff o) 15 0 * 64 < e.age := ⟨Nat.mul_ne_zero hlimit (by decide), htried, hposted, hlate⟩
  refine ⟨place 5 0 e.req.part ||| place 10 8 e.cls ||| place 18 16 o ||| place 63 32 (e.age / 64), ?_⟩
  simp only [State.arbStarve, hlone, List.foldl_cons, List.foldl_nil, if_pos hstarves, List.nil_append]
  rfl

end

/-- An entry that is past STARVE_LIMIT once the cycles have passed is marked and posted, from a state in which its arbiter names
a starving request (R388). -/
theorem exec_arbStarved_posts {s : State} {page o cycles : Nat} {e : ArbEntry} (ho : o < arbCount page)
    (hlone : s.arb page o = [e]) (htried : e.tried = true) (hposted : e.posted = false)
    (hlimit : s.fld page (arbOff o) 15 0 ≠ 0) (hlate : s.fld page (arbOff o) 15 0 * 64 < e.age + cycles) :
    ∃ (r : State) (payload : Word),
      exec (.arbStarved page o cycles) s = .next (((r.genEvent page 0x0290 e.req.part payload).setArb page o
        [{ e with age := e.age + cycles, posted := true }]).arbSync page o) ∧
      r.fld page (arbOff o + 0x10) 63 63 = 1 ∧ r.events = s.events ∧ r.reg page Reg.EV_ENABLE = s.reg page Reg.EV_ENABLE ∧
      r.mem = s.mem := by
  obtain ⟨payload, hstarve⟩ := State.arbStarve_lone (State.arb_setArb s page o [e.aged cycles]) htried hposted hlimit hlate
  refine ⟨(s.setArb page o [e.aged cycles]).starveMarked page o (e.aged cycles), payload,
    congrArg Host.Outcome.next ((if_pos ho).trans ?_), State.fld_starveMarked .., State.starveMarked_events ..,
    State.reg_starveMarked .., State.starveMarked_mem ..⟩
  rw [State.arbAge_lone hlone htried, hstarve]
  rfl

/-! Shares and priorities (R381, R387). -/

/-- A write of ARB_SHARE with SET and a SHARE that is not reserved sets its partition's share (Table 12-11). -/
theorem arbShareEff_sets {page o : Nat} {v : Word} (s : State) (hset : bit v 31 = true) (hshare : bits v 5 0 ≤ 48) :
    ∃ x, arbShareEff page o v s = (s.withTrellis { s.trellis with
      shares := s.trellis.shares.set (arbKey page o * 64 + bits v 21 16) (bits v 5 0) }).setReg page (arbOff o + 8) x := by
  simp only [arbShareEff, if_pos (And.intro hset hshare)]
  exact ⟨_, rfl⟩

/-- The effect of a write of REG_DATA that comes too late for the next arbitration: the old priority governs that one (R381). -/
def prioLateEff (page : Nat) (v : Word) (s : State) : State :=
  (regDataEff page v s).withTrellis { (regDataEff page v s).trellis with
    oldPrio := (regDataEff page v s).trellis.oldPrio.set (bucketKey page (s.regSelected page).1 (s.regSelected page).2)
      (s.bucket page (s.regSelected page).1 (s.regSelected page).2).prio }

theorem exec_prioWrite_late {st : Nat} (s : State) (i : Ident) (v : Word) (hst : st < 72) :
    exec (.prioWrite i (Page.regulator st) v true) s =
      .next (s.writeVia i (Page.regulator st) 0x110 v (prioLateEff (Page.regulator st) v)) := by
  change execPrioWrite _ _ _ _ _ = _
  simp only [execPrioWrite, regIndexOff, pageKind_regulator hst]
  rfl

/-- Settles O36: each event of an arbiter meets its conditions, so that it takes effect. -/
theorem arbitersComplete : Obligations.ArbitersComplete := by
  refine ⟨?_, ?_, ?_, ?_⟩
  · intro s st g cycles r hst hg hempty hkind hbudget
    have ho : 0 < arbCount (Page.gddr st g) := by rw [arbCount_gddr hst hg]; decide
    obtain ⟨tr, harbitrate, hentries, hresults⟩ := State.arbitrate_fill cycles hst hg hempty hkind hbudget
    obtain ⟨harb, hres, hbuckets, hmem⟩ := State.concluded_empty (s := (s.setBucket (Page.regulator st) g r.part
      ((s.bucket (Page.regulator st) g r.part).charge r.size)).withTrellis tr) hentries
    refine ⟨_, congrArg Host.Outcome.next ((if_pos ho).trans harbitrate), hres.trans hresults, harb, ?_, hmem⟩
    rw [State.bucket, hbuckets]
    exact Map.get_set_same ..
  · intro s st g cycles e hst hg hlone htried hposted hlimit hlate
    have ho : 0 < arbCount (Page.gddr st g) := by rw [arbCount_gddr hst hg]; decide
    obtain ⟨r, payload, hexec, hstarving, hevents, henable, hmem⟩ :=
      exec_arbStarved_posts ho hlone htried hposted hlimit hlate
    refine ⟨_, hexec, by rw [State.arb_arbSync, State.arb_setArb], ?_, fun h => ?_, ?_⟩
    · have hkey : regKey (Page.gddr st g) (arbOff 0 + 0x10) ≠ regKey (Page.gddr st g) Reg.EV_STATUS :=
        regKey_ne_of_offset (by decide)
      rw [show (0x610 : Nat) = arbOff 0 + 0x10 from rfl, State.fld_arbSync, State.fld_setArb, State.fld,
        State.reg_genEvent_other _ _ _ _ _ hkey]
      exact hstarving
    · rw [State.arbSync_events]
      exact State.posts_genEvent _ _ hevents henable h
    · rw [State.arbSync_mem, State.setArb_mem, State.genEvent_mem, hmem]
  · intro s i st g v hst hg hadm hset hshare
    obtain ⟨l, w, hwrite⟩ := State.writeVia_effect (arbShareEff (Page.gddr st g) 0 v) hadm
    obtain ⟨r, hr⟩ := arbShareEff_sets (page := Page.gddr st g) (o := 0) { s with lockAt := l, written := w } hset hshare
    have ho : 0 < arbCount (Page.gddr st g) := by rw [arbCount_gddr hst hg]; decide
    refine ⟨_, congrArg Host.Outcome.next ((if_pos ho).trans (hwrite.trans hr)), Map.get_set_same ..,
      fun p hp hne => Map.get_set_other _ _ _ _ _ (by omega), rfl⟩
  · intro s i st point part v hst hadm hselected
    obtain ⟨l, w, hwrite⟩ := State.writeVia_effect (prioLateEff (Page.regulator st) v) hadm
    have hselected' : ({ s with lockAt := l, written := w } : State).regSelected (Page.regulator st) = (point, part) := hselected
    refine ⟨_, (exec_prioWrite_late s i v hst).trans (congrArg Host.Outcome.next hwrite), ?_, ?_, rfl⟩
    · rw [prioLateEff, regDataEff, hselected']
      exact congrArg Bucket.prio (Map.get_set_same ..)
    · rw [prioLateEff, hselected']
      exact Map.get_set_same ..

end Sys2Proof.Machine

/-!
Host groups (O41): the packets of a group's members are received in order, and each is executed as its type says.
-/
namespace Sys2Proof.Machine

/-! Received packets (R454, R462, R468). -/

section
variable (s : State) {f n : Nat}

/-- The count of received bytes is the only register that a packet's arrival changes (Table 15-19). -/
theorem State.reg_received {p o : Nat} (h : regKey p o ≠ regKey (Page.fabricPort f) (Reg.CNT + 8)) :
    (s.bumpUnits (Page.fabricPort f) 1 n 1024).reg p o = s.reg p o :=
  State.reg_bumpUnits_other _ _ _ _ _ h

theorem State.groupPort_received : (s.bumpUnits (Page.fabricPort f) 1 n 1024).groupPort f = s.groupPort f := by
  unfold State.groupPort State.fld
  rw [State.reg_received _ (regKey_ne_of_offset (by decide))]

theorem State.vcOwner_received (vc : Nat) : (s.bumpUnits (Page.fabricPort f) 1 n 1024).vcOwner f vc = s.vcOwner f vc := by
  unfold State.vcOwner State.fld
  simp only [State.reg_received s (regKey_ne_of_offset (show 0x110 / 8 ≠ (Reg.CNT + 8) / 8 by decide))]

/-- The registers of P0's PORT_DIE page are on no port's page. -/
theorem State.reg_portDie_received {o : Nat} (ho : o < 4096) :
    (s.bumpUnits (Page.fabricPort f) 1 n 1024).reg (Page.portDie 0) o = s.reg (Page.portDie 0) o :=
  State.reg_received _ (regKey_ne_of_page (by simp only [Page.portDie, Page.fabricPort]; omega) ho (by decide))

theorem State.moduleId_received : (s.bumpUnits (Page.fabricPort f) 1 n 1024).moduleId = s.moduleId := by
  unfold State.moduleId State.fld
  rw [State.reg_portDie_received _ (by decide)]

theorem State.groupMember_received {m : Nat} (hm : m < 64) :
    (s.bumpUnits (Page.fabricPort f) 1 n 1024).groupMember m = s.groupMember m := by
  have hoff : 0x200 + 8 * (m / 4) < 4096 := by omega
  unfold State.groupMember State.fld
  dsimp only
  rw [State.reg_portDie_received s hoff]

theorem State.memberOf_received (module : Nat) :
    (s.bumpUnits (Page.fabricPort f) 1 n 1024).memberOf module = s.memberOf module :=
  List.find?_congr fun _ hm => by rw [State.groupMember_received s (List.mem_range.mp hm)]

end

/-- An accepted packet that is the next of its channel is executed, and acknowledged once that is done (R462). -/
theorem State.receive_done {s r u : State} {f : Nat} {p : Packet} {run : State → Handled} (h : InOrder s f p r)
    (hrun : run r = .done u) : s.receive f p true run = u.acknowledge f p := by
  obtain ⟨⟨hf, hup, hdst, howns, hgroup, rfl⟩, hseq⟩ := h
  have hhome : p.dst = (s.bumpUnits (Page.fabricPort f) 1 (48 + p.payload.length) 1024).moduleId := by
    rw [State.moduleId_received, hdst]
  have howned : (s.bumpUnits (Page.fabricPort f) 1 (48 + p.payload.length) 1024).ownsVc f p = true := by
    rw [← howns, State.ownsVc, State.vcOwner_received, State.ownsVc]
  have hmember : ¬ (p.vc = 1 ∧ (!(s.groupPort f && (!true || (s.memberOf p.src).isSome))) = true) := by
    rintro ⟨hvc, hnot⟩
    obtain ⟨hport, hsome⟩ := hgroup hvc
    simp [hport, hsome] at hnot
  unfold State.receive
  rw [if_neg (by simp [hup])]
  simp only [← hhome, decide_true, State.groupPort_received, State.memberOf_received, howned]
  rw [if_neg hmember, if_neg (by decide), if_neg (by decide), if_pos trivial, State.inChannel, if_pos (.inl hseq), hrun]
  rfl

theorem mod_of_inOrder {s r : State} {f : Nat} {p : Packet} (h : InOrder s f p r) : f % 32 = f := by
  obtain ⟨⟨hf, -⟩, -⟩ := h
  exact Nat.mod_eq_of_lt hf

/-- The answer of a command whose packet is received in order. -/
theorem next_receive_done {s r u : State} {f : Nat} {p : Packet} {run : State → Handled} (h : InOrder s f p r)
    (hrun : run r = .done u) : (.next (s.receive (f % 32) p true run) : Out) = .next (u.acknowledge f p) := by
  rw [mod_of_inOrder h, State.receive_done h hrun]

/-- A group packet goes out on a group-forward port that is UP (R468). -/
theorem State.sendGroup_up {s : State} {f : Nat} (p : Packet) (owner : Owner) (hup : s.portUp f = true)
    (hport : s.groupPort f = true) :
    s.sendGroup f p owner = (St.ok, s.sendOn (chanKey p.dst 1 (some f)) f { p with vc := 1 } owner) := by
  rw [State.sendGroup, hup, hport]
  rfl

/-! Formation (R466, R467). -/

/-- The hellos of a formation under way: the sender's answer is noted, with this module's own (R467). -/
theorem exec_groupHello_notes {s r : State} {f m me : Nat} {p q : Packet} (hq : q = typed p 0x16 (some 0)) (h : InOrder s f q r)
    (hsrc : r.memberOf q.src = some m) (hme : r.memberOf r.moduleId = some me) (hforming : r.group.forming = true) :
    exec (.groupHello f p) s = .next ((({ r with group := { r.group with
      heard := (r.group.heard.set m (q.aux % 4)).set me r.helloBits } } : State).groupLimit.groupCheck false).acknowledge f q) := by
  subst hq
  refine next_receive_done h ?_
  simp only [hsrc, hme, hforming, Bool.not_true, Bool.false_and, Bool.false_eq_true, if_false, Option.getD_some]

/-- A command that a full ring has refused is sent again on the port of its member (R469). -/
theorem exec_groupCmdResend_sends {s : State} {k seq port : Nat} {c : Cmd} {p : Packet} (hcmd : s.cmd k seq = some c)
    (hheld : c.held = 3) (hpkt : c.fwdPkt = some (port, p)) (hup : s.portUp port = true) (hport : s.groupPort port = true) :
    exec (.groupCmdResend k seq) s = .next ((s.setCmd { c with held := 0 }).sendOn (chanKey p.dst 1 (some port)) port
      { p with vc := 1 } (.command k seq)) := by
  have hsend := State.sendGroup_up p (.command k seq) (show (s.setCmd { c with held := 0 }).portUp port = true from hup) hport
  show execGroupCmdResend k seq s = _
  unfold execGroupCmdResend
  split
  next hnone => exact absurd (hcmd.symm.trans hnone) (Option.some_ne_none _)
  next c' hsome =>
    cases hcmd.symm.trans hsome
    split
    next hnone => exact absurd (hpkt.symm.trans hnone) (Option.some_ne_none _)
    next port' p' hsome' =>
      cases hpkt.symm.trans hsome'
      rw [if_neg (not_not.mpr hheld), hsend]
      rfl

/-- Settles O41: each packet of a group is received in order, and its conditions send it down the branch
that the statement names. -/
theorem groupsComplete : Obligations.GroupsComplete := by
  refine ⟨?_, ?_, fun s k seq port c p => exec_groupCmdResend_sends, ?_, ?_, ?_, ?_, fun s r f m me p q => exec_groupHello_notes,
    fun s hforming => congrArg Host.Outcome.next (if_pos hforming), ?_, ?_⟩
  · rintro s r u f k p _ rfl h hqueues hdeliver
    refine next_receive_done h ?_
    simp only [mod_of_inOrder h, hqueues, hdeliver]
  · rintro s r f _ p _ c rfl h rfl hcmd hsent hstalled hlen
    refine next_receive_done h ?_
    have hentry : ((typed p 0x11 (some 1)).payload ++ List.replicate 32 0).take 32 = (typed p 0x11 (some 1)).payload := by
      rw [← hlen, List.take_left]
    simp only [hcmd, hsent, hstalled, hentry, Bool.not_true, Bool.false_eq_true, if_false, ne_eq, not_true_eq_false]
  · rintro s r u f p _ a b st rfl h haccess rfl
    refine next_receive_done h ?_
    simp only [mod_of_inOrder h, haccess]
  · rintro s r f p _ rfl h
    exact next_receive_done h rfl
  · rintro s r u f p _ rfl h hwrite
    exact next_receive_done h (congrArg (handled r · id id) hwrite)
  · rintro s r f p _ rfl h
    exact next_receive_done h rfl
  · intro s since m hlimit htime hforming hstraps hmaster
    show execGroupFormTimeout s = _
    simp only [execGroupFormTimeout, hlimit]
    rw [if_pos htime, State.groupCheck, if_neg (by simp [hforming]), if_neg (by omega)]
    simp only [Bool.true_or, if_true, hmaster]
  · intro s i v hadm hform
    show Host.Outcome.next _ = _
    rw [State.writeVia_admitted _ hadm, groupCtlEff, if_pos hform]

end Sys2Proof.Machine

/-!
Queue and partition registers (O42): doorbells, QCFG, QBIND, and the groups of PART_CTL, PART_STACKS and PART_SRV.
-/
namespace Sys2Proof.Machine

/-! Registers of a queue (Table 13-2). -/

section
variable (s : State) (q : Nat)

/-- The registers of a queue lie at different offsets of its page. -/
theorem regKey_qOff_ne {r r' : Nat} (h : r / 8 ≠ r' / 8) :
    regKey (Page.queueBlock q) (qOff q r) ≠ regKey (Page.queueBlock q) (qOff q r') :=
  regKey_ne_of_offset (by simp only [qOff]; omega)

@[simp] theorem State.qreg_setQfld_same (r hi lo n : Nat) :
    (s.setQfld q r hi lo n).qreg q r = setBits (s.qreg q r) hi lo n :=
  State.reg_setFld_same ..

theorem State.qreg_setQfld_other {r r' : Nat} (hi lo n : Nat) (h : r' / 8 ≠ r / 8) :
    (s.setQfld q r hi lo n).qreg q r' = s.qreg q r' :=
  State.reg_setFld_other _ _ _ _ _ _ _ _ (regKey_qOff_ne q h)

@[simp] theorem State.qreg_modQueue (p r : Nat) (f : QState → QState) : (s.modQueue p f).qreg q r = s.qreg q r := rfl

@[simp] theorem State.queue_modQueue (f : QState → QState) : (s.modQueue q f).queue q = f (s.queue q) := Map.get_set_same ..

@[simp] theorem State.queue_setQfld (p r hi lo n : Nat) : (s.setQfld p r hi lo n).queue q = s.queue q := rfl

/-- A counter of the queue's page is none of its registers. -/
theorem State.qreg_bump {i : Nat} (r n : Nat) (hi : i < 20) : (s.bump (Page.queueBlock q) i n).qreg q r = s.qreg q r :=
  State.reg_bump_other _ _ _ _ (regKey_ne_of_offset (by simp only [qOff, Reg.CNT]; omega))

end

/-- A plain write leaves every other register alone. -/
theorem State.reg_plainWrite_other (s : State) {page off p o : Nat} (v : Word) (h : regKey p o ≠ regKey page off) :
    (s.plainWrite page off v).reg p o = s.reg p o := by
  unfold State.plainWrite
  split
  · exact State.reg_setReg_other _ _ _ _ _ _ h
  · split
    · rfl
    · split
      · rfl
      · dsimp only
        split <;> exact State.reg_setReg_other _ _ _ _ _ _ h

/-- A plain write loads the register and may count its X fields as written. -/
theorem State.plainWrite_eq (s : State) (page off : Nat) (v : Word) :
    ∃ r w, s.plainWrite page off v = { s with regs := r, written := w } := by
  unfold State.plainWrite
  split
  · exact ⟨_, _, rfl⟩
  · split
    · exact ⟨_, _, rfl⟩
    · split
      · exact ⟨_, _, rfl⟩
      · dsimp only
        split <;> exact ⟨_, _, rfl⟩

/-! Doorbells (R394, R396). -/

section
variable {s : State} {i : Ident} {q : Nat} {v : Word}

theorem sqTailEff_moves (hbound : s.boundTo q i = true) (hsize : bits v 11 0 < s.ringSize q) :
    sqTailEff i q v s = s.setQfld q Q.tail 11 0 (bits v 11 0) := by
  rw [sqTailEff, if_pos (by simp [hbound, hsize])]

theorem sqTailEff_ignored (h : s.boundTo q i = false ∨ s.ringSize q ≤ bits v 11 0) :
    sqTailEff i q v s = s.doorbellIgnored q := by
  rw [sqTailEff, if_neg]
  simp only [Bool.and_eq_true, decide_eq_true_eq, not_and, Nat.not_lt]
  intro hbound
  exact h.resolve_left (by simp [hbound])

theorem cqHeadEff_consumes (hbound : s.boundTo q i = true) (hsize : bits v 11 0 < s.ringSize q) :
    cqHeadEff i q v s = (s.setQfld q Q.head 11 0 (bits v 11 0)).modQueue q fun x => { x with
      unread := x.unread - (bits v 11 0 + s.ringSize q - bits (s.qreg q Q.head) 11 0 % s.ringSize q) % s.ringSize q } := by
  rw [cqHeadEff, if_pos (by simp [hbound, hsize])]

theorem cqHeadEff_ignored (h : s.boundTo q i = false ∨ s.ringSize q ≤ bits v 11 0) :
    cqHeadEff i q v s = s.doorbellIgnored q := by
  rw [cqHeadEff, if_neg]
  simp only [Bool.and_eq_true, decide_eq_true_eq, not_and, Nat.not_lt]
  intro hbound
  exact h.resolve_left (by simp [hbound])

/-- An ignored doorbell is counted, and changes nothing else. -/
theorem State.doorbellIgnored_counts (s : State) (q r : Nat) : (s.doorbellIgnored q).qreg q r = s.qreg q r ∧
    (s.doorbellIgnored q).reg (Page.queueBlock q) (Reg.CNT + 16) = s.reg (Page.queueBlock q) (Reg.CNT + 16) + 1 :=
  ⟨s.qreg_bump q r 1 (by decide), s.reg_bump_same (Page.queueBlock q) 2 1⟩

end

/-! QCFG (R397, R398, R440). -/

/-- The state after a write of QCFG has stored the fields other than ENABLE, which it does while IDLE is set. -/
def State.qcfgStored (s : State) (q : Nat) (v : Word) : State :=
  if bits (s.qreg q Q.stat) 63 63 = 1 then
    (s.plainWrite (Page.queueBlock q) (qOff q Q.cfg) v).setFld (Page.queueBlock q) (qOff q Q.cfg) 63 63
      (bits (s.qreg q Q.cfg) 63 63)
  else s

section
variable (s : State) (q : Nat) (v : Word)

theorem State.qcfgStored_eq : ∃ r w, s.qcfgStored q v = { s with regs := r, written := w } := by
  unfold State.qcfgStored
  split
  · obtain ⟨r, w, h⟩ := s.plainWrite_eq (Page.queueBlock q) (qOff q Q.cfg) v
    rw [h]
    exact ⟨_, _, rfl⟩
  · exact ⟨_, _, rfl⟩

theorem State.reg_qcfgStored_other {p o : Nat} (h : regKey p o ≠ regKey (Page.queueBlock q) (qOff q Q.cfg)) :
    (s.qcfgStored q v).reg p o = s.reg p o := by
  unfold State.qcfgStored
  split
  · rw [State.reg_setFld_other _ _ _ _ _ _ _ _ h, State.reg_plainWrite_other _ _ h]
  · rfl

/-- ENABLE is not among the fields stored. -/
theorem State.qcfgStored_enable : bits ((s.qcfgStored q v).qreg q Q.cfg) 63 63 = bits (s.qreg q Q.cfg) 63 63 := by
  unfold State.qcfgStored
  split
  · rw [State.qreg, State.reg_setFld_same, bits_setBits_bits _ _ (by decide)]
  · rfl

variable {s q v}

theorem qcfgEff_disables (hv : bit v 63 = false) : qcfgEff q v s = (s.qcfgStored q v).disableQueue q :=
  if_pos (by simp [hv])

theorem qcfgEff_enables (hv : bit v 63 = true)
    (hport : s.queuePort q ≠ Q.hostVf ∨ s.fld Page.hostPort Reg.VER_ACTIVE 15 0 ≠ 0) :
    qcfgEff q v s = (s.qcfgStored q v).enableQueue q := by
  have hbind : (s.qcfgStored q v).queuePort q = s.queuePort q :=
    congrArg (bits · 59 56) (s.reg_qcfgStored_other q v (regKey_qOff_ne q (by decide)))
  have hactive : (s.qcfgStored q v).fld Page.hostPort Reg.VER_ACTIVE 15 0 = s.fld Page.hostPort Reg.VER_ACTIVE 15 0 :=
    congrArg (bits · 15 0) (s.reg_qcfgStored_other q v
      (regKey_ne_of_page (by simp only [Page.hostPort, Page.queueBlock]; omega) (by decide) (by simp only [qOff, Q.cfg]; omega)))
  have hallowed : ¬ ((s.qcfgStored q v).queuePort q = Q.hostVf ∧
      (s.qcfgStored q v).fld Page.hostPort Reg.VER_ACTIVE 15 0 = 0) := by
    rw [hbind, hactive, not_and_or]
    exact hport
  exact (if_neg (by simp [hv])).trans (if_neg hallowed)

end

/-- A queue that is not idle keeps QCFG as it is. -/
theorem State.qcfgStored_busy {s : State} {q : Nat} {v : Word} (h : bits (s.qreg q Q.stat) 63 63 = 0) : s.qcfgStored q v = s :=
  if_neg (by simp [h])

theorem State.disableQueue_enabled {s : State} {q : Nat} (h : bits (s.qreg q Q.cfg) 63 63 = 1) :
    s.disableQueue q = ((s.setQfld q Q.cfg 63 63 0).modQueue q fun x => { x with fetchWait := none }).dropUnstarted q :=
  if_pos h

/-- The registers of a queue that is enabled: ENABLE is set, and the ring indices and DONE_UPTO are zero (R397). -/
def State.queueCleared (s : State) (q : Nat) : State :=
  ((((s.setQfld q Q.cfg 63 63 1).setQfld q Q.tail 11 0 0).setQfld q Q.head 11 0 0).setQfld q Q.stat 59 48 0).setQfld q Q.stat 31 0 0

theorem State.enableQueue_eq {s : State} {q : Nat} (h : bits (s.qreg q Q.cfg) 63 63 = 0) :
    s.enableQueue q = (s.queueCleared q).modQueue q fun x => { x with
      nextSeq := 1, cqTail := 0, unread := 0, phase := true, done := [], fwdIds := [], lost := false } :=
  if_neg (by simp [h])

theorem State.queueCleared_fields (s : State) (q : Nat) :
    bits ((s.queueCleared q).qreg q Q.cfg) 63 63 = 1 ∧ bits ((s.queueCleared q).qreg q Q.tail) 11 0 = 0 ∧
    bits ((s.queueCleared q).qreg q Q.head) 11 0 = 0 ∧ bits ((s.queueCleared q).qreg q Q.stat) 59 48 = 0 ∧
    bits ((s.queueCleared q).qreg q Q.stat) 31 0 = 0 := by
  unfold State.queueCleared
  simp (disch := decide) only [State.qreg_setQfld_same, State.qreg_setQfld_other, bits_setBits_same, bits_setBits_other]
  decide

/-- What the enabling of a queue starts again (R397, R408). -/
theorem State.enableQueue_fields {s : State} {q : Nat} (h : bits (s.qreg q Q.cfg) 63 63 = 0) :
    bits ((s.enableQueue q).qreg q Q.cfg) 63 63 = 1 ∧ bits ((s.enableQueue q).qreg q Q.tail) 11 0 = 0 ∧
    bits ((s.enableQueue q).qreg q Q.head) 11 0 = 0 ∧ bits ((s.enableQueue q).qreg q Q.stat) 59 48 = 0 ∧
    bits ((s.enableQueue q).qreg q Q.stat) 31 0 = 0 ∧ ((s.enableQueue q).queue q).nextSeq = 1 ∧
    ((s.enableQueue q).queue q).phase = true ∧ ((s.enableQueue q).queue q).unread = 0 := by
  obtain ⟨hen, htail, hhead, hsq, hdone⟩ := s.queueCleared_fields q
  have hreg : ∀ r, (s.enableQueue q).qreg q r = (s.queueCleared q).qreg q r := fun r =>
    (congrArg (State.qreg · q r) (State.enableQueue_eq h)).trans (State.qreg_modQueue ..)
  have hqueue := (congrArg (State.queue · q) (State.enableQueue_eq h)).trans (State.queue_modQueue ..)
  simp only [hreg, hqueue]
  exact ⟨hen, htail, hhead, hsq, hdone, trivial, trivial, trivial⟩

/-- Without a command that has not started, none is dropped (R398). -/
theorem State.dropUnstarted_none {s : State} {q : Nat} (h : ∀ e ∈ s.cmds, e.2.queue = q → s.unstarted e.2 = false) :
    s.dropUnstarted q = s := by
  have hnone : (s.cmds.filter fun e => decide (e.2.queue = q) && s.unstarted e.2) = [] := by
    refine List.filter_eq_nil_iff.mpr fun e he => ?_
    simp only [Bool.and_eq_true, decide_eq_true_eq, not_and]
    intro hq
    simp [h e he hq]
  rw [State.dropUnstarted, hnone]
  rfl

/-- A queue all of whose commands have started stops its fetch and keeps them (R398). -/
theorem State.disableQueue_fields {s : State} {q : Nat} (hon : bits (s.qreg q Q.cfg) 63 63 = 1)
    (hstarted : ∀ e ∈ s.cmds, e.2.queue = q → s.unstarted e.2 = false) :
    bits ((s.disableQueue q).qreg q Q.cfg) 63 63 = 0 ∧ ((s.disableQueue q).queue q).fetchWait = none ∧
    (s.disableQueue q).cmds = s.cmds ∧ (s.disableQueue q).mem = s.mem := by
  have hnone : ((s.setQfld q Q.cfg 63 63 0).modQueue q fun x => { x with fetchWait := none }).dropUnstarted q = _ :=
    State.dropUnstarted_none hstarted
  rw [State.disableQueue_enabled hon, hnone, State.qreg_modQueue, State.qreg_setQfld_same, bits_setBits_same _ _ (by decide),
    State.queue_modQueue]
  exact ⟨rfl, rfl, rfl, rfl⟩

/-! Partitions (R392, R393, R615). -/

/-- A function that agrees on both branches of a choice. -/
theorem keeps_ite {α β : Type} {c : Prop} [Decidable c] (f : α → β) {a b : α} {x : β} (ha : f a = x) (hb : f b = x) :
    f (if c then a else b) = x := by
  split
  · exact ha
  · exact hb

section
variable (s : State)

/-- PAGE_OWNER of the hub pages is all that follows the ownership of stacks (R615). -/
theorem State.reg_refreshOwner (st : Nat) {p o : Nat} (hp : p < 0x1000) (ho : o < 4096) :
    (s.refreshOwner st).reg p o = s.reg p o := by
  unfold State.refreshOwner
  refine foldl_keeps (fun s => s.reg p o) (fun s j => ?_) s
  exact keeps_ite (fun s : State => s.reg p o) rfl (State.reg_setFld_other _ _ _ _ _ _ _ _
    (regKey_ne_of_page (by simp only [Page.hub]; omega) ho (by decide)))

theorem State.reg_refreshOwners {p o : Nat} (hp : p < 0x1000) (ho : o < 4096) : s.refreshOwners.reg p o = s.reg p o := by
  unfold State.refreshOwners
  exact foldl_keeps (fun s => s.reg p o) (fun s st => s.reg_refreshOwner st hp ho) s

/-- The DEVICE page is none of the hub pages. -/
theorem State.reg_refreshOwners_device {o : Nat} (ho : o < 4096) : s.refreshOwners.reg Page.device o = s.reg Page.device o :=
  s.reg_refreshOwners (by decide) ho

theorem State.fld_refreshOwners_device {o : Nat} (hi lo : Nat) (ho : o < 4096) :
    s.refreshOwners.fld Page.device o hi lo = s.fld Page.device o hi lo := by
  unfold State.fld
  rw [State.reg_refreshOwners_device s ho]

/-- The registers of the partitions' groups lie at different offsets. -/
theorem regKey_partOff_ne {p o r r' : Nat} (hr : r < 0x30) (hr' : r' < 0x30) (h : r / 8 ≠ r' / 8) :
    regKey Page.device (partOff o r) ≠ regKey Page.device (partOff p r') :=
  regKey_ne_of_offset (by simp only [partOff]; omega)

/-- Whether a partition is idle does not depend on the DEVICE page. -/
theorem State.partIdle_setFld {off : Nat} (p hi lo n : Nat) (hoff : off < 4096) :
    (s.setFld Page.device off hi lo n).partIdle p = s.partIdle p := by
  have hqreg : ∀ q r, (s.setFld Page.device off hi lo n).qreg q r = s.qreg q r := fun q r =>
    State.reg_setFld_other _ _ _ _ _ _ _ _ (by simp only [regKey, Page.queueBlock, Page.device]; omega)
  unfold State.partIdle State.queuePart
  simp only [hqreg]
  rfl

variable {s}

/-- Whether sets clash depends on the VALID bits and on the sets of the partitions' groups. -/
theorem State.partClash_congr {t : State}
    (hvalid : ∀ o, t.fld Page.device (partOff o 0) 63 63 = s.fld Page.device (partOff o 0) 63 63)
    (hreg : ∀ o r, 8 ≤ r → r < 0x30 → t.reg Page.device (partOff o r) = s.reg Page.device (partOff o r))
    (p m : Nat) (srv : List Nat) :
    t.partClash p m srv = s.partClash p m srv := by
  have hstacks : ∀ o, t.partStacks o = s.partStacks o := fun o => by
    rw [State.partStacks, hvalid, hreg o 8 (by decide) (by decide), State.partStacks]
  have hservers : ∀ o, ∀ i < 4, t.partServers o i = s.partServers o i := fun o i hi => by
    rw [State.partServers, hvalid, hreg o _ (by omega) (by omega), State.partServers]
  have hall : ∀ o, ((List.range 4).any fun i => decide (t.partServers o i &&& srv.getD i 0 ≠ 0))
      = (List.range 4).any fun i => decide (s.partServers o i &&& srv.getD i 0 ≠ 0) := fun o => by
    simp only [show List.range 4 = [0, 1, 2, 3] from rfl, List.any_cons, List.any_nil, hservers o _ (show 0 < 4 by decide),
      hservers o _ (show 1 < 4 by decide), hservers o _ (show 2 < 4 by decide), hservers o _ (show 3 < 4 by decide)]
  unfold State.partClash
  simp only [hstacks, hall]

end

/-! A write of a partition's group (R393). -/

section
variable {s : State} {p expected : Nat} {clash : Bool} {eff : State → State}

/-- A write that expects the epoch of an idle partition and meets no other has its effect. -/
theorem State.partWrite_accepts (hepoch : s.fld Page.device (partOff p 0) 47 32 = expected) (hidle : s.partIdle p = true)
    (hclash : clash = false) : s.partWrite p expected clash eff = eff (s.partStatus p St.ok) := by
  simp [State.partWrite, hepoch, hidle, hclash]

theorem State.partWrite_stale (hepoch : s.fld Page.device (partOff p 0) 47 32 ≠ expected) :
    s.partWrite p expected clash eff = s.partStatus p St.epochStale := if_pos hepoch

end

/-- PART_CTL after an accepted write: VALID as written, and the epoch counted where VALID rises (R393). -/
def State.partValid (s : State) (p : Nat) (v : Word) : State :=
  State.setFld (if bit v 63 ∧ s.fld Page.device (partOff p 0) 63 63 = 0 then
    s.setFld Page.device (partOff p 0) 47 32 ((s.fld Page.device (partOff p 0) 47 32 + 1) % 65536) else s)
    Page.device (partOff p 0) 63 63 (bits v 63 63)

theorem State.partValid_fields (s : State) (p : Nat) (v : Word) :
    (s.partValid p v).fld Page.device (partOff p 0) 63 63 = bits v 63 63 ∧
    (s.partValid p v).fld Page.device (partOff p 0) 55 48 = s.fld Page.device (partOff p 0) 55 48 ∧
    (s.partValid p v).fld Page.device (partOff p 0) 47 32 = (if bit v 63 = true ∧ s.fld Page.device (partOff p 0) 63 63 = 0
      then (s.fld Page.device (partOff p 0) 47 32 + 1) % 65536 else s.fld Page.device (partOff p 0) 47 32) := by
  refine ⟨(State.fld_setFld_same _ _ _ _ (by decide)).trans (Nat.mod_eq_of_lt (bits_lt v 63 63)), ?_, ?_⟩
  · rw [State.partValid, State.fld_setFld_other _ _ _ _ (by decide) (by decide)]
    exact keeps_ite (fun s : State => s.fld Page.device (partOff p 0) 55 48)
      (State.fld_setFld_other _ _ _ _ (by decide) (by decide)) rfl
  · rw [State.partValid, State.fld_setFld_other _ _ _ _ (by decide) (by decide)]
    split
    · rw [State.fld_setFld_same _ _ _ _ (by decide)]
      exact Nat.mod_mod ..
    · rfl

/-- The state in which a write of PART_CTL is checked: the expected epoch is stored. -/
def State.partExpects (s : State) (p : Nat) (v : Word) : State := s.setFld Page.device (partOff p 0) 15 0 (bits v 15 0)

section
variable {s : State} {p : Nat} {v : Word}

theorem State.partExpects_fld {hi lo : Nat} (h : hi < 64) (hlo : 15 < lo) :
    (s.partExpects p v).fld Page.device (partOff p 0) hi lo = s.fld Page.device (partOff p 0) hi lo :=
  State.fld_setFld_other _ _ _ _ h (.inr hlo)

theorem State.partExpects_reg (o r : Nat) (h8 : 8 ≤ r) (hr : r < 0x30) :
    (s.partExpects p v).reg Page.device (partOff o r) = s.reg Page.device (partOff o r) :=
  State.reg_setFld_other _ _ _ _ _ _ _ _ (regKey_partOff_ne hr (by decide) (by omega))

/-- The expected epoch is no part of what a clash is about. -/
theorem State.partExpects_clash (q m : Nat) (srv : List Nat) :
    (s.partExpects p v).partClash q m srv = s.partClash q m srv := by
  refine State.partClash_congr (fun o => ?_) State.partExpects_reg q m srv
  by_cases ho : o = p
  · rw [ho, State.partExpects_fld (by decide) (by decide)]
  · exact State.fld_setFld_key _ _ _ _ _ _ _ _ (regKey_ne_of_offset (by simp only [partOff]; omega))

theorem State.partExpects_partSrvRegs : (s.partExpects p v).partSrvRegs p = s.partSrvRegs p :=
  List.map_congr_left fun i hi => by
    rw [State.partExpects_reg p _ (by omega) (by have := List.mem_range.mp hi; omega)]

theorem partCtlEff_accepts (hp : p < 64) (hepoch : s.fld Page.device (partOff p 0) 47 32 = bits v 15 0)
    (hidle : s.partIdle p = true)
    (hclash : (bit v 63 && s.partClash p (s.reg Page.device (partOff p 8)).toNat (s.partSrvRegs p)) = false) :
    partCtlEff p v s = (((s.partExpects p v).partStatus p St.ok).partValid p v).refreshOwners := by
  have hepoch' := (State.partExpects_fld (p := p) (v := v) (by decide) (by decide)).trans hepoch
  have hidle' : (s.partExpects p v).partIdle p = true :=
    (s.partIdle_setFld p _ _ _ (by simp only [partOff]; omega)).trans hidle
  have hclash' : (bit v 63 && (s.partExpects p v).partClash p ((s.partExpects p v).reg Page.device (partOff p 8)).toNat
      ((s.partExpects p v).partSrvRegs p)) = false := by
    rw [State.partExpects_clash, State.partExpects_reg p 8 (by decide) (by decide), State.partExpects_partSrvRegs, hclash]
  rw [partCtlEff, ← State.partExpects, State.partWrite_accepts hepoch' hidle' hclash', State.partValid]

theorem partCtlEff_stale (hepoch : s.fld Page.device (partOff p 0) 47 32 ≠ bits v 15 0) :
    partCtlEff p v s = (s.partExpects p v).partStatus p St.epochStale := by
  rw [partCtlEff, ← State.partExpects, State.partWrite_stale]
  rwa [State.partExpects_fld (by decide) (by decide)]

/-- An accepted write of PART_CTL loads VALID, counts the epoch of a partition that becomes valid, and reports OK (R393). -/
theorem partCtlEff_fields (hp : p < 64) (hepoch : s.fld Page.device (partOff p 0) 47 32 = bits v 15 0)
    (hidle : s.partIdle p = true)
    (hclash : (bit v 63 && s.partClash p (s.reg Page.device (partOff p 8)).toNat (s.partSrvRegs p)) = false) :
    (partCtlEff p v s).fld Page.device (partOff p 0) 63 63 = bits v 63 63 ∧
    (partCtlEff p v s).fld Page.device (partOff p 0) 55 48 = St.ok ∧
    (partCtlEff p v s).fld Page.device (partOff p 0) 47 32 =
      (if bit v 63 = true ∧ s.fld Page.device (partOff p 0) 63 63 = 0
        then (s.fld Page.device (partOff p 0) 47 32 + 1) % 65536 else s.fld Page.device (partOff p 0) 47 32) := by
  have hoff : partOff p 0 < 4096 := by simp only [partOff]; omega
  have hkept : ∀ {hi lo}, hi < 64 → 15 < lo → hi < 48 ∨ 55 < lo →
      ((s.partExpects p v).partStatus p St.ok).fld Page.device (partOff p 0) hi lo = s.fld Page.device (partOff p 0) hi lo :=
    fun h hlo hd => (State.fld_setFld_other _ _ _ _ h hd).trans (State.partExpects_fld h hlo)
  have hstatus : ((s.partExpects p v).partStatus p St.ok).fld Page.device (partOff p 0) 55 48 = St.ok :=
    State.fld_setFld_same _ _ _ _ (by decide)
  obtain ⟨hvalid, hst, hcount⟩ := ((s.partExpects p v).partStatus p St.ok).partValid_fields p v
  rw [partCtlEff_accepts hp hepoch hidle hclash]
  simp only [State.fld_refreshOwners_device _ _ _ hoff]
  refine ⟨hvalid, hst.trans hstatus, ?_⟩
  rw [hcount, hkept (by decide) (by decide) (by decide), hkept (by decide) (by decide) (by decide)]

theorem partCtlEff_stale_fields (hepoch : s.fld Page.device (partOff p 0) 47 32 ≠ bits v 15 0) :
    (partCtlEff p v s).fld Page.device (partOff p 0) 55 48 = St.epochStale ∧
    (partCtlEff p v s).fld Page.device (partOff p 0) 63 63 = s.fld Page.device (partOff p 0) 63 63 := by
  rw [partCtlEff_stale hepoch]
  exact ⟨State.fld_setFld_same _ _ _ _ (by decide),
    (State.fld_setFld_other _ _ _ _ (by decide) (by decide)).trans (State.partExpects_fld (by decide) (by decide))⟩

/-- The check of a set written to a partition passes where the partition is not valid or the set meets no other. -/
theorem State.clash_eq_false {m : Nat} {srv : List Nat}
    (h : s.fld Page.device (partOff p 0) 63 63 = 0 ∨ s.partClash p m srv = false) :
    (decide (s.fld Page.device (partOff p 0) 63 63 = 1) && s.partClash p m srv) = false := by
  rcases h with h | h <;> simp [h]

theorem partStacksEff_fields (hp : p < 64) (hepoch : s.fld Page.device (partOff p 0) 47 32 = s.fld Page.device (partOff p 0) 15 0)
    (hidle : s.partIdle p = true) (h : s.fld Page.device (partOff p 0) 63 63 = 0 ∨ s.partClash p v.toNat [] = false) :
    (partStacksEff p v s).reg Page.device (partOff p 8) = v ∧
    (partStacksEff p v s).fld Page.device (partOff p 0) 55 48 = St.ok := by
  have heff : partStacksEff p v s = ((s.partStatus p St.ok).setReg Page.device (partOff p 8) v).refreshOwners := by
    rw [partStacksEff, State.partWrite_accepts hepoch hidle (State.clash_eq_false h)]
  rw [heff, State.reg_refreshOwners_device _ (by simp only [partOff]; omega), State.reg_setReg_same,
    State.fld_refreshOwners_device _ _ _ (by simp only [partOff]; omega), State.fld,
    State.reg_setReg_other _ _ _ _ _ _ (regKey_partOff_ne (by decide) (by decide) (by decide))]
  exact ⟨rfl, State.fld_setFld_same _ _ _ _ (by decide)⟩

theorem partSrvEff_fields {j : Nat} (hj : j < 4)
    (hepoch : s.fld Page.device (partOff p 0) 47 32 = s.fld Page.device (partOff p 0) 15 0) (hidle : s.partIdle p = true)
    (h : s.fld Page.device (partOff p 0) 63 63 = 0 ∨ s.partClash p 0 (listSet [0, 0, 0, 0] j v.toNat) = false) :
    (partSrvEff p j v s).reg Page.device (partOff p (0x10 + 8 * j)) = v ∧
    (partSrvEff p j v s).fld Page.device (partOff p 0) 55 48 = St.ok := by
  have heff : partSrvEff p j v s = (s.partStatus p St.ok).setReg Page.device (partOff p (0x10 + 8 * j)) v := by
    rw [partSrvEff, State.partWrite_accepts hepoch hidle (State.clash_eq_false h)]
  rw [heff, State.reg_setReg_same, State.fld,
    State.reg_setReg_other _ _ _ _ _ _ (regKey_partOff_ne (by decide) (by omega) (by omega))]
  exact ⟨rfl, State.fld_setFld_same _ _ _ _ (by decide)⟩

end

/-! The commands. -/

section
variable {s : State} {i : Ident} {q p j : Nat} {v : Word}

theorem exec_sqTail (hq : q < 1024) (h : Admitted s i (Page.queueBlock q) (qOff q Q.tail) v) :
    ∃ l w, exec (.sqTail i q v) s = .next (sqTailEff i q v { s with lockAt := l, written := w }) := by
  obtain ⟨l, w, hwrite⟩ := State.writeVia_effect (sqTailEff i q v) h
  refine ⟨l, w, ?_⟩
  show execSqTail i q v s = _
  rw [execSqTail, Nat.mod_eq_of_lt hq, hwrite]

theorem exec_cqHead (hq : q < 1024) (h : Admitted s i (Page.queueBlock q) (qOff q Q.head) v) :
    ∃ l w, exec (.cqHead i q v) s = .next (cqHeadEff i q v { s with lockAt := l, written := w }) := by
  obtain ⟨l, w, hwrite⟩ := State.writeVia_effect (cqHeadEff i q v) h
  refine ⟨l, w, ?_⟩
  show execCqHead i q v s = _
  rw [execCqHead, Nat.mod_eq_of_lt hq, hwrite]

theorem exec_qcfgEnableSet (hq : q < 1024) (h : Admitted s i (Page.queueBlock q) (qOff q Q.cfg) (setBit v 63 true)) :
    ∃ l w, exec (.qcfgEnableSet i q v) s = .next (qcfgEff q (setBit v 63 true) { s with lockAt := l, written := w }) := by
  obtain ⟨l, w, hwrite⟩ := State.writeVia_effect (qcfgEff q (setBit v 63 true)) h
  refine ⟨l, w, ?_⟩
  show execQcfgEnableSet i q v s = _
  rw [execQcfgEnableSet, Nat.mod_eq_of_lt hq, hwrite]

theorem exec_qcfgEnableClear (hq : q < 1024) (h : Admitted s i (Page.queueBlock q) (qOff q Q.cfg) (setBit v 63 false)) :
    exec (.qcfgEnableClear i q v) s =
      .next (((s.admittedState i (Page.queueBlock q) (qOff q Q.cfg)).qcfgStored q (setBit v 63 false)).disableQueue q) := by
  show execQcfgEnableClear i q v s = _
  rw [execQcfgEnableClear, Nat.mod_eq_of_lt hq, State.writeVia_admitted _ h,
    qcfgEff_disables (by simp [setBit, bit_setBits])]

theorem exec_qbindWrite (hq : q < 1024) (h : Admitted s i (Page.queueBlock q) (qOff q Q.bind) v) :
    exec (.qbindWrite i q v) s = .next (qbindEff i q v (s.admittedState i (Page.queueBlock q) (qOff q Q.bind))) := by
  show execQbindWrite i q v s = _
  rw [execQbindWrite, Nat.mod_eq_of_lt hq, State.writeVia_admitted _ h]

theorem exec_partCtlWrite (hp : p < 64) (h : Admitted s i Page.device (partOff p 0) v) :
    ∃ l w, exec (.partCtlWrite i p v) s = .next (partCtlEff p v { s with lockAt := l, written := w }) := by
  obtain ⟨l, w, hwrite⟩ := State.writeVia_effect (partCtlEff p v) h
  refine ⟨l, w, ?_⟩
  show execPartCtlWrite i p v s = _
  rw [execPartCtlWrite, Nat.mod_eq_of_lt hp, hwrite]

theorem exec_partStacksWrite (hp : p < 64) (h : Admitted s i Page.device (partOff p 8) v) :
    ∃ l w, exec (.partStacksWrite i p v) s = .next (partStacksEff p v { s with lockAt := l, written := w }) := by
  obtain ⟨l, w, hwrite⟩ := State.writeVia_effect (partStacksEff p v) h
  refine ⟨l, w, ?_⟩
  show execPartStacksWrite i p v s = _
  rw [execPartStacksWrite, Nat.mod_eq_of_lt hp, hwrite]

theorem exec_partSrvWrite (hp : p < 64) (hj : j < 4) (h : Admitted s i Page.device (partOff p (0x10 + 8 * j)) v) :
    ∃ l w, exec (.partSrvWrite i p j v) s = .next (partSrvEff p j v { s with lockAt := l, written := w }) := by
  obtain ⟨l, w, hwrite⟩ := State.writeVia_effect (partSrvEff p j v) h
  refine ⟨l, w, ?_⟩
  show execPartSrvWrite i p j v s = _
  rw [execPartSrvWrite, Nat.mod_eq_of_lt hp, Nat.mod_eq_of_lt hj, hwrite]

/-- A command that keeps the content leaves memory as before. -/
theorem KeepsContent.mem {c : Instr} {s t : State} (h : KeepsContent c) (he : exec c s = .next t) : t.mem = s.mem :=
  congrArg Prod.fst (h s t he)

end

/-- Settles O42: each command is admitted, and its effect in the state of its admission is one of the cases above. -/
theorem queueRegistersComplete : Obligations.QueueRegistersComplete := by
  unfold Obligations.QueueRegistersComplete
  refine ⟨?_, ?_, ?_, ?_, ?_, ?_, ?_, ?_, ?_⟩
  · intro s i q v hq hadm
    obtain ⟨l, w, hexec⟩ := exec_sqTail hq hadm
    have hmem := (sqTail_keepsContent i q v).mem hexec
    refine ⟨fun hbound hsize => ?_, fun h => ?_⟩
    · rw [sqTailEff_moves (s := { s with lockAt := l, written := w }) hbound hsize] at hexec hmem
      refine ⟨_, hexec, ?_, rfl, hmem⟩
      rw [State.qreg_setQfld_same, bits_setBits_bits _ _ (by decide)]
    · rw [sqTailEff_ignored (s := { s with lockAt := l, written := w }) h] at hexec hmem
      obtain ⟨htail, hcount⟩ := State.doorbellIgnored_counts { s with lockAt := l, written := w } q Q.tail
      exact ⟨_, hexec, htail, hcount, hmem⟩
  · intro s i q v hq hadm
    obtain ⟨l, w, hexec⟩ := exec_cqHead hq hadm
    have hmem := (cqHead_keepsContent i q v).mem hexec
    refine ⟨fun hbound hsize => ?_, fun h => ?_⟩
    · rw [cqHeadEff_consumes (s := { s with lockAt := l, written := w }) hbound hsize] at hexec hmem
      refine ⟨_, hexec, ?_, ?_, hmem⟩
      · rw [State.qreg_modQueue, State.qreg_setQfld_same, bits_setBits_bits _ _ (by decide)]
      · rw [State.queue_modQueue]; rfl
    · rw [cqHeadEff_ignored (s := { s with lockAt := l, written := w }) h] at hexec hmem
      obtain ⟨hhead, hcount⟩ := State.doorbellIgnored_counts { s with lockAt := l, written := w } q Q.head
      exact ⟨_, hexec, hhead, rfl, hcount, hmem⟩
  · intro s i q v hq hadm hoff hport
    obtain ⟨l, w, hexec⟩ := exec_qcfgEnableSet hq hadm
    have hmem := (qcfgEnableSet_keepsContent i q v).mem hexec
    have hoff' := (State.qcfgStored_enable { s with lockAt := l, written := w } q (setBit v 63 true)).trans hoff
    rw [qcfgEff_enables (s := { s with lockAt := l, written := w }) (bit_setBit_same v (by decide)) hport] at hexec hmem
    obtain ⟨hen, htail, hhead, hsq, hdone, hseq, hphase, hunread⟩ := State.enableQueue_fields hoff'
    exact ⟨_, hexec, hen, htail, hhead, hsq, hdone, hseq, hphase, hunread, hmem⟩
  · intro s i q v hq hadm hon hbusy
    obtain ⟨l, w, ha⟩ := s.admittedState_eq i (Page.queueBlock q) (qOff q Q.cfg)
    have hqreg : ∀ r, (s.admittedState i (Page.queueBlock q) (qOff q Q.cfg)).qreg q r = s.qreg q r := fun r => by rw [ha]; rfl
    rw [exec_qcfgEnableClear hq hadm, State.qcfgStored_busy ((congrArg (bits · 63 63) (hqreg _)).trans hbusy),
      State.disableQueue_enabled ((congrArg (bits · 63 63) (hqreg _)).trans hon)]
  · intro s i q v hq hadm hon hstarted
    obtain ⟨l, w, ha⟩ := s.admittedState_eq i (Page.queueBlock q) (qOff q Q.cfg)
    obtain ⟨r, w', hstored⟩ := State.qcfgStored_eq { s with lockAt := l, written := w } q (setBit v 63 false)
    have hon' := (State.qcfgStored_enable { s with lockAt := l, written := w } q (setBit v 63 false)).trans hon
    have hexec := exec_qcfgEnableClear hq hadm
    rw [ha] at hexec
    rw [hstored] at hon' hexec
    obtain ⟨hoff, hwait, hcmds, hmem⟩ := State.disableQueue_fields hon' hstarted
    exact ⟨_, hexec, hoff, hwait, hcmds, hmem⟩
  · intro s i q v hq hadm
    obtain ⟨l, w, ha⟩ := s.admittedState_eq i (Page.queueBlock q) (qOff q Q.bind)
    have hidle : ∀ n, bits (s.qreg q Q.stat) 63 63 = n →
        bits ((s.admittedState i (Page.queueBlock q) (qOff q Q.bind)).qreg q Q.stat) 63 63 = n := fun n h => by rw [ha]; exact h
    rw [exec_qbindWrite hq hadm]
    refine ⟨fun hmgmt h => ?_, fun h => ?_⟩
    · rw [qbindEff, if_pos ⟨hmgmt, hidle 1 h⟩]
    · rw [qbindEff, if_neg]
      rintro ⟨hmgmt, h1⟩
      rcases h with h | h
      · exact h hmgmt
      · exact absurd (h1.symm.trans (hidle 0 h)) (by decide)
  · intro s i p v hp hadm
    obtain ⟨l, w, hexec⟩ := exec_partCtlWrite hp hadm
    have hmem := (partCtlWrite_keepsContent i p v).mem hexec
    refine ⟨fun hepoch hidle hclash => ?_, fun hstale => ?_⟩
    · obtain ⟨hvalid, hst, hcount⟩ := partCtlEff_fields (s := { s with lockAt := l, written := w }) hp hepoch hidle hclash
      exact ⟨_, hexec, hvalid, hst, hcount, hmem⟩
    · obtain ⟨hst, hvalid⟩ := partCtlEff_stale_fields (s := { s with lockAt := l, written := w }) hstale
      exact ⟨_, hexec, hst, hvalid, hmem⟩
  · intro s i p v hp hadm hepoch hidle hclash
    obtain ⟨l, w, hexec⟩ := exec_partStacksWrite hp hadm
    obtain ⟨hreg, hst⟩ := partStacksEff_fields (s := { s with lockAt := l, written := w }) hp hepoch hidle hclash
    exact ⟨_, hexec, hreg, hst, (partStacksWrite_keepsContent i p v).mem hexec⟩
  · intro s i p j v hp hj hadm hepoch hidle hclash
    obtain ⟨l, w, hexec⟩ := exec_partSrvWrite hp hj hadm
    obtain ⟨hreg, hst⟩ := partSrvEff_fields (s := { s with lockAt := l, written := w }) hj hepoch hidle hclash
    exact ⟨_, hexec, hreg, hst, (partSrvWrite_keepsContent i p j v).mem hexec⟩

end Sys2Proof.Machine

/-!
Saves of cores (O18). A save frees the cores of its task where every core of it is saved, and it decides so after it has counted
the save. The rows of a task are unbounded numbers in the model: the ROW_SKIP key of row 29,172 is the key of counter 8 of the
scheduler of stack 1, so counting the save changes which cores that task has.
-/
namespace Sys2Proof.Machine

/-- A task that is stopping, on row 29,172 alone. -/
def outOfRangeTask : Task :=
  { queue := 0, seq := 1, part := 0, stackBits := 1, dieMask := 1, rowFirst := 29172, rowLast := 29172,
    cheapPoints := [⟨0, 0, 0, 0, 0, true⟩], status := .stopping }

/-- Where the save table places the record: an address of the region of message interrupts, where a write is answered with OK and
leaves memory as it is (Table 21-12), so that the writes of the record are few steps to evaluate. -/
def outOfRangePlace : Nat := 0xD000000000000

/-- Core 5040, of another row, is drained for that task; of the task's own cores, one is saved and one is not. -/
def outOfRangeSave : State :=
  { regs := [(regKey 0x102 0x10, 1)]
    mem := [(8 * 1 + 6, 0x0D)]
    tasks := [(1, outOfRangeTask)]
    cores := [(5040, { task := some 1, drained := true }), (1225225, { task := some 1, saved := true }),
      (1225226, { task := some 1 })] }

/-- The writes of core 5040's record (R416). -/
def outOfRangeRecord : Ended × State :=
  State.writeChunks (outOfRangeTask.ctxt (coreStack 5040)) outOfRangePlace 5040
    (saveInfo (outOfRangeSave.cheapSave 5040 outOfRangeTask))
    (saveChunks ((outOfRangeSave.cheapSave 5040 outOfRangeTask).map Prod.snd)) outOfRangeSave

/-- The record is written, and the task still has a core that is not saved. -/
theorem outOfRangeRecord_written : outOfRangeRecord.1 = .status 0 ∧ outOfRangeRecord.2.task 1 = some outOfRangeTask ∧
    1225226 ∈ outOfRangeRecord.2.taskCores outOfRangeTask ∧ (outOfRangeRecord.2.core 1225226).task = some 1 ∧
    (outOfRangeRecord.2.core 1225226).saved = false ∧ (outOfRangeRecord.2.core 1225225).task = some 1 := by
  decide +kernel

/-- The task of core 1225225 after a command that answers a next state. -/
def taskAfter : Out → Option (Option Nat)
  | .next t => some (t.core 1225225).task
  | _ => none

/-- Counting the save adds to ROW_SKIP of row 29,172; the cores that the task then has are saved, and they are freed. -/
theorem coreSave_frees_other : taskAfter (exec (.coreSave 5040) outOfRangeSave) = some none := by decide +kernel

/-- Refutes O18: the save of core 5040 counts into ROW_SKIP of row 29,172, so the task's cores are others after it than before;
those that it has then are saved, and core 1225225 is freed though core 1225226 was not saved. The state is not reachable: a
module has no row 29,172. -/
theorem not_saveAndFailComplete : ¬ Obligations.SaveAndFailComplete := by
  rintro ⟨save, -⟩
  obtain ⟨hstatus, htask, hmember, howner, hunsaved, hother⟩ := outOfRangeRecord_written
  have written : outOfRangeRecord = (.status 0, outOfRangeRecord.2) := by rw [← hstatus, Prod.mk.eta]
  obtain ⟨t, ht, -, -, hkept⟩ := save outOfRangeSave outOfRangeRecord.2 5040 1 outOfRangePlace 1225226 outOfRangeTask
    (by decide +kernel) (by decide +kernel) (by decide +kernel) (by decide +kernel) (by decide +kernel) written htask
    (by decide) hmember howner hunsaved
  have freed : some (t.core 1225225).task = some none := by
    rw [← coreSave_frees_other, ht]
    rfl
  have hcore : (t.core 1225225).task = some 1 := (congrArg Core.task (hkept 1225225 (by decide))).trans hother
  exact absurd ((Option.some.inj freed).symm.trans hcore) (by decide)

end Sys2Proof.Machine

/-!
Commands of the mover and of the collective engine (O20): turns, progress, retries, arming, timeouts and resent steps.
-/
namespace Sys2Proof.Machine

/-! Active commands (R411). -/

section
variable {s : State} {q seq : Nat} {c : Cmd}

/-- A command that may issue is active, so its turn to become active has been. -/
theorem State.nextActive_of_mayIssue (h : s.mayIssue c = true) : s.nextActive c = false := by
  have hactive : c.active = true := by
    simp only [State.mayIssue, Bool.and_eq_true] at h
    exact h.1.1
  simp [State.nextActive, hactive]

theorem State.activate_of_mayIssue (hc : s.cmd q seq = some c) (h : s.mayIssue c = true) : s.activate q seq = s := by
  simp [State.activate, hc, State.nextActive_of_mayIssue h]

/-- Counting the active commands of an engine changes registers alone. -/
theorem State.refreshEngine_eq (s : State) (c : Cmd) : ∃ r, s.refreshEngine c = { s with regs := r } := by
  unfold State.refreshEngine
  split
  · exact ⟨s.regs, rfl⟩
  · dsimp only
    split
    · exact ⟨_, rfl⟩
    · split
      · exact ⟨_, rfl⟩
      · exact ⟨s.regs, rfl⟩

theorem State.activate_turn (hc : s.cmd q seq = some c) (h : s.nextActive c = true) :
    ∃ r, s.activate q seq = { s.setCmd { c with active := true, started := true } with regs := r } := by
  obtain ⟨r, hr⟩ := State.refreshEngine_eq (s.setCmd { c with active := true, started := true }) c
  refine ⟨r, Eq.trans ?_ hr⟩
  simp [State.activate, hc, h]

/-- A command that was replaced is found. -/
theorem State.cmd_setCmd_same (s : State) (c : Cmd) : (s.setCmd c).cmd c.queue c.seq = some c := Map.find_set_same ..

end

/-! The mover (R405 to R407). -/

/-- A command that the mover has served to byte n without a refusal. -/
def Cmd.served (c : Cmd) (n : Nat) : Cmd :=
  { c with progress := n, delayed := c.delayed || decide (0 % 8 ≠ 0), park := max c.park (0 % 8) }

theorem Cmd.served_eq (c : Cmd) (n : Nat) : c.served n = { c with progress := n } := by simp [Cmd.served]

section
variable {s u : State} {q seq n m total : Nat} {c : Cmd} {result : List Byte}

theorem State.moveOn_finished (h : c.progress = total) :
    s.moveOn c (.status 0) total result = s.finishCmd c St.ok result := by
  simp [State.moveOn, h, St.unitUnavailable, St.ok]

theorem State.moveOn_continues (h : c.progress ≠ total) : s.moveOn c (.status 0) total result = s.setCmd c := by
  simp [State.moveOn, h, St.unitUnavailable, St.ok]

theorem exec_move_copies (hc : s.cmd q seq = some c) (hkind : c.kind = 2) (hissue : s.mayIssue c = true)
    (hm : m = min n (c.cs.getD 2 0 - c.progress))
    (hlines : State.moveLines (s.cmdCtxt c .mover) (2 * (m / 128) + 4) s (c.cs.getD 0 0 + c.progress)
      (c.cs.getD 1 0 + c.progress) m = (.status 0, m, u)) :
    exec (.move q seq n 0 0) s = .next (u.moveOn { c with progress := c.progress + m } (.status 0) (c.cs.getD 2 0)
      (leBytes 8 (c.progress + m))) := by
  rw [← Cmd.served_eq]
  show execMove q seq n 0 0 s = _
  subst hm
  simp [-List.getD_eq_getElem?_getD, execMove, hc, State.activate_of_mayIssue hc hissue, hkind, hissue, hlines, St.refusedFull,
    St.refusedBudget, Cmd.served]

theorem exec_inlineWrite_writes (hc : s.cmd q seq = some c) (hkind : c.kind = 8) (hissue : s.mayIssue c = true)
    (hlines : State.inlineLines (s.cmdCtxt c .mover) 8 s (c.cs.getD 0 0 + c.progress) (c.payload.drop c.progress)
      = (.status 0, m, u)) :
    exec (.inlineWrite q seq 0 0) s =
      .next (u.moveOn { c with progress := c.progress + m } (.status 0) c.payload.length []) := by
  rw [← Cmd.served_eq]
  show execInlineWrite q seq 0 0 s = _
  simp [-List.getD_eq_getElem?_getD, execInlineWrite, hc, State.activate_of_mayIssue hc hissue, hkind, hissue, hlines,
    St.refusedFull, St.refusedBudget, Cmd.served]

end

/-! Collectives (R473, R474, R478, R479). -/

theorem exec_collective_arms {s u r : State} {q seq p : Nat} {c : Cmd} {d ranks : List Byte} (hc : s.cmd q seq = some c)
    (hkind : c.kind = 3) (hissue : s.mayIssue c = true) (hstack : s.boundStack c.target = some p)
    (hnew : s.colls.find (cmdKey q seq) = none) (haligned : c.cs.getD 0 0 % 64 = 0)
    (hdesc : s.vread ⟨some p, c.part, c.pasid, .engine⟩ (c.cs.getD 0 0) 128 = (.status 0, d, u)) (hsound : descStatus d = 0)
    (htable : u.vread ⟨some p, c.part, c.pasid, .engine⟩ (leAt d 32 8) (4 * leAt d 12 2) = (.status 0, ranks, r))
    (hranks : ∀ k, k < leAt d 12 2 → leAt ranks (4 * k) 4 < 2 ^ 18) :
    exec (.collective q seq) s = .next (r.collArm c (r.collOf c p d ranks)) := by
  have hgood : ((List.range (leAt d 12 2)).any fun i => decide (2 ^ 18 ≤ leAt ranks (4 * i) 4)) = false := by
    rw [List.any_eq_false]
    intro i hi
    have hlt := hranks i (List.mem_range.mp hi)
    simp only [decide_eq_true_eq]
    omega
  show execCollective q seq s = _
  simp only [execCollective, hc, State.activate_of_mayIssue hc hissue, Option.getD_some, hstack, hkind, hissue, hnew, haligned,
    hdesc, htable, hgood]
  simp [hsound, St.ok]

/-- A register of the port die's page is no counter of a collective engine. -/
theorem State.moduleId_bump_collective (s : State) (stack i n : Nat) (hi : i < 20) :
    (s.bump (Page.collective stack) i n).moduleId = s.moduleId := by
  unfold State.moduleId State.fld
  rw [State.reg_bump_other]
  exact regKey_ne_of_page (by simp only [Page.portDie, Page.collective, Page.hub]; omega) (by decide)
    (by simp only [Reg.CNT]; omega)

/-- The packet of a step sent again, as it stands in this module's list (R478). -/
def Coll.sentAgain (c : Coll) (p : Packet) : Packet :=
  { p with
    flags := 0, chseq := 0, part := c.part, jobTag := c.jobTag, collSeq := c.collSeq, sig := c.sig, src := p.dst, ackseq := c.key }

/-- A packet to this module goes to its own engines. -/
theorem collSend_local {s : State} {c : Coll} {p : Packet} (h : p.dst = s.moduleId) :
    collSend s c (p.dst, p.op) { p with flags := 0, chseq := 0 } =
      .go { s with collLocal := s.collLocal ++ [c.sentAgain p] } c := by
  simp [collSend, h, Coll.sentAgain]

theorem exec_collStepResend_local {s : State} {q seq : Nat} {c : Coll} {p : Packet} (hc : s.colls.find (cmdKey q seq) = some c)
    (hresend : c.resend = [p]) (hdst : p.dst = s.moduleId) (hopen : ({ c with resend := [] } : Coll).finished = false) :
    exec (.collStepResend q seq) s = .next (State.putColl { ((s.bump (Page.collective c.stack) 5 1).putColl
      { c with resend := [] }) with collLocal := s.collLocal ++ [({ c with resend := [] } : Coll).sentAgain p] }
      { c with resend := [] }) := by
  have hdst' : p.dst = ((s.bump (Page.collective c.stack) 5 1).putColl { c with resend := [] }).moduleId :=
    hdst.trans (s.moduleId_bump_collective c.stack 5 1 (by decide)).symm
  show execCollStepResend q seq s = _
  simp only [execCollStepResend, hc, hresend, List.length_singleton, List.foldl_cons, List.foldl_nil, Work.bind,
    collSend_local hdst', Work.settle, hopen]
  rfl

/-- Settles O20: the command is active or its turn has come, and its conditions select the branch that the statement names. -/
theorem engineCommandsComplete : Obligations.EngineCommandsComplete := by
  unfold Obligations.EngineCommandsComplete
  refine ⟨?_, ?_, ?_, ?_, ?_, ?_, ?_, ?_⟩
  · intro s u q seq n m c hc hkind hissue hm hend hlines
    rw [exec_move_copies hc hkind hissue hm hlines, State.moveOn_finished hend, hend]
  · intro s u q seq n m c hc hkind hissue hm hmore hlines
    rw [exec_move_copies hc hkind hissue hm hlines, State.moveOn_continues hmore]
  · intro s u q seq m c hc hkind hissue hm hle hlines
    have hend : c.progress + m = c.payload.length := by omega
    rw [exec_inlineWrite_writes hc hkind hissue hlines, State.moveOn_finished hend, hend]
  · rintro s q seq c hc rfl rfl hturn
    obtain ⟨r, hr⟩ := State.activate_turn hc hturn
    exact ⟨_, congrArg Host.Outcome.next hr, State.cmd_setCmd_same s { c with active := true, started := true }, rfl, rfl⟩
  · rintro s q seq c hc rfl rfl hheld
    have hexec : exec (.refusedRetry c.queue c.seq) s = .next (s.setCmd { c with held := 0, delayed := true }) := by
      show execRefusedRetry c.queue c.seq s = _
      simp [execRefusedRetry, hc, hheld]
    exact ⟨_, hexec, State.cmd_setCmd_same s { c with held := 0, delayed := true }, rfl⟩
  · intro s u r q seq p c d ranks hc hkind hissue hstack hnew haligned hdesc hsound htable hranks
    exact exec_collective_arms hc hkind hissue hstack hnew haligned hdesc hsound htable hranks
  · intro s q seq c hc hlate
    show execCollTimeout q seq s = _
    simp only [execCollTimeout, hc, if_pos hlate]
  · intro s q seq c p hc hkey hresend hdst hopen
    refine ⟨_, _, exec_collStepResend_local hc hresend hdst hopen, rfl, rfl, rfl, rfl, rfl, ?_, ?_, rfl⟩
    · rw [← hkey]
      exact Map.find_set_same ..
    · exact s.reg_bump_same (Page.collective c.stack) 5 1

end Sys2Proof.Machine

/-!
Commands that no engine runs (O19): the completion entry of a FENCE, BARRIER, EVENT, QUERY, and the fetch of a slot.
-/
namespace Sys2Proof.Machine

/-! An access that no hub's copy translates leaves registers alone. -/

section
variable (s : State)

theorem State.iommu_regs (dev pasid va : Nat) (write : Bool) : (s.iommu dev pasid va write).2.2.regs = s.regs := by
  unfold State.iommu
  split
  · rfl
  · rfl
  · rfl
  · split <;> rfl

theorem State.translate_regs (dev pasid va : Nat) (write : Bool) : (s.translate none dev pasid va write).2.regs = s.regs :=
  s.iommu_regs dev pasid va write

theorem State.endResv_regs (line : Nat) : (s.endResv line).regs = s.regs := by
  unfold State.endResv
  split <;> rfl

theorem State.physWrite_regs (part : Nat) (who : Who) (a : Nat) (bs : List Byte) :
    (s.physWrite part who a bs).2.regs = s.regs := by
  unfold State.physWrite
  dsimp only
  split
  · refine foldl_keeps State.regs (fun s p => ?_) s
    exact keeps_ite State.regs (State.endResv_regs ..) (State.endResv_regs ..)
  · rfl

end

theorem State.virtWrite_regs {x : Ctxt} (hx : x.stack = none) (fuel : Nat) (s : State) (va : Nat) (bs : List Byte) :
    (State.virtWrite x fuel s va bs).2.2.regs = s.regs := by
  induction fuel generalizing s va bs with
  | zero => rfl
  | succ fuel ih =>
    have htranslate := s.translate_regs x.part x.pasid va true
    unfold State.virtWrite
    rw [hx]
    split
    · rfl
    · dsimp only
      split
      · split
        · exact (ih ..).trans ((State.physWrite_regs ..).trans htranslate)
        · exact htranslate
      · exact htranslate
      · exact htranslate
      · exact htranslate

/-- The queue block writes its entries past the hubs' copies, and leaves registers alone (Table 13-2). -/
theorem State.vwrite_queueCtxt_regs (s : State) (q va : Nat) (bs : List Byte) :
    (s.vwrite (s.queueCtxt q) va bs).2.2.regs = s.regs := State.virtWrite_regs rfl ..

/-! The completion of a command (R408). -/

section
variable {s r : State} {q seq : Nat}

/-- A command that is done has left the table. -/
theorem State.cmd_cmdDone (s : State) (q seq : Nat) : (s.cmdDone q seq).cmd q seq = none := Map.find_drop_same ..

/-- Of a queue's block, a command that is done changes the list of completed numbers alone. -/
theorem State.queue_cmdDone (s : State) (q seq : Nat) :
    ((s.cmdDone q seq).queue q).unread = (s.queue q).unread ∧ ((s.cmdDone q seq).queue q).cqTail = (s.queue q).cqTail := by
  unfold State.cmdDone
  dsimp only
  rw [State.queue_setQfld, State.queue_setQfld, State.queue_modQueue]
  exact ⟨rfl, rfl⟩

theorem State.cmdDone_mem (s : State) (q seq : Nat) : (s.cmdDone q seq).mem = s.mem := rfl

/-- A command of a queue that no entry waits in is completed by its entry. -/
theorem State.complete_writes {c : Cmd} {status park : Nat} {result : List Byte} (hc : s.cmd q seq = some c) (hfwd : c.fwd = none)
    (hstalled : (s.queue q).stalled = []) : s.complete q seq status park result =
      s.writeEntry q seq (entryBytes c.cmdId status park c.kind q result) (c.flags.testBit 1) := by
  rw [State.cmd] at hc
  simp [State.complete, hc, hfwd, hstalled]

/-- The queue after the entry at the tail of its ring has been written: the tail moves on, and one more entry is unread. -/
def State.entryWritten (r : State) (q : Nat) (last : Bool) : State :=
  r.modQueue q fun x => { x with
    cqTail := if last then 0 else x.cqTail + 1
    phase := if last then !x.phase else x.phase
    unread := x.unread + 1 }

/-- An entry of a queue that is bound to no virtual function, written into its ring (R408). -/
theorem State.writeEntry_written {base n : Nat} {entry : List Byte} (hport : s.queuePort q ≠ Q.hostVf)
    (hbase : s.addrReg (Page.queueBlock q) (qOff q 8) = some base)
    (hwrite : s.vwrite (s.queueCtxt q) (base + 32 * (s.queue q).cqTail) (listSet entry 5
      (BitVec.ofNat 8 ((entry.getD 5 0).toNat % 128 + if (s.queue q).phase then 128 else 0))) = (.status 0, n, r)) :
    s.writeEntry q seq entry false =
      (r.entryWritten q (decide (s.ringSize q ≤ (s.queue q).cqTail + 1))).cmdDone q seq := by
  unfold State.writeEntry
  extract_lets qs lost
  rw [if_neg fun h => hport h.1, hbase]
  dsimp only
  rw [hwrite]
  rfl

end

theorem exec_fence_starts {s : State} {q seq : Nat} {c : Cmd} (hc : s.cmd q seq = some c) (hkind : c.kind = 9)
    (hstart : s.mayStart c = true) : exec (.fence q seq) s = .next (s.complete q seq St.ok 0 []) := by
  show execFence q seq s = _
  simp [execFence, hc, hkind, hstart]

theorem exec_barrier_reached {s : State} {q seq : Nat} {c : Cmd} (hc : s.cmd q seq = some c) (hkind : c.kind = 6)
    (hstart : s.mayStart c = true)
    (hreached : ∀ e ∈ barrierEntries c, seqLe e.2 (bits (s.qreg e.1 Q.stat) 31 0) = true) :
    exec (.barrier q seq) s = .next (s.complete q seq St.ok 0 []) := by
  have hall := List.all_eq_true.mpr hreached
  show execBarrier q seq s = _
  simp only [execBarrier, hc, hkind, hstart, hall]
  rfl

theorem exec_event_posts {s : State} {q seq : Nat} {c : Cmd} (hc : s.cmd q seq = some c) (hkind : c.kind = 7)
    (hstart : s.mayStart c = true) : exec (.event q seq) s =
      .next ((s.genEvent (Page.queueBlock q) (0x8000 + c.cs.getD 0 0 % 2 ^ 15) c.part
        (BitVec.ofNat 64 (c.cs.getD 1 0))).complete q seq St.ok 0 []) := by
  show execEvent q seq s = _
  simp only [execEvent, hc, if_pos (And.intro hkind hstart)]

theorem exec_query_reads {s a b : State} {q seq page : Nat} {c : Cmd} {k : PageKind} {v0 v1 : Word} (hc : s.cmd q seq = some c)
    (hkind : c.kind = 10) (hstart : s.mayStart c = true) (hpage : page = c.cs.getD 0 0 % 2 ^ 14)
    (hk : pageKind page = some k) (hiommu : page ≠ 0x102) (hreached : s.unreached page = false)
    (h0 : s.mayRead (s.queueIdent q) page (natBits (c.cs.getD 1 0) 11 0) = true)
    (h1 : s.mayRead (s.queueIdent q) page (natBits (c.cs.getD 1 0) 27 16) = true)
    (hv0 : s.queryValue (s.queueIdent q) page (natBits (c.cs.getD 1 0) 11 0) = (v0, a))
    (hv1 : a.queryValue (s.queueIdent q) page (natBits (c.cs.getD 1 0) 27 16) = (v1, b)) :
    exec (.query q seq) s = .next (b.complete q seq St.ok 0
      (leBytes 8 v0.toNat ++ leBytes 8 v1.toNat ++ leBytes 2 (s.epoch page) ++ leBytes 1 (s.pageState page))) := by
  have hfile : ¬ (pageKind page = none ∨ page = 0x102) := by simp [hk, hiommu]
  show execQuery q seq s = _
  simp only [execQuery, hc, ← hpage, hkind, hstart, hreached, h0, h1, hv0, hv1, if_neg hfile]
  rfl

/-! The fetch of a slot (R396, R397, R399). -/

theorem exec_commandFetch_reads {s u : State} {q base : Nat} {b : List Byte} (hon : bits (s.qreg q Q.cfg) 63 63 = 1)
    (hbound : bits (s.qreg q Q.bind) 63 63 = 1) (hslot : bits (s.qreg q Q.stat) 59 48 ≠ bits (s.qreg q Q.tail) 11 0)
    (hroom : s.inFlight q + (s.queue q).unread < s.ringSize q) (hwait : (s.queue q).fetchWait = none)
    (hforward : s.forwardEntry q = none) (hbase : s.addrReg (Page.queueBlock q) (qOff q 0) = some base)
    (hread : s.vread (s.queueCtxt q) (base + 512 * bits (s.qreg q Q.stat) 59 48) 512 = (.status 0, b, u)) :
    exec (.commandFetch q) s = .next (u.takeSlot q b none) := by
  have hformed : ((s.forwardEntry q).isNone || decide (s.fld (Page.portDie 0) 0x118 31 31 = 1)) = true := by simp [hforward]
  show execCommandFetch q s = _
  simp only [execCommandFetch]
  rw [if_pos ⟨hon, hbound, hslot, hroom, hwait, hformed⟩]
  simp only [hbase, hread]
  rfl

/-- The command of a slot, with the queue's next sequence number (R397). -/
def State.slotCmd (s : State) (q : Nat) (b : List Byte) : Cmd :=
  { cmdOf q (s.queue q).nextSeq (s.queuePart q) (bits (s.qreg q Q.cfg) 58 56) (bit (s.qreg q Q.cfg) 62) s.useCtr b with
    fwd := (s.queue q).fwdIds.head? }

/-- The state in which the command of a slot is checked: it is in the table, and SQ_HEAD and the numbering moved on. -/
def State.slotTaken (s : State) (q : Nat) (b : List Byte) : State :=
  let s := { s with cmds := s.cmds.set (cmdKey q (s.queue q).nextSeq) (s.slotCmd q b), useCtr := s.useCtr + 1 }
  let s := s.modQueue q fun x => { x with nextSeq := (x.nextSeq + 1) % 2 ^ 32, fetchWait := none, fwdIds := x.fwdIds.drop 1 }
  let s := s.setQfld q Q.stat 59 48 ((bits (s.qreg q Q.stat) 59 48 + 1) % s.ringSize q)
  (s.setQfld q Q.stat 63 63 0).bump (Page.queueBlock q) 0

section
variable {s : State} {q : Nat} {b : List Byte}

theorem State.queue_bump (page i n p : Nat) : (s.bump page i n).queue p = s.queue p := rfl

/-- Taking a slot writes two registers of the queue's page: its QSTAT and the first counter. -/
theorem State.reg_slotTaken {p o : Nat} (hstat : regKey p o ≠ regKey (Page.queueBlock q) (qOff q Q.stat))
    (hcount : regKey p o ≠ regKey (Page.queueBlock q) Reg.CNT) : (s.slotTaken q b).reg p o = s.reg p o := by
  unfold State.slotTaken
  dsimp only
  rw [State.reg_bump_other _ _ _ _ hcount, State.setQfld, State.reg_setFld_other _ _ _ _ _ _ _ _ hstat, State.setQfld,
    State.reg_setFld_other _ _ _ _ _ _ _ _ hstat]
  rfl

theorem State.reg_slotTaken_other {p o : Nat} (hp : p ≠ Page.queueBlock q) (ho : o < 4096) :
    (s.slotTaken q b).reg p o = s.reg p o :=
  State.reg_slotTaken (regKey_ne_of_page hp ho (by simp only [qOff, Q.stat]; omega)) (regKey_ne_of_page hp ho (by decide))

theorem State.qreg_slotTaken_bind : (s.slotTaken q b).qreg q Q.bind = s.qreg q Q.bind :=
  State.reg_slotTaken (regKey_qOff_ne q (by decide)) (regKey_ne_of_offset (by simp only [qOff, Q.bind, Reg.CNT]; omega))

theorem State.cmd_slotTaken : (s.slotTaken q b).cmd q (s.queue q).nextSeq = some (s.slotCmd q b) := Map.find_set_same ..

theorem State.queue_slotTaken_nextSeq :
    ((s.slotTaken q b).queue q).nextSeq = ((s.queue q).nextSeq + 1) % 2 ^ 32 := by
  unfold State.slotTaken
  dsimp only
  rw [State.queue_bump, State.queue_setQfld, State.queue_setQfld, State.queue_modQueue]
  rfl

/-- Whether a queue forwards its commands does not depend on the slot that is taken (R469). -/
theorem State.forwardEntry_slotTaken : (s.slotTaken q b).forwardEntry q = s.forwardEntry q := by
  have hpanel : ∀ {p o : Nat}, p < 0x410 → o < 4096 → (s.slotTaken q b).reg p o = s.reg p o := fun hp ho =>
    State.reg_slotTaken_other (by simp only [Page.queueBlock]; omega) ho
  unfold State.forwardEntry State.addrReg State.fld
  rw [hpanel (p := Page.portDie 0) (by decide) (by decide), hpanel (p := Page.hostPort) (by decide) (by decide)]
  rfl

/-- The slot of a FENCE with no operands, from a port that may give one, passes the checks (R401). -/
theorem State.dispatchStatus_fence {t : State} {c : Cmd} (hkind : c.kind = 9) (htarget : c.target = 0)
    (hoperands : ∀ i < 4, c.cs.getD i 0 = 0) (hpayload : c.payload = []) (hport : t.queuePort c.queue ≠ Q.hostVf)
    (hallowed : bit (t.qreg c.queue Q.bind) 9 = true) : t.dispatchStatus c true = St.ok := by
  have hsound : kindSound c = true := by
    simp only [kindSound, hkind, htarget, hpayload, hoperands 0 (by decide), hoperands 1 (by decide), hoperands 2 (by decide),
      hoperands 3 (by decide)]
    rfl
  simp [State.dispatchStatus, hsound, hkind, hport, hallowed]

/-- A FENCE is counted at no hub's scheduler (Table 13-11). -/
theorem State.dispatchHub_fence {t : State} {c : Cmd} (hkind : c.kind = 9) : t.dispatchHub c = none := by
  simp [State.dispatchHub, hkind]

/-- A slot that was read and whose command is neither forwarded nor refused stays in the table (R396, R400). -/
theorem State.takeSlot_passes (hport : s.queuePort q ≠ Q.hostVf) (hforward : s.forwardEntry q = none)
    (hpasses : (s.slotTaken q b).dispatchStatus (s.slotCmd q b) (headSound b) = St.ok)
    (hhub : (s.slotTaken q b).dispatchHub (s.slotCmd q b) = none) : s.takeSlot q b none = s.slotTaken q b := by
  have hnative : decide (s.queuePort q = Q.hostVf ∧ s.fld Page.hostPort Reg.VER_ACTIVE 15 0 = 0x0300) = false := by simp [hport]
  have hslot : s.takeSlot q b none = match (s.slotTaken q b).forwardEntry q with
      | some (member, port) => (s.slotTaken q b).forward (s.slotCmd q b) b member port
      | none =>
        if (s.slotTaken q b).dispatchStatus (s.slotCmd q b) (headSound b) ≠ St.ok then
          (s.slotTaken q b).completeChecked q (s.slotCmd q b).seq
            ((s.slotTaken q b).dispatchStatus (s.slotCmd q b) (headSound b))
        else match (s.slotTaken q b).dispatchHub (s.slotCmd q b) with
          | some h => if (s.slotCmd q b).rt then (s.slotTaken q b).bump (Page.scheduler h) 12 else s.slotTaken q b
          | none => s.slotTaken q b := by
    unfold State.takeSlot
    rw [hnative]
    rfl
  rw [hslot, State.forwardEntry_slotTaken, hforward]
  simp only [hpasses, hhub]
  rfl

/-- The words of a slot's command. -/
theorem State.slotCmd_word {i : Nat} (hi : i < 4) : (s.slotCmd q b).cs.getD i 0 = leAt b (32 + 8 * i) 8 := by
  simp [State.slotCmd, cmdOf, List.getD_eq_getElem?_getD, hi]

end

/-- Settles O19: the conditions of each command select the branch in which it completes; a FENCE's completion is one entry written
past the hubs' copies, and a fetched FENCE passes the checks of its slot. -/
theorem commandsComplete : Obligations.CommandsComplete := by
  unfold Obligations.CommandsComplete
  refine ⟨?_, ?_, ?_, ?_, ?_, ?_⟩
  · intro s r q seq base n c hc hkind hstart hfwd hirq hstalled hport hbase hwrite
    have hregs : r.regs = s.regs := (congrArg (·.2.2.regs) hwrite).symm.trans (State.vwrite_queueCtxt_regs ..)
    have hring : r.ringSize q = s.ringSize q := by
      unfold State.ringSize State.qreg State.reg
      rw [hregs]
    have hexec : exec (.fence q seq) s =
        .next ((r.entryWritten q (decide (s.ringSize q ≤ (s.queue q).cqTail + 1))).cmdDone q seq) := by
      rw [exec_fence_starts hc hkind hstart, State.complete_writes hc hfwd hstalled, hirq, hkind,
        State.writeEntry_written hport hbase hwrite]
    obtain ⟨hunread, htail⟩ := State.queue_cmdDone (r.entryWritten q (decide (s.ringSize q ≤ (s.queue q).cqTail + 1))) q seq
    refine ⟨_, hexec, State.cmd_cmdDone .., State.cmdDone_mem .., ?_, ?_⟩
    · rw [hunread, State.entryWritten, State.queue_modQueue]
    · rw [htail, State.entryWritten, State.queue_modQueue, hring]
      simp
  · intro s q seq c hc hkind hstart hreached
    exact exec_barrier_reached hc hkind hstart hreached
  · intro s q seq c hc hkind hstart
    exact exec_event_posts hc hkind hstart
  · intro s a b q seq page c k v0 v1 hc hkind hstart hpage hk hiommu hreached h0 h1 hv0 hv1
    exact exec_query_reads hc hkind hstart hpage hk hiommu hreached h0 h1 hv0 hv1
  · intro s u q base b hon hbound hslot hroom hwait hforward hbase hread
    exact exec_commandFetch_reads hon hbound hslot hroom hwait hforward hbase hread
  · intro s q b hport hforward hhead hkind hwords htarget hlen hallowed
    have hpasses : (s.slotTaken q b).dispatchStatus (s.slotCmd q b) (headSound b) = St.ok := by
      rw [hhead]
      refine State.dispatchStatus_fence hkind htarget (fun i hi => (State.slotCmd_word hi).trans (hwords i hi)) ?_ ?_ ?_
      · simp [State.slotCmd, cmdOf, hlen]
      · exact (congrArg (bits · 59 56) State.qreg_slotTaken_bind).trans_ne hport
      · exact (congrArg (bit · 9) State.qreg_slotTaken_bind).trans hallowed
    rw [State.takeSlot_passes hport hforward hpasses (State.dispatchHub_fence hkind)]
    exact ⟨_, State.cmd_slotTaken, hkind, rfl, rfl, State.queue_slotTaken_nextSeq, rfl⟩

end Sys2Proof.Machine

/-!
The memory of a state, function by function (log row 4).

Almost every function of the model leaves memory as it was: `State.f_mem` says so, once for each, and `simp` uses it. The rest
write memory through the operations of `Memory`, which keep its canonical form: `State.f_wf` says that.
-/

namespace Sys2Proof.Machine

-- One proof at a time: each thread of Lean reserves a stack, and together they would pass the check's memory limit.
set_option Elab.async false

/-! Folds and branches. -/

theorem foldl_inv {α γ : Type} {P : γ → Prop} (l : List α) {f : γ → α → γ} (hf : ∀ a x, P a → P (f a x)) {a : γ} (ha : P a) :
    P (l.foldl f a) :=
  List.foldlRecOn l f ha fun b hb x _ => hf b x hb

@[simp] theorem State.mem_foldl {α : Type} {f : State → α → State} (h : ∀ (s : State) (x : α), (f s x).mem = s.mem) (l : List α) (s : State) :
    (l.foldl f s).mem = s.mem :=
  foldl_inv (P := fun t : State => t.mem = s.mem) l (fun t x ht => (h t x).trans ht) rfl

theorem State.foldl_wf {α : Type} {f : State → α → State} (h : ∀ (s : State) (x : α), s.mem.wf = true → (f s x).mem.wf = true) (l : List α)
    {s : State} (hs : s.mem.wf = true) : (l.foldl f s).mem.wf = true :=
  foldl_inv (P := fun t : State => t.mem.wf = true) l h hs

theorem Safe.of_mem {s t : State} (h : Safe s) (e : t.mem = s.mem) : Safe t := (congrArg Memory.wf e).trans h

theorem Safe.foldl {α : Type} {f : State → α → State} (h : ∀ (s : State) (x : α), Safe s → Safe (f s x)) (l : List α)
    {s : State} (hs : Safe s) : Safe (l.foldl f s) :=
  foldl_inv (P := Safe) l h hs

section Kept

variable (s : State)

/-! Ops. -/

@[simp] theorem State.enterState_mem (page st : Nat) : (s.enterState page st).mem = s.mem := by
  unfold State.enterState
  simp [apply_ite State.mem]

@[simp] theorem State.lastStatus_mem (page st : Nat) : (s.lastStatus page st).mem = s.mem := rfl

@[simp] theorem State.free_mem : s.free.2.mem = s.mem := rfl

@[simp] theorem State.genEventAs_mem (page code cls sev part : Nat) (payload : Word) (forced : Bool) : (s.genEventAs page
    code cls sev part payload forced).mem = s.mem := by
  unfold State.genEventAs
  simp [apply_ite State.mem]

@[simp] theorem State.genLimited_mem (key page code part : Nat) (payload : Word) : (s.genLimited key page code part
    payload).mem = s.mem := by
  unfold State.genLimited
  split <;> simp

@[simp] theorem State.multiMatch_mem (page table index n : Nat) : (s.multiMatch page table index n).mem = s.mem := by
  unfold State.multiMatch
  simp

/-! Translate. -/

@[simp] theorem State.recordFault_mem (dev pasid va st : Nat) : (s.recordFault dev pasid va st).mem = s.mem := rfl

@[simp] theorem State.tlbCount_mem (stack : Nat) : (s.tlbCount stack).mem = s.mem := rfl

@[simp] theorem State.tlbDrop_mem (stack : Nat) (p : TlbEntry → Bool) : (s.tlbDrop stack p).mem = s.mem := rfl

/-! Buckets. -/

@[simp] theorem State.setBucket_mem (page point part : Nat) (b : Bucket) : (s.setBucket page point part b).mem = s.mem :=
    rfl

@[simp] theorem State.regulate_mem (page point part n : Nat) : (s.regulate page point part n).2.mem = s.mem := by
  grind [State.regulate, State.bump_mem, State.bumpUnits_mem, State.setBucket_mem]

@[simp] theorem State.chargeForced_mem (page point part n : Nat) : (s.chargeForced page point part n).mem = s.mem := by
  unfold State.chargeForced
  simp [apply_ite State.mem]

/-! Access. -/

@[simp] theorem State.endResv_mem (line : Nat) : (s.endResv line).mem = s.mem := by
  unfold State.endResv
  split <;> rfl

@[simp] theorem State.pageRequest_mem (x : Ctxt) (va : Nat) (w : Waiter) : (s.pageRequest x va w).mem = s.mem := by
  unfold State.pageRequest
  simp [apply_ite State.mem]

/-! Transport. -/

@[simp] theorem State.emitFlit_mem (f : Nat) (hdr : Word) (payload : List Byte) : (s.emitFlit f hdr payload).mem = s.mem :=
    rfl

@[simp] theorem State.pumpFlits_mem (f vc n : Nat) (s : State) : (State.pumpFlits f vc n s).mem = s.mem := by
  induction n generalizing s with
  | zero => rfl
  | succ n ih =>
    unfold State.pumpFlits
    dsimp only
    split
    · rfl
    · exact ih _

@[simp] theorem State.transmit_mem (f : Nat) (p : Packet) : (s.transmit f p).mem = s.mem := by
  unfold State.transmit
  simp

@[simp] theorem State.sendOn_mem (key f : Nat) (p : Packet) (owner : Owner) : (s.sendOn key f p owner).mem = s.mem := by
  unfold State.sendOn
  simp

@[simp] theorem State.channelDead_mem (key part : Nat) : (s.channelDead key part).mem = s.mem := by
  unfold State.channelDead
  simp

@[simp] theorem State.sendPacket_mem (p : Packet) (owner : Owner) : (s.sendPacket p owner).2.mem = s.mem := by
  grind [State.sendPacket, State.channelDead_mem, State.sendOn_mem, State.multiMatch_mem]

@[simp] theorem State.sendLoose_mem (p : Packet) : (s.sendLoose p).mem = s.mem := by
  grind [State.sendLoose, State.regulate_mem, State.transmit_mem]

@[simp] theorem State.sendGroup_mem (f : Nat) (p : Packet) (owner : Owner) : (s.sendGroup f p owner).2.mem = s.mem := by
  unfold State.sendGroup
  split <;> simp

/-! Complete. -/

@[simp] theorem State.imsicWrite_mem (off data : Nat) : (s.imsicWrite off data).mem = s.mem := by
  unfold State.imsicWrite
  (repeat' split) <;> simp

@[simp] theorem State.msiDropped_mem : s.msiDropped.mem = s.mem := rfl

@[simp] theorem State.msixSend_mem (fn entry : Nat) : (s.msixSend fn entry).mem = s.mem := by
  unfold State.msixSend
  simp [apply_ite State.mem]

@[simp] theorem State.setQfld_mem (q r hi lo n : Nat) : (s.setQfld q r hi lo n).mem = s.mem := rfl

/-! Rights. -/

@[simp] theorem State.denied_mem (i : Ident) : (s.denied i).mem = s.mem := by
  unfold State.denied
  split <;> rfl

@[simp] theorem State.lockTouch_mem (i : Ident) (page : Nat) : (s.lockTouch i page).mem = s.mem := by
  unfold State.lockTouch
  split <;> rfl

@[simp] theorem State.plainWrite_mem (page off : Nat) (v : Word) : (s.plainWrite page off v).mem = s.mem := by
  unfold State.plainWrite
  (repeat' split) <;> simp

@[simp] theorem State.storeWrite_mem (page off : Nat) (v : Word) : (s.storeWrite page off v).mem = s.mem := by
  unfold State.storeWrite
  (repeat' split) <;> simp

/-! Regulator. -/

@[simp] theorem regIndexEff_mem (page : Nat) (v : Word) : (regIndexEff page v s).mem = s.mem := by
  unfold regIndexEff
  split <;> simp

@[simp] theorem regDataEff_mem (page : Nat) (v : Word) : (regDataEff page v s).mem = s.mem := rfl

/-! Cache. -/

@[simp] theorem State.cachePut_mem (c : CacheLine) : (s.cachePut c).mem = s.mem := rfl

@[simp] theorem State.cacheDrop_mem (stack line : Nat) : (s.cacheDrop stack line).mem = s.mem := rfl

@[simp] theorem State.keepUsed_mem (stack part : Nat) : (s.keepUsed stack part).mem = s.mem := rfl

@[simp] theorem State.scratch_mem (stack line : Nat) : (s.scratch stack line).2.mem = s.mem := by
  unfold State.scratch
  (repeat' split) <;> simp

@[simp] theorem State.poisonWrite_mem (stack line : Nat) : (s.poisonWrite stack line).mem = s.mem := rfl

@[simp] theorem State.writeBack_mem (l : CacheLine) : (s.writeBack l).mem = s.mem := by
  unfold State.writeBack
  split <;> simp

@[simp] theorem State.cacheEvict_mem (l : CacheLine) : (s.cacheEvict l).mem = s.mem := by
  unfold State.cacheEvict
  split <;> simp

@[simp] theorem State.cacheInstall_mem (stack line : Nat) (cls : CacheClass) (tag part : Nat) (pref : Bool) :
    (s.cacheInstall stack line cls tag part pref).mem = s.mem := by
  grind [State.cacheInstall, State.cachePut_mem, State.keepUsed_mem, State.bump_mem, State.cacheEvict_mem]

@[simp] theorem State.cacheTouch_mem (l : CacheLine) (hint tag part : Nat) : (s.cacheTouch l hint tag part).mem = s.mem :=
    by
  unfold State.cacheTouch
  simp [apply_ite State.mem]

@[simp] theorem State.cacheEcc_mem (l : CacheLine) (e : Ecc) : (s.cacheEcc l e).2.mem = s.mem := by
  unfold State.cacheEcc
  (repeat' split) <;> simp

@[simp] theorem State.modPf_mem (stack : Nat) (f : Prefetch → Prefetch) : (s.modPf stack f).mem = s.mem := rfl

@[simp] theorem State.pfTrain_mem (stack req part pasid va cycle : Nat) (stream : Bool) : (s.pfTrain stack req part pasid va
    cycle stream).mem = s.mem := by
  grind [State.pfTrain, State.modPf_mem]

@[simp] theorem State.pfFollow_mem (stack req va cycle : Nat) : (s.pfFollow stack req va cycle).mem = s.mem := rfl

@[simp] theorem State.fetchBad_mem (stack line bad : Nat) : (s.fetchBad stack line bad).mem = s.mem := by
  unfold State.fetchBad
  split <;> simp

@[simp] theorem State.agentEvict_mem (agent line : Nat) : (s.agentEvict agent line).mem = s.mem := by
  unfold State.agentEvict
  split <;> rfl

@[simp] theorem State.nearDrop_mem (l : CacheLine) : (s.nearDrop l).mem = s.mem := by
  unfold State.nearDrop
  split <;> simp

@[simp] theorem State.nearInstall_mem (stack line : Nat) (pref : Bool) : (s.nearInstall stack line pref).mem = s.mem := by
  grind [State.nearInstall, State.cachePut_mem, State.nearDrop_mem, State.agentEvict_mem]

@[simp] theorem State.cacheFlush_mem (stack : Nat) : (s.cacheFlush stack).mem = s.mem := by
  unfold State.cacheFlush
  simp [apply_ite State.mem]

@[simp] theorem State.cacheDropDevice_mem (stack dev : Nat) : (s.cacheDropDevice stack dev).mem = s.mem := by
  unfold State.cacheDropDevice
  exact State.mem_foldl (fun s l => by simp) _ _

@[simp] theorem State.keepSweep_mem (stack part tag : Nat) : (s.keepSweep stack part tag).mem = s.mem := rfl

@[simp] theorem keepReleaseEff_mem (page : Nat) (v : Word) : (keepReleaseEff page v s).mem = s.mem := by
  unfold keepReleaseEff
  simp [apply_ite State.mem]

@[simp] theorem cacheCtlEff_mem (page : Nat) (v : Word) : (cacheCtlEff page v s).mem = s.mem := by
  unfold cacheCtlEff
  split <;> simp

@[simp] theorem prefetchCtlEff_mem (page : Nat) (v : Word) : (prefetchCtlEff page v s).mem = s.mem := by
  unfold prefetchCtlEff
  simp

/-! Coherence. -/

@[simp] theorem State.arrived_mem (k : MsgKind) (src line : Nat) : (s.arrived k src line).mem = s.mem := by
  unfold State.arrived
  split <;> rfl

@[simp] theorem State.delivered_mem (k : MsgKind) (dst line : Nat) : (s.delivered k dst line).mem = s.mem := by
  unfold State.delivered
  split <;> rfl

@[simp] theorem State.dirStat_mem (home : Nat) : (s.dirStat home).mem = s.mem := rfl

@[simp] theorem State.snoop_mem (home line : Nat) (k : MsgKind) (req agent : Nat) : (s.snoop home line k req agent).mem =
    s.mem := rfl

@[simp] theorem State.grantLine_mem (k : MsgKind) (m : Msg) : (s.grantLine k m).mem = s.mem := rfl

@[simp] theorem State.openTxn_mem (m : Msg) (waits : List Nat) (ack : Bool) : (s.openTxn m waits ack).mem = s.mem := rfl

@[simp] theorem State.dirEvict_mem (home set : Nat) : (s.dirEvict home set).mem = s.mem := by
  rw [State.dirEvict]
  split
  · rfl
  · split
    · rw [State.openTxn_mem, State.snoop_mem, State.bump_mem]
    · rw [State.openTxn_mem, State.mem_foldl (fun s g => s.snoop_mem ..), State.bump_mem]

@[simp] theorem State.refuseRequest_mem (m : Msg) (status : Nat) : (s.refuseRequest m status).mem = s.mem := by
  unfold State.refuseRequest
  split <;> rfl

/-! CoreMem. -/

@[simp] theorem State.countEcc_mem (c : Nat) (e : Ecc) : (s.countEcc c e).mem = s.mem := by
  unfold State.countEcc
  split <;> rfl

/-! CoreStream. -/

@[simp] theorem State.tokenFault_mem (c t st faddr : Nat) : (s.tokenFault c t st faddr).mem = s.mem := rfl

/-! Tasks. -/

@[simp] theorem State.modTask_mem (t : Nat) (f : Task → Task) : (s.modTask t f).mem = s.mem := by
  unfold State.modTask
  split <;> rfl

@[simp] theorem State.refreshTaskStat_mem (st : Nat) : (s.refreshTaskStat st).mem = s.mem := rfl

@[simp] theorem State.refreshLead_mem (t : Task) : (s.refreshLead t).mem = s.mem := by
  unfold State.refreshLead
  split <;> rfl

@[simp] theorem State.freeCore_mem (c : Nat) : (s.freeCore c).mem = s.mem := rfl

@[simp] theorem State.preemptDone_mem (t : Task) : (s.preemptDone t).mem = s.mem := by
  unfold State.preemptDone
  (repeat' split) <;> simp

/-! CoreEvents. -/

@[simp] theorem State.coreData_mem (c fpc faddr : Nat) (finstr : Word) (arrays : Bool) : (s.coreData c fpc faddr finstr
    arrays).mem = s.mem := by
  unfold State.coreData
  split <;> simp

@[simp] theorem State.startHead_mem (c : Nat) (ecc : Ecc) : (s.startHead c ecc).mem = s.mem := by
  grind [State.startHead, State.countEcc_mem, State.setCore_mem, State.coreData_mem]

@[simp] theorem State.returnCredit_mem (c port : Nat) : (s.returnCredit c port).mem = s.mem := by
  grind [State.returnCredit, State.modCore_mem, State.setCore_mem]

/-! Rounds. -/

@[simp] theorem State.refreshRoundStat_mem (stack cause : Nat) : (s.refreshRoundStat stack cause).mem = s.mem := by
  unfold State.refreshRoundStat
  split <;> rfl

@[simp] theorem State.putStage_mem (g : Stage) : (s.putStage g).mem = s.mem := rfl

/-! Queues. -/

@[simp] theorem State.refreshOwner_mem (st : Nat) : (s.refreshOwner st).mem = s.mem := by
  unfold State.refreshOwner
  simp [apply_ite State.mem]

@[simp] theorem State.refreshOwners_mem : s.refreshOwners.mem = s.mem := by
  unfold State.refreshOwners
  simp

@[simp] theorem State.partStatus_mem (p st : Nat) : (s.partStatus p st).mem = s.mem := rfl

theorem State.partWrite_mem {eff : State → State} (h : ∀ s, (eff s).mem = s.mem) (p expected : Nat) (clash : Bool) :
    (s.partWrite p expected clash eff).mem = s.mem := by
  unfold State.partWrite
  (repeat' split) <;> simp [h]

@[simp] theorem partCtlEff_mem (p : Nat) (v : Word) : (partCtlEff p v s).mem = s.mem := by
  grind [partCtlEff, State.partWrite, State.partStatus_mem, State.setFld_mem, State.refreshOwners_mem]

@[simp] theorem partStacksEff_mem (p : Nat) (v : Word) : (partStacksEff p v s).mem = s.mem := by
  grind [partStacksEff, State.partWrite, State.partStatus_mem, State.setReg_mem, State.refreshOwners_mem]

@[simp] theorem partSrvEff_mem (p j : Nat) (v : Word) : (partSrvEff p j v s).mem = s.mem := by
  unfold partSrvEff
  exact State.partWrite_mem _ (fun s => by simp) ..

@[simp] theorem State.doorbellIgnored_mem (q : Nat) : (s.doorbellIgnored q).mem = s.mem := rfl

@[simp] theorem sqTailEff_mem (i : Ident) (q : Nat) (v : Word) : (sqTailEff i q v s).mem = s.mem := by
  unfold sqTailEff
  split <;> rfl

@[simp] theorem cqHeadEff_mem (i : Ident) (q : Nat) (v : Word) : (cqHeadEff i q v s).mem = s.mem := by
  unfold cqHeadEff
  simp [apply_ite State.mem]

@[simp] theorem State.enableQueue_mem (q : Nat) : (s.enableQueue q).mem = s.mem := by
  unfold State.enableQueue
  split <;> rfl

@[simp] theorem qbindEff_mem (i : Ident) (q : Nat) (v : Word) : (qbindEff i q v s).mem = s.mem := by
  unfold qbindEff
  split <;> simp

@[simp] theorem State.refreshEngine_mem (c : Cmd) : (s.refreshEngine c).mem = s.mem := by
  unfold State.refreshEngine
  (repeat' split) <;> simp

@[simp] theorem State.activate_mem (q seq : Nat) : (s.activate q seq).mem = s.mem := by
  unfold State.activate
  (repeat' split) <;> simp

/-! Scheduler. -/

@[simp] theorem State.holdPage_mem (c : Cmd) (x : Ctxt) (va : Nat) : (s.holdPage c x va).mem = s.mem := by
  unfold State.holdPage
  simp

@[simp] theorem State.beginPreempt_mem (key : Nat) (t : Task) (cheap : Bool) : (s.beginPreempt key t cheap).mem = s.mem := by
  unfold State.beginPreempt
  dsimp only
  split
  · rw [State.mem_foldl (fun s c => s.modCore_mem ..), State.setTask_mem]
  · simp

@[simp] theorem State.saveFailed_mem (c key st : Nat) : (s.saveFailed c key st).mem = s.mem := by
  unfold State.saveFailed
  (repeat' split) <;> simp

@[simp] theorem preemptReqEff_mem (i : Ident) (stack : Nat) (v : Word) : (preemptReqEff i stack v s).mem = s.mem := by
  grind [preemptReqEff, State.setTask_mem, State.setFld_mem, State.storeWrite_mem]

@[simp] theorem rtReserveEff_mem (stack : Nat) (v : Word) : (rtReserveEff stack v s).mem = s.mem := by
  unfold rtReserveEff
  simp [apply_ite State.mem]

/-! Mover. -/

@[simp] theorem State.countHost_mem (pa counter n st : Nat) : (s.countHost pa counter n st).mem = s.mem := by
  unfold State.countHost
  (repeat' split) <;> simp

/-! Collective. -/

@[simp] theorem State.keepNote_mem (n : KeptNote) : (s.keepNote n).mem = s.mem := rfl

@[simp] theorem State.straggleAt_mem (stack jobTag collSeq us : Nat) : (s.straggleAt stack jobTag collSeq us).mem = s.mem :=
    by
  grind [State.straggleAt, State.keepNote_mem, State.putColl_mem, State.bump_mem]

/-! Fabric. -/

@[simp] theorem State.winDrop_mem (part slot off status : Nat) : (s.winDrop part slot off status).mem = s.mem := by
  unfold State.winDrop
  simp

@[simp] theorem State.flushDone_mem (part slot : Nat) : (s.flushDone part slot).mem = s.mem := rfl

@[simp] theorem State.completionAgain_mem (n : Nat) (s : State) (port : Nat) (p : Packet) (q seq : Nat) :
    (State.completionAgain n s port p q seq).mem = s.mem := by
  induction n generalizing s with
  | zero => rfl
  | succ n ih =>
    unfold State.completionAgain
    dsimp only
    split <;> simp [ih]

@[simp] theorem State.resendChannel_mem (key : Nat) : (s.resendChannel key).mem = s.mem := by
  unfold State.resendChannel
  simp

@[simp] theorem State.setLstate_mem (f n : Nat) : (s.setLstate f n).mem = s.mem := rfl

@[simp] theorem State.linkStatus_mem (f n : Nat) : (s.linkStatus f n).mem = s.mem := rfl

@[simp] theorem State.clearLink_mem (f : Nat) : (s.clearLink f).mem = s.mem := rfl

@[simp] theorem State.portIdle_mem (f status : Nat) : (s.portIdle f status).mem = s.mem := rfl

@[simp] theorem State.bringUp_mem (f : Nat) : (s.bringUp f).mem = s.mem := by
  unfold State.bringUp
  split <;> rfl

@[simp] theorem State.sendVintage_mem (f : Nat) : (s.sendVintage f).mem = s.mem := rfl

@[simp] theorem State.nullFlit_mem (f : Nat) (nak : Bool) : (s.nullFlit f nak).mem = s.mem := rfl

@[simp] theorem moduleCfgEff_mem (v : Word) : (moduleCfgEff v s).mem = s.mem := by
  unfold moduleCfgEff
  split <;> simp

/-! Packets. -/

@[simp] theorem State.ackPacket_mem (f : Nat) (p : Packet) (type status : Nat) : (s.ackPacket f p type status).mem = s.mem
    := by
  unfold State.ackPacket
  simp [apply_ite State.mem]

@[simp] theorem State.discard_mem (f : Nat) (p : Packet) (post : Bool) : (s.discard f p post).mem = s.mem := by
  unfold State.discard
  split <;> simp

@[simp] theorem State.forwardPacket_mem (f : Nat) (p : Packet) : (s.forwardPacket f p).mem = s.mem := by
  grind [State.forwardPacket, State.transmit_mem, State.multiMatch_mem, State.discard_mem]

@[simp] theorem State.respond_mem (p : Packet) (type : Nat) (payload : List Byte) : (s.respond p type payload).mem = s.mem
    := by
  unfold State.respond
  simp

@[simp] theorem State.stepAgain_mem (key : Nat) (p : Packet) : (s.stepAgain key p).mem = s.mem := by
  unfold State.stepAgain
  split <;> rfl

/-! Groups. -/

@[simp] theorem State.sendHellos_mem : s.sendHellos.mem = s.mem := by
  unfold State.sendHellos
  refine State.mem_foldl (fun s m => ?_) _ _
  (repeat' split) <;> simp

@[simp] theorem State.groupFormed_mem (master : Nat) : (s.groupFormed master).mem = s.mem := by
  unfold State.groupFormed
  simp

@[simp] theorem State.groupCheck_mem (late : Bool) : (s.groupCheck late).mem = s.mem := by
  grind [State.groupCheck, State.groupFormed_mem, State.genEvent_mem]

@[simp] theorem State.groupLimit_mem : s.groupLimit.mem = s.mem := by
  unfold State.groupLimit
  split <;> rfl

@[simp] theorem State.groupStart_mem : s.groupStart.mem = s.mem := by
  unfold State.groupStart
  split <;> simp

@[simp] theorem groupCtlEff_mem (v : Word) : (groupCtlEff v s).mem = s.mem := by
  unfold groupCtlEff
  split <;> simp

/-! HostPort. -/

@[simp] theorem State.msixRelease_mem (fn entry : Nat) : (s.msixRelease fn entry).mem = s.mem := by
  unfold State.msixRelease
  simp [apply_ite State.mem]

@[simp] theorem State.msixTableWrite_mem (fn off : Nat) (bs : List Byte) : (s.msixTableWrite fn off bs).mem = s.mem := by
  unfold State.msixTableWrite
  simp

@[simp] theorem State.winEntry_mem (part slot : Nat) : (s.winEntry part slot).2.mem = s.mem := by
  unfold State.winEntry
  split <;> rfl

@[simp] theorem winCtlEff_mem (v : Word) : (winCtlEff v s).mem = s.mem := by
  unfold winCtlEff
  split <;> rfl

@[simp] theorem State.releaseLock_mem (page : Nat) : (s.releaseLock page).mem = s.mem := rfl

/-! Gddr. -/

@[simp] theorem State.clampLoop_mem (page loop off bitAt : Nat) (holds : Bool) (bound val : Nat) : (s.clampLoop page loop
    off bitAt holds bound val).mem = s.mem := by
  unfold State.clampLoop
  simp [apply_ite State.mem]

@[simp] theorem gddrCfgEff_mem (page : Nat) (v : Word) : (gddrCfgEff page v s).mem = s.mem := by
  grind [gddrCfgEff, State.gddrRefresh_mem, State.storeWrite_mem]

@[simp] theorem State.gddrOffline_mem (st g cause : Nat) : (s.gddrOffline st g cause).mem = s.mem := by
  grind [State.gddrOffline, State.genEvent_mem, State.cacheDropDevice_mem, State.modGddr_mem, State.answer_mem,
    State.setFld_mem]

@[simp] theorem State.gddrBad_mem (st g line : Nat) : (s.gddrBad st g line).mem = s.mem := by
  unfold State.gddrBad
  simp

@[simp] theorem State.gddrFaulted_mem (st g cause : Nat) : (s.gddrFaulted st g cause).mem = s.mem := by
  unfold State.gddrFaulted
  simp

/-! Power. -/

@[simp] theorem State.refreshDie_mem (st d : Nat) : (s.refreshDie st d).mem = s.mem := by
  unfold State.refreshDie
  simp

@[simp] theorem State.refreshKeeper_mem (st d : Nat) : (s.refreshKeeper st d).mem = s.mem := by
  unfold State.refreshKeeper
  simp

@[simp] theorem State.refreshKeepers_mem : s.refreshKeepers.mem = s.mem := by
  unfold State.refreshKeepers
  simp

@[simp] theorem State.refreshCause_mem (c i : Nat) : (s.refreshCause c i).mem = s.mem := by
  unfold State.refreshCause
  split <;> simp

@[simp] theorem State.refreshBayRate_mem (b : Nat) : (s.refreshBayRate b).mem = s.mem := by
  unfold State.refreshBayRate
  simp [apply_ite State.mem]

@[simp] theorem State.warnActions_mem (c i : Nat) : (s.warnActions c i).mem = s.mem := by
  unfold State.warnActions
  (repeat' split) <;> simp

@[simp] theorem diePwrBoundEff_mem (page : Nat) (v : Word) : (diePwrBoundEff page v s).mem = s.mem := by
  unfold diePwrBoundEff
  (repeat' split) <;> simp

@[simp] theorem keepCtlEff_mem (page : Nat) (v : Word) : (keepCtlEff page v s).mem = s.mem := by
  unfold keepCtlEff
  split <;> simp

@[simp] theorem State.setTime_mem (t : Nat) : (s.setTime t).mem = s.mem := rfl

/-! Placement. -/

@[simp] theorem State.placeScan_mem (stack p : Nat) : (s.placeScan stack p).2.mem = s.mem := by
  unfold State.placeScan
  refine foldl_inv (P := fun a : Nat × List Place × State => a.2.2.mem = s.mem) _ (fun a e h => ?_) rfl
  dsimp only
  split <;> simp [h]

@[simp] theorem State.placeFind_mem (stack p va : Nat) : (s.placeFind stack p va).2.mem = s.mem := by
  unfold State.placeFind
  simp

@[simp] theorem State.poolEmpty_mem (page p : Nat) : (s.poolEmpty page p).mem = s.mem := by
  unfold State.poolEmpty
  simp

@[simp] theorem State.shootdown_mem (part vpage : Nat) : (s.shootdown part vpage).mem = s.mem := by
  unfold State.shootdown
  exact State.mem_foldl (fun s h => s.tlbDrop_mem h _) _ _

@[simp] theorem State.dropPromo_mem (part pasid va : Nat) : (s.dropPromo part pasid va).mem = s.mem := rfl

@[simp] theorem State.refreshRack_mem (stack : Nat) : (s.refreshRack stack).mem = s.mem := rfl

@[simp] theorem State.addMig_mem (m : Mig) : (s.addMig m).mem = s.mem := by
  unfold State.addMig
  split <;> rfl

@[simp] theorem State.putMig_mem (m : Mig) : (s.putMig m).mem = s.mem := rfl

@[simp] theorem State.removeMig_mem (m : Mig) : (s.removeMig m).mem = s.mem := rfl

@[simp] theorem State.deferMig_mem (m : Mig) : (s.deferMig m).mem = s.mem := rfl

@[simp] theorem State.rackRefuse_mem (stack key va st : Nat) : (s.rackRefuse stack key va st).mem = s.mem := by
  grind [State.rackRefuse, State.setCmd_mem, State.bump_mem]

/-! Cellar. -/

@[simp] theorem State.setBayStat_mem (b hi lo n : Nat) : (s.setBayStat b hi lo n).mem = s.mem := rfl

@[simp] theorem State.setMirror_mem (p j st : Nat) : (s.setMirror p j st).mem = s.mem := rfl

@[simp] theorem State.mirrorsDegrade_mem (b : Nat) (gone : Bool) : (s.mirrorsDegrade b gone).mem = s.mem := by
  unfold State.mirrorsDegrade
  simp [apply_ite State.mem]

@[simp] theorem State.setRemoval_mem (b st : Nat) : (s.setRemoval b st).mem = s.mem := rfl

@[simp] theorem State.removeEnd_mem (b reason refuser : Nat) : (s.removeEnd b reason refuser).mem = s.mem := by
  unfold State.removeEnd
  split <;> simp

@[simp] theorem State.mbxDrop_mem (b : Nat) : (s.mbxDrop b).mem = s.mem := by
  unfold State.mbxDrop
  simp [apply_ite State.mem]

@[simp] theorem State.bayDown_mem (b : Nat) (absent : Bool) : (s.bayDown b absent).mem = s.mem := by
  unfold State.bayDown
  split <;> simp

@[simp] theorem State.mbxPump_mem (b : Nat) : (s.mbxPump b).mem = s.mem := by
  unfold State.mbxPump
  (repeat' split) <;> simp

@[simp] theorem State.mbxAsk_mem (b op : Nat) (soft : Bool) : (s.mbxAsk b op soft).mem = s.mem := by
  unfold State.mbxAsk
  simp

@[simp] theorem mbxCmdEff_mem (b : Nat) (v : Word) : (mbxCmdEff b v s).mem = s.mem := by
  unfold mbxCmdEff
  simp [apply_ite State.mem]

@[simp] theorem State.mbxWrite_mem (i : Ident) (b op len : Nat) : (s.mbxWrite i b op len).mem = s.mem := by
  grind [State.mbxWrite, mbxCmdEff_mem, State.writeVia_mem]

@[simp] theorem State.bayQuiesced_mem (b : Nat) : (s.bayQuiesced b).mem = s.mem := by
  unfold State.bayQuiesced
  simp [apply_ite State.mem]

@[simp] theorem State.demand_mem (hub part pasid va frame : Nat) : (s.demand hub part pasid va frame).mem = s.mem := by
  grind [State.demand, State.addMig_mem, State.placeFind_mem]

@[simp] theorem State.mediaError_mem (b off media : Nat) : (s.mediaError b off media).mem = s.mem := by
  unfold State.mediaError
  simp [apply_ite State.mem]

@[simp] theorem mirrorLimitEff_mem (b j : Nat) (v : Word) : (mirrorLimitEff b j v s).mem = s.mem := by
  unfold mirrorLimitEff
  simp [apply_ite State.mem]

/-! Racking. -/

@[simp] theorem State.evacScan_mem (b stack l p : Nat) : (s.evacScan b stack l p).2.mem = s.mem := by
  unfold State.evacScan
  simp

@[simp] theorem State.evacCount_mem (b : Nat) : (s.evacCount b).2.mem = s.mem := by
  unfold State.evacCount
  refine foldl_inv (P := fun a : List EvacPage × State => a.2.mem = s.mem) _ (fun a x h => ?_) rfl
  dsimp only
  split <;> simp [h]

@[simp] theorem State.evacFill_mem (b : Nat) : (s.evacFill b).mem = s.mem := by
  unfold State.evacFill
  refine foldl_inv (P := fun a : List EvacPage × State => a.2.mem = s.mem) _ (fun a x h => ?_) rfl
  split <;> simp [h]

@[simp] theorem State.evacNext_mem (m : Mig) : (s.evacNext m).mem = s.mem := by
  unfold State.evacNext
  split <;> simp

@[simp] theorem State.rackCharge_mem (part frame counter : Nat) : (s.rackCharge part frame counter).mem = s.mem := by
  unfold State.rackCharge
  split <;> simp

@[simp] theorem State.bayEvac_mem (b : Nat) (stale : Bool) : (s.bayEvac b stale).mem = s.mem := by
  have h := s.evacCount_mem b
  rw [State.bayEvac]
  generalize s.evacCount b = r at h ⊢
  grind [State.evacFill_mem, State.mbxAsk_mem, State.modBay_mem, State.setBayStat_mem, State.removeEnd_mem, State.genEvent_mem]

/-! Removal. -/

@[simp] theorem State.identify_mem (on : Nat) (button : Bool) : (s.identify on button).mem = s.mem := by
  unfold State.identify
  split <;> simp

@[simp] theorem State.removeQueued_mem (b : Nat) : (s.removeQueued b).mem = s.mem := rfl

@[simp] theorem State.removeStart_mem (b : Nat) : (s.removeStart b).mem = s.mem := by
  unfold State.removeStart
  simp [apply_ite State.mem]

@[simp] theorem State.bayPowerOff_mem (b : Nat) (absent : Bool) : (s.bayPowerOff b absent).mem = s.mem := by
  unfold State.bayPowerOff
  simp

@[simp] theorem State.bayResume_mem (b : Nat) : (s.bayResume b).mem = s.mem := by
  unfold State.bayResume
  simp

@[simp] theorem removeAnswerEff_mem (i : Ident) (v : Word) : (removeAnswerEff i v s).mem = s.mem := by
  unfold removeAnswerEff
  simp [apply_ite State.mem]

/-! Blend. -/

@[simp] theorem State.refreshArmed_mem (stack : Nat) : (s.refreshArmed stack).mem = s.mem := rfl

@[simp] theorem State.putBlend_mem (o : BlendOp) : (s.putBlend o).mem = s.mem := rfl

@[simp] theorem State.stepAdd_mem (o : BlendOp) (st gmax gsq : Nat) : (s.stepAdd o st gmax gsq).mem = s.mem := by
  unfold State.stepAdd
  split <;> rfl

/-! Trellis. -/

@[simp] theorem State.setLink_mem (stack d : Nat) (up : Bool) : (s.setLink stack d up).mem = s.mem := rfl

@[simp] theorem State.trainLinks_mem (stack : Nat) : (s.trainLinks stack).mem = s.mem := by
  unfold State.trainLinks
  refine State.mem_foldl (fun s d => ?_) _ _
  (repeat' split) <;> rfl

@[simp] theorem State.arbResult_mem (requester status park : Nat) : (s.arbResult requester status park).mem = s.mem := rfl

@[simp] theorem State.arbCharge_mem (page o : Nat) (e : ArbEntry) : (s.arbCharge page o e).mem = s.mem := by
  unfold State.arbCharge
  (repeat' split) <;> simp

@[simp] theorem State.arbLeave_mem (page o : Nat) (e : ArbEntry) : (s.arbLeave page o e).mem = s.mem := by
  unfold State.arbLeave
  (repeat' split) <;> simp

@[simp] theorem State.arbGrant_mem (page o i : Nat) (e : ArbEntry) : (s.arbGrant page o i e).mem = s.mem := by
  unfold State.arbGrant
  simp [apply_ite State.mem]

@[simp] theorem arbGrants_mem (page o n cap : Nat) (s : State) : (arbGrants page o n cap s).mem = s.mem := by
  induction n generalizing cap s with
  | zero => rfl
  | succ n ih =>
    unfold arbGrants
    (repeat' split) <;> simp [ih]

@[simp] theorem State.arbPresent_mem (page o : Nat) (e : ArbEntry) : (s.arbPresent page o e).2.mem = s.mem := by
  grind [State.arbPresent, State.regulate_mem, State.arbResult_mem, State.bump_mem]

@[simp] theorem State.arbLose_mem (page o : Nat) (done : List ArbEntry) (e : ArbEntry) (rest : List ArbEntry) : (s.arbLose
    page o done e rest).2.mem = s.mem := by
  grind [State.arbLose, State.arbResult_mem, State.bump_mem, State.setReg_mem]

@[simp] theorem State.arbPresents_mem (page o : Nat) : (s.arbPresents page o).mem = s.mem := by
  unfold State.arbPresents
  exact foldl_inv (P := fun a : List ArbEntry × State => a.2.mem = s.mem) _ (fun a x h => by simp [h]) rfl

@[simp] theorem State.arbLosers_mem (page o : Nat) (done rest : List ArbEntry) (s : State) :
    (State.arbLosers page o done rest s).mem = s.mem := by
  induction rest generalizing done s with
  | nil => rfl
  | cons e rest ih => rw [State.arbLosers, ih, State.arbLose_mem]

@[simp] theorem State.arbAge_mem (page o cycles : Nat) : (s.arbAge page o cycles).mem = s.mem := rfl

@[simp] theorem State.arbStarve_mem (page o : Nat) : (s.arbStarve page o).mem = s.mem := by
  unfold State.arbStarve
  refine foldl_inv (P := fun a : List ArbEntry × State => a.2.mem = s.mem) _ (fun a e h => ?_) rfl
  dsimp only
  split <;> simp [h, apply_ite State.mem]

@[simp] theorem State.arbForget_mem (page o : Nat) : (s.arbForget page o).mem = s.mem := by
  unfold State.arbForget
  split <;> rfl

@[simp] theorem State.arbitrate_mem (page o cycles : Nat) (reqs : List ArbReq) : (s.arbitrate page o cycles reqs).mem =
    s.mem := by
  unfold State.arbitrate
  split <;> simp

@[simp] theorem arbShareEff_mem (page o : Nat) (v : Word) : (arbShareEff page o v s).mem = s.mem := by
  unfold arbShareEff
  simp [apply_ite State.mem]

@[simp] theorem State.enqueue_mem (stack o requester : Nat) (t : Transit) : (s.enqueue stack o requester t).mem = s.mem :=
    by
  unfold State.enqueue
  split <;> simp

@[simp] theorem State.routeAt_mem (stack requester : Nat) (t : Transit) : (s.routeAt stack requester t).mem = s.mem := by
  grind [State.routeAt, State.enqueue_mem, State.bump_mem, State.genEvent_mem]

@[simp] theorem State.inject_mem (node requester : Nat) (p : TrellisPkt) (waited : Option Nat) : (s.inject node requester p
    waited).mem = s.mem := by
  unfold State.inject
  (repeat' split) <;> simp

@[simp] theorem State.reinject_mem (stack since : Nat) (t : Transit) : (s.reinject stack since t).mem = s.mem := by
  grind [State.reinject, State.routeAt_mem, State.tokenFault_mem, State.bump_mem]

@[simp] theorem State.holdClear_mem (stack : Nat) : (s.holdClear stack).mem = s.mem := by
  unfold State.holdClear
  simp

@[simp] theorem routerCtlEff_mem (stack : Nat) (v : Word) : (routerCtlEff stack v s).mem = s.mem := by
  unfold routerCtlEff
  simp [apply_ite State.mem]

@[simp] theorem State.writeRoute_mem (e : Nat × Nat × Nat) : (s.writeRoute e).mem = s.mem := by
  unfold State.writeRoute
  simp [apply_ite State.mem]

@[simp] theorem State.rebuildRoutes_mem (tables : List (Nat × Nat × Nat)) : (s.rebuildRoutes tables).mem = s.mem := by
  have hold : s.holdAll.mem = s.mem := by rw [State.holdAll_eq, State.setHolds_mem]
  rw [State.rebuildRoutes_eq]
  split
  · rw [State.mem_foldl (fun s st => s.holdClear_mem st), State.mem_foldl State.writeRoute_mem, hold]
  · exact hold

@[simp] theorem State.routerLost_mem (stack : Nat) : (s.routerLost stack).mem = s.mem := by
  unfold State.routerLost
  dsimp only
  rw [State.mem_foldl (fun s d => ?_), State.mem_foldl (fun s o => by simp)]
  (repeat' split) <;> simp

/-! Decanter. -/

@[simp] theorem State.decStat_mem (n k hi lo x : Nat) : (s.decStat n k hi lo x).mem = s.mem := rfl

@[simp] theorem State.setDecPos_mem (n k p : Nat) : (s.setDecPos n k p).mem = s.mem := rfl

@[simp] theorem State.decHold_mem (n k va : Nat) : (s.decHold n k va).mem = s.mem := by
  unfold State.decHold
  simp

@[simp] theorem State.decArm_mem (n k : Nat) : (s.decArm n k).mem = s.mem := rfl

@[simp] theorem State.decRestart_mem (n k epoch : Nat) (discard : Bool) : (s.decRestart n k epoch discard).mem = s.mem := by
  unfold State.decRestart
  simp [apply_ite State.mem]

@[simp] theorem reqTailEff_mem (n k : Nat) (v : Word) : (reqTailEff n k v s).mem = s.mem := by
  unfold reqTailEff
  simp [apply_ite State.mem]

@[simp] theorem decGroupEff_mem (n k off : Nat) (v : Word) : (decGroupEff n k off v s).mem = s.mem := by
  unfold decGroupEff
  split <;> simp

/-! Server. -/

@[simp] theorem State.srvTrap_mem (c code va : Nat) : (s.srvTrap c code va).mem = s.mem := rfl

@[simp] theorem State.storeLost_mem (c pa : Nat) : (s.storeLost c pa).mem = s.mem := by
  unfold State.storeLost
  simp

/-! Events. -/

@[simp] theorem State.evqDrop_mem (e : Nat) : (s.evqDrop e).mem = s.mem := rfl

@[simp] theorem evqHeadEff_mem (e : Nat) (v : Word) : (evqHeadEff e v s).mem = s.mem := by
  unfold evqHeadEff
  simp

@[simp] theorem evqCfgEff_mem (e : Nat) (v : Word) : (evqCfgEff e v s).mem = s.mem := by
  unfold evqCfgEff
  simp [apply_ite State.mem]

@[simp] theorem evForceEff_mem (page : Nat) (v : Word) : (evForceEff page v s).mem = s.mem := by
  unfold evForceEff
  simp [apply_ite State.mem]

theorem State.readVia_mem {clear : Bool → Bool → State → State} (h : ∀ lo hi s, (clear lo hi s).mem = s.mem) (i : Ident)
    (page off n : Nat) (val : Word) : (s.readVia i page off n val clear).mem = s.mem := by
  unfold State.readVia
  dsimp only
  (repeat' split) <;> simp [h]

@[simp] theorem evqStatClear_mem (e : Nat) (_lo hi : Bool) : (evqStatClear e _lo hi s).mem = s.mem := by
  unfold evqStatClear
  split <;> rfl

/-! Pages. -/

@[simp] theorem State.endTxn_mem (line status : Nat) : (s.endTxn line status).mem = s.mem := by
  unfold State.endTxn
  split
  · rfl
  · rw [State.refuseRequest_mem]
    simp only [apply_ite State.mem, ite_self]
    exact State.mem_foldl (fun s g => s.dirRemove_mem line g) _ _

@[simp] theorem State.endHome_mem (stack status : Nat) : (s.endHome stack status).mem = s.mem := by
  unfold State.endHome
  simp

@[simp] theorem State.endNear_mem (mine : NearReq → Bool) (status : Nat) : (s.endNear mine status).mem = s.mem := by
  unfold State.endNear
  simp [apply_ite State.mem]

@[simp] theorem State.recallLine_mem (line : Nat) : (s.recallLine line).mem = s.mem := by
  unfold State.recallLine
  rw [State.dirSetEntry_mem]
  exact State.mem_foldl (fun s g => s.dropCopy_mem g line) _ _

@[simp] theorem State.resetCore_mem (c : Nat) : (s.resetCore c).mem = s.mem := rfl

@[simp] theorem State.resetRegs_mem (page : Nat) : (s.resetRegs page).mem = s.mem := by
  unfold State.resetRegs
  split <;> rfl

@[simp] theorem State.pageOff_mem (page : Nat) : (s.pageOff page).mem = s.mem := by
  grind [State.pageOff, State.mirrorsDegrade_mem, State.bayDown_mem, State.routerLost_mem, State.setFld_mem,
    State.enterState_mem]

@[simp] theorem State.quiesceClear_mem (page : Nat) : (s.quiesceClear page).mem = s.mem := by
  unfold State.quiesceClear
  simp [apply_ite State.mem]

@[simp] theorem State.cntClear_mem (page : Nat) : (s.cntClear page).mem = s.mem := rfl

@[simp] theorem pageLockEff_mem (i : Ident) (page : Nat) (v : Word) : (pageLockEff i page v s).mem = s.mem := by
  unfold pageLockEff
  simp [apply_ite State.mem]

/-! Sparing. -/

@[simp] theorem State.holdAll_mem : s.holdAll.mem = s.mem := by rw [State.holdAll_eq, State.setHolds_mem]

@[simp] theorem State.setSpareMap_mem (l phys valid epoch : Nat) : (s.setSpareMap l phys valid epoch).mem = s.mem := rfl

@[simp] theorem State.stackUnbound_mem (p : Nat) : (s.stackUnbound p).mem = s.mem := by
  unfold State.stackUnbound
  split <;> rfl

theorem State.rebind_mem {change : State → State} (h : ∀ s, (change s).mem = s.mem) : (s.rebind change).mem = s.mem := by
  rw [State.rebind, State.refreshOwners_mem, h, State.mem_foldl State.recallLine_mem]

@[simp] theorem State.bindEnd_mem (l p : Nat) : (s.bindEnd l p).mem = s.mem := by
  rw [State.bindEnd, State.genEvent_mem, State.rebind_mem]
  intro s
  rw [State.setStackState_mem]
  split
  · rw [State.stackUnbound_mem, State.setSpareMap_mem]
  · rw [State.setSpareMap_mem]

@[simp] theorem State.spareStatus_mem (st : Nat) : (s.spareStatus st).mem = s.mem := rfl

@[simp] theorem State.evictTasks_mem (l : Nat) : (s.evictTasks l).mem = s.mem := by
  unfold State.evictTasks
  simp [apply_ite State.mem]

@[simp] theorem State.dropHome_mem (p : Nat) : (s.dropHome p).mem = s.mem := by
  unfold State.dropHome
  simp

@[simp] theorem State.dropNear_mem (p : Nat) : (s.dropNear p).mem = s.mem := by
  unfold State.dropNear
  simp

@[simp] theorem State.cwAdvance_mem (st : Nat) : (s.cwAdvance st).mem = s.mem := rfl

@[simp] theorem cwDataRead_mem (st : Nat) (lo hi : Bool) : (cwDataRead st lo hi s).mem = s.mem := by
  unfold cwDataRead
  split <;> rfl

@[simp] theorem cwCtlEff_mem (st : Nat) (v : Word) (pass : Bool) : (cwCtlEff st v pass s).mem = s.mem := by
  unfold cwCtlEff
  simp [apply_ite State.mem]

/-! Restart. -/

@[simp] theorem State.setPhase_mem (n : Nat) : (s.setPhase n).mem = s.mem := rfl

/-! Thermal. -/

@[simp] theorem State.showReading_mem (c i v : Nat) : (s.showReading c i v).mem = s.mem := by
  unfold State.showReading
  simp [apply_ite State.mem]

@[simp] theorem State.warnStep_mem (c i v : Nat) (trips : Bool) : (s.warnStep c i v trips).mem = s.mem := by
  unfold State.warnStep
  simp [apply_ite State.mem]

@[simp] theorem State.singleFeed_mem : s.singleFeed.mem = s.mem := by
  rw [State.singleFeed, State.refreshCause_mem, State.modCause_mem]

@[simp] theorem State.feedStat_mem (f ok volt : Nat) : (s.feedStat f ok volt).mem = s.mem := rfl

/-! Startup. -/

@[simp] theorem State.bootStatus_mem (st : Nat) : (s.bootStatus st).mem = s.mem := rfl

@[simp] theorem State.badCore_mem (c : Nat) : (s.badCore c).mem = s.mem := by
  grind [State.badCore, State.setReg_mem, State.enterFaulted_mem, State.modCore_mem]

@[simp] theorem State.stackPower_mem (p : Nat) (badHub : Bool) (badDies badCores : List Nat) : (s.stackPower p badHub
    badDies badCores).mem = s.mem := by
  unfold State.stackPower
  simp [apply_ite State.mem]

@[simp] theorem State.phase7_mem : s.phase7.mem = s.mem := by
  unfold State.phase7
  simp

@[simp] theorem State.phase8_mem (srv : Nat) : (s.phase8 srv).mem = s.mem := by
  rw [State.phase8, State.setPhase_mem, State.mem_foldl (fun s c => s.setFld_mem ..), State.setFld_mem]

theorem execCapChanged_mem {s t : State} (h : execCapChanged s = .next t) : t.mem = s.mem := by
  grind [execCapChanged, State.setReg_mem, State.genEvent_mem]

@[simp] theorem State.bootDone_mem : s.bootDone.mem = s.mem := by
  rw [State.bootDone]
  split
  · rw [execCapChanged_mem ‹_›]; rfl
  · rfl

@[simp] theorem State.pldmAnswer_mem (path : Nat) (c : Pldm) : (s.pldmAnswer path c).mem = s.mem := rfl

/-! Registers. -/

@[simp] theorem thrEff_mem (off : Nat) (v : Word) : (thrEff off v s).mem = s.mem := by
  unfold thrEff
  simp [apply_ite State.mem]

@[simp] theorem partEff_mem (off : Nat) (v : Word) : (partEff off v s).mem = s.mem := by
  unfold partEff
  split <;> simp

@[simp] theorem evqEff_mem (page off : Nat) (v : Word) : (evqEff page off v s).mem = s.mem := by
  unfold evqEff
  split <;> simp

@[simp] theorem cwCtlFree_mem (st : Nat) (v : Word) : (cwCtlFree st v s).mem = s.mem := by
  unfold cwCtlFree
  split <;> simp

@[simp] theorem State.regRead_mem (i : Ident) (page off : Nat) : (s.regRead i page off).2.mem = s.mem := by
  grind [State.regRead, State.free_mem]

@[simp] theorem readEffect_mem (page off : Nat) (lo hi : Bool) : (readEffect page off lo hi s).mem = s.mem := by
  unfold readEffect
  (repeat' split) <;> simp

@[simp] theorem State.regAccess_mem (i : Ident) (page off n : Nat) : (s.regAccess i page off n).mem = s.mem := by
  unfold State.regAccess
  split
  · rfl
  · rw [State.readVia_mem _ (fun lo hi s => readEffect_mem s page off lo hi), State.regRead_mem]

@[simp] theorem State.queryValue_mem (i : Ident) (page off : Nat) : (s.queryValue i page off).2.mem = s.mem := by
  grind [State.queryValue, readEffect_mem, State.regRead_mem]

/-! GlobalAccess. -/

@[simp] theorem State.pageStop_mem (c cause : Nat) (x : Ctxt) (va : Nat) : (s.pageStop c cause x va).mem = s.mem := by
  unfold State.pageStop
  split <;> simp

@[simp] theorem State.blockEnds_mem (c t n : Nat) (x : Ctxt) (e : Ended) (va : Nat) : (s.blockEnds c t n x e va).mem = s.mem
    := by
  unfold State.blockEnds
  (repeat' split) <;> simp

/-! Invalidate. -/

@[simp] theorem State.atsDrop_mem (fn off : Nat) : (s.atsDrop fn off).mem = s.mem := rfl

/-! PageAnswer. -/

@[simp] theorem State.taskPaged_mem (key : Nat) : (s.taskPaged key).mem = s.mem := by
  unfold State.taskPaged
  simp

/-! ServerAccess. -/

@[simp] theorem State.srvHold_mem (a : SrvAccess) (hint : Nat) : (s.srvHold a hint).mem = s.mem := rfl

@[simp] theorem State.srvFailed_mem (a : SrvAccess) (st : Nat) : (s.srvFailed a st).mem = s.mem := by
  unfold State.srvFailed
  (repeat' split) <;> simp

@[simp] theorem State.srvDeny_mem (a : SrvAccess) : (s.srvDeny a).mem = s.mem := rfl

@[simp] theorem State.srvDirty_mem (c line : Nat) : (s.srvDirty c line).mem = s.mem := by
  unfold State.srvDirty
  split <;> rfl

end Kept

/-! Fields that leave memory alone. -/

theorem State.withBinds_mem (s : State) (b : List (Nat × Nat)) : ({ s with binds := b } : State).mem = s.mem := rfl

theorem State.withUnpowered_mem (s : State) (u : List Nat) : ({ s with unpowered := u } : State).mem = s.mem := rfl

/-! What a result holds. A result of an instruction, a collective, a decanter or a packet carries the state it leaves. -/

/-- A result of an instruction leaves memory canonical. -/
def Issue.Wf : Issue → Prop
  | .held => True
  | .fault .. => True
  | .done s _ => s.mem.wf = true

/-- A result of a collective's work leaves memory canonical. -/
def Work.Wf : Work → Prop
  | .go s _ => s.mem.wf = true
  | .fail s _ _ => s.mem.wf = true
  | .hold s _ => s.mem.wf = true
  | .wait s => s.mem.wf = true

/-- What a packet does leaves memory canonical. -/
def Handled.Wf : Handled → Prop
  | .done s => s.mem.wf = true
  | .nak _ s => s.mem.wf = true
  | .hold s => s.mem.wf = true

/-- A result of a decanter's work leaves memory canonical. -/
def DecGot.Wf {α : Type} : DecGot α → Prop
  | .ok _ s => s.mem.wf = true
  | .page _ s => s.mem.wf = true
  | .wait s => s.mem.wf = true
  | .stop _ _ s => s.mem.wf = true

theorem Work.bind_wf {w : Work} {f : State → Coll → Work} (hw : w.Wf) (hf : ∀ s c, s.mem.wf = true → (f s c).Wf) :
    (w.bind f).Wf := by
  cases w with
  | go s c => exact hf s c hw
  | fail | hold | wait => exact hw

theorem Work.foldl_wf {α : Type} {f : State → Coll → α → Work} (hf : ∀ s c x, s.mem.wf = true → (f s c x).Wf) (l : List α)
    {w : Work} (hw : w.Wf) : (l.foldl (fun w x => w.bind fun s c => f s c x) w).Wf :=
  foldl_inv l (fun _ x hw => Work.bind_wf hw fun s c h => hf s c x h) hw

theorem DecGot.bind_wf {α β : Type} {g : DecGot α} {f : α → State → DecGot β} (hg : g.Wf)
    (hf : ∀ x s, s.mem.wf = true → (f x s).Wf) : (g.bind f).Wf := by
  cases g with
  | ok x s => exact hf x s hg
  | page | wait | stop => exact hg

theorem Coll.after_wf (c : Coll) (e : Ended) {s : State} {f : State → Work} (h : s.mem.wf = true)
    (hf : ∀ s, s.mem.wf = true → (f s).Wf) : (c.after e s f).Wf := by
  unfold Coll.after
  split
  · exact hf s h
  all_goals exact h

theorem lastAddress_wf {r : Issue} (hr : r.Wf) (pc : Nat) (row : CoreRow) : (lastAddress pc row r).Wf := by
  unfold lastAddress
  split
  · cases r with
    | held => trivial
    | fault => dsimp only; split <;> trivial
    | done => dsimp only; split; exacts [hr, trivial]
  · exact hr

theorem handled_wf {α : Type} {s : State} {r : Option (Nat × α)} {ok f : α → State} (h : s.mem.wf = true)
    (hr : ∀ st x, r = some (st, x) → (ok x).mem.wf = true ∧ (f x).mem.wf = true) : (handled s r ok f).Wf := by
  unfold handled
  split
  · exact h
  · split
    · exact (hr _ _ rfl).1
    · exact (hr _ _ rfl).2

/-- A command's outcome leaves memory canonical. -/
def OutWf : Out → Prop
  | .next s => Safe s
  | _ => True

theorem after_wf {o : Out} {s : State} (ho : OutWf o) (h : s.mem.wf = true) : (after o s).mem.wf = true := by
  unfold after
  split
  · exact ho
  · exact h

section Written

variable {s : State} (h : s.mem.wf = true)
include h

/-! Ops. -/

theorem State.writeBytes_wf (a : Nat) (bs : List Byte) : (s.writeBytes a bs).mem.wf = true := by
  grind [State.writeBytes, Memory.writeNat_wf, Memory.writeBytes_wf, Memory.clear_wf]

/-! Translate. -/

theorem State.iommu_wf (dev pasid va : Nat) (write : Bool) : (s.iommu dev pasid va write).2.2.mem.wf = true := by
  unfold State.iommu
  split
  · exact h
  · exact h
  · exact h
  · split
    · exact setAccessed_wf h _ _
    · exact h

theorem State.translate_wf (stack : Option Nat) (dev pasid va : Nat) (write : Bool) : (s.translate stack dev pasid va
    write).2.mem.wf = true := by
  unfold State.translate
  grind [State.bumpUnits_mem, State.bump_mem, State.tlbFill_mem, State.iommu_wf]

/-! Access. -/

theorem State.physWrite_wf (part : Nat) (who : Who) (a : Nat) (bs : List Byte) :
    (s.physWrite part who a bs).2.mem.wf = true := by
  unfold State.physWrite
  dsimp only
  split
  · refine State.foldl_wf (fun s p h => ?_) _ h
    split <;> simpa using State.writeBytes_wf h p bs
  · exact h

theorem State.virtRead_wf (x : Ctxt) (fuel va n : Nat) : (State.virtRead x fuel s va n).2.2.mem.wf = true := by
  induction fuel generalizing s va n with
  | zero => exact h
  | succ fuel ih => grind [State.virtRead, State.translate_wf]

theorem State.virtWrite_wf (x : Ctxt) (fuel va : Nat) (bs : List Byte) : (State.virtWrite x fuel s va bs).2.2.mem.wf = true := by
  induction fuel generalizing s va bs with
  | zero => exact h
  | succ fuel ih => grind [State.virtWrite, State.translate_wf, State.physWrite_wf]

theorem State.vread_wf (x : Ctxt) (va n : Nat) : (s.vread x va n).2.2.mem.wf = true := by
  grind [State.vread, State.virtRead_wf]

theorem State.vwrite_wf (x : Ctxt) (va : Nat) (bs : List Byte) : (s.vwrite x va bs).2.2.mem.wf = true := by
  grind [State.vwrite, State.virtWrite_wf]

/-! Complete. -/

theorem State.msiTo_wf (pa data : Nat) : (s.msiTo pa data).mem.wf = true := by
  grind [State.msiTo, State.physWrite_wf, State.imsicWrite_mem]

theorem State.mrifSet_wf (base id : Nat) : (s.mrifSet base id).2.mem.wf = true := by
  grind [State.mrifSet, Memory.writeNat_wf, Memory.writeBytes_wf, Memory.clear_wf]

theorem State.iommuMsi_wf {t : State} {part iova data : Nat} (ht : s.iommuMsi part iova data = some t) : t.mem.wf = true := by
  have plain : ∀ pa, (s.peekTranslate part 0 iova true).map (fun pa => s.msiTo pa data) = some pa → pa.mem.wf = true := by
    intro u hu
    obtain ⟨pa, -, rfl⟩ := Option.map_eq_some_iff.mp hu
    exact State.msiTo_wf h pa data
  grind [State.iommuMsi, State.msiTo_wf, State.mrifSet_wf]

theorem State.msiFire_wf (part a : Nat) : (s.msiFire part a).mem.wf = true := by
  grind [State.msiFire, State.iommuMsi_wf, State.msiDropped_mem]

theorem State.msiSend_wf (part vec : Nat) : (s.msiSend part vec).mem.wf = true := by
  grind [State.msiSend, State.msiFire_wf, State.msiDropped_mem, Memory.writeNat_wf, Memory.writeBytes_wf, Memory.clear_wf]

theorem State.queueIrq_wf (q : Nat) : (s.queueIrq q).mem.wf = true := by
  grind [State.queueIrq, State.msiSend_wf, State.bump_mem, State.msixSend_mem]

theorem State.writeEntry_wf (q seq : Nat) (entry : List Byte) (irq : Bool) : (s.writeEntry q seq entry irq).mem.wf = true :=
    by
  grind [State.writeEntry, State.pageRequest_mem, State.queueIrq_wf, State.modQueue_mem, State.vwrite_wf, State.bump_mem,
    State.cmdDone_mem]

theorem State.complete_wf (q seq status park : Nat) (result : List Byte) : (s.complete q seq status park result).mem.wf =
    true := by
  grind [State.complete, State.writeEntry_wf, State.modQueue_mem, State.sendGroup_mem]

theorem State.retryEntries_wf (q : Nat) : (s.retryEntries q).mem.wf = true := by
  unfold State.retryEntries
  exact State.foldl_wf (fun s e h => by grind [State.writeEntry_wf, State.modQueue_mem]) _ h

theorem State.loseEntry_wf (q : Nat) : (s.loseEntry q).mem.wf = true := by
  grind [State.loseEntry, State.cmdDone_mem, State.retryEntries_wf, State.modQueue_mem, State.bump_mem]

theorem State.completeChecked_wf (q seq status : Nat) : (s.completeChecked q seq status).mem.wf = true := by
  grind [State.completeChecked, State.complete_wf, State.bump_mem]

/-! Cache. -/

theorem State.cacheWrite_wf (stack line off : Nat) (bs : List Byte) : (s.cacheWrite stack line off bs).mem.wf = true := by
  grind [State.cacheWrite, State.writeBytes_wf, State.cachePut_mem]

theorem State.lastUseDrop_wf (stack line : Nat) : (s.lastUseDrop stack line).mem.wf = true := by
  grind [State.lastUseDrop, State.cacheEvict_mem, State.writeBytes_wf, State.cacheDrop_mem, State.keepUsed_mem,
    State.scratch_mem, State.bump_mem]

theorem State.cacheMiss_wf (stack line off n : Nat) (data : List Byte) (hint tag part : Nat) : (s.cacheMiss stack line off n
    data hint tag part).mem.wf = true := by
  grind [State.cacheMiss, State.cacheWrite_wf, State.cacheInstall_mem, State.regulate_mem, State.fetchBad_mem,
    State.answer_mem, State.bumpUnits_mem]

theorem State.cacheServe_wf (stack a n : Nat) (data : List Byte) (hint tag part : Nat) (ecc : Ecc) : (s.cacheServe stack a n
    data hint tag part ecc).2.mem.wf = true := by
  grind [State.cacheServe, State.cacheWrite_wf, State.lastUseDrop_wf, State.bumpUnits_mem, State.cacheTouch_mem,
    State.cacheMiss_wf, State.answer_mem, State.cacheEcc_mem]

theorem State.nearServe_wf (stack a n : Nat) (data : List Byte) (hint : Nat) : (s.nearServe stack a n data hint).mem.wf =
    true := by
  grind [State.nearServe, State.setAgent_mem, State.writeBytes_wf, State.nearDrop_mem, State.answer_mem, State.cachePut_mem,
    State.bump_mem, State.post_mem]

/-! Coherence. -/

theorem State.homeWrite_wf (a : Nat) (bs : List Byte) : (s.homeWrite a bs).2.mem.wf = true := by
  grind [State.homeWrite, State.physWrite_wf, State.cacheWrite_wf, State.endResv_mem]

theorem State.perform_wf (m : Msg) : (s.perform m).mem.wf = true := by
  grind [State.perform, State.post_mem, State.homeWrite_wf]

theorem State.finish_wf (home : Nat) (m : Msg) : (s.finish home m).mem.wf = true := by
  grind [State.finish, State.perform_wf, State.post_mem, State.openTxn_mem, State.dirSetEntry_mem, State.grantLine_mem]

theorem State.accept_wf {t : State} {home : Nat} {m : Msg} (ht : s.accept home m = some t) : t.mem.wf = true := by
  unfold State.accept at ht
  dsimp only at ht
  have hb : (s.bumpUnits (Page.directory home) 0 1 1024).mem.wf = true := h
  generalize s.bumpUnits (Page.directory home) 0 1 1024 = b at ht hb
  grind [State.openTxn_mem, State.snoop_mem, State.finish_wf, State.mem_foldl]

theorem serveList_wf (home : Nat) (ms kept : List Msg) : (serveList home ms kept s).mem.wf = true := by
  induction ms generalizing s kept with
  | nil => exact h
  | cons m ms ih => grind [serveList, State.accept_wf, State.dirEvict_mem]

theorem State.serve_wf (home : Nat) : (s.serve home).mem.wf = true := by
  grind [State.serve, serveList_wf]

theorem State.request_wf (m : Msg) : (s.request m).mem.wf = true := by
  grind [State.request, State.serve_wf, State.refuseRequest_mem, State.arrived_mem]

theorem State.settle_wf (home line : Nat) : (s.settle home line).mem.wf = true := by
  grind [State.settle, State.finish_wf, State.dirSetEntry_mem, State.serve_wf]

theorem State.noCopy_wf (home line agent : Nat) (mustWait : Bool) : (s.noCopy home line agent mustWait).mem.wf = true := by
  grind [State.noCopy, State.settle_wf, State.dirRemove_mem]

theorem State.forwarded_wf (home line agent : Nat) : (s.forwarded home line agent).mem.wf = true := by
  grind [State.forwarded, State.serve_wf, State.dirSetEntry_mem]

theorem State.evicted_wf (home line agent : Nat) : (s.evicted home line agent).mem.wf = true := by
  grind [State.evicted, State.settle_wf, State.dirRemove_mem]

theorem State.nearDone_wf (r : NearReq) : (s.nearDone r).mem.wf = true := by
  grind [State.nearDone, State.setAgent_mem, State.writeBytes_wf, State.post_mem, State.answer_mem]

theorem State.granted_wf (agent line : Nat) (k : MsgKind) (x : LineState) (st : Nat) :
    (s.granted agent line k x st).mem.wf = true := by
  have done (l : List NearReq) {s : State} (h : s.mem.wf = true) : (l.foldl State.nearDone s).mem.wf = true :=
    State.foldl_wf (fun s r h => State.nearDone_wf h r) l h
  grind [State.granted, State.delivered_mem, State.post_mem, State.answer_mem, State.setAgent_mem, State.nearInstall_mem]

/-! Operands. -/

theorem State.applyIssue_wf (c : Nat) (w : Word) {r : Issue} (hr : r.Wf) : (s.applyIssue c w r).mem.wf = true := by
  cases r with
  | held => exact h
  | fault => exact h
  | done => exact hr

theorem State.issue_wf (c : Nat) (row : CoreRow) {sem : Core → Word → Issue} (hsem : ∀ k w, (sem k w).Wf) :
    (s.issue c row sem).mem.wf = true := by
  unfold State.issue
  dsimp only
  split
  · exact h
  · split
    · refine State.applyIssue_wf h c _ ?_
      split
      · exact lastAddress_wf (hsem _ _) ..
      · trivial
    · exact h

/-! CoreStream. -/

theorem pumpRecv_wf (c port n : Nat) : (pumpRecv c port n s).mem.wf = true := by
  induction n generalizing s with
  | zero => exact h
  | succ n ih => grind [pumpRecv, Memory.writeNat_wf, State.setCore_mem]

/-! Tasks. -/

theorem State.kernelComplete_wf (t : Nat) (x : Task) (status : Nat) : (s.kernelComplete t x status).mem.wf = true := by
  unfold State.kernelComplete
  refine State.complete_wf ?_ ..
  rw [State.preemptDone_mem, State.refreshLead_mem]
  exact Safe.of_mem h (State.mem_foldl State.freeCore_mem _ s)

theorem State.kernelCheck_wf (t : Nat) : (s.kernelCheck t).mem.wf = true := by
  grind [State.kernelCheck, State.kernelComplete_wf]

/-! CoreControl. -/

theorem State.noteEnd_wf (c : Nat) : (s.noteEnd c).mem.wf = true := by
  grind [State.noteEnd, State.setTask_mem, State.kernelCheck_wf]

/-! Image. -/

theorem State.readImage_wf (x : Ctxt) (va : Nat) : (s.readImage x va).2.2.mem.wf = true := by
  grind [State.readImage, State.vread_wf]

/-! Rounds. -/

theorem State.failTask_wf (key : Nat) (x : Task) (status lcid cause : Nat) : (s.failTask key x status lcid cause).mem.wf =
    true := by
  grind [State.failTask, State.kernelComplete_wf, State.setTask_mem, State.haltAll_mem]

theorem State.roundFail_wf (g : Stage) (entry status : Nat) : (s.roundFail g entry status).mem.wf = true := by
  grind [State.roundFail, State.failTask_wf, State.genEvent_mem]

theorem State.readManifest_wf (g : Stage) : (s.readManifest g).mem.wf = true := by
  grind [State.readManifest, State.refreshRoundStat_mem, State.roundFail_wf, State.vread_wf, State.putStage_mem,
    State.pageRequest_mem]

theorem State.stageAt_wf (key stack round addr : Nat) : (s.stageAt key stack round addr).mem.wf = true := by
  grind [State.stageAt, State.readManifest_wf]

theorem State.stageFirst_wf (key : Nat) (x : Task) (table : Nat → Nat) : (s.stageFirst key x table).mem.wf = true := by
  unfold State.stageFirst
  exact State.foldl_wf (fun s l h => by grind [State.stageAt_wf]) _ h

theorem State.stageNext_wf (key j : Nat) : (s.stageNext key j).mem.wf = true := by
  unfold State.stageNext
  exact State.foldl_wf (fun s g h => by grind [State.stageAt_wf]) _ h

/-! Queues. -/

theorem State.dropUnstarted_wf (q : Nat) : (s.dropUnstarted q).mem.wf = true := by
  unfold State.dropUnstarted
  refine State.foldl_wf (fun s c h => ?_) _ h
  exact State.complete_wf (by exact h) ..

theorem State.disableQueue_wf (q : Nat) : (s.disableQueue q).mem.wf = true := by
  grind [State.disableQueue, State.setQfld_mem, State.modQueue_mem, State.dropUnstarted_wf]

theorem qcfgEff_wf (q : Nat) (v : Word) : (qcfgEff q v s).mem.wf = true := by
  grind [qcfgEff, State.enableQueue_mem, State.disableQueue_wf, State.plainWrite_mem, State.setFld_mem]

theorem State.forward_wf (c : Cmd) (b : List Byte) (member port : Nat) : (s.forward c b member port).mem.wf = true := by
  grind [State.forward, State.sendGroup_mem, State.complete_wf]

theorem State.takeSlot_wf (q : Nat) (b : List Byte) (fault : Option Nat) : (s.takeSlot q b fault).mem.wf = true := by
  unfold State.takeSlot
  grind [State.completeChecked_wf, State.forward_wf, State.complete_wf, State.bump_mem, State.setQfld_mem, State.modQueue_mem]

theorem State.finishCmd_wf (c : Cmd) (status : Nat) (result : List Byte) : (s.finishCmd c status result).mem.wf = true := by
  grind [State.finishCmd, State.complete_wf, State.refreshEngine_mem]

theorem State.refuseCmd_wf (c : Cmd) (status park : Nat) (result : List Byte) : (s.refuseCmd c status park result).mem.wf =
    true := by
  grind [State.refuseCmd, State.setCmd_mem, State.finishCmd_wf]

/-! Scheduler. -/

theorem State.kernelRefuse_wf (t : Task) (status : Nat) : (s.kernelRefuse t status).mem.wf = true := by
  grind [State.kernelRefuse, State.complete_wf]

theorem State.slotEntry_wf (t : Task) (slot : Nat) : (s.slotEntry t slot).2.2.mem.wf = true := by
  grind [State.slotEntry, State.vread_wf]

theorem State.zeroCore_wf (c : Nat) : (s.zeroCore c).mem.wf = true := by
  grind [State.zeroCore, State.modCore_mem, Memory.writeNat_wf, Memory.writeBytes_wf, Memory.clear_wf]

theorem State.zeroForeign_wf (part c : Nat) : (s.zeroForeign part c).mem.wf = true := by
  grind [State.zeroForeign, State.zeroCore_wf]

theorem State.startCore_wf (t : Task) (key : Nat) (m : Image) (code : List Byte) (c : Nat) : (s.startCore t key m code
    c).mem.wf = true := by
  grind [State.startCore, State.setCore_mem, State.zeroForeign_wf, State.writeBytes_wf]

theorem State.readChunks_wf (x : Ctxt) (va : Nat) (chs : List (Nat × Nat)) : (State.readChunks x va chs s).2.2.mem.wf = true := by
  induction chs generalizing s with
  | nil => exact h
  | cons ch chs ih => grind [State.readChunks, State.vread_wf]

theorem State.readRecord_wf (t : Task) (x : Ctxt) (va : Nat) (slot : Bool) : (s.readRecord t x va slot).2.2.mem.wf = true :=
    by
  grind [State.readRecord, State.readChunks_wf]

theorem State.loadCore_wf (t : Task) (key : Nat) (w : Nat → Word) (c : Nat) : (s.loadCore t key w c).mem.wf = true := by
  rw [State.loadCore, State.bump_mem, State.setCore_mem]
  exact State.foldl_wf (fun s i h => State.writeBytes_wf h ..) _ (State.zeroForeign_wf h ..)

theorem State.loadAll_wf (t : Task) (key table : Nat) (slot : Bool) (qs : List (Nat × Nat × Nat × Nat)) :
    (State.loadAll t key table slot qs s).2.mem.wf = true := by
  induction qs generalizing s with
  | nil => exact h
  | cons q qs ih => grind [State.loadAll, State.readRecord_wf, State.loadCore_wf]

theorem State.taskStarted_wf (key : Nat) (t : Task) : (s.taskStarted key t).mem.wf = true := by
  grind [State.taskStarted, State.stageFirst_wf, State.setTask_mem, State.refreshLead_mem]

theorem State.writeChunks_wf (x : Ctxt) (va c : Nat) (info : Word) (chs : List (Nat × Nat)) :
    (State.writeChunks x va c info chs s).2.mem.wf = true := by
  induction chs generalizing s with
  | nil => exact h
  | cons ch chs ih => grind [State.writeChunks, State.vwrite_wf]

theorem State.savesDone_wf (key : Nat) : (s.savesDone key).mem.wf = true := by
  grind [State.savesDone, State.kernelComplete_wf, State.preemptDone_mem, State.refreshLead_mem, State.setTask_mem,
    State.mem_foldl, State.freeCore_mem]

/-! Mover. -/

theorem State.moverWrite_wf (x : Ctxt) (va : Nat) (bs : List Byte) : (s.moverWrite x va bs).2.mem.wf = true := by
  grind [State.moverWrite, State.countHost_mem, State.physWrite_wf, State.translate_wf]

theorem State.moverRead_wf (x : Ctxt) (va n : Nat) : (s.moverRead x va n).2.2.mem.wf = true := by
  grind [State.moverRead, State.countHost_mem, State.translate_wf]

theorem State.moveLines_wf (x : Ctxt) (fuel src dst n : Nat) : (State.moveLines x fuel s src dst n).2.2.mem.wf = true := by
  induction fuel generalizing s src dst n with
  | zero => exact h
  | succ fuel ih => grind [State.moveLines, State.moverRead_wf, State.moverWrite_wf]

theorem State.inlineLines_wf (x : Ctxt) (fuel va : Nat) (bs : List Byte) :
    (State.inlineLines x fuel s va bs).2.2.mem.wf = true := by
  induction fuel generalizing s va bs with
  | zero => exact h
  | succ fuel ih => grind [State.inlineLines, State.moverWrite_wf]

theorem State.moveOn_wf (c : Cmd) (e : Ended) (total : Nat) (result : List Byte) : (s.moveOn c e total result).mem.wf = true
    := by
  unfold State.moveOn
  grind [State.finishCmd_wf, State.setCmd_mem, State.holdPage_mem]

/-! Collective. -/

theorem State.collFinish_wf (c : Coll) (status failRank : Nat) : (s.collFinish c status failRank).mem.wf = true := by
  grind [State.collFinish, State.finishCmd_wf, State.bump_mem]

theorem State.abortAt_wf (stack jobTag collSeq status rank : Nat) : (s.abortAt stack jobTag collSeq status rank).mem.wf =
    true := by
  grind [State.abortAt, State.keepNote_mem, State.collFinish_wf]

theorem State.noteRanks_wf (c : Coll) (type status value : Nat) : (s.noteRanks c type status value).mem.wf = true := by
  unfold State.noteRanks
  exact State.foldl_wf (fun s r h => by grind [State.abortAt_wf, State.straggleAt_mem, State.sendLoose_mem]) _ h

theorem State.collFail_wf (c : Coll) (status : Nat) : (s.collFail c status).mem.wf = true := by
  grind [State.collFail, State.genEvent_mem, State.noteRanks_wf, State.collFinish_wf]

theorem collRead_wf (c : Coll) (blk : Nat) {f : State → List Byte → Work} (hf : ∀ s bs, s.mem.wf = true → (f s bs).Wf) :
    (collRead s c blk f).Wf := by
  unfold collRead
  dsimp only
  split
  · exact Coll.after_wf c _ (State.vread_wf h ..) fun s h => Coll.after_wf c _ (State.vread_wf h ..) fun s h => hf s _ h
  · exact Coll.after_wf c _ (State.vread_wf h ..) fun s h => hf s _ h

theorem collWrite_wf (c : Coll) (blk : Nat) (bs : List Byte) : (collWrite s c blk bs).Wf := by
  unfold collWrite
  dsimp only
  split
  · exact Coll.after_wf c _ (State.vwrite_wf h ..) fun s h => Coll.after_wf c _ (State.vwrite_wf h ..) fun s h => h
  · exact Coll.after_wf c _ (State.vwrite_wf h ..) fun s h => h

theorem collSend_wf (c : Coll) (dest : Nat × Nat) (p : Packet) : (collSend s c dest p).Wf := by
  grind [collSend, Work.Wf, State.sendPacket_mem]

theorem collStepTo_wf (c : Coll) (rank step blk : Nat) (bs : List Byte) (nf : Nat) : (collStepTo s c rank step blk bs nf).Wf :=
  collSend_wf h ..

theorem passIn_wf (c : Coll) (blk step : Nat) (bs : List Byte) (nf : Nat) : (passIn s c blk step bs nf).Wf := by
  grind [passIn, Work.Wf, collStepTo_wf]

theorem finalBlock_wf (c : Coll) (blk : Nat) (bs : List Byte) : (finalBlock s c blk bs).Wf := by
  unfold finalBlock
  refine Work.bind_wf (collWrite_wf h ..) fun s c h => ?_
  split
  · exact h
  · refine Work.bind_wf ?_ fun s c h => passIn_wf h ..
    split
    · exact h
    · exact collStepTo_wf h ..

theorem groupPart_wf (c : Coll) (blk : Nat) (v : List FVal) : (groupPart s c blk v).Wf := by
  grind [groupPart, finalBlock_wf, collStepTo_wf, Work.Wf]

theorem ringPart_wf (c : Coll) (blk step : Nat) (inc : Option (List FVal)) : (ringPart s c blk step inc).Wf := by
  refine collRead_wf h c blk fun s own h => ?_
  dsimp only
  split
  · exact groupPart_wf h ..
  · exact collStepTo_wf h ..

theorem childSteps_wf (c : Coll) (blk nf : Nat) (bs : List Byte) :
    (c.children.foldl (fun w r => w.bind fun s c => collStepTo s c (c.ofRel r) 4096 blk bs nf) (Work.go s c)).Wf :=
  Work.foldl_wf (f := fun s c r => collStepTo s c (c.ofRel r) 4096 blk bs nf) (fun s c r h => collStepTo_wf h ..) _ h

theorem treePart_wf (c : Coll) (blk : Nat) : (treePart s c blk).Wf := by
  unfold treePart
  dsimp only
  split
  · exact h
  · refine collRead_wf h c blk fun s own h => ?_
    split
    · exact Work.bind_wf (collWrite_wf h ..) fun s c h => childSteps_wf h ..
    · exact collStepTo_wf h ..

theorem sendCount_wf (c : Coll) : (sendCount s c).Wf := by
  grind [sendCount, Work.Wf, collStepTo_wf]

theorem stepBlock_wf (c : Coll) (step blk nf : Nat) (bs : List Byte) : (stepBlock s c step blk nf bs).Wf := by
  have count : ∀ (s : State) (c : Coll), s.mem.wf = true →
      (if c.op = 2 ∧ c.chunkOf blk = c.myrank then sendCount s c else Work.go s c).Wf := by
    grind [sendCount_wf, Work.Wf]
  unfold stepBlock
  dsimp only
  split
  · split
    · exact Work.bind_wf (collWrite_wf h ..) fun s c h => childSteps_wf h ..
    · exact treePart_wf h ..
  · split
    · exact Work.bind_wf (ringPart_wf h ..) count
    · split
      · refine Work.bind_wf ?_ count
        split
        · exact h
        · split
          · exact finalBlock_wf h ..
          · exact collStepTo_wf h ..
      · refine Work.bind_wf (collWrite_wf h ..) fun s c h => ?_
        split
        · refine Work.bind_wf ?_ fun s c h => passIn_wf h ..
          split
          · exact h
          · exact collStepTo_wf h ..
        · exact passIn_wf h ..

omit h in
theorem Work.settle_wf {w : Work} {held : State → Nat → State} (hw : w.Wf)
    (hheld : ∀ s va, s.mem.wf = true → (held s va).mem.wf = true) : (w.settle held).mem.wf = true := by
  cases w with
  | go s c => grind [Work.settle, Work.Wf, State.collFinish_wf, State.putColl_mem]
  | fail s c st => exact State.collFail_wf hw c st
  | hold s va => exact hheld s va hw
  | wait s => exact hw

theorem stepBlocks_wf (c : Coll) (p : Packet) : (stepBlocks c p s).Wf :=
  foldl_inv _ (fun _ _ hw => Work.bind_wf hw fun _ _ h => stepBlock_wf h ..) h

theorem State.collStep_wf (c : Coll) (p : Packet) : (s.collStep c p).2.mem.wf = true := by
  have work : ∀ w : Work, w.Wf → (match w with
      | .hold _ va => (false, s.pageRequest c.ctxt va (.coll c.key))
      | .wait _ => (false, s)
      | w => (true, w.settle fun s _ => s)).2.mem.wf = true := by
    intro w hw
    split
    · simpa using h
    · exact h
    · exact Work.settle_wf hw fun _ _ h => h
  unfold State.collStep
  refine work _ ?_
  split
  · exact h
  · split
    · exact Coll.after_wf c _ (State.vwrite_wf h ..) fun _ h => h
    · split
      · refine Work.bind_wf ?_ fun _ _ h => h
        split
        · exact collStepTo_wf h ..
        · exact h
      · exact stepBlocks_wf h c p

theorem State.remoteWrite_wf {part pasid va st : Nat} {bs : List Byte} {t : State}
    (ht : s.remoteWrite part pasid va bs = some (st, t)) : t.mem.wf = true := by
  grind [State.remoteWrite, State.vwrite_wf]

theorem State.remoteRead_wf {part pasid va n st : Nat} {bs : List Byte} {t : State}
    (ht : s.remoteRead part pasid va n = some (st, bs, t)) : t.mem.wf = true := by
  grind [State.remoteRead, State.vread_wf]

theorem State.remoteAtomic_wf {part pasid va aop b cmp st v : Nat} {t : State}
    (ht : s.remoteAtomic part pasid va aop b cmp = some (st, v, t)) : t.mem.wf = true := by
  have hx := State.translate_wf h none part pasid va true
  unfold State.remoteAtomic at ht
  generalize s.translate none part pasid va true = x at hx ht
  grind [State.physWrite_wf]

theorem directSend_wf (c : Coll) (p : Packet) : (directSend s c p).Wf := by
  grind [directSend, Work.Wf, State.sendPacket_mem]

omit h in
theorem Coll.local_wf (c : Coll) (hs : s.mem.wf = true) {r : Option (Nat × State)}
    (hr : ∀ st t, r = some (st, t) → t.mem.wf = true) : (c.local_ s r).Wf := by
  unfold Coll.local_
  split
  · exact hs
  · have ht := hr _ _ rfl
    split <;> exact ht

theorem putPiece_wf (c : Coll) (o : Nat × Nat) : (putPiece s c o).Wf := by
  unfold putPiece
  refine Coll.after_wf c _ (State.vread_wf h ..) fun s h => ?_
  split
  · exact Coll.local_wf c h fun _ _ ht => State.remoteWrite_wf h ht
  · exact directSend_wf h ..

theorem getPiece_wf (c : Coll) (o : Nat × Nat) : (getPiece s c o).Wf := by
  unfold getPiece
  split
  · split
    · exact h
    · next ht =>
      have ht := State.remoteRead_wf h ht
      split
      · exact ht
      · exact Coll.after_wf c _ (State.vwrite_wf ht ..) fun _ h => h
  · exact directSend_wf h ..

theorem atomicStart_wf (c : Coll) : (atomicStart s c).Wf := by
  unfold atomicStart
  split
  · refine Coll.local_wf c h fun st t ht => ?_
    obtain ⟨⟨st', v, t'⟩, hr, he⟩ := Option.map_eq_some_iff.mp ht
    cases he
    exact State.remoteAtomic_wf h hr
  · exact directSend_wf h ..

theorem eventStart_wf (c : Coll) : (eventStart s c).Wf := by
  grind [eventStart, Work.Wf, directSend_wf, State.genEvent_mem]

theorem slotPiece_wf (c : Coll) (k : Nat) (o : Nat × Nat) : (slotPiece s c k o).Wf := by
  unfold slotPiece
  refine Coll.after_wf c _ (State.vread_wf h ..) fun s h => ?_
  split
  · exact Coll.after_wf c _ (State.vwrite_wf h ..) fun _ h => h
  · exact collSend_wf h ..

theorem collStart_wf (c : Coll) : (collStart s c).Wf := by
  unfold collStart
  dsimp only
  split
  · refine Work.foldl_wf (f := fun s c b => if c.chunkOf b = c.myrank then
      collRead s c b fun s bs => finalBlock s { c with reads := c.reads + 1 } b bs else .go s c) (fun s c b h => ?_) _ h
    split
    · exact collRead_wf h c b fun s bs h => finalBlock_wf h ..
    · exact h
  · split
    · exact h
    · refine Work.foldl_wf (f := fun s c b => collRead s c b fun s bs => _) (fun s c b h => ?_) _ h
      refine collRead_wf h c b fun s bs h => ?_
      split
      · exact Work.bind_wf (collWrite_wf h ..) fun s c h => childSteps_wf h ..
      · exact finalBlock_wf h ..
  · refine foldl_inv _ (fun w k hw => Work.bind_wf hw fun s c h => ?_) h
    exact Work.foldl_wf (fun s c o h => slotPiece_wf h c k o) _ h
  · exact Work.foldl_wf (fun s c o h => putPiece_wf h c o) _ h
  · exact Work.foldl_wf (fun s c o h => getPiece_wf h c o) _ h
  · exact atomicStart_wf h c
  · exact eventStart_wf h c
  · split
    · refine Work.foldl_wf (f := fun s c b => if c.children = [] then treePart s c b else .go s c) (fun s c b h => ?_) _ h
      split
      · exact treePart_wf h ..
      · exact h
    · refine Work.bind_wf (Work.foldl_wf (f := fun s c b => if (c.owner b % c.width + 1) % c.width = c.myrank % c.width then
        ringPart s c b 0 none else .go s c) (fun s c b h => ?_) _ h) fun s c h => ?_
      · split
        · exact ringPart_wf h ..
        · exact h
      · split
        · exact sendCount_wf h c
        · exact h

theorem State.straggleSend_wf (c : Coll) (stack dev : Nat) : (s.straggleSend c stack dev).mem.wf = true := by
  grind [State.straggleSend, State.bump_mem, State.genEvent_mem, State.putColl_mem, State.noteRanks_wf]

theorem State.straggleArmed_wf (key : Nat) : (s.straggleArmed key).mem.wf = true := by
  unfold State.straggleArmed
  exact State.foldl_wf (fun s st h => State.foldl_wf (fun s g h => by grind [State.straggleSend_wf]) _ h) _ h

theorem State.collRefuse_wf (x : Cmd) (stack status : Nat) : (s.collRefuse x stack status).mem.wf = true := by
  grind [State.collRefuse, State.bump_mem, State.finishCmd_wf]

theorem State.collArm_wf (x : Cmd) (c : Coll) : (s.collArm x c).mem.wf = true := by
  have held (ctxt : Ctxt) (va : Nat) : (s.holdPage x ctxt va).mem.wf = true :=
    Safe.of_mem h (s.holdPage_mem x ctxt va)
  have refused (stack st : Nat) : Safe (s.collRefuse x stack st) := State.collRefuse_wf h ..
  have finished {t : State} (ht : Safe t) (st v : Nat) : Safe (t.collFinish c st v) := State.collFinish_wf ht ..
  have put {t : State} (ht : Safe t) (c : Coll) : Safe (t.putColl c) := Safe.of_mem ht (State.putColl_mem ..)
  have started {t : State} (ht : Safe t) (c : Coll) : (collStart t c).Wf := collStart_wf ht c
  have run {w : Work} (hw : w.Wf) (ctxt : Ctxt) (key : Nat) :
      Safe ((w.settle fun _ va => s.holdPage x ctxt va).straggleArmed key) :=
    State.straggleArmed_wf (Work.settle_wf hw fun _ va _ => held ctxt va) _
  show Safe (s.collArm x c)
  unfold State.collArm
  extract_lets tag old mine notes armed c' hold
  have ha : Safe armed := h
  split
  · exact refused ..
  · split
    · exact finished (put ha c) ..
    · have hw := started (put ha c') c'
      split
      · exact h
      · exact run hw ..

/-! Fabric. -/

theorem State.ownerFail_wf (x : TxPkt) (port status : Nat) : (s.ownerFail x port status).mem.wf = true := by
  grind [State.ownerFail, State.flushDone_mem, State.winDrop_mem, State.collFail_wf, State.completionAgain_mem,
    State.complete_wf]

theorem State.failChannel_wf (key : Nat) : (s.failChannel key).mem.wf = true := by
  unfold State.failChannel
  exact State.foldl_wf (fun s x h => State.ownerFail_wf h ..) _ (by simpa using h)

theorem State.failover_wf (key : Nat) : (s.failover key).mem.wf = true := by
  grind [State.failover, State.genEvent_mem, State.resendChannel_mem, State.failChannel_wf]

theorem State.portDown_wf (f cause : Nat) : (s.portDown f cause).mem.wf = true := by
  unfold State.portDown
  split
  · exact h
  · refine State.foldl_wf (fun s k h => State.failover_wf h k) _ ?_
    split <;> simpa using h

theorem State.replay_wf (f : Nat) : (s.replay f).mem.wf = true := by
  have resent := State.mem_foldl (f := fun s (r : Nat × Nat × List Byte) =>
    s.emitFlit f (place 13 0 r.1 ||| (s.fabPort f).ackBits ||| place 48 46 r.2.1) r.2.2) (fun s r => s.emitFlit_mem ..)
    (s.fabPort f).replay s
  grind [State.replay, State.portDown_wf, State.bump_mem, State.modFabPort_mem]

theorem State.flitControl_wf (f : Nat) (w : Word) : (s.flitControl f w).mem.wf = true := by
  grind [State.flitControl, State.modFabPort_mem, State.replay_wf]

/-! Packets. -/

theorem State.inChannel_wf (f : Nat) (p : Packet) {run : State → Handled} (hrun : ∀ s, s.mem.wf = true → (run s).Wf) :
    (s.inChannel f p run).mem.wf = true := by
  have hr := hrun s h
  unfold State.inChannel
  generalize run s = r at hr
  dsimp only
  split
  · cases r with
    | done t => rw [State.ackPacket_mem]; exact hr
    | nak st t => rw [State.ackPacket_mem]; exact hr
    | hold t => exact hr
  · split
    · rw [State.ackPacket_mem]; exact h
    · exact h

theorem State.receive_wf (f : Nat) (p : Packet) (seq : Bool) {run : State → Handled}
    (hrun : ∀ s, s.mem.wf = true → (run s).Wf) : (s.receive f p seq run).mem.wf = true := by
  unfold State.receive
  split
  · exact h
  · have hb : (s.bumpUnits (Page.fabricPort f) 1 (48 + p.payload.length) 1024).mem.wf = true := by simpa using h
    generalize s.bumpUnits (Page.fabricPort f) 1 (48 + p.payload.length) 1024 = b at hb ⊢
    have hr := hrun b hb
    have denied {c : State} (hc : c.mem.wf = true) : (c.inChannel f p fun s => .nak St.permissionFault s).mem.wf = true :=
      State.inChannel_wf hc f p fun _ h => h
    have passed := State.inChannel_wf hb f p hrun
    dsimp only
    generalize run b = r at hr ⊢
    grind [Handled.Wf, State.ackPacket_mem, State.discard_mem, State.forwardPacket_mem]

theorem State.stepArrives_wf (p : Packet) : (s.stepArrives p).Wf := by
  grind [State.stepArrives, Handled.Wf, State.collStep_wf]

theorem State.ownerDone_wf (x : TxPkt) : (s.ownerDone x).mem.wf = true := by
  unfold State.ownerDone
  split
  · split
    · split
      · exact Work.settle_wf h fun _ _ h => h
      · exact h
    · exact h
  · split <;> simpa using h
  · exact h

theorem State.refusedPacket_wf (x : TxPkt) (port status : Nat) : (s.refusedPacket x port status).mem.wf = true := by
  grind [State.refusedPacket, State.stepAgain_mem, State.ownerFail_wf]

/-! Groups. -/

theorem State.deliver_wf (f q : Nat) (p : Packet) : (s.deliver f q p).Wf := by
  grind [State.deliver, Handled.Wf, State.vwrite_wf, State.modQueue_mem, State.pageRequest_mem, State.setQfld_mem]

theorem State.hostAccess_wf (p : Packet) : (s.hostAccess p).2.2.mem.wf = true := by
  grind [State.hostAccess, State.writeBytes_wf, State.countHost_mem]

/-! HostPort. -/

theorem State.hostReadEnd_wf (core : Bool) (x y result : Nat) (bytes : List Byte) :
    (s.hostReadEnd core x y result bytes).mem.wf = true := by
  have fault (w : Word) (cause st ix fa : Nat) : (s.applyIssue x w (.fault cause st ix fa)).mem = s.mem := rfl
  grind [State.hostReadEnd, State.finishCmd_wf, State.writeBytes_wf]

theorem State.loseMoves_wf (mine : Nat → Bool) : (s.loseMoves mine).mem.wf = true := by
  unfold State.loseMoves
  exact State.foldl_wf (fun s c h => State.finishCmd_wf (by simpa using h) ..) _ h

theorem State.dropHost_wf (mine fns : Nat → Bool) : (s.dropHost mine fns).mem.wf = true := by
  unfold State.dropHost
  refine State.foldl_wf (fun s q h => State.disableQueue_wf ?_ q) _ (State.loseMoves_wf (by exact h) mine)
  exact Safe.of_mem h (State.mem_foldl (fun s e => s.cmdDone_mem ..) _ _)

theorem State.hostLoss_wf (cause : Nat) : (s.hostLoss cause).mem.wf = true := by
  unfold State.hostLoss
  dsimp only
  refine State.foldl_wf (fun s p h => ?_) _ ?_
  · split <;> simpa using h
  · rw [State.setFld_mem]
    refine State.dropHost_wf ?_ _ _
    split <;> split <;> simpa using h

theorem hostAttachEff_wf (v : Word) : (hostAttachEff v s).mem.wf = true := by
  have off {s : State} (h : s.mem.wf = true) : (s.hostQueues.foldl State.disableQueue s).mem.wf = true :=
    State.foldl_wf (fun s q h => State.disableQueue_wf h q) _ h
  unfold hostAttachEff
  extract_lets page t status stale a
  have hs : t.mem.wf = true := by unfold t; simpa using h
  have ha : a.mem.wf = true := by
    clear_value t
    unfold a status
    (repeat' split) <;> simpa using hs
  clear_value a t
  unfold status
  split
  · exact ha
  · split
    · simpa using ha
    · simpa using off ha

/-! Gddr. -/

theorem State.deviceWrite_wf (st off : Nat) (bs : List Byte) : (s.deviceWrite st off bs).mem.wf = true := by
  grind [State.deviceWrite, State.writeBytes_wf, State.cachePut_mem]

theorem State.gddrServe_wf (st off n : Nat) (data : List Byte) (ecc : Ecc) : (s.gddrServe st off n data ecc).mem.wf = true := by
  unfold State.gddrServe
  dsimp only
  split
  · split
    · simpa using h
    · split
      · simpa using h
      · rw [State.answer_mem]
        split <;> simpa using h
  · split
    · simpa using h
    · rw [State.answer_mem]
      refine State.deviceWrite_wf ?_ ..
      simpa using h

/-! Placement. -/

theorem State.poolTake_wf (page p : Nat) : (s.poolTake page p).2.mem.wf = true := by
  grind [State.poolTake, State.poolEmpty_mem, Memory.writeNat_wf, Memory.writeBytes_wf, Memory.clear_wf]

theorem State.poolGive_wf (page p frame : Nat) : (s.poolGive page p frame).mem.wf = true := by
  grind [State.poolGive, State.genEvent_mem, Memory.writeNat_wf, Memory.writeBytes_wf, Memory.clear_wf]

theorem State.releaseFrame_wf (p frame : Nat) : (s.releaseFrame p frame).mem.wf = true := by
  grind [State.releaseFrame, State.poolGive_wf]

theorem poolGiveEff_wf (page : Nat) (v : Word) : (poolGiveEff page v s).mem.wf = true := by
  grind [poolGiveEff, State.poolGive_wf]

theorem State.recordPromo_wf (stack part pasid va gddr backing : Nat) : (s.recordPromo stack part pasid va gddr
    backing).mem.wf = true := by
  grind [State.recordPromo, Memory.writeNat_wf, Memory.writeBytes_wf, Memory.clear_wf]

theorem State.movePromo_wf (r : Promo) (gddr backing : Nat) : (s.movePromo r gddr backing).mem.wf = true := by
  grind [State.movePromo, Memory.writeNat_wf, Memory.writeBytes_wf, Memory.clear_wf]

theorem State.restoreLeaf_wf (m : Mig) : (s.restoreLeaf m).mem.wf = true := by
  grind [State.restoreLeaf, Memory.writeNat_wf, Memory.writeBytes_wf, Memory.clear_wf]

theorem State.rackCheck_wf (key : Nat) : (s.rackCheck key).mem.wf = true := by
  grind [State.rackCheck, State.finishCmd_wf]

theorem State.migRefused_wf (m : Mig) (st : Nat) : (s.migRefused m st).mem.wf = true := by
  grind [State.migRefused, State.genEvent_mem, State.modBay_mem, State.bump_mem, State.roundFail_wf, State.rackRefuse_mem,
    State.rackCheck_wf]

theorem State.dropMig_wf (m : Mig) : (s.dropMig m).mem.wf = true := by
  grind [State.dropMig, State.releaseFrame_wf, State.restoreLeaf_wf, State.removeMig_mem]

theorem State.refuseMig_wf (m : Mig) (st : Nat) : (s.refuseMig m st).mem.wf = true := by
  grind [State.refuseMig, State.dropMig_wf, State.migRefused_wf]

theorem State.migsLost_wf (b : Nat) : (s.migsLost b).mem.wf = true := by
  unfold State.migsLost
  refine State.foldl_wf (fun s m h => ?_) _ (State.foldl_wf (fun s m h => State.dropMig_wf h m) _ h)
  grind [State.refuseMig_wf, State.restoreLeaf_wf, State.putMig_mem]

/-! Cellar. -/

theorem State.bayLost_wf (b : Nat) (absent : Bool) : (s.bayLost b absent).mem.wf = true := by
  grind [State.bayLost, State.setRemoval_mem, State.removeEnd_mem, State.mirrorsDegrade_mem, State.migsLost_wf,
    State.bayDown_mem, State.enterState_mem, State.genEvent_mem]

theorem State.mbxOwn_wf (b op : Nat) (data : List Word) : (s.mbxOwn b op data).mem.wf = true := by
  grind [State.mbxOwn, State.mbxAsk_mem, State.modBay_mem, State.bayQuiesced_mem, State.markWritten_mem, State.bayLost_wf,
    State.setBayStat_mem, State.genEvent_mem]

theorem State.mirrorFallback_wf (b copy line : Nat) : (s.mirrorFallback b copy line).mem.wf = true := by
  grind [State.mirrorFallback, State.writeBytes_wf, State.bump_mem]

theorem State.bayRead_wf (b off n : Nat) : (s.bayRead b off n).mem.wf = true := by
  grind [State.bayRead, State.bump_mem, State.bumpUnits_mem, State.answer_mem, State.mirrorFallback_wf]

theorem State.bayWrite_wf (b off part : Nat) (data : List Byte) (wb : Bool) : (s.bayWrite b off part data wb).mem.wf = true := by
  unfold State.bayWrite
  dsimp only
  split
  · split <;> simpa using h
  · rw [State.answer_mem]
    split
    · rw [State.mem_foldl (fun s p => s.bumpUnits_mem ..)]
      exact State.physWrite_wf h ..
    · exact State.physWrite_wf h ..

/-! Racking. -/

theorem State.rackDecide_wf (engine part pasid va : Nat) (why : MigWhy) (toBays stack : Option Nat) : (s.rackDecide engine
    part pasid va why toBays stack).2.mem.wf = true := by
  unfold State.rackDecide
  split <;> grind [State.poolTake_wf, State.placeFind_mem]

theorem State.copyPage_wf (part src dst : Nat) : (s.copyPage part src dst).2.mem.wf = true := by
  unfold State.copyPage
  refine foldl_inv (P := fun a : Nat × State => a.2.mem.wf = true) _ (fun a i ha => ?_) h
  grind [State.homeWrite_wf]

theorem State.settleFrames_wf (m : Mig) (old new : Nat) : (s.settleFrames m old new).mem.wf = true := by
  grind [State.settleFrames, State.recordPromo_wf, State.dropPromo_mem, State.bump_mem, State.movePromo_wf,
    State.releaseFrame_wf]

theorem State.finishMig_wf (m : Mig) (new : Nat) : (s.finishMig m new).mem.wf = true := by
  grind [State.finishMig, State.modBay_mem, State.evacFill_mem, State.setCmd_mem, State.rackCheck_wf, State.bump_mem,
    State.settleFrames_wf, State.removeMig_mem, Memory.writeNat_wf, Memory.writeBytes_wf, Memory.clear_wf]

theorem State.migCopy_wf (m : Mig) : (s.migCopy m).mem.wf = true := by
  grind [State.migCopy, State.rackCharge_mem, State.finishMig_wf, State.refuseMig_wf, State.evacNext_mem, State.copyPage_wf]

theorem State.moveBacking_wf (m : Mig) (r : Promo) (b : Nat) : (s.moveBacking m r b).mem.wf = true := by
  grind [State.moveBacking, State.modBay_mem, State.evacFill_mem, State.movePromo_wf, State.releaseFrame_wf, State.bump_mem,
    State.removeMig_mem, State.copyPage_wf, State.poolTake_wf, State.deferMig_mem]

theorem State.migFrame_wf (m : Mig) : (s.migFrame m).2.mem.wf = true := by
  grind [State.migFrame, State.addMig_mem, State.poolTake_wf]

theorem State.migStart_wf (m : Mig) (race busy : Bool) : (s.migStart m race busy).mem.wf = true := by
  grind [State.migStart, State.putMig_mem, State.shootdown_mem, State.migFrame_wf, State.moveBacking_wf, State.refuseMig_wf,
    State.dropMig_wf, State.evacNext_mem, State.pageRequest_mem, State.deferMig_mem, Memory.writeNat_wf,
    Memory.writeBytes_wf, Memory.clear_wf]

theorem State.bayEvacCancel_wf (b : Nat) : (s.bayEvacCancel b).mem.wf = true := by
  have dropped (l : List Mig) : (l.foldl State.dropMig s).mem.wf = true := State.foldl_wf (fun s m h => State.dropMig_wf h m) l h
  grind [State.bayEvacCancel, State.setBayStat_mem, State.modBay_mem, State.removeEnd_mem]

theorem State.bayAdmit_wf (b : Nat) (stale : Bool) : (s.bayAdmit b stale).mem.wf = true := by
  grind [State.bayAdmit, State.enterState_mem, State.modBay_mem, State.setBayStat_mem, Memory.writeNat_wf,
    Memory.writeBytes_wf, Memory.clear_wf]

theorem bayCtlEff_wf (b : Nat) (v : Word) : (bayCtlEff b v s).mem.wf = true := by
  grind [bayCtlEff, State.bayEvacCancel_wf, State.bayEvac_mem, State.bayAdmit_wf, State.storeWrite_mem]

theorem State.writeVia_wf {eff : State → State} (he : ∀ s, s.mem.wf = true → (eff s).mem.wf = true) (i : Ident)
    (page off : Nat) (v : Word) : (s.writeVia i page off v eff).mem.wf = true := by
  rcases State.writeVia_cases s i page off v eff with e | e | e | e | e <;> rw [e]
  · exact h
  · simpa using h
  · simpa using h
  · simpa using h
  · obtain ⟨l, w, ha⟩ := State.admittedState_eq s i page off
    exact he _ (by rw [ha]; exact h)

theorem State.bayCtlWrite_wf (i : Ident) (b epoch action : Nat) : (s.bayCtlWrite i b epoch action).mem.wf = true :=
  State.writeVia_wf h (fun _ h => bayCtlEff_wf h ..) ..

/-! Staging. -/

theorem State.stageLine_wf (g : Stage) (part pa : Nat) (data : List Byte) : (s.stageLine g part pa data).2.2.mem.wf = true
    := by
  grind [State.stageLine, State.bump_mem, State.cacheServe_wf]

theorem State.stageAddr_wf (x : Ctxt) (g : Stage) (va : Nat) (data : List Byte) : (State.stageAddr x s g va data).2.2.mem.wf
    = true := by
  grind [State.stageAddr, State.stageLine_wf, State.translate_wf]

theorem State.touchUnit_wf (x : Ctxt) (g : Stage) (va : Nat) : (State.touchUnit x s g va).2.2.mem.wf = true := by
  grind [State.touchUnit, State.stageAddr_wf]

theorem State.copyUnit_wf (x : Ctxt) (g : Stage) (va : Nat) (bs : List Byte) : (State.copyUnit x s g va bs).2.2.mem.wf =
    true := by
  grind [State.copyUnit, State.stageAddr_wf]

theorem State.touchLines_wf (x : Ctxt) (n : Nat) (g : Stage) (va : Nat) : (State.touchLines x n s g va).2.2.2.mem.wf = true := by
  induction n generalizing s g va with
  | zero => exact h
  | succ n ih => grind [State.touchLines, State.touchUnit_wf]

theorem State.copySource_wf (x : Ctxt) (va : Nat) : (s.copySource x va).2.2.mem.wf = true := by
  grind [State.copySource, State.moverRead_wf]

theorem State.copyLines_wf (x : Ctxt) (n : Nat) (g : Stage) (src dst : Nat) :
    (State.copyLines x n s g src dst).2.2.2.mem.wf = true := by
  induction n generalizing s g src dst with
  | zero => exact h
  | succ n ih => grind [State.copyLines, State.copySource_wf, State.copyUnit_wf]

theorem State.readBack_wf (g : Stage) (part : Nat) : (s.readBack g part).mem.wf = true := by
  unfold State.readBack
  exact State.foldl_wf (fun s l h => by grind [State.cacheServe_wf]) _ h

theorem State.entryOn_wf (g : Stage) (i k total part : Nat) : (s.entryOn g i k total part).mem.wf = true := by
  grind [State.entryOn, State.refreshRoundStat_mem, State.readBack_wf, State.putStage_mem]

theorem State.entryEnds_wf (g : Stage) (x : Ctxt) (i : Nat) (e : Ended) (k total : Nat) : (s.entryEnds g x i e k
    total).mem.wf = true := by
  unfold State.entryEnds
  grind [State.roundFail_wf, State.putStage_mem, State.pageRequest_mem, State.entryOn_wf]

theorem State.rackEntry_wf (g : Stage) (x : Ctxt) (i : Nat) (e : StageEntry) : (s.rackEntry g x i e).mem.wf = true := by
  grind [State.rackEntry, State.addMig_mem, State.pageRequest_mem, State.bump_mem, State.roundFail_wf, State.rackDecide_wf,
    State.putStage_mem]

/-! Removal. -/

theorem State.bayGone_wf (b : Nat) (absent : Bool) : (s.bayGone b absent).mem.wf = true := by
  grind [State.bayGone, State.setRemoval_mem, State.bayPowerOff_mem, State.bayLost_wf, State.enterState_mem,
    State.bayDown_mem, State.setBayStat_mem]

/-! Blend. -/

theorem State.blendRefuse_wf (c : Cmd) (st : Nat) : (s.blendRefuse c st).mem.wf = true := by
  grind [State.blendRefuse, State.finishCmd_wf]

theorem State.armEnds_wf (c : Cmd) (x : Ctxt) (e : Ended) : (s.armEnds c x e).mem.wf = true := by
  unfold State.armEnds
  grind [State.blendRefuse_wf, State.holdPage_mem]

theorem State.readGroups_wf (c : Cmd) (x : Ctxt) (stack : Nat) (as : List Nat) :
    (State.readGroups c x stack as s).2.2.mem.wf = true := by
  induction as generalizing s with
  | nil => exact h
  | cons a as ih =>
    have hr := State.vread_wf h x a 192
    have hm (va n : Nat) := State.vread_wf hr x va n
    grind [State.readGroups]

theorem State.blendEnd_wf (o : BlendOp) (st tiles groups gmax gsq : Nat) : (s.blendEnd o st tiles groups gmax gsq).mem.wf =
    true := by
  grind [State.blendEnd, State.finishCmd_wf, State.stepAdd_mem, State.bump_mem, State.bumpUnits_mem, State.refreshArmed_mem]

theorem State.genWrite_wf (o : BlendOp) (half : Nat) (w : Word) : (s.genWrite o half w).mem.wf = true := by
  grind [State.genWrite, State.vwrite_wf]

theorem State.blendFail_wf (o : BlendOp) (st : Nat) : (s.blendFail o st).mem.wf = true := by
  grind [State.blendFail, State.free_mem, State.genWrite_wf, State.blendEnd_wf, State.genEvent_mem]

theorem State.blendEnds_wf (o : BlendOp) (e : Ended) : (s.blendEnds o e).mem.wf = true := by
  unfold State.blendEnds
  grind [State.blendFail_wf, State.putBlend_mem, State.pageRequest_mem]

theorem State.blendWrite_wf (o : BlendOp) (w : BlendWrite) : (s.blendWrite o w).2.mem.wf = true := by
  grind [State.blendWrite, State.writeBytes_wf, State.vwrite_wf]

theorem State.blendWrites_wf (o : BlendOp) (ws : List BlendWrite) : (State.blendWrites o ws s).2.2.mem.wf = true := by
  induction ws generalizing s with
  | nil => exact h
  | cons w ws ih => grind [State.blendWrites, State.blendWrite_wf]

theorem State.blendWritten_wf (o : BlendOp) : (s.blendWritten o).mem.wf = true := by
  grind [State.blendWritten, State.genEvent_mem, State.blendEnd_wf, State.putBlend_mem]

theorem State.blendFlush_wf (o : BlendOp) : (s.blendFlush o).mem.wf = true := by
  grind [State.blendFlush, State.blendEnds_wf, State.blendWritten_wf, State.blendWrites_wf]

theorem State.blendClose_wf (o : BlendOp) (st : Nat) : (s.blendClose o st).mem.wf = true := by
  grind [State.blendClose, State.blendFlush_wf]

theorem State.readRanges_wf (x : Ctxt) (rs : List (Nat × Nat)) : (State.readRanges x rs s).2.2.mem.wf = true := by
  induction rs generalizing s with
  | nil => exact h
  | cons r rs ih => grind [State.readRanges, State.vread_wf]

theorem State.blendTile_wf (o : BlendOp) : (s.blendTile o).mem.wf = true := by
  grind [State.blendTile, State.blendFlush_wf, State.blendEnds_wf, State.readRanges_wf]

theorem State.progCall_wf (o : BlendOp) (core : Nat) : (s.progCall o core).mem.wf = true := by
  grind [State.progCall, State.bump_mem, State.putBlend_mem, State.blendEnds_wf, State.readRanges_wf]

theorem State.progTake_wf (o : BlendOp) (buf : List Byte) : (s.progTake o buf).mem.wf = true := by
  grind [State.progTake, State.blendFlush_wf, State.blendEnds_wf, State.readRanges_wf]

theorem State.progMore_wf (o : BlendOp) : (s.progMore o).mem.wf = true := by
  grind [State.progMore, State.progCall_wf, State.putBlend_mem]

theorem State.progStep_wf (o : BlendOp) : (s.progStep o).mem.wf = true := by
  grind [State.progStep, State.progMore_wf, State.progTake_wf]

theorem State.updateStart_wf (o : BlendOp) : (s.updateStart o).mem.wf = true := by
  grind [State.updateStart, State.putBlend_mem, State.blendClose_wf, State.blendEnds_wf, State.blendFail_wf, State.vread_wf,
    State.blendEnd_wf, State.setReg_mem]

theorem State.commitStart_wf (o : BlendOp) : (s.commitStart o).mem.wf = true := by
  grind [State.commitStart, State.putBlend_mem, State.genEvent_mem, State.bump_mem, State.blendEnd_wf, State.blendEnds_wf,
    State.readRanges_wf, State.vread_wf]

theorem State.blendQuiesce_wf (stack : Nat) : (s.blendQuiesce stack).mem.wf = true := by
  unfold State.blendQuiesce
  exact State.foldl_wf (fun s o h => State.blendEnd_wf h ..) _ h

theorem State.blendExpire_wf (stack : Nat) : (s.blendExpire stack).2.mem.wf = true := by
  unfold State.blendExpire
  exact State.foldl_wf (fun s o h => State.blendFail_wf h ..) _ h

/-! Decanter. -/

theorem decRead_wf (x : Ctxt) (va n : Nat) : (decRead x s va n).Wf := by
  grind [decRead, DecGot.Wf, State.vread_wf]

theorem decWrite_wf (x : Ctxt) (base : Nat) (ps : List (Nat × List Byte)) : (decWrite x base ps s).Wf := by
  induction ps generalizing s with
  | nil => exact h
  | cons p ps ih =>
    obtain ⟨off, bs⟩ := p
    grind [decWrite, DecGot.Wf, State.vwrite_wf]

theorem State.decClose_wf (n k : Nat) (r : DecReq) (status : Nat) (end_ : Bool) (pos : Nat) :
    (s.decClose n k r status end_ pos).mem.wf = true := by
  unfold State.decClose
  dsimp only
  have hw := decWrite_wf h (s.decCtxt n k) (s.decEntry n k r.index) [(16, leBytes 4 r.done ++ [BitVec.ofNat 8 status]),
    (22, leBytes 2 0 ++ leBytes 8 pos), (21, [BitVec.ofNat 8 (1 + 2 * end_.toNat)])]
  grind [DecGot.Wf, State.genEvent_mem, State.decHold_mem, State.setDec_mem]

theorem State.decStop_wf (n k reason status pos : Nat) (at_ : Option (Nat × Nat)) : (s.decStop n k reason status pos
    at_).mem.wf = true := by
  unfold State.decStop
  grind [State.genEvent_mem, State.bump_mem, State.setReg_mem, State.setDecPos_mem, State.decStat_mem, State.free_mem,
    State.decClose_wf]

theorem State.decTake_wf (n k : Nat) : (s.decTake n k).mem.wf = true := by
  have hr := decRead_wf h (s.decCtxt n k) (s.decEntry n k (bits (s.decReg n k 0x28) 7 4)) 32
  unfold State.decTake
  grind [DecGot.Wf, State.decClose_wf, State.decArm_mem, State.setDec_mem, State.decStat_mem, State.decStop_wf, State.decHold_mem]

theorem State.decStart_wf (n k : Nat) : (s.decStart n k).mem.wf = true := by
  have hr (t : State) (ht : t.mem.wf = true) := decRead_wf ht (t.decCtxt n k) (t.decReg n k 0).toNat 256
  unfold State.decStart
  grind [DecGot.Wf, State.decArm_mem, State.setDecPos_mem, State.decHold_mem, State.setDec_mem, State.decStat_mem]

theorem State.decHalt_wf (n k : Nat) : (s.decHalt n k).mem.wf = true := by
  grind [State.decHalt, State.decStop_wf, State.setDec_mem]

theorem streamCtlEff_wf (n k : Nat) (v : Word) : (streamCtlEff n k v s).mem.wf = true := by
  grind [streamCtlEff, State.decStart_wf, State.decRestart_mem, State.decHalt_wf]

theorem State.decQuiesce_wf (n : Nat) : (s.decQuiesce n).mem.wf = true := by
  unfold State.decQuiesce
  exact State.foldl_wf (fun s k h => State.decHalt_wf h n k) _ h

theorem decFile_wf (n k file off : Nat) : (decFile n k file off s).Wf := by
  unfold decFile
  dsimp only
  split
  · exact h
  · refine DecGot.bind_wf (decRead_wf h ..) fun p s h => ?_
    split
    · exact h
    · refine DecGot.bind_wf (decRead_wf h ..) fun hd s h => ?_
      (repeat' split) <;> exact h

theorem decRecord_wf (n k idx file off : Nat) : (decRecord n k idx file off s).Wf := by
  refine DecGot.bind_wf (decFile_wf h ..) fun bytes s h => ?_
  split
  · exact h
  · refine DecGot.bind_wf (decRead_wf h ..) fun p s h => DecGot.bind_wf (decRead_wf h ..) fun hd s h => ?_
    dsimp only
    iterate 4 (split; · exact h)
    refine DecGot.bind_wf (decRead_wf h ..) fun pl s h => ?_
    (repeat' split) <;> exact h

theorem decSlot_wf (n k size : Nat) (ps : List (Nat × List Byte)) : (decSlot n k size ps s).Wf := by
  unfold decSlot
  split
  · exact h
  · exact DecGot.bind_wf (decWrite_wf h ..) fun _ s h => show Memory.wf (State.mem _) = true by simpa using h

theorem decCloseRow_wf (n k : Nat) : (decCloseRow n k s).Wf := by
  unfold decCloseRow
  dsimp only
  split
  · exact h
  · exact DecGot.bind_wf (decSlot_wf h ..) fun _ s h => show Memory.wf (State.mem _) = true by simpa using h

theorem decRows_wf (n k : Nat) (r : DecRecord) : (decRows n k r s).Wf := by
  unfold decRows
  dsimp only
  split
  · split
    · exact h
    · split
      · exact h
      · split
        · exact h
        · split
          · exact DecGot.bind_wf (decCloseRow_wf h ..) fun _ s h => h
          · exact h
  · exact h

theorem decImage_wf (n k : Nat) (mesh : List Byte) (p : Pix) : (decImage n k mesh p s).Wf := by
  unfold decImage
  split <;> exact h

theorem decFieldOut_wf (n k : Nat) (mesh : List Byte) (f : DecField) : (decFieldOut n k mesh f s).Wf := by
  unfold decFieldOut
  split
  · exact h
  · exact decImage_wf h ..
  · split
    · exact h
    · exact h
    · exact decImage_wf (by simpa using h) ..
  · exact h
  · exact h

theorem decFieldsOut_wf (n k : Nat) (mesh : List Byte) (fs : List DecField) : (decFieldsOut n k mesh fs s).Wf := by
  induction fs generalizing s with
  | nil => exact h
  | cons f fs ih => exact DecGot.bind_wf (decFieldOut_wf h ..) fun _ s h => DecGot.bind_wf (ih h) fun _ _ h => h

theorem decMesh_wf (n k : Nat) (r : DecRecord) : (decMesh n k r s).Wf := by
  unfold decMesh
  dsimp only
  split
  · exact decRead_wf h ..
  · exact h

theorem decSlots_wf (n k : Nat) (r : DecRecord) : (decSlots n k r s).Wf := by
  refine DecGot.bind_wf (decMesh_wf h ..) fun mesh s h => DecGot.bind_wf (decFieldsOut_wf h ..) fun outs s h => ?_
  dsimp only
  split
  · exact h
  · exact decSlot_wf h ..

theorem decFuse_wf (n k : Nat) (t : DecFrame) : (decFuse n k t s).Wf := by
  unfold decFuse
  dsimp only
  split
  · exact h
  · split
    · exact h
    · exact DecGot.bind_wf (decSlot_wf h ..) fun _ s h => h

theorem State.decAfter_wf (n k : Nat) : (s.decAfter n k).mem.wf = true := by
  grind [State.decAfter, State.decClose_wf, State.decStat_mem, State.decArm_mem]

theorem decIndex_wf (n k idx : Nat) : (decIndex n k idx s).Wf := by
  refine DecGot.bind_wf (decRead_wf h ..) fun e s h => ?_
  dsimp only
  split <;> exact h

theorem decPlace_wf (n k t : Nat) (r : DecRecord) : (decPlace n k t r s).Wf := by
  have next (s : State) (h : s.mem.wf = true) : (s.setDecPos n k (t + 1)).mem.wf = true := by simpa using h
  unfold decPlace
  dsimp only
  split
  · split
    · exact h
    · split
      · exact next _ h
      · exact h
  · split
    · exact DecGot.bind_wf (decRows_wf h ..) fun _ s h => next s h
    · exact DecGot.bind_wf (decSlots_wf h ..) fun _ s h => next s h

theorem State.decSettle_wf (n k pos : Nat) (at_ : Option (Nat × Nat)) {g : DecGot Unit} (hg : g.Wf) :
    (s.decSettle n k pos at_ g).mem.wf = true := by
  unfold State.decSettle
  split
  · exact State.decAfter_wf hg n k
  · rw [State.decHold_mem]; exact hg
  · exact hg
  · exact State.decStop_wf (by exact hg) ..

theorem State.decNext_wf (n k t : Nat) (i : Option Nat) : (s.decNext n k t i).mem.wf = true := by
  unfold State.decNext
  split
  · exact State.decSettle_wf h n k t none (decCloseRow_wf h n k)
  · next i =>
    dsimp only
    have hi := decIndex_wf h n k (sampleIndex (s.dec n k).desc i).1
    generalize decIndex n k (sampleIndex (s.dec n k).desc i).1 s = g at hi ⊢
    cases g with
    | ok fo s' =>
      refine State.decSettle_wf hi n k t _ (DecGot.bind_wf (decRecord_wf hi ..) fun r s h =>
        DecGot.bind_wf (decPlace_wf h ..) fun _ s h => ?_)
      show Memory.wf (State.mem _) = true
      simpa using h
    | page va u => rw [State.decHold_mem]; exact hi
    | wait u => exact hi
    | stop r st u => exact State.decStop_wf hi ..

theorem State.decStep_wf (n k : Nat) : (s.decStep n k).mem.wf = true := by
  grind [State.decStep, State.decNext_wf, State.decSettle_wf, decFuse_wf, State.decTake_wf, State.decStart_wf, State.decArm_mem,
    State.decClose_wf]

/-! Server. -/

theorem execDatWb_wf (agent line : Nat) (evict : Bool) : OutWf (execDatWb agent line evict s) := by
  unfold execDatWb
  show Memory.wf (State.mem _) = true
  grind [State.arrived_mem, State.bump_mem, State.setAgent_mem, State.evicted_wf, State.forwarded_wf, State.noCopy_wf]

theorem execEvictClean_wf (agent line : Nat) : OutWf (execEvictClean agent line s) := by
  unfold execEvictClean
  show Memory.wf (State.mem _) = true
  grind [State.arrived_mem, State.setAgent_mem, State.evicted_wf]

theorem State.cboLine_wf (c line : Nat) (clean : Bool) : (s.cboLine c line clean).mem.wf = true := by
  grind [State.cboLine, after_wf, execDatWb_wf, execEvictClean_wf]

/-! Events. -/

theorem State.evqInterrupt_wf (e : Nat) : (s.evqInterrupt e).mem.wf = true := by
  grind [State.evqInterrupt, State.msiSend_wf, State.msixSend_mem]

theorem State.evqTake_wf (e : Nat) (g : GenEvent) : (s.evqTake e g).mem.wf = true := by
  grind [State.evqTake, State.evqInterrupt_wf, State.modEvq_mem, State.setFld_mem, State.physWrite_wf, State.evqDrop_mem]

theorem State.evqRedirect_wf (e : Nat) (g : GenEvent) : (s.evqRedirect e g).mem.wf = true := by
  grind [State.evqRedirect, State.bump_mem, State.evqTake_wf, State.genLimited_mem]

theorem State.evqDeliver_wf (g : GenEvent) (e : Nat) : (s.evqDeliver g e).mem.wf = true := by
  grind [State.evqDeliver, State.bump_mem, State.evqRedirect_wf, State.evqTake_wf]

theorem State.routeEvent_wf (g : GenEvent) : (s.routeEvent g).mem.wf = true := by
  grind [State.routeEvent, State.evqDeliver_wf, State.multiMatch_mem]

/-! Pages. -/

theorem State.abandonTask_wf (key : Nat) (x : Task) : (s.abandonTask key x).mem.wf = true := by
  grind [State.abandonTask, State.kernelComplete_wf]

theorem State.abandonCmd_wf (c : Cmd) : (s.abandonCmd c).mem.wf = true := by
  have dropped (l : List Mig) : (l.foldl State.dropMig s).mem.wf = true := State.foldl_wf (fun s m h => State.dropMig_wf h m) l h
  grind [State.abandonCmd, State.blendEnd_wf, State.blendFail_wf, State.collFail_wf, State.finishCmd_wf, State.complete_wf,
    State.abandonTask_wf]

theorem State.endWork_wf (page : Nat) : (s.endWork page).mem.wf = true := by
  have cmds (l : List Cmd) : (l.foldl State.abandonCmd s).mem.wf = true := State.foldl_wf (fun s c h => State.abandonCmd_wf h c) l h
  have tasks (l : List (Nat × Task)) : (l.foldl (fun s e => s.abandonTask e.1 e.2) s).mem.wf = true :=
    State.foldl_wf (fun s e h => State.abandonTask_wf h ..) l h
  have migs (l : List Mig) {s : State} (h : s.mem.wf = true) : (l.foldl (fun s m => s.refuseMig m St.unitUnavailable) s).mem.wf = true :=
    State.foldl_wf (fun s m h => State.refuseMig_wf h ..) l h
  unfold State.endWork
  dsimp only
  split
  · simpa using h
  · simpa using h
  · split <;> simpa using h
  · exact tasks _
  · exact tasks _
  · exact cmds _
  · exact cmds _
  · exact migs _ (cmds _)
  · exact State.blendQuiesce_wf (State.blendExpire_wf h _) _
  · exact h
  · exact State.foldl_wf (fun s k h => by simpa using h) _ h
  · exact cmds _
  · exact h

theorem State.quiesceStart_wf (page : Nat) : (s.quiesceStart page).mem.wf = true := by
  grind [State.quiesceStart, State.mirrorsDegrade_mem, State.mbxAsk_mem, State.blendQuiesce_wf, State.decQuiesce_wf,
    State.setFld_mem, State.enterState_mem]

theorem State.quiescedWork_wf (page : Nat) : (s.quiescedWork page).mem.wf = true := by
  unfold State.quiescedWork
  dsimp only
  split
  · simpa using h
  · simpa using h
  · simpa using h
  · exact State.foldl_wf (fun s k h => State.failover_wf h k) _ (by simpa using h)
  · exact h

theorem State.quiesceEnd_wf (page : Nat) : (s.quiesceEnd page).mem.wf = true := by
  grind [State.quiesceEnd, State.quiescedWork_wf, State.enterState_mem, State.genEvent_mem, State.bayQuiesced_mem]

theorem State.clearUnit_wf (page : Nat) : (s.clearUnit page).mem.wf = true := by
  unfold State.clearUnit
  dsimp only
  split
  case h_6 =>
    exact State.foldl_wf (fun s e h => by simpa using h) _ (Memory.clear_wf h ..)
  all_goals simpa using h

theorem State.resetPage_wf (page : Nat) : (s.resetPage page).mem.wf = true := by
  grind [State.resetPage, State.resetRegs_mem, State.enterState_mem, State.clearUnit_wf]

theorem State.gddrInit_wf (st g : Nat) : (s.gddrInit st g).mem.wf = true := by
  rw [State.gddrInit, State.gddrRefresh_mem, State.setFld_mem, State.setFld_mem, State.setFld_mem]
  exact Memory.filter_wf h _

theorem State.initEnd_wf (page : Nat) : (s.initEnd page).mem.wf = true := by
  grind [State.initEnd, State.enterState_mem, State.gddrInit_wf, State.trainLinks_mem]

theorem State.ctlMake_wf (page change : Nat) : (s.ctlMake page change).mem.wf = true := by
  unfold State.ctlMake
  grind [State.enterState_mem, State.quiesceClear_mem, State.quiesceStart_wf, State.pageOff_mem, State.resetPage_wf]

theorem pageCtlEff_wf (page : Nat) (v : Word) : (pageCtlEff page v s).mem.wf = true := by
  grind [pageCtlEff, State.ctlMake_wf, State.cntClear_mem, State.lastStatus_mem]

theorem State.pageCtlWrite_wf (i : Ident) (page epoch enable quiesce set_ : Nat) :
    (s.pageCtlWrite i page epoch enable quiesce set_).mem.wf = true := by
  unfold State.pageCtlWrite
  dsimp only
  split
  · exact h
  · exact State.writeVia_wf h (fun _ h => pageCtlEff_wf h ..) ..

/-! Sparing. -/

theorem State.zeroStack_wf (p : Nat) : (s.zeroStack p).mem.wf = true := by
  grind [State.zeroStack, Memory.writeNat_wf, Memory.writeBytes_wf, Memory.clear_wf]

theorem State.bindStart_wf (l p : Nat) (recalled : Bool) : (s.bindStart l p recalled).mem.wf = true := by
  unfold State.bindStart
  dsimp only
  rw [State.withBinds_mem, State.holdAll_mem]
  refine State.zeroStack_wf ?_ p
  split
  · rw [State.mem_foldl State.recallLine_mem]; exact h
  · exact h

theorem State.autoBind_wf (l : Nat) (recalled : Bool) : (s.autoBind l recalled).mem.wf = true := by
  grind [State.autoBind, State.setSpareMap_mem, State.stackUnbound_mem, State.rebind_mem, State.bindStart_wf]

theorem State.releaseStack_wf (p : Nat) : (s.releaseStack p).mem.wf = true := by
  rw [State.releaseStack, State.genEvent_mem]
  refine Memory.clear_wf ?_ ..
  rw [State.mem_foldl (fun s j => s.enterState_mem ..)]
  simpa using h

theorem spareCtlEff_wf (v : Word) : (spareCtlEff v s).mem.wf = true := by
  grind [spareCtlEff, State.releaseStack_wf, State.bindStart_wf, State.spareStatus_mem, State.storeWrite_mem]

theorem State.spareGo_wf (i : Ident) (op l p epoch : Nat) (auto : Bool) : (s.spareGo i op l p epoch auto).mem.wf = true :=
  State.writeVia_wf h (fun _ h => spareCtlEff_wf h _) ..

theorem State.loseCores_wf (key : Nat) (t : Task) (lost : List Nat) (status cause : Nat) :
    (s.loseCores key t lost status cause).mem.wf = true := by
  unfold State.loseCores
  refine State.savesDone_wf (State.failTask_wf (State.foldl_wf (fun s c h => ?_) _ h) ..) _
  grind [State.vwrite_wf, State.freeCore_mem]

theorem State.loseTasks_wf (gone : Nat → Bool) (status cause : Nat) : (s.loseTasks gone status cause).mem.wf = true := by
  unfold State.loseTasks
  exact State.foldl_wf (fun s e h => by grind [State.loseCores_wf]) _ h

theorem State.dieFail_wf (st d : Nat) (power : Bool) : (s.dieFail st d power).mem.wf = true := by
  grind [State.dieFail, State.loseTasks_wf, State.genEvent_mem, State.enterState_mem]

theorem State.dieRebind_wf (st : Nat) : (s.dieRebind st).mem.wf = true := by
  grind [State.dieRebind, State.autoBind_wf, State.evictTasks_mem]

theorem State.dropHub_wf (p : Nat) : (s.dropHub p).mem.wf = true :=
  Memory.clear_wf (State.foldl_wf (fun s m h => State.dropMig_wf h m) _ h) ..

theorem State.hubFail_wf (p : Nat) (power : Bool) : (s.hubFail p power).mem.wf = true := by
  have lost {t : State} (ht : t.mem.wf = true) (gone : Nat → Bool) (st cause : Nat) := 
     State.loseTasks_wf (State.dropHub_wf ht p) gone st cause
  unfold State.hubFail
  extract_lets pages a b homed c d e
  have ha : a.mem.wf = true := State.foldl_wf (fun s j h => by split <;> simpa using h) _ h
  have he : e.mem.wf = true := lost (by
    clear_value a
    simpa [c, homed, b] using ha) _ _ _
  clear_value e
  split
  · split
    · exact State.autoBind_wf he ..
    · exact he
  · exact he

theorem rowSkipEff_wf (page r : Nat) (v : Word) : (rowSkipEff page r v s).mem.wf = true := by
  unfold rowSkipEff
  dsimp only
  split
  · exact h
  · split
    · exact h
    · split
      · simpa using h
      · rw [State.mem_foldl (fun s p => s.modCore_mem ..), State.mem_foldl (fun s p => s.modCore_mem ..)]
        exact State.foldl_wf (fun s p h => State.zeroCore_wf h _) _ (by simpa using h)

theorem cwDataEff_wf (st : Nat) (v : Word) : (cwDataEff st v s).mem.wf = true := by
  grind [cwDataEff, State.cwAdvance_mem, State.modCore_mem, State.writeBytes_wf]

/-! Restart. -/

theorem State.restart_wf (on : Bool) (phase : Nat) : (s.restart on phase).mem.wf = true := by
  rw [State.restart, State.setPhase_mem, State.setReg_mem]
  exact Memory.filter_wf h _

theorem State.standby_wf : s.standby.mem.wf = true := by
  grind [State.standby, State.restart_wf]

theorem State.powerLost_wf : s.powerLost.mem.wf = true := by
  grind [State.powerLost, State.restart_wf]

/-! Thermal. -/

theorem State.portDieOff_wf (n : Nat) : (s.portDieOff n).mem.wf = true := by
  rw [State.portDieOff, State.withUnpowered_mem, State.mem_foldl (fun s p => s.enterState_mem ..)]
  refine State.foldl_wf (fun s j h => State.bayGone_wf h ..) _ (State.foldl_wf (fun s j h => State.portDown_wf h ..) _ h)

theorem State.tripAct_wf (c i : Nat) : (s.tripAct c i).mem.wf = true := by
  unfold State.tripAct
  grind [State.standby_wf, State.bayGone_wf, State.portDown_wf, State.portDieOff_wf, State.hubFail_wf, State.dieFail_wf,
    State.dieRebind_wf]

theorem State.feedLost_wf (f volt : Nat) : (s.feedLost f volt).mem.wf = true := by
  grind [State.feedLost, State.genEvent_mem, State.singleFeed_mem, State.powerLost_wf, State.feedStat_mem]

/-! Startup. -/

theorem State.bootStop_wf (status : Nat) : (s.bootStop status).mem.wf = true := by
  grind [State.bootStop, State.restart_wf, State.setFld_mem, State.bootStatus_mem]

theorem State.phase2_wf (strap : Bool) : (s.phase2 strap).mem.wf = true := by
  grind [State.phase2, State.setFld_mem, State.setPhase_mem, State.bootStop_wf]

theorem State.phase4_wf : s.phase4.mem.wf = true := by
  have unbound (s : State) (l q : Nat) : (s.rebind fun s => s.setSpareMap l q 0 (s.bindEpoch l)).mem = s.mem :=
    State.rebind_mem s fun s => s.setSpareMap_mem ..
  rw [State.phase4, State.setPhase_mem, State.refreshOwners_mem]
  split
  · exact h
  · refine State.foldl_wf (fun s l h => ?_) _ h
    split
    · exact h
    · split
      · exact h
      · split
        · rw [State.bindEnd_mem]; exact State.zeroStack_wf h _
        · rw [unbound]; exact h

theorem State.phase5_wf (offline : List Nat) : (s.phase5 offline).mem.wf = true := by
  rw [State.phase5, State.setPhase_mem]
  exact State.foldl_wf (fun s k h => by grind [State.gddrInit_wf, State.gddrOffline_mem]) _ h

theorem State.moduleRestart_wf (strap : Bool) : (s.moduleRestart strap).mem.wf = true := by
  grind [State.moduleRestart, State.restart_wf]

theorem bootCtlEff_wf (v : Word) (strap : Bool) : (bootCtlEff v strap s).mem.wf = true := by
  grind [bootCtlEff, State.moduleRestart_wf, State.bootStatus_mem]

/-! Registers. -/

theorem queueEff_wf (i : Ident) (page off : Nat) (v : Word) : (queueEff i page off v s).mem.wf = true := by
  unfold queueEff
  dsimp only
  split
  · exact qcfgEff_wf h ..
  all_goals simpa using h

theorem decanterEff_wf (page off : Nat) (v : Word) : (decanterEff page off v s).mem.wf = true := by
  unfold decanterEff
  dsimp only
  split
  · exact streamCtlEff_wf h ..
  all_goals simpa using h

theorem blockEff_wf (i : Ident) (k : PageKind) (page off : Nat) (v : Word) : (blockEff i k page off v s).mem.wf = true := by
  unfold blockEff
  grind [cwCtlFree_mem, cwDataEff_wf, diePwrBoundEff_mem, keepCtlEff_mem, rowSkipEff_wf, preemptReqEff_mem, rtReserveEff_mem,
    gddrCfgEff_mem, keepReleaseEff_mem, prefetchCtlEff_mem, cacheCtlEff_mem, routerCtlEff_mem, decanterEff_wf, queueEff_wf,
    winCtlEff_mem, hostAttachEff_wf, mirrorLimitEff_mem, mbxCmdEff_mem, poolGiveEff_wf, bayCtlEff_wf, arbShareEff_mem,
    regDataEff_mem, regIndexEff_mem, groupCtlEff_mem, moduleCfgEff_mem, evqEff_mem, removeAnswerEff_mem, State.identify_mem,
    thrEff_mem, bootCtlEff_wf, spareCtlEff_wf, partEff_mem, State.plainWrite_mem]

theorem regEffect_wf (i : Ident) (page off : Nat) (v : Word) : (regEffect i page off v s).mem.wf = true := by
  grind [regEffect, blockEff_wf, pageLockEff_mem, evForceEff_mem, pageCtlEff_wf, State.plainWrite_mem]

theorem State.regWrite_wf (i : Ident) (page off n : Nat) (v : Word) : (s.regWrite i page off n v).mem.wf = true := by
  unfold State.regWrite
  split
  · exact State.writeVia_wf h (fun _ h => regEffect_wf h ..) ..
  · exact h

/-! GlobalAccess. -/

theorem State.coreRegister_wf (part page off : Nat) (op : CoreOp) : (s.coreRegister part page off op).2.2.mem.wf = true :=
    by
  unfold State.coreRegister
  grind [State.regWrite_wf, State.regAccess_mem]

theorem State.amoAt_wf (part pa n aop b c : Nat) : (State.corePhys.amoAt s part pa n aop b c).2.2.mem.wf = true := by
  grind [State.corePhys.amoAt, State.physWrite_wf]

theorem State.corePhys_wf (part pa : Nat) (op : CoreOp) : (s.corePhys part pa op).2.2.mem.wf = true := by
  unfold State.corePhys
  grind [State.amoAt_wf, State.physWrite_wf, State.coreRegister_wf]

theorem State.coreVirt_wf (x : Ctxt) (va : Nat) (op : CoreOp) : (s.coreVirt x va op).2.2.mem.wf = true := by
  grind [State.coreVirt, State.corePhys_wf, State.translate_wf]

theorem State.coreAccess_wf (c : Nat) : (s.coreAccess c).mem.wf = true := by
  grind [State.coreAccess, State.pageStop_mem, State.modCore_mem, State.coreVirt_wf]

/-! PageAnswer. -/

theorem State.waiterAnswer_wf (w : Waiter) (good : Bool) : (s.waiterAnswer w good).mem.wf = true := by
  unfold State.waiterAnswer
  grind [State.answer_mem, State.modQueue_mem, State.collFail_wf, State.modCore_mem, State.saveFailed_mem, State.savesDone_wf,
    State.taskPaged_mem, State.failTask_wf]

theorem State.cmdPageFail_wf (c : Cmd) : (s.cmdPageFail c).mem.wf = true := by
  have hc : (s.setCmd { c with held := 0 }).mem.wf = true := by simpa using h
  unfold State.cmdPageFail
  dsimp only
  generalize s.setCmd { c with held := 0 } = t at hc ⊢
  split
  · split
    · exact State.kernelComplete_wf hc ..
    · exact State.kernelRefuse_wf hc ..
  · split
    · exact State.collRefuse_wf hc ..
    · exact State.finishCmd_wf hc ..
  · exact State.blendRefuse_wf hc ..
  · split
    · exact State.rackCheck_wf (by simpa using hc) _
    · exact State.finishCmd_wf hc ..
  · exact State.finishCmd_wf hc ..

theorem State.cmdsPaged_wf (dev pasid vpage : Nat) (good : Bool) : (s.cmdsPaged dev pasid vpage good).mem.wf = true := by
  unfold State.cmdsPaged
  exact State.foldl_wf (fun s e h => by grind [State.cmdPageFail_wf, State.setCmd_mem]) _ h

theorem State.queuesPaged_wf (dev pasid vpage : Nat) (good : Bool) : (s.queuesPaged dev pasid vpage good).mem.wf = true := by
  unfold State.queuesPaged
  exact State.foldl_wf (fun s q h => by
    grind [State.loseEntry_wf, State.retryEntries_wf, State.takeSlot_wf, State.modQueue_mem]) _ h

theorem State.stagesPaged_wf (dev pasid vpage : Nat) (good : Bool) : (s.stagesPaged dev pasid vpage good).mem.wf = true := by
  unfold State.stagesPaged
  exact State.foldl_wf (fun s g h => by grind [State.putStage_mem, State.roundFail_wf, State.readManifest_wf]) _ h

theorem State.blendsPaged_wf (dev pasid vpage : Nat) (good : Bool) : (s.blendsPaged dev pasid vpage good).mem.wf = true := by
  unfold State.blendsPaged
  exact State.foldl_wf (fun s o h => by grind [State.blendFail_wf, State.putBlend_mem]) _ h

theorem State.decPageFail_wf (n k : Nat) : (s.decPageFail n k).mem.wf = true := by
  grind [State.decPageFail, State.decStop_wf, State.decStat_mem, State.setDec_mem]

theorem State.decsPaged_wf (dev pasid vpage : Nat) (good : Bool) : (s.decsPaged dev pasid vpage good).mem.wf = true := by
  unfold State.decsPaged
  exact State.foldl_wf (fun s key h => by grind [State.decPageFail_wf, State.setDec_mem]) _ h

theorem State.migsPaged_wf (dev pasid vpage : Nat) (good : Bool) : (s.migsPaged dev pasid vpage good).mem.wf = true := by
  unfold State.migsPaged
  exact State.foldl_wf (fun s m h => by grind [State.refuseMig_wf]) _ h

/-! ServerAccess. -/

theorem State.srvStore_wf (a : SrvAccess) : (s.srvStore a).mem.wf = true := by
  unfold State.srvStore
  refine State.foldl_wf (fun s p h => ?_) _ (by simpa using h)
  grind [State.physWrite_wf, State.srvDirty_mem, State.srvHold_mem, State.storeLost_mem]

theorem State.srvMain_wf (a : SrvAccess) : (s.srvMain a).mem.wf = true := by
  grind [State.srvMain, State.srvFailed_mem, State.srvDirty_mem, State.physWrite_wf, State.answer_mem, State.modSrv_mem,
    State.srvStore_wf]

theorem State.srvIo_wf (part : Nat) (a : SrvAccess) : (s.srvIo part a).mem.wf = true := by
  grind [State.srvIo, State.srvFailed_mem, State.answer_mem, State.physWrite_wf, State.srvDeny_mem]

theorem State.srvRegister_wf (part : Option Nat) (a : SrvAccess) (page off : Nat) : (s.srvRegister part a page off).mem.wf =
    true := by
  unfold State.srvRegister
  grind [State.regAccess_mem, State.regWrite_wf, State.srvHold_mem, State.answer_mem, State.srvDeny_mem]

theorem State.srvRegion_wf (a : SrvAccess) : (s.srvRegion a).mem.wf = true := by
  grind [State.srvRegion, State.imsicWrite_mem, State.answer_mem, State.srvIo_wf, State.srvRegister_wf, State.srvMain_wf,
    State.srvDeny_mem]

end Written

section Instructions

variable {s : State} (h : s.mem.wf = true)
include h

/-! Instructions. -/

omit h in
theorem lsCheck_wf {addr len align : Nat} {f : Issue} (hf : lsCheck addr len align = some f) : f.Wf := by
  grind [lsCheck, Issue.Wf, Issue.lr, Issue.lm]

omit h in
theorem lsCheckAll_wf {rs : List (Nat × Nat)} {f : Issue} (hf : lsCheckAll rs = some f) : f.Wf := by
  induction rs with
  | nil => cases hf
  | cons r rs ih => grind [lsCheckAll, lsCheck_wf]

omit h in
theorem rangeCheck_wf {v : Word} {f : Issue} (hf : rangeCheck v = some f) : f.Wf := lsCheck_wf hf

omit h in
theorem streamCheck_wf {c : Nat} {w r : Word} {f : Issue} (hf : streamCheck s c w r = some f) : f.Wf := by
  grind [streamCheck, rangeCheck_wf, Issue.Wf, Issue.pu]

omit h in
theorem mmaCheck_wf {c : Nat} {k : Core} {es : List MqEntry} {sh : Shape} {w opa opb : Word} {f : Issue}
    (hf : mmaCheck s c k es sh w opa opb = some f) : f.Wf := by
  grind [mmaCheck, lsCheckAll_wf, Issue.Wf, Issue.il, Issue.pu]

theorem coreDone_wf (c : Nat) (k : Core) : (coreDone s c k).Wf := h

theorem elementwise_wf (c : Nat) (k : Core) (w : Word) (f : Nat → Conv) : (elementwise s c k w f).Wf := h

theorem compareInto_wf (c : Nat) (k : Core) (w : Word) (f : Nat → Bool) : (compareInto s c k w f).Wf := h

theorem quantise_wf (c : Nat) (k : Core) (w : Word) (m : Rnd) : (quantise s c k w m).Wf := h

theorem startAccess_wf (c : Nat) (k : Core) (w : Word) (va elem : Nat) : (startAccess s c k w va elem).Wf := h

theorem scalarWrite_wf (c : Nat) (k : Core) (w : Word) (reservedOk : Bool) (v : Word) :
    (scalarWrite s c k w reservedOk v).Wf := by
  grind [scalarWrite, coreDone_wf, Issue.Wf, Issue.il]

theorem jumpTo_wf (target : Word) : (jumpTo s target).Wf := by
  grind [jumpTo, Issue.Wf, Issue.lr, Issue.lm]

theorem semVfaddVfsubVfmulVfma_wf (c : Nat) (k : Core) (w : Word) : (semVfaddVfsubVfmulVfma s c k w).Wf := by
  grind [semVfaddVfsubVfmulVfma, Issue.Wf, Issue.il, elementwise_wf]

theorem semVfminVfmax_wf (c : Nat) (k : Core) (w : Word) : (semVfminVfmax s c k w).Wf := by
  grind [semVfminVfmax, Issue.Wf, Issue.il, elementwise_wf]

theorem semVapprox_wf (c : Nat) (k : Core) (w : Word) : (semVapprox s c k w).Wf := by
  grind [semVapprox, Issue.Wf, Issue.il, elementwise_wf]

theorem semVcvt_wf (c : Nat) (k : Core) (w : Word) : (semVcvt s c k w).Wf := by
  grind [semVcvt, Issue.Wf, Issue.il, coreDone_wf]

theorem semMma_wf (c : Nat) (sh : Shape) (k : Core) (w : Word) : (semMma s c sh k w).Wf := by
  grind [semMma, Issue.Wf, mmaCheck_wf, coreDone_wf]

theorem semMlw_wf (c : Nat) (k : Core) (w : Word) : (semMlw s c k w).Wf := by
  grind [semMlw, Issue.Wf, Issue.il, lsCheckAll_wf, coreDone_wf]

theorem semMsw_wf (c : Nat) (k : Core) (w : Word) : (semMsw s c k w).Wf := by
  grind [semMsw, Issue.Wf, Issue.il, coreDone_wf]

theorem semMrd_wf (c : Nat) (k : Core) (w : Word) : (semMrd s c k w).Wf := by
  grind [semMrd, Issue.Wf, Issue.il, coreDone_wf]

theorem semLdL_wf (c : Nat) (e : Ecc) (k : Core) (w : Word) : (semLdL s c e k w).Wf := by
  grind [semLdL, Issue.Wf, Issue.il, lsCheck_wf, Issue.cd, coreDone_wf, State.countEcc_mem]

theorem semStL_wf (c : Nat) (k : Core) (w : Word) : (semStL s c k w).Wf := by
  unfold semStL
  dsimp only
  split
  · trivial
  · split
    · trivial
    · split
      · exact lsCheck_wf ‹_›
      · exact Memory.writeNat_wf h ..

theorem semVld_wf (c : Nat) (e : Ecc) (k : Core) (w : Word) : (semVld s c e k w).Wf := by
  grind [semVld, Issue.Wf, Issue.il, lsCheck_wf, Issue.cd, coreDone_wf, State.countEcc_mem]

theorem semVst_wf (c : Nat) (k : Core) (w : Word) : (semVst s c k w).Wf := by
  unfold semVst
  dsimp only
  split
  · trivial
  · split
    · trivial
    · split
      · exact lsCheck_wf ‹_›
      · exact storeElems_wf h ..

theorem semLdG_wf (c : Nat) (k : Core) (w : Word) : (semLdG s c k w).Wf := by
  grind [semLdG, Issue.Wf, Issue.il, Issue.ga, startAccess_wf]

theorem semStG_wf (c : Nat) (k : Core) (w : Word) : (semStG s c k w).Wf := by
  grind [semStG, Issue.Wf, Issue.il, Issue.ga, startAccess_wf]

theorem semAmoG_wf (c : Nat) (k : Core) (w : Word) : (semAmoG s c k w).Wf := by
  grind [semAmoG, Issue.Wf, Issue.il, Issue.ga, startAccess_wf]

theorem semGather_wf (c : Nat) (k : Core) (w : Word) : (semGather s c k w).Wf := by
  grind [semGather, Issue.Wf, Issue.il, State.setCore_mem]

theorem semXfer_wf (c : Nat) (k : Core) (w : Word) : (semXfer s c k w).Wf := by
  grind [semXfer, Issue.Wf, Issue.il, rangeCheck_wf, Issue.ga, coreDone_wf]

theorem semSend_wf (c : Nat) (k : Core) (w : Word) : (semSend s c k w).Wf := by
  grind [semSend, Issue.Wf, Issue.il, streamCheck_wf, coreDone_wf]

theorem semRecv_wf (c : Nat) (k : Core) (w : Word) : (semRecv s c k w).Wf := by
  grind [semRecv, Issue.Wf, Issue.il, streamCheck_wf, pumpRecv_wf, State.setCore_mem]

theorem semSendH_wf (c : Nat) (k : Core) (w : Word) : (semSendH s c k w).Wf := by
  grind [semSendH, Issue.Wf, Issue.il, rangeCheck_wf, lsCheck_wf, coreDone_wf]

theorem semArm_wf (c : Nat) (k : Core) (w : Word) : (semArm s c k w).Wf := by
  grind [semArm, Issue.Wf, Issue.il, rangeCheck_wf, coreDone_wf]

theorem semNop_wf (c : Nat) (k : Core) (w : Word) : (semNop s c k w).Wf := by
  grind [semNop, Issue.Wf, coreDone_wf, Issue.il]

theorem semBar_wf (c : Nat) (k : Core) (w : Word) : (semBar s c k w).Wf := by
  grind [semBar, Issue.Wf, State.setCore_mem, Issue.il]

theorem semTwait_wf (c : Nat) (k : Core) (w : Word) : (semTwait s c k w).Wf := by
  grind [semTwait, Issue.Wf, Issue.il, coreDone_wf]

theorem semSyncI_wf (c : Nat) (k : Core) (w : Word) : (semSyncI s c k w).Wf := by
  grind [semSyncI, Issue.Wf, coreDone_wf, Issue.il]

theorem semEvt_wf (c : Nat) (k : Core) (w : Word) : (semEvt s c k w).Wf := by
  grind [semEvt, Issue.Wf, Issue.il, coreDone_wf, State.genEvent_mem]

theorem semCrd_wf (c : Nat) (k : Core) (w : Word) : (semCrd s c k w).Wf := by
  grind [semCrd, Issue.Wf, Issue.il, coreDone_wf]

theorem semCwr_wf (c : Nat) (k : Core) (w : Word) : (semCwr s c k w).Wf := by
  grind [semCwr, Issue.Wf, Issue.il, coreDone_wf]

theorem semEnd_wf (c : Nat) (k : Core) (w : Word) : (semEnd s c k w).Wf := by
  grind [semEnd, Issue.Wf, Issue.il, State.setCore_mem]

theorem semVsetvl_wf (c : Nat) (k : Core) (w : Word) : (semVsetvl s c k w).Wf := by
  grind [semVsetvl, Issue.Wf, Issue.il, coreDone_wf]

theorem semVaddVsubVmul_wf (c : Nat) (k : Core) (w : Word) : (semVaddVsubVmul s c k w).Wf := by
  grind [semVaddVsubVmul, Issue.Wf, Issue.il, elementwise_wf]

theorem semVandVorVxor_wf (c : Nat) (k : Core) (w : Word) : (semVandVorVxor s c k w).Wf := by
  grind [semVandVorVxor, Issue.Wf, Issue.il, elementwise_wf]

theorem semVshift_wf (c : Nat) (k : Core) (w : Word) : (semVshift s c k w).Wf := by
  grind [semVshift, Issue.Wf, Issue.il, elementwise_wf]

theorem semVcmp_wf (c : Nat) (k : Core) (w : Word) : (semVcmp s c k w).Wf := by
  grind [semVcmp, Issue.Wf, Issue.il, compareInto_wf]

theorem semVfcmp_wf (c : Nat) (k : Core) (w : Word) : (semVfcmp s c k w).Wf := by
  grind [semVfcmp, Issue.Wf, Issue.il, compareInto_wf]

theorem semKlogic_wf (c : Nat) (k : Core) (w : Word) : (semKlogic s c k w).Wf := by
  grind [semKlogic, Issue.Wf, Issue.il, coreDone_wf]

theorem semVred_wf (c : Nat) (k : Core) (w : Word) : (semVred s c k w).Wf := by
  grind [semVred, Issue.Wf, Issue.il, coreDone_wf]

theorem semVperm_wf (c : Nat) (k : Core) (w : Word) : (semVperm s c k w).Wf := by
  grind [semVperm, Issue.Wf, Issue.il, elementwise_wf]

theorem semVslide_wf (c : Nat) (k : Core) (w : Word) : (semVslide s c k w).Wf := by
  grind [semVslide, Issue.Wf, Issue.il, coreDone_wf, elementwise_wf]

theorem semVbcast_wf (c : Nat) (k : Core) (w : Word) : (semVbcast s c k w).Wf := by
  grind [semVbcast, Issue.Wf, Issue.il, elementwise_wf]

theorem semVext_wf (c : Nat) (k : Core) (w : Word) : (semVext s c k w).Wf := by
  grind [semVext, Issue.Wf, Issue.il, coreDone_wf]

theorem semCompress_wf (c : Nat) (k : Core) (w : Word) : (semCompress s c k w).Wf := by
  grind [semCompress, Issue.Wf, Issue.il, coreDone_wf]

theorem semExpand_wf (c : Nat) (k : Core) (w : Word) : (semExpand s c k w).Wf := by
  grind [semExpand, Issue.Wf, Issue.il, elementwise_wf]

theorem semMaskSummary_wf (c : Nat) (k : Core) (w : Word) : (semMaskSummary s c k w).Wf := by
  grind [semMaskSummary, Issue.Wf, Issue.il, coreDone_wf]

theorem semMaxidxMinidx_wf (c : Nat) (k : Core) (w : Word) : (semMaxidxMinidx s c k w).Wf := by
  grind [semMaxidxMinidx, Issue.Wf, coreDone_wf, Issue.il]

theorem semVqMx_wf (c : Nat) (k : Core) (w : Word) : (semVqMx s c k w).Wf := by
  grind [semVqMx, Issue.Wf, Issue.il, quantise_wf]

theorem semVqTs4_wf (c : Nat) (k : Core) (w : Word) : (semVqTs4 s c k w).Wf := by
  grind [semVqTs4, Issue.Wf, Issue.il, quantise_wf]

theorem semVqG8_wf (c : Nat) (k : Core) (w : Word) : (semVqG8 s c k w).Wf := by
  grind [semVqG8, Issue.Wf, Issue.il, quantise_wf]

theorem semVqG8l_wf (c : Nat) (k : Core) (w : Word) : (semVqG8l s c k w).Wf := by
  grind [semVqG8l, Issue.Wf, Issue.il, State.setCore_mem]

theorem semVdq_wf (c : Nat) (k : Core) (w : Word) : (semVdq s c k w).Wf := by
  grind [semVdq, Issue.Wf, Issue.il, coreDone_wf]

theorem semAluReg_wf (c : Nat) (k : Core) (w : Word) : (semAluReg s c k w).Wf := by
  grind [semAluReg, Issue.Wf, scalarWrite_wf]

theorem semAluImm_wf (c : Nat) (k : Core) (w : Word) : (semAluImm s c k w).Wf := by
  grind [semAluImm, Issue.Wf, scalarWrite_wf]

theorem semMul_wf (c : Nat) (k : Core) (w : Word) : (semMul s c k w).Wf := by
  grind [semMul, Issue.Wf, scalarWrite_wf]

theorem semLi_wf (c : Nat) (k : Core) (w : Word) : (semLi s c k w).Wf := by
  grind [semLi, Issue.Wf, scalarWrite_wf]

theorem semLih_wf (c : Nat) (k : Core) (w : Word) : (semLih s c k w).Wf := by
  grind [semLih, Issue.Wf, scalarWrite_wf]

theorem semBranch_wf (k : Core) (w : Word) : (semBranch s k w).Wf := by
  grind [semBranch, Issue.Wf, Issue.il, jumpTo_wf]

theorem semJal_wf (c : Nat) (k : Core) (w : Word) : (semJal s c k w).Wf := by
  grind [semJal, Issue.Wf, Issue.il, jumpTo_wf, State.setCore_mem]

theorem semJalr_wf (c : Nat) (k : Core) (w : Word) : (semJalr s c k w).Wf := by
  grind [semJalr, Issue.Wf, Issue.il, jumpTo_wf, State.setCore_mem]

end Instructions

section Commands

variable {s : State} (h : s.mem.wf = true)
include h

/-! Regulator. -/

theorem execRegRefill_wf (page cycles : Nat) : OutWf (execRegRefill page cycles s) := by
  grind [execRegRefill, OutWf, Safe]

theorem execRegIndexWrite_wf (i : Ident) (page : Nat) (v : Word) : OutWf (execRegIndexWrite i page v s) := by
  grind [execRegIndexWrite, OutWf, Safe, State.writeVia_wf, State.writeVia_mem, regIndexEff_mem]

theorem execRegDataWrite_wf (i : Ident) (page : Nat) (v : Word) : OutWf (execRegDataWrite i page v s) := by
  grind [execRegDataWrite, OutWf, Safe, State.writeVia_wf, State.writeVia_mem, regDataEff_mem]

/-! Cache. -/

theorem execStreamEntryExpire_wf (stack entry cycle : Nat) : OutWf (execStreamEntryExpire stack entry cycle s) := by
  unfold execStreamEntryExpire
  show Safe _
  split
  · split
    · exact Safe.of_mem h (State.modPf_mem ..)
    · exact h
  · exact h

theorem execPrefetchDepthAdjust_wf (stack : Nat) : OutWf (execPrefetchDepthAdjust stack s) := by
  grind [execPrefetchDepthAdjust, OutWf, Safe, State.modPf_mem, State.setFld_mem]

theorem execCacheAccess_wf (stack a n : Nat) (data : List Byte) (hint tag part : Nat) (ecc : Ecc) (req pasid va cycle : Nat)
    : OutWf (execCacheAccess stack a n data hint tag part ecc req pasid va cycle s) := by
  grind [execCacheAccess, OutWf, Safe, State.pfTrain_mem, State.answer_mem, State.cacheServe_wf, State.pfFollow_mem,
    State.nearServe_wf]

theorem execPrefetchIssue_wf (stack entry : Nat) : OutWf (execPrefetchIssue stack entry s) := by
  grind [execPrefetchIssue, OutWf, Safe, State.modPf_mem, State.bump_mem, State.post_mem, State.cacheInstall_mem,
    State.setBucket_mem]

theorem execKeepReleaseGo_wf (i : Ident) (stack : Nat) (v : Word) : OutWf (execKeepReleaseGo i stack v s) := by
  grind [execKeepReleaseGo, OutWf, Safe, State.writeVia_wf, State.writeVia_mem, keepReleaseEff_mem]

theorem execKeepSweepDone_wf (stack : Nat) : OutWf (execKeepSweepDone stack s) := by
  grind [execKeepSweepDone, OutWf, Safe, State.setFld_mem]

theorem execNearWaysWrite_wf (i : Ident) (stack : Nat) (v : Word) : OutWf (execNearWaysWrite i stack v s) := by
  grind [execNearWaysWrite, OutWf, Safe, State.writeVia_wf, State.writeVia_mem, cacheCtlEff_mem]

/-! Coherence. -/

theorem execRdShared_wf (agent line : Nat) : OutWf (execRdShared agent line s) := by
  grind [execRdShared, OutWf, Safe, State.request_wf]

theorem execRdUnique_wf (agent line : Nat) : OutWf (execRdUnique agent line s) := by
  grind [execRdUnique, OutWf, Safe, State.request_wf]

theorem execUpgrade_wf (agent line : Nat) : OutWf (execUpgrade agent line s) := by
  grind [execUpgrade, OutWf, Safe, State.request_wf]

theorem execRdPf_wf (agent line : Nat) : OutWf (execRdPf agent line s) := by
  grind [execRdPf, OutWf, Safe, State.arrived_mem, State.post_mem, State.dirSetEntry_mem, State.bumpUnits_mem, State.bump_mem]

theorem execRdOnce_wf (agent line off n : Nat) : OutWf (execRdOnce agent line off n s) := by
  grind [execRdOnce, OutWf, Safe, State.request_wf]

theorem execWrFull_wf (agent line : Nat) (data : List Byte) : OutWf (execWrFull agent line data s) := by
  grind [execWrFull, OutWf, Safe, State.request_wf]

theorem execWrPtl_wf (agent line mask : Nat) (data : List Byte) : OutWf (execWrPtl agent line mask data s) := by
  grind [execWrPtl, OutWf, Safe, State.request_wf]

theorem execAtomic_wf (agent line off aop size b c : Nat) : OutWf (execAtomic agent line off aop size b c s) := by
  grind [execAtomic, OutWf, Safe, State.request_wf]

theorem execInvAck_wf (agent line : Nat) : OutWf (execInvAck agent line s) := by
  grind [execInvAck, OutWf, Safe, State.arrived_mem, State.noCopy_wf]

theorem execRspMiss_wf (agent line : Nat) : OutWf (execRspMiss agent line s) := by
  grind [execRspMiss, OutWf, Safe, State.arrived_mem, State.noCopy_wf, State.bump_mem]

theorem execFwdAck_wf (agent line : Nat) : OutWf (execFwdAck agent line s) := by
  grind [execFwdAck, OutWf, Safe, State.arrived_mem, State.forwarded_wf]

theorem execCompAck_wf (agent line : Nat) : OutWf (execCompAck agent line s) := by
  grind [execCompAck, OutWf, Safe, State.arrived_mem, State.serve_wf]

theorem execSnpFwdS_wf (agent line req : Nat) : OutWf (execSnpFwdS agent line req s) := by
  grind [execSnpFwdS, OutWf, Safe, State.delivered_mem, State.post_mem, State.setAgent_mem]

theorem execSnpFwdU_wf (agent line req : Nat) : OutWf (execSnpFwdU agent line req s) := by
  grind [execSnpFwdU, OutWf, Safe, State.delivered_mem, State.post_mem, State.dropCopy_mem]

theorem execSnpInv_wf (agent line : Nat) : OutWf (execSnpInv agent line s) := by
  grind [execSnpInv, OutWf, Safe, State.delivered_mem, State.post_mem, State.dropCopy_mem]

theorem execSnpRecall_wf (agent line : Nat) : OutWf (execSnpRecall agent line s) := by
  grind [execSnpRecall, OutWf, Safe, State.delivered_mem, State.post_mem, State.dropCopy_mem]

theorem execDatS_wf (agent line status : Nat) : OutWf (execDatS agent line status s) := by
  grind [execDatS, OutWf, Safe, State.granted_wf]

theorem execDatE_wf (agent line status : Nat) : OutWf (execDatE agent line status s) := by
  grind [execDatE, OutWf, Safe, State.granted_wf]

theorem execDatM_wf (agent line status : Nat) : OutWf (execDatM agent line status s) := by
  grind [execDatM, OutWf, Safe, State.granted_wf]

theorem execGrant_wf (agent line : Nat) : OutWf (execGrant agent line s) := by
  grind [execGrant, OutWf, Safe, State.granted_wf]

theorem execComp_wf (agent line status : Nat) : OutWf (execComp agent line status s) := by
  grind [execComp, OutWf, Safe, State.answer_mem, State.delivered_mem]

theorem execDatIo_wf (agent line status : Nat) : OutWf (execDatIo agent line status s) := by
  grind [execDatIo, OutWf, Safe, State.answer_mem, State.delivered_mem]

theorem execPfDrop_wf (agent line : Nat) : OutWf (execPfDrop agent line s) := by
  grind [execPfDrop, OutWf, Safe, State.delivered_mem]

/-! VectorFloat. -/

theorem execVfaddVfsubVfmulVfma_wf (c : Nat) : OutWf (execVfaddVfsubVfmulVfma c s) := by
  grind [execVfaddVfsubVfmulVfma, OutWf, Safe, State.issue_wf, semVfaddVfsubVfmulVfma_wf]

theorem execVfminVfmax_wf (c : Nat) : OutWf (execVfminVfmax c s) :=
  State.issue_wf h c _ fun _ _ => semVfminVfmax_wf h ..

theorem execVapprox_wf (c : Nat) : OutWf (execVapprox c s) :=
  State.issue_wf h c _ fun _ _ => semVapprox_wf h ..

theorem execVcvt_wf (c : Nat) : OutWf (execVcvt c s) :=
  State.issue_wf h c _ fun _ _ => semVcvt_wf h ..

/-! Matrix. -/

theorem execMmaK16n128_wf (c : Nat) : OutWf (execMmaK16n128 c s) :=
  State.issue_wf h c _ fun _ _ => semMma_wf h ..

theorem execMmaK16n128T_wf (c : Nat) : OutWf (execMmaK16n128T c s) :=
  State.issue_wf h c _ fun _ _ => semMma_wf h ..

theorem execMmaK32n64_wf (c : Nat) : OutWf (execMmaK32n64 c s) :=
  State.issue_wf h c _ fun _ _ => semMma_wf h ..

theorem execMmaK16n64_wf (c : Nat) : OutWf (execMmaK16n64 c s) :=
  State.issue_wf h c _ fun _ _ => semMma_wf h ..

theorem execMmaK8n64_wf (c : Nat) : OutWf (execMmaK8n64 c s) :=
  State.issue_wf h c _ fun _ _ => semMma_wf h ..

theorem execMmaK16n32_wf (c : Nat) : OutWf (execMmaK16n32 c s) :=
  State.issue_wf h c _ fun _ _ => semMma_wf h ..

theorem execMlw_wf (c : Nat) : OutWf (execMlw c s) :=
  State.issue_wf h c _ fun _ _ => semMlw_wf h ..

theorem execMsw_wf (c : Nat) : OutWf (execMsw c s) :=
  State.issue_wf h c _ fun _ _ => semMsw_wf h ..

theorem execMrd_wf (c : Nat) : OutWf (execMrd c s) :=
  State.issue_wf h c _ fun _ _ => semMrd_wf h ..

/-! CoreMem. -/

theorem execLdL_wf (c : Nat) (e : Ecc) : OutWf (execLdL c e s) :=
  State.issue_wf h c _ fun _ _ => semLdL_wf h ..

theorem execStL_wf (c : Nat) : OutWf (execStL c s) :=
  State.issue_wf h c _ fun _ _ => semStL_wf h ..

theorem execVld_wf (c : Nat) (e : Ecc) : OutWf (execVld c e s) :=
  State.issue_wf h c _ fun _ _ => semVld_wf h ..

theorem execVst_wf (c : Nat) : OutWf (execVst c s) :=
  State.issue_wf h c _ fun _ _ => semVst_wf h ..

theorem execLdG_wf (c : Nat) : OutWf (execLdG c s) :=
  State.issue_wf h c _ fun _ _ => semLdG_wf h ..

theorem execStG_wf (c : Nat) : OutWf (execStG c s) :=
  State.issue_wf h c _ fun _ _ => semStG_wf h ..

theorem execAmoG_wf (c : Nat) : OutWf (execAmoG c s) :=
  State.issue_wf h c _ fun _ _ => semAmoG_wf h ..

theorem execGatherG_wf (c : Nat) : OutWf (execGatherG c s) :=
  State.issue_wf h c _ fun _ _ => semGather_wf h ..

theorem execScatterG_wf (c : Nat) : OutWf (execScatterG c s) :=
  State.issue_wf h c _ fun _ _ => semGather_wf h ..

theorem execXferL_wf (c : Nat) : OutWf (execXferL c s) :=
  State.issue_wf h c _ fun _ _ => semXfer_wf h ..

theorem execXferS_wf (c : Nat) : OutWf (execXferS c s) :=
  State.issue_wf h c _ fun _ _ => semXfer_wf h ..

/-! CoreStream. -/

theorem execSend_wf (c : Nat) : OutWf (execSend c s) :=
  State.issue_wf h c _ fun _ _ => semSend_wf h ..

theorem execRecv_wf (c : Nat) : OutWf (execRecv c s) :=
  State.issue_wf h c _ fun _ _ => semRecv_wf h ..

theorem execSendH_wf (c : Nat) : OutWf (execSendH c s) :=
  State.issue_wf h c _ fun _ _ => semSendH_wf h ..

theorem execArm_wf (c : Nat) : OutWf (execArm c s) :=
  State.issue_wf h c _ fun _ _ => semArm_wf h ..

/-! CoreControl. -/

theorem execNop_wf (c : Nat) : OutWf (execNop c s) :=
  State.issue_wf h c _ fun _ _ => semNop_wf h ..

theorem execBar_wf (c : Nat) : OutWf (execBar c s) :=
  State.issue_wf h c _ fun _ _ => semBar_wf h ..

theorem execTwait_wf (c : Nat) : OutWf (execTwait c s) :=
  State.issue_wf h c _ fun _ _ => semTwait_wf h ..

theorem execSyncI_wf (c : Nat) : OutWf (execSyncI c s) :=
  State.issue_wf h c _ fun _ _ => semSyncI_wf h ..

theorem execEvt_wf (c : Nat) : OutWf (execEvt c s) :=
  State.issue_wf h c _ fun _ _ => semEvt_wf h ..

theorem execCrd_wf (c : Nat) : OutWf (execCrd c s) :=
  State.issue_wf h c _ fun _ _ => semCrd_wf h ..

theorem execCwr_wf (c : Nat) : OutWf (execCwr c s) :=
  State.issue_wf h c _ fun _ _ => semCwr_wf h ..

theorem execEndProg_wf (c : Nat) : OutWf (execEndProg c s) := by
  grind [execEndProg, OutWf, Safe, State.noteEnd_wf, State.issue_wf, semEnd_wf]

/-! CoreEvents. -/

theorem execInstrFetch_wf (c line : Nat) (ecc : Ecc) : OutWf (execInstrFetch c line ecc s) := by
  grind [execInstrFetch, OutWf, Safe, State.coreData_mem, State.setCore_mem, State.countEcc_mem]

theorem execMmaStart_wf (c : Nat) (ecc : Ecc) : OutWf (execMmaStart c ecc s) := by
  grind [execMmaStart, OutWf, Safe, State.startHead_mem, State.setCore_mem, State.bump_mem]

theorem execKeepRampStep_wf (c a : Nat) : OutWf (execKeepRampStep c a s) := by
  grind [execKeepRampStep, OutWf, Safe, State.setCore_mem, State.bumpUnits_mem, State.startHead_mem]

theorem execKeepLevelFall_wf (c a : Nat) : OutWf (execKeepLevelFall c a s) := by
  grind [execKeepLevelFall, OutWf, Safe, State.setCore_mem, State.bumpUnits_mem]

theorem execPortRowWaitEnd_wf (c : Nat) : OutWf (execPortRowWaitEnd c s) := by
  grind [execPortRowWaitEnd, OutWf, Safe, State.setCore_mem]

theorem execMlwLoadDone_wf (c : Nat) (ecc : Ecc) : OutWf (execMlwLoadDone c ecc s) := by
  grind [execMlwLoadDone, OutWf, Safe, State.coreData_mem, State.setCore_mem, State.countEcc_mem]

theorem execStreamUnitArrive_wf (c port : Nat) (ecc : Ecc) : OutWf (execStreamUnitArrive c port ecc s) := by
  grind [execStreamUnitArrive, OutWf, Safe, State.tokenFault_mem, State.setCore_mem, State.countEcc_mem, State.modCore_mem,
    pumpRecv_wf]

theorem execCreditReturn_wf (c port : Nat) : OutWf (execCreditReturn c port s) := by
  grind [execCreditReturn, OutWf, Safe, State.returnCredit_mem]

theorem execSendHArrival_wf (c : Nat) (ecc : Ecc) : OutWf (execSendHArrival c ecc s) := by
  grind [execSendHArrival, OutWf, Safe, State.tokenFault_mem, State.writeBytes_wf, State.countEcc_mem, State.modCore_mem]

theorem execPortStall_wf (c op : Nat) : OutWf (execPortStall c op s) := by
  grind [execPortStall, OutWf, Safe, State.genEvent_mem, State.setCore_mem]

theorem execCoreDrainDone_wf (c : Nat) : OutWf (execCoreDrainDone c s) := by
  unfold execCoreDrainDone
  extract_lets k k'
  show Safe _
  split
  · exact h
  · exact State.foldl_wf (fun s p h => State.foldl_wf (fun s _ h => by simpa using h) _ h) _ h

/-! Rounds. -/

theorem execBarRelease_wf (c : Nat) : OutWf (execBarRelease c s) := by
  have swept (hs : List Nat) (part tag : Nat) {s : State} (h : Safe s) :
      Safe (hs.foldl (fun s h => s.keepSweep h part tag) s) :=
    State.foldl_wf (fun s g h => Safe.of_mem h (State.keepSweep_mem ..)) hs h
  have released (ms : List Nat) : Safe (ms.foldl (fun s m => s.modCore m Core.releaseBar) s) :=
    State.foldl_wf (fun s m h => Safe.of_mem h (State.modCore_mem ..)) ms h
  unfold execBarRelease
  show Safe _
  split
  · extract_lets ms staged a b d
    have ha : Safe a := released ms
    have hb : Safe b := Safe.of_mem ha (State.modTask_mem ..)
    have hd : Safe d := by
      unfold d
      split
      · exact hb
      · exact swept _ _ _ hb
    clear_value a d
    split
    · split
      · exact State.stageNext_wf hd ..
      · exact ha
    · exact h
  · exact h

theorem execRoundStallCycle_wf (q seq stack cause : Nat) : OutWf (execRoundStallCycle q seq stack cause s) := by
  grind [execRoundStallCycle, OutWf, Safe, State.refreshRoundStat_mem, State.putStage_mem, State.bump_mem]

theorem execRoundStall_wf (q seq stack cause : Nat) : OutWf (execRoundStall q seq stack cause s) := by
  grind [execRoundStall, OutWf, Safe, State.genEvent_mem, State.putStage_mem]

/-! Queues. -/

theorem execPartCtlWrite_wf (i : Ident) (p : Nat) (v : Word) : OutWf (execPartCtlWrite i p v s) := by
  grind [execPartCtlWrite, OutWf, Safe, State.writeVia_wf, State.writeVia_mem, partCtlEff_mem]

theorem execPartStacksWrite_wf (i : Ident) (p : Nat) (v : Word) : OutWf (execPartStacksWrite i p v s) := by
  grind [execPartStacksWrite, OutWf, Safe, State.writeVia_wf, State.writeVia_mem, partStacksEff_mem]

theorem execPartSrvWrite_wf (i : Ident) (p j : Nat) (v : Word) : OutWf (execPartSrvWrite i p j v s) := by
  grind [execPartSrvWrite, OutWf, Safe, State.writeVia_wf, State.writeVia_mem, partSrvEff_mem]

theorem execSqTail_wf (i : Ident) (q : Nat) (v : Word) : OutWf (execSqTail i q v s) := by
  grind [execSqTail, OutWf, Safe, State.writeVia_wf, State.writeVia_mem, sqTailEff_mem]

theorem execCqHead_wf (i : Ident) (q : Nat) (v : Word) : OutWf (execCqHead i q v s) := by
  grind [execCqHead, OutWf, Safe, State.writeVia_wf, State.writeVia_mem, cqHeadEff_mem]

theorem execQcfgEnableSet_wf (i : Ident) (q : Nat) (v : Word) : OutWf (execQcfgEnableSet i q v s) := by
  grind [execQcfgEnableSet, OutWf, Safe, State.writeVia_wf, State.writeVia_mem, qcfgEff_wf]

theorem execQcfgEnableClear_wf (i : Ident) (q : Nat) (v : Word) : OutWf (execQcfgEnableClear i q v s) := by
  grind [execQcfgEnableClear, OutWf, Safe, State.writeVia_wf, State.writeVia_mem, qcfgEff_wf]

theorem execQbindWrite_wf (i : Ident) (q : Nat) (v : Word) : OutWf (execQbindWrite i q v s) := by
  grind [execQbindWrite, OutWf, Safe, State.writeVia_wf, State.writeVia_mem, qbindEff_mem]

theorem execCommandFetch_wf (q : Nat) : OutWf (execCommandFetch q s) := by
  grind [execCommandFetch, OutWf, Safe, State.takeSlot_wf, State.vread_wf, State.modQueue_mem, State.pageRequest_mem]

theorem execEngineCmdActivate_wf (q seq : Nat) : OutWf (execEngineCmdActivate q seq s) := by
  grind [execEngineCmdActivate, OutWf, Safe, State.activate_mem]

theorem execRefusedRetry_wf (q seq : Nat) : OutWf (execRefusedRetry q seq s) := by
  grind [execRefusedRetry, OutWf, Safe, State.setCmd_mem]

theorem execEvent_wf (q seq : Nat) : OutWf (execEvent q seq s) := by
  grind [execEvent, OutWf, Safe, State.complete_wf, State.genEvent_mem]

theorem execFence_wf (q seq : Nat) : OutWf (execFence q seq s) := by
  grind [execFence, OutWf, Safe, State.complete_wf]

theorem execBarrier_wf (q seq : Nat) : OutWf (execBarrier q seq s) := by
  grind [execBarrier, OutWf, Safe, State.complete_wf, State.setCmd_mem]

/-! Scheduler. -/

theorem execKernel_wf (q seq : Nat) : OutWf (execKernel q seq s) := by
  unfold execKernel
  show Safe _
  split
  · next c hc ht =>
    dsimp only
    split
    · exact h
    · split
      · exact State.kernelRefuse_wf h ..
      · split
        · exact h
        · generalize hr : s.readImage ((taskOf c).ctxt ((s.leadStack (taskOf c)).getD 0)) (taskOf c).image = r
          have hr : Safe r.2.2 := hr ▸ State.readImage_wf h ..
          have he (n : Nat) : Safe (r.2.2.slotEntry { taskOf c with cheapPoints := r.2.1.cheap } n).2.2 :=
            State.slotEntry_wf hr ..
          grind [Safe, State.holdPage_mem, State.kernelRefuse_wf, State.setTask_mem]
  · exact h

omit h in
theorem State.launched_wf {t : State} (ht : Safe t) (key : Nat) (x : Task) (c : Cmd) :
    Safe ((t.setCmd { c with started := true }).taskStarted key x) :=
  State.taskStarted_wf (Safe.of_mem ht (State.setCmd_mem ..)) ..

theorem execKernelLaunch_wf (q seq : Nat) : OutWf (execKernelLaunch q seq s) := by
  unfold execKernelLaunch
  extract_lets key
  show Safe _
  split
  · next c t hc ht =>
    have completed {u : State} (hu : Safe u) (st : Nat) : Safe (u.kernelComplete key t st) := State.kernelComplete_wf hu ..
    split
    · exact h
    · split
      · exact completed h _
      · extract_lets lead cx begin restored r code
        have back (r : Ended × State) (hr : Safe r.2) : Safe (restored r) := by
          unfold restored
          split
          · exact State.launched_wf hr key t c
          · exact completed hr _
          · exact Safe.of_mem h (State.holdPage_mem ..)
          · exact h
        split
        · next n hn =>
          extract_lets e
          have he : Safe e.2.2 := State.slotEntry_wf h ..
          split
          · exact back _ (State.loadAll_wf he ..)
          · exact back _ he
        · split
          · split
            · exact back _ (State.loadAll_wf h ..)
            · exact completed h _
          · have hr : Safe r.2.2 := State.readImage_wf h ..
            have hcode : Safe code.2.2 := State.vread_wf hr ..
            split
            · exact State.launched_wf (State.foldl_wf (fun s c h => State.startCore_wf h ..) _ hcode) key t c
            · exact back _ hcode
            · exact back _ hr
  · exact h

theorem execTaskPreempt_wf (q seq : Nat) : OutWf (execTaskPreempt q seq s) := by
  grind [execTaskPreempt, OutWf, Safe, State.beginPreempt_mem]

theorem execCheapWindowExpiry_wf (q seq : Nat) : OutWf (execCheapWindowExpiry q seq s) := by
  unfold execCheapWindowExpiry
  extract_lets key
  show Safe _
  split
  · exact h
  · split
    · exact State.foldl_wf (fun s c h => by grind [State.setCore_mem, State.bump_mem]) _ (by simpa using h)
    · exact h

theorem execSliceExpiry_wf (q seq : Nat) : OutWf (execSliceExpiry q seq s) := by
  grind [execSliceExpiry, OutWf, Safe, State.beginPreempt_mem]

theorem execCoreSave_wf (c : Nat) : OutWf (execCoreSave c s) := by
  grind [execCoreSave, OutWf, Safe, State.failTask_wf, State.writeChunks_wf, State.modCore_mem, State.bumpUnits_mem,
    State.bump_mem, State.saveFailed_mem, State.savesDone_wf, State.pageRequest_mem]

theorem execTaskRestore_wf (q seq : Nat) : OutWf (execTaskRestore q seq s) := by
  grind [execTaskRestore, OutWf, Safe, State.kernelComplete_wf, State.loadAll_wf, State.refreshLead_mem, State.setTask_mem,
    State.pageRequest_mem]

theorem execTaskFail_wf (c : Nat) (hw : Bool) : OutWf (execTaskFail c hw s) := by
  grind [execTaskFail, OutWf, Safe, State.enterFaulted_mem, State.setCore_mem, State.failTask_wf]

theorem execRoundFailed_wf (q seq stack entry status : Nat) : OutWf (execRoundFailed q seq stack entry status s) := by
  grind [execRoundFailed, OutWf, Safe, State.roundFail_wf]

theorem execPreemptReqGo_wf (i : Ident) (stack : Nat) (v : Word) : OutWf (execPreemptReqGo i stack v s) := by
  grind [execPreemptReqGo, OutWf, Safe, State.writeVia_wf, State.writeVia_mem, preemptReqEff_mem]

theorem execRtReserveWrite_wf (i : Ident) (stack : Nat) (v : Word) : OutWf (execRtReserveWrite i stack v s) := by
  grind [execRtReserveWrite, OutWf, Safe, State.writeVia_wf, State.writeVia_mem, rtReserveEff_mem]

/-! Mover. -/

theorem execMove_wf (q seq n refuse park : Nat) : OutWf (execMove q seq n refuse park s) := by
  grind [execMove, OutWf, Safe, State.activate_mem, State.refuseCmd_wf, State.moveLines_wf, State.moveOn_wf]

theorem execInlineWrite_wf (q seq refuse park : Nat) : OutWf (execInlineWrite q seq refuse park s) := by
  grind [execInlineWrite, OutWf, Safe, State.activate_mem, State.refuseCmd_wf, State.inlineLines_wf, State.moveOn_wf]

/-! Collective. -/

theorem execCollective_wf (q seq : Nat) : OutWf (execCollective q seq s) := by
  unfold execCollective
  show Safe _
  split
  · exact h
  · extract_lets a x
    have ha : Safe a := Safe.of_mem h (State.activate_mem ..)
    clear_value a x
    have refused {t : State} (ht : Safe t) (p st : Nat) : Safe (t.collRefuse x p st) := State.collRefuse_wf ht ..
    have held {t : State} (ht : Safe t) (cx : Ctxt) (va : Nat) : Safe (t.holdPage x cx va) :=
      Safe.of_mem ht (State.holdPage_mem ..)
    have armed {t : State} (ht : Safe t) (c : Coll) : Safe (t.collArm x c) := State.collArm_wf ht ..
    split
    · exact ha
    · split
      · exact ha
      · split
        · exact refused ha ..
        · extract_lets cx d r bad
          have hd : Safe d.2.2 := State.vread_wf ha ..
          have hr : Safe r.2.2 := State.vread_wf hd ..
          clear_value r d
          split
          · exact held hd ..
          · exact hd
          · extract_lets st
            split
            · exact refused hd ..
            · split
              · exact held hr ..
              · exact hr
              · split
                · exact refused hr ..
                · split
                  · exact refused hr ..
                  · exact armed hr _

theorem execCollTimeout_wf (q seq : Nat) : OutWf (execCollTimeout q seq s) := by
  grind [execCollTimeout, OutWf, Safe, State.collFail_wf, State.bump_mem]

theorem execCollStepResend_wf (q seq : Nat) : OutWf (execCollStepResend q seq s) := by
  unfold execCollStepResend
  show Safe _
  split
  · exact h
  · extract_lets c' a
    have ha : (Work.go (a.putColl c') c').Wf := Safe.of_mem h ((State.putColl_mem ..).trans (State.bump_mem ..))
    exact Work.settle_wf (Work.foldl_wf (f := fun s c (p : Packet) => collSend s c (p.dst, p.op) { p with flags := 0, chseq := 0 })
      (fun s c p h => collSend_wf h ..) _ ha) fun _ _ h => h

/-! Fabric. -/

theorem execFabricSilence_wf (f : Nat) : OutWf (execFabricSilence f s) := by
  grind [execFabricSilence, OutWf, Safe, State.portDown_wf]

theorem execLaneSignalLoss_wf (f : Nat) : OutWf (execLaneSignalLoss f s) := by
  grind [execLaneSignalLoss, OutWf, Safe, State.portDown_wf]

theorem execCablePresence_wf (f : Nat) (present : Bool) : OutWf (execCablePresence f present s) := by
  grind [execCablePresence, OutWf, Safe, State.genEvent_mem, State.modFabPort_mem, State.bringUp_mem, State.portDown_wf]

theorem execBringupRestart_wf (f : Nat) : OutWf (execBringupRestart f s) := by
  grind [execBringupRestart, OutWf, Safe, State.bringUp_mem]

theorem execVintageFailRetry_wf (f : Nat) : OutWf (execVintageFailRetry f s) := by
  grind [execVintageFailRetry, OutWf, Safe, State.bringUp_mem]

theorem execVintageMessage_wf (f : Nat) (b : List Byte) : OutWf (execVintageMessage f b s) := by
  grind [execVintageMessage, OutWf, Safe, State.genEvent_mem, State.portIdle_mem, State.setFld_mem, State.setReg_mem]

theorem execVintageResend_wf (f : Nat) : OutWf (execVintageResend f s) := by
  grind [execVintageResend, OutWf, Safe, State.sendVintage_mem]

theorem execBringupStageDone_wf (f : Nat) : OutWf (execBringupStageDone f s) := by
  grind [execBringupStageDone, OutWf, Safe, State.setLstate_mem, State.sendVintage_mem, State.clearLink_mem]

theorem execBringupTimeout_wf (f : Nat) : OutWf (execBringupTimeout f s) := by
  grind [execBringupTimeout, OutWf, Safe, State.portIdle_mem]

theorem execFabricFlitReceive_wf (f : Nat) (b : List Byte) (fixed lost : Nat) :
    OutWf (execFabricFlitReceive f b fixed lost s) := by
  have pumped (f : Nat) (s : State) : ((List.range 8).foldl (fun s vc => s.pumpFlits f vc 8192) s).mem = s.mem :=
    State.mem_foldl (fun s vc => State.pumpFlits_mem ..) _ s
  have hs : Safe (((s.bumpUnits (Page.fabricPort (f % 32)) 2 fixed 1024).bump (Page.fabricPort (f % 32)) 3 lost)) := by
    simpa [Safe] using h
  unfold execFabricFlitReceive
  extract_lets f' page a hdr b' c x vc d
  show Safe _
  have hb : Safe b' := State.flitControl_wf hs ..
  have hc : Safe c := Safe.of_mem hb (pumped f' b')
  have hd : Safe d := Safe.of_mem hc (State.modFabPort_mem ..)
  have null {t : State} (ht : Safe t) (r : Bool) : Safe (t.nullFlit f' r) := Safe.of_mem ht (State.nullFlit_mem ..)
  split
  · exact h
  · split
    · exact null hs _
    · split
      · exact hb
      · split
        · exact hc
        · split
          · exact null hc _
          · split
            · exact null hd _
            · exact hd

theorem execFabricAckTimer_wf (f : Nat) : OutWf (execFabricAckTimer f s) := by
  grind [execFabricAckTimer, OutWf, Safe, State.nullFlit_mem]

theorem execModuleCfgWrite_wf (i : Ident) (v : Word) : OutWf (execModuleCfgWrite i v s) := by
  grind [execModuleCfgWrite, OutWf, Safe, State.writeVia_wf, State.writeVia_mem, moduleCfgEff_mem]

theorem execRetxTimer_wf (dst vc port : Nat) : OutWf (execRetxTimer dst vc port s) := by
  grind [execRetxTimer, OutWf, Safe, State.failChannel_wf, State.resendChannel_mem]

/-! Packets. -/

theorem execWrite_wf (f : Nat) (p : Packet) : OutWf (execWrite f p s) :=
  State.receive_wf h _ _ _ fun _ h => handled_wf h fun _ _ hr => ⟨State.remoteWrite_wf h hr, State.remoteWrite_wf h hr⟩

theorem execReadReq_wf (f : Nat) (p : Packet) : OutWf (execReadReq f p s) := by
  refine State.receive_wf h _ _ _ fun s h => handled_wf h fun st x hr => ?_
  have hx : x.2.mem.wf = true := State.remoteRead_wf h hr
  exact ⟨Safe.of_mem hx (State.respond_mem ..), hx⟩

theorem execReadRsp_wf (f : Nat) (p : Packet) : OutWf (execReadRsp f p s) := by
  refine State.receive_wf h _ _ _ fun s h => ?_
  split
  · exact h
  · next c hc =>
    extract_lets e
    have he : Safe e.2.2 := State.vwrite_wf h ..
    split
    · exact Safe.of_mem he (State.pageRequest_mem ..)
    · exact he
    · refine Work.settle_wf ?_ fun _ _ h => h
      split <;> exact he

theorem execFabricAtomic_wf (f : Nat) (p : Packet) : OutWf (execFabricAtomic f p s) := by
  refine State.receive_wf h _ _ _ fun s h => handled_wf h fun st x hr => ?_
  have hx : x.2.mem.wf = true := State.remoteAtomic_wf h hr
  exact ⟨Safe.of_mem hx (State.respond_mem ..), hx⟩

theorem execAtomicRsp_wf (f : Nat) (p : Packet) : OutWf (execAtomicRsp f p s) := by
  refine State.receive_wf h _ _ _ fun s h => ?_
  split
  · exact h
  · exact Work.settle_wf h fun _ _ h => h

theorem execEventPost_wf (f : Nat) (p : Packet) : OutWf (execEventPost f p s) :=
  State.receive_wf h _ _ _ fun s h => Safe.of_mem h (s.genEvent_mem ..)

theorem execCollStep_wf (f : Nat) (p : Packet) : OutWf (execCollStep f p s) := by
  unfold execCollStep
  show Safe _
  split
  · exact State.receive_wf h _ _ _ fun _ h => State.stepArrives_wf h _
  · split
    · exact h
    · next q rest hl =>
      have hr : (State.stepArrives { s with collLocal := rest } q).Wf := State.stepArrives_wf (by exact h) q
      generalize State.stepArrives { s with collLocal := rest } q = r at hr ⊢
      cases r with
      | done t => exact hr
      | nak st t => exact Safe.of_mem hr (State.stepAgain_mem ..)
      | hold t => exact hr

theorem execStraggle_wf (f : Nat) (p : Packet) : OutWf (execStraggle f p s) := by
  refine State.receive_wf h _ _ _ fun s h => ?_
  show Safe _
  split
  · exact Safe.of_mem h (State.straggleAt_mem ..)
  · exact h

theorem execAbort_wf (f : Nat) (p : Packet) : OutWf (execAbort f p s) := by
  refine State.receive_wf h _ _ _ fun s h => ?_
  show Safe _
  split
  · exact State.abortAt_wf h ..
  · exact h

theorem execAck_wf (f : Nat) (p : Packet) : OutWf (execAck f p s) := by
  refine State.receive_wf h _ _ _ fun s h => ?_
  extract_lets key ch gone left
  split
  · exact h
  · exact State.foldl_wf (fun s x h => State.ownerDone_wf h x) _ h

theorem execNak_wf (f : Nat) (p : Packet) : OutWf (execNak f p s) := by
  refine State.receive_wf h _ _ _ fun s h => ?_
  extract_lets key ch left t
  have ht : Safe t := h
  split
  · exact h
  · extract_lets gone
    exact State.refusedPacket_wf (State.foldl_wf (fun s x h => State.ownerDone_wf h x) _ ht) ..

/-! Groups. -/

theorem execGroupForm_wf (i : Ident) (v : Word) : OutWf (execGroupForm i v s) := by
  grind [execGroupForm, OutWf, Safe, State.writeVia_wf, State.writeVia_mem, groupCtlEff_mem]

theorem execGroupHello_wf (f : Nat) (p : Packet) : OutWf (execGroupHello f p s) := by
  refine State.receive_wf h _ _ _ fun s h => ?_
  show Safe _
  split
  · exact h
  · extract_lets g a
    have ha : Safe a := by
      unfold a
      split
      · exact Safe.of_mem h (State.groupStart_mem _)
      · exact h
    split
    · exact ha
    · exact Safe.of_mem ha ((State.groupCheck_mem ..).trans (State.groupLimit_mem _))

theorem execGroupHelloTimer_wf : OutWf (execGroupHelloTimer s) := by
  grind [execGroupHelloTimer, OutWf, Safe, State.sendHellos_mem]

theorem execGroupFormTimeout_wf : OutWf (execGroupFormTimeout s) := by
  unfold execGroupFormTimeout
  show Safe _
  split
  · split
    · exact Safe.of_mem h (State.groupCheck_mem ..)
    · exact h
  · exact h

theorem execGroupCmd_wf (f : Nat) (p : Packet) : OutWf (execGroupCmd f p s) := by
  refine State.receive_wf h _ _ _ fun s h => ?_
  split
  · exact Safe.of_mem h (State.bump_mem ..)
  · exact State.deliver_wf h ..
  · exact State.deliver_wf (Safe.of_mem h ((State.multiMatch_mem ..).trans (State.bump_mem ..))) ..

theorem execGroupCpl_wf (f : Nat) (p : Packet) : OutWf (execGroupCpl f p s) := by
  refine State.receive_wf h _ _ _ fun s h => ?_
  extract_lets q
  split
  · exact h
  · split
    · exact h
    · extract_lets e entry irq
      show Safe _
      split
      · exact h
      · exact State.writeEntry_wf h ..

theorem execGroupCmdResend_wf (q seq : Nat) : OutWf (execGroupCmdResend q seq s) := by
  grind [execGroupCmdResend, OutWf, Safe, State.sendGroup_mem, State.setCmd_mem, State.complete_wf]

theorem execHostFwdReq_wf (f : Nat) (p : Packet) : OutWf (execHostFwdReq f p s) :=
  State.receive_wf h _ _ _ fun _ h => Safe.of_mem (State.hostAccess_wf h _) (State.sendGroup_mem ..)

theorem execHostFwdRsp_wf (f : Nat) (p : Packet) : OutWf (execHostFwdRsp f p s) :=
  State.receive_wf h _ _ _ fun _ h => h

theorem execWinWrite_wf (f : Nat) (p : Packet) : OutWf (execWinWrite f p s) := by
  grind [execWinWrite, OutWf, Safe, State.receive_wf, handled_wf, State.remoteWrite_wf]

theorem execWinFlush_wf (f : Nat) (p : Packet) : OutWf (execWinFlush f p s) :=
  State.receive_wf h _ _ _ fun _ h => h

/-! HostPort. -/

theorem execBar4Doorbell_wf (fn off size : Nat) (write : Bool) (v : Word) : OutWf (execBar4Doorbell fn off size write v s)
    := by
  grind [execBar4Doorbell, OutWf, Safe, State.answer_mem, sqTailEff_mem, cqHeadEff_mem, State.msixTableWrite_mem]

theorem execMsixSend_wf (fn entry : Nat) : OutWf (execMsixSend fn entry s) := by
  grind [execMsixSend, OutWf, Safe, State.msixSend_mem]

theorem execMsixUnmask_wf (fn entry : Nat) : OutWf (execMsixUnmask fn entry s) := by
  grind [execMsixUnmask, OutWf, Safe, State.msixRelease_mem]

theorem execWindowWrite_wf (p off : Nat) (bytes : List Byte) : OutWf (execWindowWrite p off bytes s) := by
  grind [execWindowWrite, OutWf, Safe, State.bumpUnits_mem, State.winDrop_mem, State.winEntry_mem, State.remoteWrite_wf,
    State.sendGroup_mem]

theorem execWindowFlush_wf (p slot : Nat) : OutWf (execWindowFlush p slot s) := by
  grind [execWindowFlush, OutWf, Safe, State.flushDone_mem, State.sendGroup_mem]

theorem execWinReload_wf (i : Ident) (v : Word) : OutWf (execWinReload i v s) := by
  grind [execWinReload, OutWf, Safe, State.writeVia_wf, State.writeVia_mem, winCtlEff_mem]

theorem execHostReadCompletion_wf (core : Bool) (x y result : Nat) (bytes : List Byte) : OutWf (execHostReadCompletion core
    x y result bytes s) := by
  grind [execHostReadCompletion, OutWf, Safe, State.hostReadEnd_wf]

theorem execHostCompletionTimeout_wf (core : Bool) (x y : Nat) : OutWf (execHostCompletionTimeout core x y s) := by
  grind [execHostCompletionTimeout, OutWf, Safe, State.hostReadEnd_wf]

theorem execHostStall_wf (q seq : Nat) : OutWf (execHostStall q seq s) := by
  grind [execHostStall, OutWf, Safe, State.genEvent_mem, State.bump_mem, State.finishCmd_wf]

theorem execHostLoss_wf (cause : Nat) : OutWf (execHostLoss cause s) := by
  grind [execHostLoss, OutWf, Safe, State.hostLoss_wf]

theorem execHostLinkUp_wf (width rate vfs masters msix : Nat) : OutWf (execHostLinkUp width rate vfs masters msix s) := by
  grind [execHostLinkUp, OutWf, Safe, State.setFld_mem, State.enterState_mem, State.genEvent_mem, State.groupCheck_mem,
    State.sendHellos_mem, State.groupLimit_mem, State.groupStart_mem]

theorem execVfFlr_wf (p : Nat) : OutWf (execVfFlr p s) := by
  unfold execVfFlr
  extract_lets p' a b
  have ha : Safe a := State.dropHost_wf h ..
  clear_value a
  have hb : Safe b := ha
  clear_value b
  refine State.foldl_wf (fun s g h => ?_) _ hb
  split
  · exact Safe.of_mem h (State.releaseLock_mem ..)
  · exact h

theorem execLinkRecovery_wf : OutWf (execLinkRecovery s) := by
  grind [execLinkRecovery, OutWf, Safe, State.bump_mem]

theorem execHostAttach_wf (i : Ident) (v : Word) : OutWf (execHostAttach i v s) := by
  grind [execHostAttach, OutWf, Safe, State.writeVia_wf, State.writeVia_mem, hostAttachEff_wf]

theorem execHostDetach_wf (i : Ident) (v : Word) : OutWf (execHostDetach i v s) := by
  grind [execHostDetach, OutWf, Safe, State.writeVia_wf, State.writeVia_mem, hostAttachEff_wf]

/-! Gddr. -/

theorem execGddrRefresh_wf (st g : Nat) : OutWf (execGddrRefresh st g s) := by
  grind [execGddrRefresh, OutWf, Safe, State.gddrRefresh_mem]

theorem execGddrTempReading_wf (st g t : Nat) : OutWf (execGddrTempReading st g t s) := by
  have straggles (cs : List Coll) (st g : Nat) {s : State} (h : Safe s) : Safe (cs.foldl (fun s c =>
      match s.colls.find c.key with
      | some c => s.straggleSend c st g
      | none => s) s) :=
    State.foldl_wf (fun s c h => by grind [State.straggleSend_wf]) cs h
  have fails (cs : List Coll) {s : State} (h : Safe s) : Safe (cs.foldl (fun s c =>
      match s.colls.find c.key with
      | some c => s.collFail c St.localMemoryLost
      | none => s) s) :=
    State.foldl_wf (fun s c h => by grind [State.collFail_wf]) cs h
  unfold execGddrTempReading
  extract_lets st' g' page old new a b c d e f
  have hd : Safe d := by
    unfold d c b a Safe
    rw [State.gddrRefresh_mem, State.setFld_mem, State.modGddr_mem, State.markWritten_mem, State.setFld_mem]
    exact h
  clear_value d
  have he : Safe e := Safe.of_mem hd (State.genEvent_mem ..)
  have hf : Safe f := by
    unfold f
    split
    · exact he
    · exact Safe.of_mem he (State.gddrOffline_mem ..)
  clear_value e f
  show Safe _
  split
  · exact hd
  · split
    · exact straggles _ _ _ he
    · split
      · exact fails _ hf
      · exact he

theorem execGddrAccess_wf (st off n : Nat) (data : List Byte) (edc : Bool) (wait : Nat) (ecc : Ecc) : OutWf (execGddrAccess
    st off n data edc wait ecc s) := by
  grind [execGddrAccess, OutWf, Safe, State.answer_mem, State.bumpUnits_mem, State.gddrServe_wf, State.modGddr_mem]

theorem execGddrRetryAttempt_wf (st g : Nat) (edc : Bool) (ecc : Ecc) : OutWf (execGddrRetryAttempt st g edc ecc s) := by
  grind [execGddrRetryAttempt, OutWf, Safe, State.bump_mem, State.gddrServe_wf, State.modGddr_mem, State.gddrFaulted_mem]

theorem execGddrRetrain_wf (st g : Nat) : OutWf (execGddrRetrain st g s) := by
  grind [execGddrRetrain, OutWf, Safe, State.gddrFaulted_mem, State.modGddr_mem, State.genEvent_mem, State.bump_mem,
    State.setFld_mem]

theorem execGddrRetrainDone_wf (st g : Nat) : OutWf (execGddrRetrainDone st g s) := by
  grind [execGddrRetrainDone, OutWf, Safe, State.modGddr_mem, State.setFld_mem]

theorem execGddrScrub_wf (st off : Nat) (ecc : Ecc) : OutWf (execGddrScrub st off ecc s) := by
  grind [execGddrScrub, OutWf, Safe, State.bumpUnits_mem, State.gddrBad_mem, State.modGddr_mem, State.bump_mem]

theorem execLineRewrite_wf (st g : Nat) : OutWf (execLineRewrite st g s) := by
  grind [execLineRewrite, OutWf, Safe, State.modGddr_mem]

/-! Power. -/

theorem execCeilStep_wf (c i : Nat) : OutWf (execCeilStep c i s) := by
  have moved (f : Cause → Cause) : Safe ((s.modCause c i f).refreshCause c i) :=
    Safe.of_mem h ((State.refreshCause_mem ..).trans (State.modCause_mem ..))
  unfold execCeilStep
  extract_lets x now rising
  clear_value rising
  show Safe _
  split
  · split
    · exact moved _
    · exact h
  · split
    · exact moved _
    · exact h

theorem execWarnEnd_wf (c i : Nat) : OutWf (execWarnEnd c i s) := by
  grind [execWarnEnd, OutWf, Safe, State.modCause_mem, State.genEvent_mem, State.warnActions_mem, State.refreshCause_mem]

theorem execDivStep_wf (st d : Nat) : OutWf (execDivStep st d s) := by
  grind [execDivStep, OutWf, Safe, State.setFld_mem]

theorem execVoltageRampDone_wf (st d : Nat) : OutWf (execVoltageRampDone st d s) := by
  grind [execVoltageRampDone, OutWf, Safe, State.setFld_mem]

theorem execPowerGate_wf (c : Nat) : OutWf (execPowerGate c s) := by
  grind [execPowerGate, OutWf, Safe, State.setCore_mem]

theorem execDiePwrBoundWrite_wf (i : Ident) (st d : Nat) (v : Word) : OutWf (execDiePwrBoundWrite i st d v s) := by
  grind [execDiePwrBoundWrite, OutWf, Safe, State.writeVia_wf, State.writeVia_mem, diePwrBoundEff_mem]

theorem execKeepCtlWrite_wf (i : Ident) (st d : Nat) (v : Word) : OutWf (execKeepCtlWrite i st d v s) := by
  grind [execKeepCtlWrite, OutWf, Safe, State.writeVia_wf, State.writeVia_mem, keepCtlEff_mem]

theorem execPanelTimeTick_wf (n adj : Nat) : OutWf (execPanelTimeTick n adj s) := by
  grind [execPanelTimeTick, OutWf, Safe, State.setTime_mem]

theorem execTimeExchange_wf (f source hops t1 t2 t3 t4 : Nat) : OutWf (execTimeExchange f source hops t1 t2 t3 t4 s) := by
  grind [execTimeExchange, OutWf, Safe, State.setReg_mem, State.setFld_mem, State.setTime_mem]

theorem execTimeLockLoss_wf : OutWf (execTimeLockLoss s) := by
  unfold execTimeLockLoss
  show Safe _
  split
  · exact h
  · exact h

/-! Placement. -/

theorem execPoolGive_wf (i : Ident) (page : Nat) (v : Word) : OutWf (execPoolGive i page v s) := by
  grind [execPoolGive, OutWf, Safe, State.writeVia_wf, State.writeVia_mem, poolGiveEff_wf]

theorem execShootdown_wf (part vpage : Nat) : OutWf (execShootdown part vpage s) := by
  grind [execShootdown, OutWf, Safe, State.shootdown_mem]

/-! Cellar. -/

theorem execBayReqTimeout_wf (b : Nat) : OutWf (execBayReqTimeout b s) := by
  grind [execBayReqTimeout, OutWf, Safe, State.bayLost_wf, State.genEvent_mem, State.bump_mem, State.modBay_mem]

theorem execMbxOlmIdentify_wf (i : Ident) (b len : Nat) : OutWf (execMbxOlmIdentify i b len s) := by
  grind [execMbxOlmIdentify, OutWf, Safe, State.mbxWrite_mem]

theorem execMbxHealth_wf (i : Ident) (b len : Nat) : OutWf (execMbxHealth i b len s) := by
  grind [execMbxHealth, OutWf, Safe, State.mbxWrite_mem]

theorem execMbxWear_wf (i : Ident) (b len : Nat) : OutWf (execMbxWear i b len s) := by
  grind [execMbxWear, OutWf, Safe, State.mbxWrite_mem]

theorem execMbxTemperature_wf (i : Ident) (b len : Nat) : OutWf (execMbxTemperature i b len s) := by
  grind [execMbxTemperature, OutWf, Safe, State.mbxWrite_mem]

theorem execMbxEvacBegin_wf (i : Ident) (b len : Nat) : OutWf (execMbxEvacBegin i b len s) := by
  grind [execMbxEvacBegin, OutWf, Safe, State.mbxWrite_mem]

theorem execMbxEvacEnd_wf (i : Ident) (b len : Nat) : OutWf (execMbxEvacEnd i b len s) := by
  grind [execMbxEvacEnd, OutWf, Safe, State.mbxWrite_mem]

theorem execMbxRemovalReady_wf (i : Ident) (b len : Nat) : OutWf (execMbxRemovalReady i b len s) := by
  grind [execMbxRemovalReady, OutWf, Safe, State.mbxWrite_mem]

theorem execMbxReservedOpcode_wf (i : Ident) (b op len : Nat) : OutWf (execMbxReservedOpcode i b op len s) := by
  grind [execMbxReservedOpcode, OutWf, Safe, State.mbxWrite_mem]

theorem execBayHealthPoll_wf (b : Nat) : OutWf (execBayHealthPoll b s) := by
  grind [execBayHealthPoll, OutWf, Safe, State.mbxAsk_mem]

theorem execMbxResponse_wf (b result : Nat) (data : List Word) : OutWf (execMbxResponse b result data s) := by
  unfold execMbxResponse
  extract_lets b'
  show Safe _
  split
  · exact h
  · extract_lets a c d
    have ha : Safe a := h
    have hc : Safe c := State.foldl_wf (fun s k h => by simpa using h) _ ha
    have hd : Safe d := by
      unfold d
      split
      · exact Safe.of_mem hc (State.mbxEnd_mem ..)
      · split
        · exact State.mbxOwn_wf ha ..
        · exact ha
    clear_value d
    exact Safe.of_mem hd (State.mbxPump_mem ..)

theorem execHotWindowRestart_wf (stack : Nat) : OutWf (execHotWindowRestart stack s) := by
  grind [execHotWindowRestart, OutWf, Safe]

theorem execCellarAccess_wf (b off n : Nat) (data : List Byte) (part : Nat) (hub : Option Nat) (pasid va : Nat) (wb : Bool)
    (media : Nat) : OutWf (execCellarAccess b off n data part hub pasid va wb media s) := by
  grind [execCellarAccess, OutWf, Safe, State.chargeForced_mem, State.regulate_mem, State.answer_mem, State.modBay_mem,
    State.bayRead_wf, State.mediaError_mem, State.bayWrite_wf, State.demand_mem]

theorem execMirrorResync_wf (i : Ident) (b j : Nat) (v : Word) : OutWf (execMirrorResync i b j v s) := by
  grind [execMirrorResync, OutWf, Safe, State.writeVia_wf, State.writeVia_mem, mirrorLimitEff_mem]

theorem execMirrorResyncDone_wf (b j : Nat) : OutWf (execMirrorResyncDone b j s) := by
  unfold execMirrorResyncDone
  dsimp only
  show Safe _
  split
  · exact h
  · refine Safe.of_mem ?_ ((State.genEvent_mem ..).trans (State.setFld_mem ..))
    exact Memory.copyRange_wf h ..

/-! Racking. -/

theorem execPageMigrate_wf (stack idx : Nat) (race busy : Bool) : OutWf (execPageMigrate stack idx race busy s) := by
  grind [execPageMigrate, OutWf, Safe, State.migStart_wf, State.migCopy_wf]

theorem execMigrateDeferRetry_wf (stack idx : Nat) : OutWf (execMigrateDeferRetry stack idx s) := by
  grind [execMigrateDeferRetry, OutWf, Safe, State.putMig_mem]

theorem execRack_wf (q seq : Nat) : OutWf (execRack q seq s) := by
  grind [execRack, OutWf, Safe, State.activate_mem, State.rackCheck_wf, State.rackDecide_wf, State.setCmd_mem,
    State.rackRefuse_mem, State.holdPage_mem, State.addMig_mem]

theorem execBayAdmit_wf (i : Ident) (b epoch : Nat) : OutWf (execBayAdmit i b epoch s) := by
  grind [execBayAdmit, OutWf, Safe, State.bayCtlWrite_wf]

theorem execBayEvac_wf (i : Ident) (b epoch : Nat) : OutWf (execBayEvac i b epoch s) := by
  grind [execBayEvac, OutWf, Safe, State.bayCtlWrite_wf]

theorem execBayEvacCancel_wf (i : Ident) (b epoch : Nat) : OutWf (execBayEvacCancel i b epoch s) := by
  grind [execBayEvacCancel, OutWf, Safe, State.bayCtlWrite_wf]

theorem execEvacCopyDone_wf (b : Nat) : OutWf (execEvacCopyDone b s) := by
  grind [execEvacCopyDone, OutWf, Safe, State.genEvent_mem, State.mbxAsk_mem, State.setBayStat_mem, State.modBay_mem,
    State.enterState_mem, State.setFld_mem, State.mirrorsDegrade_mem]

/-! Staging. -/

theorem execManifestEntryDone_wf (q seq stack i n : Nat) : OutWf (execManifestEntryDone q seq stack i n s) := by
  have touched (x : Ctxt) (left : Nat) (g : Stage) (va total : Nat) : Safe ((State.touchLines x left s g va).2.2.2.entryEnds
      (State.touchLines x left s g va).2.2.1 x i (State.touchLines x left s g va).1 (State.touchLines x left s g va).2.1 total) :=
    State.entryEnds_wf (State.touchLines_wf h ..) ..
  unfold execManifestEntryDone
  extract_lets key
  show Safe _
  split
  · extract_lets x
    split
    · exact h
    · split
      · exact h
      · extract_lets total left
        split
        · exact State.entryEnds_wf (State.copyLines_wf h ..) ..
        · exact touched ..
        · split
          · exact State.rackEntry_wf h ..
          · exact touched ..
        · split
          · exact h
          · split
            · exact State.roundFail_wf h ..
            · exact touched ..
  · exact h

/-! Removal. -/

theorem execAttentionPress_wf (ms : Nat) : OutWf (execAttentionPress ms s) := by
  grind [execAttentionPress, OutWf, Safe, State.genEvent_mem, State.setFld_mem]

theorem execAttentionHold_wf : OutWf (execAttentionHold s) := by
  grind [execAttentionHold, OutWf, Safe, State.identify_mem]

theorem execIdentifyWrite_wf (i : Ident) (v : Word) : OutWf (execIdentifyWrite i v s) := by
  grind [execIdentifyWrite, OutWf, Safe, State.writeVia_wf, State.writeVia_mem, State.identify_mem]

theorem execDisplayAck_wf (code source : Nat) : OutWf (execDisplayAck code source s) := by
  grind [execDisplayAck, OutWf, Safe, State.genEvent_mem]

theorem execBayButtonPress_wf (b ms : Nat) : OutWf (execBayButtonPress b ms s) := by
  grind [execBayButtonPress, OutWf, Safe, State.removeStart_mem, State.bayPowerOff_mem, State.removeEnd_mem,
    State.bayEvacCancel_wf, State.bayResume_mem]

theorem execRemoveAnswer_wf (i : Ident) (v : Word) : OutWf (execRemoveAnswer i v s) := by
  grind [execRemoveAnswer, OutWf, Safe, State.writeVia_wf, State.writeVia_mem, removeAnswerEff_mem]

theorem execConsentTimeout_wf (b : Nat) : OutWf (execConsentTimeout b s) := by
  grind [execConsentTimeout, OutWf, Safe, State.removeQueued_mem]

theorem execEvacQueueStart_wf (b : Nat) : OutWf (execEvacQueueStart b s) := by
  grind [execEvacQueueStart, OutWf, Safe, State.bayEvac_mem, State.setRemoval_mem]

theorem execLatchOpen_wf (b : Nat) (absent : Bool) : OutWf (execLatchOpen b absent s) := by
  grind [execLatchOpen, OutWf, Safe, State.setBayStat_mem, State.bayPowerOff_mem, State.setRemoval_mem, State.bayGone_wf]

theorem execBaySurpriseRemoval_wf (b : Nat) (absent : Bool) : OutWf (execBaySurpriseRemoval b absent s) := by
  grind [execBaySurpriseRemoval, OutWf, Safe, State.bayGone_wf]

theorem execCartridgeInsert_wf (b width rate : Nat) (advert : Word) (capacity : Nat) (sane fit : Bool) : OutWf
    (execCartridgeInsert b width rate advert capacity sane fit s) := by
  grind [execCartridgeInsert, OutWf, Safe, State.setBayStat_mem, State.setFld_mem, State.modBay_mem, State.enterState_mem,
    State.refreshBayRate_mem, State.genEvent_mem, State.bayAdmit_wf]

/-! VectorInt. -/

theorem execVsetvl_wf (c : Nat) : OutWf (execVsetvl c s) :=
  State.issue_wf h c _ fun _ _ => semVsetvl_wf h ..

theorem execVaddVsubVmul_wf (c : Nat) : OutWf (execVaddVsubVmul c s) :=
  State.issue_wf h c _ fun _ _ => semVaddVsubVmul_wf h ..

theorem execVandVorVxor_wf (c : Nat) : OutWf (execVandVorVxor c s) :=
  State.issue_wf h c _ fun _ _ => semVandVorVxor_wf h ..

theorem execVshift_wf (c : Nat) : OutWf (execVshift c s) :=
  State.issue_wf h c _ fun _ _ => semVshift_wf h ..

theorem execVcmp_wf (c : Nat) : OutWf (execVcmp c s) :=
  State.issue_wf h c _ fun _ _ => semVcmp_wf h ..

theorem execVfcmp_wf (c : Nat) : OutWf (execVfcmp c s) :=
  State.issue_wf h c _ fun _ _ => semVfcmp_wf h ..

theorem execKlogic_wf (c : Nat) : OutWf (execKlogic c s) :=
  State.issue_wf h c _ fun _ _ => semKlogic_wf h ..

/-! VectorPerm. -/

theorem execVred_wf (c : Nat) : OutWf (execVred c s) :=
  State.issue_wf h c _ fun _ _ => semVred_wf h ..

theorem execVperm_wf (c : Nat) : OutWf (execVperm c s) :=
  State.issue_wf h c _ fun _ _ => semVperm_wf h ..

theorem execVslide_wf (c : Nat) : OutWf (execVslide c s) :=
  State.issue_wf h c _ fun _ _ => semVslide_wf h ..

theorem execVbcast_wf (c : Nat) : OutWf (execVbcast c s) :=
  State.issue_wf h c _ fun _ _ => semVbcast_wf h ..

theorem execVext_wf (c : Nat) : OutWf (execVext c s) :=
  State.issue_wf h c _ fun _ _ => semVext_wf h ..

theorem execCompress_wf (c : Nat) : OutWf (execCompress c s) :=
  State.issue_wf h c _ fun _ _ => semCompress_wf h ..

theorem execExpand_wf (c : Nat) : OutWf (execExpand c s) :=
  State.issue_wf h c _ fun _ _ => semExpand_wf h ..

theorem execMaskSummary_wf (c : Nat) : OutWf (execMaskSummary c s) :=
  State.issue_wf h c _ fun _ _ => semMaskSummary_wf h ..

theorem execMaxidxMinidx_wf (c : Nat) : OutWf (execMaxidxMinidx c s) :=
  State.issue_wf h c _ fun _ _ => semMaxidxMinidx_wf h ..

/-! VectorQuant. -/

theorem execVqMx_wf (c : Nat) : OutWf (execVqMx c s) :=
  State.issue_wf h c _ fun _ _ => semVqMx_wf h ..

theorem execVqTs4_wf (c : Nat) : OutWf (execVqTs4 c s) :=
  State.issue_wf h c _ fun _ _ => semVqTs4_wf h ..

theorem execVqG8_wf (c : Nat) : OutWf (execVqG8 c s) :=
  State.issue_wf h c _ fun _ _ => semVqG8_wf h ..

theorem execVqG8l_wf (c : Nat) : OutWf (execVqG8l c s) :=
  State.issue_wf h c _ fun _ _ => semVqG8l_wf h ..

theorem execVdq_wf (c : Nat) : OutWf (execVdq c s) :=
  State.issue_wf h c _ fun _ _ => semVdq_wf h ..

/-! Blend. -/

theorem execBlendUpdate_wf (q seq : Nat) : OutWf (execBlendUpdate q seq s) := by
  grind [execBlendUpdate, OutWf, Safe, State.blendRefuse_wf, State.vread_wf, State.armEnds_wf, State.arm_mem]

theorem execBlendCommit_wf (q seq : Nat) : OutWf (execBlendCommit q seq s) := by
  grind [execBlendCommit, OutWf, Safe, State.blendRefuse_wf, State.vread_wf, State.armEnds_wf, State.readGroups_wf,
    State.arm_mem]

theorem execCollCompletionNotify_wf (stack jobTag seq : Nat) : OutWf (execCollCompletionNotify stack jobTag seq s) := by
  grind [execCollCompletionNotify, OutWf, Safe]

theorem execBlendOpRun_wf (stack park : Nat) : OutWf (execBlendOpRun stack park s) := by
  grind [execBlendOpRun, OutWf, Safe, State.setCmd_mem, State.blendFlush_wf, State.commitStart_wf, State.updateStart_wf,
    State.progStep_wf, State.blendTile_wf, State.blendClose_wf]

theorem execProgReturn_wf (stack core a0 : Nat) (buf : List Byte) : OutWf (execProgReturn stack core a0 buf s) := by
  grind [execProgReturn, OutWf, Safe, State.blendFail_wf, State.putBlend_mem]

theorem execProgTimeout_wf (stack core : Nat) : OutWf (execProgTimeout stack core s) := by
  grind [execProgTimeout, OutWf, Safe, State.blendFail_wf]

/-! Trellis. -/

theorem execArbitration_wf (page o cycles : Nat) (reqs : List ArbReq) : OutWf (execArbitration page o cycles reqs s) := by
  grind [execArbitration, OutWf, Safe, State.arbitrate_mem]

theorem execArbStarved_wf (page o cycles : Nat) : OutWf (execArbStarved page o cycles s) := by
  grind [execArbStarved, OutWf, Safe, State.arbSync_mem, State.arbStarve_mem, State.arbAge_mem]

theorem execPrioWrite_wf (i : Ident) (page : Nat) (v : Word) (late : Bool) : OutWf (execPrioWrite i page v late s) := by
  grind [execPrioWrite, OutWf, Safe, State.writeVia_wf, State.writeVia_mem, regDataEff_mem]

theorem execArbShareWrite_wf (i : Ident) (page o : Nat) (v : Word) : OutWf (execArbShareWrite i page o v s) := by
  grind [execArbShareWrite, OutWf, Safe, State.writeVia_wf, State.writeVia_mem, arbShareEff_mem]

theorem execTrellisLinkDown_wf (stack d : Nat) : OutWf (execTrellisLinkDown stack d s) := by
  grind [execTrellisLinkDown, OutWf, Safe, State.linkDown_mem]

theorem execFlitReceive_wf (stack d : Nat) (crcOk : Bool) : OutWf (execFlitReceive stack d crcOk s) := by
  grind [execFlitReceive, OutWf, Safe, State.bump_mem, State.linkDown_mem]

theorem execPacketRoute_wf (node src requester : Nat) (inj : Option TrellisPkt) : OutWf (execPacketRoute node src requester
    inj s) := by
  grind [execPacketRoute, OutWf, Safe, State.arbResult_mem, State.inject_mem, State.routeAt_mem]

theorem execInjectHoldSet_wf (i : Ident) (stack : Nat) : OutWf (execInjectHoldSet i stack s) := by
  grind [execInjectHoldSet, OutWf, Safe, State.writeVia_wf, State.writeVia_mem, routerCtlEff_mem]

theorem execInjectHoldClear_wf (i : Ident) (stack : Nat) : OutWf (execInjectHoldClear i stack s) := by
  grind [execInjectHoldClear, OutWf, Safe, State.writeVia_wf, State.writeVia_mem, routerCtlEff_mem]

/-! Decanter. -/

theorem execStreamStart_wf (i : Ident) (n k : Nat) : OutWf (execStreamStart i n k s) := by
  grind [execStreamStart, OutWf, Safe, State.writeVia_wf, State.writeVia_mem, streamCtlEff_wf]

theorem execStreamStop_wf (i : Ident) (n k : Nat) : OutWf (execStreamStop i n k s) := by
  grind [execStreamStop, OutWf, Safe, State.writeVia_wf, State.writeVia_mem, streamCtlEff_wf]

theorem execStreamRestart_wf (i : Ident) (n k epoch : Nat) (discard : Bool) : OutWf (execStreamRestart i n k epoch discard
    s) := by
  grind [execStreamRestart, OutWf, Safe, State.writeVia_wf, State.writeVia_mem, streamCtlEff_wf]

theorem execReqTail_wf (i : Ident) (n k : Nat) (v : Word) : OutWf (execReqTail i n k v s) := by
  grind [execReqTail, OutWf, Safe, State.writeVia_wf, State.writeVia_mem, reqTailEff_mem]

theorem execRecordProcess_wf (n k : Nat) : OutWf (execRecordProcess n k s) := by
  grind [execRecordProcess, OutWf, Safe, State.decStep_wf]

/-! Server. -/

theorem execSrvLoadError_wf (c op va status : Nat) : OutWf (execSrvLoadError c op va status s) := by
  grind [execSrvLoadError, OutWf, Safe, State.srvTrap_mem]

theorem execSrvStoreLost_wf (c pa status : Nat) : OutWf (execSrvStoreLost c pa status s) := by
  grind [execSrvStoreLost, OutWf, Safe, State.storeLost_mem]

theorem execCbo_wf (c op va pa : Nat) : OutWf (execCbo c op va pa s) := by
  unfold execCbo
  extract_lets main r
  have hr : Safe r.2 := State.physWrite_wf h ..
  clear_value main r
  show Safe _
  split
  · exact h
  · split
    · exact Safe.of_mem h (State.srvTrap_mem ..)
    · split
      · exact State.cboLine_wf h ..
      · grind [Safe, State.setAgent_mem, State.storeLost_mem]
      · exact State.cboLine_wf h ..

theorem execSrvFenceIo_wf (c : Nat) (predO predW : Bool) : OutWf (execSrvFenceIo c predO predW s) := by
  grind [execSrvFenceIo, OutWf, Safe]

theorem execImsicWrite_wf (who off n data : Nat) : OutWf (execImsicWrite who off n data s) := by
  grind [execImsicWrite, OutWf, Safe, State.imsicWrite_mem]

theorem execMsiUnmask_wf (part vec : Nat) : OutWf (execMsiUnmask part vec s) := by
  unfold execMsiUnmask
  show Safe _
  split
  · exact h
  · split
    · exact h
    · extract_lets ctl
      split
      · exact h
      · split
        · exact State.msiFire_wf (Memory.writeNat_wf h ..) ..
        · exact Memory.writeNat_wf h ..

/-! Events. -/

theorem execEventPosting_wf : OutWf (execEventPosting s) := by
  grind [execEventPosting, OutWf, Safe, State.routeEvent_wf]

theorem execEvqHead_wf (i : Ident) (e : Nat) (v : Word) : OutWf (execEvqHead i e v s) := by
  grind [execEvqHead, OutWf, Safe, State.writeVia_wf, State.writeVia_mem, evqHeadEff_mem]

theorem execEvqCfgWrite_wf (i : Ident) (e : Nat) (v : Word) : OutWf (execEvqCfgWrite i e v s) := by
  grind [execEvqCfgWrite, OutWf, Safe, State.writeVia_wf, State.writeVia_mem, evqCfgEff_mem]

theorem execEvForce_wf (i : Ident) (page : Nat) (v : Word) : OutWf (execEvForce i page v s) := by
  grind [execEvForce, OutWf, Safe, State.writeVia_wf, State.writeVia_mem, evForceEff_mem]

theorem execEvqStatRead_wf (i : Ident) (e at_ n : Nat) : OutWf (execEvqStatRead i e at_ n s) := by
  grind [execEvqStatRead, OutWf, Safe, State.readVia_mem, evqStatClear_mem]

/-! Pages. -/

theorem execQuiesceDone_wf (page : Nat) : OutWf (execQuiesceDone page s) := by
  grind [execQuiesceDone, OutWf, Safe, State.quiesceEnd_wf]

theorem execQuiesceExpired_wf (page : Nat) : OutWf (execQuiesceExpired page s) := by
  grind [execQuiesceExpired, OutWf, Safe, State.genEvent_mem, State.endWork_wf, State.quiesceEnd_wf]

theorem execPageInitDone_wf (page width rate : Nat) : OutWf (execPageInitDone page width rate s) := by
  grind [execPageInitDone, OutWf, Safe, State.enterState_mem, State.setBayStat_mem, State.refreshBayRate_mem,
    State.modBay_mem, State.initEnd_wf]

theorem execUpdateDone_wf (stack status version : Nat) : OutWf (execUpdateDone stack status version s) := by
  grind [execUpdateDone, OutWf, Safe, State.markWritten_mem, State.setReg_mem, State.enterState_mem, State.lastStatus_mem]

theorem execQuiesceReq_wf (i : Ident) (page epoch : Nat) : OutWf (execQuiesceReq i page epoch s) := by
  grind [execQuiesceReq, OutWf, Safe, State.pageCtlWrite_wf]

theorem execQuiesceClear_wf (i : Ident) (page epoch : Nat) : OutWf (execQuiesceClear i page epoch s) := by
  grind [execQuiesceClear, OutWf, Safe, State.pageCtlWrite_wf]

theorem execResetReq_wf (i : Ident) (page epoch : Nat) : OutWf (execResetReq i page epoch s) := by
  grind [execResetReq, OutWf, Safe, State.pageCtlWrite_wf]

theorem execUpdateReq_wf (i : Ident) (page epoch : Nat) : OutWf (execUpdateReq i page epoch s) := by
  grind [execUpdateReq, OutWf, Safe, State.pageCtlWrite_wf]

theorem execEnableClear_wf (i : Ident) (page epoch : Nat) : OutWf (execEnableClear i page epoch s) := by
  grind [execEnableClear, OutWf, Safe, State.pageCtlWrite_wf]

theorem execEnableSet_wf (i : Ident) (page epoch : Nat) : OutWf (execEnableSet i page epoch s) := by
  grind [execEnableSet, OutWf, Safe, State.pageCtlWrite_wf]

theorem execCntClear_wf (i : Ident) (page epoch : Nat) : OutWf (execCntClear i page epoch s) := by
  grind [execCntClear, OutWf, Safe, State.pageCtlWrite_wf]

theorem execPageLockAcquire_wf (i : Ident) (page : Nat) : OutWf (execPageLockAcquire i page s) := by
  grind [execPageLockAcquire, OutWf, Safe, State.writeVia_wf, State.writeVia_mem, pageLockEff_mem]

theorem execPageLockRelease_wf (i : Ident) (page : Nat) : OutWf (execPageLockRelease i page s) := by
  grind [execPageLockRelease, OutWf, Safe, State.writeVia_wf, State.writeVia_mem, pageLockEff_mem]

theorem execPageLockIdleExpiry_wf (page : Nat) : OutWf (execPageLockIdleExpiry page s) := by
  grind [execPageLockIdleExpiry, OutWf, Safe, State.releaseLock_mem]

/-! Sparing. -/

theorem execRouteRebuild_wf (tables : List (Nat × Nat × Nat)) : OutWf (execRouteRebuild tables s) := by
  have ha : Safe (s.rebuildRoutes tables) := Safe.of_mem h (s.rebuildRoutes_mem tables)
  unfold execRouteRebuild
  extract_lets drained a bs b
  have hb : Safe b := Safe.of_mem ha (State.withBinds_mem ..)
  show Safe _
  split
  · exact Safe.foldl (fun s b h => Safe.of_mem h (s.bindEnd_mem b.1 b.2)) _ hb
  · exact ha

theorem execSpareBind_wf (i : Ident) (l p epoch : Nat) (auto : Bool) : OutWf (execSpareBind i l p epoch auto s) := by
  grind [execSpareBind, OutWf, Safe, State.spareGo_wf]

theorem execSpareRelease_wf (i : Ident) (p epoch : Nat) (auto : Bool) : OutWf (execSpareRelease i p epoch auto s) := by
  grind [execSpareRelease, OutWf, Safe, State.spareGo_wf]

theorem execDieFailed_wf (st d : Nat) : OutWf (execDieFailed st d s) := by
  grind [execDieFailed, OutWf, Safe, State.dieRebind_wf, State.dieFail_wf]

theorem execStackFailed_wf (p : Nat) : OutWf (execStackFailed p s) := by
  grind [execStackFailed, OutWf, Safe, State.hubFail_wf]

theorem execRouterLoss_wf (p : Nat) (off : Bool) : OutWf (execRouterLoss p off s) := by
  grind [execRouterLoss, OutWf, Safe, State.hubFail_wf, State.enterState_mem]

theorem execLostTimeout_wf (p : Nat) : OutWf (execLostTimeout p s) := by
  unfold execLostTimeout
  show Safe _
  split
  · exact h
  · split
    · exact h
    · extract_lets g lost a b silent c d cs e f
      have hb : Safe b := State.foldl_wf (fun s m h => Safe.of_mem h (State.refuseRequest_mem ..)) _ (by exact h)
      have hc : Safe c := State.foldl_wf (fun s line h => Safe.of_mem h (State.endTxn_mem ..)) _ hb
      have hd : Safe d := Safe.of_mem hc (State.endNear_mem ..)
      have he : Safe e := State.foldl_wf (fun s c h => State.finishCmd_wf h ..) _ hd
      clear_value e
      exact he

theorem execCapChanged_wf : OutWf (execCapChanged s) := by
  grind [execCapChanged, OutWf, Safe, State.setReg_mem, State.genEvent_mem]

theorem execUnavailTick_wf : OutWf (execUnavailTick s) := by
  grind [execUnavailTick, OutWf, Safe, State.bump_mem]

theorem execRowSkipWrite_wf (i : Ident) (st d r : Nat) (v : Word) : OutWf (execRowSkipWrite i st d r v s) := by
  grind [execRowSkipWrite, OutWf, Safe, State.writeVia_wf, State.writeVia_mem, rowSkipEff_wf]

theorem execCwDataAccess_wf (i : Ident) (st : Nat) (write : Option Word) (at_ n : Nat) :
    OutWf (execCwDataAccess i st write at_ n s) := by
  unfold execCwDataAccess
  extract_lets st'
  show Safe _
  split
  · exact State.writeVia_wf h (fun _ h => cwDataEff_wf h ..) ..
  · exact Safe.of_mem h (State.readVia_mem s (fun lo hi s => cwDataRead_mem s _ lo hi) ..)

theorem execClearFault_wf (i : Ident) (st : Nat) (pass : Bool) : OutWf (execClearFault i st pass s) := by
  grind [execClearFault, OutWf, Safe, State.writeVia_wf, State.writeVia_mem, cwCtlEff_mem]

/-! Thermal. -/

theorem execSensorReading_wf (c i v peak : Nat) : OutWf (execSensorReading c i v peak s) := by
  grind [execSensorReading, OutWf, Safe, State.showReading_mem, State.warnStep_mem, State.genEvent_mem, State.tripAct_wf]

theorem execFeedLoss_wf (f volt : Nat) : OutWf (execFeedLoss f volt s) := by
  grind [execFeedLoss, OutWf, Safe, State.feedLost_wf]

theorem execFeedOverVoltage_wf (f volt : Nat) : OutWf (execFeedOverVoltage f volt s) := by
  grind [execFeedOverVoltage, OutWf, Safe, State.feedLost_wf]

theorem execFeedRestore_wf (f volt : Nat) : OutWf (execFeedRestore f volt s) := by
  grind [execFeedRestore, OutWf, Safe, State.genEvent_mem, State.feedStat_mem, State.refreshCause_mem, State.modCause_mem]

/-! Startup. -/

theorem execStackGroupPower_wf (badHubs badDies badCores : List Nat) :
    OutWf (execStackGroupPower badHubs badDies badCores s) := by
  unfold execStackGroupPower
  extract_lets g a b
  have ha : Safe a := State.foldl_wf (fun s j h => Safe.of_mem h (State.stackPower_mem ..)) _ h
  clear_value a
  show Safe _
  split
  · exact h
  · exact ha

theorem execPhaseComplete_wf (ok strap : Bool) (offline : List Nat) (srv : Nat) : OutWf (execPhaseComplete ok strap offline
    srv s) := by
  grind [execPhaseComplete, OutWf, Safe, State.setPhase_mem, State.phase2_wf, State.bootStop_wf, State.singleFeed_mem,
    State.phase4_wf, State.phase5_wf, State.phase7_mem, State.phase8_mem, State.bootDone_mem]

theorem execPhaseTimeout_wf (offline : List Nat) (srv : Nat) : OutWf (execPhaseTimeout offline srv s) := by
  unfold execPhaseTimeout
  extract_lets p late a b
  have ha : Safe a := State.foldl_wf (fun s j h => Safe.of_mem h (State.stackPower_mem ..)) _ h
  clear_value a p
  show Safe _
  split
  · exact h
  · split
    · exact State.bootStop_wf h ..
    · exact State.bootStop_wf h ..
    · exact State.phase4_wf (by exact ha)
    · exact State.phase5_wf h _
    · exact Safe.of_mem h (State.phase7_mem _)
    · exact Safe.of_mem h (State.setPhase_mem ..)
    · exact Safe.of_mem h (State.phase8_mem ..)
    · exact Safe.of_mem h (State.bootDone_mem _)
    · exact h

theorem execFeedPresent_wf (f volt : Nat) : OutWf (execFeedPresent f volt s) := by
  grind [execFeedPresent, OutWf, Safe, State.feedStat_mem, State.restart_wf]

theorem execFlashPersist_wf : OutWf (execFlashPersist s) := by
  grind [execFlashPersist, OutWf, Safe]

theorem execModuleReset_wf (i : Ident) (epoch : Nat) (strap : Bool) : OutWf (execModuleReset i epoch strap s) := by
  grind [execModuleReset, OutWf, Safe, State.writeVia_wf, State.writeVia_mem, bootCtlEff_wf]

theorem execP7HostLoss_wf (cause : Nat) (strap : Bool) : OutWf (execP7HostLoss cause strap s) := by
  grind [execP7HostLoss, OutWf, Safe, State.moduleRestart_wf]

theorem execNumvfsSetP7_wf (n : Nat) (strap : Bool) : OutWf (execNumvfsSetP7 n strap s) := by
  grind [execNumvfsSetP7, OutWf, Safe, State.moduleRestart_wf]

theorem execPldmRequest_wf (path type : Nat) (known : Bool) : OutWf (execPldmRequest path type known s) := by
  grind [execPldmRequest, OutWf, Safe, State.pldmAnswer_mem]

theorem execPldmFirmwareUpdate_wf (path step : Nat) (sound : Bool) : OutWf (execPldmFirmwareUpdate path step sound s) := by
  unfold execPldmFirmwareUpdate
  extract_lets other
  show Safe _
  split
  · split <;> exact h
  · split <;> exact h
  · split <;> exact h

/-! Registers. -/

theorem execRegisterWrite_wf (i : Ident) (page off : Nat) (v : Word) : OutWf (execRegisterWrite i page off v s) := by
  grind [execRegisterWrite, OutWf, Safe, State.regWrite_wf]

theorem execBar0Access_wf (fn off n : Nat) (write : Option Word) : OutWf (execBar0Access fn off n write s) := by
  unfold execBar0Access
  extract_lets i page o
  show Safe _
  split
  · exact h
  · split
    · exact State.regWrite_wf h ..
    · split
      · exact Safe.of_mem h (State.regAccess_mem ..)
      · exact h

theorem execQuery_wf (q seq : Nat) : OutWf (execQuery q seq s) := by
  grind [execQuery, OutWf, Safe, State.complete_wf, State.completeChecked_wf, State.queryValue_mem]

/-! GlobalAccess. -/

theorem execGlobalAccessDone_wf (c unit epoch : Nat) : OutWf (execGlobalAccessDone c unit epoch s) := by
  grind [execGlobalAccessDone, OutWf, Safe, State.bump_mem, State.coreAccess_wf]

theorem execHubProxyRetry_wf (c : Nat) : OutWf (execHubProxyRetry c s) := by
  grind [execHubProxyRetry, OutWf, Safe, State.coreAccess_wf]

theorem execTransferBlockDone_wf (c t : Nat) (ecc : Ecc) (sound : Nat) : OutWf (execTransferBlockDone c t ecc sound s) := by
  grind [execTransferBlockDone, OutWf, Safe, State.vread_wf, State.writeBytes_wf, State.blockEnds_mem, State.vwrite_wf,
    State.modCore_mem, State.tokenFault_mem, State.countEcc_mem]

/-! Invalidate. -/

theorem execTranslationRequest_wf (stack dev pasid va : Nat) (write : Bool) : OutWf (execTranslationRequest stack dev pasid
    va write s) := by
  grind [execTranslationRequest, OutWf, Safe, State.iommu_wf, State.post_mem, State.answer_mem, State.bump_mem,
    State.pageRequest_mem]

theorem execTranslationReply_wf (stack dev pasid vpage : Nat) : OutWf (execTranslationReply stack dev pasid vpage s) := by
  grind [execTranslationReply, OutWf, Safe, State.bump_mem, State.answer_mem, State.tlbFill_mem]

theorem execIotinval_wf (index : Nat) (gvma : Bool) (dev pasid va : Option Nat) (late : List Nat) :
    OutWf (execIotinval index gvma dev pasid va late s) := by
  unfold execIotinval
  extract_lets hits hubs a b waiting
  have ha : Safe a := State.foldl_wf
    (fun s j h => Safe.of_mem h ((State.bump_mem ..).trans (State.tlbDrop_mem ..))) _ h
  clear_value a
  have hb : Safe b := ha
  clear_value b
  show Safe _
  split <;> exact hb

theorem execIofenceC_wf (addr : Option Nat) (data : Nat) (wsi : Bool) : OutWf (execIofenceC addr data wsi s) := by
  unfold execIofenceC
  extract_lets a b c
  have hb : Safe b := by
    unfold b
    split
    · exact State.physWrite_wf (by exact h) ..
    · exact h
  clear_value b
  show Safe _
  split <;> exact hb

theorem execInvSlow_wf (index : Nat) : OutWf (execInvSlow index s) := by
  unfold execInvSlow
  show Safe _
  split
  · extract_lets t
    have ht : Safe t := h
    split
    · exact Safe.of_mem ht (State.genEvent_mem ..)
    · exact h
  · exact h

theorem execTranslationPrefetch_wf (stack dev pasid va ahead : Nat) (write : Bool) : OutWf (execTranslationPrefetch stack
    dev pasid va ahead write s) := by
  grind [execTranslationPrefetch, OutWf, Safe, State.tlbFill_mem, State.bump_mem]

theorem execAtsTranslationRequest_wf (part off : Nat) (write : Bool) : OutWf (execAtsTranslationRequest part off write s) :=
    by
  grind [execAtsTranslationRequest, OutWf, Safe, State.answer_mem]

theorem execTranslationCompletion_wf (fn off size : Nat) (supported read write : Bool) : OutWf (execTranslationCompletion fn
    off size supported read write s) := by
  grind [execTranslationCompletion, OutWf, Safe, State.answer_mem, State.atsDrop_mem]

theorem execPrgResponse_wf (fn off : Nat) (success : Bool) : OutWf (execPrgResponse fn off success s) := by
  grind [execPrgResponse, OutWf, Safe, State.answer_mem, State.atsDrop_mem]

theorem execAtsInvalidateRequest_wf (fn base size : Nat) : OutWf (execAtsInvalidateRequest fn base size s) := by
  grind [execAtsInvalidateRequest, OutWf, Safe]

/-! PageAnswer. -/

theorem execAtsPrgr_wf (dev pasid vpage : Nat) (good : Bool) : OutWf (execAtsPrgr dev pasid vpage good s) := by
  unfold execAtsPrgr
  extract_lets mine rs a b c
  have hb : Safe b := State.foldl_wf (fun s r h => State.waiterAnswer_wf h ..) _ (by exact h)
  have hc : Safe c := State.stagesPaged_wf (State.queuesPaged_wf (State.cmdsPaged_wf hb ..) ..) ..
  show Safe _
  split
  · exact h
  · exact State.migsPaged_wf (State.decsPaged_wf (State.blendsPaged_wf hc ..) ..) ..

/-! Scalar. -/

theorem execAluReg_wf (c : Nat) : OutWf (execAluReg c s) :=
  State.issue_wf h c _ fun _ _ => semAluReg_wf h ..

theorem execAluImm_wf (c : Nat) : OutWf (execAluImm c s) :=
  State.issue_wf h c _ fun _ _ => semAluImm_wf h ..

theorem execMul_wf (c : Nat) : OutWf (execMul c s) :=
  State.issue_wf h c _ fun _ _ => semMul_wf h ..

theorem execLi_wf (c : Nat) : OutWf (execLi c s) :=
  State.issue_wf h c _ fun _ _ => semLi_wf h ..

theorem execLih_wf (c : Nat) : OutWf (execLih c s) :=
  State.issue_wf h c _ fun _ _ => semLih_wf h ..

theorem execBranch_wf (c : Nat) : OutWf (execBranch c s) := by
  grind [execBranch, OutWf, Safe, State.issue_wf, semBranch_wf]

theorem execJal_wf (c : Nat) : OutWf (execJal c s) :=
  State.issue_wf h c _ fun _ _ => semJal_wf h ..

theorem execJalr_wf (c : Nat) : OutWf (execJalr c s) :=
  State.issue_wf h c _ fun _ _ => semJalr_wf h ..

/-! ServerAccess. -/

theorem execSrvMemoryAccess_wf (a : SrvAccess) : OutWf (execSrvMemoryAccess a s) := by
  grind [execSrvMemoryAccess, OutWf, Safe, State.srvTrap_mem, State.srvRegion_wf]

theorem execSrvAccessRetry_wf (c : Nat) : OutWf (execSrvAccessRetry c s) := by
  grind [execSrvAccessRetry, OutWf, Safe, State.srvRegion_wf, State.modSrv_mem]

end Commands

theorem exec_wf {s : State} (h : s.mem.wf = true) (i : Instr) : OutWf (exec i s) := by
  cases i with
  | aluReg c => exact execAluReg_wf h c
  | aluImm c => exact execAluImm_wf h c
  | mul c => exact execMul_wf h c
  | li c => exact execLi_wf h c
  | lih c => exact execLih_wf h c
  | branch c => exact execBranch_wf h c
  | jal c => exact execJal_wf h c
  | jalr c => exact execJalr_wf h c
  | vsetvl c => exact execVsetvl_wf h c
  | vaddVsubVmul c => exact execVaddVsubVmul_wf h c
  | vandVorVxor c => exact execVandVorVxor_wf h c
  | vshift c => exact execVshift_wf h c
  | vcmp c => exact execVcmp_wf h c
  | vfcmp c => exact execVfcmp_wf h c
  | klogic c => exact execKlogic_wf h c
  | vfaddVfsubVfmulVfma c => exact execVfaddVfsubVfmulVfma_wf h c
  | vfminVfmax c => exact execVfminVfmax_wf h c
  | vapprox c => exact execVapprox_wf h c
  | vcvt c => exact execVcvt_wf h c
  | vqMx c => exact execVqMx_wf h c
  | vqTs4 c => exact execVqTs4_wf h c
  | vqG8 c => exact execVqG8_wf h c
  | vqG8l c => exact execVqG8l_wf h c
  | vdq c => exact execVdq_wf h c
  | vred c => exact execVred_wf h c
  | vperm c => exact execVperm_wf h c
  | vslide c => exact execVslide_wf h c
  | vbcast c => exact execVbcast_wf h c
  | vext c => exact execVext_wf h c
  | compress c => exact execCompress_wf h c
  | expand c => exact execExpand_wf h c
  | maskSummary c => exact execMaskSummary_wf h c
  | maxidxMinidx c => exact execMaxidxMinidx_wf h c
  | mmaK16n128 c => exact execMmaK16n128_wf h c
  | mmaK16n128T c => exact execMmaK16n128T_wf h c
  | mmaK32n64 c => exact execMmaK32n64_wf h c
  | mmaK16n64 c => exact execMmaK16n64_wf h c
  | mmaK8n64 c => exact execMmaK8n64_wf h c
  | mmaK16n32 c => exact execMmaK16n32_wf h c
  | mlw c => exact execMlw_wf h c
  | msw c => exact execMsw_wf h c
  | mrd c => exact execMrd_wf h c
  | ldL c e => exact execLdL_wf h c e
  | stL c => exact execStL_wf h c
  | vld c e => exact execVld_wf h c e
  | vst c => exact execVst_wf h c
  | ldG c => exact execLdG_wf h c
  | stG c => exact execStG_wf h c
  | amoG c => exact execAmoG_wf h c
  | gatherG c => exact execGatherG_wf h c
  | scatterG c => exact execScatterG_wf h c
  | xferL c => exact execXferL_wf h c
  | xferS c => exact execXferS_wf h c
  | send c => exact execSend_wf h c
  | recv c => exact execRecv_wf h c
  | sendH c => exact execSendH_wf h c
  | arm c => exact execArm_wf h c
  | nop c => exact execNop_wf h c
  | bar c => exact execBar_wf h c
  | twait c => exact execTwait_wf h c
  | syncI c => exact execSyncI_wf h c
  | evt c => exact execEvt_wf h c
  | crd c => exact execCrd_wf h c
  | cwr c => exact execCwr_wf h c
  | endProg c => exact execEndProg_wf h c
  | barRelease c => exact execBarRelease_wf h c
  | instrFetch c line ecc => exact execInstrFetch_wf h c line ecc
  | mmaStart c ecc => exact execMmaStart_wf h c ecc
  | mlwLoadDone c ecc => exact execMlwLoadDone_wf h c ecc
  | portRowWaitEnd c => exact execPortRowWaitEnd_wf h c
  | streamUnitArrive c port ecc => exact execStreamUnitArrive_wf h c port ecc
  | creditReturn c port => exact execCreditReturn_wf h c port
  | sendHArrival c ecc => exact execSendHArrival_wf h c ecc
  | transferBlockDone c t ecc sound => exact execTransferBlockDone_wf h c t ecc sound
  | globalAccessDone c unit epoch => exact execGlobalAccessDone_wf h c unit epoch
  | hubProxyRetry c => exact execHubProxyRetry_wf h c
  | portStall c op => exact execPortStall_wf h c op
  | coreDrainDone c => exact execCoreDrainDone_wf h c
  | keepLevelFall c a => exact execKeepLevelFall_wf h c a
  | keepRampStep c a => exact execKeepRampStep_wf h c a
  | keepCtlWrite u st d v => exact execKeepCtlWrite_wf h u st d v
  | kernel q seq => exact execKernel_wf h q seq
  | kernelLaunch q seq => exact execKernelLaunch_wf h q seq
  | taskPreempt q seq => exact execTaskPreempt_wf h q seq
  | cheapWindowExpiry q seq => exact execCheapWindowExpiry_wf h q seq
  | sliceExpiry q seq => exact execSliceExpiry_wf h q seq
  | coreSave c => exact execCoreSave_wf h c
  | taskRestore q seq => exact execTaskRestore_wf h q seq
  | taskFail c hw => exact execTaskFail_wf h c hw
  | preemptReqGo u stack v => exact execPreemptReqGo_wf h u stack v
  | rtReserveWrite u stack v => exact execRtReserveWrite_wf h u stack v
  | move q seq n refuse park => exact execMove_wf h q seq n refuse park
  | inlineWrite q seq refuse park => exact execInlineWrite_wf h q seq refuse park
  | event q seq => exact execEvent_wf h q seq
  | query q seq => exact execQuery_wf h q seq
  | fence q seq => exact execFence_wf h q seq
  | barrier q seq => exact execBarrier_wf h q seq
  | collective q seq => exact execCollective_wf h q seq
  | blendUpdate q seq => exact execBlendUpdate_wf h q seq
  | blendCommit q seq => exact execBlendCommit_wf h q seq
  | rack q seq => exact execRack_wf h q seq
  | commandFetch q => exact execCommandFetch_wf h q
  | engineCmdActivate q seq => exact execEngineCmdActivate_wf h q seq
  | refusedRetry q seq => exact execRefusedRetry_wf h q seq
  | sqTail u q v => exact execSqTail_wf h u q v
  | cqHead u q v => exact execCqHead_wf h u q v
  | qcfgEnableSet u q v => exact execQcfgEnableSet_wf h u q v
  | qcfgEnableClear u q v => exact execQcfgEnableClear_wf h u q v
  | qbindWrite u q v => exact execQbindWrite_wf h u q v
  | partCtlWrite u p v => exact execPartCtlWrite_wf h u p v
  | partStacksWrite u p v => exact execPartStacksWrite_wf h u p v
  | partSrvWrite u p j v => exact execPartSrvWrite_wf h u p j v
  | manifestEntryDone q seq stack u n => exact execManifestEntryDone_wf h q seq stack u n
  | roundFailed q seq stack entry status => exact execRoundFailed_wf h q seq stack entry status
  | roundStallCycle q seq stack cause => exact execRoundStallCycle_wf h q seq stack cause
  | roundStall q seq stack cause => exact execRoundStall_wf h q seq stack cause
  | collCompletionNotify stack jobTag seq => exact execCollCompletionNotify_wf h stack jobTag seq
  | blendOpRun stack park => exact execBlendOpRun_wf h stack park
  | progReturn stack core a0 buf => exact execProgReturn_wf h stack core a0 buf
  | progTimeout stack core => exact execProgTimeout_wf h stack core
  | cacheAccess stack a n data hint tag part ecc req pasid va cycle => exact execCacheAccess_wf h stack a n data hint tag part ecc req pasid va cycle
  | keepReleaseGo u stack v => exact execKeepReleaseGo_wf h u stack v
  | keepSweepDone stack => exact execKeepSweepDone_wf h stack
  | nearWaysWrite u stack v => exact execNearWaysWrite_wf h u stack v
  | prefetchIssue stack entry => exact execPrefetchIssue_wf h stack entry
  | streamEntryExpire stack entry cycle => exact execStreamEntryExpire_wf h stack entry cycle
  | prefetchDepthAdjust stack => exact execPrefetchDepthAdjust_wf h stack
  | gddrAccess st off n data edc wait ecc => exact execGddrAccess_wf h st off n data edc wait ecc
  | gddrRetryAttempt st g edc ecc => exact execGddrRetryAttempt_wf h st g edc ecc
  | gddrRetrain st g => exact execGddrRetrain_wf h st g
  | gddrTempReading st g t => exact execGddrTempReading_wf h st g t
  | gddrRefresh st g => exact execGddrRefresh_wf h st g
  | gddrScrub st off ecc => exact execGddrScrub_wf h st off ecc
  | lineRewrite st g => exact execLineRewrite_wf h st g
  | regRefill page cycles => exact execRegRefill_wf h page cycles
  | regIndexWrite u page v => exact execRegIndexWrite_wf h u page v
  | regDataWrite u page v => exact execRegDataWrite_wf h u page v
  | cellarAccess b off n data part hub pasid va wb media => exact execCellarAccess_wf h b off n data part hub pasid va wb media
  | bayReqTimeout b => exact execBayReqTimeout_wf h b
  | mbxOlmIdentify u b len => exact execMbxOlmIdentify_wf h u b len
  | mbxHealth u b len => exact execMbxHealth_wf h u b len
  | mbxWear u b len => exact execMbxWear_wf h u b len
  | mbxTemperature u b len => exact execMbxTemperature_wf h u b len
  | mbxEvacBegin u b len => exact execMbxEvacBegin_wf h u b len
  | mbxEvacEnd u b len => exact execMbxEvacEnd_wf h u b len
  | mbxRemovalReady u b len => exact execMbxRemovalReady_wf h u b len
  | mbxReservedOpcode u b op len => exact execMbxReservedOpcode_wf h u b op len
  | mbxResponse b result data => exact execMbxResponse_wf h b result data
  | bayHealthPoll b => exact execBayHealthPoll_wf h b
  | bayAdmit u b epoch => exact execBayAdmit_wf h u b epoch
  | bayEvac u b epoch => exact execBayEvac_wf h u b epoch
  | bayEvacCancel u b epoch => exact execBayEvacCancel_wf h u b epoch
  | evacCopyDone b => exact execEvacCopyDone_wf h b
  | poolGive u page v => exact execPoolGive_wf h u page v
  | pageMigrate stack idx race busy => exact execPageMigrate_wf h stack idx race busy
  | migrateDeferRetry stack idx => exact execMigrateDeferRetry_wf h stack idx
  | hotWindowRestart stack => exact execHotWindowRestart_wf h stack
  | mirrorResync u b j v => exact execMirrorResync_wf h u b j v
  | mirrorResyncDone b j => exact execMirrorResyncDone_wf h b j
  | baySurpriseRemoval b absent => exact execBaySurpriseRemoval_wf h b absent
  | rdShared agent line => exact execRdShared_wf h agent line
  | rdPf agent line => exact execRdPf_wf h agent line
  | rdUnique agent line => exact execRdUnique_wf h agent line
  | upgrade agent line => exact execUpgrade_wf h agent line
  | rdOnce agent line off n => exact execRdOnce_wf h agent line off n
  | wrFull agent line data => exact execWrFull_wf h agent line data
  | wrPtl agent line mask data => exact execWrPtl_wf h agent line mask data
  | atomic agent line off aop size b c => exact execAtomic_wf h agent line off aop size b c
  | snpFwdS agent line req => exact execSnpFwdS_wf h agent line req
  | snpFwdU agent line req => exact execSnpFwdU_wf h agent line req
  | snpInv agent line => exact execSnpInv_wf h agent line
  | snpRecall agent line => exact execSnpRecall_wf h agent line
  | invAck agent line => exact execInvAck_wf h agent line
  | fwdAck agent line => exact execFwdAck_wf h agent line
  | rspMiss agent line => exact execRspMiss_wf h agent line
  | evictClean agent line => exact execEvictClean_wf h agent line
  | datWb agent line evict => exact execDatWb_wf h agent line evict
  | grant agent line => exact execGrant_wf h agent line
  | comp agent line status => exact execComp_wf h agent line status
  | pfDrop agent line => exact execPfDrop_wf h agent line
  | compAck agent line => exact execCompAck_wf h agent line
  | datS agent line status => exact execDatS_wf h agent line status
  | datE agent line status => exact execDatE_wf h agent line status
  | datM agent line status => exact execDatM_wf h agent line status
  | datIo agent line status => exact execDatIo_wf h agent line status
  | translationRequest stack dev pasid va write => exact execTranslationRequest_wf h stack dev pasid va write
  | translationReply stack dev pasid vpage => exact execTranslationReply_wf h stack dev pasid vpage
  | atsPrgr dev pasid vpage good => exact execAtsPrgr_wf h dev pasid vpage good
  | iotinval index gvma dev pasid va late => exact execIotinval_wf h index gvma dev pasid va late
  | iofenceC addr data wsi => exact execIofenceC_wf h addr data wsi
  | invSlow index => exact execInvSlow_wf h index
  | translationPrefetch stack dev pasid va ahead write => exact execTranslationPrefetch_wf h stack dev pasid va ahead write
  | atsTranslationRequest part off write => exact execAtsTranslationRequest_wf h part off write
  | translationCompletion fn off size supported read write => exact execTranslationCompletion_wf h fn off size supported read write
  | prgResponse fn off success => exact execPrgResponse_wf h fn off success
  | atsInvalidateRequest fn base size => exact execAtsInvalidateRequest_wf h fn base size
  | shootdown part vpage => exact execShootdown_wf h part vpage
  | flitReceive stack d crcOk => exact execFlitReceive_wf h stack d crcOk
  | trellisLinkDown stack d => exact execTrellisLinkDown_wf h stack d
  | packetRoute node src requester inj => exact execPacketRoute_wf h node src requester inj
  | arbitration page o cycles reqs => exact execArbitration_wf h page o cycles reqs
  | prioWrite u page v late => exact execPrioWrite_wf h u page v late
  | arbShareWrite u page o v => exact execArbShareWrite_wf h u page o v
  | arbStarved page o cycles => exact execArbStarved_wf h page o cycles
  | routeRebuild tables => exact execRouteRebuild_wf h tables
  | injectHoldSet u stack => exact execInjectHoldSet_wf h u stack
  | injectHoldClear u stack => exact execInjectHoldClear_wf h u stack
  | routerLoss p off => exact execRouterLoss_wf h p off
  | bar0Access fn off n write => exact execBar0Access_wf h fn off n write
  | bar4Doorbell fn off size write v => exact execBar4Doorbell_wf h fn off size write v
  | windowWrite p off bytes => exact execWindowWrite_wf h p off bytes
  | windowFlush p slot => exact execWindowFlush_wf h p slot
  | msixSend fn entry => exact execMsixSend_wf h fn entry
  | msixUnmask fn entry => exact execMsixUnmask_wf h fn entry
  | hostReadCompletion core x y result bytes => exact execHostReadCompletion_wf h core x y result bytes
  | hostCompletionTimeout core x y => exact execHostCompletionTimeout_wf h core x y
  | hostStall q seq => exact execHostStall_wf h q seq
  | hostLoss cause => exact execHostLoss_wf h cause
  | p7HostLoss cause strap => exact execP7HostLoss_wf h cause strap
  | hostLinkUp width rate vfs masters msix => exact execHostLinkUp_wf h width rate vfs masters msix
  | vfFlr p => exact execVfFlr_wf h p
  | linkRecovery => exact execLinkRecovery_wf h
  | hostAttach u v => exact execHostAttach_wf h u v
  | hostDetach u v => exact execHostDetach_wf h u v
  | winReload u v => exact execWinReload_wf h u v
  | numvfsSetP7 n strap => exact execNumvfsSetP7_wf h n strap
  | fabricFlitReceive f b fixed lost => exact execFabricFlitReceive_wf h f b fixed lost
  | fabricAckTimer f => exact execFabricAckTimer_wf h f
  | fabricSilence f => exact execFabricSilence_wf h f
  | laneSignalLoss f => exact execLaneSignalLoss_wf h f
  | bringupRestart f => exact execBringupRestart_wf h f
  | bringupStageDone f => exact execBringupStageDone_wf h f
  | bringupTimeout f => exact execBringupTimeout_wf h f
  | vintageMessage f b => exact execVintageMessage_wf h f b
  | vintageResend f => exact execVintageResend_wf h f
  | write f p => exact execWrite_wf h f p
  | readReq f p => exact execReadReq_wf h f p
  | readRsp f p => exact execReadRsp_wf h f p
  | fabricAtomic f p => exact execFabricAtomic_wf h f p
  | atomicRsp f p => exact execAtomicRsp_wf h f p
  | eventPost f p => exact execEventPost_wf h f p
  | collStep f p => exact execCollStep_wf h f p
  | ack f p => exact execAck_wf h f p
  | nak f p => exact execNak_wf h f p
  | straggle f p => exact execStraggle_wf h f p
  | abort f p => exact execAbort_wf h f p
  | groupCmd f p => exact execGroupCmd_wf h f p
  | groupCpl f p => exact execGroupCpl_wf h f p
  | groupCmdResend q seq => exact execGroupCmdResend_wf h q seq
  | hostFwdReq f p => exact execHostFwdReq_wf h f p
  | hostFwdRsp f p => exact execHostFwdRsp_wf h f p
  | winWrite f p => exact execWinWrite_wf h f p
  | winFlush f p => exact execWinFlush_wf h f p
  | groupHello f p => exact execGroupHello_wf h f p
  | groupHelloTimer => exact execGroupHelloTimer_wf h
  | groupFormTimeout => exact execGroupFormTimeout_wf h
  | groupForm u v => exact execGroupForm_wf h u v
  | retxTimer dst vc port => exact execRetxTimer_wf h dst vc port
  | collStepResend q seq => exact execCollStepResend_wf h q seq
  | collTimeout q seq => exact execCollTimeout_wf h q seq
  | moduleCfgWrite u v => exact execModuleCfgWrite_wf h u v
  | streamStart u n k => exact execStreamStart_wf h u n k
  | streamStop u n k => exact execStreamStop_wf h u n k
  | streamRestart u n k epoch discard => exact execStreamRestart_wf h u n k epoch discard
  | reqTail u n k v => exact execReqTail_wf h u n k v
  | recordProcess n k => exact execRecordProcess_wf h n k
  | srvLoadError c op va status => exact execSrvLoadError_wf h c op va status
  | srvStoreLost c pa status => exact execSrvStoreLost_wf h c pa status
  | cbo c op va pa => exact execCbo_wf h c op va pa
  | srvFenceIo c predO predW => exact execSrvFenceIo_wf h c predO predW
  | imsicWrite who off n data => exact execImsicWrite_wf h who off n data
  | msiUnmask part vec => exact execMsiUnmask_wf h part vec
  | divStep st d => exact execDivStep_wf h st d
  | voltageRampDone st d => exact execVoltageRampDone_wf h st d
  | powerGate c => exact execPowerGate_wf h c
  | sensorReading c u v peak => exact execSensorReading_wf h c u v peak
  | warnEnd c u => exact execWarnEnd_wf h c u
  | ceilStep c u => exact execCeilStep_wf h c u
  | feedLoss f volt => exact execFeedLoss_wf h f volt
  | feedRestore f volt => exact execFeedRestore_wf h f volt
  | feedOverVoltage f volt => exact execFeedOverVoltage_wf h f volt
  | panelTimeTick n adj => exact execPanelTimeTick_wf h n adj
  | timeExchange f source hops t1 t2 t3 t4 => exact execTimeExchange_wf h f source hops t1 t2 t3 t4
  | timeLockLoss => exact execTimeLockLoss_wf h
  | diePwrBoundWrite u st d v => exact execDiePwrBoundWrite_wf h u st d v
  | eventPosting => exact execEventPosting_wf h
  | evqHead u e v => exact execEvqHead_wf h u e v
  | evqCfgWrite u e v => exact execEvqCfgWrite_wf h u e v
  | evqStatRead u e at_ n => exact execEvqStatRead_wf h u e at_ n
  | evForce u page v => exact execEvForce_wf h u page v
  | quiesceReq u page epoch => exact execQuiesceReq_wf h u page epoch
  | quiesceDone page => exact execQuiesceDone_wf h page
  | quiesceExpired page => exact execQuiesceExpired_wf h page
  | quiesceClear u page epoch => exact execQuiesceClear_wf h u page epoch
  | resetReq u page epoch => exact execResetReq_wf h u page epoch
  | updateReq u page epoch => exact execUpdateReq_wf h u page epoch
  | updateDone stack status version => exact execUpdateDone_wf h stack status version
  | enableClear u page epoch => exact execEnableClear_wf h u page epoch
  | enableSet u page epoch => exact execEnableSet_wf h u page epoch
  | cntClear u page epoch => exact execCntClear_wf h u page epoch
  | pageLockAcquire u page => exact execPageLockAcquire_wf h u page
  | pageLockRelease u page => exact execPageLockRelease_wf h u page
  | pageLockIdleExpiry page => exact execPageLockIdleExpiry_wf h page
  | rowSkipWrite u st d r v => exact execRowSkipWrite_wf h u st d r v
  | spareBind u l p epoch auto => exact execSpareBind_wf h u l p epoch auto
  | spareRelease u p epoch auto => exact execSpareRelease_wf h u p epoch auto
  | dieFailed st d => exact execDieFailed_wf h st d
  | stackFailed p => exact execStackFailed_wf h p
  | lostTimeout p => exact execLostTimeout_wf h p
  | capChanged => exact execCapChanged_wf h
  | unavailTick => exact execUnavailTick_wf h
  | cwDataAccess u st write at_ n => exact execCwDataAccess_wf h u st write at_ n
  | clearFault u st pass => exact execClearFault_wf h u st pass
  | feedPresent f volt => exact execFeedPresent_wf h f volt
  | phaseComplete ok strap offline srv => exact execPhaseComplete_wf h ok strap offline srv
  | phaseTimeout offline srv => exact execPhaseTimeout_wf h offline srv
  | stackGroupPower badHubs badDies badCores => exact execStackGroupPower_wf h badHubs badDies badCores
  | flashPersist => exact execFlashPersist_wf h
  | moduleReset u epoch strap => exact execModuleReset_wf h u epoch strap
  | attentionPress ms => exact execAttentionPress_wf h ms
  | attentionHold => exact execAttentionHold_wf h
  | identifyWrite u v => exact execIdentifyWrite_wf h u v
  | displayAck code source => exact execDisplayAck_wf h code source
  | bayButtonPress b ms => exact execBayButtonPress_wf h b ms
  | removeAnswer u v => exact execRemoveAnswer_wf h u v
  | consentTimeout b => exact execConsentTimeout_wf h b
  | evacQueueStart b => exact execEvacQueueStart_wf h b
  | latchOpen b absent => exact execLatchOpen_wf h b absent
  | cartridgeInsert b width rate advert capacity sane fit => exact execCartridgeInsert_wf h b width rate advert capacity sane fit
  | cablePresence f present => exact execCablePresence_wf h f present
  | vintageFailRetry f => exact execVintageFailRetry_wf h f
  | pldmRequest path type known => exact execPldmRequest_wf h path type known
  | pldmFirmwareUpdate path step sound => exact execPldmFirmwareUpdate_wf h path step sound
  | registerWrite u page off v => exact execRegisterWrite_wf h u page off v
  | pageInitDone page width rate => exact execPageInitDone_wf h page width rate
  | gddrRetrainDone st g => exact execGddrRetrainDone_wf h st g
  | srvMemoryAccess a => exact execSrvMemoryAccess_wf h a
  | srvAccessRetry c => exact execSrvAccessRetry_wf h c

/-- Settles O50: `step` is a case split on the queue. -/
theorem stepRunsFront : Obligations.StepRunsFront := by
  unfold Obligations.StepRunsFront
  constructor
  · intro s i rest hp
    rw [step, hp]
    rfl
  · intro s hp
    rw [step, hp]

/-- Settles O52: reset writes no byte. -/
theorem resetSafe : Obligations.ResetSafe := rfl

/-- Settles O53: a step is its front command, and every command keeps the form (`exec_wf`). -/
theorem stepKeepsMemory : Obligations.StepKeepsMemory := by
  unfold Obligations.StepKeepsMemory
  intro s t hs ht
  cases hp : s.pending with
  | nil =>
    rw [stepRunsFront.2 s hp] at ht
    cases ht
    exact hs
  | cons i rest =>
    rw [stepRunsFront.1 s i rest hp] at ht
    have hw := exec_wf (s := { s with pending := rest }) hs i
    rw [ht] at hw
    exact hw

end Sys2Proof.Machine

/-!
Event queues (O46): delivery of the oldest event, EVQ_HEAD, EVQ_CFG, EVQ_STAT and EV_FORCE.
-/
namespace Sys2Proof.Machine

-- One proof at a time: each thread of Lean reserves a stack, and together they would pass the check's memory limit.
set_option Elab.async false

/-! Admitted accesses of registers. -/

section
variable (s : State) (i : Ident) (page off : Nat)

/-- Admission leaves the registers alone. -/
@[simp] theorem State.reg_admittedState (p o : Nat) : (s.admittedState i page off).reg p o = s.reg p o := by
  obtain ⟨l, w, h⟩ := s.admittedState_eq i page off
  rw [h]; rfl

@[simp] theorem State.fld_admittedState (p o hi lo : Nat) : (s.admittedState i page off).fld p o hi lo = s.fld p o hi lo :=
  congrArg (bits · hi lo) (s.reg_admittedState i page off p o)

@[simp] theorem State.admittedState_mem : (s.admittedState i page off).mem = s.mem := by
  obtain ⟨l, w, h⟩ := s.admittedState_eq i page off
  rw [h]

@[simp] theorem State.admittedState_events : (s.admittedState i page off).events = s.events := by
  obtain ⟨l, w, h⟩ := s.admittedState_eq i page off
  rw [h]

@[simp] theorem State.admittedState_evq : (s.admittedState i page off).evq = s.evq := by
  obtain ⟨l, w, h⟩ := s.admittedState_eq i page off
  rw [h]

@[simp] theorem State.evqReg_admittedState (e r : Nat) : (s.admittedState i page off).evqReg e r = s.evqReg e r :=
  s.reg_admittedState i page off ..

/-- A read of a register that the identity may read in a block that has been started and has power answers the register's bytes,
and clears what the read clears (R8, R605, R606). -/
theorem State.readVia_answers {s : State} {i : Ident} {page off n : Nat} (val : Word) (clear : Bool → Bool → State → State)
    {k : PageKind} (hk : pageKind page = some k) (hreg : (findReg k (off / 8 * 8)).isSome = true)
    (hn : n = 4 ∨ n = 8) (halign : off % n = 0) (hreached : s.unreached page = false)
    (hread : s.mayRead i page (off / 8 * 8) = true) (hpower : s.unpowered.contains page = false) :
    s.readVia i page off n val clear = clear (decide (n = 8 ∨ off % 8 = 0)) (decide (n = 8 ∨ off % 8 = 4))
      { s.lockTouch i page with reply := (St.ok, ((leBytes 8 val.toNat).drop (off % 8)).take n) } := by
  obtain ⟨l, hl⟩ := s.lockTouch_eq i page
  have hread' : ({ s with lockAt := l } : State).mayRead i page (off / 8 * 8) = true := hread
  have hpower' : ({ s with lockAt := l } : State).unpowered.contains page = false := hpower
  have hshape : ¬ ((n ≠ 4 ∧ n ≠ 8) ∨ off % n ≠ 0 ∨ (decide (page = 0x102) || (findReg k (off / 8 * 8)).isSome) = false) := by
    rw [hreg, halign]; simp; omega
  simp only [State.readVia, hk, hl]
  rw [if_neg (ne_true_of_eq_false hreached), if_neg hshape, if_neg (by simp [hread']), if_neg (by rw [hpower']; simp)]

end

/-! Fields of a stored write (R3). -/

/-- A written field leaves the fields apart from it alone. -/
theorem bits_writeField_other (v w : Word) {f : FieldSpec} {hi lo : Nat} (hhi : hi < 64) (h : hi < f.lo ∨ f.hi < lo) :
    bits (writeField v w f) hi lo = bits w hi lo := by
  unfold writeField
  dsimp only
  split
  · split
    · rfl
    · exact bits_setBits_other _ _ hhi h
  · exact bits_setBits_other _ _ hhi h
  · exact bits_setBits_other _ _ hhi h
  · rfl

theorem bits_writeFields_other (v : Word) {fs : List FieldSpec} {hi lo : Nat} (hhi : hi < 64)
    (h : ∀ f ∈ fs, hi < f.lo ∨ f.hi < lo) (w : Word) : bits (fs.foldl (writeField v) w) hi lo = bits w hi lo := by
  induction fs generalizing w with
  | nil => rfl
  | cons f fs ih =>
    rw [List.foldl_cons, ih (fun g hg => h g (.tail _ hg)), bits_writeField_other _ _ hhi (h f (.head _))]

/-- Fields that lie apart from each other within a word. -/
def apart (fs : List FieldSpec) : Prop := fs.Pairwise fun f g => (f.hi < g.lo ∨ g.hi < f.lo) ∧ f.hi < 64 ∧ g.hi < 64

/-- A writable field takes the value written, unless that value is reserved. -/
theorem bits_writeFields_rw (v : Word) {fs : List FieldSpec} (h : apart fs) {f : FieldSpec} (hf : f ∈ fs) (hhi : f.hi < 64)
    (hacc : f.acc = .rw) (hres : f.isReserved (bits v f.hi f.lo) = false) (w : Word) :
    bits (fs.foldl (writeField v) w) f.hi f.lo = bits v f.hi f.lo := by
  induction fs generalizing w with
  | nil => exact absurd hf List.not_mem_nil
  | cons g fs ih =>
    obtain ⟨hg, hfs⟩ := List.pairwise_cons.mp h
    rw [List.foldl_cons]
    rcases List.mem_cons.mp hf with rfl | hf
    · have loads : writeField v w f = setBits w f.hi f.lo (bits v f.hi f.lo) := by
        simp only [writeField, hacc, hres, Bool.false_eq_true, if_false]
      rw [bits_writeFields_other v hhi (fun g' hg' => (hg g' hg').1), loads, bits_setBits_bits _ _ hhi]
    · exact ih hfs hf _

/-- A writable field of a register takes the value that a stored write gives it, unless that value is reserved. -/
theorem State.fld_storeWrite_field (s : State) {page off : Nat} {k : PageKind} {r : RegSpec} (v : Word)
    (hk : pageKind page = some k) (hr : findReg k off = some r) (hapart : apart (r.fields.filter fun f => decide (f.acc ≠ .w1s)))
    {f : FieldSpec} (hf : f ∈ r.fields.filter fun f => decide (f.acc ≠ .w1s)) (hhi : f.hi < 64) (hacc : f.acc = .rw)
    (hres : f.isReserved (bits v f.hi f.lo) = false) :
    (s.storeWrite page off v).fld page off f.hi f.lo = bits v f.hi f.lo := by
  rw [State.fld, s.reg_storeWrite_same v hk hr, bits_writeFields_rw v hapart hf hhi hacc hres]

/-- Two words agree in a field that two fields make up where they agree in both. -/
theorem bits_eq_of_parts {v u : Word} {hi mid lo : Nat} (hhi : bits v hi (mid + 1) = bits u hi (mid + 1))
    (hlo : bits v mid lo = bits u mid lo) : bits v hi lo = bits u hi lo := by
  refine Nat.eq_of_testBit_eq fun j => ?_
  have agree : ∀ {h l : Nat}, bits v h l = bits u h l → ∀ i, l + i ≤ h → bit v (l + i) = bit u (l + i) := by
    intro h l heq i hi
    have := congrArg (·.testBit i) heq
    simpa [testBit_bits, show i < h + 1 - l by omega] using this
  rw [testBit_bits, testBit_bits]
  by_cases hj : j < hi + 1 - lo
  · have hbit : bit v (lo + j) = bit u (lo + j) := by
      by_cases hm : lo + j ≤ mid
      · exact agree hlo j hm
      · have := agree hhi (lo + j - (mid + 1)) (by omega)
        rwa [show mid + 1 + (lo + j - (mid + 1)) = lo + j by omega] at this
    rw [hbit]
  · simp [hj]

/-! The registers of an event queue (Table 19-3). -/

section
variable (s : State) {e : Nat}

theorem pageKind_evqPage (he : e < 256) : pageKind (evqPage e) = some .eventQueue := by
  have hr : 0x20 ≤ evqPage e ∧ evqPage e < 0x30 := by simp only [evqPage, Page.eventQueue]; omega
  unfold pageKind
  rw [if_neg (by omega), if_pos hr]

/-- EVQ_CFG, EVQ_HEAD and EVQ_STAT are entries 1, 3 and 4 of the table of a queue page's registers. -/
theorem findReg_evqOff (e : Nat) : findReg .eventQueue (evqOff e 8) = eventQueueRegs[1]? ∧
    findReg .eventQueue (evqOff e 0x18) = eventQueueRegs[3]? ∧ findReg .eventQueue (evqOff e 0x20) = eventQueueRegs[4]? := by
  have table : ∀ k < 16, findReg .eventQueue (0x400 + 0x40 * k + 8) = eventQueueRegs[1]? ∧
      findReg .eventQueue (0x400 + 0x40 * k + 0x18) = eventQueueRegs[3]? ∧
      findReg .eventQueue (0x400 + 0x40 * k + 0x20) = eventQueueRegs[4]? := by decide +kernel
  exact table (e % 16) (Nat.mod_lt _ (by decide))

theorem regKey_evqOff_ne {r r' : Nat} (h : r / 8 ≠ r' / 8) :
    regKey (evqPage e) (evqOff e r) ≠ regKey (evqPage e) (evqOff e r') :=
  regKey_ne_of_offset (by simp only [evqOff]; omega)

/-- A field of a queue that hardware has loaded. -/
theorem State.evqReg_setFld_same (r hi lo n : Nat) :
    (s.setFld (evqPage e) (evqOff e r) hi lo n).evqReg e r = setBits (s.evqReg e r) hi lo n :=
  State.reg_setFld_same ..

theorem State.evqReg_setFld_other {r r' : Nat} (hi lo n : Nat) (h : r' / 8 ≠ r / 8) :
    (s.setFld (evqPage e) (evqOff e r) hi lo n).evqReg e r' = s.evqReg e r' :=
  State.reg_setFld_other _ _ _ _ _ _ _ _ (regKey_evqOff_ne h)

@[simp] theorem State.evqReg_modEvq (q r : Nat) (f : EvQueue → EvQueue) : (s.modEvq q f).evqReg e r = s.evqReg e r := rfl

@[simp] theorem State.evq_modEvq (f : EvQueue → EvQueue) : (s.modEvq e f).evq.get {} e = f (s.evq.get {} e) :=
  Map.get_set_same ..

theorem State.storeWrite_evq (page off : Nat) (v : Word) : (s.storeWrite page off v).evq = s.evq := by
  obtain ⟨r, w, h⟩ := s.storeWrite_eq page off v
  rw [h]

theorem State.storeWrite_events (page off : Nat) (v : Word) : (s.storeWrite page off v).events = s.events := by
  obtain ⟨r, w, h⟩ := s.storeWrite_eq page off v
  rw [h]

/-- A write of EVQ_HEAD loads the index. -/
theorem State.storeWrite_evqHead (he : e < 256) (v : Word) :
    bits ((s.storeWrite (evqPage e) (evqOff e 0x18) v).evqReg e 0x18) 19 0 = bits v 19 0 := by
  have stored : (s.storeWrite (evqPage e) (evqOff e 0x18) v).evqReg e 0x18 =
      setBits (s.evqReg e 0x18) 19 0 (bits v 19 0) :=
    s.reg_storeWrite_same v (pageKind_evqPage he) (findReg_evqOff e).2.1
  rw [stored, bits_setBits_bits _ _ (by decide)]

/-- A write of EVQ_CFG loads ENABLE, OWNER_MGMT and PARTITION. -/
theorem evqReg_storeWrite_evqCfg (he : e < 256) (v : Word) :
    bits ((s.storeWrite (evqPage e) (evqOff e 8) v).evqReg e 8) 63 56 = bits v 63 56 := by
  have loads {f : FieldSpec} := s.fld_storeWrite_field (f := f) v (pageKind_evqPage he) (findReg_evqOff e).1 (by unfold apart; decide)
  exact bits_eq_of_parts (mid := 62) (loads (f := fld 63 63 .rw 0) (by decide) (by decide) rfl rfl)
    (bits_eq_of_parts (mid := 61) (loads (f := fld 62 62 .rw 0) (by decide) (by decide) rfl rfl)
      (loads (f := fld 61 56 .rw 0) (by decide) (by decide) rfl rfl))

end

/-! Delivery (R559 to R562). -/

section
variable {s w : State} {e : Nat} {g : GenEvent}

/-- A queue other than EQ000 that takes the partition's events is met itself, and so is EQ000. -/
theorem State.evqDeliver_accepted (h : s.evqAccepts e g.part = true) : s.evqDeliver g e = s.evqTake e g := by
  unfold State.evqDeliver
  by_cases he : e = 0
  · subst he; simp [h]
  · simp [he, h]

/-- A full queue drops the event (R561). -/
theorem State.evqTake_full (hfull : (bits (s.evqReg e 0x10) 19 0 + 1) % evqSize (s.evqReg e 8) =
    bits (s.evqReg e 0x18) 19 0 % evqSize (s.evqReg e 8)) : s.evqTake e g = s.evqDrop e := if_pos hfull

/-- A queue with room whose interrupt is raised writes the record and advances TAIL (R561, R562). -/
theorem State.evqTake_places {a : Nat} (hroom : (bits (s.evqReg e 0x10) 19 0 + 1) % evqSize (s.evqReg e 8) ≠
      bits (s.evqReg e 0x18) 19 0 % evqSize (s.evqReg e 8)) (hraised : (s.evq.get {} e).raised = true)
    (hplace : s.evqPlace e (bits (s.evqReg e 0x10) 19 0) = some a)
    (hwrite : s.physWrite (bits (s.evqReg e 8) 61 56) .engine a
      (recordBytes g (s.evq.get {} e).phase (s.evq.get {} e).lost) = (St.ok, w)) :
    ∃ n f, s.evqTake e g = ((w.setFld (evqPage e) (evqOff e 0x10) 19 0
      ((bits (s.evqReg e 0x10) 19 0 + 1) % evqSize (s.evqReg e 8))).setFld (evqPage e) (evqOff e 0x20) 31 0 n).modEvq e f := by
  unfold State.evqTake
  extract_lets page cfg size tail head q
  rw [if_neg hroom, hplace]
  dsimp only
  rw [hwrite, if_neg (by simp), if_pos hraised]
  exact ⟨_, _, rfl⟩

/-- A drop counts DROPPED up to its bound (R561). -/
theorem State.evqDrop_counts : bits ((s.evqDrop e).evqReg e 0x20) 63 32 =
    min (bits (s.evqReg e 0x20) 63 32 + 1) 0xFFFFFFFF := by
  rw [State.evqDrop, State.evqReg_modEvq, State.evqReg_setFld_same, bits_setBits_same _ _ (by decide)]
  omega

end

/-- The oldest event is routed. -/
theorem exec_eventPosting {s : State} {g : GenEvent} {rest : List GenEvent} (h : s.events = g :: rest) :
    exec .eventPosting s = .next (({ s with events := rest } : State).routeEvent g) := by
  show execEventPosting s = _
  simp only [execEventPosting, h]

/-- An event that no entry of the routing table matches meets the queue of its page's EV_ROUTE (R559). -/
theorem exec_eventPosting_unmatched {s : State} {g : GenEvent} {rest : List GenEvent} (h : s.events = g :: rest)
    (hmatch : s.ertMatch g = none) (haccept : s.evqAccepts (s.fld g.page Reg.EV_ROUTE 7 0) g.part = true) :
    exec .eventPosting s = .next (({ s with events := rest } : State).evqTake (s.fld g.page Reg.EV_ROUTE 7 0) g) := by
  have hmatch' : ({ s with events := rest } : State).ertMatch g = none := hmatch
  have haccept' : ({ s with events := rest } : State).evqAccepts (s.fld g.page Reg.EV_ROUTE 7 0) g.part = true := haccept
  rw [exec_eventPosting h, State.routeEvent, hmatch', ← State.evqDeliver_accepted haccept']
  rfl

/-! EV_FORCE (R559). -/

theorem bit_place_single {c i : Nat} (hc : c < 64) (hi : i < 64) : bit (place c c 1) i = decide (i = c) := by
  by_cases h : i = c
  · subst h; simp [bit_place 1 (Nat.le_refl i) (Nat.le_refl i) hi]
  · rw [bit_place_outside 1 (by omega)]; simp [h]

/-- The classes of a word with one bit set post one event, of that class. -/
theorem foldl_single {c : Nat} {v : Word} (f : State → Nat → State) (s : State) (hv : ∀ i < 16, bit v i = decide (i = c))
    (hc : c < 16) : (List.range 16).foldl (fun s i => if bit v i then f s i else s) s = f s c := by
  have split : ∀ n ≤ 16, (List.range n).foldl (fun s i => if bit v i then f s i else s) s = if c < n then f s c else s := by
    intro n hn
    induction n with
    | zero => rfl
    | succ n ih =>
      rw [List.range_succ, List.foldl_concat, ih (by omega), hv n (by omega)]
      by_cases hcn : c < n
      · simp [hcn, show c < n + 1 by omega, show n ≠ c by omega]
      · by_cases hnc : n = c <;> simp [hcn, hnc]
        · omega
  rw [split 16 (Nat.le_refl _), if_pos hc]

theorem State.genEventAs_forced (s : State) (page code cls sev part : Nat) (payload : Word) :
    ∃ e, (s.genEventAs page code cls sev part payload true).events = s.events ++ [e] ∧ e.page = page ∧ e.code = code ∧
      e.cls = cls := ⟨_, rfl, rfl, rfl, rfl⟩

/-- Settles O46: an event meets the queue of EV_ROUTE, and each register of a queue has its effect. -/
theorem eventQueuesComplete : Obligations.EventQueuesComplete := by
  refine ⟨fun s g rest => exec_eventPosting, ?_, ?_, ?_, ?_, ?_⟩
  · rintro s w e a tail size g rest hevents hmatch rfl haccept rfl rfl
    rw [exec_eventPosting_unmatched hevents hmatch haccept]
    constructor
    · intro hroom hraised hplace hwrite
      obtain ⟨n, f, htake⟩ := State.evqTake_places (s := { s with events := rest }) hroom hraised hplace hwrite
      refine ⟨_, rfl, ?_, ?_, ?_⟩ <;> rw [htake]
      · rw [State.evqReg_modEvq, State.evqReg_setFld_other _ _ _ _ (by decide), State.evqReg_setFld_same,
          bits_setBits_same _ _ (by decide)]
        rfl
      · rfl
      · rfl
    · intro hfull
      refine ⟨_, rfl, ?_, ?_, ?_⟩ <;> rw [State.evqTake_full (s := { s with events := rest }) hfull]
      · rfl
      · exact State.evqDrop_counts
      · rfl
  · intro s i e v he h
    have hexec : exec (.evqHead i e v) s = .next (evqHeadEff e v (s.admittedState i (evqPage e) (evqOff e 0x18))) :=
      congrArg _ ((if_pos he).trans (State.writeVia_admitted _ h))
    refine ⟨_, hexec, ?_, ?_, ?_, ?_⟩ <;> rw [evqHeadEff]
    · rw [State.evqReg_modEvq, State.storeWrite_evqHead _ he]
    · rw [State.evq_modEvq]
    · exact (State.storeWrite_events _ _ _ _).trans (State.admittedState_events ..)
    · simp
  · intro s i e v he h
    have hexec : exec (.evqCfgWrite i e v) s = .next (evqCfgEff e v (s.admittedState i (evqPage e) (evqOff e 8))) :=
      congrArg _ ((if_pos he).trans (State.writeVia_admitted _ h))
    rw [hexec]
    refine ⟨fun hoff hon => ⟨_, rfl, ?_⟩, fun hoff => ⟨_, rfl, ?_⟩, fun hwas hon => ⟨_, rfl, ?_⟩⟩
    · simp only [evqCfgEff, State.evqReg_admittedState, hoff, hon, Bool.and_true, Bool.false_eq_true, if_false, if_true,
        State.evqReg_modEvq, State.evq_modEvq]
      refine ⟨?_, ?_, ?_, trivial, by simp⟩
      · rw [State.evqReg_setFld_other _ _ _ _ (by decide), State.evqReg_setFld_other _ _ _ _ (by decide),
          evqReg_storeWrite_evqCfg _ he]
      · rw [State.evqReg_setFld_other _ _ _ _ (by decide), State.evqReg_setFld_same, bits_setBits_same _ _ (by decide)]
        rfl
      · rw [State.evqReg_setFld_same, bits_setBits_same _ _ (by decide)]
        rfl
    · simp only [evqCfgEff, hoff, Bool.and_false, Bool.false_eq_true, if_false]
      exact ⟨evqReg_storeWrite_evqCfg _ he v, (State.storeWrite_evq ..).trans (State.admittedState_evq ..), by simp⟩
    · simp only [evqCfgEff, State.evqReg_admittedState, hwas, hon, Bool.and_true, if_true]
      exact ⟨trivial, State.admittedState_evq .., State.admittedState_mem ..⟩
  · intro s i e at_ n he hn hreached hread hpower
    have hbase : (evqOff e 0x20 + at_) / 8 * 8 = evqOff e 0x20 := by simp only [evqOff]; omega
    have hat : (evqOff e 0x20 + at_) % 8 = at_ := by simp only [evqOff]; omega
    have halign : (evqOff e 0x20 + at_) % n = 0 := by
      simp only [evqOff]; rcases hn with ⟨rfl, rfl⟩ | ⟨rfl, rfl | rfl⟩ <;> omega
    have hexec : exec (.evqStatRead i e at_ n) s = .next (evqStatClear e (decide (n = 8 ∨ at_ = 0)) (decide (n = 8 ∨ at_ = 4))
        { s.lockTouch i (evqPage e) with reply := (St.ok, ((leBytes 8 (s.evqReg e 0x20).toNat).drop at_).take n) }) := by
      refine congrArg _ ((if_pos ⟨he, by omega⟩).trans ?_)
      rw [State.readVia_answers _ _ (pageKind_evqPage he) (by rw [hbase, (findReg_evqOff e).2.2]; rfl) (by omega) halign hreached
        (by rwa [hbase]) hpower, hat]
    obtain ⟨l, hl⟩ := s.lockTouch_eq i (evqPage e)
    rw [hexec, hl]
    refine ⟨_, rfl, ?_⟩
    by_cases hhi : n = 8 ∨ at_ = 4
    · simp only [evqStatClear, hhi, decide_true, if_true, State.evqReg_setFld_same]
      refine ⟨rfl, ?_, ?_, rfl⟩
      · rw [bits_setBits_other _ _ (by decide) (by decide)]; rfl
      · rw [bits_setBits_same _ _ (by decide)]; rfl
    · simp only [evqStatClear, hhi, decide_false, Bool.false_eq_true, if_false]
      exact ⟨trivial, rfl, rfl, trivial⟩
  · intro s i page v hpage h
    have hexec : exec (.evForce i page v) s = .next (evForceEff page v (s.admittedState i page Reg.EV_FORCE)) :=
      congrArg _ ((if_neg hpage).trans (State.writeVia_admitted _ h))
    rw [hexec]
    refine ⟨rfl, ?_⟩
    rintro c hc rfl
    have one : evForceEff page (place c c 1) (s.admittedState i page Reg.EV_FORCE) =
        (s.admittedState i page Reg.EV_FORCE).genEventAs page 0x01FF c 0 0 0 true :=
      foldl_single (fun s c => s.genEventAs page 0x01FF c 0 0 0 true) _ (fun i hi => bit_place_single (by omega) (by omega)) hc
    obtain ⟨e, hevents, hp, hcode, hcls⟩ := (s.admittedState i page Reg.EV_FORCE).genEventAs_forced page 0x01FF c 0 0 0
    refine ⟨_, e, rfl, ?_, hp, hcode, hcls, ?_⟩ <;> rw [one]
    · rw [hevents, State.admittedState_events]
    · simp

end Sys2Proof.Machine

/-!
Clocks and power (O45): operating points, ceilings and their causes, feeds, and PANEL_TIME.
-/
namespace Sys2Proof.Machine

-- One proof at a time: each thread of Lean reserves a stack, and together they would pass the check's memory limit.
set_option Elab.async false

/-! What follows a cause: registers, clamps and their events (R542, R544). -/

/-- A state that differs from another at most in registers, clamps and events. -/
def State.Refreshed (s t : State) : Prop :=
  ∃ r k q e, t = { s with regs := r, clamps := k, evSeq := q, events := e }

theorem State.Refreshed.rfl {s : State} : s.Refreshed s := ⟨s.regs, s.clamps, s.evSeq, s.events, Eq.refl s⟩

theorem State.Refreshed.trans {s t u : State} (h : s.Refreshed t) (h' : t.Refreshed u) : s.Refreshed u := by
  obtain ⟨_, _, _, _, rfl⟩ := h
  obtain ⟨r, k, q, e, rfl⟩ := h'
  exact ⟨r, k, q, e, Eq.refl _⟩

theorem State.Refreshed.setFld {s t : State} (h : s.Refreshed t) (page off hi lo n : Nat) :
    s.Refreshed (t.setFld page off hi lo n) := by
  obtain ⟨_, k, q, e, rfl⟩ := h
  exact ⟨_, k, q, e, Eq.refl _⟩

theorem State.Refreshed.genEvent {s t : State} (h : s.Refreshed t) (page code part : Nat) (payload : Word) :
    s.Refreshed (t.genEvent page code part payload) := by
  obtain ⟨r, q, e, he⟩ := t.genEvent_eq page code part payload
  rw [he]
  obtain ⟨_, k, _, _, rfl⟩ := h
  exact ⟨r, k, q, e, Eq.refl _⟩

theorem State.Refreshed.foldl {α : Type} {f : State → α → State} (hf : ∀ (s : State) x, s.Refreshed (f s x)) (l : List α) (s : State) :
    s.Refreshed (l.foldl f s) :=
  foldl_inv (P := fun t : State => s.Refreshed t) l (fun t x h => h.trans (hf t x)) .rfl

section
variable (s : State)

theorem State.clampLoop_refreshed (page loop off bitAt : Nat) (holds : Bool) (bound val : Nat) :
    s.Refreshed (s.clampLoop page loop off bitAt holds bound val) := by
  unfold State.clampLoop
  extract_lets key s1
  have hs1 : s.Refreshed s1 := State.Refreshed.rfl.setFld ..
  split
  · split
    · exact hs1
    · have hkey : s.Refreshed { s1 with clamps := setInsert s1.clamps key } := by
        obtain ⟨r, k, q, e, h⟩ := hs1
        rw [h]
        exact ⟨r, _, q, e, rfl⟩
      exact hkey.genEvent ..
  · exact ⟨s.regs, _, s.evSeq, s.events, rfl⟩

theorem State.refreshDie_refreshed (st d : Nat) : s.Refreshed (s.refreshDie st d) := by
  unfold State.refreshDie
  extract_lets page cs ceil s1 s2 slow
  exact ((State.Refreshed.rfl.setFld ..).setFld ..).trans (State.clampLoop_refreshed ..)

theorem State.refreshKeeper_refreshed (st d : Nat) : s.Refreshed (s.refreshKeeper st d) := by
  unfold State.refreshKeeper
  extract_lets page gap eff s1
  exact ((State.Refreshed.rfl.setFld ..).setFld ..).trans (State.clampLoop_refreshed ..)

theorem State.refreshCause_refreshed (c i : Nat) : s.Refreshed (s.refreshCause c i) := by
  have dies := State.Refreshed.foldl (f := fun s (p : Nat × Nat) => s.refreshDie p.1 p.2)
    (fun s p => s.refreshDie_refreshed p.1 p.2) (causeDies c i) s
  rw [State.refreshCause]
  split
  · exact dies.trans (State.Refreshed.foldl (fun s k => s.refreshKeeper_refreshed (k / 4) (k % 4)) _ _)
  · exact dies

/-- The start or the end of a WARN changes registers only, beside the ceilings (Table 18-3). -/
theorem State.warnActions_refreshed (c i : Nat) : s.Refreshed (s.warnActions c i) := by
  have rate : ∀ (s : State) b, s.Refreshed (s.refreshBayRate b) := by
    intro s b
    rw [State.refreshBayRate]
    split
    · exact .rfl
    · exact State.Refreshed.rfl.setFld ..
  unfold State.warnActions
  split
  · split
    · exact State.Refreshed.rfl.setFld ..
    · exact .rfl
  · exact State.Refreshed.foldl (fun s j => rate s (4 * i + j)) _ _
  · exact rate s i
  · exact .rfl

/-- What a refresh leaves alone. -/
theorem State.Refreshed.keeps {s t : State} (h : s.Refreshed t) : t.mem = s.mem ∧ (∀ c i, t.cause c i = s.cause c i) ∧
    (∀ c i, t.lastReading c i = s.lastReading c i) ∧ t.boot = s.boot := by
  obtain ⟨r, k, q, e, rfl⟩ := h
  exact ⟨Eq.refl _, fun _ _ => Eq.refl _, fun _ _ => Eq.refl _, Eq.refl _⟩

variable {p o : Nat}

/-- Every register of a page below the stacks' keeps its value when a die follows its causes. -/
theorem State.fld_refreshDie_low (hp : p < 0x1000) (ho : o < 4096) {hi : Nat} (hhi : hi < 64) (lo st d : Nat) :
    (s.refreshDie st d).fld p o hi lo = s.fld p o hi lo := by
  have key : ∀ off < 4096, regKey p o ≠ regKey (Page.computeDie st d) off := fun off hoff =>
    regKey_ne_of_page (by simp only [Page.computeDie, Page.hub]; omega) ho hoff
  unfold State.refreshDie
  extract_lets page cs ceil s1 s2 slow
  rw [State.fld_clampLoop _ _ _ _ _ _ _ _ hhi (key _ (by decide)) (.inl (key _ (by decide))),
    State.fld_setFld_key _ _ _ _ _ _ _ _ (key _ (by decide)), State.fld_setFld_key _ _ _ _ _ _ _ _ (key _ (by decide))]

theorem State.fld_refreshKeeper_low (hp : p < 0x1000) (ho : o < 4096) {hi : Nat} (hhi : hi < 64) (lo st d : Nat) :
    (s.refreshKeeper st d).fld p o hi lo = s.fld p o hi lo := by
  have key : ∀ off < 4096, regKey p o ≠ regKey (Page.computeDie st d) off := fun off hoff =>
    regKey_ne_of_page (by simp only [Page.computeDie, Page.hub]; omega) ho hoff
  unfold State.refreshKeeper
  extract_lets page gap eff s1
  rw [State.fld_clampLoop _ _ _ _ _ _ _ _ hhi (key _ (by decide)) (.inl (key _ (by decide))),
    State.fld_setFld_key _ _ _ _ _ _ _ _ (key _ (by decide)), State.fld_setFld_key _ _ _ _ _ _ _ _ (key _ (by decide))]

theorem State.fld_refreshCause_low (hp : p < 0x1000) (ho : o < 4096) {hi : Nat} (hhi : hi < 64) (lo c i : Nat) :
    (s.refreshCause c i).fld p o hi lo = s.fld p o hi lo := by
  have dies := foldl_inv (P := fun t : State => t.fld p o hi lo = s.fld p o hi lo) (causeDies c i)
    (f := fun s (q : Nat × Nat) => s.refreshDie q.1 q.2) (fun t q h => (t.fld_refreshDie_low hp ho hhi lo q.1 q.2).trans h) rfl
  rw [State.refreshCause]
  split
  · exact foldl_inv (P := fun t : State => t.fld p o hi lo = s.fld p o hi lo) _
      (fun t k h => (t.fld_refreshKeeper_low hp ho hhi lo (k / 4) (k % 4)).trans h) dies
  · exact dies

@[simp] theorem State.cause_modCause_same (c i : Nat) (f : Cause → Cause) : (s.modCause c i f).cause c i = f (s.cause c i) :=
  Map.get_set_same ..

@[simp] theorem State.lastReading_modCause (c i c' i' : Nat) (f : Cause → Cause) :
    (s.modCause c i f).lastReading c' i' = s.lastReading c' i' := rfl

@[simp] theorem State.mem_modCause (c i : Nat) (f : Cause → Cause) : (s.modCause c i f).mem = s.mem := rfl

end

/-! Operating points (R536 to R539). -/

section
variable {s : State} {st d : Nat}

theorem State.divTarget_le (s : State) (st d : Nat) : s.divTarget st d ≤ 3 := by
  unfold State.divTarget
  extract_lets page ceil least b
  have hceil : ceil < 2 ^ 2 := bits_lt ..
  have hleast : least ≤ 3 := by
    simp only [least]
    cases h : (List.range 4).find? fun j => decide (minVolt j ≤ s.fld page diePwrBound 25 16) with
    | none => exact Nat.le_refl 3
    | some j => have := List.mem_range.mp (List.mem_of_find?_eq_some h); simp only [Option.getD_some]; omega
  have hb : b < 2 ^ 2 := by
    simp only [b]
    split <;> exact bits_lt ..
  omega

/-- A die whose last step is 1 µs old moves its divisor by one entry (R536 to R539). -/
theorem exec_divStep (hst : st < 72) (hd : d < 4)
    (hlate : ∀ t0, s.divAt.find (dieKey st d) = some t0 → t0 + 1000 ≤ s.panelTime.toNat) : exec (.divStep st d) s = .next
      (if s.divTarget st d < s.fld (Page.computeDie st d) diePwrStat 1 0 then
        if minVolt (s.divTarget st d) ≤ s.fld (Page.computeDie st d) diePwrStat 41 32 then
          { s.setFld (Page.computeDie st d) diePwrStat 1 0 (s.fld (Page.computeDie st d) diePwrStat 1 0 - 1) with
            divAt := s.divAt.set (dieKey st d) s.panelTime.toNat }
        else s
      else if s.fld (Page.computeDie st d) diePwrStat 1 0 < s.divTarget st d then
        { s.setFld (Page.computeDie st d) diePwrStat 1 0 (s.fld (Page.computeDie st d) diePwrStat 1 0 + 1) with
          divAt := s.divAt.set (dieKey st d) s.panelTime.toNat }
      else s) := by
  show execDivStep st d s = _
  have hearly : (match s.divAt.find (dieKey st d) with
      | some t => decide (s.panelTime.toNat < t + 1000)
      | none => false) = false := by
    cases h : s.divAt.find (dieKey st d) with
    | none => rfl
    | some t => have := hlate t h; simp; omega
  rw [execDivStep, Nat.mod_eq_of_lt hst, Nat.mod_eq_of_lt hd]
  exact congrArg Host.Outcome.next (if_neg (ne_true_of_eq_false hearly))

theorem exec_voltageRampDone (hst : st < 72) (hd : d < 4) (s : State) : exec (.voltageRampDone st d) s = .next
      (if s.divTarget st d < s.fld (Page.computeDie st d) diePwrStat 1 0 then
        if s.fld (Page.computeDie st d) diePwrStat 41 32 < minVolt (s.divTarget st d) then
          s.setFld (Page.computeDie st d) diePwrStat 41 32 (minVolt (s.divTarget st d))
        else s
      else if s.fld (Page.computeDie st d) diePwrStat 1 0 = s.divTarget st d then
        s.setFld (Page.computeDie st d) diePwrStat 41 32 (minVolt (s.fld (Page.computeDie st d) diePwrStat 1 0))
      else s) := by
  show execVoltageRampDone st d s = _
  rw [execVoltageRampDone, Nat.mod_eq_of_lt hst, Nat.mod_eq_of_lt hd]

end

/-! Sensors (R541 to R543). -/

section
variable {s : State} {c i v : Nat}

/-- A reading that is shown changes registers only. -/
theorem State.showReading_eq (s : State) (c i v : Nat) : ∃ r w, s.showReading c i v = { s with regs := r, written := w } := by
  unfold State.showReading
  extract_lets feed hottest off s1
  split
  · exact ⟨_, _, rfl⟩
  · split
    · exact ⟨_, _, rfl⟩
    · split
      · exact ⟨_, _, rfl⟩
      · exact ⟨_, _, rfl⟩

/-- A reading that is shown leaves the limits of its class alone. -/
theorem State.overWarn_showReading (s : State) (c i v : Nat) : (s.showReading c i v).overWarn c v = s.overWarn c v := by
  unfold State.overWarn
  by_cases h8 : c = 8
  · simp only [h8, if_true]
  · by_cases h9 : c = 9
    · simp [h9]
    · simp only [h8, h9, if_false]
      have limit : (s.showReading c i v).fld Page.thermal (Reg.THR + 8 * c) 7 0 = s.fld Page.thermal (Reg.THR + 8 * c) 7 0 := by
        unfold State.showReading
        extract_lets feed hottest off s1
        have hs1 : s1.fld Page.thermal (Reg.THR + 8 * c) 7 0 = s.fld Page.thermal (Reg.THR + 8 * c) 7 0 :=
          State.fld_setFld_other _ _ _ _ (by decide) (by decide)
        rw [if_neg h8, if_neg h9]
        split
        next h0 =>
          subst h0
          have apart : Page.thermal ≠ Page.computeDie (i / 4) (i % 4) := by simp only [Page.computeDie, Page.hub, Page.thermal]; omega
          exact (State.fld_setFld_key _ _ _ _ _ _ _ _ (regKey_ne_of_page apart (by decide) (by decide))).trans hs1
        · exact hs1
      rw [limit]

/-- A reading above WARN of a cause that is in none starts one and moves its demand by a point (R541 to R543; log row 47). -/
theorem State.warnStep_starts {trips : Bool} (hover : s.overWarn c v = true) (hwarn : (s.cause c i).warn = false) :
    ((s.warnStep c i v trips).cause c i).warn = true ∧
    ((s.warnStep c i v trips).cause c i).demand = min 3 ((s.cause c i).demand + 1) ∧
    (s.warnStep c i v trips).lastReading c i = s.lastReading c i ∧ (s.warnStep c i v trips).mem = s.mem := by
  unfold State.warnStep
  extract_lets x s1 s2
  have hs2 : s1.Refreshed s2 := by
    simp only [s2]
    split
    · exact .rfl
    · exact State.Refreshed.rfl.genEvent ..
  rw [if_pos hover, if_neg (ne_true_of_eq_false hwarn)]
  obtain ⟨hmem, hcause, hreading, -⟩ :=
    ((hs2.trans (s2.refreshCause_refreshed c i)).trans (State.warnActions_refreshed _ c i)).keeps
  rw [hmem, hcause, hreading, State.cause_modCause_same]
  exact ⟨rfl, rfl, rfl, rfl⟩

/-- What a reading of a sensor does in a module that is not starting (R541 to R543). -/
theorem exec_sensorReading {u : State} {peak : Nat} (hi : i < sensorCount c) (hboot : s.boot.running = false)
    (hu : u = ({ s with sensors := s.sensors.set (causeKey c i) v } : State).showReading c i v) :
    (s.overTrip c v peak = false → exec (.sensorReading c i v peak) s = .next (u.warnStep c i v false)) ∧
    (s.overTrip c v peak = true → c = 9 ∨ s.sensors.find (causeKey c i) = none →
      exec (.sensorReading c i v peak) s = .next (((u.warnStep c i v true).tripAct c i).genEvent Page.thermal 0x02D2 0
        (thermalPayload c i (eventReading c (if c = 9 then peak else v))))) := by
  have hrun : ¬ (u.boot.running && decide (u.phase < 3 ∨ u.phase = 15)) = true := by
    obtain ⟨r, w, h⟩ := State.showReading_eq { s with sensors := s.sensors.set (causeKey c i) v } c i v
    have : u.boot.running = false := by rw [hu, h]; exact hboot
    simp [this]
  constructor
  · intro htrip
    show execSensorReading c i v peak s = _
    rw [execSensorReading, if_neg (Nat.not_le.mpr hi)]
    simp only [htrip, Bool.false_and, ← hu]
    rw [if_neg hrun, if_neg Bool.false_ne_true]
  · intro htrip hfirst
    show execSensorReading c i v peak s = _
    rw [execSensorReading, if_neg (Nat.not_le.mpr hi)]
    rcases hfirst with rfl | hfirst
    · simp only [htrip, beq_self_eq_true, Bool.true_or, Bool.and_self, ← hu]
      rw [if_neg hrun, if_pos trivial]
    · simp only [htrip, hfirst, Bool.not_false, Bool.or_true, Bool.and_self, ← hu]
      rw [if_neg hrun, if_pos trivial]

/-- The end of a WARN leaves the demand (R541, R542). -/
theorem exec_warnEnd {t0 : Nat} (hcool : (s.cause c i).coolSince = some t0) (hwarn : (s.cause c i).warn = true) (hc : c ≤ 9)
    (hlate : t0 + 10000000 ≤ s.panelTime.toNat) :
    ∃ t, exec (.warnEnd c i) s = .next t ∧ (t.cause c i).warn = false ∧ (t.cause c i).coolSince = none ∧
      (t.cause c i).demand = (s.cause c i).demand ∧ t.mem = s.mem := by
  have hends : ((s.cause c i).warn && decide (c ≤ 9 ∧ t0 + 10000000 ≤ s.panelTime.toNat)) = true := by simp [hwarn, hc, hlate]
  refine ⟨_, (show execWarnEnd c i s = _ by simp only [execWarnEnd, hcool]; rw [if_pos hends]), ?_⟩
  obtain ⟨hmem, hcause, -, -⟩ :=
    (((State.Refreshed.rfl.genEvent Page.thermal 0x02D1 0 (thermalPayload c i _)).trans
      (State.refreshCause_refreshed _ c i)).trans (State.warnActions_refreshed _ c i)).keeps
  rw [hmem, hcause, State.cause_modCause_same]
  exact ⟨rfl, rfl, rfl, rfl⟩

end

/-! Feeds (R546, R630). -/

section
variable {s : State} {f : Nat}

/-- The presence bit of a feed as its loss or return leaves it. -/
theorem State.fld_feedStat (s : State) (hf : f < 2) (ok volt : Nat) (hok : ok < 2) :
    (s.feedStat f ok volt).fld Page.pmc Reg.PMC_FEED_STAT f f = ok := by
  show ((s.setFld Page.pmc Reg.PMC_FEED_STAT f f ok).setFld Page.pmc Reg.PMC_FEED_STAT (29 + 10 * f) (20 + 10 * f) volt).fld
    Page.pmc Reg.PMC_FEED_STAT f f = ok
  rw [State.fld_setFld_other _ _ _ _ (by omega) (by omega), State.fld_setFld_same _ _ _ _ (by omega),
    Nat.add_sub_cancel_left, Nat.mod_eq_of_lt (by omega)]

/-- A feed's register keeps its value through an event of the panel management controller and the ceilings. -/
theorem State.fld_feedStat_event (s : State) (hf : f < 2) (code : Nat) (payload : Word) (g : Cause → Cause) :
    (((s.genEvent Page.pmc code 0 payload).modCause 10 0 g).refreshCause 10 0).fld Page.pmc Reg.PMC_FEED_STAT f f =
      s.fld Page.pmc Reg.PMC_FEED_STAT f f := by
  rw [State.fld_refreshCause_low _ (by decide) (by decide) (by omega)]
  exact congrArg (bits · f f) (s.reg_genEvent_other Page.pmc code 0 payload (regKey_ne_of_offset (by decide)))

/-- The state in which a feed has been lost. -/
def State.withoutFeed (s : State) (f volt : Nat) : State :=
  ({ s with boot := { s.boot with lost := f :: s.boot.lost } } : State).feedStat f 0 volt

/-- The loss of a feed that was present (R546, R630). -/
theorem State.feedLost_new {volt : Nat} (hnew : f ∉ s.boot.lost) : s.feedLost f volt =
    if (f :: s.boot.lost).contains (1 - f) then (s.withoutFeed f volt).powerLost
    else ((s.withoutFeed f volt).genEvent Page.pmc 0x02D4 0 (place 0 0 f)).singleFeed :=
  if_neg (by simpa using hnew)

/-- The loss of one of two feeds caps the module (R546). -/
theorem State.feedLost_first {volt : Nat} (hf : f < 2) (hnew : f ∉ s.boot.lost) (hother : 1 - f ∉ s.boot.lost) :
    (s.feedLost f volt).boot.lost = f :: s.boot.lost ∧ ((s.feedLost f volt).cause 10 0).warn = true ∧
      (s.feedLost f volt).fld Page.pmc Reg.PMC_FEED_STAT f f = 0 ∧ (s.feedLost f volt).mem = s.mem := by
  have hone : ¬ (f :: s.boot.lost).contains (1 - f) = true := by
    have : 1 - f ≠ f := by omega
    simp [this, hother]
  have hev := State.Refreshed.rfl.genEvent (s := s.withoutFeed f volt) Page.pmc 0x02D4 0 (place 0 0 f)
  rw [State.feedLost_new hnew, if_neg hone, State.singleFeed]
  refine ⟨?_, ?_, ?_, ?_⟩
  · rw [(State.refreshCause_refreshed _ 10 0).keeps.2.2.2]
    exact congrArg Boot.lost hev.keeps.2.2.2
  · rw [(State.refreshCause_refreshed _ 10 0).keeps.2.1, State.cause_modCause_same]
  · rw [State.fld_feedStat_event _ hf]
    exact State.fld_feedStat _ hf 0 volt (by decide)
  · rw [(State.refreshCause_refreshed _ 10 0).keeps.1]
    exact hev.keeps.1

/-- The loss of the last feed ends the module's power (R630). -/
theorem State.feedLost_last {volt : Nat} (hnew : f ∉ s.boot.lost) (hother : 1 - f ∈ s.boot.lost) :
    s.feedLost f volt = (s.withoutFeed f volt).powerLost := by
  rw [State.feedLost_new hnew, if_pos (by simp [hother])]

/-- The state in which a lost feed has returned. -/
def State.withFeed (s : State) (f volt : Nat) : State :=
  ({ s with boot := { s.boot with lost := [] } } : State).feedStat f 1 volt

/-- The return of a lost feed lifts the cap (R546). -/
theorem exec_feedRestore {volt : Nat} (hf : f < 2) (hlost : f ∈ s.boot.lost) (hother : 1 - f ∉ s.boot.lost) :
    ∃ t, exec (.feedRestore f volt) s = .next t ∧ t.boot.lost = [] ∧ (t.cause 10 0).warn = false ∧
      t.fld Page.pmc Reg.PMC_FEED_STAT f f = 1 ∧ t.mem = s.mem := by
  have hgo : ¬ ((!s.boot.lost.contains f) = true ∨ s.boot.lost.contains (1 - f) = true) := by simp [hlost, hother]
  have hev := State.Refreshed.rfl.genEvent (s := s.withFeed f volt) Page.pmc 0x02D5 0 (place 0 0 f)
  have hexec : exec (.feedRestore f volt) s = .next ((((s.withFeed f volt).genEvent Page.pmc 0x02D5 0 (place 0 0 f)).modCause 10 0
      fun x => { x with warn := false, moved := ((s.withFeed f volt).genEvent Page.pmc 0x02D5 0 (place 0 0 f)).panelTime.toNat
        }).refreshCause 10 0) := by
    show execFeedRestore f volt s = _
    rw [execFeedRestore, Nat.mod_eq_of_lt hf]
    exact congrArg Host.Outcome.next (if_neg hgo)
  refine ⟨_, hexec, ?_, ?_, ?_, ?_⟩
  · rw [(State.refreshCause_refreshed _ 10 0).keeps.2.2.2]
    exact congrArg Boot.lost hev.keeps.2.2.2
  · rw [(State.refreshCause_refreshed _ 10 0).keeps.2.1, State.cause_modCause_same]
  · rw [State.fld_feedStat_event _ hf]
    exact State.fld_feedStat _ hf 1 volt (by decide)
  · rw [(State.refreshCause_refreshed _ 10 0).keeps.1]
    exact hev.keeps.1

end

/-! DIE_PWR_BOUND (R545, R550). -/

section
variable {s : State} {st d : Nat} {v : Word}

/-- A die that follows its causes keeps its bounds. -/
theorem State.fld_refreshDie_bound (s : State) (st d : Nat) {hi : Nat} (hhi : hi < 64) (lo : Nat) :
    (s.refreshDie st d).fld (Page.computeDie st d) diePwrBound hi lo = s.fld (Page.computeDie st d) diePwrBound hi lo := by
  have key : regKey (Page.computeDie st d) diePwrBound ≠ regKey (Page.computeDie st d) diePwrStat :=
    regKey_ne_of_offset (by decide)
  unfold State.refreshDie
  extract_lets page cs ceil s1 s2 slow
  rw [State.fld_clampLoop _ _ _ _ _ _ _ _ hhi (regKey_ne_of_offset (by decide)) (.inl key),
    State.fld_setFld_key _ _ _ _ _ _ _ _ key, State.fld_setFld_key _ _ _ _ _ _ _ _ key]

/-- Bounds within the safe range are stored, and the die follows them. -/
theorem diePwrBoundEff_stores (s : State) (hst : st < 72) (hd : d < 4) (hdiv : bits v 1 0 ≤ bits v 3 2) (hlow : 600 ≤ bits v 25 16)
    (hhigh : bits v 25 16 ≤ 850) : diePwrBoundEff (Page.computeDie st d) v s =
      (s.storeWrite (Page.computeDie st d) diePwrBound v).refreshDie st d := by
  have die : (Page.computeDie st d - 0x1000) % 0x40 - 17 = d := by simp only [Page.computeDie, Page.hub]; omega
  rw [diePwrBoundEff, if_neg (by omega)]
  simp only [pageStack_computeDie hst hd, die]

theorem fld_diePwrBoundEff (s : State) (hst : st < 72) (hd : d < 4) (hdiv : bits v 1 0 ≤ bits v 3 2) (hlow : 600 ≤ bits v 25 16)
    (hhigh : bits v 25 16 ≤ 850) {hi lo : Nat} (h : (hi, lo) ∈ [(1, 0), (3, 2), (15, 8), (25, 16)]) :
    (diePwrBoundEff (Page.computeDie st d) v s).fld (Page.computeDie st d) diePwrBound hi lo = bits v hi lo := by
  have hr : findReg .computeDie diePwrBound = computeDieRegs[4]? := findReg_computeDie 2 (by decide)
  have loads {f : FieldSpec} := s.fld_storeWrite_field (f := f) v (pageKind_computeDie hst hd) hr (by unfold apart; decide)
  rw [diePwrBoundEff_stores s hst hd hdiv hlow hhigh]
  simp only [List.mem_cons, Prod.mk.injEq, List.not_mem_nil, or_false] at h
  rcases h with ⟨rfl, rfl⟩ | ⟨rfl, rfl⟩ | ⟨rfl, rfl⟩ | ⟨rfl, rfl⟩ <;> rw [State.fld_refreshDie_bound _ _ _ (by decide)]
  · exact loads (f := fld 1 0 .rw 0x0) (by decide) (by decide) rfl rfl
  · exact loads (f := fld 3 2 .rw 0x3) (by decide) (by decide) rfl rfl
  · exact loads (f := fld 15 8 .rw 0x64) (by decide) (by decide) rfl rfl
  · exact loads (f := fld 25 16 .rw 0x352) (by decide) (by decide) rfl rfl

end

/-! PANEL_TIME (R547 to R549). -/

section
variable {s : State}

@[simp] theorem State.panelTime_setTime (s : State) (t : Nat) : (s.setTime t).panelTime = BitVec.ofNat 64 t :=
  State.reg_setReg_same ..

/-- A cycle that the discipline corrects. -/
theorem exec_panelTimeTick_corrects {n adj : Nat} (hn : 1 ≤ n) (hadj : adj = 1 ∨ adj = 2)
    (hlate : s.time.corrected + 10000 ≤ s.panelTime.toNat) (hpair : ∃ e ∈ s.time.pairs, s.portUp e.1 = true) :
    exec (.panelTimeTick n adj) s = .next (({ s with time := { s.time with corrected := s.panelTime.toNat } } : State).setTime
      (s.panelTime.toNat + 5 * n + (if adj = 1 then 0 else 2) - 1)) := by
  have hmay : (decide (1 ≤ n ∧ (adj = 1 ∨ adj = 2) ∧ s.time.corrected + 10000 ≤ s.panelTime.toNat) &&
      s.time.pairs.any fun e => s.portUp e.1) = true := by
    simp only [Bool.and_eq_true, decide_eq_true_eq, List.any_eq_true]
    exact ⟨⟨hn, hadj, hlate⟩, hpair⟩
  show execPanelTimeTick n adj s = _
  unfold execPanelTimeTick
  extract_lets now may s1
  rw [if_pos hmay]

/-- TIME_STAT after an exchange with the source (R548). -/
theorem timeStat_fields (hops source offset locked : Nat) (hs : source < 2 ^ 12) (ho : offset < 2 ^ 16) :
    let w := place 47 44 hops ||| place 43 32 source ||| place 31 16 offset ||| place 0 0 locked
    bits w 43 32 = source ∧ bits w 47 44 = hops % 16 ∧ bits w 31 16 = offset := by
  intro w
  refine ⟨?_, ?_, ?_⟩ <;>
    simp (disch := decide) only [w, bits_or, bits_place_same, bits_place_other, Nat.or_zero, Nat.zero_or]
  · exact Nat.mod_eq_of_lt hs
  · rfl
  · exact Nat.mod_eq_of_lt ho

/-- The state in which an exchange with a source has been shown. -/
def State.timeShown (u : State) (source h : Nat) (off : Int) : State :=
  u.setReg Page.clock timeStat (place 47 44 (h + 1) ||| place 43 32 source ||| place 31 16 (unsigned 16 off)
    ||| place 0 0 (u.fld Page.clock timeStat 0 0))

/-- The state in which an exchange has been counted as good or not (R549). -/
def State.timeCounted (s : State) (off : Int) : State :=
  { s with time := { s.time with
    good := if decide (-20 ≤ off ∧ off ≤ 20) then s.time.good + 1 else 0, last := s.panelTime.toNat } }

/-- The state after an exchange: the lock is gained, the clock steps once, or neither (R549). -/
def State.timeDone (s : State) (off : Int) : State :=
  if 16 ≤ s.time.good then { (s.setFld Page.clock timeStat 0 0 1) with time := { s.time with everLocked := true } }
  else if !s.time.everLocked && !s.time.stepped && decide (off < -1000 ∨ 1000 < off) then
    { (s.setTime ((s.panelTime.toNat : Int) + off).toNat) with time := { s.time with stepped := true } }
  else s

theorem State.timeDone_keeps (s : State) (off : Int) : (s.timeDone off).time.good = s.time.good ∧ (s.timeDone off).mem = s.mem ∧
    ∀ hi lo, hi < 64 → 0 < lo → (s.timeDone off).fld Page.clock timeStat hi lo = s.fld Page.clock timeStat hi lo := by
  unfold State.timeDone
  split
  · exact ⟨rfl, rfl, fun hi lo hhi hlo => State.fld_setFld_other s _ _ _ hhi (.inr hlo)⟩
  · split
    · exact ⟨rfl, rfl, fun hi lo _ _ => congrArg (bits · hi lo) (s.reg_setReg_other _ _ _ _ _ (regKey_ne_of_offset (by decide)))⟩
    · exact ⟨rfl, rfl, fun _ _ _ _ => rfl⟩

/-- An exchange with the source shows the source, its hops and the offset, and counts how often the offset was small
(R548, R549). -/
theorem exec_timeExchange {u : State} {f source hops t1 t2 t3 t4 h : Nat} {off : Int} (hf : f < 32) (hup : s.portUp f = true)
    (hu : u = { s with time := { s.time with pairs := s.time.pairs.set f (source % 4096, hops) } })
    (hsource : u.timeSource = some (f, source % 4096, h)) (hoff : off = (((t2 : Int) - (t1 : Int)) - ((t4 : Int) - (t3 : Int))) / 2) :
    exec (.timeExchange f source hops t1 t2 t3 t4) s = .next (((u.timeShown (source % 4096) h off).timeCounted off).timeDone off) := by
  show execTimeExchange f source hops t1 t2 t3 t4 s = _
  rw [execTimeExchange, Nat.mod_eq_of_lt hf]
  simp only [hup, ← hu, hsource, ← hoff, Bool.not_true, Bool.false_eq_true, if_false, ne_eq, not_true_eq_false]
  rfl

end

/-- Settles O45: each move of an operating point, a cause, a feed or PANEL_TIME is the one branch that its conditions leave. -/
theorem powerCompletes : Obligations.PowerCompletes := by
  refine ⟨?_, ?_, ?_, ?_, ?_, fun s u c i v peak => exec_sensorReading, ?_, fun s c i t0 => exec_warnEnd, ?_, 
    fun s f volt => exec_feedRestore, ?_, fun s n => ?_, ?_, ?_, ?_⟩
  · intro s st d hst hd hlate
    rw [exec_divStep hst hd hlate]
    have htop := s.divTarget_le st d
    constructor
    · intro h
      refine ⟨_, rfl, ?_, ?_⟩ <;> rw [if_neg (by omega), if_pos h]
      · refine (State.fld_setFld_same s _ _ _ (by decide)).trans (Nat.mod_eq_of_lt ?_)
        omega
      · rfl
    · intro h hvolt
      have := bits_lt (s.reg (Page.computeDie st d) diePwrStat) 1 0
      refine ⟨_, rfl, ?_, ?_⟩ <;> rw [if_pos h, if_pos hvolt]
      · rw [show ∀ (t : State) m, ({ t with divAt := m } : State).fld (Page.computeDie st d) diePwrStat 1 0 =
          t.fld (Page.computeDie st d) diePwrStat 1 0 from fun _ _ => rfl, State.fld_setFld_same s _ _ _ (by decide)]
        rw [State.fld] at *
        omega
      · rfl
  · intro s st d hst hd
    rw [exec_voltageRampDone hst hd]
    refine ⟨fun h => ?_, fun h hvolt => ?_⟩
    · rw [if_neg (by omega), if_pos h, h]
    · rw [if_pos h, if_pos hvolt]
  · intro s c hidle htask hgate
    exact congrArg Host.Outcome.next (if_pos ⟨hidle, htask, hgate⟩)
  · intro s c i hwarn hlate hdemand hover
    have hrising : (if c = 10 then (s.cause c i).warn && decide (2800 < s.lastReading 9 0)
        else (s.cause c i).warn && (s.cause c i).above) = true := by
      rcases hover with ⟨h, habove⟩ | ⟨rfl, hpower⟩
      · simp [h, hwarn, habove]
      · simp [hwarn, hpower]
    show execCeilStep c i s = _
    unfold execCeilStep
    extract_lets x now rising
    rw [if_pos (show rising = true from hrising), if_pos ⟨hlate, hdemand⟩]
  · intro s c i hwarn hlate hdemand
    have hrising : (if c = 10 then (s.cause c i).warn && decide (2800 < s.lastReading 9 0)
        else (s.cause c i).warn && (s.cause c i).above) = false := by
      split <;> simp [hwarn]
    show execCeilStep c i s = _
    unfold execCeilStep
    extract_lets x now rising
    rw [show rising = false from hrising, if_neg Bool.false_ne_true, if_pos (by simp [x, now, hwarn, hlate, hdemand])]
  · intro s c i v peak hi hboot htrip hover hwarn
    refine ⟨_, (exec_sensorReading hi hboot rfl).1 htrip, ?_⟩
    obtain ⟨r, w, hshow⟩ := State.showReading_eq { s with sensors := s.sensors.set (causeKey c i) v } c i v
    obtain ⟨hon, hdemand, hreading, hmem⟩ := State.warnStep_starts (trips := false)
      ((State.overWarn_showReading { s with sensors := s.sensors.set (causeKey c i) v } c i v).trans hover) (by rw [hshow]; exact hwarn)
    rw [hon, hdemand, hreading, hmem, hshow]
    exact ⟨Map.get_set_same .., rfl, rfl, rfl⟩
  · intro s f volt c hf hc hnew
    have hexec : exec c s = .next (s.feedLost f volt) := by
      rcases hc with rfl | rfl <;> exact congrArg (fun f => Host.Outcome.next (s.feedLost f volt)) (Nat.mod_eq_of_lt hf)
    rw [hexec]
    exact ⟨fun hother => ⟨_, rfl, State.feedLost_first hf hnew hother⟩,
      fun hother => congrArg _ (State.feedLost_last hnew hother)⟩
  · intro s i st d v hst hd h
    have hexec : exec (.diePwrBoundWrite i st d v) s =
        .next (diePwrBoundEff (Page.computeDie st d) v (s.admittedState i (Page.computeDie st d) diePwrBound)) := by
      show execDiePwrBoundWrite i st d v s = _
      rw [execDiePwrBoundWrite, Nat.mod_eq_of_lt hst, Nat.mod_eq_of_lt hd, State.writeVia_admitted _ h]
    rw [hexec]
    refine ⟨fun hdiv hlow hhigh => ⟨_, rfl, ?_, ?_, ?_, ?_, ?_⟩, fun hbad => congrArg _ (if_pos hbad)⟩
    · exact fld_diePwrBoundEff _ hst hd hdiv hlow hhigh (by decide)
    · exact fld_diePwrBoundEff _ hst hd hdiv hlow hhigh (by decide)
    · exact fld_diePwrBoundEff _ hst hd hdiv hlow hhigh (by decide)
    · exact fld_diePwrBoundEff _ hst hd hdiv hlow hhigh (by decide)
    · simp
  · exact congrArg Host.Outcome.next (if_neg (by simp))
  · intro s n adj hn hadj hlate hpair
    refine ⟨_, exec_panelTimeTick_corrects hn hadj hlate hpair, ?_, rfl, rfl⟩
    rw [State.panelTime_setTime]
    rcases hadj with rfl | rfl <;> simp
  · intro s u f source hops t1 t2 t3 t4 h off hf hup hu hsource hoff
    obtain ⟨hgood, hmem, hstat⟩ := ((u.timeShown (source % 4096) h off).timeCounted off).timeDone_keeps off
    have hshown : ((u.timeShown (source % 4096) h off).timeCounted off).reg Page.clock timeStat = _ := State.reg_setReg_same ..
    obtain ⟨hsrc, hhops, hoffset⟩ := timeStat_fields (h + 1) (source % 4096) (unsigned 16 off) (u.fld Page.clock timeStat 0 0)
      (Nat.mod_lt _ (by decide)) (by unfold unsigned; omega)
    refine ⟨_, exec_timeExchange hf hup hu hsource hoff, ?_, ?_, ?_, ?_, ?_⟩
    · rw [hstat _ _ (by decide) (by decide), State.fld, hshown, hsrc]
    · rw [hstat _ _ (by decide) (by decide), State.fld, hshown, hhops]
    · rw [hstat _ _ (by decide) (by decide), State.fld, hshown, hoffset]
    · rw [hgood, hu]
      simp [State.timeCounted, State.timeShown]
    · rw [hmem, hu]
      rfl
  · intro s hlate
    refine ⟨_, congrArg Host.Outcome.next (if_pos hlate), ?_, rfl, rfl⟩
    exact State.fld_setFld_same s _ _ _ (by decide)

end Sys2Proof.Machine

/-!
Pages (O47): PAGE_CTL, the ends of QUIESCING, UPDATING and INIT, PAGE_LOCK, and plain register writes.
-/
namespace Sys2Proof.Machine

-- One proof at a time: each thread of Lean reserves a stack, and together they would pass the check's memory limit.
set_option Elab.async false

/-! Page states (Table 21-6). -/

section
variable (s : State) (page : Nat)

/-- A page is in the state that it has entered. -/
@[simp] theorem State.pageState_enterState (st : Nat) : (s.enterState page st).pageState page = st % 16 :=
  State.fld_setFld_same _ _ _ _ (by decide)

/-- Only READY brings a new epoch (R566). -/
theorem State.enterState_of_ne {st : Nat} (h : st ≠ PS.ready) :
    s.enterState page st = s.setFld page Reg.PAGE_STATE 3 0 st := by
  rw [State.enterState, if_neg fun hst => h hst.1]

@[simp] theorem State.pageState_lastStatus (st : Nat) : (s.lastStatus page st).pageState page = s.pageState page :=
  State.fld_setFld_other _ _ _ _ (by decide) (by decide)

@[simp] theorem State.epoch_lastStatus (st : Nat) : (s.lastStatus page st).epoch page = s.epoch page :=
  State.fld_setFld_other _ _ _ _ (by decide) (by decide)

/-- LAST_STATUS is no part of the other registers. -/
theorem State.fld_lastStatus {p o : Nat} (st hi lo : Nat) (h : regKey p o ≠ regKey page Reg.PAGE_STATE) :
    (s.lastStatus page st).fld p o hi lo = s.fld p o hi lo :=
  State.fld_setFld_key _ _ _ _ _ _ _ _ h

/-- A page that returns to READY has a new epoch (R566). -/
theorem State.epoch_enterState_ready (h : s.pageState page ≠ PS.ready) :
    (s.enterState page PS.ready).epoch page = (s.epoch page + 1) % 65536 := by
  have counted : ((s.epoch page + 1) % 65536) % 2 ^ (47 + 1 - 32) = (s.epoch page + 1) % 65536 := Nat.mod_mod ..
  rw [State.enterState, if_pos ⟨rfl, h⟩, State.epoch]
  extract_lets e s1
  rw [State.fld_setFld_other _ _ _ _ (by decide) (by decide)]
  split
  next hhost =>
    rw [State.fld_setFld_key _ _ _ _ _ _ _ _ (by rw [hhost]; decide)]
    exact (State.fld_setFld_same _ _ _ _ (by decide)).trans counted
  · exact (State.fld_setFld_same _ _ _ _ (by decide)).trans counted

/-- A page state is no part of the page's other registers, but of the host port's status. -/
theorem State.fld_enterState_other (st : Nat) {off : Nat} (hi lo : Nat) (h : off / 8 ≠ Reg.PAGE_STATE / 8)
    (hstat : off / 8 ≠ Reg.HOST_STAT / 8) : (s.enterState page st).fld page off hi lo = s.fld page off hi lo := by
  rw [State.enterState]
  extract_lets e s1
  rw [State.fld_setFld_key _ _ _ _ _ _ _ _ (regKey_ne_of_offset h)]
  split
  · split
    next hhost =>
      rw [hhost, State.fld_setFld_key _ _ _ _ _ _ _ _ (regKey_ne_of_offset hstat), ← hhost]
      exact State.fld_setFld_key _ _ _ _ _ _ _ _ (regKey_ne_of_offset h)
    · exact State.fld_setFld_key _ _ _ _ _ _ _ _ (regKey_ne_of_offset h)
  · rfl

/-- Another page's registers do not change with a page's state. -/
theorem State.reg_enterState_page {p o : Nat} (st : Nat) (h : p ≠ page) (ho : o < 4096) :
    (s.enterState page st).reg p o = s.reg p o := by
  have key : ∀ off < 4096, regKey p o ≠ regKey page off := fun off hoff => regKey_ne_of_page h ho hoff
  rw [State.enterState]
  extract_lets e s1
  rw [State.reg_setFld_other _ _ _ _ _ _ _ _ (key _ (by decide))]
  split
  · split
    · rw [State.reg_setFld_other _ _ _ _ _ _ _ _ (key _ (by decide)), State.reg_setFld_other _ _ _ _ _ _ _ _ (key _ (by decide))]
    · exact State.reg_setFld_other _ _ _ _ _ _ _ _ (key _ (by decide))
  · rfl

@[simp] theorem State.pageState_admittedState (i : Ident) (p off : Nat) :
    (s.admittedState i p off).pageState page = s.pageState page := s.fld_admittedState i p off ..

@[simp] theorem State.epoch_admittedState (i : Ident) (p off : Nat) : (s.admittedState i p off).epoch page = s.epoch page :=
  s.fld_admittedState i p off ..

end

/-! Changes through PAGE_CTL (R566, R570, R611). -/

section
variable {s : State} {i : Ident} {page e q : Nat}

theorem bits_ctlWord (epoch enable quiesce : Nat) {n : Nat} (hn : n < 2 ^ 16) (hepoch : epoch < 2 ^ 16) :
    bits (ctlWord epoch enable quiesce n) 63 48 = epoch := by
  have others : bits (BitVec.ofNat 64 n) 63 48 = 0 := by
    refine Nat.eq_of_testBit_eq fun j => ?_
    rw [testBit_bits, Nat.zero_testBit, bit, BitVec.toNat_ofNat, Nat.mod_eq_of_lt (by omega),
      Nat.testBit_lt_two_pow (lt_of_lt_of_le hn (Nat.pow_le_pow_right (by decide) (by omega))), Bool.and_false]
  simp (disch := decide) only [ctlWord, bits_or, bits_place_same, bits_place_other, others, Nat.or_zero]
  exact Nat.mod_eq_of_lt hepoch

theorem bit_ctlWord (epoch enable quiesce n : Nat) {j : Nat} (hj : j < 48) : bit (ctlWord epoch enable quiesce n) j =
    ((decide (j = 0) && enable.testBit 0 || decide (j = 1) && quiesce.testBit 0) || bit (BitVec.ofNat 64 n) j) := by
  rw [ctlWord, bit_or, bit_or, bit_or, bit_place_outside _ (.inl hj), Bool.false_or]
  congr 1
  rcases j with _ | _ | j
  · rw [bit_place _ (by decide) (by decide) (by decide), bit_place_outside _ (by decide)]; rfl
  · rw [bit_place_outside _ (by decide), bit_place _ (by decide) (by decide) (by decide)]; simp
  · rw [bit_place_outside _ (by omega), bit_place_outside _ (by omega)]; simp

theorem bit_eq_testBit_fld (s : State) (page off j : Nat) : bit (s.reg page off) j = (s.fld page off j j).testBit 0 := by
  rw [State.fld, testBit_bits]; simp

/-- The change that a word asks for, where it holds ENABLE and QUIESCE_REQ as `enable` and `quiesce` and the bits of `n`. -/
theorem State.ctlChange_ctlWord (s : State) (page epoch enable quiesce n : Nat) (h0 : bit (BitVec.ofNat 64 n) 0 = false)
    (h1 : bit (BitVec.ofNat 64 n) 1 = false) : s.ctlChange page (ctlWord epoch enable quiesce n) =
      match [(1, enable.testBit 0 != (s.fld page Reg.PAGE_CTL 0 0).testBit 0),
        (2, quiesce.testBit 0 != (s.fld page Reg.PAGE_CTL 1 1).testBit 0), (3, bit (BitVec.ofNat 64 n) 2),
        (4, bit (BitVec.ofNat 64 n) 3)].filter Prod.snd with
      | [] => 0
      | [c] => c.1
      | _ => 5 := by
  have bit0 : bit (ctlWord epoch enable quiesce n) 0 = enable.testBit 0 := by simp [bit_ctlWord, h0]
  have bit1 : bit (ctlWord epoch enable quiesce n) 1 = quiesce.testBit 0 := by simp [bit_ctlWord, h1]
  have bit2 : bit (ctlWord epoch enable quiesce n) 2 = bit (BitVec.ofNat 64 n) 2 := by simp [bit_ctlWord]
  have bit3 : bit (ctlWord epoch enable quiesce n) 3 = bit (BitVec.ofNat 64 n) 3 := by simp [bit_ctlWord]
  unfold State.ctlChange
  simp only [bit0, bit1, bit2, bit3, bit_eq_testBit_fld s page Reg.PAGE_CTL] <;> rfl

/-- A field of one bit is 0 or 1. -/
theorem State.fld_bit (s : State) (page off j : Nat) : s.fld page off j j = 0 ∨ s.fld page off j j = 1 := by
  have h : s.fld page off j j < 2 ^ (j + 1 - j) := bits_lt ..
  rw [Nat.add_sub_cancel_left] at h
  omega

/-- The words of the commands of PAGE_CTL ask for one change each (Table 21-3). -/
theorem State.ctlChange_commands {c : Instr} {v : Word} {change : Nat} (he : e = s.fld page Reg.PAGE_CTL 0 0)
    (hq : q = s.fld page Reg.PAGE_CTL 1 1)
    (h : (c, v, change) ∈ [(Instr.quiesceReq i page (s.epoch page), ctlWord (s.epoch page) e 1 0, if q = 1 then 0 else 2),
      (.quiesceClear i page (s.epoch page), ctlWord (s.epoch page) e 0 0, if q = 0 then 0 else 2),
      (.resetReq i page (s.epoch page), ctlWord (s.epoch page) e q 4, 3),
      (.updateReq i page (s.epoch page), ctlWord (s.epoch page) e q 8, 4),
      (.enableClear i page (s.epoch page), ctlWord (s.epoch page) 0 q 0, if e = 0 then 0 else 1),
      (.enableSet i page (s.epoch page), ctlWord (s.epoch page) 1 q 0, if e = 1 then 0 else 1)]) :
    exec c s = .next (if page = 0x102 then s else s.writeVia i page Reg.PAGE_CTL v (pageCtlEff page v)) ∧
      s.ctlChange page v = change ∧ bits v 63 48 = s.epoch page ∧ bit v 4 = false := by
  have hepoch : s.epoch page < 2 ^ 16 := bits_lt ..
  have he' := s.fld_bit page Reg.PAGE_CTL 0
  have hq' := s.fld_bit page Reg.PAGE_CTL 1
  rw [← he] at he'
  rw [← hq] at hq'
  simp only [List.mem_cons, Prod.mk.injEq, List.not_mem_nil, or_false] at h
  rcases h with ⟨rfl, rfl, rfl⟩ | ⟨rfl, rfl, rfl⟩ | ⟨rfl, rfl, rfl⟩ | ⟨rfl, rfl, rfl⟩ | ⟨rfl, rfl, rfl⟩ | ⟨rfl, rfl, rfl⟩ <;>
    refine ⟨by subst he hq; rfl, ?_, bits_ctlWord _ _ _ (by decide) hepoch, ?_⟩
  all_goals first
    | (rw [bit_ctlWord _ _ _ _ (by decide)]; rfl)
    | (rw [State.ctlChange_ctlWord _ _ _ _ _ _ (by decide) (by decide), ← he, ← hq]
       rcases he' with h0 | h0 <;> rcases hq' with h1 | h1 <;> rw [h0, h1] <;> rfl)

/-- A change that expects the page's epoch and that Table 19-7 and PAGE_CAP allow is made, with LAST_STATUS OK. -/
theorem exec_ctl_makes {c : Instr} {v : Word} {change : Nat} (hpage : page ≠ 0x102) (he : e = s.fld page Reg.PAGE_CTL 0 0)
    (hq : q = s.fld page Reg.PAGE_CTL 1 1)
    (h : (c, v, change) ∈ [(Instr.quiesceReq i page (s.epoch page), ctlWord (s.epoch page) e 1 0, if q = 1 then 0 else 2),
      (.quiesceClear i page (s.epoch page), ctlWord (s.epoch page) e 0 0, if q = 0 then 0 else 2),
      (.resetReq i page (s.epoch page), ctlWord (s.epoch page) e q 4, 3),
      (.updateReq i page (s.epoch page), ctlWord (s.epoch page) e q 8, 4),
      (.enableClear i page (s.epoch page), ctlWord (s.epoch page) 0 q 0, if e = 0 then 0 else 1),
      (.enableSet i page (s.epoch page), ctlWord (s.epoch page) 1 q 0, if e = 1 then 0 else 1)])
    (hadm : Admitted s i page Reg.PAGE_CTL v) (hallowed : s.ctlAllowed page change = true) :
    exec c s = .next (((s.admittedState i page Reg.PAGE_CTL).ctlMake page change).lastStatus page St.ok) := by
  obtain ⟨hexec, hchange, hepoch, hclear⟩ := State.ctlChange_commands he hq h
  have hchange' : (s.admittedState i page Reg.PAGE_CTL).ctlChange page v = change := by
    rw [State.ctlChange, State.reg_admittedState]; exact hchange
  have hallowed' : (s.admittedState i page Reg.PAGE_CTL).ctlAllowed page change = true := by
    simpa only [State.ctlAllowed, State.pageState_admittedState, State.reg_admittedState] using hallowed
  have hepoch' : (s.admittedState i page Reg.PAGE_CTL).epoch page = bits v 63 48 := by
    rw [State.epoch_admittedState, hepoch]
  have hsingle : change ≠ 5 := by rintro rfl; simp [State.ctlAllowed] at hallowed
  rw [hexec, if_neg hpage, State.writeVia_admitted _ hadm, pageCtlEff]
  simp [hchange', hallowed', hepoch', hsingle, hclear]

end

/-! What each change makes (Table 19-7). -/

section
variable (s : State) (page : Nat)

/-- Whether the registers dropped from a list count among them. -/
theorem Map.find_drop {α : Type} (m : Map α) (p : Nat → Bool) (i : Nat) :
    (m.drop p).find i = if p i then none else m.find i := by
  unfold Map.drop
  induction m with
  | nil => simp [Map.find]
  | cons x m ih =>
    obtain ⟨k, v⟩ := x
    by_cases hk : p k
    · rw [List.filter_cons_of_neg (by simp [hk]), ih]
      by_cases hi : k = i
      · simp [← hi, hk]
      · simp [Map.find, hi]
    · rw [List.filter_cons_of_pos (by simp [hk])]
      by_cases hi : k = i
      · simp [Map.find, ← hi, hk]
      · simp [Map.find, hi, ih]

/-- The state in which a page's quiescing is noted to have begun at time `t`. -/
def State.noteQuiesce (t : Nat) : State := { s with quiesceAt := s.quiesceAt.set page t }

@[simp] theorem State.fld_noteQuiesce (t p o hi lo : Nat) : (s.noteQuiesce page t).fld p o hi lo = s.fld p o hi lo := rfl

@[simp] theorem State.noteQuiesce_mem (t : Nat) : (s.noteQuiesce page t).mem = s.mem := rfl

theorem State.noteQuiesce_at (t : Nat) : (s.noteQuiesce page t).quiesceAt.get 0 page = t := Map.get_set_same ..

/-- The state in which a page has no power. -/
def State.cutPower : State := { s with unpowered := setInsert s.unpowered page }

@[simp] theorem State.fld_cutPower (p o hi lo : Nat) : (s.cutPower page).fld p o hi lo = s.fld p o hi lo := rfl

@[simp] theorem State.cutPower_mem : (s.cutPower page).mem = s.mem := rfl

/-- QUIESCE_REQ is set, the page is QUIESCING, and the time is noted, where the unit has no more to do (R567). -/
theorem State.quiesceStart_plain {k : PageKind} (hk : pageKind page = some k)
    (hplain : k ∉ [PageKind.iommuFile, .decanter, .blend, .cellarBay, .hubRouter]) : s.quiesceStart page =
      ((s.setFld page Reg.PAGE_CTL 1 1 1).setFld page Reg.PAGE_STATE 3 0 PS.quiescing).noteQuiesce page
        ((s.setFld page Reg.PAGE_CTL 1 1 1).setFld page Reg.PAGE_STATE 3 0 PS.quiescing).panelTime.toNat := by
  have other (k' : PageKind) (h : k' ∈ [PageKind.iommuFile, .decanter, .blend, .cellarBay, .hubRouter]) : pageKind page ≠ some k' := by
    rw [hk]; rintro ⟨⟩; exact hplain h
  unfold State.quiesceStart
  rw [State.enterState_of_ne _ _ (by decide)]
  split
  · exact absurd ‹_› (other _ (by decide))
  · exact absurd ‹_› (other _ (by decide))
  · exact absurd ‹_› (other _ (by decide))
  · rfl

/-- PAGE_CTL and PAGE_STATE of a page hold no time. -/
theorem State.panelTime_header {hi lo n : Nat} {off : Nat} (hoff : off < 0x100) (hp : page < 0x100000) :
    (s.setFld page off hi lo n).panelTime = s.panelTime := by
  refine State.reg_setFld_other _ _ _ _ _ _ _ _ ?_
  simp only [regKey, Page.clock, Reg.PANEL_TIME]
  omega

/-- QUIESCE_REQ is cleared, and the page is READY with a new epoch (R566). -/
theorem State.quiesceClear_plain (h : pageKind page ≠ some .cellarBay) (hstate : s.pageState page ≠ PS.ready) :
    (s.quiesceClear page).pageState page = PS.ready ∧ (s.quiesceClear page).fld page Reg.PAGE_CTL 1 1 = 0 ∧
      (s.quiesceClear page).epoch page = (s.epoch page + 1) % 65536 := by
  rw [State.quiesceClear, if_neg h]
  extract_lets s1
  have hs1 (hi lo : Nat) : (s1.setFld page Reg.PAGE_CTL 1 1 0).fld page Reg.PAGE_STATE hi lo = s.fld page Reg.PAGE_STATE hi lo := by
    rw [State.fld_setFld_key _ _ _ _ _ _ _ _ (regKey_ne_of_offset (by decide))]
    simp only [s1]
    split
    next hhost => rw [State.fld_setFld_key _ _ _ _ _ _ _ _ (by rw [hhost]; decide)]
    · rfl
  refine ⟨State.pageState_enterState _ _ _, ?_, ?_⟩
  · rw [State.fld_enterState_other _ _ _ _ _ (by decide) (by decide)]
    exact State.fld_setFld_same _ _ _ _ (by decide)
  · rw [State.epoch_enterState_ready _ _ (by rw [State.pageState, hs1]; exact hstate), State.epoch, hs1, State.epoch]

/-- ENABLE is cleared, and the page is OFF, without power where it can be (R566, R613). -/
theorem State.pageOff_plain (hrouter : pageKind page ≠ some .hubRouter) (hbay : pageKind page ≠ some .cellarBay) :
    s.pageOff page = if bit (s.reg page Reg.PAGE_CAP) 0 then
      ((s.setFld page Reg.PAGE_CTL 0 0 0).setFld page Reg.PAGE_STATE 3 0 PS.off).cutPower page
      else (s.setFld page Reg.PAGE_CTL 0 0 0).setFld page Reg.PAGE_STATE 3 0 PS.off := by
  have hcap : (((s.setFld page Reg.PAGE_CTL 0 0 0).setFld page Reg.PAGE_STATE 3 0 PS.off).reg page Reg.PAGE_CAP) =
      s.reg page Reg.PAGE_CAP := by
    rw [State.reg_setFld_other _ _ _ _ _ _ _ _ (regKey_ne_of_offset (by decide)),
      State.reg_setFld_other _ _ _ _ _ _ _ _ (regKey_ne_of_offset (by decide))]
  unfold State.pageOff
  rw [State.enterState_of_ne _ _ (by decide)]
  dsimp only
  rw [hcap]
  split
  · exact absurd ‹_› hrouter
  · exact absurd ‹_› hbay
  · rfl

theorem mem_setInsert (l : List Nat) (i : Nat) : i ∈ setInsert l i := by
  induction l with
  | nil => exact .head _
  | cons k l ih =>
    rw [setInsert]
    split
    · exact .head _
    · split
      next h => exact h ▸ .head _
      · exact .tail _ ih

/-- A page that passes through RESET enters INIT and has power (R566, R613). -/
theorem State.resetPage_ends : (s.resetPage page).pageState page = PS.init ∧ page ∉ (s.resetPage page).unpowered := by
  refine ⟨State.pageState_enterState _ _ _, ?_⟩
  rw [State.resetPage, State.enterState_of_ne _ _ (by decide), State.setFld_unpowered]
  simp

/-- CNT_CLEAR returns the counters of a page to their reset values, and no other register (R611). -/
theorem State.reg_cntClear : (∀ j < 16, (s.cntClear page).reg page (Reg.CNT + 8 * j) =
    resetValue page (Reg.CNT + 8 * j)) ∧ ∀ o < 0x60, (s.cntClear page).reg page o = s.reg page o := by
  constructor
  · intro j hj
    have gone : decide ((regKey page (Reg.CNT + 8 * j)) / 512 = page ∧ 0x60 / 8 ≤ regKey page (Reg.CNT + 8 * j) % 512 ∧
        regKey page (Reg.CNT + 8 * j) % 512 < 0xE0 / 8) = true := by
      refine decide_eq_true ?_
      simp only [regKey, Reg.CNT]; omega
    rw [State.reg, State.cntClear]
    dsimp only
    rw [Map.find_drop, if_pos gone]
  · intro o ho
    have kept : ¬ decide ((regKey page o) / 512 = page ∧ 0x60 / 8 ≤ regKey page o % 512 ∧ regKey page o % 512 < 0xE0 / 8) = true := by
      intro h
      have := of_decide_eq_true h
      simp only [regKey] at this; omega
    rw [State.reg, State.cntClear]
    dsimp only
    rw [Map.find_drop, if_neg kept, State.reg]

end

/-! The commands of PAGE_CTL on a page whose unit has no more to do (R566, R567, R570). -/

section
variable {s : State} {i : Ident} {page e q : Nat} {k : PageKind}

/-- A page of a kind lies within the map of pages (Table 21-1). -/
theorem pageKind_lt (hk : pageKind page = some k) : page < 0x100000 := by
  by_contra hge
  have hnone : pageKind page = none := by
    unfold pageKind
    rw [if_neg (by omega), if_neg (by omega), if_neg (by omega), if_neg (by omega), if_neg (by omega), if_neg (by omega),
      if_neg (by omega), if_neg (by omega), if_neg (by omega)]
  exact absurd (hnone.symm.trans hk) (by simp)

variable (he : e = s.fld page Reg.PAGE_CTL 0 0) (hq : q = s.fld page Reg.PAGE_CTL 1 1) (hk : pageKind page = some k)
  (hplain : k ∉ [PageKind.iommuFile, .decanter, .blend, .cellarBay, .hubRouter])

include hk hplain in
theorem pageKind_plain {k' : PageKind} (h : k' ∈ [PageKind.iommuFile, .decanter, .blend, .cellarBay, .hubRouter]) :
    pageKind page ≠ some k' := by
  rw [hk]; rintro ⟨⟩; exact hplain h

include hk hplain in
theorem page_plain : page ≠ 0x102 := by
  rintro rfl
  exact pageKind_plain hk hplain (k' := .iommuFile) (by decide) rfl

include he hq hk hplain

theorem exec_quiesceReq_starts (h : Admitted s i page Reg.PAGE_CTL (ctlWord (s.epoch page) e 1 0)) (hq0 : q = 0)
    (hready : s.pageState page = PS.ready) (hcap : bit (s.reg page Reg.PAGE_CAP) 1 = true) :
    ∃ t, exec (.quiesceReq i page (s.epoch page)) s = .next t ∧ t.pageState page = PS.quiescing ∧
      t.fld page Reg.PAGE_CTL 1 1 = 1 ∧ t.quiesceAt.get 0 page = s.panelTime.toNat ∧ t.mem = s.mem := by
  have hmake : (s.admittedState i page Reg.PAGE_CTL).ctlMake page 2 = (s.admittedState i page Reg.PAGE_CTL).quiesceStart page :=
    if_pos ((State.pageState_admittedState ..).trans hready)
  refine ⟨_, exec_ctl_makes (change := 2) (page_plain hk hplain) he hq (by simp [hq0]) h
    (by simp [State.ctlAllowed, hready, hcap]), ?_⟩
  rw [hmake, State.quiesceStart_plain _ _ hk hplain, State.pageState_lastStatus,
    State.fld_lastStatus _ _ _ _ _ (regKey_ne_of_offset (by decide)), State.pageState, State.fld_noteQuiesce, State.fld_noteQuiesce,
    State.lastStatus_mem, State.noteQuiesce_mem]
  refine ⟨State.fld_setFld_same _ _ _ _ (by decide), ?_, ?_, ?_⟩
  · rw [State.fld_setFld_key _ _ _ _ _ _ _ _ (regKey_ne_of_offset (by decide))]
    exact State.fld_setFld_same _ _ _ _ (by decide)
  · have hlt := pageKind_lt hk
    rw [State.panelTime_header _ _ (by decide) hlt, State.panelTime_header _ _ (by decide) hlt]
    exact (State.noteQuiesce_at ..).trans (congrArg BitVec.toNat (State.reg_admittedState ..))
  · simp

theorem exec_quiesceClear_ends (h : Admitted s i page Reg.PAGE_CTL (ctlWord (s.epoch page) e 0 0)) (hq1 : q = 1)
    (hstate : s.pageState page = PS.quiesced) :
    ∃ t, exec (.quiesceClear i page (s.epoch page)) s = .next t ∧ t.pageState page = PS.ready ∧
      t.fld page Reg.PAGE_CTL 1 1 = 0 ∧ t.epoch page = (s.epoch page + 1) % 65536 ∧ t.mem = s.mem := by
  have hstate' : (s.admittedState i page Reg.PAGE_CTL).pageState page = PS.quiesced :=
    (State.pageState_admittedState ..).trans hstate
  have hbay := pageKind_plain hk hplain (k' := .cellarBay) (by decide)
  have hmake : (s.admittedState i page Reg.PAGE_CTL).ctlMake page 2 = (s.admittedState i page Reg.PAGE_CTL).quiesceClear page :=
    if_neg (by rw [hstate']; decide)
  obtain ⟨hready, hctl, hepoch⟩ := State.quiesceClear_plain (s.admittedState i page Reg.PAGE_CTL) page hbay (by rw [hstate']; decide)
  refine ⟨_, exec_ctl_makes (change := 2) (page_plain hk hplain) he hq (by simp [hq1]) h (by simp [State.ctlAllowed, hstate]), ?_⟩
  rw [hmake, State.pageState_lastStatus, State.epoch_lastStatus, State.fld_lastStatus _ _ _ _ _ (regKey_ne_of_offset (by decide)),
    hready, hctl, hepoch, State.epoch_admittedState]
  refine ⟨rfl, rfl, rfl, ?_⟩
  rw [State.quiesceClear, if_neg hbay]
  simp [apply_ite State.mem]

theorem exec_enableClear_ends (h : Admitted s i page Reg.PAGE_CTL (ctlWord (s.epoch page) 0 q 0)) (he1 : e = 1)
    (hstate : s.pageState page = PS.quiesced) :
    ∃ t, exec (.enableClear i page (s.epoch page)) s = .next t ∧ t.pageState page = PS.off ∧
      t.fld page Reg.PAGE_CTL 0 0 = 0 ∧ t.mem = s.mem ∧ (bit (s.reg page Reg.PAGE_CAP) 0 = true → page ∈ t.unpowered) := by
  have hmake : (s.admittedState i page Reg.PAGE_CTL).ctlMake page 1 = (s.admittedState i page Reg.PAGE_CTL).pageOff page :=
    if_neg (by rw [State.pageState_admittedState, hstate]; decide)
  refine ⟨_, exec_ctl_makes (change := 1) (page_plain hk hplain) he hq (by simp [he1]) h (by simp [State.ctlAllowed, hstate]), ?_⟩
  rw [hmake, State.pageOff_plain _ _ (pageKind_plain hk hplain (by decide)) (pageKind_plain hk hplain (by decide)),
    State.reg_admittedState, State.pageState_lastStatus, State.fld_lastStatus _ _ _ _ _ (regKey_ne_of_offset (by decide)),
    State.pageState, State.lastStatus_mem]
  have hoff (u : State) : (u.setFld page Reg.PAGE_STATE 3 0 PS.off).fld page Reg.PAGE_STATE 3 0 = PS.off :=
    State.fld_setFld_same _ _ _ _ (by decide)
  have hctl (u : State) : ((u.setFld page Reg.PAGE_CTL 0 0 0).setFld page Reg.PAGE_STATE 3 0 PS.off).fld page Reg.PAGE_CTL 0 0 = 0 :=
    (State.fld_setFld_key _ _ _ _ _ _ _ _ (regKey_ne_of_offset (by decide))).trans (State.fld_setFld_same _ _ _ _ (by decide))
  split
  · rw [State.fld_cutPower, State.fld_cutPower, State.cutPower_mem]
    exact ⟨hoff _, hctl _, by simp, fun _ => mem_setInsert ..⟩
  · exact ⟨hoff _, hctl _, by simp, fun hcap => absurd hcap ‹_›⟩

theorem exec_enableSet_resets (h : Admitted s i page Reg.PAGE_CTL (ctlWord (s.epoch page) 1 q 0)) (he0 : e = 0)
    (hstate : s.pageState page = PS.off) :
    ∃ t, exec (.enableSet i page (s.epoch page)) s = .next t ∧ t.pageState page = PS.init ∧ page ∉ t.unpowered := by
  have hmake : (s.admittedState i page Reg.PAGE_CTL).ctlMake page 1 = (s.admittedState i page Reg.PAGE_CTL).resetPage page :=
    if_pos ((State.pageState_admittedState ..).trans hstate)
  refine ⟨_, exec_ctl_makes (change := 1) (page_plain hk hplain) he hq (by simp [he0]) h (by simp [State.ctlAllowed, hstate]), ?_⟩
  rw [hmake, State.pageState_lastStatus]
  exact State.resetPage_ends _ _

theorem exec_resetReq_resets (h : Admitted s i page Reg.PAGE_CTL (ctlWord (s.epoch page) e q 4))
    (hstate : s.pageState page = PS.quiesced ∨ s.pageState page = PS.faulted) (hcap : bit (s.reg page Reg.PAGE_CAP) 2 = true) :
    ∃ t, exec (.resetReq i page (s.epoch page)) s = .next t ∧ t.pageState page = PS.init ∧ page ∉ t.unpowered := by
  refine ⟨_, exec_ctl_makes (change := 3) (page_plain hk hplain) he hq (by simp) h (by simp [State.ctlAllowed, hstate, hcap]), ?_⟩
  rw [State.pageState_lastStatus]
  exact State.resetPage_ends _ _

theorem exec_updateReq_updates (h : Admitted s i page Reg.PAGE_CTL (ctlWord (s.epoch page) e q 8))
    (hstate : s.pageState page = PS.quiesced) (hcap : bit (s.reg page Reg.PAGE_CAP) 3 = true) :
    ∃ t, exec (.updateReq i page (s.epoch page)) s = .next t ∧ t.pageState page = PS.updating ∧ t.mem = s.mem := by
  refine ⟨_, exec_ctl_makes (change := 4) (page_plain hk hplain) he hq (by simp) h (by simp [State.ctlAllowed, hstate, hcap]), ?_⟩
  rw [State.pageState_lastStatus]
  exact ⟨State.pageState_enterState .., by simp [State.ctlMake]⟩

theorem exec_cntClear_clears (h : Admitted s i page Reg.PAGE_CTL (ctlWord (s.epoch page) e q 16)) :
    ∃ t, exec (.cntClear i page (s.epoch page)) s = .next t ∧ t.mem = s.mem ∧ t.pageState page = s.pageState page ∧
      ∀ j, j < 16 → t.reg page (Reg.CNT + 8 * j) = resetValue page (Reg.CNT + 8 * j) := by
  have hchange : (s.admittedState i page Reg.PAGE_CTL).ctlChange page (ctlWord (s.epoch page) e q 16) = 0 := by
    rw [State.ctlChange_ctlWord _ _ _ _ _ _ (by decide) (by decide), State.fld_admittedState, State.fld_admittedState, ← he, ← hq]
    simp only [bne_self_eq_false]
    rfl
  have hepoch : bits (ctlWord (s.epoch page) e q 16) 63 48 = s.epoch page := bits_ctlWord _ _ _ (by decide) (bits_lt ..)
  have hclear : bit (ctlWord (s.epoch page) e q 16) 4 = true := by rw [bit_ctlWord _ _ _ _ (by decide)]; rfl
  have hexec : exec (.cntClear i page (s.epoch page)) s =
      .next (((s.admittedState i page Reg.PAGE_CTL).cntClear page).lastStatus page St.ok) := by
    refine congrArg Host.Outcome.next (Eq.trans (b := s.writeVia i page Reg.PAGE_CTL (ctlWord (s.epoch page) e q 16)
      (pageCtlEff page (ctlWord (s.epoch page) e q 16))) ?_ ?_)
    · subst he hq
      exact if_neg (page_plain hk hplain)
    · rw [State.writeVia_admitted _ h, pageCtlEff]
      simp [hchange, hepoch, hclear, State.ctlAllowed, State.ctlMake]
  obtain ⟨hcnt, hkept⟩ := State.reg_cntClear (s.admittedState i page Reg.PAGE_CTL) page
  refine ⟨_, hexec, by simp, ?_, fun j hj => ?_⟩
  · rw [State.pageState_lastStatus, State.pageState, State.fld, hkept _ (by decide), State.reg_admittedState]
    rfl
  · rw [State.lastStatus, State.reg_setFld_other _ _ _ _ _ _ _ _ (regKey_ne_of_offset (by simp only [Reg.CNT, Reg.PAGE_STATE]; omega)), hcnt j hj]

end

/-! The ends of QUIESCING, UPDATING and INIT (R566, R567). -/

section
variable {s : State} {page : Nat}

theorem exec_quiesceDone (hstate : s.pageState page = PS.quiescing) (hwork : s.workLeft page = 0) :
    exec (.quiesceDone page) s = .next (s.quiesceEnd page) :=
  congrArg Host.Outcome.next (if_pos (by simp [hstate, hwork]))

/-- An event of a page leaves the page's state alone. -/
@[simp] theorem State.pageState_genEvent (s : State) (page p code part : Nat) (payload : Word) :
    (s.genEvent p code part payload).pageState page = s.pageState page :=
  congrArg (bits · 3 0) (s.reg_genEvent_other p code part payload (by simp only [regKey, Reg.PAGE_STATE, Reg.EV_STATUS]; omega))

/-- A page other than a bay's whose quiescing ends is QUIESCED. -/
theorem State.pageState_quiesceEnd (hbay : pageKind page ≠ some .cellarBay) : (s.quiesceEnd page).pageState page = PS.quiesced := by
  rw [State.quiesceEnd, if_neg hbay, State.pageState_genEvent]
  exact State.pageState_enterState ..

theorem exec_quiesceExpired {t0 : Nat} (hat : s.quiesceAt.find page = some t0) (hstate : s.pageState page = PS.quiescing)
    (hlate : t0 + s.quiesceLimit ≤ s.panelTime.toNat) (hbay : pageKind page ≠ some .cellarBay) :
    exec (.quiesceExpired page) s =
      .next (((s.endWork page).genEvent page 0x0101 0 (place 31 0 (s.workLeft page))).quiesceEnd page) := by
  have hgo : (decide (s.pageState page = PS.quiescing) && decide (t0 + s.quiesceLimit ≤ s.panelTime.toNat)) = true := by
    simp [hstate, hlate]
  show execQuiesceExpired page s = _
  simp only [execQuiesceExpired, hat]
  rw [if_pos hgo, if_neg hbay]

/-- The end of an update whose image was sound shows its version; any other leaves the version (R566). -/
theorem exec_updateDone {stack status version : Nat} (hstack : stack < 72) (hstate : s.pageState (Page.hubCtrl stack) = PS.updating) :
    (s.isWritten (Page.hubCtrl stack) 0x100 = true → exec (.updateDone stack St.ok version) s =
      .next ((((s.setReg (Page.hubCtrl stack) 0x108 (place 15 0 version)).markWritten (Page.hubCtrl stack) 0x108).lastStatus
        (Page.hubCtrl stack) St.ok).setFld (Page.hubCtrl stack) Reg.PAGE_STATE 3 0 PS.quiesced)) ∧
    (status = St.inputCorrupt ∨ status = St.versionMismatch → exec (.updateDone stack status version) s =
      .next ((s.lastStatus (Page.hubCtrl stack) status).setFld (Page.hubCtrl stack) Reg.PAGE_STATE 3 0 PS.quiesced)) := by
  have hgo : ¬ (72 ≤ stack ∨ s.pageState (Page.hubCtrl stack) ≠ PS.updating) := by simp [hstate]; omega
  constructor
  · intro hwritten
    show execUpdateDone stack St.ok version s = _
    rw [execUpdateDone, if_neg hgo]
    simp only [hwritten, if_true]
    have hsound : ¬ (St.ok = St.inputCorrupt ∨ St.ok = St.versionMismatch) := by decide
    rw [if_neg hsound, if_pos rfl, State.enterState_of_ne _ _ (by decide)]
  · intro hbad
    have hfail : status ≠ St.ok := by rcases hbad with rfl | rfl <;> decide
    show execUpdateDone stack status version s = _
    rw [execUpdateDone, if_neg hgo]
    dsimp only
    rw [if_pos hbad, if_neg hfail, State.enterState_of_ne _ _ (by decide)]

theorem exec_pageInitDone {width rate : Nat} (hstate : s.pageState page = PS.init) (hcool : s.tooHot page = false)
    (hreached : s.unreached page = false) (hbay : pageKind page ≠ some .cellarBay) :
    exec (.pageInitDone page width rate) s = .next (s.initEnd page) := by
  show execPageInitDone page width rate s = _
  rw [execPageInitDone, if_neg (by simp [hstate, hcool, hreached]), if_neg hbay]

/-- A bay that has been reset has trained its link, at the width and rate named (R312, R601). -/
theorem exec_pageInitDone_bay {b width rate : Nat} (hb : b < 16) (hstate : s.pageState (Page.bay b) = PS.init)
    (hcool : s.tooHot (Page.bay b) = false) (hreached : s.unreached (Page.bay b) = false) (hpower : s.bayStat b 1 1 = 1)
    (hdown : s.bayStat b 3 3 = 0) (hwidth : width ≠ 0) : exec (.pageInitDone (Page.bay b) width rate) s =
      .next ((((s.modBay b fun x => { x with rate := rate }).setBayStat b 3 3 1).setBayStat b 20 16 width).refreshBayRate b) := by
  have hpage : pageBay (Page.bay b) = b := by simp only [pageBay, Page.bay]; omega
  show execPageInitDone (Page.bay b) width rate s = _
  rw [execPageInitDone, if_neg (by simp [hstate, hcool, hreached]), if_pos (pageKind_bay hb)]
  simp only [hpage]
  rw [if_neg (by omega), if_neg (by omega), if_neg hwidth]

/-- A link's rate is no part of its bay's other fields. -/
theorem State.bayStat_refreshBayRate (s : State) (b hi lo : Nat) (hhi : hi < 64) (h : hi < 8 ∨ 11 < lo) :
    (s.refreshBayRate b).bayStat b hi lo = s.bayStat b hi lo := by
  rw [State.refreshBayRate]
  split
  · rfl
  · exact State.fld_setFld_other _ _ _ _ hhi h

theorem State.bay_refreshBayRate (s : State) (b c : Nat) : (s.refreshBayRate b).bay c = s.bay c := by
  rw [State.refreshBayRate]
  split <;> rfl

end

/-- What a plain write makes of its register (R3). -/
theorem State.reg_plainWrite_same (s : State) {page off : Nat} {k : PageKind} {r : RegSpec} (v : Word) (hpage : page ≠ 0x102)
    (hk : pageKind page = some k) (hr : findReg k off = some r) :
    (s.plainWrite page off v).reg page off = r.fields.foldl (writeField v) (s.reg page off) := by
  simp only [State.plainWrite, if_neg hpage, hk, hr]
  split <;> exact State.reg_setReg_same ..

/-! PAGE_LOCK (R614). -/

section
variable {s : State} {i : Ident} {page : Nat}

/-- The word of a lock that an identity holds. -/
def lockWord (i : Ident) : Word :=
  place 63 63 1 ||| place 55 48 (identType i) ||| place 47 32 (identIndex i) ||| place 10 8 (identVia i)

theorem State.holdsLock_setReg (s : State) (page : Nat) (hindex : identIndex i < 65536) :
    (s.setReg page Reg.PAGE_LOCK (lockWord i)).holdsLock i page = true := by
  have htype : identType i < 2 ^ (55 + 1 - 48) := by unfold identType; split <;> decide
  have hfields : bits (lockWord i) 63 63 = 1 ∧ bits (lockWord i) 55 48 = identType i ∧ bits (lockWord i) 47 32 = identIndex i := by
    simp (disch := decide) only [lockWord, bits_or, bits_place_same, bits_place_other, Nat.or_zero, Nat.zero_or]
    exact ⟨rfl, Nat.mod_eq_of_lt htype, Nat.mod_eq_of_lt hindex⟩
  rw [State.holdsLock, State.reg_setReg_same]
  exact decide_eq_true hfields

/-- A free lock is taken. -/
theorem pageLockEff_takes (h : bit (s.reg page Reg.PAGE_LOCK) 63 = false) : pageLockEff i page 1 s =
    { s.setReg page Reg.PAGE_LOCK (lockWord i) with lockAt := s.lockAt.set page s.panelTime.toNat } := by
  rw [pageLockEff, h]; rfl

/-- A held lock is not taken again. -/
theorem pageLockEff_held (h : bit (s.reg page Reg.PAGE_LOCK) 63 = true) : pageLockEff i page 1 s = s := by
  rw [pageLockEff, h]; rfl

/-- A held lock is freed by its holder and by management. -/
theorem pageLockEff_frees (h : bit (s.reg page Reg.PAGE_LOCK) 63 = true) (hmay : s.holdsLock i page = true ∨ i = .mgmt) :
    pageLockEff i page 2 s = s.setReg page Reg.PAGE_LOCK 0 := by
  have hmay' : (s.holdsLock i page || decide (i = .mgmt)) = true := by simpa using hmay
  rw [pageLockEff, h, hmay']; rfl

end

/-- Settles O47: each command's write is admitted, so that its effect on the page's registers is made. -/
theorem pagesComplete : Obligations.PagesComplete := by
  refine ⟨fun s i page change e q v c => exec_ctl_makes, ?_, ?_, ?_, ?_, ?_, ?_, ?_⟩
  · intro s i page e q k he hq hk hplain
    exact ⟨exec_quiesceReq_starts he hq hk hplain, exec_quiesceClear_ends he hq hk hplain, exec_enableClear_ends he hq hk hplain,
      exec_enableSet_resets he hq hk hplain, exec_resetReq_resets he hq hk hplain, exec_updateReq_updates he hq hk hplain,
      exec_cntClear_clears he hq hk hplain⟩
  · intro s page hstate hwork
    exact ⟨exec_quiesceDone hstate hwork, fun hbay => ⟨_, exec_quiesceDone hstate hwork, State.pageState_quiesceEnd hbay⟩⟩
  · intro s page t0 hat hstate hlate hbay
    exact ⟨_, exec_quiesceExpired hat hstate hlate hbay, State.pageState_quiesceEnd hbay⟩
  · intro s stack version hstack hstate
    refine ⟨fun hwritten => ⟨_, (exec_updateDone (status := St.inputCorrupt) hstack hstate).1 hwritten, ?_, ?_, ?_, rfl⟩, fun status hbad =>
      ⟨_, (exec_updateDone hstack hstate).2 hbad, ?_, ?_, ?_, rfl⟩⟩
    · exact State.fld_setFld_same _ _ _ _ (by decide)
    · rw [State.reg_setFld_other _ _ _ _ _ _ _ _ (regKey_ne_of_offset (by decide)), State.lastStatus,
        State.reg_setFld_other _ _ _ _ _ _ _ _ (regKey_ne_of_offset (by decide))]
      exact State.reg_setReg_same ..
    · rw [State.fld_setFld_other _ _ _ _ (by decide) (by decide)]
      exact State.fld_setFld_same _ _ _ _ (by decide)
    · exact State.fld_setFld_same _ _ _ _ (by decide)
    · rw [State.reg_setFld_other _ _ _ _ _ _ _ _ (regKey_ne_of_offset (by decide)), State.lastStatus,
        State.reg_setFld_other _ _ _ _ _ _ _ _ (regKey_ne_of_offset (by decide))]
    · rw [State.fld_setFld_other _ _ _ _ (by decide) (by decide)]
      refine (State.fld_setFld_same _ _ _ _ (by decide)).trans (Nat.mod_eq_of_lt ?_)
      rcases hbad with rfl | rfl <;> decide
  · intro s page width rate hstate hcool hreached
    refine ⟨fun hbay => ⟨_, exec_pageInitDone hstate hcool hreached hbay, ?_⟩, ?_⟩
    · rw [State.initEnd]
      exact State.pageState_enterState _ _ _
    · rintro b hb rfl hpower hdown hwidth
      refine ⟨_, exec_pageInitDone_bay hb hstate hcool hreached hpower hdown hwidth, ?_, ?_, ?_, ?_⟩
      · rw [State.bayStat_refreshBayRate _ _ _ _ (by decide) (by decide)]
        exact (State.fld_setFld_other _ _ _ _ (by decide) (by decide)).trans (State.fld_setFld_same _ _ _ _ (by decide))
      · rw [State.bayStat_refreshBayRate _ _ _ _ (by decide) (by decide)]
        exact State.fld_setFld_same _ _ _ _ (by decide)
      · rw [State.bay_refreshBayRate]
        exact congrArg Bay.rate (State.bay_modBay s b fun x => { x with rate := rate })
      · simp
  · intro s i page hpage hindex
    have acquires (h : Admitted s i page Reg.PAGE_LOCK 1) : exec (.pageLockAcquire i page) s =
        .next (pageLockEff i page 1 (s.admittedState i page Reg.PAGE_LOCK)) :=
      congrArg _ ((if_neg hpage).trans (State.writeVia_admitted _ h))
    refine ⟨fun h hfree => ⟨_, acquires h, ?_⟩, fun h hheld => ⟨_, acquires h, ?_⟩, fun h hheld hmay => ?_, fun hheld hlate => ?_⟩
    · rw [pageLockEff_takes (by simpa using hfree)]
      exact ⟨State.holdsLock_setReg _ _ hindex, (Map.get_set_same ..).trans (congrArg BitVec.toNat (State.reg_admittedState ..)),
        State.admittedState_mem ..⟩
    · rw [pageLockEff_held (by simpa using hheld)]
      exact ⟨State.reg_admittedState .., State.admittedState_mem ..⟩
    · have hexec : exec (.pageLockRelease i page) s = .next (pageLockEff i page 2 (s.admittedState i page Reg.PAGE_LOCK)) :=
        congrArg _ ((if_neg hpage).trans (State.writeVia_admitted _ h))
      have hmay' : (s.admittedState i page Reg.PAGE_LOCK).holdsLock i page = true ∨ i = .mgmt := by
        rwa [State.holdsLock, State.reg_admittedState]
      refine ⟨_, hexec, ?_⟩
      rw [pageLockEff_frees (by simpa using hheld) hmay']
      exact ⟨State.reg_setReg_same .., State.admittedState_mem ..⟩
    · exact congrArg Host.Outcome.next (if_pos (by simp [hheld, hlate]))
  · intro s i page off v hoff halign h
    have hexec : exec (.registerWrite i page off v) s = .next (regEffect i page off v (s.admittedState i page off)) :=
      congrArg _ ((if_pos ⟨rfl, halign, hoff⟩).trans (State.writeVia_admitted _ h))
    refine ⟨hexec, fun k r hk hfile hhead hr hplain => ?_⟩
    have heff : regEffect i page off v (s.admittedState i page off) = (s.admittedState i page off).plainWrite page off v := by
      simp only [List.mem_cons, List.not_mem_nil, or_false, not_or] at hplain
      obtain ⟨hctl, hforce, hlock⟩ := hplain
      unfold regEffect
      split
      next hnone => rw [hk] at hnone; cases hnone
      next => rfl
      next k' _ _ => rw [if_neg hctl, if_neg hforce, if_neg hlock, if_pos hhead]
    refine ⟨_, hexec, ?_⟩
    rw [heff]
    have hpage : page ≠ 0x102 := by rintro rfl; exact hfile (Option.some.inj hk).symm
    obtain ⟨l, w, hadm⟩ := s.admittedState_eq i page off
    refine ⟨?_, fun p o hkey => (State.reg_plainWrite_other _ v hkey).trans (State.reg_admittedState ..), ?_⟩
    · rw [State.reg_plainWrite_same _ v hpage hk hr, State.reg_admittedState]
    · obtain ⟨r', w', hwrite⟩ := State.plainWrite_eq (s.admittedState i page off) page off v
      rw [hwrite, hadm]

end Sys2Proof.Machine

/-!
The host's accesses (O37): register space, doorbells, interrupts, windows, and the ends of host reads and writes.
-/
namespace Sys2Proof.Machine

-- One proof at a time: each thread of Lean reserves a stack, and together they would pass the check's memory limit.
set_option Elab.async false

/-- A field of one bit that reads 1 is a bit that is set. -/
theorem State.bit_of_fld {s : State} {page off j : Nat} (h : s.fld page off j j = 1) : bit (s.reg page off) j = true := by
  rw [bit_eq_testBit_fld, h]; rfl

theorem State.not_bit_of_fld {s : State} {page off j : Nat} (h : s.fld page off j j = 0) : bit (s.reg page off) j = false := by
  rw [bit_eq_testBit_fld, h]; rfl

/-! Interrupts (R425). -/

section
variable {s : State} {fn entry : Nat}

/-- An interrupt of a function that may send it. -/
theorem State.msixSend_may (hlink : s.fld Page.hostPort 0x108 0 0 = 1) (hmaster : (s.hostFn fn).busMaster = true)
    (henable : (s.hostFn fn).msixEnable = true) : s.msixSend fn entry =
      if ((s.hostFn fn).table.get {} entry).masked then
        { s with hostFns := s.hostFns.set fn { s.hostFn fn with
          table := (s.hostFn fn).table.set entry { (s.hostFn fn).table.get {} entry with pend := true } } }
      else { s with out := ⟨.msix, fn, entry, ((s.hostFn fn).table.get {} entry).addr,
        ((s.hostFn fn).table.get {} entry).data, []⟩ :: s.out } := by
  rw [State.msixSend, if_neg (by omega), if_neg (by simp [hmaster, henable])]

/-- The state in which an entry of a function's MSI-X table has been changed. -/
def State.setMsix (s : State) (fn entry : Nat) (e : MsixEntry) : State :=
  { s with hostFns := s.hostFns.set fn { s.hostFn fn with table := (s.hostFn fn).table.set entry e } }

theorem State.hostFn_setMsix (s : State) (fn entry : Nat) (e : MsixEntry) :
    (s.setMsix fn entry e).hostFn fn = { s.hostFn fn with table := (s.hostFn fn).table.set entry e } := Map.get_set_same ..

@[simp] theorem State.entry_setMsix (s : State) (fn entry : Nat) (e : MsixEntry) :
    ((s.setMsix fn entry e).hostFn fn).table.get {} entry = e := by
  rw [State.hostFn_setMsix]
  exact Map.get_set_same ..

/-- Unmasking an entry whose interrupt is pending sends it. -/
theorem exec_msixUnmask_sends (hfn : fn < 65) (hentry : entry < 32) (hlink : s.fld Page.hostPort 0x108 0 0 = 1)
    (hmaster : (s.hostFn fn).busMaster = true) (henable : (s.hostFn fn).msixEnable = true)
    (hpend : ((s.hostFn fn).table.get {} entry).pend = true) :
    ∃ t, exec (.msixUnmask fn entry) s = .next t ∧ t.out = ⟨.msix, fn, entry, ((s.hostFn fn).table.get {} entry).addr,
      ((s.hostFn fn).table.get {} entry).data, []⟩ :: s.out ∧ ((t.hostFn fn).table.get {} entry).pend = false ∧
      ((t.hostFn fn).table.get {} entry).masked = false ∧ t.mem = s.mem := by
  let e := (s.hostFn fn).table.get {} entry
  let a := s.setMsix fn entry { e with masked := false }
  let b := a.setMsix fn entry { e with masked := false, pend := false }
  have ha : a.hostFn fn = { s.hostFn fn with table := (s.hostFn fn).table.set entry { e with masked := false } } :=
    State.hostFn_setMsix ..
  have hea : (a.hostFn fn).table.get {} entry = { e with masked := false } := State.entry_setMsix ..
  have hrelease : a.msixRelease fn entry = b.msixSend fn entry := by
    rw [State.msixRelease, hea]
    refine if_pos ?_
    simp only [ha, Bool.and_eq_true, decide_eq_true_eq, Bool.not_false]
    exact ⟨⟨⟨⟨hpend, trivial⟩, hmaster⟩, henable⟩, hlink⟩
  have hb : b.hostFn fn = { a.hostFn fn with table := (a.hostFn fn).table.set entry { e with masked := false, pend := false } } :=
    State.hostFn_setMsix ..
  have heb : (b.hostFn fn).table.get {} entry = { e with masked := false, pend := false } := State.entry_setMsix ..
  have hsend := State.msixSend_may (s := b) (fn := fn) (entry := entry) hlink (by rw [hb, ha]; exact hmaster)
    (by rw [hb, ha]; exact henable)
  rw [heb, if_neg (by simp)] at hsend
  have hexec : exec (.msixUnmask fn entry) s = .next (b.msixSend fn entry) := by
    show execMsixUnmask fn entry s = _
    rw [execMsixUnmask, Nat.mod_eq_of_lt hfn, Nat.mod_eq_of_lt hentry]
    exact congrArg _ hrelease
  refine ⟨_, hexec, ?_, ?_, ?_, ?_⟩ <;> rw [hsend]
  · rfl
  · exact congrArg MsixEntry.pend heb
  · exact congrArg MsixEntry.masked heb
  · rfl

end

/-! Windows (R431 to R434). -/

section
variable {s : State} {p slot : Nat}

/-- A write through a window into this module's memory (R431, R433). -/
theorem exec_windowWrite_own {r u : State} {o : Nat} {e : WinEntry} {bytes : List Byte} (hp : p < 64) (hslot : slot < 64)
    (ho : o < 0x400000) (hlen : bytes.length ≤ 4096) (hlink : s.fld Page.hostPort 0x108 0 0 = 1)
    (hwin : s.fld Page.hostPort 0x108 1 1 = 1) (hcount : slot < s.fld Page.hostPort 0x108 15 9)
    (hown : slot = s.fld Page.hostPort 0x108 8 3) (hready : s.pageState Page.hostPort = PS.ready)
    (hentry : (s.bumpUnits Page.hostPort 1 bytes.length 1024).winEntry p slot = (e, r)) (hsound : e.sound = true)
    (hwrite : r.remoteWrite p e.pasid (e.target + o) bytes = some (0, u)) :
    exec (.windowWrite p (slot * 0x400000 + o) bytes) s = .next u := by
  have hs : (slot * 0x400000 + o) / 0x400000 % 64 = slot := by omega
  have hoff : (slot * 0x400000 + o) % 0x400000 = o := by omega
  have hon : bit (s.reg Page.hostPort 0x108) 0 = true := State.bit_of_fld hlink
  have hwins : bit (s.reg Page.hostPort 0x108) 1 = true := State.bit_of_fld hwin
  show execWindowWrite p (slot * 0x400000 + o) bytes s = _
  rw [execWindowWrite, Nat.mod_eq_of_lt hp, hs, hoff]
  dsimp only
  rw [List.take_of_length_le hlen, hready, hon, hwins, if_neg (by decide), if_neg (by decide), if_neg (by
    simp only [ne_eq, not_true_eq_false, Bool.not_true, Bool.false_eq_true, false_or]; exact Nat.not_le.mpr hcount), hentry]
  dsimp only
  rw [hsound, if_neg (by decide), if_pos (show slot = bits (s.reg Page.hostPort 0x108) 8 3 from hown), hwrite]
  rfl

/-- The flush of the slot of this module ends at once (R434). -/
theorem exec_windowFlush_own (hp : p < 64) (hslot : slot < 64) (hlink : s.fld Page.hostPort 0x108 0 0 = 1)
    (hown : slot = s.fld Page.hostPort 0x108 8 3) : exec (.windowFlush p slot) s = .next (s.flushDone p slot) := by
  have hon : bit (s.reg Page.hostPort 0x108) 0 = true := State.bit_of_fld hlink
  show execWindowFlush p slot s = _
  rw [execWindowFlush, Nat.mod_eq_of_lt hp, Nat.mod_eq_of_lt hslot]
  dsimp only
  rw [hon, if_neg (by decide), if_pos (.inr (.inr hown))]

/-- RELOAD forgets the partition's window entries (R432). -/
theorem exec_winReload {i : Ident} {v : Word} (h : Admitted s i Page.hostPort Reg.WIN_CTL v) (hgo : bit v 0 = true) :
    ∃ t, exec (.winReload i v) s = .next t ∧ (∀ slot, slot < 64 → t.winCache.find (winKey (bits v 13 8) slot) = none) ∧
      t.mem = s.mem := by
  have hexec : exec (.winReload i v) s = .next (winCtlEff v (s.admittedState i Page.hostPort Reg.WIN_CTL)) :=
    congrArg Host.Outcome.next (State.writeVia_admitted _ h)
  refine ⟨_, hexec, ?_, by simp⟩
  intro slot hslot
  have gone : (winKey (bits v 13 8) slot / 64 == bits v 13 8) = true := by
    rw [beq_iff_eq, winKey]; omega
  rw [winCtlEff, if_pos hgo]
  dsimp only
  rw [Map.find_drop, if_pos gone]

end

/-! The ends of host reads and writes (R429, R435). -/

section
variable {s : State} {x y : Nat} {c : Cmd}

theorem exec_hostReadCompletion_ok {a : Nat} {bytes : List Byte} (hc : s.cmd x y = some c) (hread : (s.hostMove c).1 = true)
    (ha : s.peekTranslate c.part c.pasid (c.cs.getD 0 0 + c.progress) false = some a) :
    exec (.hostReadCompletion false x y 0 bytes) s = .next (s.writeBytes a (bytes.take (4096 - a % 4096))) := by
  refine congrArg Host.Outcome.next ?_
  simp only [State.hostReadEnd, hc, hread, ha]
  rfl

theorem exec_hostCompletionTimeout (hc : s.cmd x y = some c) (hread : (s.hostMove c).1 = true) :
    exec (.hostCompletionTimeout false x y) s = .next (s.finishCmd c St.timeout (leBytes 8 c.progress)) := by
  refine congrArg Host.Outcome.next ?_
  simp only [State.hostReadEnd, hc, hread]
  rfl

theorem exec_hostStall (hc : s.cmd x y = some c) (hwrite : (s.hostMove c).2 = true) (hlink : s.fld Page.hostPort 0x108 0 0 = 1) :
    exec (.hostStall x y) s = .next (((s.bump Page.hostPort 2).genEvent Page.hostPort 0x02A2 c.part
      (place 40 0 c.progress ||| place 52 41 c.jobTag)).finishCmd c St.hostPartial (leBytes 8 c.progress)) := by
  show execHostStall x y s = _
  simp only [execHostStall, hc, hwrite, hlink, decide_true, Bool.and_self, if_true]

end

/-- Settles O37: each access meets its checks, and each completion a command that waits for it. -/
theorem hostAccessesComplete : Obligations.HostAccessesComplete := by
  refine ⟨?_, ?_, ?_, fun s r u p slot o e bytes => exec_windowWrite_own, ?_, fun s i v => exec_winReload,
    fun s x y a c bytes => exec_hostReadCompletion_ok, fun s x y c => exec_hostCompletionTimeout, fun s q seq c => exec_hostStall⟩
  · intro s fn off v hfn hoff
    have hmay : ¬ (64 < fn ∨ 0x4000000 ≤ off) := by omega
    exact ⟨congrArg Host.Outcome.next (if_neg hmay), fun halign =>
      congrArg Host.Outcome.next ((if_neg hmay).trans (if_pos ⟨.inr rfl, by omega⟩))⟩
  · intro s fn q v hfn hq hbound hsize
    have htail : bits (place 11 0 (bits v 11 0)) 11 0 = bits v 11 0 := by
      rw [bits_place_same _ (by decide), Nat.mod_eq_of_lt (bits_lt ..)]
    have hexec : exec (.bar4Doorbell fn (16 * q) 8 true v) s = .next (s.setQfld q Q.tail 11 0 (bits v 11 0)) := by
      show execBar4Doorbell fn (16 * q) 8 true v s = _
      rw [execBar4Doorbell, if_neg (by omega), if_neg (by decide), if_pos (by omega), if_neg (by omega), if_pos (by omega),
        Nat.mul_div_cancel_left q (by decide), sqTailEff_moves hbound (by rwa [htail]), htail]
    refine ⟨_, hexec, ?_, rfl⟩
    rw [State.qreg_setQfld_same, bits_setBits_bits _ _ (by decide)]
  · intro s fn entry hfn hentry hlink hmaster henable
    have hexec : exec (.msixSend fn entry) s = .next (s.msixSend fn entry) := by
      show execMsixSend fn entry s = _
      rw [execMsixSend, Nat.mod_eq_of_lt hfn, Nat.mod_eq_of_lt hentry]
    have hsend := State.msixSend_may (entry := entry) hlink hmaster henable
    refine ⟨fun hopen => ⟨_, hexec, ?_⟩, fun hmasked => ⟨_, hexec, ?_⟩,
      fun hpend => exec_msixUnmask_sends hfn hentry hlink hmaster henable hpend⟩
    · rw [hsend, if_neg (by simp [hopen])]
      exact ⟨rfl, rfl⟩
    · rw [hsend, if_pos hmasked]
      exact ⟨congrArg MsixEntry.pend (s.entry_setMsix fn entry _), rfl⟩
  · intro s p slot hp hslot hlink hwin hcount hown
    exact ⟨_, exec_windowFlush_own hp hslot hlink hown, rfl, Map.get_drop_same _ _ _, rfl⟩

end Sys2Proof.Machine

/-!
The host link (O38): its coming up, Recovery and losses, a function's reset, ATTACH and DETACH.
-/
namespace Sys2Proof.Machine

-- One proof at a time: each thread of Lean reserves a stack, and together they would pass the check's memory limit.
set_option Elab.async false

/-! The link (R437, R438). -/

section
variable {s : State} {width rate vfs masters msix : Nat}

/-- The state in which the host's functions are as configuration space shows them (log row 36). -/
def State.withHostFns (s : State) (vfs : Nat) (fns : Map HostFn) : State := { s with numVfs := vfs, hostFns := fns }

@[simp] theorem State.fld_withHostFns (s : State) (vfs : Nat) (fns : Map HostFn) (p o hi lo : Nat) :
    (s.withHostFns vfs fns).fld p o hi lo = s.fld p o hi lo := rfl

/-- The state of a link that has come up, before the port is READY. -/
def State.hostLinked (s : State) (width rate vfs masters msix : Nat) : State :=
  (State.withHostFns (((s.setFld Page.hostPort 0x108 0 0 1).setFld Page.hostPort 0x108 23 19 width).setFld Page.hostPort 0x108
    18 16 rate) (min vfs 64) ((List.range 65).map fun f =>
      (f, { s.hostFn f with busMaster := masters.testBit f, msixEnable := msix.testBit f }))).setFld Page.hostPort Reg.VER_ACTIVE
    15 0 0

/-- The fields of a link that has come up. -/
theorem State.fld_hostLinked (s : State) (hwidth : width < 32) (hrate : rate < 8) :
    (s.hostLinked width rate vfs masters msix).fld Page.hostPort 0x108 0 0 = 1 ∧
    (s.hostLinked width rate vfs masters msix).fld Page.hostPort 0x108 23 19 = width ∧
    (s.hostLinked width rate vfs masters msix).fld Page.hostPort 0x108 18 16 = rate ∧
    (s.hostLinked width rate vfs masters msix).fld Page.hostPort Reg.VER_ACTIVE 15 0 = 0 ∧
    (∀ hi lo, (s.hostLinked width rate vfs masters msix).fld Page.hostPort Reg.PAGE_STATE hi lo =
      s.fld Page.hostPort Reg.PAGE_STATE hi lo) ∧
    (s.hostLinked width rate vfs masters msix).reg Page.hostPort Reg.EV_ENABLE = s.reg Page.hostPort Reg.EV_ENABLE := by
  have hstat (hi lo : Nat) : (s.hostLinked width rate vfs masters msix).fld Page.hostPort 0x108 hi lo =
      (((s.setFld Page.hostPort 0x108 0 0 1).setFld Page.hostPort 0x108 23 19 width).setFld Page.hostPort 0x108 18 16 rate).fld
        Page.hostPort 0x108 hi lo := by
    rw [State.hostLinked, State.fld_setFld_key _ _ _ _ _ _ _ _ (regKey_ne_of_offset (by decide)), State.fld_withHostFns]
  refine ⟨?_, ?_, ?_, State.fld_setFld_same _ _ _ _ (by decide), fun hi lo => ?_, ?_⟩
  · rw [hstat, State.fld_setFld_other _ _ _ _ (by decide) (by decide), State.fld_setFld_other _ _ _ _ (by decide) (by decide)]
    exact State.fld_setFld_same _ _ _ _ (by decide)
  · rw [hstat, State.fld_setFld_other _ _ _ _ (by decide) (by decide), State.fld_setFld_same _ _ _ _ (by decide)]
    exact Nat.mod_eq_of_lt hwidth
  · rw [hstat, State.fld_setFld_same _ _ _ _ (by decide)]
    exact Nat.mod_eq_of_lt hrate
  · rw [State.hostLinked, State.fld_setFld_key _ _ _ _ _ _ _ _ (regKey_ne_of_offset (by decide)), State.fld_withHostFns,
      State.fld_setFld_key _ _ _ _ _ _ _ _ (regKey_ne_of_offset (by decide)),
      State.fld_setFld_key _ _ _ _ _ _ _ _ (regKey_ne_of_offset (by decide)),
      State.fld_setFld_key _ _ _ _ _ _ _ _ (regKey_ne_of_offset (by decide))]
  · have key : ∀ o, o / 8 = 0x108 / 8 ∨ o / 8 = Reg.VER_ACTIVE / 8 → regKey Page.hostPort Reg.EV_ENABLE ≠ regKey Page.hostPort o :=
      fun o ho => regKey_ne_of_offset (by rcases ho with h | h <;> rw [h] <;> decide)
    rw [State.hostLinked, State.reg_setFld_other _ _ _ _ _ _ _ _ (key _ (by decide))]
    refine (State.reg_setFld_other _ _ _ _ _ _ _ _ (key _ (by decide))).trans ?_
    rw [State.reg_setFld_other _ _ _ _ _ _ _ _ (key _ (by decide)), State.reg_setFld_other _ _ _ _ _ _ _ _ (key _ (by decide))]

/-- The host port's status shows its epoch in bits 47 to 32 alone. -/
theorem State.fld_enterState_hostStat (s : State) (st : Nat) {hi : Nat} (hhi : hi < 32) (lo : Nat) :
    (s.enterState Page.hostPort st).fld Page.hostPort 0x108 hi lo = s.fld Page.hostPort 0x108 hi lo := by
  rw [State.enterState]
  extract_lets e s1
  rw [State.fld_setFld_key _ _ _ _ _ _ _ _ (regKey_ne_of_offset (by decide))]
  split
  · rw [if_pos rfl, State.fld_setFld_other _ _ _ _ (by omega) (.inl hhi),
      State.fld_setFld_key _ _ _ _ _ _ _ _ (regKey_ne_of_offset (by decide))]
  · rfl

theorem State.reg_enterState_other (s : State) (page st : Nat) {off : Nat} (h : off / 8 ≠ Reg.PAGE_STATE / 8)
    (hstat : off / 8 ≠ Reg.HOST_STAT / 8) : (s.enterState page st).reg page off = s.reg page off := by
  rw [State.enterState]
  extract_lets e s1
  rw [State.reg_setFld_other _ _ _ _ _ _ _ _ (regKey_ne_of_offset h)]
  split
  · split
    next hhost =>
      rw [hhost, State.reg_setFld_other _ _ _ _ _ _ _ _ (regKey_ne_of_offset hstat), ← hhost]
      exact State.reg_setFld_other _ _ _ _ _ _ _ _ (regKey_ne_of_offset h)
    · exact State.reg_setFld_other _ _ _ _ _ _ _ _ (regKey_ne_of_offset h)
  · rfl

theorem State.enterState_eq (s : State) (page st : Nat) : ∃ r, s.enterState page st = { s with regs := r } := by
  rw [State.enterState]
  split
  · split <;> exact ⟨_, rfl⟩
  · exact ⟨_, rfl⟩

/-- The state of a port that is READY on a link that has come up. -/
def State.hostReady (s : State) (width rate vfs masters msix : Nat) : State :=
  ((s.hostLinked width rate vfs masters msix).enterState Page.hostPort PS.init).enterState Page.hostPort PS.ready

theorem exec_hostLinkUp (hdown : s.fld Page.hostPort 0x108 0 0 = 0) (hq : s.pageState Page.hostPort ≠ PS.quiescing)
    (hq' : s.pageState Page.hostPort ≠ PS.quiesced) (hforming : s.group.forming = false) (hlinked : s.group.linked = true) :
    ∃ payload, exec (.hostLinkUp width rate vfs masters msix) s =
      .next ((s.hostReady width rate vfs masters msix).genEvent Page.hostPort 0x02A1 0 payload) := by
  have hgroup (payload : Word) : ((s.hostReady width rate vfs masters msix).genEvent Page.hostPort 0x02A1 0 payload).group =
      s.group := by
    obtain ⟨r, q, e, hev⟩ := (s.hostReady width rate vfs masters msix).genEvent_eq Page.hostPort 0x02A1 0 payload
    obtain ⟨r1, h1⟩ := (s.hostLinked width rate vfs masters msix).enterState_eq Page.hostPort PS.init
    obtain ⟨r2, h2⟩ := ((s.hostLinked width rate vfs masters msix).enterState Page.hostPort PS.init).enterState_eq
      Page.hostPort PS.ready
    rw [hev, State.hostReady, h2, h1]
    rfl
  have hup : ¬ (s.fld Page.hostPort 0x108 0 0 = 1 ∧ s.pageState Page.hostPort ≠ PS.faulted) := by omega
  refine ⟨place 15 0 ((s.hostReady width rate vfs masters msix).epoch Page.hostPort) ||| place 20 16 width ||| place 23 21 rate, ?_⟩
  show execHostLinkUp width rate vfs masters msix s = _
  rw [execHostLinkUp, if_neg hup]
  dsimp only
  rw [if_neg (show ¬ (s.pageState Page.hostPort = PS.quiescing ∨ s.pageState Page.hostPort = PS.quiesced) by simp [hq, hq'])]
  refine congrArg Host.Outcome.next ((if_neg ?_).trans (if_pos ?_))
  · exact ne_true_of_eq_false ((congrArg GroupForm.forming (hgroup _)).trans hforming)
  · exact (congrArg GroupForm.linked (hgroup _)).trans hlinked

end

/-! What a function's reset and a host loss drop (R439, R441). -/

section
variable {s : State} {p : Nat}

/-- Where no command has an access to lose and no queue is bound to the functions concerned, only what the port holds for them is
dropped. -/
theorem State.dropHost_idle {mine fns : Nat → Bool} (hcmds : s.cmds = [])
    (hqueues : ∀ q, q < 1024 → bit (s.qreg q Q.bind) 63 = true → bits (s.qreg q Q.bind) 59 56 = Q.hostVf →
      mine (bits (s.qreg q Q.bind) 43 32) = false) :
    s.dropHost mine fns = { s with
      atc := s.atc.filter fun e => !fns e.fn
      atsReqs := s.atsReqs.filter fun e => !fns e.fn
      winFlush := s.winFlush.filter fun k => !mine (k / 64) } := by
  have moves (u : State) (hu : u.cmds = []) : u.loseMoves mine = u := by
    rw [State.loseMoves, hu]; rfl
  have queues (u : State) (hu : ∀ q, u.qreg q Q.bind = s.qreg q Q.bind) : ((List.range 1024).filter fun q =>
      bit (u.qreg q Q.bind) 63 && decide (bits (u.qreg q Q.bind) 59 56 = Q.hostVf) && mine (bits (u.qreg q Q.bind) 43 32)) = [] := by
    refine List.filter_eq_nil_iff.mpr fun q hq h => ?_
    rw [hu] at h
    simp only [Bool.and_eq_true, decide_eq_true_eq] at h
    exact absurd h.2 (ne_true_of_eq_false (hqueues q (List.mem_range.mp hq) h.1.1 h.1.2))
  unfold State.dropHost
  extract_lets s1 s2 qs
  have hs2 : s2 = s1 := moves s1 hcmds
  have hqs : qs = [] := queues s2 fun q => by rw [hs2]; rfl
  rw [hqs, hs2]
  rfl

/-- Releasing locks changes registers only. -/
theorem State.releaseLocks_eq (s : State) (c : State → Nat → Prop) [∀ t g, Decidable (c t g)] (l : List Nat) :
    ∃ r, l.foldl (fun t g => if c t g then t.releaseLock g else t) s = { s with regs := r } := by
  refine foldl_inv (P := fun t : State => ∃ r, t = { s with regs := r }) l (fun t g h => ?_) ⟨s.regs, rfl⟩
  obtain ⟨r, rfl⟩ := h
  split
  · exact ⟨_, rfl⟩
  · exact ⟨r, rfl⟩

/-- A Function Level Reset drops what the function held (R441). -/
theorem exec_vfFlr (hp : p < 64) (hcmds : s.cmds = []) (hqueues : ∀ q, q < 1024 → bit (s.qreg q Q.bind) 63 = true →
      bits (s.qreg q Q.bind) 59 56 = Q.hostVf → bits (s.qreg q Q.bind) 43 32 ≠ p) : ∃ r, exec (.vfFlr p) s = .next { s with
    regs := r
    hostFns := s.hostFns.drop fun k => k == p + 1
    atc := s.atc.filter fun e => !(e.fn == p + 1)
    atsReqs := s.atsReqs.filter fun e => !(e.fn == p + 1)
    winFlush := s.winFlush.filter fun k => !(k / 64 == p) } := by
  show ∃ r, execVfFlr p s = _
  have hdrop := State.dropHost_idle (mine := fun x => x == p) (fns := fun f => f == p + 1) hcmds fun q hq h h' =>
    beq_false_of_ne (hqueues q hq h h')
  rw [execVfFlr, Nat.mod_eq_of_lt hp]
  dsimp only
  rw [hdrop]
  let u : State := { s with
    hostFns := s.hostFns.drop fun k => k == p + 1
    atc := s.atc.filter fun e => !(e.fn == p + 1)
    atsReqs := s.atsReqs.filter fun e => !(e.fn == p + 1)
    winFlush := s.winFlush.filter fun k => !(k / 64 == p) }
  obtain ⟨r, hr⟩ := State.releaseLocks_eq u
    (fun s g => s.fld g Reg.PAGE_LOCK 10 8 = 1 ∧ s.fld g Reg.PAGE_LOCK 47 32 = p ∧ s.fld g Reg.PAGE_LOCK 55 48 = 0) u.lockedPages
  exact ⟨r, congrArg Host.Outcome.next hr⟩

end

/-! ATTACH and DETACH (R442 to R445). -/

section
variable {s : State} {v : Word}

theorem bit_setBit_other (v : Word) {i j : Nat} (b : Bool) (hj : j < 64) (h : j ≠ i) : bit (setBit v i b) j = bit v j := by
  rw [setBit, bit_setBits _ _ hj, if_neg (by omega)]

theorem bit_setBit_eq (v : Word) {i : Nat} (b : Bool) (h : i < 64) : bit (setBit v i b) i = b := by
  rw [setBit, bit_setBits _ _ h, if_pos (by omega)]
  cases b <;> simp

theorem bits_setBit_other (v : Word) {i hi lo : Nat} (b : Bool) (h : hi < 64) (hd : hi < i ∨ i < lo) :
    bits (setBit v i b) hi lo = bits v hi lo := bits_setBits_other v _ h hd

/-- A write of HOST_ATTACH reaches no other register of the port. -/
theorem State.fld_storeAttach (s : State) (v : Word) {off : Nat} (hi lo : Nat) (h : off / 8 ≠ Reg.HOST_ATTACH / 8) :
    (s.storeWrite Page.hostPort Reg.HOST_ATTACH v).fld Page.hostPort off hi lo = s.fld Page.hostPort off hi lo :=
  s.fld_storeWrite_other v hi lo (regKey_ne_of_offset h)

theorem State.hostQueues_storeAttach (s : State) (v : Word) :
    (s.storeWrite Page.hostPort Reg.HOST_ATTACH v).hostQueues = s.hostQueues := by
  have hreg (q : Nat) : q < 1024 → (s.storeWrite Page.hostPort Reg.HOST_ATTACH v).qreg q Q.bind = s.qreg q Q.bind := fun hq =>
    s.reg_storeWrite_other v (regKey_ne_of_page (by simp only [Page.queueBlock, Page.hostPort]; omega)
      (by simp only [qOff, Q.bind]; omega) (by decide))
  unfold State.hostQueues
  refine List.filter_congr fun q hq => ?_
  rw [State.queuePort, hreg q (List.mem_range.mp hq), State.queuePort]

theorem State.hostVersion_storeAttach (s : State) (v : Word) :
    (s.storeWrite Page.hostPort Reg.HOST_ATTACH v).hostVersion = s.hostVersion := by
  obtain ⟨r, w, h⟩ := s.storeWrite_eq Page.hostPort Reg.HOST_ATTACH v
  have hvfs : (s.storeWrite Page.hostPort Reg.HOST_ATTACH v).numVfs = s.numVfs := by rw [h]
  have hreq : (s.storeWrite Page.hostPort Reg.HOST_ATTACH v).reg Page.hostPort Reg.HOST_PROTO_REQ =
      s.reg Page.hostPort Reg.HOST_PROTO_REQ := s.reg_storeWrite_other v (regKey_ne_of_offset (by decide))
  unfold State.hostVersion
  simp only [hreq, hvfs, s.fld_storeAttach v 15 9 (off := 0x108) (by decide)]

/-- A protocol fits its field. -/
theorem State.hostVersion_lt (s : State) : s.hostVersion < 2 ^ 16 := by
  unfold State.hostVersion
  extract_lets r
  refine List.foldlRecOn (motive := fun b : Nat => b < 2 ^ 16) _ _ (by decide) fun b hb x hx => ?_
  have hx' : x < 2 ^ 16 := by
    simp only [List.mem_cons, List.not_mem_nil, or_false] at hx
    omega
  have pick (c : Bool) : (if c then x else b) < 2 ^ 16 := by
    cases c
    · exact hb
    · exact hx'
  exact pick _

/-- ATTACH with the current epoch and no queue bound to the host activates the version agreed on (R443). -/
theorem hostAttachEff_attaches (hattach : bit v 16 = true) (hdetach : bit v 17 = false)
    (hepoch : bits v 15 0 = s.fld Page.hostPort Reg.HOST_STAT 47 32) (hqueues : s.hostQueues = []) (hversion : s.hostVersion ≠ 0) :
    hostAttachEff v s = ((s.storeWrite Page.hostPort Reg.HOST_ATTACH v).setFld Page.hostPort Reg.VER_ACTIVE 15 0
      s.hostVersion).setFld Page.hostPort Reg.HOST_STAT 31 24 St.ok := by
  have hfresh : decide (bits v 15 0 ≠ (s.storeWrite Page.hostPort Reg.HOST_ATTACH v).fld Page.hostPort Reg.HOST_STAT 47 32) =
      false := by
    rw [s.fld_storeAttach v 47 32 (by decide)]; simp [hepoch]
  unfold hostAttachEff
  simp only [hattach, hdetach, hfresh, State.hostQueues_storeAttach, hqueues, State.hostVersion_storeAttach, List.any_nil,
    Bool.not_true, Bool.not_false, Bool.false_eq_true, if_false, if_true, if_neg hversion]

/-- DETACH with the current epoch and no queue bound to the host ends the protocol (R444). -/
theorem hostAttachEff_detaches (hattach : bit v 16 = false) (hdetach : bit v 17 = true)
    (hepoch : bits v 15 0 = s.fld Page.hostPort Reg.HOST_STAT 47 32) (hqueues : s.hostQueues = []) :
    hostAttachEff v s = ((s.storeWrite Page.hostPort Reg.HOST_ATTACH v).setFld Page.hostPort Reg.VER_ACTIVE 15 0
      0).setFld Page.hostPort Reg.HOST_STAT 31 24 St.ok := by
  have hfresh : decide (bits v 15 0 ≠ (s.storeWrite Page.hostPort Reg.HOST_ATTACH v).fld Page.hostPort Reg.HOST_STAT 47 32) =
      false := by
    rw [s.fld_storeAttach v 47 32 (by decide)]; simp [hepoch]
  unfold hostAttachEff
  simp only [hattach, hdetach, hfresh, State.hostQueues_storeAttach, hqueues, List.foldl_nil,
    Bool.not_true, Bool.not_false, Bool.false_eq_true, if_false, if_true]

/-- VER_ACTIVE and the status of HOST_STAT as ATTACH and DETACH leave them. -/
theorem State.fld_attachDone (s : State) {version : Nat} (h : version < 2 ^ 16) :
    ((s.setFld Page.hostPort Reg.VER_ACTIVE 15 0 version).setFld Page.hostPort Reg.HOST_STAT 31 24 St.ok).fld Page.hostPort
      Reg.VER_ACTIVE 15 0 = version ∧
    ((s.setFld Page.hostPort Reg.VER_ACTIVE 15 0 version).setFld Page.hostPort Reg.HOST_STAT 31 24 St.ok).fld Page.hostPort
      Reg.HOST_STAT 31 24 = 0 := by
  constructor
  · rw [State.fld_setFld_key _ _ _ _ _ _ _ _ (regKey_ne_of_offset (by decide)), State.fld_setFld_same _ _ _ _ (by decide)]
    exact Nat.mod_eq_of_lt h
  · exact State.fld_setFld_same _ _ _ _ (by decide)

end

/-- Settles O38: each condition leaves one branch of the command. -/
theorem hostLinkCompletes : Obligations.HostLinkCompletes := by
  refine ⟨?_, ?_, ?_, ?_, ?_, ?_, ?_⟩
  · intro s width rate vfs masters msix hwidth hrate hdown hq hq' hforming hlinked
    obtain ⟨payload, hexec⟩ := exec_hostLinkUp (width := width) (rate := rate) (vfs := vfs) (masters := masters) (msix := msix)
      hdown hq hq' hforming hlinked
    obtain ⟨hlink, hw, hr, hver, hstate, henable⟩ :=
      s.fld_hostLinked (vfs := vfs) (masters := masters) (msix := msix) hwidth hrate
    obtain ⟨r1, h1⟩ := (s.hostLinked width rate vfs masters msix).enterState_eq Page.hostPort PS.init
    obtain ⟨r2, h2⟩ := ((s.hostLinked width rate vfs masters msix).enterState Page.hostPort PS.init).enterState_eq
      Page.hostPort PS.ready
    have hevent (off hi lo : Nat) (h : off / 8 ≠ Reg.EV_STATUS / 8) :
        ((s.hostReady width rate vfs masters msix).genEvent Page.hostPort 0x02A1 0 payload).fld Page.hostPort off hi lo =
          (s.hostReady width rate vfs masters msix).fld Page.hostPort off hi lo :=
      congrArg (bits · hi lo) (State.reg_genEvent_other _ _ _ _ _ (regKey_ne_of_offset h))
    have hfields (r : State) : r = s.hostReady width rate vfs masters msix → r.numVfs = min vfs 64 ∧ r.events = s.events ∧ r.mem = s.mem := by
      rintro rfl
      rw [State.hostReady, h2, h1]
      exact ⟨rfl, rfl, rfl⟩
    obtain ⟨hvfs, hevents, hmem⟩ := hfields _ rfl
    refine ⟨_, hexec, ?_, ?_, ?_, ?_, ?_, ?_, ?_, ?_, ?_⟩
    · rw [hevent _ _ _ (by decide), State.hostReady, State.fld_enterState_hostStat _ _ (by decide),
        State.fld_enterState_hostStat _ _ (by decide), hlink]
    · rw [hevent _ _ _ (by decide), State.hostReady, State.fld_enterState_hostStat _ _ (by decide),
        State.fld_enterState_hostStat _ _ (by decide), hw]
    · rw [hevent _ _ _ (by decide), State.hostReady, State.fld_enterState_hostStat _ _ (by decide),
        State.fld_enterState_hostStat _ _ (by decide), hr]
    · obtain ⟨r, q, e, hev⟩ := (s.hostReady width rate vfs masters msix).genEvent_eq Page.hostPort 0x02A1 0 payload
      rw [hev]
      exact hvfs
    · rw [State.pageState_genEvent]
      exact State.pageState_enterState ..
    · rw [State.epoch, hevent _ _ _ (by decide), ← State.epoch, State.hostReady,
        State.epoch_enterState_ready _ _ (by rw [State.pageState_enterState]; decide), State.enterState_of_ne _ _ (by decide), State.epoch,
        State.fld_setFld_other _ _ _ _ (by decide) (by decide), hstate, ← State.epoch]
    · rw [hevent _ _ _ (by decide), State.hostReady, State.fld_enterState_other _ _ _ _ _ (by decide) (by decide),
        State.fld_enterState_other _ _ _ _ _ (by decide) (by decide), hver]
    · refine State.posts_genEvent 0 payload hevents ?_
      rw [State.hostReady, State.reg_enterState_other _ _ _ (by decide) (by decide),
        State.reg_enterState_other _ _ _ (by decide) (by decide), henable]
    · rw [State.genEvent_mem, hmem]
  · intro s hup
    exact ⟨_, congrArg Host.Outcome.next (if_pos hup), State.reg_setReg_same .., rfl⟩
  · intro s cause hp7 hlow hhigh hup
    exact congrArg Host.Outcome.next (if_neg (by simp [hp7, hup]; omega))
  · intro s cause n strap hp7 hlow hhigh hn
    exact ⟨congrArg Host.Outcome.next (if_pos (by simp [hp7, hlow, hhigh])),
      congrArg Host.Outcome.next (if_pos (by simp [hp7, hn]))⟩
  · intro s p hp hcmds hqueues
    obtain ⟨r, hexec⟩ := exec_vfFlr hp hcmds hqueues
    refine ⟨_, hexec, ?_, ?_, ?_, ?_, rfl⟩
    · exact (Map.find_drop s.hostFns (fun k => k == p + 1) (p + 1)).trans (if_pos (beq_self_eq_true _))
    · intro e he; simpa using (List.mem_filter.mp he).2
    · intro e he; simpa using (List.mem_filter.mp he).2
    · intro k hk; simpa using (List.mem_filter.mp hk).2
  · intro s i v h hdetach hepoch hqueues hversion
    have hexec : exec (.hostAttach i v) s = .next (hostAttachEff (setBit v 16 true) (s.admittedState i Page.hostPort Reg.HOST_ATTACH)) :=
      congrArg Host.Outcome.next (State.writeVia_admitted _ h)
    obtain ⟨l, w, hadm⟩ := s.admittedState_eq i Page.hostPort Reg.HOST_ATTACH
    rw [hadm] at hexec
    have heff := hostAttachEff_attaches (s := { s with lockAt := l, written := w }) (v := setBit v 16 true)
      (bit_setBit_eq v true (by decide)) (by rw [bit_setBit_other _ _ (by decide) (by decide), hdetach])
      (by rw [bits_setBit_other _ _ (by decide) (by decide)]; exact hepoch) hqueues hversion
    obtain ⟨hver, hstat⟩ := State.fld_attachDone (State.storeWrite { s with lockAt := l, written := w } Page.hostPort Reg.HOST_ATTACH
      (setBit v 16 true)) s.hostVersion_lt
    refine ⟨_, hexec, ?_⟩
    rw [heff]
    exact ⟨hver, hstat, by simp⟩
  · intro s i v h hepoch hqueues
    have hexec : exec (.hostDetach i v) s =
        .next (hostAttachEff (setBit (setBit v 16 false) 17 true) (s.admittedState i Page.hostPort Reg.HOST_ATTACH)) :=
      congrArg Host.Outcome.next (State.writeVia_admitted _ h)
    obtain ⟨l, w, hadm⟩ := s.admittedState_eq i Page.hostPort Reg.HOST_ATTACH
    rw [hadm] at hexec
    have heff := hostAttachEff_detaches (s := { s with lockAt := l, written := w }) (v := setBit (setBit v 16 false) 17 true)
      (by rw [bit_setBit_other _ _ (by decide) (by decide), bit_setBit_eq _ _ (by decide)]) (bit_setBit_eq _ true (by decide))
      (by rw [bits_setBit_other _ _ (by decide) (by decide), bits_setBit_other _ _ (by decide) (by decide)]; exact hepoch) hqueues
    obtain ⟨hver, hstat⟩ := State.fld_attachDone (State.storeWrite { s with lockAt := l, written := w } Page.hostPort Reg.HOST_ATTACH
      (setBit (setBit v 16 false) 17 true)) (version := 0) (by decide)
    refine ⟨_, hexec, ?_⟩
    rw [heff]
    exact ⟨hver, hstat, by simp⟩

end Sys2Proof.Machine

/-!
Fabric ports (O39): flits and their acknowledgement, the loss of a link, bring-up, cables, and MODULE_CFG.
-/
namespace Sys2Proof.Machine

-- One proof at a time: each thread of Lean reserves a stack, and together they would pass the check's memory limit.
set_option Elab.async false

/-! The link layer of a port and the state of its link. -/

section
variable (s : State) (f : Nat)

@[simp] theorem State.fabPort_modFabPort (g : FabPort → FabPort) : (s.modFabPort f g).fabPort f = g (s.fabPort f) :=
  Map.get_set_same ..

@[simp] theorem State.fabPort_setFld (page off hi lo n : Nat) : (s.setFld page off hi lo n).fabPort f = s.fabPort f := rfl

@[simp] theorem State.lstate_modFabPort (g : FabPort → FabPort) : (s.modFabPort f g).lstate f = s.lstate f := rfl

@[simp] theorem State.lstate_setLstate (n : Nat) : (s.setLstate f n).lstate f = n % 8 :=
  State.fld_setFld_same _ _ _ _ (by decide)

/-- A counter of a port's page is no part of its link's state. -/
theorem State.lstate_bump {i : Nat} (n : Nat) (hi : i < 16) : (s.bump (Page.fabricPort f) i n).lstate f = s.lstate f :=
  congrArg (bits · 2 0) (State.reg_bump_other _ _ _ _ (regKey_ne_of_offset (by simp only [Reg.CNT]; omega)))

theorem State.lstate_bumpUnits {i : Nat} (n unit : Nat) (hi : i < 16) :
    (s.bumpUnits (Page.fabricPort f) i n unit).lstate f = s.lstate f :=
  (State.lstate_bump { s with partial_ := _ } f _ hi :)

/-- An event of a port is no part of its link's state, and changes no port. -/
theorem State.lstate_genEvent (code part : Nat) (payload : Word) :
    (s.genEvent (Page.fabricPort f) code part payload).lstate f = s.lstate f :=
  congrArg (bits · 2 0) (s.reg_genEvent_other (Page.fabricPort f) code part payload (regKey_ne_of_offset (by decide)))

theorem State.fabPort_genEvent (page code part : Nat) (payload : Word) :
    (s.genEvent page code part payload).fabPort f = s.fabPort f := by
  obtain ⟨r, q, e, h⟩ := s.genEvent_eq page code part payload
  rw [h]; rfl

/-- A link that is cleared leaves the state of the port, its events and its EV_ENABLE alone. -/
theorem State.clearLink_keeps : (s.clearLink f).lstate f = s.lstate f ∧ (s.clearLink f).events = s.events ∧
    (s.clearLink f).reg (Page.fabricPort f) Reg.EV_ENABLE = s.reg (Page.fabricPort f) Reg.EV_ENABLE ∧
    (s.clearLink f).moduleId = s.moduleId ∧ (s.clearLink f).out = s.out ∧ ((s.clearLink f).fabPort f).replay = [] ∧
    (s.clearLink f).txChans = s.txChans := by
  have hport : Page.portDie 0 ≠ Page.fabricPort f := by simp only [Page.portDie, Page.fabricPort]; omega
  refine ⟨?_, rfl, ?_, ?_, rfl, ?_, rfl⟩
  · refine (congrArg (bits · 2 0) (State.reg_setReg_other _ _ _ _ _ _ (regKey_ne_of_offset (by decide)))).trans ?_
    exact State.fld_setFld_other (s.modFabPort f _) _ _ _ (by decide) (by decide)
  · refine (State.reg_setReg_other _ _ _ _ _ _ (regKey_ne_of_offset (by decide))).trans ?_
    exact State.reg_setFld_other (s.modFabPort f _) _ _ _ _ _ _ _ (regKey_ne_of_offset (by decide))
  · refine (congrArg (bits · 11 0) (State.reg_setReg_other _ _ _ _ _ _ (regKey_ne_of_page hport (by decide) (by decide)))).trans ?_
    exact congrArg (bits · 11 0) (State.reg_setFld_other (s.modFabPort f _) _ _ _ _ _ _ _
      (regKey_ne_of_page hport (by decide) (by decide)))
  · exact congrArg FabPort.replay (s.fabPort_modFabPort f fun x => { cable := x.cable, downAt := some s.panelTime.toNat })

end

/-! Flits (R450, R451). -/

section
variable {s : State} {f : Nat}

/-- A flit without payload carries 256 bytes, and what was to be acknowledged has been. -/
theorem State.nullFlit_sends (s : State) (f : Nat) (nak : Bool) : ∃ m, (s.nullFlit f nak).out = m :: s.out ∧ m.kind = .flit ∧
    m.src = f ∧ m.data.length = 256 ∧ ((s.nullFlit f nak).fabPort f).unackedRx = 0 := by
  refine ⟨_, rfl, rfl, rfl, ?_, ?_⟩
  · simp only [List.length_append, List.length_take, List.length_replicate, length_leBytes]; omega
  · exact congrArg FabPort.unackedRx (s.fabPort_modFabPort f FabPort.acked)

/-- A flit that acknowledges nothing and returns no credits changes nothing of the port. -/
theorem State.flitControl_plain {h : Word} (hack : bit h 28 = false) (hnak : bit h 29 = false) (hcredit : bits h 45 34 = 0) :
    s.flitControl f h = s.modFabPort f id := by
  simp only [State.flitControl, hack, hnak, hcredit, Bool.false_eq_true, if_false, if_true]
  rfl

/-- A port without waiting bytes sends none. -/
theorem State.pumpFlits_idle (hidle : (s.fabPort f).waiting = []) (vc n : Nat) : State.pumpFlits f vc n s = s := by
  cases n with
  | zero => rfl
  | succ n =>
    rw [State.pumpFlits]
    exact if_pos (.inl (by rw [hidle]; rfl))

theorem State.pumpAll_idle (hidle : (s.fabPort f).waiting = []) (l : List Nat) :
    l.foldl (fun s vc => s.pumpFlits f vc 8192) s = s :=
  foldl_inv (P := fun t => t = s) l (fun t vc h => by rw [h]; exact State.pumpFlits_idle hidle vc 8192) rfl

/-- A port that has counted a flit with payload of a virtual channel (R450, R451). -/
def FabPort.received (x : FabPort) (vc : Nat) : FabPort :=
  { x with rxNext := (x.rxNext + 1) % 16384, unackedRx := x.unackedRx + 1, owed := x.owed.set vc (x.owed.get 0 vc + 1) }

/-- A sound flit with payload that follows the last one is counted (R450, R451). -/
theorem exec_fabricFlitReceive {b : List Byte} {h : Word} (hf : f < 32) (hup : 3 ≤ s.lstate f) (hlen : b.length = 256)
    (hcrc : leAt b 248 8 = crc64 (b.take 248)) (hh : h = BitVec.ofNat 64 (leAt b 0 8)) (hack : bit h 28 = false)
    (hnak : bit h 29 = false) (hnull : bit h 30 = false) (hcredit : bits h 45 34 = 0) (hidle : (s.fabPort f).waiting = [])
    (hseq : bits h 13 0 = (s.fabPort f).rxNext) (hcount : (s.fabPort f).unackedRx < 255) :
    ∃ t, exec (.fabricFlitReceive f b 0 0) s = .next t ∧ t.fabPort f = (s.fabPort f).received (bits h 48 46) ∧ t.mem = s.mem := by
  let u := (((s.bumpUnits (Page.fabricPort f) 2 0 1024).bump (Page.fabricPort f) 3 0).modFabPort f id)
  have hu : u.fabPort f = s.fabPort f := State.fabPort_modFabPort ..
  have hlstate : ((s.bumpUnits (Page.fabricPort f) 2 0 1024).bump (Page.fabricPort f) 3 0).lstate f = s.lstate f :=
    (State.lstate_bump _ _ _ (by decide)).trans (State.lstate_bumpUnits _ _ _ _ (by decide))
  have hsound : ¬ (b.length ≠ 256 ∨ leAt b 248 8 ≠ crc64 (b.take 248)) := by
    rw [not_or, not_not, not_not]; exact ⟨hlen, hcrc⟩
  have hexec : exec (.fabricFlitReceive f b 0 0) s = .next (u.modFabPort f (·.received (bits h 48 46))) := by
    show execFabricFlitReceive f b 0 0 s = _
    rw [execFabricFlitReceive, Nat.mod_eq_of_lt hf]
    dsimp only
    rw [if_neg (Nat.not_lt.mpr hup), if_neg hsound, ← hh, State.flitControl_plain hack hnak hcredit,
      State.lstate_modFabPort, hlstate, if_neg (Nat.not_lt.mpr hup), State.pumpAll_idle (hu ▸ hidle), hnull,
      if_neg Bool.false_ne_true, hu, if_neg (not_not.mpr hseq), if_neg (by omega)]
    rfl
  exact ⟨_, hexec, (State.fabPort_modFabPort ..).trans (by rw [hu]), rfl⟩

end

/-! The loss of a link (R452, R453). -/

/-- A port without channels that goes down is DOWN with nothing to replay, and posts its event. -/
theorem State.portDown_alone {s : State} {f : Nat} (cause : Nat) (hup : s.lstate f ≠ 0)
    (halone : ∀ e ∈ s.txChans, e.2.bound = true → e.2.port ≠ f) : (s.portDown f cause).lstate f = 0 ∧
      ((s.portDown f cause).fabPort f).replay = [] ∧ Posts s (s.portDown f cause) (Page.fabricPort f) 0x02B0 ∧
      (s.portDown f cause).mem = s.mem := by
  have hnone (u : State) (hu : u.txChans = s.txChans) : u.portChannels f = [] := by
    unfold State.portChannels
    rw [hu, List.filter_eq_nil_iff.mpr, List.map_nil]
    intro e he h
    simp only [Bool.and_eq_true, decide_eq_true_eq] at h
    exact halone e he h.1 h.2
  have ends (a : State) (ha : a.txChans = s.txChans) :
      ((((a.clearLink f).setLstate f 0).genEvent (Page.fabricPort f) 0x02B0 0 (place 2 0 cause)).portChannels f).foldl State.failover
        (((a.clearLink f).setLstate f 0).genEvent (Page.fabricPort f) 0x02B0 0 (place 2 0 cause)) =
      ((a.clearLink f).setLstate f 0).genEvent (Page.fabricPort f) 0x02B0 0 (place 2 0 cause) := by
    obtain ⟨r, q, e, h⟩ := ((a.clearLink f).setLstate f 0).genEvent_eq (Page.fabricPort f) 0x02B0 0 (place 2 0 cause)
    have hchans : (((a.clearLink f).setLstate f 0).genEvent (Page.fabricPort f) 0x02B0 0 (place 2 0 cause)).txChans = s.txChans := by
      rw [h]; exact ha
    rw [hnone _ hchans, List.foldl_nil]
  have counted : ∃ a, (a = s ∨ a = s.bump (Page.fabricPort f) 7) ∧ s.portDown f cause =
      (((a.clearLink f).setLstate f 0).genEvent (Page.fabricPort f) 0x02B0 0 (place 2 0 cause)) := by
    rw [State.portDown, if_neg hup]
    dsimp only
    split
    · exact ⟨_, .inr rfl, ends _ rfl⟩
    · exact ⟨_, .inl rfl, ends _ rfl⟩
  obtain ⟨a, ha, hdown⟩ := counted
  obtain ⟨-, hevents, henable, -, -, hreplay, -⟩ := a.clearLink_keeps f
  have hsame : a.events = s.events ∧ a.reg (Page.fabricPort f) Reg.EV_ENABLE = s.reg (Page.fabricPort f) Reg.EV_ENABLE ∧
      a.mem = s.mem := by
    rcases ha with rfl | rfl
    · exact ⟨rfl, rfl, rfl⟩
    · exact ⟨rfl, State.reg_bump_other _ _ _ _ (regKey_ne_of_offset (by decide)), rfl⟩
  obtain ⟨hev, hen, hmem⟩ := hsame
  rw [hdown]
  refine ⟨?_, ?_, ?_, ?_⟩
  · rw [State.lstate_genEvent, State.lstate_setLstate]
  · rw [State.fabPort_genEvent, State.setLstate, State.fabPort_setFld, hreplay]
  · refine State.posts_genEvent 0 _ (hevents.trans hev) ?_
    rw [State.setLstate, State.reg_setFld_other _ _ _ _ _ _ _ _ (regKey_ne_of_offset (by decide)), henable, hen]
  · rw [State.genEvent_mem, State.setLstate_mem, State.clearLink_mem, hmem]

/-! Bring-up (R454 to R457, R602). -/

section
variable {s : State} {f : Nat}

theorem State.bringUp_may (hmay : s.mayBringUp f = true) : s.bringUp f = s.setLstate f 1 := if_pos hmay

/-- A bring-up changes at most the state of the port's link. -/
theorem State.bringUp_eq (s : State) (f : Nat) : s.bringUp f = s ∨ s.bringUp f = s.setLstate f 1 := by
  rw [State.bringUp]
  split
  · exact .inr rfl
  · exact .inl rfl

theorem State.vintageBytes_congr {t : State} (h : t.moduleId = s.moduleId) : t.vintageBytes f = s.vintageBytes f := by
  rw [State.vintageBytes, h, State.vintageBytes]

/-- The partner's message that brings a link up (R456). -/
theorem exec_vintageMessage_up {v : Nat} {b : List Byte} (hf : f < 32) (hstate : s.lstate f = 3)
    (hv : v = negotiate (sideOf (s.reg (Page.fabricPort f) Reg.VER_SUPPORT).toNat) (sideOf (ofLeBytes (b.take 8)))) (hok : v ≠ 0)
    (hpeer : leAt b 8 2 % 4096 ≠ s.moduleId) : ∃ payload, exec (.vintageMessage f b) s =
      .next (((s.setReg (Page.fabricPort f) 0x108 (place 55 40 v ||| place 28 28 (leAt b 11 1 % 2) |||
        place 27 16 (leAt b 8 2 % 4096) ||| place 15 8 (leAt b 10 1) ||| place 2 0 4)).setFld (Page.fabricPort f) Reg.VER_ACTIVE
        15 0 v).genEvent (Page.fabricPort f) 0x02B1 0 payload) := by
  refine ⟨place 11 0 (leAt b 8 2 % 4096) ||| place 23 16 (leAt b 10 1), ?_⟩
  show execVintageMessage f b s = _
  rw [execVintageMessage, Nat.mod_eq_of_lt hf]
  dsimp only
  rw [if_neg (not_not.mpr hstate), ← hv, if_neg hok, if_neg hpeer, if_neg (not_not.mpr rfl)]

/-- A cable that is inserted is noted and posted, and bring-up starts where it may (R602). -/
theorem exec_cablePresence_in (hf : f < 32) (hout : (s.fabPort f).cable = false) : ∃ u payload,
    u = (s.modFabPort f fun x => { x with cable := true }).genEvent (Page.fabricPort f) 0x02F7 0 payload ∧
      exec (.cablePresence f true) s = .next (u.bringUp f) := by
  refine ⟨_, place 4 0 f ||| place 8 8 1, rfl, ?_⟩
  show execCablePresence f true s = _
  rw [execCablePresence, Nat.mod_eq_of_lt hf]
  dsimp only
  rw [if_neg (by rw [hout]; decide), if_pos rfl]
  rfl

end

/-! MODULE_CFG (R457). -/

/-- A bring-up of a port leaves the module's number alone. -/
theorem State.moduleId_bringUp (s : State) (f : Nat) : (s.bringUp f).moduleId = s.moduleId := by
  rcases s.bringUp_eq f with h | h <;> rw [h]
  exact State.fld_setFld_key _ _ _ _ _ _ _ _
    (regKey_ne_of_page (by simp only [Page.portDie, Page.fabricPort]; omega) (by decide) (by decide))

theorem moduleId_plainWrite (s : State) (v : Word) : (s.plainWrite (Page.portDie 0) 0x100 v).moduleId = bits v 11 0 := by
  have hr : findReg .portDie 0x100 = portDieRegs[0]? := by decide +kernel
  rw [State.moduleId, State.fld, s.reg_plainWrite_same v (by decide) (by decide) hr]
  exact bits_writeFields_rw v (by unfold apart; decide) (f := fld 11 0 .rw 0x0) (by decide) (by decide) rfl rfl _

/-- Settles O39: each port's condition leaves one branch of its command. -/
theorem portsComplete : Obligations.PortsComplete := by
  refine ⟨?_, ?_, ?_, ?_, ?_, ?_, ?_, ?_⟩
  · intro s f b h hf hup hlen hcrc hh hack hnak hnull hcredit hidle hseq hcount
    obtain ⟨t, hexec, hport, hmem⟩ := exec_fabricFlitReceive hf hup hlen hcrc hh hack hnak hnull hcredit hidle hseq hcount
    refine ⟨t, hexec, ?_, ?_, ?_, hmem⟩ <;> rw [hport]
    · rfl
    · rfl
    · exact Map.get_set_same ..
  · intro s f hf hup
    obtain ⟨m, hout, hkind, hsrc, hlen, hacked⟩ := s.nullFlit_sends f false
    refine ⟨_, m, ?_, hout, hkind, hsrc, hlen, hacked, s.nullFlit_mem f false⟩
    show execFabricAckTimer f s = _
    rw [execFabricAckTimer, Nat.mod_eq_of_lt hf, if_pos hup]
  · intro s f hf hup halone
    have hne : s.lstate f ≠ 0 := by omega
    refine ⟨⟨_, ?_, State.portDown_alone 2 hne halone⟩, ⟨_, ?_, State.portDown_alone 3 hne halone⟩⟩
    · show execFabricSilence f s = _
      rw [execFabricSilence, Nat.mod_eq_of_lt hf, if_pos hup]
    · show execLaneSignalLoss f s = _
      rw [execLaneSignalLoss, Nat.mod_eq_of_lt hf]
  · intro s f hf hmay
    refine ⟨fun hdown hvintage => ⟨s.setLstate f 1, ?_, s.lstate_setLstate f 1, rfl⟩,
      fun hdown hvintage => ⟨s.setLstate f 1, ?_, s.lstate_setLstate f 1, rfl⟩⟩
    · show execBringupRestart f s = _
      rw [execBringupRestart, Nat.mod_eq_of_lt hf]
      simp only [hdown, hvintage, Bool.not_false, Bool.and_self, if_true, State.bringUp_may hmay]
    · show execVintageFailRetry f s = _
      rw [execVintageFailRetry, Nat.mod_eq_of_lt hf]
      simp only [hdown, hvintage, Bool.and_self, if_true, State.bringUp_may hmay]
  · intro s f hf
    refine ⟨fun hstate => ⟨s.setLstate f 2, ?_, s.lstate_setLstate f 2, rfl⟩, fun hstate => ?_, fun hlow hhigh => ?_, fun hstate => ?_⟩
    · show execBringupStageDone f s = _
      simp only [execBringupStageDone, Nat.mod_eq_of_lt hf, hstate]
    · obtain ⟨-, -, -, hmodule, hout, -, -⟩ := s.clearLink_keeps f
      have hid : ((s.clearLink f).setLstate f 3).moduleId = s.moduleId :=
        (State.fld_setFld_key _ _ _ _ _ _ _ _ (regKey_ne_of_page (by simp only [Page.portDie, Page.fabricPort]; omega)
          (by decide) (by decide))).trans hmodule
      refine ⟨((s.clearLink f).setLstate f 3).sendVintage f, _, ?_, ?_, congrArg (_ :: ·) hout, rfl, rfl,
        State.vintageBytes_congr hid, by simp⟩
      · show execBringupStageDone f s = _
        simp only [execBringupStageDone, Nat.mod_eq_of_lt hf, hstate]
      · exact State.lstate_setLstate (s.clearLink f) f 3
    · refine ⟨s.portIdle f St.timeout, ?_, ?_, State.fld_setFld_same _ _ _ _ (by decide), rfl, State.portIdle_mem s f _⟩
      · show execBringupTimeout f s = _
        rw [execBringupTimeout, Nat.mod_eq_of_lt hf]
        exact congrArg Host.Outcome.next (if_pos ⟨hlow, hhigh⟩)
      · exact (State.fld_setFld_other _ _ _ _ (by decide) (by decide)).trans (State.lstate_setLstate _ f 0)
    · refine ⟨s.sendVintage f, _, ?_, rfl, rfl, rfl, rfl, rfl⟩
      show execVintageResend f s = _
      rw [execVintageResend, Nat.mod_eq_of_lt hf, if_pos hstate]
  · intro s f v b hf hstate hv hok hpeer
    obtain ⟨payload, hexec⟩ := exec_vintageMessage_up hf hstate hv hok hpeer
    have hstat : ∀ (w : Word) (hi lo : Nat), (((s.setReg (Page.fabricPort f) 0x108 w).setFld (Page.fabricPort f) Reg.VER_ACTIVE
        15 0 v).genEvent (Page.fabricPort f) 0x02B1 0 payload).fld (Page.fabricPort f) 0x108 hi lo = bits w hi lo := by
      intro w hi lo
      rw [State.fld, State.reg_genEvent_other _ _ _ _ _ (regKey_ne_of_offset (by decide)),
        State.reg_setFld_other _ _ _ _ _ _ _ _ (regKey_ne_of_offset (by decide)), State.reg_setReg_same]
    refine ⟨_, hexec, ?_, ?_, ?_, ?_, ?_⟩
    · rw [State.lstate, hstat]
      simp (disch := decide) only [bits_or, bits_place_same, bits_place_other, Nat.zero_or]
      rfl
    · rw [hstat]
      simp (disch := decide) only [bits_or, bits_place_same, bits_place_other, Nat.zero_or, Nat.or_zero]
      exact Nat.mod_mod ..
    · rw [State.fld, State.reg_genEvent_other _ _ _ _ _ (regKey_ne_of_offset (by decide)), ← State.fld]
      exact State.fld_setFld_same _ _ _ _ (by decide)
    · refine State.posts_genEvent 0 _ rfl ?_
      rw [State.reg_setFld_other _ _ _ _ _ _ _ _ (regKey_ne_of_offset (by decide)),
        State.reg_setReg_other _ _ _ _ _ _ (regKey_ne_of_offset (by decide))]
    · rw [State.genEvent_mem]; rfl
  · intro s f hf hout
    obtain ⟨u, payload, hu, hexec⟩ := exec_cablePresence_in hf hout
    have hcable : (u.fabPort f).cable = true := by
      rw [hu, State.fabPort_genEvent]
      exact congrArg FabPort.cable (s.fabPort_modFabPort f fun x => { x with cable := true })
    have hposts : Posts s u (Page.fabricPort f) 0x02F7 := by
      rw [hu]; exact State.posts_genEvent 0 _ rfl rfl
    have hmem : u.mem = s.mem := by rw [hu, State.genEvent_mem]; rfl
    rcases u.bringUp_eq f with h | h <;> rw [h] at hexec
    · exact ⟨u, hexec, hcable, hposts, hmem⟩
    · exact ⟨_, hexec, hcable, hposts, hmem⟩
  · intro s i v h hdown
    have hall : ((List.range 32).all fun f => decide ((s.admittedState i (Page.portDie 0) 0x100).lstate f = 0)) = true := by
      refine List.all_eq_true.mpr fun f hf => decide_eq_true ?_
      exact (State.fld_admittedState ..).trans (hdown f (List.mem_range.mp hf))
    have hexec : exec (.moduleCfgWrite i v) s = .next ((List.range 32).foldl State.bringUp
        ((s.admittedState i (Page.portDie 0) 0x100).plainWrite (Page.portDie 0) 0x100 v)) :=
      congrArg Host.Outcome.next ((State.writeVia_admitted _ h).trans (if_pos hall))
    refine ⟨_, hexec, ?_, by simp⟩
    exact foldl_inv (P := fun t : State => t.moduleId = bits v 11 0) _ (fun t f ht => (t.moduleId_bringUp f).trans ht)
      (moduleId_plainWrite _ v)

end Sys2Proof.Machine

/-!
STRAGGLE of a logical stack that does not exist (O40). `boundStack` reads the entry of SPARE_MAP that a packet's OP names, and an
OP of 262,605 names a register of P0's page: its count of received bytes, which the packet's own arrival raises (Table 15-19). The
statement names the stack before the arrival, and the command goes by the one after it.
-/
namespace Sys2Proof.Machine

-- One proof at a time: each thread of Lean reserves a stack, and together they would pass the check's memory limit.
set_option Elab.async false

/-- The OP whose entry of SPARE_MAP is the count of received bytes of port 0. -/
def farStack : Nat := regKey (Page.fabricPort 0) (Reg.CNT + 8) - Reg.SPARE_MAP / 8

/-- A STRAGGLE for that stack. -/
def farStraggle : Packet := typed { type := 0x0A, op := farStack } 0x0A (some 0)

/-- An armed collective of stack 0. -/
def stackZeroColl : Coll := ⟨0, 0, 0, 0, 0, 0, 0, 0, 0, 0, 0, 0, 0, 0, 0, 0, 0, 0, 0, [], 0, 0, 0, 0, (0, 0), 0, 0, 0, 0, 0, 0, 0, 0, 0,
  0, 0, [], 0, []⟩

/-- Port 0 is UP, and its count of received bytes stands at 0x80 units of 1,024 bytes, 48 bytes short of the next. -/
def nearlyCounted : State :=
  { State.reset with
    regs := [(regKey (Page.fabricPort 0) 0x108, 4), (regKey (Page.fabricPort 0) (Reg.CNT + 8), 0x80)]
    partial_ := [(regKey (Page.fabricPort 0) (Reg.CNT + 8), 976)]
    colls := [(stackZeroColl.key, stackZeroColl)] }

/-- The count as it stands names stack 0, whose collective the STRAGGLE means. -/
theorem nearlyCounted_stack : nearlyCounted.boundStack farStack = some 0 ∧
    nearlyCounted.collFind 0 farStraggle.jobTag farStraggle.collSeq = some stackZeroColl := by decide +kernel

/-- The port accepts the packet. -/
theorem nearlyCounted_accepts : Accepted nearlyCounted 0 farStraggle
    (nearlyCounted.bumpUnits (Page.fabricPort 0) 1 (48 + farStraggle.payload.length) 1024) := by
  refine ⟨by decide, ?_, ?_, ?_, ?_, rfl⟩ <;> decide +kernel

/-- The count of stragglers that stack 0 has heard of after a command that answers a next state. -/
def stragglesAfter : Out → Option Word
  | .next t => some (t.reg (Page.collective 0) (Reg.CNT + 32))
  | _ => none

/-- The packet's arrival raises the count to 0x81, so that the command goes by stack 1. -/
theorem straggle_counts_other : stragglesAfter (exec (.straggle 0 { type := 0x0A, op := farStack }) nearlyCounted) = some 0 := by
  decide +kernel

/-- Refutes O40: a STRAGGLE whose OP names no logical stack reads the port's count of received bytes as an entry of SPARE_MAP, 0x80
before its arrival and 0x81 after it, so that stack 0 counts no straggler. No module has a logical stack of that number. -/
theorem not_packetsComplete : ¬ Obligations.PacketsComplete := by
  rintro ⟨-, -, -, -, -, -, -, -, -, -, straggle, -⟩
  obtain ⟨hstack, hfind⟩ := nearlyCounted_stack
  obtain ⟨t, ht, -, hcount, -⟩ := straggle nearlyCounted _ 0 0 { type := 0x0A, op := farStack } farStraggle stackZeroColl rfl
    nearlyCounted_accepts hstack hfind
  have counted : some (t.reg (Page.collective 0) (Reg.CNT + 32)) = some 0 := by
    rw [← straggle_counts_other, ht]
    rfl
  rw [hcount] at counted
  revert counted
  decide +kernel

end Sys2Proof.Machine

/-!
Server cores (O44): failed accesses, cache-block operations, fences, interrupt files, MSI tables, and accesses by region.
-/
namespace Sys2Proof.Machine

-- One proof at a time: each thread of Lean reserves a stack, and together they would pass the check's memory limit.
set_option Elab.async false

/-! Exceptions and lost stores (R526, R527). -/

section
variable {s : State} {c : Nat}

theorem srvCode_data {op status : Nat} (h : status ∈ [St.dataUncorrectable, St.dataLost, St.poisoned]) :
    srvCode op status = some 19 := if_pos (List.contains_iff_mem.mpr h)

theorem srvCode_access {op status : Nat} (h : status ∈ [St.permissionFault, St.timeout, St.hostLost]) :
    srvCode op status = some (accessFault op) := by
  have hother : ¬ [St.dataUncorrectable, St.dataLost, St.poisoned].contains status = true := by
    simp only [List.mem_cons, List.not_mem_nil, or_false] at h
    rcases h with rfl | rfl | rfl <;> decide
  rw [srvCode, if_neg hother, if_pos (List.contains_iff_mem.mpr h)]

theorem exec_srvLoadError {op va status code : Nat} (hc : c < 256) (hcode : srvCode op status = some code) :
    exec (.srvLoadError c op va status) s = .next (s.srvTrap c code va) := by
  show execSrvLoadError c op va status s = _
  rw [execSrvLoadError, if_neg (Nat.not_le.mpr hc), hcode]

end

/-! Cache-block operations (R522). -/

section
variable {s : State} {c va pa home off : Nat}

/-- A cache-block operation but for zeroing works on the line: clean where it is not an inval. -/
theorem exec_cbo_line {op : Nat} (hc : c < 256) (hop : op < 3) (hmain : regionOf pa = .gddr home off) :
    exec (.cbo c op va pa) s = .next (s.cboLine c (pa / 128) (decide (op ≠ 0))) := by
  show execCbo c op va pa s = _
  simp only [execCbo, hmain]
  refine congrArg Host.Outcome.next ((if_neg (show ¬ (256 ≤ c ∨ 3 < op) by omega)).trans ((if_neg (by decide)).trans ?_))
  obtain rfl | rfl | rfl : op = 0 ∨ op = 1 ∨ op = 2 := by omega
  · rfl
  · rfl
  · rfl

theorem State.cboLine_modified (clean : Bool) (h : s.agentState c (pa / 128) = .m) :
    Host.Outcome.next (s.cboLine c (pa / 128) clean) = exec (.datWb c (pa / 128) true) s := by
  rw [State.cboLine, h]
  rfl

theorem State.cboLine_clean (h : s.agentState c (pa / 128) = .e ∨ s.agentState c (pa / 128) = .s) :
    s.cboLine c (pa / 128) false = s ∧
      Host.Outcome.next (s.cboLine c (pa / 128) true) = exec (.evictClean c (pa / 128)) s := by
  constructor <;> rcases h with h | h <;> rw [State.cboLine, h] <;> rfl

theorem State.cboLine_absent (clean : Bool) (h : s.agentState c (pa / 128) = .i) : s.cboLine c (pa / 128) clean = s := by
  rw [State.cboLine, h]

/-- Zeroing writes 64 zero bytes, and the core that holds the line has written it. -/
theorem exec_cbo_zero {u : State} (hc : c < 256) (hmain : regionOf pa = .gddr home off)
    (hwrite : s.physWrite 0 .engine (pa / 64 * 64) (List.replicate 64 0) = (St.ok, u)) :
    exec (.cbo c 3 va pa) s = .next (u.srvDirty c (pa / 128)) := by
  show execCbo c 3 va pa s = _
  simp only [execCbo, hmain]
  refine congrArg Host.Outcome.next ((if_neg (show ¬ (256 ≤ c ∨ 3 < 3) by omega)).trans ((if_neg (by decide)).trans ?_))
  rw [hwrite, if_pos rfl, State.srvDirty]

theorem State.srvDirty_keeps (u : State) (c line : Nat) :
    (u.srvDirty c line).mem = u.mem ∧ (u.srvDirty c line).regs = u.regs ∧ (u.srvDirty c line).srv = u.srv := by
  rw [State.srvDirty]
  split <;> exact ⟨rfl, rfl, rfl⟩

end

/-! Fences (R533), interrupt files (R530) and MSI tables (R531). -/

section
variable {s : State}

/-- A fence with nothing outstanding completes. -/
theorem exec_srvFenceIo_idle {c : Nat} (predO predW : Bool) (hc : c < 256) (hretry : (s.srvCore c).retry = none)
    (hqueue : ∀ m ∈ s.dirQueue, m.src ≠ c) (htxns : ∀ x ∈ s.txns, x.2.req.src ≠ c) :
    exec (.srvFenceIo c predO predW) s = .next { s with reply := (St.ok, []) } := by
  have hown (kinds : Msg → Prop) [∀ m, Decidable (kinds m)] : (s.dirQueue.any fun m => decide (m.src = c ∧ kinds m)) = false ∧
      (s.txns.any fun t => decide (t.2.req.src = c ∧ kinds t.2.req)) = false := by
    constructor
    · exact List.any_eq_false.mpr fun m hm => by simp [hqueue m hm]
    · exact List.any_eq_false.mpr fun x hx => by simp [htxns x hx]
  obtain ⟨hq, ht⟩ := hown fun m => m.kind = .rdUnique ∨ m.kind = .upgrade
  show execSrvFenceIo c predO predW s = _
  refine congrArg Host.Outcome.next (if_neg ?_)
  rw [hq, ht, hretry]
  simp [hc]

theorem mem_setInsert_of_mem {l : List Nat} {n : Nat} (i : Nat) (h : n ∈ l) : n ∈ setInsert l i := by
  induction l with
  | nil => exact absurd h List.not_mem_nil
  | cons k l ih =>
    rw [setInsert]
    split
    · exact .tail _ h
    · split
      · exact h
      · rcases List.mem_cons.mp h with rfl | h
        · exact .head _
        · exact .tail _ (ih h)

/-- A write of an interrupt file's identity sets it pending. -/
theorem exec_imsicWrite_sets {who off data f : Nat} (hwho : who < 3) (halign : off % 4 = 0) (hfile : imsicFile off = some f)
    (hpage : off % 0x1000 = 0) (hlow : 1 ≤ data) (hhigh : data ≤ 2047) : exec (.imsicWrite who off 4 data) s =
      .next { s with imsic := s.imsic.mod [] f fun l => setInsert l data } := by
  refine congrArg Host.Outcome.next ((if_pos ⟨hwho, rfl, halign⟩).trans ?_)
  rw [Nat.mod_eq_of_lt (by omega), State.imsicWrite, hfile]
  exact if_pos ⟨hpage, hlow, hhigh⟩

/-- Unmasking an entry of an MSI table, by its MASKED and PENDING bits. -/
theorem exec_msiUnmask {part vec a : Nat} (hpart : part < 64) (ha : s.msiEntryAddr part vec = some a) :
    exec (.msiUnmask part vec) s = .next (
      if s.mem.readNat (a + 12) 4 % 2 = 0 then s
      else if (s.mem.readNat (a + 12) 4).testBit 1 then
        ({ s with mem := s.mem.writeNat (a + 12) 4 (s.mem.readNat (a + 12) 4 - 3) } : State).msiFire part a
      else { s with mem := s.mem.writeNat (a + 12) 4 (s.mem.readNat (a + 12) 4 - 1) }) := by
  show execMsiUnmask part vec s = _
  rw [execMsiUnmask, if_neg (Nat.not_le.mpr hpart)]
  simp only [ha]

end

/-! Accesses (R523 to R526, R529). -/

section
variable {s : State} {a : SrvAccess}

/-- Only the core's translation is noted before the access starts (R354). -/
theorem State.srvSeen_eq (s : State) (a : SrvAccess) : ∃ l, s.srvSeen a = { s with srvTlb := l } := by
  rw [State.srvSeen]
  split
  · exact ⟨s.srvTlb, rfl⟩
  · exact ⟨_, rfl⟩

theorem exec_srvMemoryAccess (hcore : a.core < 256) (hop : a.op ≤ 5) (hn : 1 ≤ a.n) (hleaf : a.pageFault = false) :
    exec (.srvMemoryAccess a) s = .next ((s.srvSeen a).srvRegion a) := by
  refine congrArg Host.Outcome.next ((if_neg ?_).trans ((if_neg (ne_true_of_eq_false hleaf)).trans rfl))
  omega

/-- Main memory on the GDDR devices is served by its home (R524). -/
theorem State.srvRegion_gddr {home off : Nat} (hregion : regionOf a.pa = .gddr home off) (hoff : off < 0x600000000) :
    s.srvRegion a = s.srvMain a := by
  unfold State.srvRegion
  rw [hregion]
  exact if_neg (Nat.not_le.mpr hoff)

/-- What memory answers does not depend on the translations that server cores have used. -/
theorem State.physBytes_srvTlb (s : State) (l : List SrvTlb) (part pa n : Nat) :
    ({ s with srvTlb := l } : State).physBytes part pa n = s.physBytes part pa n := rfl

/-- A load or a fetch of main memory answers its bytes. -/
theorem State.srvMain_loads {b : List Byte} (hop : a.op = 0 ∨ a.op = 2) (hread : s.physBytes 0 a.pa a.n = (St.ok, b)) :
    s.srvMain a = s.answer St.ok b := by
  unfold State.srvMain
  dsimp only
  rw [if_neg (by omega), if_neg (by omega), hread, if_neg (by simp), if_neg (by omega), if_neg (by omega)]

/-- An access within one line has one piece. -/
theorem linePieces_single {pa n : Nat} (hn : 1 ≤ n) (hline : pa % 128 + n ≤ 128) : linePieces (n / 128 + 2) pa n = [(pa, n)] := by
  have hin : inLine pa n = n := by simp only [inLine]; omega
  rw [linePieces, if_neg (by omega), hin, Nat.sub_self, linePieces]
  exact congrArg ((pa, n) :: ·) (by cases n / 128 <;> simp [linePieces])

/-- A store within a line writes memory, and the core has written the line. -/
theorem State.srvMain_stores {v : State} (hop : a.op = 1) (hn : 1 ≤ a.n) (hline : a.pa % 128 + a.n ≤ 128)
    (hwrite : (s.answer St.ok []).physWrite 0 .engine a.pa (a.data.take a.n) = (St.ok, v)) :
    s.srvMain a = v.srvDirty a.core (a.pa / 128) := by
  rw [State.srvMain, if_pos hop, State.srvStore, linePieces_single hn hline, List.foldl_cons, List.foldl_nil, Nat.sub_self, List.drop_zero,
    hwrite]
  exact if_pos rfl

end

/-- Settles O44: each access, operation or write meets its checks, and so has its one effect. -/
theorem serversComplete : Obligations.ServersComplete := by
  refine ⟨?_, ?_, ?_, ?_, ?_, ?_, ?_, ?_, ?_, ?_, ?_, ?_⟩
  · rintro s c op va status code hc (⟨h, rfl⟩ | ⟨h, rfl⟩)
    · exact exec_srvLoadError hc (srvCode_data h)
    · exact exec_srvLoadError hc (srvCode_access h)
  · intro s c pa status hc hcode
    refine ⟨s.storeLost c pa, congrArg Host.Outcome.next (if_pos ⟨hc, hcode⟩), State.posts_genEvent 0 _ rfl rfl,
      State.genEvent_mem .., ?_⟩
    obtain ⟨r, q, e, h⟩ := s.genEvent_eq (srvPage c) 0x02E0 0 (place 51 0 (pa / 128 * 128))
    rw [State.storeLost, h]
  · intro s u c va pa home off hc hmain hwrite
    exact ⟨_, exec_cbo_zero hc hmain hwrite, u.srvDirty_keeps c (pa / 128)⟩
  · intro s c op va pa home off hc hop hmain
    rw [exec_cbo_line hc hop hmain]
    refine ⟨fun h => ⟨_, rfl, (State.cboLine_modified _ h).symm⟩, fun h => ⟨?_, ?_⟩, fun h => ?_⟩
    · rintro rfl
      exact congrArg _ (State.cboLine_clean h).1
    · intro hne
      rw [decide_eq_true hne]
      exact ⟨_, rfl, (State.cboLine_clean h).2.symm⟩
    · rw [State.cboLine_absent _ h]
  · intro s c predO predW
    exact exec_srvFenceIo_idle predO predW
  · intro s who off data f hwho halign hfile hpage hlow hhigh
    refine ⟨_, exec_imsicWrite_sets hwho halign hfile hpage hlow hhigh, ?_, fun n hn => ?_, rfl⟩
    · exact (Map.get_set_same [] s.imsic f _).symm ▸ mem_setInsert _ data
    · exact (Map.get_set_same [] s.imsic f _).symm ▸ mem_setInsert_of_mem data hn
  · intro s part vec a hpart ha
    rw [exec_msiUnmask hpart ha]
    have hpending (h : s.mem.readNat (a + 12) 4 % 4 = 3) : (s.mem.readNat (a + 12) 4).testBit 1 = true := by
      rw [Nat.testBit_eq_decide_div_mod_eq]; exact decide_eq_true (by omega)
    have hquiet (h : s.mem.readNat (a + 12) 4 % 4 = 1) : ¬ (s.mem.readNat (a + 12) 4).testBit 1 = true := by
      rw [Nat.testBit_eq_decide_div_mod_eq]
      intro h'
      have := of_decide_eq_true h'
      omega
    refine ⟨fun h => ?_, fun h => ?_, fun h => ?_⟩
    · rw [if_pos h]
    · rw [if_neg (by omega), if_neg (hquiet h)]
    · rw [if_neg (by omega), if_pos (hpending h)]
  · intro s a home off b hcore hop hn hleaf hregion hoff hread
    obtain ⟨l, hl⟩ := s.srvSeen_eq a
    refine ⟨_, exec_srvMemoryAccess hcore (by omega) hn hleaf, ?_⟩
    rw [State.srvRegion_gddr hregion hoff, hl,
      State.srvMain_loads hop ((State.physBytes_srvTlb s l 0 a.pa a.n).trans hread)]
    exact ⟨rfl, rfl⟩
  · intro s v a home off hcore hop hn hline hleaf hregion hoff hwrite
    rw [exec_srvMemoryAccess hcore (by omega) hn hleaf, State.srvRegion_gddr hregion hoff, State.srvMain_stores hop hn hline hwrite]
  · intro s a
    exact exec_srvMemoryAccess
  · intro s a hcore hop hn hleaf
    exact congrArg Host.Outcome.next ((if_neg (by omega)).trans (if_pos hleaf))
  · intro s c due a hretry hdue
    show execSrvAccessRetry c s = _
    simp only [execSrvAccessRetry, hretry, hdue, if_true]

end Sys2Proof.Machine

/-! Decanter streams (16_decanter_input_pipeline.md): each command of a stream's control register ends in one of four settings of
the stream, and a step of a running stream has one branch for each thing that the stream waits for. -/

namespace Sys2Proof.Machine

-- One proof at a time: each thread of Lean reserves a stack, and together they would pass the check's memory limit.
set_option Elab.async false

/-! The registers of a stream and what loading them leaves alone. -/

section
variable (s : State) (n k : Nat)

theorem regKey_decOff_ne {r r' : Nat} (h : r / 8 ≠ r' / 8) :
    regKey (Page.decanter n) (decOff k r) ≠ regKey (Page.decanter n) (decOff k r') :=
  regKey_ne_of_offset (by simp only [decOff]; omega)

@[simp] theorem State.decReg_admittedState (i : Ident) (page off r : Nat) :
    (s.admittedState i page off).decReg n k r = s.decReg n k r := s.reg_admittedState ..

@[simp] theorem State.decState_admittedState (i : Ident) (page off : Nat) :
    (s.admittedState i page off).decState n k = s.decState n k := s.fld_admittedState ..

@[simp] theorem State.decPos_admittedState (i : Ident) (page off : Nat) :
    (s.admittedState i page off).decPos n k = s.decPos n k := s.fld_admittedState ..

@[simp] theorem State.dec_admittedState (i : Ident) (page off : Nat) :
    (s.admittedState i page off).dec n k = s.dec n k := by
  obtain ⟨l, w, h⟩ := s.admittedState_eq i page off
  rw [h]
  rfl

@[simp] theorem State.ready_admittedState (i : Ident) (p page off : Nat) :
    (s.admittedState i page off).ready p = s.ready p := by
  rw [State.ready, State.pageState_admittedState, State.ready]

@[simp] theorem State.dec_setDec (x : DecStream) : (s.setDec n k x).dec n k = x := Map.get_set_same ..

/-- A register of a stream but its status is not that register. -/
theorem State.decReg_decStat (hi lo x : Nat) {r : Nat} (h : r / 8 ≠ 5) : (s.decStat n k hi lo x).decReg n k r = s.decReg n k r :=
  State.reg_setFld_other _ _ _ _ _ _ _ _ (regKey_decOff_ne n k h)

/-- Two fields of a stream's status are apart. -/
theorem State.stat_decStat {hi lo hi' lo' : Nat} (x : Nat) (h : hi' < 64) (hd : hi' < lo ∨ hi < lo') :
    bits ((s.decStat n k hi lo x).decReg n k 0x28) hi' lo' = bits (s.decReg n k 0x28) hi' lo' :=
  State.fld_setFld_other _ _ _ x h hd

/-- A field of a stream's status that has been loaded. -/
theorem State.stat_decStat_same {hi lo : Nat} (x : Nat) (h : hi < 64) :
    bits ((s.decStat n k hi lo x).decReg n k 0x28) hi lo = x % 2 ^ (hi + 1 - lo) :=
  State.fld_setFld_same _ _ _ x h

@[simp] theorem State.decPos_decStat (hi lo x : Nat) : (s.decStat n k hi lo x).decPos n k = s.decPos n k :=
  congrArg (bits · 47 0) (s.decReg_decStat n k hi lo x (by decide))

/-- Whether a ring holds requests is decided by HEAD, TAIL and whether the ring was placed. -/
theorem State.decRingEmpty_decStat {hi lo : Nat} (x : Nat) (hd : 7 < lo ∨ hi < 4) :
    (s.decStat n k hi lo x).decRingEmpty n k = s.decRingEmpty n k := by
  unfold State.decRingEmpty
  rw [s.stat_decStat n k x (by decide) hd, s.decReg_decStat n k hi lo x (by decide)]
  rfl

/-! Arming: a stream without a request runs only when the ring holds one. -/

theorem State.decState_decArm : (s.decArm n k).decState n k =
    if ((s.decArm n k).dec n k).req.isNone && (s.decArm n k).decRingEmpty n k then 2 else 1 := by
  have hring : (s.decArm n k).decRingEmpty n k = s.decRingEmpty n k := s.decRingEmpty_decStat n k _ (.inr (by decide))
  refine (s.stat_decStat_same n k _ (by decide)).trans ?_
  rw [hring, show (s.decArm n k).dec n k = s.dec n k from rfl]
  split <;> rfl

theorem State.stat_decArm {hi lo : Nat} (h : hi < 64) (hd : 2 < lo) :
    bits ((s.decArm n k).decReg n k 0x28) hi lo = bits (s.decReg n k 0x28) hi lo :=
  s.stat_decStat n k _ h (.inr hd)

theorem State.decPos_decArm : (s.decArm n k).decPos n k = s.decPos n k := s.decPos_decStat ..

theorem State.dec_decArm : (s.decArm n k).dec n k = s.dec n k := by rw [State.decArm]; rfl

/-! Stopping (R513, R515). -/

/-- What a stop leaves in the registers of a stream, with the place `w` where the stream was. -/
def State.decShown (s : State) (n k reason status pos : Nat) (w : Word) : State :=
  let s := ((s.decStat n k 2 0 3).decStat n k 31 28 reason).decStat n k 39 32 status
  let s := s.decStat n k 63 48 (bits (s.decReg n k 0x28) 63 48 + 1)
  ((s.setDecPos n k pos).setReg (Page.decanter n) (decOff k 0x38) w).bump (Page.decanter n) 5

theorem State.decStop_idle (reason status pos : Nat) (hreq : (s.dec n k).req = none) :
    ∃ w part payload, s.decStop n k reason status pos none =
      (s.free.2.decShown n k reason status pos w).genEvent (Page.decanter n) 0x02C0 part payload := by
  unfold State.decStop
  rw [hreq]
  exact ⟨_, _, _, rfl⟩

theorem State.reg_decShown_status (reason status pos : Nat) (w : Word) : ∃ u : State,
    (s.decShown n k reason status pos w).decReg n k 0x28 =
      ((((s.decStat n k 2 0 3).decStat n k 31 28 reason).decStat n k 39 32 status).decStat n k 63 48
        (bits (u.decReg n k 0x28) 63 48 + 1)).decReg n k 0x28 := by
  have hcount : regKey (Page.decanter n) (decOff k 0x28) ≠ regKey (Page.decanter n) (Reg.CNT + 8 * 5) :=
    regKey_ne_of_offset (by simp only [decOff, Reg.CNT]; omega)
  exact ⟨_, (State.reg_bump_other _ _ _ _ hcount).trans ((State.reg_setReg_other _ _ _ _ _ _ (regKey_decOff_ne n k (by decide))).trans
    (State.reg_setFld_other _ _ _ _ _ _ _ _ (regKey_decOff_ne n k (by decide))))⟩

/-- A stop shows state 3, the reason and the status, and the position. -/
theorem State.decShown_shows (reason status pos : Nat) (w : Word) :
    (s.decShown n k reason status pos w).decState n k = 3 ∧
    bits ((s.decShown n k reason status pos w).decReg n k 0x28) 31 28 = reason % 16 ∧
    bits ((s.decShown n k reason status pos w).decReg n k 0x28) 39 32 = status % 256 ∧
    (s.decShown n k reason status pos w).decPos n k = pos % 2 ^ 48 := by
  obtain ⟨u, hu⟩ := s.reg_decShown_status n k reason status pos w
  have hcount : regKey (Page.decanter n) (decOff k 0x20) ≠ regKey (Page.decanter n) (Reg.CNT + 8 * 5) :=
    regKey_ne_of_offset (by simp only [decOff, Reg.CNT]; omega)
  refine ⟨(congrArg (bits · 2 0) hu).trans ?_, (congrArg (bits · 31 28) hu).trans ?_, (congrArg (bits · 39 32) hu).trans ?_, ?_⟩
  · rw [State.stat_decStat _ _ _ _ (by decide) (.inl (by decide)), State.stat_decStat _ _ _ _ (by decide) (.inl (by decide)),
      State.stat_decStat _ _ _ _ (by decide) (.inl (by decide)), State.stat_decStat_same _ _ _ _ (by decide)]
    rfl
  · rw [State.stat_decStat _ _ _ _ (by decide) (.inl (by decide)), State.stat_decStat _ _ _ _ (by decide) (.inl (by decide)),
      State.stat_decStat_same _ _ _ _ (by decide)]
    rfl
  · rw [State.stat_decStat _ _ _ _ (by decide) (.inl (by decide)), State.stat_decStat_same _ _ _ _ (by decide)]
    rfl
  · exact congrArg (bits · 47 0) ((State.reg_bump_other _ _ _ _ hcount).trans
      (State.reg_setReg_other _ _ _ _ _ _ (regKey_decOff_ne n k (by decide)))) |>.trans (State.fld_setFld_same _ _ _ _ (by decide))

/-- A stop leaves the enabled events of its page as they are. -/
theorem State.decShown_enable (reason status pos : Nat) (w : Word) :
    (s.decShown n k reason status pos w).reg (Page.decanter n) Reg.EV_ENABLE = s.reg (Page.decanter n) Reg.EV_ENABLE := by
  have apart (r : Nat) : regKey (Page.decanter n) Reg.EV_ENABLE ≠ regKey (Page.decanter n) (decOff k r) :=
    regKey_ne_of_offset (by simp only [decOff, Reg.EV_ENABLE]; omega)
  have hcount : regKey (Page.decanter n) Reg.EV_ENABLE ≠ regKey (Page.decanter n) (Reg.CNT + 8 * 5) :=
    regKey_ne_of_offset (by decide)
  simp only [State.decShown, State.decStat, State.setDecPos, State.reg_bump_other _ _ _ _ hcount,
    State.reg_setReg_other _ _ _ _ _ _ (apart _), State.reg_setFld_other _ _ _ _ _ _ _ _ (apart _)]

end

section
variable {s : State} {i : Ident} {n k : Nat}

/-- STOP halts the stream (R513). -/
theorem exec_streamStop (hn : n < 4) (hk : k < 16) (h : Admitted s i (Page.decanter n) (decOff k 0x18) 4) :
    exec (.streamStop i n k) s = .next ((s.admittedState i (Page.decanter n) (decOff k 0x18)).decHalt n k) :=
  congrArg Host.Outcome.next ((if_pos ⟨hn, hk⟩).trans (State.writeVia_admitted _ h))

/-- A stream that runs or waits, without a request, stops at its position. -/
theorem State.decHalt_idle (hstate : s.decState n k = 1 ∨ s.decState n k = 2) (hreq : (s.dec n k).req = none) :
    (s.decHalt n k).decState n k = 3 ∧ bits ((s.decHalt n k).decReg n k 0x28) 31 28 = 0 ∧
    bits ((s.decHalt n k).decReg n k 0x28) 39 32 = St.unitUnavailable ∧ (s.decHalt n k).decPos n k = s.decPos n k ∧
    Posts s (s.decHalt n k) (Page.decanter n) 0x02C0 ∧ (s.decHalt n k).mem = s.mem := by
  let t := s.setDec n k { s.dec n k with pageWait := none, starting := false }
  have hhalt : s.decHalt n k = t.decStop n k 0 St.unitUnavailable (s.decPos n k) none := if_pos hstate
  obtain ⟨w, part, payload, hstop⟩ := t.decStop_idle n k 0 St.unitUnavailable (s.decPos n k)
    (by rw [State.dec_setDec]; exact hreq)
  obtain ⟨hshown, hreason, hstatus, hpos⟩ := t.free.2.decShown_shows n k 0 St.unitUnavailable (s.decPos n k) w
  rw [hhalt, hstop]
  have event (r : Nat) : ((t.free.2.decShown n k 0 St.unitUnavailable (s.decPos n k) w).genEvent (Page.decanter n) 0x02C0 part
      payload).decReg n k r = (t.free.2.decShown n k 0 St.unitUnavailable (s.decPos n k) w).decReg n k r :=
    State.reg_genEvent_other _ _ _ _ _ (regKey_ne_of_offset (by simp only [decOff, Reg.EV_STATUS]; omega))
  refine ⟨(congrArg (bits · 2 0) (event 0x28)).trans hshown, (congrArg (bits · 31 28) (event 0x28)).trans hreason,
    (congrArg (bits · 39 32) (event 0x28)).trans hstatus, (congrArg (bits · 47 0) (event 0x20)).trans (hpos.trans ?_),
    State.posts_genEvent _ _ rfl (State.decShown_enable ..), State.genEvent_mem ..⟩
  exact Nat.mod_eq_of_lt (bits_lt ..)

/-! Starting (R490, R491), restarting (R514) and offering requests (R492, R517). -/

/-- START decides on the state that admits it. -/
theorem exec_streamStart (hn : n < 4) (hk : k < 16) (h : Admitted s i (Page.decanter n) (decOff k 0x18) 1) :
    exec (.streamStart i n k) s = .next ((s.admittedState i (Page.decanter n) (decOff k 0x18)).decStart n k) :=
  congrArg Host.Outcome.next ((if_pos ⟨hn, hk⟩).trans (State.writeVia_admitted _ h))

/-- A stream whose descriptor `d` has been read is set to its start. -/
def State.decReset (s : State) (n k : Nat) (d : List Byte) (req : Option DecReq) : State :=
  ((s.setDec n k { desc := d, req := req }).setDecPos n k 0).decStat n k 47 40 St.ok

theorem State.decStart_reads {b u : State} {d : List Byte} (hready : s.ready (Page.decanter n) = true)
    (hvalid : bit (s.decReg n k 8) 63 = true) (hwritten : s.isWritten (Page.decanter n) (decOff k 0) = true)
    (hb : b = s.setDec n k { starting := true, req := (s.dec n k).req })
    (hread : decRead (b.decCtxt n k) b (b.decReg n k 0).toNat 256 = .ok d u) (hsound : streamDescStatus d = St.ok) :
    s.decStart n k = (u.decReset n k d (s.dec n k).req).decArm n k := by
  subst hb
  unfold State.decStart
  simp only [hready, hvalid, hwritten, Bool.not_true, Bool.or_self, Bool.false_eq_true, if_false]
  rw [hread]
  exact if_neg (fun h => h hsound)

/-- A stream at its start shows position 0 and no failure. -/
theorem State.decReset_shows (s : State) (n k : Nat) (d : List Byte) (req : Option DecReq) :
    (s.decReset n k d req).dec n k = { desc := d, req := req } ∧ (s.decReset n k d req).decPos n k = 0 ∧
    bits ((s.decReset n k d req).decReg n k 0x28) 47 40 = St.ok ∧ (s.decReset n k d req).mem = s.mem :=
  ⟨s.dec_setDec n k _, (State.decPos_decStat ..).trans (State.fld_setFld_same _ _ _ _ (by decide)),
    State.stat_decStat_same _ _ _ _ (by decide), rfl⟩

/-- The word that asks for a restart under an epoch, with or without the rows that were gathered. -/
theorem restartWord_bits (discard : Bool) {epoch : Nat} (hepoch : epoch < 2 ^ 16) :
    bits (place 63 48 epoch ||| place 4 4 discard.toNat ||| 2) 63 48 = epoch ∧
    bit (place 63 48 epoch ||| place 4 4 discard.toNat ||| 2) 4 = discard ∧
    bit (place 63 48 epoch ||| place 4 4 discard.toNat ||| 2) 2 = false ∧
    bit (place 63 48 epoch ||| place 4 4 discard.toNat ||| 2) 1 = true ∧
    bit (place 63 48 epoch ||| place 4 4 discard.toNat ||| 2) 0 = false := by
  simp only [bits_or, bit_or, bits_place_same epoch (show 63 < 64 by decide),
    bits_place_other discard.toNat (show 63 < 64 by decide) (.inr (by decide : 4 < 48)),
    bit_place discard.toNat (Nat.le_refl 4) (Nat.le_refl 4) (by decide), Nat.mod_eq_of_lt hepoch,
    bit_place_outside epoch (.inl (show 4 < 48 by decide)), bit_place_outside epoch (.inl (show 2 < 48 by decide)),
    bit_place_outside epoch (.inl (show 1 < 48 by decide)), bit_place_outside epoch (.inl (show 0 < 48 by decide)),
    bit_place_outside discard.toNat (.inl (show 2 < 4 by decide)), bit_place_outside discard.toNat (.inl (show 1 < 4 by decide)),
    bit_place_outside discard.toNat (.inl (show 0 < 4 by decide)), show bits (2 : Word) 63 48 = 0 by decide, Nat.or_zero]
  cases discard <;> exact ⟨trivial, rfl, rfl, rfl, rfl⟩

theorem exec_streamRestart {epoch : Nat} {discard : Bool} (hepoch : epoch < 2 ^ 16) (hn : n < 4) (hk : k < 16)
    (h : Admitted s i (Page.decanter n) (decOff k 0x18) (place 63 48 epoch ||| place 4 4 discard.toNat ||| 2)) :
    exec (.streamRestart i n k epoch discard) s =
      .next ((s.admittedState i (Page.decanter n) (decOff k 0x18)).decRestart n k epoch discard) := by
  obtain ⟨hword, h4, h2, h1, h0⟩ := restartWord_bits discard hepoch
  refine congrArg Host.Outcome.next ((if_pos ⟨hn, hk⟩).trans ((State.writeVia_admitted _ h).trans ?_))
  simp only [streamCtlEff, hword, h4, h2, h1, h0, Bool.false_eq_true, if_false, if_true]

/-- What a restart keeps of a stream. -/
def DecStream.restarted (x : DecStream) (discard : Bool) : DecStream :=
  if discard then { x with files := [], pageWait := none, rows := [], frames := [], lens := [] }
  else { x with files := [], pageWait := none }

/-- A stopped stream that expects the current epoch goes on. -/
theorem State.decRestart_current {epoch : Nat} (discard : Bool) (hstate : s.decState n k = 3)
    (hready : s.ready (Page.decanter n) = true) (hepoch : bits (s.decReg n k 0x28) 63 48 = epoch) :
    s.decRestart n k epoch discard =
      ((s.setDec n k ((s.dec n k).restarted discard)).decStat n k 47 40 St.ok).decArm n k := by
  refine (if_neg (by simp [hstate, hready])).trans ((if_neg (fun h => h hepoch)).trans ?_)
  cases discard <;> rfl

/-- A write of REQ_TAIL that the ring can take places the tail, and arms a stream that waited. -/
theorem exec_reqTail {v : Word} (hn : n < 4) (hk : k < 16) (h : Admitted s i (Page.decanter n) (decOff k 0x30) v)
    (hrun : s.decState n k ≠ 1)
    (hroom : ¬ (bits v 3 0 = bits (s.decReg n k 0x28) 7 4 ∧ bits (s.decReg n k 0x30) 3 0 ≠ bits (s.decReg n k 0x28) 7 4)) :
    ∃ t, t = (s.admittedState i (Page.decanter n) (decOff k 0x30)).setReg (Page.decanter n) (decOff k 0x30) (place 3 0 (bits v 3 0)) ∧
      exec (.reqTail i n k v) s = .next (if t.decState n k = 2 then t.decArm n k else t) := by
  refine ⟨_, rfl, congrArg Host.Outcome.next ((if_pos ⟨hn, hk⟩).trans ((State.writeVia_admitted _ h).trans ?_))⟩
  rw [← State.decReg_admittedState s n k i (Page.decanter n) (decOff k 0x30), ← State.decReg_admittedState s n k i
    (Page.decanter n) (decOff k 0x30) 0x30] at hroom
  rw [← State.decState_admittedState s n k i (Page.decanter n) (decOff k 0x30)] at hrun
  exact (if_neg hrun).trans (if_neg hroom)

/-! A step of a running stream (R492, R498, R505). -/

theorem exec_recordProcess (hn : n < 4) (hk : k < 16) : exec (.recordProcess n k) s = .next (s.decStep n k) :=
  congrArg Host.Outcome.next (if_pos ⟨hn, hk⟩)

end

section
variable {s : State} {n k : Nat} (hstate : s.decState n k = 1) (hready : s.ready (Page.decanter n) = true)
  (hpage : (s.dec n k).pageWait = none) (hstart : (s.dec n k).starting = false)
include hstate hready hpage hstart

/-- A stream without a request takes the next one of its ring. -/
theorem State.decStep_takes (hreq : (s.dec n k).req = none) (hring : s.decRingEmpty n k = false) :
    s.decStep n k = s.decTake n k := by
  simp [State.decStep, hstate, hready, hpage, hstart, hreq, hring]

/-- A stream that does not align works on the record of its position. -/
theorem State.decStep_places {q : DecReq} (hreq : (s.dec n k).req = some q) (hclosing : q.closing = none)
    (halign : (leAt (s.dec n k).desc 12 1).testBit 0 = false) :
    s.decStep n k = s.decNext n k (s.decPos n k) (positionOf (s.dec n k).desc (s.decPos n k)) := by
  simp [State.decStep, hstate, hready, hpage, hstart, hreq, hclosing, halign]

/-- A stream that aligns fuses the first frame of its reference once that frame can be decided. -/
theorem State.decStep_fuses {q : DecReq} {f : DecFrame} (hreq : (s.dec n k).req = some q) (hclosing : q.closing = none)
    (halign : (leAt (s.dec n k).desc 12 1).testBit 0 = true) (href : (s.dec n k).ref = some f)
    (hdecidable : (s.dec n k).decidable f (positionOf (s.dec n k).desc (s.decPos n k)).isNone = true) :
    s.decStep n k = s.decSettle n k f.pos (some (f.file, f.off)) (decFuse n k f s) := by
  simp [State.decStep, hstate, hready, hpage, hstart, hreq, hclosing, halign, href, hdecidable]

end

/-- Settles O43: STOP, START, RESTART and REQ_TAIL each have one effect where they are taken, and a step of a running stream
does the one thing that the stream is ready for. -/
theorem decantersComplete : Obligations.DecantersComplete := by
  refine ⟨?_, fun s i n k => exec_streamStop, ?_, ?_, ?_, ?_, ?_, ?_⟩
  · rintro s a b u i n k d hn hk hadm rfl hready hvalid hwritten hb hread hsound
    let v := u.decReset n k d ((s.admittedState i (Page.decanter n) (decOff k 0x18)).dec n k).req
    obtain ⟨hdec, hpos, hlast, hmem⟩ := u.decReset_shows n k d ((s.admittedState i (Page.decanter n) (decOff k 0x18)).dec n k).req
    have hdec' := (v.dec_decArm n k).trans hdec
    refine ⟨v.decArm n k, (exec_streamStart hn hk hadm).trans
      (congrArg _ (State.decStart_reads hready hvalid hwritten hb hread hsound)), ?_, ?_, ?_, (v.decPos_decArm n k).trans hpos,
      (v.stat_decArm n k (by decide) (by decide)).trans hlast, v.decState_decArm n k, (v.decArm_mem n k).trans hmem⟩
    · rw [hdec']
    · rw [hdec']
    · rw [hdec']
  · intro s i n k hn hk hadm hstate hreq
    let a := s.admittedState i (Page.decanter n) (decOff k 0x18)
    obtain ⟨h3, hreason, hstatus, hpos, hposts, hmem⟩ := State.decHalt_idle (s := a) (n := n) (k := k)
      (by rwa [State.decState_admittedState]) (by rwa [State.dec_admittedState])
    refine ⟨_, exec_streamStop hn hk hadm, h3, hreason, hstatus, hpos.trans (State.decPos_admittedState ..), ?_,
      hmem.trans (State.admittedState_mem ..)⟩
    rwa [Posts, State.reg_admittedState, State.admittedState_events] at hposts
  · intro s i n k epoch discard hn hk hadm hstate hready hepoch
    let a := s.admittedState i (Page.decanter n) (decOff k 0x18)
    let v := (a.setDec n k ((a.dec n k).restarted discard)).decStat n k 47 40 St.ok
    have hdec : (v.decArm n k).dec n k = (s.dec n k).restarted discard :=
      (v.dec_decArm n k).trans <| (a.dec_setDec n k _).trans (congrArg (·.restarted discard) (State.dec_admittedState ..))
    refine ⟨v.decArm n k, ?_, ?_, v.decState_decArm n k, ?_, ?_,
      (v.decArm_mem n k).trans (State.admittedState_mem ..)⟩
    · rw [exec_streamRestart (hepoch ▸ bits_lt ..) hn hk hadm, State.decRestart_current discard
        ((State.decState_admittedState ..).trans hstate) ((State.ready_admittedState ..).trans hready)
        ((congrArg (bits · 63 48) (State.decReg_admittedState ..)).trans hepoch)]
    · exact (v.decPos_decArm n k).trans ((State.decPos_decStat ..).trans (State.decPos_admittedState s n k ..))
    · rw [hdec]
      cases discard <;> rfl
    · rw [hdec]
      cases discard <;> rfl
  · intro s i n k v hn hk hadm hrun hroom
    obtain ⟨t, ht, hexec⟩ := exec_reqTail hn hk hadm hrun hroom
    have htail : t.decReg n k 0x30 = place 3 0 (bits v 3 0) := ht ▸ State.reg_setReg_same ..
    have hstat : t.decState n k = s.decState n k := by
      rw [ht]
      exact (congrArg (bits · 2 0) (State.reg_setReg_other _ _ _ _ _ _ (regKey_decOff_ne n k (by decide)))).trans
        (State.decState_admittedState s n k ..)
    have hdec : t.dec n k = s.dec n k := ht ▸ s.dec_admittedState n k ..
    have hmem : t.mem = s.mem := ht ▸ s.admittedState_mem ..
    rw [hstat] at hexec
    refine ⟨_, hexec, ?_⟩
    by_cases h2 : s.decState n k = 2
    · rw [if_pos h2, if_pos h2, ← hdec]
      exact ⟨(t.decReg_decStat n k 2 0 _ (by decide)).trans htail, t.decState_decArm n k, hmem⟩
    · rw [if_neg h2, if_neg h2]
      exact ⟨htail, hstat, hmem⟩
  · intro s n k hn hk hstate hready hpage hstart hreq hring
    rw [exec_recordProcess hn hk, State.decStep_takes hstate hready hpage hstart hreq hring]
  · rintro s r1 r2 r3 n k i file off p q r hn hk hstate hready hpage hstart hreq hclosing halign hpos rfl hindex hrecord hplace
    rw [exec_recordProcess hn hk, State.decStep_places hstate hready hpage hstart hreq hclosing halign, hpos]
    simp only [State.decNext, hindex, hrecord, DecGot.bind, hplace, State.decSettle]
  · intro s u n k q f hn hk hstate hready hpage hstart hreq hclosing halign href hdecidable hfuse
    rw [exec_recordProcess hn hk, State.decStep_fuses hstate hready hpage hstart hreq hclosing halign href hdecidable, hfuse,
      State.decSettle]

end Sys2Proof.Machine

/-! The service panel and the removal of bays (19_, R591 to R601): a request for a removal is asked, queued, started or ended, and
each of these is one setting of the bay's state on the panel. -/

namespace Sys2Proof.Machine

-- One proof at a time: each thread of Lean reserves a stack, and together they would pass the check's memory limit.
set_option Elab.async false

/-! A bay's registers on the panel and on its own page. -/

section
variable (s : State) (b : Nat)

theorem regKey_bay_panel (b : Nat) {o o' : Nat} (ho : o < 4096) (ho' : o' < 4096) :
    regKey (Page.bay b) o ≠ regKey Page.servicePanel o' :=
  regKey_ne_of_page (by simp only [Page.bay, Page.servicePanel]; omega) ho ho'

/-- A register of a bay's own page is none of the panel's. -/
theorem State.bayStat_setFld_panel (off h l n hi lo : Nat) (ho : off < 4096) :
    (s.setFld Page.servicePanel off h l n).bayStat b hi lo = s.bayStat b hi lo :=
  State.fld_setFld_key _ _ _ _ _ _ _ _ (regKey_bay_panel b (by decide) ho)

theorem State.bayStat_setReg_panel (off : Nat) (v : Word) (hi lo : Nat) (ho : off < 4096) :
    (s.setReg Page.servicePanel off v).bayStat b hi lo = s.bayStat b hi lo :=
  congrArg (bits · hi lo) (State.reg_setReg_other _ _ _ _ _ _ (regKey_bay_panel b (by decide) ho))

/-- The removal state is no other field of the bay's REMOVE_STATE. -/
theorem State.removal_setFld_state {hi lo : Nat} (n : Nat) (h : 2 < lo) :
    (s.setFld Page.servicePanel (Reg.REMOVE_STATE + 16 * b) hi lo n).removal b = s.removal b :=
  State.fld_setFld_other _ _ _ _ (by decide) (.inl h)

theorem State.removal_setReg_asked (v : Word) :
    (s.setReg Page.servicePanel (Reg.REMOVE_ASKED + 16 * b) v).removal b = s.removal b :=
  congrArg (bits · 2 0) (State.reg_setReg_other _ _ _ _ _ _ (regKey_ne_of_offset (by
    simp only [Reg.REMOVE_STATE, Reg.REMOVE_ASKED]; omega)))

theorem State.removal_setBayStat (hi lo n : Nat) (hb : b < 16) : (s.setBayStat b hi lo n).removal b = s.removal b :=
  State.fld_setFld_key _ _ _ _ _ _ _ _ (regKey_bay_panel b (by decide) (by simp only [Reg.REMOVE_STATE]; omega)).symm

theorem State.removal_setRemoval (st : Nat) : (s.setRemoval b st).removal b = st % 8 :=
  State.fld_setFld_same _ _ _ _ (by decide)

theorem State.removal_genEvent (code part : Nat) (payload : Word) :
    (s.genEvent Page.servicePanel code part payload).removal b = s.removal b :=
  congrArg (bits · 2 0) (State.reg_genEvent_other _ _ _ _ _ (regKey_ne_of_offset (by
    simp only [Reg.REMOVE_STATE, Reg.EV_STATUS]; omega)))

theorem State.bayStat_genEvent_panel (code part : Nat) (payload : Word) (hi lo : Nat) :
    (s.genEvent Page.servicePanel code part payload).bayStat b hi lo = s.bayStat b hi lo :=
  congrArg (bits · hi lo) (State.reg_genEvent_other _ _ _ _ _ (regKey_bay_panel b (by decide) (by decide)))

@[simp] theorem State.removal_admittedState (i : Ident) (page off : Nat) :
    (s.admittedState i page off).removal b = s.removal b := s.fld_admittedState ..

/-- Setting fields of a bay's status leaves its page's state and its other fields alone. -/
theorem State.pageState_setBayStat (hi lo n : Nat) : (s.setBayStat b hi lo n).pageState (Page.bay b) = s.pageState (Page.bay b) :=
  State.fld_setFld_key _ _ _ _ _ _ _ _ (regKey_ne_of_offset (by decide))

theorem State.bayStat_setBayStat_other {hi lo hi' lo' : Nat} (n : Nat) (h : hi' < 64) (hd : hi' < lo ∨ hi < lo') :
    (s.setBayStat b hi lo n).bayStat b hi' lo' = s.bayStat b hi' lo' :=
  State.fld_setFld_other _ _ _ _ h hd

theorem State.bayStat_setBayStat_same {hi lo : Nat} (n : Nat) (h : hi < 64) :
    (s.setBayStat b hi lo n).bayStat b hi lo = n % 2 ^ (hi + 1 - lo) :=
  State.fld_setFld_same _ _ _ _ h

/-! Queueing a removal. -/

/-- A removal that has been queued is in state 2, in the order of its turn. -/
theorem State.removal_removeQueued : (s.removeQueued b).removal b = 2 :=
  (State.removal_setFld_state _ b 0 (by decide)).trans (State.removal_setRemoval _ b 2)

theorem State.bayStat_removeQueued (hi lo : Nat) (hb : b < 16) :
    (s.removeQueued b).bayStat b hi lo = s.bayStat b hi lo :=
  (State.bayStat_setFld_panel _ b _ _ _ _ hi lo (by simp only [Reg.REMOVE_STATE]; omega)).trans
    (State.bayStat_setFld_panel _ b _ _ _ _ hi lo (by simp only [Reg.REMOVE_STATE]; omega))

theorem State.bay_removeQueued : ((s.removeQueued b).bay b).queued = s.useCtr :=
  congrArg Bay.queued (s.bay_modBay (b := b) fun x => { x with queued := s.useCtr })

theorem State.reg_removeQueued_asked : (s.removeQueued b).reg Page.servicePanel (Reg.REMOVE_ASKED + 16 * b) =
    s.reg Page.servicePanel (Reg.REMOVE_ASKED + 16 * b) := by
  have key : regKey Page.servicePanel (Reg.REMOVE_ASKED + 16 * b) ≠ regKey Page.servicePanel (Reg.REMOVE_STATE + 16 * b) :=
    regKey_ne_of_offset (by simp only [Reg.REMOVE_STATE, Reg.REMOVE_ASKED]; omega)
  exact (State.reg_setFld_other _ _ _ _ _ _ _ _ key).trans (State.reg_setFld_other _ _ _ _ _ _ _ _ key)

/-! Asking for a removal (R594): the partitions `ps` are asked. -/

/-- A bay whose removal the partitions `ps` are asked about, before their events. -/
def State.removeAsked (s : State) (b : Nat) (ps : List Nat) : State :=
  let mask := ps.foldl (fun m p => m + 2 ^ p) 0
  let s := (s.setBayStat b 0 0 1).setRemoval b 1
  let s := (s.setReg Page.servicePanel (Reg.REMOVE_ASKED + 16 * b) (BitVec.ofNat 64 mask)).setFld Page.servicePanel
    (Reg.REMOVE_STATE + 16 * b) 30 16 30000
  s.modBay b fun x => { x with askedAt := s.panelTime.toNat, asked := mask }

theorem State.removeAsked_shows (ps : List Nat) (hb : b < 16) : (s.removeAsked b ps).removal b = 1 ∧
    (s.removeAsked b ps).bayStat b 0 0 = 1 ∧ (s.removeAsked b ps).mem = s.mem := by
  have hstate : Reg.REMOVE_STATE + 16 * b < 4096 := by simp only [Reg.REMOVE_STATE]; omega
  have hasked : Reg.REMOVE_ASKED + 16 * b < 4096 := by simp only [Reg.REMOVE_ASKED]; omega
  exact ⟨(State.removal_setFld_state _ b _ (by decide)).trans ((State.removal_setReg_asked _ b _).trans (State.removal_setRemoval _ b 1)),
    (State.bayStat_setFld_panel _ b _ _ _ _ 0 0 hstate).trans ((State.bayStat_setReg_panel _ b _ _ 0 0 hasked).trans
      ((State.bayStat_setFld_panel _ b _ _ _ _ 0 0 hstate).trans (State.bayStat_setBayStat_same s b 1 (by decide)))), rfl⟩

/-- A removal that is asked for waits for the partitions that use the bay, and is queued at once where none does. -/
theorem State.removeStart_shows (hb : b < 16) : (s.removeStart b).bayStat b 0 0 = 1 ∧ (s.removeStart b).mem = s.mem ∧
    (s.removeStart b).removal b = (if s.poolOwners b = [] then 2 else 1) := by
  let u := (s.poolOwners b).foldl (fun s p => s.genEvent Page.servicePanel 0x02F3 p (place 3 0 b)) (s.removeAsked b (s.poolOwners b))
  have hu : u.removal b = 1 ∧ u.bayStat b 0 0 = 1 ∧ u.mem = s.mem :=
    foldl_inv (P := fun t : State => t.removal b = 1 ∧ t.bayStat b 0 0 = 1 ∧ t.mem = s.mem) _
      (fun t p ⟨hremoval, hlight, hmem⟩ => ⟨(t.removal_genEvent b ..).trans hremoval, (t.bayStat_genEvent_panel b ..).trans hlight,
        (t.genEvent_mem ..).trans hmem⟩) (s.removeAsked_shows b _ hb)
  obtain ⟨hremoval, hlight, hmem⟩ := hu
  have hstart : s.removeStart b = if s.poolOwners b = [] then u.removeQueued b else u := rfl
  rw [hstart]
  split
  · exact ⟨(u.bayStat_removeQueued b 0 0 hb).trans hlight, hmem, u.removal_removeQueued b⟩
  · exact ⟨hlight, hmem, hremoval⟩

/-! Ending a removal (R595). -/

/-- A removal that has ended, before its event. -/
def State.removeCleared (s : State) (b reason refuser : Nat) : State :=
  let s := (s.setRemoval b 0).setFld Page.servicePanel (Reg.REMOVE_STATE + 16 * b) 30 16 0
  let s := if reason = 1 then s.setFld Page.servicePanel (Reg.REMOVE_STATE + 16 * b) 45 40 refuser else s
  let s := (s.setReg Page.servicePanel (Reg.REMOVE_ASKED + 16 * b) 0).setBayStat b 0 0 0
  s.modBay b fun x => { x with endedAt := some s.panelTime.toNat, asked := 0 }

theorem State.removeEnd_eq (reason refuser : Nat) : ∃ payload, s.removeEnd b reason refuser =
    (s.removeCleared b reason refuser).genEvent Page.servicePanel 0x02F4 0 payload := ⟨_, rfl⟩

theorem State.removeCleared_refused (refuser : Nat) (hb : b < 16) : (s.removeCleared b 1 refuser).removal b = 0 ∧
    (s.removeCleared b 1 refuser).bayStat b 0 0 = 0 ∧ (s.removeCleared b 1 refuser).events = s.events ∧
    (s.removeCleared b 1 refuser).mem = s.mem ∧
    (s.removeCleared b 1 refuser).reg Page.servicePanel Reg.EV_ENABLE = s.reg Page.servicePanel Reg.EV_ENABLE := by
  have key (o : Nat) (ho : 0x200 ≤ o) : regKey Page.servicePanel Reg.EV_ENABLE ≠ regKey Page.servicePanel o :=
    regKey_ne_of_offset (by simp only [Reg.EV_ENABLE]; omega)
  have hstate : 0x200 ≤ Reg.REMOVE_STATE + 16 * b := by simp only [Reg.REMOVE_STATE]; omega
  have hasked : 0x200 ≤ Reg.REMOVE_ASKED + 16 * b := by simp only [Reg.REMOVE_ASKED]; omega
  refine ⟨?_, State.bayStat_setBayStat_same _ b 0 (by decide), rfl, rfl, ?_⟩
  · exact (State.removal_setBayStat _ b 0 0 0 hb).trans ((State.removal_setReg_asked _ b 0).trans
      ((State.removal_setFld_state _ b _ (by decide)).trans ((State.removal_setFld_state _ b 0 (by decide)).trans
        (State.removal_setRemoval _ b 0))))
  · exact (State.reg_setFld_other _ _ _ _ _ _ _ _ (regKey_bay_panel b (by decide) (by decide)).symm).trans
      ((State.reg_setReg_other _ _ _ _ _ _ (key _ hasked)).trans ((State.reg_setFld_other _ _ _ _ _ _ _ _ (key _ hstate)).trans
        ((State.reg_setFld_other _ _ _ _ _ _ _ _ (key _ hstate)).trans (State.reg_setFld_other _ _ _ _ _ _ _ _ (key _ hstate)))))

end

/-! The commands of the panel and of a bay. -/

section
variable {s : State} {b : Nat}

theorem exec_identifyWrite {i : Ident} {v : Word} (h : Admitted s i Page.servicePanel Reg.SP_STAT v) :
    exec (.identifyWrite i v) s = .next ((s.admittedState i Page.servicePanel Reg.SP_STAT).setFld Page.servicePanel Reg.SP_STAT 0 0
      (bits v 0 0)) :=
  congrArg Host.Outcome.next (State.writeVia_admitted _ h)

/-- The button of a bay that is present and READY, for which no removal is under way, asks for one (R594). -/
theorem exec_bayButtonPress_starts {ms : Nat} (hb : b < 16) (hms : 50 ≤ ms) (hpresent : s.bayStat b 1 1 = 1) (hnone : s.removal b = 0)
    (hready : s.pageState (Page.bay b) = PS.ready) : exec (.bayButtonPress b ms) s = .next (s.removeStart b) := by
  show execBayButtonPress b ms s = _
  rw [execBayButtonPress, Nat.mod_eq_of_lt hb]
  refine congrArg Host.Outcome.next ((if_neg (by omega)).trans ?_)
  rw [hnone]
  exact if_pos hready

/-- The state in which an answer about a bay's removal takes effect. -/
def State.answered (s : State) (b : Nat) : State :=
  (s.admittedState .mgmt Page.servicePanel Reg.REMOVE_ANSWER).setFld Page.servicePanel (Reg.REMOVE_STATE + 16 * b) 63 56 St.ok

theorem State.answered_keeps (s : State) (b : Nat) : (s.answered b).mem = s.mem ∧ (s.answered b).events = s.events ∧
    (s.answered b).reg Page.servicePanel Reg.EV_ENABLE = s.reg Page.servicePanel Reg.EV_ENABLE :=
  ⟨s.admittedState_mem .., s.admittedState_events .., (State.reg_setFld_other _ _ _ _ _ _ _ _
    (regKey_ne_of_offset (by simp only [Reg.EV_ENABLE, Reg.REMOVE_STATE]; omega))).trans (s.reg_admittedState ..)⟩

/-- The management controller's answer to a removal that is asked for, under the page's epoch: consent queues it, a refusal ends
it (R595). -/
theorem exec_removeAnswer {v : Word} (h : Admitted s .mgmt Page.servicePanel Reg.REMOVE_ANSWER v) (hb : b = bits v 11 8)
    (hasked : s.removal b = 1) (hepoch : bits v 63 48 = s.epoch (Page.bay b)) :
    (bits v 1 0 = 1 → exec (.removeAnswer .mgmt v) s =
      .next (((s.answered b).setReg Page.servicePanel (Reg.REMOVE_ASKED + 16 * b) 0).removeQueued b)) ∧
    (bits v 1 0 = 2 → ∃ refuser, exec (.removeAnswer .mgmt v) s = .next ((s.answered b).removeEnd b 1 refuser)) := by
  let a := s.admittedState .mgmt Page.servicePanel Reg.REMOVE_ANSWER
  have hexec : exec (.removeAnswer .mgmt v) s = .next (removeAnswerEff .mgmt v a) :=
    congrArg Host.Outcome.next (State.writeVia_admitted _ h)
  have hmay : ¬ (a.removal b ≠ 1 ∨ !true) := by
    rw [State.removal_admittedState]
    simp [hasked]
  have hcurrent : ¬ bits v 63 48 ≠ a.epoch (Page.bay b) := by
    rw [State.epoch_admittedState]
    exact not_not.mpr hepoch
  subst hb
  constructor
  · intro hconsent
    exact hexec.trans (congrArg Host.Outcome.next ((if_neg (by omega)).trans ((if_neg hmay).trans ((if_neg hcurrent).trans
      ((if_neg (by omega)).trans (if_pos rfl))))))
  · intro hrefuse
    exact ⟨_, hexec.trans (congrArg Host.Outcome.next ((if_neg (by omega)).trans ((if_neg hmay).trans ((if_neg hcurrent).trans
      (if_pos hrefuse)))))⟩

/-- 30 s without the last consent queue a removal (R594). -/
theorem exec_consentTimeout (hb : b < 16) (hasked : s.removal b = 1) (hlate : (s.bay b).askedAt + 30000000000 ≤ s.panelTime.toNat) :
    exec (.consentTimeout b) s = .next (s.removeQueued b) := by
  show execConsentTimeout b s = _
  rw [execConsentTimeout, Nat.mod_eq_of_lt hb]
  exact congrArg Host.Outcome.next (if_pos ⟨hasked, hlate⟩)

/-- The removal at the head of the queue starts its evacuation while none runs (R596). -/
theorem exec_evacQueueStart (hb : b < 16) (hqueued : s.removal b = 2)
    (hfirst : ∀ c, c < 16 → s.removal c = 2 → (s.bay b).queued ≤ (s.bay c).queued) (hidle : ∀ c, c < 16 → s.bayStat c 5 5 = 0) :
    exec (.evacQueueStart b) s = .next ((s.setRemoval b 3).bayEvac b false) := by
  have first : ((List.range 16).all fun c => decide (s.removal c ≠ 2 ∨ (s.bay b).queued ≤ (s.bay c).queued)) = true :=
    List.all_eq_true.mpr fun c hc => decide_eq_true <| (em (s.removal c = 2)).elim
      (fun h => .inr (hfirst c (List.mem_range.mp hc) h)) .inl
  have idle : ((List.range 16).all fun c => decide (s.bayStat c 5 5 = 0)) = true :=
    List.all_eq_true.mpr fun c hc => decide_eq_true (hidle c (List.mem_range.mp hc))
  show execEvacQueueStart b s = _
  rw [execEvacQueueStart, Nat.mod_eq_of_lt hb]
  exact congrArg Host.Outcome.next (if_pos ⟨hqueued, first, idle⟩)

/-- A latch that opens on an evacuated bay ends the bay's power (R598). -/
theorem exec_latchOpen_evacuated (absent : Bool) (hb : b < 16) (hquiesced : s.pageState (Page.bay b) = PS.quiesced)
    (hdone : (s.bay b).evacDone = true) :
    exec (.latchOpen b absent) s = .next (((s.setBayStat b 2 2 0).setRemoval b 0).bayPowerOff b absent) := by
  show execLatchOpen b absent s = _
  rw [execLatchOpen, Nat.mod_eq_of_lt hb]
  exact congrArg Host.Outcome.next (if_pos ⟨(s.pageState_setBayStat b 2 2 0).trans hquiesced, hdone⟩)

end

/-! A cartridge that is inserted (R601, R627). -/

section
variable (s : State) (b : Nat)

/-- A bay that has been given power for a cartridge. -/
def State.bayPowered (s : State) (b capacity rate : Nat) (sane fit : Bool) : State :=
  let s := ((s.setBayStat b 1 1 1).setBayStat b 2 2 1).setFld (Page.bay b) Reg.PAGE_CTL 1 1 0
  s.modBay b fun _ => { lostCopy := (s.bay b).lostCopy, reported := capacity, sane := sane, fit := fit, rate := rate }

/-- A bay whose link has trained to a width. -/
def State.bayTrained (s : State) (b width : Nat) : State :=
  ((s.setBayStat b 3 3 1).setBayStat b 20 16 width).refreshBayRate b

/-- A bay that has agreed on a protocol version. -/
def State.bayVersioned (s : State) (b version capacity : Nat) : State :=
  (s.setFld (Page.bay b) Reg.VER_ACTIVE 15 0 version).modBay b fun x => { x with capacity := min capacity 0x20000000000 }

/-- A bay that has agreed on a protocol version and enters INIT. -/
def State.bayAgreed (s : State) (b version capacity : Nat) : State :=
  (s.bayVersioned b version capacity).setFld (Page.bay b) Reg.PAGE_STATE 3 0 PS.init

@[simp] theorem State.reg_modBay (f : Bay → Bay) (p o : Nat) : (s.modBay b f).reg p o = s.reg p o := rfl

@[simp] theorem State.bayStat_modBay (c : Nat) (f : Bay → Bay) (hi lo : Nat) : (s.modBay c f).bayStat b hi lo = s.bayStat b hi lo := rfl

/-- The registers of a bay that its power leaves alone. -/
theorem State.reg_bayPowered {p o : Nat} (capacity rate : Nat) (sane fit : Bool) (hstat : regKey p o ≠ regKey (Page.bay b) bayStatOff)
    (hctl : regKey p o ≠ regKey (Page.bay b) Reg.PAGE_CTL) : (s.bayPowered b capacity rate sane fit).reg p o = s.reg p o := by
  rw [State.bayPowered, State.reg_modBay]
  exact (State.reg_setFld_other _ _ _ _ _ _ _ _ hctl).trans ((State.reg_setFld_other _ _ _ _ _ _ _ _ hstat).trans
    (State.reg_setFld_other _ _ _ _ _ _ _ _ hstat))

theorem State.bayStat_bayPowered (capacity rate : Nat) (sane fit : Bool) :
    (s.bayPowered b capacity rate sane fit).bayStat b 1 1 = 1 ∧ (s.bayPowered b capacity rate sane fit).bayStat b 2 2 = 1 := by
  have key : regKey (Page.bay b) bayStatOff ≠ regKey (Page.bay b) Reg.PAGE_CTL := regKey_ne_of_offset (by decide)
  rw [State.bayPowered, State.bayStat_modBay, State.bayStat_modBay]
  exact ⟨(State.fld_setFld_key _ _ _ _ _ _ _ _ key).trans ((State.bayStat_setBayStat_other _ b 1 (by decide) (.inl (by decide))).trans
    (State.bayStat_setBayStat_same s b 1 (by decide))),
    (State.fld_setFld_key _ _ _ _ _ _ _ _ key).trans (State.bayStat_setBayStat_same _ b 1 (by decide))⟩

theorem State.refreshBayRate_eq : ∃ r, s.refreshBayRate b = { s with regs := r } := by
  rw [State.refreshBayRate]
  split
  · exact ⟨_, rfl⟩
  · exact ⟨_, rfl⟩

theorem State.reg_refreshBayRate {p o : Nat} (h : regKey p o ≠ regKey (Page.bay b) bayStatOff) :
    (s.refreshBayRate b).reg p o = s.reg p o := by
  rw [State.refreshBayRate]
  split
  · rfl
  · exact State.reg_setFld_other _ _ _ _ _ _ _ _ h

theorem State.bayTrained_keeps (width : Nat) : (s.bayTrained b width).mem = s.mem ∧ (s.bayTrained b width).events = s.events ∧
    ∀ p o, regKey p o ≠ regKey (Page.bay b) bayStatOff → (s.bayTrained b width).reg p o = s.reg p o := by
  refine ⟨State.refreshBayRate_mem .., ?_, fun p o h => (State.reg_refreshBayRate _ b h).trans
    ((State.reg_setFld_other _ _ _ _ _ _ _ _ h).trans (State.reg_setFld_other _ _ _ _ _ _ _ _ h))⟩
  obtain ⟨r, hr⟩ := ((s.setBayStat b 3 3 1).setBayStat b 20 16 width).refreshBayRate_eq b
  rw [State.bayTrained, hr]
  rfl

theorem State.bayStat_bayTrained {width : Nat} (hwidth : width < 32) : (s.bayTrained b width).bayStat b 1 1 = s.bayStat b 1 1 ∧
    (s.bayTrained b width).bayStat b 2 2 = s.bayStat b 2 2 ∧ (s.bayTrained b width).bayStat b 3 3 = 1 ∧
    (s.bayTrained b width).bayStat b 20 16 = width := by
  unfold State.bayTrained
  simp (disch := decide) only [State.bayStat_refreshBayRate, State.bayStat_setBayStat_other, State.bayStat_setBayStat_same]
  exact ⟨trivial, trivial, rfl, Nat.mod_eq_of_lt hwidth⟩

theorem State.bay_bayVersioned (version capacity : Nat) :
    (s.bayVersioned b version capacity).bay b = { s.bay b with capacity := min capacity 0x20000000000 } := State.bay_modBay ..

theorem State.bay_bayAgreed (version capacity : Nat) :
    (s.bayAgreed b version capacity).bay b = { s.bay b with capacity := min capacity 0x20000000000 } := by
  rw [State.bayAgreed, State.bay_setFld, State.bay_bayVersioned]

theorem State.bayAgreed_keeps (version capacity : Nat) : (s.bayAgreed b version capacity).mem = s.mem ∧
    (s.bayAgreed b version capacity).events = s.events := ⟨rfl, rfl⟩

theorem State.bayPowered_keeps (capacity rate : Nat) (sane fit : Bool) : (s.bayPowered b capacity rate sane fit).mem = s.mem ∧
    (s.bayPowered b capacity rate sane fit).events = s.events := ⟨rfl, rfl⟩

/-- The registers that the agreement on a version leaves alone. -/
theorem State.reg_bayAgreed {p o : Nat} (version capacity : Nat) (hver : regKey p o ≠ regKey (Page.bay b) Reg.VER_ACTIVE)
    (hstate : regKey p o ≠ regKey (Page.bay b) Reg.PAGE_STATE) : (s.bayAgreed b version capacity).reg p o = s.reg p o :=
  (State.reg_setFld_other _ _ _ _ _ _ _ _ hstate).trans (State.reg_setFld_other _ _ _ _ _ _ _ _ hver)

theorem State.version_bayAgreed (version capacity : Nat) :
    (s.bayAgreed b version capacity).fld (Page.bay b) Reg.VER_ACTIVE 15 0 = version % 65536 :=
  (State.fld_setFld_key _ _ _ _ _ _ _ _ (regKey_ne_of_offset (by decide))).trans (State.fld_setFld_same s _ _ _ (by decide))

/-- A bay after an insertion that powers it, trains its link and agrees on a version. -/
def State.bayInserted (s : State) (b width rate version capacity : Nat) (sane fit : Bool) : State :=
  ((s.bayPowered b capacity rate sane fit).bayTrained b width).bayAgreed b version capacity

theorem exec_cartridgeInsert {s : State} {b width rate capacity version : Nat} {advert : Word} {sane fit : Bool} (hb : b < 16)
    (hwidth : 1 ≤ width) (hoff : s.pageState (Page.bay b) = PS.off) (hrun : s.boot.running = false)
    (hpower : s.unpowered.contains (Page.portDie (b / 4)) = false)
    (hversion : version = negotiate (sideOf (s.reg (Page.bay b) Reg.VER_SUPPORT).toNat) (sideOf advert.toNat)) (hsome : version ≠ 0)
    (hboot : s.fld Page.pmc Reg.BOOT_STAT 3 0 ≠ 6) : exec (.cartridgeInsert b width rate advert capacity sane fit) s =
      .next ((s.bayInserted b width rate version capacity sane fit).genEvent (Page.bay b) 0x02F5 0 (place 3 0 b)) := by
  have hsupport : (s.bayPowered b capacity rate sane fit).reg (Page.bay b) Reg.VER_SUPPORT = s.reg (Page.bay b) Reg.VER_SUPPORT :=
    s.reg_bayPowered b capacity rate sane fit (regKey_ne_of_offset (by decide)) (regKey_ne_of_offset (by decide))
  have pmc (o : Nat) (ho : o < 4096) : regKey Page.pmc Reg.BOOT_STAT ≠ regKey (Page.bay b) o :=
    regKey_ne_of_page (by simp only [Page.bay, Page.pmc]; omega) (by decide) ho
  have hphase : ((s.bayInserted b width rate version capacity sane fit).genEvent (Page.bay b) 0x02F5 0 (place 3 0 b)).reg Page.pmc
      Reg.BOOT_STAT = s.reg Page.pmc Reg.BOOT_STAT :=
    (State.reg_genEvent_other _ _ _ _ _ (pmc _ (by decide))).trans
      ((State.reg_bayAgreed _ b _ _ (pmc _ (by decide)) (pmc _ (by decide))).trans
        (((State.bayTrained_keeps _ b width).2.2 _ _ (pmc _ (by decide))).trans
          (State.reg_bayPowered _ b _ _ _ _ (pmc _ (by decide)) (pmc _ (by decide)))))
  have hstarted : ¬ (s.boot.running && decide (s.fld Page.pmc Reg.BOOT_STAT 3 0 < 6 ∨ s.fld Page.pmc Reg.BOOT_STAT 3 0 = 15) ||
      s.unpowered.contains (Page.portDie (b / 4))) = true := by
    rw [hrun, hpower, Bool.false_and, Bool.or_false]
    exact Bool.false_ne_true
  rw [← hsupport] at hversion
  subst hversion
  show execCartridgeInsert b width rate advert capacity sane fit s = _
  rw [execCartridgeInsert, Nat.mod_eq_of_lt hb]
  refine congrArg Host.Outcome.next ((if_neg (not_not.mpr hoff)).trans ((if_neg hstarted).trans
    ((if_neg (by omega)).trans ((if_neg hsome).trans ?_))))
  have hinit : (((s.bayPowered b capacity rate sane fit).bayTrained b width).bayVersioned b (negotiate (sideOf
      ((s.bayPowered b capacity rate sane fit).reg (Page.bay b) Reg.VER_SUPPORT).toNat) (sideOf advert.toNat)) capacity).enterState
      (Page.bay b) PS.init = s.bayInserted b width rate (negotiate (sideOf
      ((s.bayPowered b capacity rate sane fit).reg (Page.bay b) Reg.VER_SUPPORT).toNat) (sideOf advert.toNat)) capacity sane fit :=
    State.enterState_of_ne _ _ (by decide)
  have hevent := congrArg (State.genEvent · (Page.bay b) 0x02F5 0 (place 3 0 b)) hinit
  exact (if_neg fun h => hboot ((congrArg (bits · 3 0) ((congrArg (State.reg · Page.pmc Reg.BOOT_STAT) hevent).trans hphase)).symm.trans
    h.1)).trans hevent

/-- What a bay shows once a cartridge has been admitted to INIT. -/
theorem State.bayInserted_shows {width : Nat} (rate version capacity : Nat) (sane fit : Bool) (hwidth : width < 32) :
    (s.bayInserted b width rate version capacity sane fit).pageState (Page.bay b) = PS.init ∧
    (s.bayInserted b width rate version capacity sane fit).bayStat b 1 1 = 1 ∧
    (s.bayInserted b width rate version capacity sane fit).bayStat b 2 2 = 1 ∧
    (s.bayInserted b width rate version capacity sane fit).bayStat b 3 3 = 1 ∧
    (s.bayInserted b width rate version capacity sane fit).bayStat b 20 16 = width ∧
    (s.bayInserted b width rate version capacity sane fit).fld (Page.bay b) Reg.VER_ACTIVE 15 0 = version % 65536 ∧
    ((s.bayInserted b width rate version capacity sane fit).bay b).capacity = min capacity 0x20000000000 := by
  let u := (s.bayPowered b capacity rate sane fit).bayTrained b width
  have hstat (hi lo : Nat) : (u.bayAgreed b version capacity).bayStat b hi lo = u.bayStat b hi lo :=
    congrArg (bits · hi lo) (u.reg_bayAgreed b _ _ (regKey_ne_of_offset (by decide)) (regKey_ne_of_offset (by decide)))
  obtain ⟨hpresent, hlatched⟩ := s.bayStat_bayPowered b capacity rate sane fit
  obtain ⟨h1, h2, h3, hw⟩ := (s.bayPowered b capacity rate sane fit).bayStat_bayTrained b hwidth
  exact ⟨State.fld_setFld_same _ _ _ _ (by decide), (hstat 1 1).trans (h1.trans hpresent), (hstat 2 2).trans (h2.trans hlatched),
    (hstat 3 3).trans h3, (hstat 20 16).trans hw, u.version_bayAgreed b version capacity,
    congrArg Bay.capacity (u.bay_bayAgreed b version capacity)⟩

theorem State.bayInserted_keeps (width rate version capacity : Nat) (sane fit : Bool) :
    (s.bayInserted b width rate version capacity sane fit).mem = s.mem ∧
    (s.bayInserted b width rate version capacity sane fit).events = s.events ∧
    (s.bayInserted b width rate version capacity sane fit).reg (Page.bay b) Reg.EV_ENABLE = s.reg (Page.bay b) Reg.EV_ENABLE := by
  obtain ⟨hmem, hevents, hreg⟩ := (s.bayPowered b capacity rate sane fit).bayTrained_keeps b width
  obtain ⟨hmem0, hevents0⟩ := s.bayPowered_keeps b capacity rate sane fit
  obtain ⟨hmem1, hevents1⟩ := ((s.bayPowered b capacity rate sane fit).bayTrained b width).bayAgreed_keeps b version capacity
  exact ⟨hmem1.trans (hmem.trans hmem0), hevents1.trans (hevents.trans hevents0), (State.reg_bayAgreed _ b _ _ (regKey_ne_of_offset (by decide)) (regKey_ne_of_offset (by decide))).trans
    ((hreg _ _ (regKey_ne_of_offset (by decide))).trans
      (s.reg_bayPowered b _ _ _ _ (regKey_ne_of_offset (by decide)) (regKey_ne_of_offset (by decide))))⟩

end

/-- Settles O29: every control of the panel and of a bay posts its event or sets the bay's removal, and an insertion that trains
and agrees on a version leaves the bay in INIT. -/
theorem removalCompletes : Obligations.RemovalCompletes := by
  refine ⟨?_, ?_, ?_, ?_, ?_, ?_, ?_, ?_, ?_, ?_⟩
  · intro s ms hlow hhigh
    refine ⟨_, congrArg Host.Outcome.next (if_pos ⟨hlow, hhigh⟩),
      State.posts_genEvent _ _ rfl (State.reg_setFld_other _ _ _ _ _ _ _ _ (regKey_ne_of_offset (by decide))), ?_⟩
    refine (congrArg (bits · 63 32) (State.reg_genEvent_other _ _ _ _ _ (regKey_ne_of_offset (by decide)))).trans
      ((State.fld_setFld_same _ _ _ _ (by decide)).trans (Nat.mod_mod _ _))
  · intro s
    refine ⟨_, rfl, State.posts_genEvent _ _ rfl (State.reg_setFld_other _ _ _ _ _ _ _ _ (regKey_ne_of_offset (by decide))), ?_⟩
    refine (congrArg (bits · 0 0) (State.reg_genEvent_other _ _ _ _ _ (regKey_ne_of_offset (by decide)))).trans
      ((State.fld_setFld_same _ _ _ _ (by decide)).trans (Nat.mod_eq_of_lt (by omega)))
  · intro s i v hadm
    exact ⟨_, exec_identifyWrite hadm, (State.fld_setFld_same _ _ _ _ (by decide)).trans (Nat.mod_eq_of_lt (bits_lt ..)),
      s.admittedState_events .., s.admittedState_mem ..⟩
  · intro s code source
    exact ⟨_, rfl, State.posts_genEvent _ _ rfl rfl, State.genEvent_mem ..⟩
  · intro s b ms hb hms hpresent hnone hready
    exact ⟨_, exec_bayButtonPress_starts hb hms hpresent hnone hready, s.removeStart_shows b hb⟩
  · intro s v b hadm hb hasked hepoch
    have hb16 : b < 16 := hb ▸ bits_lt v 11 8
    obtain ⟨hmem, hevents, henable⟩ := s.answered_keeps b
    obtain ⟨hconsent, hrefuse⟩ := exec_removeAnswer hadm hb hasked hepoch
    refine ⟨fun h => ⟨_, hconsent h, State.removal_removeQueued .., (State.reg_removeQueued_asked ..).trans (State.reg_setReg_same ..),
      hmem⟩, fun h => ?_⟩
    obtain ⟨refuser, hexec⟩ := hrefuse h
    obtain ⟨payload, hend⟩ := (s.answered b).removeEnd_eq b 1 refuser
    obtain ⟨hremoval, hlight, hevents', hmem', henable'⟩ := (s.answered b).removeCleared_refused b refuser hb16
    refine ⟨_, hexec, ?_⟩
    rw [hend]
    exact ⟨(State.removal_genEvent ..).trans hremoval, (State.bayStat_genEvent_panel ..).trans hlight,
      State.posts_genEvent _ _ (hevents'.trans hevents) (henable'.trans henable), (State.genEvent_mem ..).trans (hmem'.trans hmem)⟩
  · intro s b hb hasked hlate
    exact ⟨_, exec_consentTimeout hb hasked hlate, s.removal_removeQueued b, s.bay_removeQueued b, rfl⟩
  · intro s b
    exact exec_evacQueueStart
  · intro s b absent
    exact exec_latchOpen_evacuated absent
  · intro s b width rate capacity version advert sane fit hb hwidth hwide hoff hrun hpower hversion hsome hboot
    refine ⟨_, exec_cartridgeInsert hb hwidth hoff hrun hpower hversion hsome hboot, ?_⟩
    have hevent (o : Nat) (h : o / 8 ≠ Reg.EV_STATUS / 8) : ((s.bayInserted b width rate version capacity sane fit).genEvent (Page.bay b)
        0x02F5 0 (place 3 0 b)).reg (Page.bay b) o = (s.bayInserted b width rate version capacity sane fit).reg (Page.bay b) o :=
      State.reg_genEvent_other _ _ _ _ _ (regKey_ne_of_offset h)
    obtain ⟨hstate, h1, h2, h3, hw, hver, hcapacity⟩ := s.bayInserted_shows b rate version capacity sane fit hwide
    obtain ⟨hmem, hevents, henable⟩ := s.bayInserted_keeps b width rate version capacity sane fit
    have hstat (hi lo : Nat) := congrArg (bits · hi lo) (hevent bayStatOff (by decide))
    exact ⟨(State.pageState_genEvent ..).trans hstate, (hstat 1 1).trans h1, (hstat 2 2).trans h2, (hstat 3 3).trans h3,
      (hstat 20 16).trans hw, (congrArg (bits · 15 0) (hevent _ (by decide))).trans hver,
      (congrArg Bay.capacity (State.bay_genEvent ..)).trans hcapacity, State.posts_genEvent _ _ hevents henable,
      (State.genEvent_mem ..).trans hmem⟩

end Sys2Proof.Machine

/-! Sparing, row skips and the core window (R573 to R581, R103, R104, R620, R621): what a write of SPARE_CTL asks for, what a failed
die, a lost hub and a changed capacity leave, and the state of the core that the window selects. -/

namespace Sys2Proof.Machine

-- One proof at a time: each thread of Lean reserves a stack, and together they would pass the check's memory limit.
set_option Elab.async false

/-! SPARE_CTL (R576 to R578). -/

section
variable {op l p epoch : Nat}

/-- The fields of a word with GO. -/
theorem bits_spareWord (auto : Bool) (hop : op < 2) (hl : l < 64) (hp : p < 72) (hepoch : epoch < 2 ^ 16) :
    bits (spareWord op l p epoch auto) 57 56 = op ∧ bits (spareWord op l p epoch auto) 47 32 = epoch ∧
    bits (spareWord op l p epoch auto) 13 8 = l ∧ bits (spareWord op l p epoch auto) 6 0 = p := by
  simp (disch := decide) only [spareWord, bits_or, bits_place_same, bits_place_other, Nat.or_zero, Nat.zero_or]
  exact ⟨Nat.mod_eq_of_lt (by omega), Nat.mod_eq_of_lt hepoch, Nat.mod_eq_of_lt (by omega), Nat.mod_eq_of_lt (by omega)⟩

theorem bit_spareWord_go (auto : Bool) : bit (spareWord op l p epoch auto) 63 = true := by
  rw [spareWord, bit_or, bit_or, bit_or, bit_or, bit_or, bit_place 1 (Nat.le_refl 63) (Nat.le_refl 63) (by decide)]
  rfl

/-- SPARE_CTL keeps the fields of the word written. -/
theorem spare_fields_storeWrite (s : State) (auto : Bool) (hop : op < 2) (hl : l < 64) (hp : p < 72) (hepoch : epoch < 2 ^ 16) :
    (s.storeWrite Page.device Reg.SPARE_CTL (spareWord op l p epoch auto)).fld Page.device Reg.SPARE_CTL 57 56 = op ∧
    (s.storeWrite Page.device Reg.SPARE_CTL (spareWord op l p epoch auto)).fld Page.device Reg.SPARE_CTL 47 32 = epoch ∧
    (s.storeWrite Page.device Reg.SPARE_CTL (spareWord op l p epoch auto)).fld Page.device Reg.SPARE_CTL 13 8 = l ∧
    (s.storeWrite Page.device Reg.SPARE_CTL (spareWord op l p epoch auto)).fld Page.device Reg.SPARE_CTL 6 0 = p := by
  have loads {f : FieldSpec} := s.fld_storeWrite_field (f := f) (spareWord op l p epoch auto) (show pageKind Page.device = some .device by decide)
    (show findReg .device Reg.SPARE_CTL = some deviceRegs[7] by decide) (by unfold apart; decide)
  obtain ⟨h1, h2, h3, h4⟩ := bits_spareWord auto hop hl hp hepoch
  have hop' : (fldR 57 56 .rw 0x0 [(2, 3)]).isReserved (bits (spareWord op l p epoch auto) 57 56) = false := by
    rw [h1]; simp [FieldSpec.isReserved, fldR]; omega
  have hp' : (fldR 6 0 .rw 0x0 [(72, 127)]).isReserved (bits (spareWord op l p epoch auto) 6 0) = false := by
    rw [h4]; simp [FieldSpec.isReserved, fldR]; omega
  exact ⟨(loads (f := fldR 57 56 .rw 0x0 [(2, 3)]) (by decide) (by decide) rfl hop').trans h1,
    (loads (f := fld 47 32 .rw 0x0) (by decide) (by decide) rfl rfl).trans h2,
    (loads (f := fld 13 8 .rw 0x0) (by decide) (by decide) rfl rfl).trans h3,
    (loads (f := fldR 6 0 .rw 0x0 [(72, 127)]) (by decide) (by decide) rfl hp').trans h4⟩

/-- What the decision about a SPARE_CTL command rests on. -/
theorem State.spare_storeWrite (s : State) (i : Ident) (v : Word) :
    (∀ p o, regKey p o ≠ regKey Page.device Reg.SPARE_CTL →
      ((s.admittedState i Page.device Reg.SPARE_CTL).storeWrite Page.device Reg.SPARE_CTL v).reg p o = s.reg p o) ∧
    ((s.admittedState i Page.device Reg.SPARE_CTL).storeWrite Page.device Reg.SPARE_CTL v).cores = s.cores ∧
    ((s.admittedState i Page.device Reg.SPARE_CTL).storeWrite Page.device Reg.SPARE_CTL v).binds = s.binds ∧
    ((s.admittedState i Page.device Reg.SPARE_CTL).storeWrite Page.device Reg.SPARE_CTL v).mem = s.mem := by
  obtain ⟨r, w, h⟩ := (s.admittedState i Page.device Reg.SPARE_CTL).storeWrite_eq Page.device Reg.SPARE_CTL v
  obtain ⟨l, w', h'⟩ := s.admittedState_eq i Page.device Reg.SPARE_CTL
  refine ⟨fun p o hne => (State.reg_storeWrite_other _ v hne).trans (s.reg_admittedState ..), ?_, ?_, ?_⟩
  · rw [h, h']
  · rw [h, h']
  · rw [h, h']

theorem regKey_spareMap (l : Nat) : regKey Page.device (Reg.SPARE_MAP + 8 * l) ≠ regKey Page.device Reg.SPARE_CTL :=
  regKey_ne_of_offset (by simp only [Reg.SPARE_MAP, Reg.SPARE_CTL]; omega)

/-- States with the same sparing registers, cores and bindings agree on whether a binding is under way. -/
theorem State.bindBusy_congr {s a : State} (hreg : ∀ l, a.reg Page.device (Reg.SPARE_MAP + 8 * l) = s.reg Page.device (Reg.SPARE_MAP + 8 * l))
    (hcores : a.cores = s.cores) (hbinds : a.binds = s.binds) (l p : Nat) :
    a.boundStack l = s.boundStack l ∧ a.bindBusy l p = s.bindBusy l p := by
  have hbound : a.boundStack l = s.boundStack l := by
    unfold State.boundStack State.fld
    rw [hreg]
  have hbusy (q : Nat) : a.stackBusy q = s.stackBusy q := by rw [State.stackBusy, hcores, State.stackBusy]
  refine ⟨hbound, ?_⟩
  unfold State.bindBusy
  rw [hbound, hbinds]
  cases s.boundStack l with
  | none => rfl
  | some q => exact congrArg (· || _) (hbusy q)

/-- BIND, as the word that SPARE_CTL then holds says it. -/
theorem spareCtlEff_bind {s a : State} {v : Word} (ha : a = s.storeWrite Page.device Reg.SPARE_CTL v) (hgo : bit v 63 = true)
    (hop : a.fld Page.device Reg.SPARE_CTL 57 56 = 0) (hepoch : a.fld Page.device Reg.SPARE_CTL 47 32 = epoch)
    (hl : a.fld Page.device Reg.SPARE_CTL 13 8 = l) (hp : a.fld Page.device Reg.SPARE_CTL 6 0 = p) (hl64 : l < 64) (hp72 : p < 72)
    (hcurrent : a.bindEpoch l = epoch) (hspared : a.stackState p = PS.spared) (hidle : a.bindBusy l p = false) :
    spareCtlEff v s = (a.bindStart l p true).spareStatus St.ok := by
  subst ha hepoch hl hp
  exact (if_neg (by rw [hgo]; decide)).trans ((if_neg (Nat.not_le.mpr hp72)).trans ((if_pos hop).trans
    ((if_neg (not_or.mpr ⟨Nat.not_le.mpr hl64, not_not.mpr hcurrent⟩)).trans
      (if_neg (not_or.mpr ⟨not_not.mpr hspared, ne_true_of_eq_false hidle⟩)))))

/-- RELEASE, as the word that SPARE_CTL then holds says it. -/
theorem spareCtlEff_release {s a : State} {v : Word} (ha : a = s.storeWrite Page.device Reg.SPARE_CTL v) (hgo : bit v 63 = true)
    (hop : a.fld Page.device Reg.SPARE_CTL 57 56 = 1) (hepoch : a.fld Page.device Reg.SPARE_CTL 47 32 = epoch)
    (hp : a.fld Page.device Reg.SPARE_CTL 6 0 = p) (hp72 : p < 72) (hcurrent : a.epoch (Page.router p) = epoch)
    (hstate : a.stackState p = PS.memoryOnly) : spareCtlEff v s = (a.releaseStack p).spareStatus St.ok := by
  subst ha hepoch hp
  exact (if_neg (by rw [hgo]; decide)).trans ((if_neg (Nat.not_le.mpr hp72)).trans
    ((if_neg (fun h => absurd (hop.symm.trans h) (by decide))).trans ((if_neg (not_not.mpr hcurrent)).trans (if_neg (not_not.mpr hstate)))))

theorem State.stackState_congr {s a : State} (hreg : ∀ o, o / 8 ≠ Reg.SPARE_CTL / 8 → a.reg Page.device o = s.reg Page.device o) (p : Nat) :
    a.stackState p = s.stackState p :=
  congrArg (bits · _ _) (hreg _ (by simp only [Reg.STACK_STATE, Reg.SPARE_CTL]; omega))

/-- BIND of a SPARED stack under the logical stack's epoch starts the binding (R577). -/
theorem exec_spareBind {s a : State} {i : Ident} (auto : Bool) (hl : l < 64) (hp : p < 72)
    (hadm : Admitted s i Page.device Reg.SPARE_CTL (spareWord 0 l p epoch auto))
    (ha : a = (s.admittedState i Page.device Reg.SPARE_CTL).storeWrite Page.device Reg.SPARE_CTL (spareWord 0 l p epoch auto))
    (hepoch : s.bindEpoch l = epoch) (hspared : s.stackState p = PS.spared) (hidle : s.bindBusy l p = false) :
    exec (.spareBind i l p epoch auto) s = .next ((a.bindStart l p true).spareStatus St.ok) := by
  obtain ⟨hreg, hcores, hbinds, -⟩ := s.spare_storeWrite i (spareWord 0 l p epoch auto)
  obtain ⟨h1, h2, h3, h4⟩ := spare_fields_storeWrite (op := 0) (s.admittedState i Page.device Reg.SPARE_CTL) auto (by decide) hl hp
    (show epoch < 2 ^ 16 from hepoch ▸ bits_lt ..)
  rw [← ha] at hreg hcores hbinds h1 h2 h3 h4
  have hepoch' : a.bindEpoch l = epoch := (congrArg (bits · 63 48) (hreg _ _ (regKey_spareMap l))).trans hepoch
  have hspared' : a.stackState p = PS.spared :=
    (State.stackState_congr (fun o ho => hreg _ _ (regKey_ne_of_offset ho)) p).trans hspared
  have hidle' : a.bindBusy l p = false :=
    (State.bindBusy_congr (fun l => hreg _ _ (regKey_spareMap l)) hcores hbinds l p).2.trans hidle
  exact congrArg Host.Outcome.next ((State.writeVia_admitted _ hadm).trans
    (spareCtlEff_bind ha (bit_spareWord_go auto) h1 h2 h3 h4 hl hp hepoch' hspared' hidle'))

/-- RELEASE of a MEMORY_ONLY stack under its router's epoch gives the stack up (R578). -/
theorem exec_spareRelease {s a : State} {i : Ident} (auto : Bool) (hp : p < 72)
    (hadm : Admitted s i Page.device Reg.SPARE_CTL (spareWord 1 0 p epoch auto))
    (ha : a = (s.admittedState i Page.device Reg.SPARE_CTL).storeWrite Page.device Reg.SPARE_CTL (spareWord 1 0 p epoch auto))
    (hepoch : s.epoch (Page.router p) = epoch) (hstate : s.stackState p = PS.memoryOnly) :
    exec (.spareRelease i p epoch auto) s = .next ((a.releaseStack p).spareStatus St.ok) := by
  obtain ⟨hreg, -, -, -⟩ := s.spare_storeWrite i (spareWord 1 0 p epoch auto)
  obtain ⟨h1, h2, -, h4⟩ := spare_fields_storeWrite (op := 1) (l := 0) (s.admittedState i Page.device Reg.SPARE_CTL) auto (by decide)
    (by decide) hp (show epoch < 2 ^ 16 from hepoch ▸ bits_lt ..)
  rw [← ha] at hreg h1 h2 h4
  have hepoch' : a.epoch (Page.router p) = epoch := (congrArg (bits · 47 32) (hreg _ _ (regKey_ne_of_page (by
    simp only [Page.router, Page.hub, Page.device]; omega) (by decide) (by decide)))).trans hepoch
  exact congrArg Host.Outcome.next ((State.writeVia_admitted _ hadm).trans
    (spareCtlEff_release ha (bit_spareWord_go auto) h1 h2 h4 hp hepoch'
      ((State.stackState_congr (fun o ho => hreg _ _ (regKey_ne_of_offset ho)) p).trans hstate)))

/-- LAST_STATUS of SPARE_CTL is loaded and nothing else. -/
theorem State.spareStatus_shows (s : State) (status : Nat) : (s.spareStatus status).binds = s.binds ∧
    (s.spareStatus status).fld Page.device Reg.SPARE_CTL 55 48 = status % 256 :=
  ⟨rfl, State.fld_setFld_same _ _ _ _ (by decide)⟩

/-- A binding that has been recorded. -/
def State.noteBind (s : State) (l p : Nat) : State := { s with binds := s.binds ++ [(l, p)] }

theorem State.noteBind_binds (s : State) (l p : Nat) : (s.noteBind l p).binds = s.binds ++ [(l, p)] := rfl

theorem State.noteBind_mem (s : State) (l p : Nat) : (s.noteBind l p).mem = s.mem := rfl

theorem State.zeroStack_keeps (s : State) (p : Nat) : (s.zeroStack p).binds = s.binds ∧
    (s.zeroStack p).mem = s.mem.clear (lsBase (coreKey p 0 0)) (lsBase (coreKey p 0 0) + 0x80000000) := ⟨rfl, rfl⟩

/-- A binding of an unbound logical stack zeroes the stack's cores and is recorded (R577). -/
theorem State.bindStart_unbound {a : State} (hnone : a.boundStack l = none) :
    (a.bindStart l p true).binds = a.binds ++ [(l, p)] ∧
    (a.bindStart l p true).mem = a.mem.clear (lsBase (coreKey p 0 0)) (lsBase (coreKey p 0 0) + 0x80000000) := by
  have hbind : a.bindStart l p true = (a.zeroStack p).holdAll.noteBind l p := by
    unfold State.bindStart
    rw [hnone]
    rfl
  obtain ⟨hbinds, hmem⟩ := a.zeroStack_keeps p
  rw [hbind, State.noteBind_binds, State.noteBind_mem, State.holdAll_mem, State.holdAll_eq, State.setHolds_binds, hbinds, hmem]
  exact ⟨rfl, rfl⟩

end

/-! Failures (R574, R579) and the declared capacity (R580, R581). -/

section
variable {s : State} {st d : Nat}

/-- A state whose declared capacity is to be looked at again. -/
def State.noteStale (s : State) (stale : Bool) : State := { s with capStale := stale }

@[simp] theorem State.reg_noteStale (stale : Bool) (p o : Nat) : (s.noteStale stale).reg p o = s.reg p o := rfl

theorem State.noteStale_keeps (s : State) (stale : Bool) : (s.noteStale stale).capStale = stale ∧ (s.noteStale stale).tasks = s.tasks ∧
    (s.noteStale stale).events = s.events ∧ (s.noteStale stale).mem = s.mem := ⟨rfl, rfl, rfl, rfl⟩

theorem State.genEvent_keeps (s : State) (page code part : Nat) (payload : Word) :
    (s.genEvent page code part payload).tasks = s.tasks ∧ (s.genEvent page code part payload).capStale = s.capStale := by
  obtain ⟨r, q, e, h⟩ := s.genEvent_eq page code part payload
  rw [h]
  exact ⟨rfl, rfl⟩

theorem State.loseTasks_none (gone : Nat → Bool) (status cause : Nat) (h : s.tasks = []) : s.loseTasks gone status cause = s := by
  rw [State.loseTasks, h]
  rfl

/-- A die that has failed, before what it loses. -/
def State.dieMarked (s : State) (st d : Nat) : State :=
  ((s.setFld (Page.computeDie st d) Reg.PAGE_STATE 3 0 PS.faulted).noteStale true).genEvent (Page.computeDie st d) 0x0112 0
    (place 6 0 st ||| place 9 8 d)

theorem State.dieFail_eq (s : State) (st d : Nat) : s.dieFail st d false =
    (s.dieMarked st d).loseTasks (fun c => decide (coreStack c = st ∧ coreDie c = d)) St.internal 0x08 := by
  have hfault : s.enterState (Page.computeDie st d) PS.faulted = s.setFld (Page.computeDie st d) Reg.PAGE_STATE 3 0 PS.faulted :=
    State.enterState_of_ne _ _ (by decide)
  exact congrArg (fun t : State => ((t.noteStale true).genEvent (Page.computeDie st d) 0x0112 0
    (place 6 0 st ||| place 9 8 d)).loseTasks (fun c => decide (coreStack c = st ∧ coreDie c = d)) St.internal 0x08) hfault

theorem State.dieMarked_shows (s : State) (st d : Nat) : (s.dieMarked st d).pageState (Page.computeDie st d) = PS.faulted ∧
    (s.dieMarked st d).capStale = true ∧ (s.dieMarked st d).tasks = s.tasks ∧ (s.dieMarked st d).mem = s.mem ∧
    Posts s (s.dieMarked st d) (Page.computeDie st d) 0x0112 := by
  let u := (s.setFld (Page.computeDie st d) Reg.PAGE_STATE 3 0 PS.faulted).noteStale true
  obtain ⟨htasks, hstale⟩ := u.genEvent_keeps (Page.computeDie st d) 0x0112 0 (place 6 0 st ||| place 9 8 d)
  obtain ⟨hu1, hu2, hu3, hu4⟩ := (s.setFld (Page.computeDie st d) Reg.PAGE_STATE 3 0 PS.faulted).noteStale_keeps true
  exact ⟨(State.pageState_genEvent ..).trans (State.fld_setFld_same _ _ _ _ (by decide)), hstale.trans hu1, htasks.trans hu2,
    (State.genEvent_mem ..).trans hu4, State.posts_genEvent _ _ hu3 (State.reg_setFld_other _ _ _ _ _ _ _ _
      (regKey_ne_of_offset (by decide)))⟩

theorem State.autoSpare_dieMarked (s : State) (hst : st < 72) (hd : d < 4) : (s.dieMarked st d).autoSpare = s.autoSpare := by
  have apart (o : Nat) (ho : o < 4096) : regKey Page.device Reg.SPARE_CTL ≠ regKey (Page.computeDie st d) o :=
    regKey_ne_of_page (by simp only [Page.device, Page.computeDie, Page.hub]; omega) (by decide) ho
  have hreg : (s.dieMarked st d).reg Page.device Reg.SPARE_CTL = s.reg Page.device Reg.SPARE_CTL :=
    (State.reg_genEvent_other _ _ _ _ _ (apart _ (by decide))).trans (State.reg_setFld_other _ _ _ _ _ _ _ _ (apart _ (by decide)))
  unfold State.autoSpare State.fld
  rw [hreg]

/-- Without AUTO nothing is bound in a failed die's place. -/
theorem State.dieRebind_manual (st : Nat) (h : s.autoSpare = false) : s.dieRebind st = s := by
  unfold State.dieRebind
  split
  · rfl
  · rw [h]
    rfl

/-- A die that fails (R574). -/
theorem exec_dieFailed (hst : st < 72) (hd : d < 4) (hok : s.pageState (Page.computeDie st d) ≠ PS.faulted) :
    exec (.dieFailed st d) s = .next ((s.dieFail st d false).dieRebind st) := by
  show execDieFailed st d s = _
  rw [execDieFailed, Nat.mod_eq_of_lt hst, Nat.mod_eq_of_lt hd]
  exact congrArg (fun u : State => Host.Outcome.next (u.dieRebind st)) (if_neg hok)

theorem exec_stackFailed {p : Nat} (hp : p < 72) (hup : s.stackState p ≠ PS.faulted) (hon : s.stackState p ≠ PS.off) :
    exec (.stackFailed p) s = .next (s.hubFail p false) := by
  show execStackFailed p s = _
  rw [execStackFailed, Nat.mod_eq_of_lt hp]
  exact congrArg Host.Outcome.next (if_neg (not_or.mpr ⟨hup, hon⟩))

/-- A state with the requests `l` of the near caches. -/
def State.withNear (s : State) (l : List NearReq) : State := { s with nearReqs := l }

theorem State.withNear_self {l : List NearReq} (h : s.nearReqs = l) : s.withNear l = s := by
  subst h
  rfl

theorem State.endNear_idle (mine : NearReq → Bool) (status : Nat) (h : s.nearReqs = []) : s.endNear mine status = s := by
  unfold State.endNear
  rw [h]
  exact State.withNear_self h

/-- What waited for a lost hub ends with DATA_LOST, the requests that it had been sent first (R579). -/
theorem exec_lostTimeout {u : State} {p t0 : Nat} (hat : s.lostAt.find p = some t0)
    (hlate : t0 + s.fld Page.device Reg.QUIESCE_CFG 31 16 * 100000 ≤ s.panelTime.toNat)
    (hu : u = ((s.lostReqs.filter fun e => decide (e.1 = p)).map Prod.snd).foldl (fun u m => u.refuseRequest m St.dataLost)
      { s with lostReqs := s.lostReqs.filter fun e => !decide (e.1 = p) })
    (htxns : u.txns = []) (hnear : u.nearReqs = []) (hcmds : ∀ e ∈ u.cmds, e.2.held ≠ 4) :
    exec (.lostTimeout p) s = .next { u with lostAt := u.lostAt.drop fun k => k == p } := by
  have hheld : (u.cmds.filter fun e => decide (e.2.held = 4)) = [] :=
    List.filter_eq_nil_iff.mpr fun e he => by simpa using hcmds e he
  show execLostTimeout p s = _
  unfold execLostTimeout
  rw [hat]
  dsimp only
  rw [if_neg (Nat.not_lt.mpr hlate), ← hu, htxns]
  simp only [List.filter_nil, List.map_nil, List.foldl_nil, State.endNear_idle _ _ hnear, hheld]
  rw [htxns]

/-- A declared capacity that has changed (R580). -/
theorem capacityNow_lt (s : State) : s.capacityNow < 2 ^ 43 := by
  refine Nat.lt_pow_two_of_testBit _ fun i hi => ?_
  refine (?_ : bit (place 42 32 _ ||| place 29 24 _ ||| place 20 16 _ ||| place 14 8 _) i = false)
  rw [bit_or, bit_or, bit_or, bit_place_outside _ (.inr (by omega)), bit_place_outside _ (.inr (by omega)),
    bit_place_outside _ (.inr (by omega)), bit_place_outside _ (.inr (by omega))]
  rfl

/-- CAP_DECLARED with a count of changes and a capacity. -/
def capWord (count n : Nat) : Word := place 63 48 count ||| BitVec.ofNat 64 n

theorem bits_capWord (count : Nat) {n : Nat} (hn : n < 2 ^ 43) : bits (capWord count n) 42 0 = n ∧
    bits (capWord count n) 63 48 = count % 65536 := by
  have hnat : (BitVec.ofNat 64 n).toNat = n := by rw [BitVec.toNat_ofNat, Nat.mod_eq_of_lt (by omega)]
  have hlow : bits (BitVec.ofNat 64 n) 42 0 = n := by
    rw [bits, hnat, natBits]
    omega
  have hhigh : bits (BitVec.ofNat 64 n) 63 48 = 0 := by
    rw [bits, hnat, natBits]
    omega
  rw [capWord, bits_or, bits_or, bits_place_other count (by decide) (.inl (by decide)), bits_place_same count (by decide), hlow, hhigh]
  exact ⟨Nat.zero_or _, Nat.or_zero _⟩

theorem exec_capChanged_same (h : bits (s.reg Page.device Reg.CAP_DECLARED) 42 0 = s.capacityNow) :
    exec .capChanged s = .next (s.noteStale false) := congrArg Host.Outcome.next (if_pos h)

theorem exec_capChanged_changed (h : bits (s.reg Page.device Reg.CAP_DECLARED) 42 0 ≠ s.capacityNow) : ∃ payload,
    exec .capChanged s = .next (((s.noteStale false).setReg Page.device Reg.CAP_DECLARED
      (capWord (s.fld Page.device Reg.CAP_DECLARED 63 48 + 1) s.capacityNow)).genEvent Page.device 0x0116 0 payload) :=
  ⟨_, congrArg Host.Outcome.next (if_neg h)⟩

end

/-! Row skips (R103, R104). -/

section
variable {s : State} {st d r : Nat} {v : Word}

/-- A core that its row skips, unless it is FAULTED. -/
def Core.skip (k : Core) : Core := if k.status = .faulted then k else { k with status := .skipped }

/-- A core that its row no longer skips. -/
def Core.unskip (k : Core) : Core := if k.status = .skipped then { k with status := .idle } else k

theorem Core.skip_status (k : Core) : k.skip.status = .skipped ∨ k.skip.status = .faulted := by
  unfold Core.skip
  split
  next h => exact .inr h
  next => exact .inl rfl

theorem computeDie_parts (st : Nat) (hd : d < 4) : (Page.computeDie st d - 0x1000) / 0x40 = st ∧
    (Page.computeDie st d - 0x1000) % 0x40 - 17 = d := by
  simp only [Page.computeDie, Page.hub]
  omega

/-- The columns that a row skips, and whether they differ from the fused ones. -/
def skipWord (n0 n1 : Nat) (changed : Bool) : Word := place 5 0 n0 ||| place 13 8 n1 ||| place 16 16 changed.toNat

theorem bits_skipWord (n0 n1 : Nat) (changed : Bool) : bits (skipWord n0 n1 changed) 5 0 = n0 % 64 ∧
    bits (skipWord n0 n1 changed) 13 8 = n1 % 64 := by
  simp (disch := decide) only [skipWord, bits_or, bits_place_same, bits_place_other, Nat.or_zero, Nat.zero_or]
  exact ⟨rfl, rfl⟩

/-- A row whose cores run a task keeps the columns that it skips. -/
theorem rowSkipEff_busy (hst : st < 72) (hd : d < 4) (horder : bits v 5 0 < bits v 13 8) (hbound : bits v 13 8 ≤ 41) {p : Nat}
    (hp : p < 42) (hbusy : (s.core (coreKey st d (r * 42 + p))).task ≠ none) :
    rowSkipEff (Page.computeDie st d) r v s = s.lastStatus (Page.computeDie st d) St.unitUnavailable := by
  obtain ⟨hstack, hdie⟩ := computeDie_parts st hd
  have hpage : pageStack (Page.computeDie st d) = some st :=
    (if_pos (by simp only [Page.computeDie, Page.hub]; omega)).trans (congrArg some hstack)
  have hany : ((List.range 42).any fun p => (s.core (coreKey st d (r * 42 + p))).task.isSome) = true :=
    List.any_eq_true.mpr ⟨p, List.mem_range.mpr hp, Option.isSome_iff_ne_none.mpr hbusy⟩
  unfold rowSkipEff
  rw [hpage]
  dsimp only
  rw [hdie, if_neg (by omega), if_pos hany]

/-- A row without a task skips the columns named: the cores there are skipped, last of all. -/
theorem rowSkipEff_idle (hst : st < 72) (hd : d < 4) (horder : bits v 5 0 < bits v 13 8) (hbound : bits v 13 8 ≤ 41)
    (hidle : ∀ p, p < 42 → (s.core (coreKey st d (r * 42 + p))).task = none) : ∃ (u : State) (changed : Bool),
    rowSkipEff (Page.computeDie st d) r v s = (u.modCore (coreKey st d (r * 42 + bits v 5 0)) Core.skip).modCore
      (coreKey st d (r * 42 + bits v 13 8)) Core.skip ∧
    u.reg (Page.computeDie st d) (Reg.ROW_SKIP + 8 * r) = skipWord (bits v 5 0) (bits v 13 8) changed := by
  obtain ⟨hstack, hdie⟩ := computeDie_parts st hd
  have hpage : pageStack (Page.computeDie st d) = some st :=
    (if_pos (by simp only [Page.computeDie, Page.hub]; omega)).trans (congrArg some hstack)
  have hany : ((List.range 42).any fun p => (s.core (coreKey st d (r * 42 + p))).task.isSome) = false :=
    List.any_eq_false.mpr fun p hp => by simp [hidle p (List.mem_range.mp hp)]
  have heff : ∃ (changed : Bool) (zeroed woken : List Nat), rowSkipEff (Page.computeDie st d) r v s =
      [bits v 5 0, bits v 13 8].foldl (fun s p => s.modCore (coreKey st d (r * 42 + p)) Core.skip)
        (woken.foldl (fun s p => s.modCore (coreKey st d (r * 42 + p)) Core.unskip)
          (zeroed.foldl (fun s p => s.zeroCore (coreKey st d (r * 42 + p)))
            (s.setReg (Page.computeDie st d) (Reg.ROW_SKIP + 8 * r) (skipWord (bits v 5 0) (bits v 13 8) changed)))) := by
    unfold rowSkipEff
    rw [hpage]
    dsimp only
    rw [hdie, if_neg (by omega), hany]
    exact ⟨_, _, _, rfl⟩
  obtain ⟨changed, zeroed, woken, heff⟩ := heff
  refine ⟨_, changed, heff, ?_⟩
  let kept (t : State) : Prop := t.reg (Page.computeDie st d) (Reg.ROW_SKIP + 8 * r) = skipWord (bits v 5 0) (bits v 13 8) changed
  have hzeroed : kept (zeroed.foldl (fun s p => s.zeroCore (coreKey st d (r * 42 + p)))
      (s.setReg (Page.computeDie st d) (Reg.ROW_SKIP + 8 * r) (skipWord (bits v 5 0) (bits v 13 8) changed))) :=
    foldl_inv (P := kept) (f := fun (s : State) p => s.zeroCore (coreKey st d (r * 42 + p))) zeroed (fun t p ht => ht)
      (State.reg_setReg_same ..)
  exact foldl_inv (P := kept) (f := fun (s : State) p => s.modCore (coreKey st d (r * 42 + p)) Core.unskip) woken (fun t p ht => ht) hzeroed

/-- Skipping a core leaves a core skipped or FAULTED that it names or that was so. -/
theorem State.status_modCore_skip (u : State) {c e : Nat}
    (h : e = c ∨ (u.core e).status = .skipped ∨ (u.core e).status = .faulted) :
    ((u.modCore c Core.skip).core e).status = .skipped ∨ ((u.modCore c Core.skip).core e).status = .faulted := by
  rw [State.core_modCore]
  split
  next => exact Core.skip_status _
  next hne => exact h.resolve_left hne

/-- A write of ROW_SKIP decides on the state that admits it. -/
theorem exec_rowSkipWrite {i : Ident} (hst : st < 72) (hd : d < 4) (hr : r < 30)
    (h : Admitted s i (Page.computeDie st d) (Reg.ROW_SKIP + 8 * r) v) : exec (.rowSkipWrite i st d r v) s =
      .next (rowSkipEff (Page.computeDie st d) r v (s.admittedState i (Page.computeDie st d) (Reg.ROW_SKIP + 8 * r))) := by
  show execRowSkipWrite i st d r v s = _
  rw [execRowSkipWrite, Nat.mod_eq_of_lt hst, Nat.mod_eq_of_lt hd, Nat.mod_eq_of_lt hr]
  exact congrArg Host.Outcome.next (State.writeVia_admitted _ h)

end

/-! The core window (R620, R621). -/

section
variable (s : State) (st : Nat)

@[simp] theorem State.core_admittedState (i : Ident) (page off c : Nat) : (s.admittedState i page off).core c = s.core c := by
  obtain ⟨l, w, h⟩ := s.admittedState_eq i page off
  rw [h]
  rfl

@[simp] theorem State.admittedState_cores (i : Ident) (page off : Nat) : (s.admittedState i page off).cores = s.cores := by
  obtain ⟨l, w, h⟩ := s.admittedState_eq i page off
  rw [h]

@[simp] theorem State.cwCore_admittedState (i : Ident) (page off : Nat) : (s.admittedState i page off).cwCore st = s.cwCore st := by
  obtain ⟨l, w, h⟩ := s.admittedState_eq i page off
  rw [h]
  rfl

@[simp] theorem State.cwReaches_admittedState (i : Ident) (page off : Nat) :
    (s.admittedState i page off).cwReaches st = s.cwReaches st := by
  obtain ⟨l, w, h⟩ := s.admittedState_eq i page off
  rw [h]
  rfl

/-- After each access the window shows whether it reached the core, and names the next 8 bytes. -/
theorem State.cwAdvance_shows : (s.cwReaches st = true → (s.cwAdvance st).fld (Page.coreWindow st) 0x118 47 40 = St.ok) ∧
    (s.cwAdvance st).fld (Page.coreWindow st) 0x108 18 0 = (s.fld (Page.coreWindow st) 0x108 18 0 + 8) % 2 ^ 19 := by
  unfold State.cwAdvance
  refine ⟨fun h => ?_, ?_⟩
  · rw [State.fld_setFld_key _ _ _ _ _ _ _ _ (regKey_ne_of_offset (by decide)), h, State.fld_setFld_same _ _ _ _ (by decide)]
    rfl
  · rw [State.fld_setFld_same _ _ _ _ (by decide), State.fld_setFld_key _ _ _ _ _ _ _ _ (regKey_ne_of_offset (by decide)),
      Nat.mod_mod]

theorem State.cwAdvance_keeps : (s.cwAdvance st).mem = s.mem ∧ (s.cwAdvance st).cores = s.cores ∧
    (s.cwAdvance st).reply = s.reply := ⟨rfl, rfl, rfl⟩

/-- A write through the window below 0x40000 goes to the core's local store. -/
theorem cwDataEff_stores {v : Word} (hreach : s.cwReaches st = true) (ho : s.fld (Page.coreWindow st) 0x108 18 0 / 8 * 8 < 0x40000) :
    cwDataEff st v s = (s.writeBytes (lsBase (s.cwCore st) + s.fld (Page.coreWindow st) 0x108 18 0 / 8 * 8) (leBytes 8 v.toNat)).cwAdvance
      st := by
  refine congrArg (State.cwAdvance · st) ((if_neg (not_or.mpr ⟨?_, by omega⟩)).trans (if_pos ho))
  rw [hreach]
  decide

theorem cwDataEff_stores_shows {v : Word} (hreach : s.cwReaches st = true) (ho : s.fld (Page.coreWindow st) 0x108 18 0 / 8 * 8 < 0x40000) :
    (cwDataEff st v s).mem = s.mem.writeBytes (lsBase (s.cwCore st) + s.fld (Page.coreWindow st) 0x108 18 0 / 8 * 8) (leBytes 8 v.toNat) ∧
    (cwDataEff st v s).fld (Page.coreWindow st) 0x118 47 40 = St.ok ∧
    (cwDataEff st v s).fld (Page.coreWindow st) 0x108 18 0 = (s.fld (Page.coreWindow st) 0x108 18 0 + 8) % 2 ^ 19 := by
  have hwrite (a : Nat) (bs : List Byte) : (s.writeBytes a bs).cwReaches st = true ∧ (s.writeBytes a bs).mem = s.mem.writeBytes a bs ∧
      (s.writeBytes a bs).fld (Page.coreWindow st) 0x108 18 0 = s.fld (Page.coreWindow st) 0x108 18 0 := ⟨hreach, rfl, rfl⟩
  rw [cwDataEff_stores s st hreach ho]
  obtain ⟨hreach', hmem, hfld⟩ := hwrite (lsBase (s.cwCore st) + s.fld (Page.coreWindow st) 0x108 18 0 / 8 * 8) (leBytes 8 v.toNat)
  generalize s.writeBytes (lsBase (s.cwCore st) + s.fld (Page.coreWindow st) 0x108 18 0 / 8 * 8) (leBytes 8 v.toNat) = u at hreach' hmem hfld ⊢
  obtain ⟨hshow, hnext⟩ := u.cwAdvance_shows st
  rw [State.cwAdvance_mem, hmem, hshow hreach', hnext, hfld]
  exact ⟨rfl, rfl, rfl⟩

variable {s st}

theorem exec_cwDataAccess_write {i : Ident} {v : Word} (at_ n : Nat) (hst : st < 72) (h : Admitted s i (Page.coreWindow st) 0x110 v) :
    exec (.cwDataAccess i st (some v) at_ n) s = .next (cwDataEff st v (s.admittedState i (Page.coreWindow st) 0x110)) := by
  show execCwDataAccess i st (some v) at_ n s = _
  rw [execCwDataAccess, Nat.mod_eq_of_lt hst]
  exact congrArg Host.Outcome.next (State.writeVia_admitted _ h)

/-- The pages of the core windows (Table 21-2). -/
theorem pageKind_coreWindow (hst : st < 72) : pageKind (Page.coreWindow st) = some .coreWindow := by
  rw [pageKind_hub hst (by decide)]
  decide

/-- A read of 8 B through the window answers the word there. -/
theorem exec_cwDataAccess_read {i : Ident} (hst : st < 72) (hreached : s.unreached (Page.coreWindow st) = false)
    (hread : s.mayRead i (Page.coreWindow st) 0x110 = true) (hpower : s.unpowered.contains (Page.coreWindow st) = false) : ∃ u : State,
    exec (.cwDataAccess i st none 0 8) s = .next (u.cwAdvance st) ∧ u.reply = (St.ok, leBytes 8 (s.cwData st).toNat) ∧
    u.mem = s.mem ∧ u.cores = s.cores ∧ u.fld (Page.coreWindow st) 0x108 18 0 = s.fld (Page.coreWindow st) 0x108 18 0 := by
  obtain ⟨l, hl⟩ := s.lockTouch_eq i (Page.coreWindow st)
  have hanswers := State.readVia_answers (off := 0x110) (n := 8) (s.cwData st) (cwDataRead st) (pageKind_coreWindow hst) (by decide)
    (.inr rfl) (by decide) hreached hread hpower
  rw [hl] at hanswers
  refine ⟨{ s with lockAt := l, reply := (St.ok, leBytes 8 (s.cwData st).toNat) }, ?_, rfl, rfl, rfl, rfl⟩
  show execCwDataAccess i st none 0 8 s = _
  rw [execCwDataAccess, Nat.mod_eq_of_lt hst]
  exact congrArg Host.Outcome.next hanswers

/-- CW_CTL clears the fault of a FAULTED core whose self-test passes, and of no other. -/
theorem exec_clearFault {i : Ident} (hst : st < 72) (h : Admitted s i (Page.coreWindow st) 0x120 1)
    (hfault : (s.core (s.cwCore st)).status = .faulted) :
    exec (.clearFault i st true) s = .next ((s.admittedState i (Page.coreWindow st) 0x120).modCore (s.cwCore st) fun k =>
      { k with status := .idle }) ∧
    exec (.clearFault i st false) s = .next (s.admittedState i (Page.coreWindow st) 0x120) := by
  let a := s.admittedState i (Page.coreWindow st) 0x120
  have hexec (pass : Bool) : exec (.clearFault i st pass) s = .next (cwCtlEff st 1 pass a) := by
    show execClearFault i st pass s = _
    rw [execClearFault, Nat.mod_eq_of_lt hst]
    exact congrArg Host.Outcome.next (State.writeVia_admitted _ h)
  have hcore : a.cwCore st = s.cwCore st := State.cwCore_admittedState ..
  have hfault' : (a.core (a.cwCore st)).status = .faulted := by rw [State.core_admittedState, hcore]; exact hfault
  rw [hexec, hexec, ← hcore]
  exact ⟨congrArg Host.Outcome.next (if_pos (by rw [hfault']; decide)), rfl⟩

end

/-- Settles O48: commands of SPARE_CTL, failures, the capacity, row skips and the core window, each as its admitted or failing
state decides it. -/
theorem sparingCompletes : Obligations.SparingCompletes := by
  refine ⟨?_, ?_, ?_, ?_, ?_, ?_, ?_, ?_, ?_⟩
  · intro s a i l p epoch auto hl hp hadm ha hepoch hspared hidle
    have hexec := exec_spareBind auto hl hp hadm ha hepoch hspared hidle
    refine ⟨hexec, fun hnone => ⟨_, hexec, ?_⟩⟩
    obtain ⟨hreg, hcores, hbinds, hmem⟩ := s.spare_storeWrite i (spareWord 0 l p epoch auto)
    rw [← ha] at hreg hcores hbinds hmem
    obtain ⟨hbinds', hmem'⟩ := State.bindStart_unbound (p := p)
      ((State.bindBusy_congr (fun l => hreg _ _ (regKey_spareMap l)) hcores hbinds l p).1.trans hnone)
    obtain ⟨hlast, hstatus⟩ := (a.bindStart l p true).spareStatus_shows St.ok
    rw [hlast, hstatus, State.spareStatus_mem, hbinds', hmem', hbinds, hmem]
    exact ⟨rfl, rfl, fun b hb => (Memory.read_clear ..).trans (if_neg (by omega))⟩
  · intro s a i p epoch auto hp hadm ha hepoch hstate
    exact exec_spareRelease auto hp hadm ha hepoch hstate
  · intro s st d hst hd hok
    refine ⟨exec_dieFailed hst hd hok, fun htasks hauto => ⟨_, exec_dieFailed hst hd hok, ?_⟩⟩
    obtain ⟨hpage, hstale, htasks', hmem, hposts⟩ := s.dieMarked_shows st d
    rw [State.dieFail_eq, State.loseTasks_none _ _ _ (htasks'.trans htasks), State.dieRebind_manual st
      ((s.autoSpare_dieMarked hst hd).trans hauto)]
    exact ⟨hpage, hstale, hposts, hmem⟩
  · intro s p
    exact exec_stackFailed
  · intro s u p t0
    exact exec_lostTimeout
  · intro s
    refine ⟨exec_capChanged_same, fun h => ?_, fun h => congrArg Host.Outcome.next (if_pos h),
      fun h => congrArg Host.Outcome.next (if_neg (ne_true_of_eq_false h))⟩
    obtain ⟨payload, hexec⟩ := exec_capChanged_changed h
    let u := (s.noteStale false).setReg Page.device Reg.CAP_DECLARED (capWord (s.fld Page.device Reg.CAP_DECLARED 63 48 + 1) s.capacityNow)
    have hcap : (u.genEvent Page.device 0x0116 0 payload).reg Page.device Reg.CAP_DECLARED =
        capWord (s.fld Page.device Reg.CAP_DECLARED 63 48 + 1) s.capacityNow :=
      (State.reg_genEvent_other _ _ _ _ _ (regKey_ne_of_offset (by decide))).trans (State.reg_setReg_same ..)
    obtain ⟨hlow, hhigh⟩ := bits_capWord (s.fld Page.device Reg.CAP_DECLARED 63 48 + 1) (capacityNow_lt s)
    obtain ⟨-, hstale⟩ := u.genEvent_keeps Page.device 0x0116 0 payload
    exact ⟨_, hexec, (congrArg (bits · 42 0) hcap).trans hlow, (congrArg (bits · 63 48) hcap).trans hhigh, hstale,
      State.posts_genEvent _ _ rfl (State.reg_setReg_other _ _ _ _ _ _ (regKey_ne_of_offset (by decide))), State.genEvent_mem ..⟩
  · rintro s i st d r n0 n1 v hst hd hr rfl rfl horder hbound hadm
    let a := s.admittedState i (Page.computeDie st d) (Reg.ROW_SKIP + 8 * r)
    refine ⟨fun hidle => ?_, fun p hp hbusy => ?_⟩
    · obtain ⟨u, changed, heff, hword⟩ := rowSkipEff_idle (s := a) (r := r) (v := v) hst hd horder hbound
        (fun p hp => (congrArg Core.task (State.core_admittedState ..)).trans (hidle p hp))
      obtain ⟨h0, h1⟩ := bits_skipWord (bits v 5 0) (bits v 13 8) changed
      refine ⟨_, (exec_rowSkipWrite hst hd hr hadm).trans (congrArg _ heff), (congrArg (bits · 5 0) hword).trans (h0.trans
        (Nat.mod_eq_of_lt (by omega))), (congrArg (bits · 13 8) hword).trans (h1.trans (Nat.mod_eq_of_lt (by omega))), ?_⟩
      rintro p (rfl | rfl)
      · exact State.status_modCore_skip _ (.inr (State.status_modCore_skip _ (.inl rfl)))
      · exact State.status_modCore_skip _ (.inl rfl)
    · have heff := rowSkipEff_busy (s := a) (r := r) (v := v) hst hd horder hbound hp
        (fun h => hbusy ((congrArg Core.task (State.core_admittedState ..)).symm.trans h))
      exact ⟨_, (exec_rowSkipWrite hst hd hr hadm).trans (congrArg _ heff), s.admittedState_cores .., s.admittedState_mem ..,
        State.fld_setFld_same _ _ _ _ (by decide)⟩
  · rintro s i st o at_ n v hst rfl
    refine ⟨fun hadm => ⟨exec_cwDataAccess_write at_ n hst hadm, fun hreach ho => ?_⟩, fun hreached hread hpower => ?_⟩
    · obtain ⟨hmem, hshow, hnext⟩ := cwDataEff_stores_shows (s.admittedState i (Page.coreWindow st) 0x110) st (v := v)
        ((State.cwReaches_admittedState ..).trans hreach) (by rwa [State.fld_admittedState])
      rw [State.fld_admittedState, State.cwCore_admittedState, State.admittedState_mem] at hmem
      rw [State.fld_admittedState] at hnext
      exact ⟨_, exec_cwDataAccess_write at_ n hst hadm, hmem, hshow, hnext⟩
    · obtain ⟨u, hexec, hreply, hmem, hcores, hfld⟩ := exec_cwDataAccess_read hst hreached hread hpower
      obtain ⟨hmem', hcores', hreply'⟩ := u.cwAdvance_keeps st
      exact ⟨_, hexec, hreply'.trans hreply, (u.cwAdvance_shows st).2.trans (congrArg (fun x => (x + 8) % 2 ^ 19) hfld),
        hmem'.trans hmem, hcores'.trans hcores⟩
  · intro s i st
    exact exec_clearFault

end Sys2Proof.Machine

/-! Start-up, module reset and PLDM (20_, R582 to R589, R637, R638): the phase that BOOT_STAT shows after each step, what a restart
keeps, and the answers of the panel management controller. -/

namespace Sys2Proof.Machine

-- One proof at a time: each thread of Lean reserves a stack, and together they would pass the check's memory limit.
set_option Elab.async false

/-! The phase of start-up and its record. -/

section
variable (s : State)

/-- A state with another record of start-up. -/
def State.withBoot (s : State) (b : Boot) : State := { s with boot := b }

theorem State.withBoot_keeps (b : Boot) : (s.withBoot b).boot = b ∧ (s.withBoot b).phase = s.phase ∧ (s.withBoot b).mem = s.mem ∧
    ∀ p o hi lo, (s.withBoot b).fld p o hi lo = s.fld p o hi lo := ⟨rfl, rfl, rfl, fun _ _ _ _ => rfl⟩

theorem State.setPhase_eq (n : Nat) : s.setPhase n =
    (s.setFld Page.pmc Reg.BOOT_STAT 3 0 n).withBoot { s.boot with phaseAt := s.panelTime.toNat } := rfl

@[simp] theorem State.phase_setPhase (n : Nat) : (s.setPhase n).phase = n % 16 := by
  rw [State.setPhase_eq]
  exact State.fld_setFld_same _ _ _ _ (by decide)

theorem State.boot_setPhase (n : Nat) : (s.setPhase n).boot = { s.boot with phaseAt := s.panelTime.toNat } := rfl

/-- BOOT_STAT shows more than the phase. -/
theorem State.bootStat_setPhase (n : Nat) {hi lo : Nat} (hhi : hi < 64) (h : 3 < lo) :
    (s.setPhase n).fld Page.pmc Reg.BOOT_STAT hi lo = s.fld Page.pmc Reg.BOOT_STAT hi lo := by
  rw [State.setPhase_eq]
  exact State.fld_setFld_other _ _ _ _ hhi (.inr h)

theorem State.phase_setFld_bootStat {hi lo : Nat} (n : Nat) (h : 3 < lo) :
    (s.setFld Page.pmc Reg.BOOT_STAT hi lo n).phase = s.phase := State.fld_setFld_other _ _ _ _ (by decide) (.inl h)

/-! The phases that end with another one (R582). -/

theorem State.phase_phase4 : s.phase4.phase = 5 := by
  unfold State.phase4
  exact State.phase_setPhase ..

theorem State.phase_phase5 (offline : List Nat) : (s.phase5 offline).phase = 6 := by
  unfold State.phase5
  exact State.phase_setPhase ..

theorem State.phase8_ends (srv : Nat) : (s.phase8 srv).phase = 9 ∧ (s.phase8 srv).mem = s.mem := by
  unfold State.phase8
  refine ⟨State.phase_setPhase .., ?_⟩
  rw [State.setPhase_mem, State.mem_foldl (fun s c => s.setFld_mem ..), State.setFld_mem]

/-- The image of the active slot has been checked: the flash's registers are back (R585, R587). -/
def State.imageLoaded (s : State) (strap : Bool) : State :=
  { s with
    regs := s.boot.flash.foldl (fun m (e : Nat × Word) => m.set e.1 e.2) (s.regs.drop inFlash)
    boot := { s.boot with strap := strap } }

theorem State.imageLoaded_boot (strap : Bool) : (s.imageLoaded strap).boot = { s.boot with strap := strap } := rfl

/-- A sound active image ends phase 2. -/
theorem State.phase2_sound (strap : Bool) (hgood : s.slotGood s.boot.active = true) :
    s.phase2 strap = ((s.imageLoaded strap).setFld Page.pmc Reg.BOOT_STAT 8 8 s.boot.active).setPhase 3 := by
  unfold State.phase2
  rw [if_pos hgood]
  exact if_neg (by rw [hgood]; decide)

theorem State.phase2_shows (strap : Bool) (hgood : s.slotGood s.boot.active = true) (hslot : s.boot.active < 2) :
    (s.phase2 strap).phase = 3 ∧ (s.phase2 strap).boot.strap = strap ∧ (s.phase2 strap).boot.running = s.boot.running ∧
    (s.phase2 strap).fld Page.pmc Reg.BOOT_STAT 8 8 = s.boot.active := by
  let u := (s.imageLoaded strap).setFld Page.pmc Reg.BOOT_STAT 8 8 s.boot.active
  have hboot : u.boot = { s.boot with strap := strap } := s.imageLoaded_boot strap
  rw [s.phase2_sound strap hgood, State.boot_setPhase, hboot]
  exact ⟨State.phase_setPhase .., rfl, rfl, (State.bootStat_setPhase _ _ (by decide) (by decide)).trans
    ((State.fld_setFld_same _ _ _ _ (by decide)).trans (Nat.mod_eq_of_lt (by omega)))⟩

/-! The end of start-up: the declared capacity is that of the module (R580, R582). -/

/-- The declared capacity rests on no register that a change of it writes. -/
theorem State.capacityNow_congr {s t : State} (h : ∀ p o, regKey p o ≠ regKey Page.device Reg.CAP_DECLARED →
    regKey p o ≠ regKey Page.device Reg.EV_STATUS → t.reg p o = s.reg p o) : t.capacityNow = s.capacityNow := by
  have hfld (p o hi lo : Nat) (hcap : regKey p o ≠ 33) (hev : regKey p o ≠ 4) : t.fld p o hi lo = s.fld p o hi lo :=
    congrArg (bits · hi lo) (h p o hcap hev)
  have hstack (p : Nat) : t.stackState p = s.stackState p :=
    hfld _ _ _ _ (by simp only [regKey, Page.device, Reg.STACK_STATE]; omega) (by simp only [regKey, Page.device, Reg.STACK_STATE]; omega)
  have hgddr (p g : Nat) : t.fld (Page.gddr p g) gddrStatOff 15 15 = s.fld (Page.gddr p g) gddrStatOff 15 15 :=
    hfld _ _ _ _ (by simp only [regKey, Page.gddr, Page.hub]; omega) (by simp only [regKey, Page.gddr, Page.hub]; omega)
  have hport (f : Nat) : t.portUp f = s.portUp f := by
    have hstate : t.lstate f = s.lstate f :=
      hfld _ _ _ _ (by simp only [regKey, Page.fabricPort]; omega) (by simp only [regKey, Page.fabricPort]; omega)
    rw [State.portUp, hstate, State.portUp]
  have hready (p : Nat) : t.ready p = s.ready p := by
    have hstate : t.pageState p = s.pageState p :=
      hfld _ _ _ _ (by simp only [regKey, Reg.PAGE_STATE]; omega) (by simp only [regKey, Reg.PAGE_STATE]; omega)
    rw [State.ready, hstate, State.ready]
  have hbound (l : Nat) : t.boundStack l = s.boundStack l := by
    have hmap (hi lo : Nat) : t.fld Page.device (Reg.SPARE_MAP + 8 * l) hi lo = s.fld Page.device (Reg.SPARE_MAP + 8 * l) hi lo :=
      hfld _ _ _ _ (by simp only [regKey, Page.device, Reg.SPARE_MAP]; omega) (by simp only [regKey, Page.device, Reg.SPARE_MAP]; omega)
    rw [State.boundStack, hmap, hmap, State.boundStack]
  unfold State.capacityNow
  simp only [hstack, hgddr, hport, hready, hbound]

/-- Declaring the capacity leaves start-up and memory alone. -/
theorem State.exec_capChanged_declares : ∃ t, exec .capChanged s = .next t ∧ t.fld Page.device Reg.CAP_DECLARED 42 0 = t.capacityNow ∧
    t.phase = s.phase ∧ t.boot = s.boot ∧ t.mem = s.mem := by
  by_cases h : bits (s.reg Page.device Reg.CAP_DECLARED) 42 0 = s.capacityNow
  · exact ⟨_, exec_capChanged_same h, h, rfl, rfl, rfl⟩
  · obtain ⟨payload, hexec⟩ := exec_capChanged_changed h
    let u := (s.noteStale false).setReg Page.device Reg.CAP_DECLARED (capWord (s.fld Page.device Reg.CAP_DECLARED 63 48 + 1) s.capacityNow)
    have hreg (p o : Nat) (hcap : regKey p o ≠ regKey Page.device Reg.CAP_DECLARED) (hev : regKey p o ≠ regKey Page.device Reg.EV_STATUS) :
        (u.genEvent Page.device 0x0116 0 payload).reg p o = s.reg p o :=
      (State.reg_genEvent_other _ _ _ _ _ hev).trans (State.reg_setReg_other _ _ _ _ _ _ hcap)
    have hword : (u.genEvent Page.device 0x0116 0 payload).reg Page.device Reg.CAP_DECLARED =
        capWord (s.fld Page.device Reg.CAP_DECLARED 63 48 + 1) s.capacityNow :=
      (State.reg_genEvent_other _ _ _ _ _ (regKey_ne_of_offset (by decide))).trans (State.reg_setReg_same ..)
    obtain ⟨r, q, e, hevent⟩ := u.genEvent_eq Page.device 0x0116 0 payload
    refine ⟨_, hexec, ?_, congrArg (bits · 3 0) (hreg _ _ (regKey_ne_of_page (by decide) (by decide) (by decide))
      (regKey_ne_of_page (by decide) (by decide) (by decide))), ?_, State.genEvent_mem ..⟩
    · exact (congrArg (bits · 42 0) hword).trans ((bits_capWord _ (capacityNow_lt s)).1.trans (State.capacityNow_congr hreg).symm)
    · rw [hevent]
      rfl

/-- The time that start-up took, shown with its last phase. -/
def State.bootTimed (s : State) : State :=
  (s.setPhase 10).setFld Page.pmc Reg.BOOT_STAT 63 40 (((s.setPhase 10).panelTime.toNat - s.boot.since) / 1000000)

/-- A start-up that is over, before its capacity is declared. -/
def State.bootShown (s : State) : State := s.bootTimed.withBoot { s.bootTimed.boot with running := false, groups := 9 }

theorem State.bootTimed_shows : s.bootTimed.phase = 10 ∧ s.bootTimed.mem = s.mem :=
  ⟨(State.phase_setFld_bootStat _ _ (by decide)).trans (s.phase_setPhase 10), s.setPhase_mem 10⟩

theorem State.bootShown_shows : s.bootShown.phase = 10 ∧ s.bootShown.boot.running = false ∧ s.bootShown.mem = s.mem := by
  obtain ⟨hphase, hmem⟩ := s.bootTimed_shows
  obtain ⟨hboot, hphase', hmem', -⟩ := s.bootTimed.withBoot_keeps { s.bootTimed.boot with running := false, groups := 9 }
  exact ⟨hphase'.trans hphase, congrArg Boot.running hboot, hmem'.trans hmem⟩

theorem State.bootDone_ends : s.bootDone.phase = 10 ∧ s.bootDone.boot.running = false ∧
    s.bootDone.fld Page.device Reg.CAP_DECLARED 42 0 = s.bootDone.capacityNow ∧ s.bootDone.mem = s.mem := by
  obtain ⟨t, hexec, hcap, hphase, hboot, hmem⟩ := s.bootShown.exec_capChanged_declares
  obtain ⟨hphase', hrunning, hmem'⟩ := s.bootShown_shows
  have hdone : s.bootDone = t := by
    have hexec' : execCapChanged s.bootShown = .next t := hexec
    have hdef : s.bootDone = (match execCapChanged s.bootShown with
      | .next t => t
      | _ => s.bootShown) := rfl
    rw [hdef, hexec']
  rw [hdone]
  exact ⟨hphase.trans hphase', (congrArg Boot.running hboot).trans hrunning, hcap, hmem.trans hmem'⟩

/-! Restarts (R588, R589): what stays, and what is gone. -/

theorem State.restart_keeps (on : Bool) (phase : Nat) : (s.restart on phase).boot.running = true ∧
    (s.restart on phase).boot.lost = s.boot.lost ∧ (s.restart on phase).cmds = [] ∧ (s.restart on phase).tasks = [] ∧
    (s.restart on phase).mem = s.mem.filter (fun c => hostAddr c.1) ∧ (s.restart on phase).pending = s.pending :=
  ⟨rfl, rfl, rfl, rfl, rfl, rfl⟩

theorem State.phase_restart (on : Bool) (phase : Nat) : (s.restart on phase).phase = phase % 16 := by
  unfold State.restart
  exact State.phase_setPhase ..

/-- A feed's voltage and its state are shown together. -/
theorem State.feedStat_shows {f : Nat} (volt : Nat) (hf : f < 2) : (s.feedStat f 1 volt).fld Page.pmc Reg.PMC_FEED_STAT f f = 1 ∧
    (s.feedStat f 1 volt).phase = s.phase ∧ (s.feedStat f 1 volt).boot = s.boot := by
  have apart : regKey Page.pmc Reg.BOOT_STAT ≠ regKey Page.pmc Reg.PMC_FEED_STAT := regKey_ne_of_offset (by decide)
  refine ⟨?_, (State.fld_setFld_key _ _ _ _ _ _ _ _ apart).trans (State.fld_setFld_key _ _ _ _ _ _ _ _ apart), rfl⟩
  refine (State.fld_setFld_other _ _ _ _ (by omega) (.inl (by omega))).trans ((State.fld_setFld_same _ _ _ _ (by omega)).trans ?_)
  rw [show f + 1 - f = 1 by omega]
  rfl

end

/-! The commands of start-up. -/

section
variable {s : State}

/-- What a phase does when it completes (R582, R585). -/
theorem exec_phaseComplete (s : State) (ok strap : Bool) (offline : List Nat) (srv : Nat) :
    (s.phase = 1 → s.boot.lost.length < 2 → exec (.phaseComplete ok strap offline srv) s = .next (s.setPhase 2)) ∧
    (s.phase = 2 → exec (.phaseComplete ok strap offline srv) s =
      .next ((s.withBoot { s.boot with running := true, groups := 0 }).phase2 strap)) ∧
    (s.phase = 3 → ok = false ∨ s.coolantBad = true → exec (.phaseComplete ok strap offline srv) s = .next (s.bootStop St.internal)) ∧
    (s.phase = 3 → ok = true → s.coolantBad = false → s.boot.lost = [] →
      exec (.phaseComplete ok strap offline srv) s = .next (s.setPhase 4)) ∧
    (s.phase = 4 → s.boot.groups = 9 → exec (.phaseComplete ok strap offline srv) s = .next s.phase4) ∧
    (s.phase = 5 → exec (.phaseComplete ok strap offline srv) s = .next (s.phase5 offline)) ∧
    (s.phase = 6 → exec (.phaseComplete ok strap offline srv) s = .next s.phase7) ∧
    (s.phase = 7 → exec (.phaseComplete ok strap offline srv) s = .next (s.setPhase 8)) ∧
    (s.phase = 8 → exec (.phaseComplete ok strap offline srv) s = .next (s.phase8 srv)) ∧
    (s.phase = 9 → exec (.phaseComplete ok strap offline srv) s = .next s.bootDone) := by
  have hexec : exec (.phaseComplete ok strap offline srv) s = execPhaseComplete ok strap offline srv s := rfl
  rw [hexec]
  unfold execPhaseComplete
  refine ⟨fun h hlost => ?_, fun h => ?_, fun h hbad => ?_, fun h hok hcool hlost => ?_, fun h hgroups => ?_, fun h => ?_, fun h => ?_,
    fun h => ?_, fun h => ?_, fun h => ?_⟩
  all_goals rw [h]
  · exact congrArg Host.Outcome.next (if_pos hlost)
  · rfl
  · refine congrArg Host.Outcome.next (if_pos ?_)
    rcases hbad with rfl | hbad
    · rfl
    · rw [hbad, Bool.or_true]
  · exact congrArg Host.Outcome.next ((if_neg (by rw [hok, hcool]; decide)).trans (if_neg (not_not.mpr hlost)))
  · exact congrArg Host.Outcome.next (if_pos hgroups)
  · rfl
  · rfl
  · rfl
  · rfl
  · rfl

/-- What a phase does that reaches its bound (R582, R585). -/
theorem exec_phaseTimeout (offline : List Nat) (srv : Nat) (hrun : s.boot.running = true)
    (hlate : s.boot.phaseAt + phaseBound s.phase ≤ s.panelTime.toNat) :
    (s.phase = 2 ∨ s.phase = 3 → exec (.phaseTimeout offline srv) s = .next (s.bootStop St.timeout)) ∧
    (s.phase = 4 → ∃ u : State, exec (.phaseTimeout offline srv) s = .next u.phase4) ∧
    (s.phase = 5 → exec (.phaseTimeout offline srv) s = .next (s.phase5 offline)) ∧
    (s.phase = 6 → exec (.phaseTimeout offline srv) s = .next s.phase7) ∧
    (s.phase = 7 → exec (.phaseTimeout offline srv) s = .next (s.setPhase 8)) ∧
    (s.phase = 8 → exec (.phaseTimeout offline srv) s = .next (s.phase8 srv)) ∧
    (s.phase = 9 → exec (.phaseTimeout offline srv) s = .next s.bootDone) := by
  have hexec : exec (.phaseTimeout offline srv) s = execPhaseTimeout offline srv s := rfl
  have hdue : ¬ (s.boot.running = false ∨ s.panelTime.toNat < s.boot.phaseAt + phaseBound s.phase) :=
    not_or.mpr ⟨ne_false_of_eq_true hrun, Nat.not_lt.mpr hlate⟩
  rw [hexec]
  unfold execPhaseTimeout
  dsimp only
  rw [if_neg hdue]
  refine ⟨fun h => ?_, fun h => ?_, fun h => ?_, fun h => ?_, fun h => ?_, fun h => ?_, fun h => ?_⟩
  · rcases h with h | h
    · rw [h]; rfl
    · rw [h]; rfl
  · rw [h]
    exact ⟨_, rfl⟩
  · rw [h]; rfl
  · rw [h]; rfl
  · rw [h]; rfl
  · rw [h]; rfl
  · rw [h]; rfl

/-- The next column of stacks powers up (R582). -/
theorem exec_stackGroupPower (badHubs badDies badCores : List Nat) (hrun : s.boot.running = true) (hphase : s.phase = 4)
    (hleft : s.boot.groups < 9) (hdue : s.boot.phaseAt + 500000000 * s.boot.groups ≤ s.panelTime.toNat) : ∃ u : State,
    exec (.stackGroupPower badHubs badDies badCores) s = .next (u.withBoot { u.boot with groups := s.boot.groups + 1 }) := by
  have hgoes : ¬ (s.boot.running = false ∨ s.phase ≠ 4 ∨ 9 ≤ s.boot.groups ∨
      s.panelTime.toNat < s.boot.phaseAt + 500000000 * s.boot.groups) := by
    rw [hrun, hphase]
    simp
    omega
  exact ⟨_, congrArg Host.Outcome.next (if_neg hgoes)⟩

/-- A start from no power (R588): what the feed `f` leaves. -/
def State.coldStart (s : State) (f volt : Nat) : State :=
  (((s.withBoot { s.boot with lost := s.boot.lost.filter fun g => g ≠ f }).restart false 1).feedStat f 1 volt)

theorem State.coldStart_shows (s : State) {f : Nat} (volt : Nat) (hf : f < 2) : (s.coldStart f volt).phase = 1 ∧
    (s.coldStart f volt).boot.running = true ∧ f ∉ (s.coldStart f volt).boot.lost ∧
    (s.coldStart f volt).fld Page.pmc Reg.PMC_FEED_STAT f f = 1 := by
  let u := s.withBoot { s.boot with lost := s.boot.lost.filter fun g => g ≠ f }
  have hu : u.boot.lost = s.boot.lost.filter fun g => g ≠ f := rfl
  obtain ⟨hrunning, hlost, -⟩ := u.restart_keeps false 1
  obtain ⟨hshown, hphase, hboot⟩ := (u.restart false 1).feedStat_shows volt hf
  refine ⟨hphase.trans (u.phase_restart false 1), (congrArg Boot.running hboot).trans hrunning, ?_, hshown⟩
  have hlost' : (s.coldStart f volt).boot.lost = s.boot.lost.filter fun g => g ≠ f := (congrArg Boot.lost hboot).trans (hlost.trans hu)
  rw [hlost']
  simp

theorem exec_feedPresent_cold {f volt : Nat} (hf : f < 2) (hvolt : 760 ≤ volt) (hrun : s.boot.running = true)
    (hphase : s.phase = 1 ∨ s.phase = 15) : exec (.feedPresent f volt) s =
      .next ((s.coldStart f volt).withBoot { (s.coldStart f volt).boot with since := (s.coldStart f volt).panelTime.toNat }) := by
  show execFeedPresent f volt s = _
  rw [execFeedPresent, Nat.mod_eq_of_lt hf]
  exact congrArg Host.Outcome.next ((if_neg (by omega)).trans (if_pos (by rw [hrun, decide_eq_true hphase]; rfl)))

theorem exec_feedPresent_warm {f volt : Nat} (hf : f < 2) (hvolt : 760 ≤ volt) (hrun : s.boot.running = false)
    (hkept : f ∉ s.boot.lost) : exec (.feedPresent f volt) s = .next (s.feedStat f 1 volt) := by
  show execFeedPresent f volt s = _
  rw [execFeedPresent, Nat.mod_eq_of_lt hf]
  exact congrArg Host.Outcome.next ((if_neg (by omega)).trans ((if_neg (by rw [hrun, Bool.false_and]; decide)).trans
    (if_neg (by simpa using hkept))))

/-- A word of BOOT_CTL that asks for a reset under an epoch. -/
theorem bits_resetWord (epoch : Nat) : bit (place 63 63 1 ||| place 15 0 epoch) 63 = true ∧
    bits (place 63 63 1 ||| place 15 0 epoch) 15 0 = epoch % 65536 := by
  rw [bit_or, bit_place 1 (Nat.le_refl 63) (Nat.le_refl 63) (by decide), bits_or, bits_place_other 1 (by decide) (.inl (by decide)),
    bits_place_same epoch (by decide), Nat.zero_or]
  exact ⟨rfl, rfl⟩

/-- A module reset that expects the device's epoch restarts the module at phase 3; another is refused (R588). -/
theorem exec_moduleReset {i : Ident} {epoch : Nat} (strap : Bool)
    (h : Admitted s i Page.pmc Reg.BOOT_CTL (place 63 63 1 ||| place 15 0 epoch)) :
    (epoch = s.epoch Page.device → exec (.moduleReset i epoch strap) s =
      .next (((s.admittedState i Page.pmc Reg.BOOT_CTL).moduleRestart strap).bootStatus St.ok)) ∧
    (epoch < 65536 → epoch ≠ s.epoch Page.device → exec (.moduleReset i epoch strap) s =
      .next ((s.admittedState i Page.pmc Reg.BOOT_CTL).bootStatus St.epochStale)) := by
  let a := s.admittedState i Page.pmc Reg.BOOT_CTL
  obtain ⟨hgo, hword⟩ := bits_resetWord epoch
  have hexec : exec (.moduleReset i epoch strap) s = .next (bootCtlEff (place 63 63 1 ||| place 15 0 epoch) strap a) :=
    congrArg Host.Outcome.next (State.writeVia_admitted _ h)
  have hepoch : a.epoch Page.device = s.epoch Page.device := State.epoch_admittedState ..
  rw [hexec, bootCtlEff, hgo, hword, hepoch]
  constructor
  · rintro rfl
    have hlt : s.epoch Page.device < 65536 := bits_lt ..
    rw [Nat.mod_eq_of_lt hlt]
    exact congrArg Host.Outcome.next (if_neg (not_not.mpr rfl))
  · intro hlt hne
    rw [Nat.mod_eq_of_lt hlt]
    exact congrArg Host.Outcome.next (if_pos hne)

theorem State.moduleRestart_shows (s : State) (strap : Bool) : ((s.moduleRestart strap).bootStatus St.ok).phase = 3 ∧
    ((s.moduleRestart strap).bootStatus St.ok).boot.running = true ∧ ((s.moduleRestart strap).bootStatus St.ok).cmds = [] ∧
    ((s.moduleRestart strap).bootStatus St.ok).tasks = [] ∧
    ((s.moduleRestart strap).bootStatus St.ok).mem = s.mem.filter (fun c => hostAddr c.1) ∧
    ((s.moduleRestart strap).bootStatus St.ok).pending = s.pending := by
  obtain ⟨hrunning, -, hcmds, htasks, hmem, hpending⟩ := s.restart_keeps true 3
  exact ⟨(State.phase_setFld_bootStat _ _ (by decide)).trans (s.phase_restart true 3), hrunning, hcmds, htasks, hmem, hpending⟩

end

/-! PLDM (R637, R638). -/

theorem mem_of_setInsert_self (l : List Nat) (n : Nat) : (setInsert l n).contains n = true :=
  List.contains_iff_mem.mpr (mem_setInsert l n)

/-- The slots found bad after an image has been written to slot `n`. -/
def slotsAfter (bad : List Nat) (n : Nat) (sound : Bool) : List Nat :=
  if sound then bad.filter fun x => x ≠ n else setInsert bad n

theorem contains_slotsAfter (bad : List Nat) (n : Nat) (sound : Bool) : (!(slotsAfter bad n sound).contains n) = sound := by
  cases sound with
  | false => rw [slotsAfter, if_neg Bool.false_ne_true, mem_of_setInsert_self]; rfl
  | true => simp [slotsAfter]

/-- Settles O49: each phase, bound, feed, reset and PLDM request has the branch that its state selects, and what that branch
shows. -/
theorem startupCompletes : Obligations.StartupCompletes := by
  refine ⟨?_, ?_, ?_, ?_, fun s => rfl, ?_, ?_, ?_⟩
  · intro s ok strap offline srv
    obtain ⟨h1, h2, h3, h3', h4, h5, h6, h7, h8, h9⟩ := exec_phaseComplete s ok strap offline srv
    refine ⟨fun h hlost => ⟨_, h1 h hlost, s.phase_setPhase 2⟩, fun h hgood hslot => ?_,
      fun h hok hcool hlost => ⟨_, h3' h hok hcool hlost, s.phase_setPhase 4, s.setPhase_mem 4⟩, h3,
      fun h hgroups => ⟨_, h4 h hgroups, s.phase_phase4⟩, fun h => ⟨_, h5 h, s.phase_phase5 offline⟩, h6,
      fun h => ⟨_, h7 h, s.phase_setPhase 8, s.setPhase_mem 8⟩, fun h => ⟨_, h8 h, s.phase8_ends srv⟩,
      fun h => ⟨_, h9 h, s.bootDone_ends⟩⟩
    obtain ⟨hphase, hstrap, hrunning, hstat⟩ :=
      (s.withBoot { s.boot with running := true, groups := 0 }).phase2_shows strap hgood hslot
    exact ⟨_, h2 h, hphase, hstrap, hrunning, hstat⟩
  · intro s offline srv hrun hlate
    obtain ⟨h2, h4, h5, h6, h7, h8, h9⟩ := exec_phaseTimeout offline srv hrun hlate
    refine ⟨h2, fun h => ?_, h5, h6, h7, h8, h9⟩
    obtain ⟨u, hexec⟩ := h4 h
    exact ⟨_, hexec, u.phase_phase4⟩
  · intro s badHubs badDies badCores hrun hphase hleft hdue
    obtain ⟨u, hexec⟩ := exec_stackGroupPower badHubs badDies badCores hrun hphase hleft hdue
    exact ⟨_, hexec, congrArg Boot.groups (u.withBoot_keeps _).1⟩
  · intro s f volt hf hvolt
    refine ⟨fun hrun hphase => ⟨_, exec_feedPresent_cold hf hvolt hrun hphase, ?_⟩, exec_feedPresent_warm hf hvolt⟩
    obtain ⟨hphase', hrunning, hlost, hshown⟩ := s.coldStart_shows volt hf
    obtain ⟨hboot, hkeeps, -, hfld⟩ := (s.coldStart f volt).withBoot_keeps
      { (s.coldStart f volt).boot with since := (s.coldStart f volt).panelTime.toNat }
    exact ⟨hkeeps.trans hphase', (congrArg Boot.running hboot).trans hrunning, fun h => hlost ((congrArg Boot.lost hboot) ▸ h),
      (hfld ..).trans hshown⟩
  · intro s i epoch strap hadm
    obtain ⟨hreset, hrefuse⟩ := exec_moduleReset strap hadm
    obtain ⟨l, w, hl⟩ := s.admittedState_eq i Page.pmc Reg.BOOT_CTL
    refine ⟨fun h => ⟨_, hreset h, ?_⟩, fun hlt hne => ⟨_, hrefuse hlt hne, ?_⟩⟩
    · obtain ⟨hphase, hrunning, hcmds, htasks, hmem, hpending⟩ := (s.admittedState i Page.pmc Reg.BOOT_CTL).moduleRestart_shows strap
      refine ⟨hphase, hrunning, hcmds, htasks, hmem.trans ?_, hpending.trans ?_⟩
      · rw [State.admittedState_mem]
      · rw [hl]
    · rw [hl]
      exact ⟨State.fld_setFld_same _ _ _ _ (by decide), rfl, rfl⟩
  · intro s path type known
    show execPldmRequest path type known s = _
    by_cases h : type ∈ [0, 2, 4, 5] ∧ known = true
    · have hlist : ([0, 2, 4, 5].contains type && known) = true := by rw [List.contains_iff_mem.mpr h.1, h.2]; rfl
      rw [execPldmRequest, if_pos hlist, if_pos h]
      rfl
    · have hlist : ¬ ([0, 2, 4, 5].contains type && known) = true := fun h' =>
        h ⟨List.contains_iff_mem.mp (Bool.and_eq_true .. ▸ h').1, (Bool.and_eq_true .. ▸ h').2⟩
      rw [execPldmRequest, if_neg hlist, if_neg h]
      rfl
  · intro s path step sound
    refine ⟨fun h => congrArg Host.Outcome.next (if_pos h), fun h => ⟨_, congrArg Host.Outcome.next (if_neg (ne_true_of_eq_false h)),
      rfl, rfl, rfl⟩, fun h => ⟨_, congrArg Host.Outcome.next (if_pos h), contains_slotsAfter .., rfl, rfl⟩, fun h hstep => ?_⟩
    obtain ⟨n, rfl⟩ : ∃ n, step = n + 2 := ⟨step - 2, by omega⟩
    exact ⟨_, congrArg Host.Outcome.next (if_pos h), rfl, rfl, rfl⟩

end Sys2Proof.Machine
